-- ==== Sys2Proof/Word.lean ====
section
/-! DEFINITION. The word types of the module and the finite ranges of its object names (Table 0-2), with the shape of
the sparse maps that hold large, mostly empty state. -/

namespace Sys2Proof

/-- One byte. -/
abbrev Byte := BitVec 8
/-- A 16-bit word. -/
abbrev W16 := BitVec 16
/-- A 32-bit word; also the bits of an FP32 value. -/
abbrev W32 := BitVec 32
/-- A 64-bit word. -/
abbrev W64 := BitVec 64
/-- An IPv6 address. -/
abbrev Addr6 := BitVec 128

/-- Logical compute slot L00–L63. -/
abbrev Slot := Fin 64
/-- Sequencer stream S0–S15 of a compute die. -/
abbrev StreamIx := Fin 16
/-- Sequencer token T00–T63. -/
abbrev Token := Fin 64
/-- Array 0 or array 1 of a compute die. -/
abbrev ArrayIx := Fin 2
/-- Base die B0–B7. -/
abbrev BaseDie := Fin 8
/-- Compute die position 9n + p. -/
abbrev Position := Fin 72
/-- Rill 0–9. -/
abbrev RillIx := Fin 10
/-- Port 0–47. -/
abbrev Port := Fin 48
/-- Index of a network stream in StreamTable. -/
abbrev NetIx := Fin 4096
/-- Index of a collective group in GroupTable. -/
abbrev GroupIx := Fin 4096
/-- Index of a shard in ShardTable. -/
abbrev ShardIx := Fin 8192
/-- Host function: 0 is PF0, 1–8 are VF1–VF8. -/
abbrev FnIx := Fin 9
/-- Host queue Q0–Q15 of a function. -/
abbrev QueueIx := Fin 16
/-- Temperature sensor, in the order of Temperatures: 72 compute dies, 8 base dies, 16 stacks. -/
abbrev Sensor := Fin 96
/-- Flash channel F00–F63. -/
abbrev Channel := Fin 64

/-- A sparse map: key and value pairs, keys strictly rising, no value equal to what an unlisted key reads as. -/
abbrev Sparse (α : Type) := List (Nat × α)

end Sys2Proof
end

