-- ==== Sys2Proof/Syntax.lean ====
section
/-! DEFINITION. The commands of the module: one constructor per row of the table of operations and events, and the
operands each carries. A course-table row carries the slot and stream whose head issues; an event row carries what the
module's surroundings supply at that instant (a packet, a sensor reading, the bytes a host read returned). -/

namespace Sys2Proof

/-- Who sent a directory record: the transport of Table 15-9, the host function for transports 0 and 1, and the source
of R333 (a queue, an endpoint ID, or an address and port). -/
structure Requester where
  transport : Fin 6
  fn        : FnIx
  source    : Nat
  deriving DecidableEq, Repr

/-- A request record of Table 15-5. -/
structure DirRecord where
  op     : Byte
  res0   : Byte
  tag    : W16
  index  : W16
  sub    : Byte
  res1   : Byte
  offset : W32
  length : W32
  data   : List Byte
  deriving DecidableEq, Repr

/-- A weir sample of R285: input power, six rails, 96 sensors, two coolant temperatures and the input voltage, all FP32. -/
structure WeirReadings where
  pIn    : W32
  rails  : List W32
  temps  : List W32
  inlet  : W32
  outlet : W32
  vIn    : W32
  deriving DecidableEq, Repr

/-- One element that a checker or an arbiter computed otherwise than a sound array does (R275). -/
structure Upset where
  row   : Fin 128
  col   : Fin 128
  value : W32
  deriving DecidableEq, Repr

/-- What an array computed otherwise than a sound one does for a check: elements of its reference set, elements, row scales and the
Flags word of its conversion. -/
structure ArrayErrors where
  refs   : List Upset := []
  elems  : List Upset := []
  scales : List (Fin 128 × Byte) := []
  flags  : Option W32 := none
  deriving DecidableEq, Repr

/-- What a check or the arbiter found of the array's results, and whether an uncorrectable error of the capture buffer took the
check's capture away (R271, R274, R275). -/
structure CheckOutcome where
  errs : ArrayErrors
  lost : Bool
  deriving DecidableEq, Repr

/-- One byte that an update engine wrote wrong: part 0 weight tile, 1 remainder tile, 2 moment record of tile k. -/
structure Miswrite where
  tile   : Nat
  part   : Fin 3
  offset : Nat
  flip   : Byte
  deriving DecidableEq, Repr

/-- What a memory error's device address does not tell of its place (Table 8-8): the HBM address that a dirty cache line holds, the
stream whose table set bytes are struck, the byte of a millrace region. -/
inductive MemDetail where
  | none
  | dirtyLine (hbm : Nat)
  | tableSet (slot : Slot) (stream : StreamIx)
  | millrace (desc : Fin 256) (byte : Nat)
  deriving DecidableEq, Repr

/-- A memory error that the scrub, a read or a migration found: the device address of the 32-byte half-line of HBM, or of the 64-bit
word of SRAM, and which of its bits are in error. -/
structure MemError where
  device  : Nat
  flips   : List Nat
  byScrub : Bool
  detail  : MemDetail
  deriving DecidableEq, Repr

/-- Wires of one group of a rill that fail in one direction (0: lower base die sending), beyond those already steered onto
spares. -/
structure RillFault where
  dir   : Fin 2
  group : Fin 16
  wires : Nat
  deriving DecidableEq, Repr

/-- What the power-up tests of a rill found: the faults of the interconnect test (R351), and those of the training attempts
(R341). -/
structure RillTest where
  faults   : List RillFault
  attempts : List (List RillFault)
  deriving DecidableEq, Repr

/-- What the power-up tests of R341, R350 and R351 found: whether the field state fails its CRC, the positions whose
known-answer test failed, new faults of a bond group of a position, the rills' tests, the channels that failed training, and
the units lost with them. -/
structure PanelTest where
  fieldBad     : Bool
  badPositions : List Position
  bondFaults   : List (Position × Fin 128 × Nat)
  rills        : List RillTest
  badChannels  : List Channel
  lostUnits    : List Nat
  deriving DecidableEq, Repr

/-- How a screen ended (R358, R360). -/
inductive ScreenResult where
  | pass (replayed : Nat)
  | failPart (part : Fin 5)
  | failReplay (hash : W64) (replayed : Nat)
  | abandoned
  deriving DecidableEq, Repr

/-- Where the error ladder of Table 9-3 ended. -/
inductive LadderEnd where
  | step (k : Fin 4)
  | failed
  deriving DecidableEq, Repr

/-- A frame as a port's MAC and the IPv6 receiver see it (R215, R217): a frame that no other command describes. -/
structure Frame where
  port       : Port
  bytes      : Nat
  macControl : Bool
  vlanTagged : Bool
  fcsOk      : Bool
  src        : Addr6
  dest       : Addr6
  nextHeader : Byte
  icmpType   : Byte
  checksumOk : Bool
  destPort   : W16
  deriving DecidableEq, Repr

/-- A port the outside can reach the module on: a data port or the management port. -/
inductive Carrier where
  | data (p : Port)
  | mgmt
  deriving DecidableEq, Repr

/-- An IPv6 UDP endpoint. -/
structure Endpoint where
  addr : Addr6
  port : W16
  deriving DecidableEq, Repr

/-- The two ends of a datagram. -/
structure UdpEnds where
  src  : Endpoint
  dest : Endpoint
  deriving DecidableEq, Repr

/-- The port that a PTP message came in on, and its source address. -/
structure PtpSender where
  port : Port
  addr : Addr6
  deriving DecidableEq, Repr

/-- A directory message as its carrier brings it: its bytes, and over MCTP the integrity check bit (R335). -/
structure CarriedMessage where
  check : Bool
  bytes : List Byte
  deriving DecidableEq, Repr

/-- What the host has set in a function's PCIe configuration: the ATS enable (R302), the MSI-X Enable and the vectors not masked
(R314). -/
structure FnConfig where
  ats      : Bool := false
  msix     : Bool := false
  unmasked : List (Fin 16) := []
  deriving DecidableEq, Repr

/-- A function of the host port, with its PCIe configuration as it stands at the command. -/
structure FnView where
  fn  : FnIx
  cfg : FnConfig
  deriving DecidableEq, Repr

/-- A command of a queue that writes to the host: its number, and the unit of its output whose address the host refuses to
translate (R302). -/
structure OutputRun where
  n       : Nat
  refused : Option Nat
  deriving DecidableEq, Repr

/-- Why a function is disabled (R318). -/
inductive DisableCause where
  | enableClear
  | flr
  | busMasterClear
  | vfDisable
  deriving DecidableEq, Repr

/-- What loses the host link's data link (R316). -/
inductive LinkDownCause where
  | hotReset
  | secondaryBusReset
  | perst
  | surprise
  | retrainFailed
  deriving DecidableEq, Repr

/-- The commands: the steps of the module, each whole and indivisible. -/
inductive Instr where
  -- course table entries: the head of stream `st` on slot `sl` issues
  | nop (sl : Slot) (st : StreamIx)
  | endEntry (sl : Slot) (st : StreamIx)
  | base (sl : Slot) (st : StreamIx)
  | stride (sl : Slot) (st : StreamIx)
  | loop (sl : Slot) (st : StreamIx)
  | mode (sl : Slot) (st : StreamIx)
  | mma (sl : Slot) (st : StreamIx)
  | drain (sl : Slot) (st : StreamIx)
  | vop (sl : Slot) (st : StreamIx)
  | vrow (sl : Slot) (st : StreamIx)
  | vcol (sl : Slot) (st : StreamIx)
  | vtrans (sl : Slot) (st : StreamIx)
  | vld (sl : Slot) (st : StreamIx)
  | vst (sl : Slot) (st : StreamIx)
  | vreg (sl : Slot) (st : StreamIx)
  | vregBcast (sl : Slot) (st : StreamIx)
  | vregSwaph (sl : Slot) (st : StreamIx)
  | post (sl : Slot) (st : StreamIx)
  | vimm (sl : Slot) (st : StreamIx)
  | red (sl : Slot) (st : StreamIx)
  | move (sl : Slot) (st : StreamIx)
  | gather (sl : Slot) (st : StreamIx)
  | scatter (sl : Slot) (st : StreamIx)
  | rsig (sl : Slot) (st : StreamIx)
  | nsend (sl : Slot) (st : StreamIx)
  | coll (sl : Slot) (st : StreamIx)
  -- sequencer and array events
  | headDue (sl : Slot) (st : StreamIx)
  | passEnter (sl : Slot) (a : ArrayIx)
  | passSumAdd (sl : Slot) (a : ArrayIx)
  | halfConversion (sl : Slot) (a : ArrayIx)
  | drainSwap (sl : Slot) (a : ArrayIx)
  | conversionEnd (sl : Slot) (a : ArrayIx)
  | entryComplete (sl : Slot) (id : Nat)
  | remoteTokenRaise (sl : Slot) (t : Token) (count : Fin 4) (step : W64)
  | slotStall (sl : Slot)
  | stepOpen
  | slotChange (bd : BaseDie)
  | slotCopyComplete (bd : BaseDie) (unreadable : List Nat)
  | baseDieOutOfService (bd : BaseDie)
  -- update engine and commit
  | collCompletionReport (g : GroupIx) (step : W64)
  | updateStart (bd : BaseDie)
  | shardWritten (bd : BaseDie) (wrong : List Miswrite)
  | updateInterrupt (bd : BaseDie)
  | shardTriggerStall (sh : ShardIx)
  | contributedWordTake (sl : Slot) (id : Nat)
  | commitRecordFormed
  | commitStall
  | checkpointComplete (durable : Bool)
  | digestRecord (ns : NetIx)
  | commitRecord (ns : NetIx)
  | recheck (sh : ShardIx)
  | recheckRecord (ns : NetIx)
  | copyTileRecord (ns : NetIx)
  | copyMomentsRecord (ns : NetIx)
  | stopRecord (ns : NetIx)
  -- riffle checker
  | riffleCheckComplete (check : Nat) (out : CheckOutcome)
  | riffleArbiterComplete (check : Nat) (out : CheckOutcome)
  | riffleLapsed (check : Nat)
  -- weir, supply and power-up
  | weirSample (x : WeirReadings)
  | powerGearRise
  | hardLimitPersist (sensor : Sensor)
  | coolantOutOfRange (inlet : W32)
  | supplyDip (v : W32)
  | supplyRecovered
  | resetLevelCrossing (v : W32)
  | enableOpen
  | enableMate
  | qualification
  | panelResetRelease (seed : Option (BitVec 256))
  | enterFirmware
  | enterPanel (t : PanelTest)
  | enterMemory
  | enterReady
  | watchdogExpiry
  | trialBootTimeout
  -- firmware update
  | fwimageWrite (who : Requester) (offset : W32) (data : List Byte)
  | fwVerify (who : Requester)
  | fwInstall (who : Requester)
  | fwConfirm (who : Requester)
  | fwDiscard (who : Requester)
  -- panel integrity
  | refLoss
  | refReturn
  | rillFlitCrcError (r : RillIx) (dir : Fin 2) (group : Fin 16) (flits : Nat)
  | rillErrorLimit (r : RillIx) (group : Fin 16)
  | rillRetrain (who : Requester) (r : Byte)
  | partialReset (bd : BaseDie)
  | rillTrainingAttempt (r : RillIx) (lower upper : List (Fin 16 × Nat)) (took : Nat)
  | dieFailure (p : Position)
  | screenStart
  | screenEnd (p : Position) (res : ScreenResult)
  | blameRetirement (p : Position)
  | screenRequest (who : Requester) (p : Byte)
  | fieldStateWrite
  | signatureStore
  | signatureAck (who : Requester) (id : W64)
  -- memory and tiers
  | tiermapEntryWrite (who : Requester) (entry : BitVec 128)
  | stepGateWrite (who : Requester) (step : W64)
  | migrationComplete (page : Nat)
  | demandLoadComplete (page : Nat)
  | retireRequest (who : Requester) (granule : W32)
  | patrolScrub (e : MemError)
  | backingReloadComplete (tile : Nat)
  -- backwater
  | luWriteComplete (lu : Nat)
  | luReadComplete (lu : Nat) (r : LadderEnd) (lost : Bool)
  | stripeCloseTimeout (bd : BaseDie)
  | blockRelocation (bd : BaseDie) (block : Nat)
  | programEraseFailure (bd : BaseDie) (block : Nat)
  | wearLevel (bd : BaseDie)
  | readDisturbLimit (bd : BaseDie) (block : Nat)
  | flashPatrolScan (bd : BaseDie) (step1 : Bool) (bits : Nat)
  | bwEntryPersist (page : Nat)
  -- network
  | portLinkDown (p : Port)
  | portLinkUp (p : Port)
  | frameReceive (f : Frame)
  | neighborSolicitation (c : Carrier) (src target : Addr6)
  | echoRequest (c : Carrier) (src dest : Addr6) (body : List Byte)
  | data (p : Port) (ce : Bool) (pkt : List Byte)
  | ack (p : Port) (ce : Bool) (pkt : List Byte)
  | ackDelayTimer (ns : NetIx)
  | sync (p : Port) (ce : Bool) (pkt : List Byte)
  | syncack (p : Port) (ce : Bool) (pkt : List Byte)
  | needsync (p : Port) (ce : Bool) (pkt : List Byte)
  | syncRepeatTimer (ns : NetIx)
  | retxTimeout (ns : NetIx)
  | nsendTile (ns : NetIx)
  | collContribution (ns : NetIx)
  | collResult (ns : NetIx)
  | mgmt (c : Carrier) (ce : Bool) (ends : UdpEnds) (pkt : List Byte)
  | ptpSync (src : PtpSender) (domain : Byte) (seq : W16) (twoStep : Bool) (origin correction : Int) (arrival : Nat)
  | ptpFollowUp (src : PtpSender) (domain : Byte) (seq : W16) (origin correction : Int)
  | ptpDelayReq (src : PtpSender) (domain : Byte) (seq : W16) (arrival : Nat)
  | ptpDelayResp (src : PtpSender) (domain : Byte) (seq : W16) (received correction : Int)
  | ptpSyncSend
  | ptpSyncLoss
  -- host port
  | queueLineReread (f : FnView) (q : QueueIx) (sqTail cqHead : W32)
  | commandFetch (fn : FnIx) (q : QueueIx) (bytes : Option (List Byte))
  | hostNop (fn : FnIx) (q : QueueIx) (n : Nat)
  | param (fn : FnIx) (q : QueueIx) (r : OutputRun) (req : Option (List Byte))
  | tileWriteRaw (fn : FnIx) (q : QueueIx) (n : Nat) (units : List (Option (List Byte)))
  | tileWriteConvert (fn : FnIx) (q : QueueIx) (n : Nat) (units : List (Option (List Byte)))
  | tileRead (fn : FnIx) (q : QueueIx) (r : OutputRun)
  | tableLoad (fn : FnIx) (q : QueueIx) (n : Nat) (image : Option (List Byte))
  | stepAbort (fn : FnIx) (q : QueueIx) (n : Nat)
  | tiermapWrite (fn : FnIx) (q : QueueIx) (n : Nat) (records : List (Option (List Byte)))
  | tiermapRead (fn : FnIx) (q : QueueIx) (r : OutputRun)
  | stateWrite (fn : FnIx) (q : QueueIx) (n : Nat) (records : List (Option (List Byte)))
  | stateRead (fn : FnIx) (q : QueueIx) (r : OutputRun)
  | moduleReset (fn : FnIx) (q : QueueIx) (n : Nat)
  | completionWrite (f : FnView) (q : QueueIx) (n : Nat)
  | queueEnable (fn : FnIx) (q : QueueIx) (sqBase cqBase line : W64) (config : W32) (sqTail cqHead : W32)
  | queueDisable (fn : FnIx) (q : QueueIx)
  | functionEnable (f : FnView) (epochLine : W64) (observed : Bool)
  | functionDisable (fn : FnIx) (c : DisableCause)
  | quiesceComplete (fn : FnIx)
  | hostLinkDown (c : LinkDownCause)
  -- events and snapshots
  | eventRingEnable (who : Requester) (v : Byte) (head : W32)
  | eventRingDeliver (head : W32)
  | eventSinkSend
  | snapshotTimeWrite (who : Requester) (v : W64)
  | snapshotStepWrite (who : Requester) (v : W64)
  | snapshotInstant
  | snapshotComplete
  -- directory
  | stepFlagRaise (who : Requester) (v : W64)
  | stickyClear (who : Requester) (v : Byte)
  | riffleSeedWrite (who : Requester) (v : W64)
  | riffleClear (who : Requester) (v : Byte)
  | restoreRequest (who : Requester) (step : W64)
  | restoreComplete
  | rwsCancel (who : Requester) (v : Byte)
  | offenderLatchRearm (who : Requester) (sl : Slot) (a : ArrayIx) (v : BitVec 256)
  | guardRecordRearm (who : Requester) (sl : Slot) (v : BitVec 128)
  | shardTableWrite (who : Requester) (layer : Bool) (offset : W32) (data : List Byte)
  | programWrite (who : Requester) (n : Fin 8) (data : List Byte)
  | millraceTableWrite (who : Requester) (offset : W32) (data : List Byte)
  | topologyWrite (who : Requester) (sub : Fin 5) (offset : W32) (data : List Byte)
  | portmapWrite (who : Requester) (offset : W32) (data : List Byte)
  | watchMapWrite (who : Requester) (ranges : Bool) (offset : W32) (data : List Byte)
  | weirParameterWrite (who : Requester) (index : W16) (sub : Byte) (offset : W32) (data : List Byte)
  | directoryMessage (who : Requester) (m : CarriedMessage)
  | read (who : Requester) (r : DirRecord)
  | write (who : Requester) (r : DirRecord)
  | describe (who : Requester) (r : DirRecord)
  | next (who : Requester) (r : DirRecord)
  -- management endpoints and attestation
  | setEndpointId (pcie : Bool) (eid : Byte)
  | getEndpointId (pcie : Bool)
  | getMctpVersionSupport (pcie : Bool) (msgType : Byte)
  | getMessageTypeSupport (pcie : Bool)
  | setdasa (staticAddr dynAddr : Byte)
  | entdaa (dynAddr : Byte)
  | getVersion (pcie : Bool)
  | getCapabilities (pcie : Bool)
  | negotiateAlgorithms (pcie : Bool)
  | getDigests (pcie : Bool)
  | getCertificate (pcie : Bool) (slot : Byte) (offset length : W16)
  | challenge (pcie : Bool) (slot : Byte) (nonce : BitVec 256)
  | getMeasurements (pcie : Bool) (index : Byte) (signed : Bool) (nonce : BitVec 256)
  | spdmUnsupportedRequest (pcie : Bool) (code : Byte)
  -- pins and links
  | perstAssert
  | hostLinkUp (rate width : Byte)
  | perstDeassert
  | requestRetryStatusEnd
  | supplyHystCrossing (v : W32)
  | inputRisesTo38V (v : W32)
  | fwInstallComplete (ok : Bool)
  | mgmtPortLinkChange (up : Bool)
  deriving DecidableEq, Repr

end Sys2Proof
end

