-- ==== Sys2Proof/Decode.lean ====
section
/-! DEFINITION. The command that a word of spec/opcode_table.json spells. No row of that table gives any bits: a course
table entry is decoded where it issues (`enOpcode`), and an event has no word. -/

namespace Sys2Proof

/-- The command that the low `nbits` bits of `w` spell by the table: none, for no row of the table gives bits. -/
def decodeTableWord (_nbits _w : Nat) : Option Instr := none

end Sys2Proof
end

