-- ==== Sys2Proof/Config.lean ====
section
/-! DEFINITION. What an implementation fixes and what the manual leaves open: opaque constants and functions, so that no
proof can see a value. Each is named in the assumption log. -/

namespace Sys2Proof.Config

/-- The FP32 bits of a transcendental function whose enclosure cannot be rounded (DESIGN CHOICE, assumption log 12). -/
opaque freeTranscendental (func a : Nat) : BitVec 32

/-- Whether an unfinished write of a logical unit left its new content at a power loss (DESIGN CHOICE, assumption log 20). -/
opaque freeLuNew (draw : Nat) : Bool

/-- Spare flash blocks of a base die as delivered (per module, 0x3051.04; DESIGN CHOICE, assumption log 21). -/
opaque spareBlocks (bd : Nat) : W32

/-- Credit for held messages outside every share of a stream, in segments (R243; DESIGN CHOICE, assumption log 22). -/
opaque heldCredit (stream : Nat) : W16

/-- The credit that a sender holds from SYNCACK to the first ACK, in segments (DESIGN CHOICE, assumption log 22). -/
opaque firstCredit (stream : Nat) : W16

/-- Part `part` (0 to 3: M1, M2, S1, S2) of a moment record whose content is undefined (R130; DESIGN CHOICE, assumption log 23). -/
opaque freeMoment (draw bd record part : Nat) : BitVec 131072

/-- The data of a 16-bit tile of student state that is undefined after a failed restore (R269; DESIGN CHOICE, assumption log 24). -/
opaque freeTileData (draw tile : Nat) : BitVec 262144

/-- The sidecar of such a tile (R269; DESIGN CHOICE, assumption log 24). -/
opaque freeSidecar (draw tile : Nat) : BitVec 2048

/-- NonZero of a layer whose posts carry no counts (R280; DESIGN CHOICE, assumption log 25). -/
opaque freeNonZero (draw : Nat) : W32

/-- The servo's increment above its lowest, in 2^−32 ns (R234; DESIGN CHOICE, assumption log 30). -/
opaque freeServo (draw : Nat) : W32

/-- Time from qualification to panel reset release, in µs (at most 12 ms; R382; DESIGN CHOICE, assumption log 31). -/
opaque freeRelease (draw : Nat) : W16

/-- Revision fields of a CPER record header and section descriptor, as UEFI gives them (R375, R376; DESIGN CHOICE, assumption
log 32). -/
opaque cperRevision (sec : Bool) : W16

/-- The panel record's serial, 12 ASCII characters as a little-endian number (R8; DESIGN CHOICE, assumption log 33). -/
opaque serial : BitVec 96
/-- The panel record's version (R8; DESIGN CHOICE, assumption log 33). -/
opaque recordVersion : W32
/-- A die's revision register: entry `i` of DieRevisions, its revision in bits [15:0] (R8, R349; DESIGN CHOICE, assumption log
33). -/
opaque dieRevision (i : Nat) : W16
/-- MacBase, MgmtMac, the I3C static address and provisional ID of the panel record (DESIGN CHOICE, assumption log 33). -/
opaque macBase : BitVec 48
/-- MgmtMac (DESIGN CHOICE, assumption log 33). -/
opaque mgmtMac : BitVec 48
/-- I3cStaticAddress (DESIGN CHOICE, assumption log 33). -/
opaque i3cStatic : BitVec 7
/-- I3cPid (DESIGN CHOICE, assumption log 33). -/
opaque i3cPid : BitVec 48
/-- Jaerasar's IANA enterprise number, VendorIana (0x1020.08; DESIGN CHOICE, assumption log 34). -/
opaque vendorIana : W32
/-- ObjectCount (0x1010.01; DESIGN CHOICE, assumption log 34). -/
opaque objectCount : W16
/-- The spare position of a base die as delivered (R350; DESIGN CHOICE, assumption log 33). -/
opaque factorySpare (bd : Nat) : BitVec 4
/-- Wires of a group of a rill, in one direction, that the panel record steers onto the group's two spares (R350); above 2 it
counts as 2 (DESIGN CHOICE, assumption log 33). -/
opaque factoryRillRepairs (rill dir group : Nat) : BitVec 2
/-- Bonds of a group of a position that the panel record steers onto the group's two spares (R350); above 2 it counts as 2 (DESIGN
CHOICE, assumption log 33). -/
opaque factoryBondRepairs (pos group : Nat) : BitVec 2
/-- The DeviceID certificate of the panel record, zero-padded to 2048 bytes (DESIGN CHOICE, assumption log 33). -/
opaque deviceIdCertificate : BitVec 16384
/-- The alias certificate that the boot ROM issues (R392; DESIGN CHOICE, assumption log 35). -/
opaque aliasCertificate (draw : Nat) : BitVec 16384
/-- Whether the panel record passes R387 (DESIGN CHOICE, assumption log 33). -/
opaque recordGood : Bool
/-- SvnFloor and KeyFloor of the panel record (R389; DESIGN CHOICE, assumption log 33). -/
opaque factoryFloors : BitVec 32
/-- Element `e` (4096 bytes) of a firmware slot as the factory left it (DESIGN CHOICE, assumption log 33). -/
opaque factoryImage (slot e : Nat) : BitVec 32768
/-- SHA-384 (R386; DESIGN CHOICE, assumption log 36). -/
opaque sha384 (m : List Byte) : BitVec 384
/-- The hash of the root key in the boot ROM (Table 18-4; DESIGN CHOICE, assumption log 36). -/
opaque rootKeyHash : BitVec 384
/-- ECDSA verification on brainpoolP384r1 with SHA-384: key, message, signature (R386; DESIGN CHOICE, assumption log 36). -/
opaque ecdsaVerify (key : List Byte) (m : List Byte) (sig : List Byte) : Bool
/-- The Mac of a boot state record, HMAC-SHA-384 with the module's K_bs (R388, R391; DESIGN CHOICE, assumption log 36). -/
opaque bootMac (m : List Byte) : BitVec 384
/-- A signature by the alias key; no rule fixes its random part (R394; DESIGN CHOICE, assumption log 36). -/
opaque aliasSignature (draw : Nat) : BitVec 768
/-- A nonce of the responder (R394; DESIGN CHOICE, assumption log 36). -/
opaque freeNonce (draw : Nat) : BitVec 256
/-- The certificate chain of slot 0 above the alias certificate (R393; DESIGN CHOICE, assumption log 35). -/
opaque certificateChain (draw : Nat) : List Byte
/-- Measurements 1 and 5, fixed in ROM and in the panel record (R395; DESIGN CHOICE, assumption log 36). -/
opaque fixedMeasurement (index : Nat) : BitVec 384
/-- A non-zero epoch from the steward's random source (R227; DESIGN CHOICE, assumption log 37). -/
opaque freeEpoch (draw : Nat) : W32
/-- How many host writes of a queue had not received global observation (R316; DESIGN CHOICE, assumption log 38). -/
opaque freeDropped (draw : Nat) : W32
/-- C at a sample at which its rule divides zero by zero, before the clamp (R289; DESIGN CHOICE, assumption log 39). -/
opaque freeCorrection (draw : Nat) : W32

/-- Whether the writes of an entry in flight at a step abort become visible (R46; DESIGN CHOICE, assumption log 76). -/
opaque freeAborted (draw : Nat) : Bool

/-- How many logical units of a checkpoint were written before it was abandoned (R210; DESIGN CHOICE, assumption log 92). -/
opaque freeProgress (draw : Nat) : Nat

/-- Whether the hardware detects a memory error that no rule says it detects (R183; DESIGN CHOICE, assumption log 87). -/
opaque freeDetected (draw : Nat) : Bool

/-- By how many ac an operand that is not resident comes late (R36; DESIGN CHOICE, assumption log 84). -/
opaque freeArrival (draw : Nat) : Nat

/-- The units field of a descriptor whose text does not fit its eight bytes (Table 15-7; DESIGN CHOICE, assumption log 42). -/
opaque freeUnits (index sub : Nat) : W64
/-- The status of a READ, DESCRIBE or NEXT of a vendor object (R322; DESIGN CHOICE, assumption log 43). -/
opaque vendorStatus (draw op index sub : Nat) : Byte
/-- The data of such an answer (DESIGN CHOICE, assumption log 43). -/
opaque vendorData (draw op index sub : Nat) : List Byte
/-- The first vendor parameter after a name: index and subindex (DESIGN CHOICE, assumption log 43). -/
opaque vendorNext (index sub : Nat) : Option (W16 × Byte)
/-- A word of host memory that the module reads where the command does not carry it (DESIGN CHOICE, assumption log 44). -/
opaque hostWord (draw : Nat) : W32

end Sys2Proof.Config
end

