-- ==== Sys2Proof/Machine/Store.lean ====
section
/-! DEFINITION. Sparse maps in canonical form, little-endian byte strings, bit fields (R3, R4) and the two CRCs the manual
names: CRC-64/ECMA-182 (R63) and CRC-32C (R218). -/

namespace Sys2Proof.Machine

/-- Read key `k`; an unlisted key reads as `d k`. -/
def Sparse.get {α : Type} (d : Nat → α) : Sparse α → Nat → α
  | [], k => d k
  | (k', v) :: m, k => if k < k' then d k else if k = k' then v else Sparse.get d m k

/-- Store `v` under key `k`, keeping the canonical form: storing what an unlisted key reads as removes the entry. -/
def Sparse.put {α : Type} [DecidableEq α] (d : Nat → α) : Sparse α → Nat → α → Sparse α
  | [], k, v => if v = d k then [] else [(k, v)]
  | (k', v') :: m, k, v =>
    if k < k' then (if v = d k then (k', v') :: m else (k, v) :: (k', v') :: m)
    else if k = k' then
      (if v = d k then m.dropWhile (fun e => decide (e.1 ≤ k)) else (k, v) :: m)
    else (k', v') :: Sparse.put d m k v

/-- The canonical form: keys above `lo` and strictly rising, no entry equal to the default. -/
def Sparse.wfFrom {α : Type} [DecidableEq α] (d : Nat → α) : Nat → Sparse α → Bool
  | _, [] => true
  | lo, (k, v) :: m => decide (lo ≤ k) && decide (v ≠ d k) && Sparse.wfFrom d (k + 1) m

/-- The canonical form of a sparse map. -/
def Sparse.wf {α : Type} [DecidableEq α] (d : Nat → α) (m : Sparse α) : Bool := Sparse.wfFrom d 0 m

/-- Store a run of values under consecutive keys. -/
def Sparse.putRun {α : Type} [DecidableEq α] (d : Nat → α) (m : Sparse α) (k : Nat) : List α → Sparse α
  | [] => m
  | v :: vs => Sparse.putRun d (Sparse.put d m k v) (k + 1) vs

/-- The default of a map whose unlisted keys read zero. -/
def zeros : Nat → Nat := fun _ => 0

/-- Bits [lo + n − 1 : lo] of a number (R3). -/
def bits (x lo n : Nat) : Nat := (x >>> lo) % 2 ^ n

/-- `x` with bits [lo + n − 1 : lo] replaced by `v`. -/
def setBits (x lo n v : Nat) : Nat :=
  x % 2 ^ lo + (v % 2 ^ n) * 2 ^ lo + (x >>> (lo + n)) * 2 ^ (lo + n)

/-- Bit `i` of a number. -/
def bit (x i : Nat) : Bool := x.testBit i

/-- 1 for true. -/
def b2n (b : Bool) : Nat := if b then 1 else 0

/-- The value of a two's-complement field of `n` bits. -/
def signedOf (n x : Nat) : Int := if x % 2 ^ n < 2 ^ (n - 1) then (x % 2 ^ n : Nat) else (x % 2 ^ n : Nat) - (2 ^ n : Nat)

/-- A number modulo 2^n of an integer. -/
def wrapInt (n : Nat) (x : Int) : Nat := (x % (2 ^ n : Nat)).toNat

/-- Ceiling division. -/
def ceilDiv (a b : Nat) : Nat := (a + b - 1) / b

/-- The little-endian number of a byte list (R4). -/
def leNat : List Byte → Nat
  | [] => 0
  | b :: bs => b.toNat + 256 * leNat bs

/-- The big-endian number of a byte list (R4: network headers). -/
def beNat (bs : List Byte) : Nat := bs.foldl (fun a b => a * 256 + b.toNat) 0

/-- `n` bytes of a number, little-endian. -/
def leBytes : Nat → Nat → List Byte
  | 0, _ => []
  | n + 1, x => BitVec.ofNat 8 x :: leBytes n (x / 256)

/-- `n` bytes of a number, big-endian. -/
def beBytes (n x : Nat) : List Byte := (leBytes n x).reverse

/-- Bytes [off, off + n) of a list, as a list. -/
def slice (bs : List Byte) (off n : Nat) : List Byte := (bs.drop off).take n

/-- The little-endian field of `n` bytes at `off`; missing bytes read zero. -/
def leField (bs : List Byte) (off n : Nat) : Nat := leNat (slice bs off n)

/-- The big-endian field of `n` bytes at `off`. -/
def beField (bs : List Byte) (off n : Nat) : Nat := beNat (slice bs off n)

/-- Cut a list into pieces of `n`, at most `fuel` of them. -/
def chunks {α : Type} (n : Nat) : Nat → List α → List (List α)
  | 0, _ => []
  | fuel + 1, xs => if xs.isEmpty then [] else xs.take n :: chunks n fuel (xs.drop n)

/-- One bit step of CRC-64/ECMA-182: polynomial 0x42F0_E1EB_A9EA_3693, no reflection (R63). -/
def crc64Bit (c : Nat) : Nat :=
  if c < 2 ^ 63 then 2 * c else Nat.xor (2 * c - 2 ^ 64) 0x42F0E1EBA9EA3693

/-- One byte of CRC-64/ECMA-182. -/
def crc64Byte (c : Nat) (b : Byte) : Nat :=
  let x := Nat.xor c (b.toNat * 2 ^ 56)
  crc64Bit (crc64Bit (crc64Bit (crc64Bit (crc64Bit (crc64Bit (crc64Bit (crc64Bit x)))))))

/-- CRC-64/ECMA-182 of a byte string, continued from `c` (initial value zero, final exclusive-or zero). -/
def crc64From (c : Nat) (bs : List Byte) : Nat := bs.foldl crc64Byte c

/-- CRC-64/ECMA-182 of a byte string. -/
def crc64 (bs : List Byte) : Nat := crc64From 0 bs

/-- One bit step of CRC-32C, reflected polynomial 0x82F6_3B78. -/
def crc32cBit (c : Nat) : Nat := if c % 2 = 1 then Nat.xor (c / 2) 0x82F63B78 else c / 2

/-- One byte of CRC-32C. -/
def crc32cByte (c : Nat) (b : Byte) : Nat :=
  let x := Nat.xor c b.toNat
  crc32cBit (crc32cBit (crc32cBit (crc32cBit (crc32cBit (crc32cBit (crc32cBit (crc32cBit x)))))))

/-- CRC-32C of a byte string: initial value and final exclusive-or all ones. -/
def crc32c (bs : List Byte) : Nat := Nat.xor (bs.foldl crc32cByte 0xFFFFFFFF) 0xFFFFFFFF

/-- Element `i`, or a default. -/
def nth {α : Type} (xs : List α) (i : Nat) (d : α) : α := xs.getD i d

/-- Element `i` of a list becomes `v`; a list that is too short is filled up with `d`. -/
def setAt {α : Type} (d : α) (xs : List α) (i : Nat) (v : α) : List α :=
  if i < xs.length then xs.set i v else xs ++ List.replicate (i - xs.length) d ++ [v]

/-- The remove-first of a list by a test. -/
def removeFirst {α : Type} (p : α → Bool) : List α → List α
  | [] => []
  | x :: xs => if p x then xs else x :: removeFirst p xs

/-- Insert into a list sorted by a key, after equal keys. -/
def insertBy {α : Type} (key : α → Nat) (x : α) : List α → List α
  | [] => [x]
  | y :: ys => if key x < key y then x :: y :: ys else y :: insertBy key x ys

/-- A list in ascending order of a key. -/
def sortBy {α : Type} (key : α → Nat) (xs : List α) : List α := xs.foldl (fun acc x => insertBy key x acc) []

/-- Indices 0 to n − 1 for which `p` holds. -/
def indicesWhere (n : Nat) (p : Nat → Bool) : List Nat := (List.range n).filter p

end Sys2Proof.Machine
end

