-- ==== Sys2Proof/Machine/Numbers.lean ====
section
/-! DEFINITION. Element formats, exact values, scale bytes and the one conversion of R57; and the FP32 arithmetic of R7
(every result rounded to nearest even once). -/

namespace Sys2Proof.Machine

/-- Element formats, Table 3-1. -/
inductive Fmt where
  | e4m3 | e5m2 | int8 | bf16 | fp16 | fp32
  deriving DecidableEq, Repr

/-- The format of a code of Table 2-5; the reserved codes name none. -/
def Fmt.ofCode : Nat → Option Fmt
  | 0 => some .e4m3
  | 1 => some .e5m2
  | 2 => some .int8
  | 3 => some .bf16
  | 4 => some .fp16
  | 5 => some .fp32
  | _ => none

/-- The format of a code, where a reserved code cannot occur. -/
def Fmt.ofCodeD (c : Nat) : Fmt := (Fmt.ofCode c).getD .fp32

/-- Codes of Table 2-5. -/
def Fmt.code : Fmt → Nat
  | .e4m3 => 0 | .e5m2 => 1 | .int8 => 2 | .bf16 => 3 | .fp16 => 4 | .fp32 => 5

/-- Element width in bytes. -/
def Fmt.bytes : Fmt → Nat
  | .e4m3 => 1 | .e5m2 => 1 | .int8 => 1 | .bf16 => 2 | .fp16 => 2 | .fp32 => 4

/-- Mantissa field bits. -/
def Fmt.man : Fmt → Nat
  | .e4m3 => 3 | .e5m2 => 2 | .int8 => 7 | .bf16 => 7 | .fp16 => 10 | .fp32 => 23

/-- Exponent field bits. -/
def Fmt.expBits : Fmt → Nat
  | .e4m3 => 4 | .e5m2 => 5 | .int8 => 0 | .bf16 => 8 | .fp16 => 5 | .fp32 => 8

/-- Exponent bias. -/
def Fmt.bias : Fmt → Nat
  | .e4m3 => 7 | .e5m2 => 15 | .int8 => 0 | .bf16 => 127 | .fp16 => 15 | .fp32 => 127

/-- Whether the format has infinities. -/
def Fmt.hasInf : Fmt → Bool
  | .e4m3 => false | .int8 => false | _ => true

/-- Largest finite encoding, without sign (Table 3-2). -/
def Fmt.maxFin : Fmt → Nat
  | .e4m3 => 0x7E | .e5m2 => 0x7B | .int8 => 0x7F | .bf16 => 0x7F7F | .fp16 => 0x7BFF | .fp32 => 0x7F7FFFFF

/-- Canonical NaN (Table 3-2); INT8 has none and takes 0x00 under R57. -/
def Fmt.nan : Fmt → Nat
  | .e4m3 => 0x7F | .e5m2 => 0x7F | .int8 => 0 | .bf16 => 0x7FC0 | .fp16 => 0x7E00 | .fp32 => 0x7FC00000

/-- Infinity encoding, without sign. -/
def Fmt.inf : Fmt → Nat
  | .e5m2 => 0x7C | .bf16 => 0x7F80 | .fp16 => 0x7C00 | .fp32 => 0x7F800000 | f => f.maxFin

/-- The sign bit of a floating-point encoding. -/
def Fmt.signBit (f : Fmt) : Nat := 2 ^ (8 * f.bytes - 1)

/-- An exact value: NaN, an infinity, or (−1)^neg × num / den × 2^exp (den is never zero in a value built here). -/
inductive Val where
  | nan
  | inf (neg : Bool)
  | fin (neg : Bool) (num den : Nat) (exp : Int)
  deriving DecidableEq, Repr

/-- Zero with a sign. -/
def Val.zero (neg : Bool) : Val := .fin neg 0 1 0

/-- The exact value of an integer. -/
def Val.ofInt (x : Int) : Val := .fin (decide (x < 0)) x.natAbs 1 0

/-- The sign of a value; NaN counts as positive. -/
def Val.neg? : Val → Bool
  | .nan => false
  | .inf s => s
  | .fin s _ _ _ => s

/-- Whether the value is NaN. -/
def Val.isNan : Val → Bool
  | .nan => true
  | _ => false

/-- Whether the value is an infinity. -/
def Val.isInf : Val → Bool
  | .inf _ => true
  | _ => false

/-- Whether the value is a zero. -/
def Val.isZero : Val → Bool
  | .fin _ n _ _ => n == 0
  | _ => false

/-- Negation. -/
def Val.negate : Val → Val
  | .nan => .nan
  | .inf s => .inf (!s)
  | .fin s n d e => .fin (!s) n d e

/-- Magnitude. -/
def Val.abs : Val → Val
  | .nan => .nan
  | .inf _ => .inf false
  | .fin _ n d e => .fin false n d e

/-- Multiplication by 2^k. -/
def Val.shift (v : Val) (k : Int) : Val :=
  match v with
  | .fin s n d e => .fin s n d (e + k)
  | v => v

/-- The value of an encoding (R51); any NaN encoding reads as NaN (R52). -/
def decodeElem (f : Fmt) (x : Nat) : Val :=
  match f with
  | .int8 => Val.ofInt (signedOf 8 x)
  | f =>
    let neg := bit x (8 * f.bytes - 1)
    let ex := bits x f.man f.expBits
    let m := bits x 0 f.man
    let top := 2 ^ f.expBits - 1
    if ex = top ∧ f.hasInf then (if m = 0 then .inf neg else .nan)
    else if ex = top ∧ m = 2 ^ f.man - 1 then .nan
    else if ex = 0 then .fin neg m 1 (1 - (f.bias : Int) - f.man)
    else .fin neg (2 ^ f.man + m) 1 ((ex : Int) - f.bias - f.man)

/-- The value of an element with its row's scale byte (R54, R55). -/
def decodeScaled (f : Fmt) (scale x : Nat) : Val :=
  if scale = 0xFF then .nan else (decodeElem f x).shift ((scale : Int) - 127)

/-- Flag bits of Table 3-6. -/
def flagINV : Nat := 1
/-- OVF of Table 3-6. -/
def flagOVF : Nat := 2
/-- UNF of Table 3-6. -/
def flagUNF : Nat := 4
/-- LOSS of Table 3-6. -/
def flagLOSS : Nat := 8
/-- POISON of Table 3-6. -/
def flagPOISON : Nat := 16

/-- a / 2^k for a = num / den: numerator and denominator. -/
def scaleFrac (num den : Nat) (k : Int) : Nat × Nat :=
  if 0 ≤ k then (num, den * 2 ^ k.toNat) else (num * 2 ^ (-k).toNat, den)

/-- Round a non-negative fraction to an integer, ties to even. -/
def roundHalfEven (num den : Nat) : Nat :=
  let q := num / den
  let r := num % den
  if 2 * r < den then q
  else if 2 * r > den then q + 1
  else q + q % 2

/-- floor(log2(num / den × 2^exp)), for num and den not zero. -/
def floorLog2 (num den : Nat) (exp : Int) : Int :=
  let k : Int := (Nat.log2 num : Int) - Nat.log2 den
  -- num / den lies in (2^(k-1), 2^(k+1))
  let below := if 0 ≤ k then num < den * 2 ^ k.toNat else num * 2 ^ (-k).toNat < den
  (if below then k - 1 else k) + exp

/-- Clip mode of R57. -/
inductive ClipMode where
  | sat | ieee
  deriving DecidableEq, Repr

/-- The conversion of R57: the encoding and the flag it raises. -/
def convert (v : Val) (f : Fmt) (mode : ClipMode) : Nat × Nat :=
  match v with
  | .nan => (f.nan, flagINV)
  | .inf s =>
    if f = .int8 then ((if s then 0x81 else 0x7F), flagOVF)
    else
      let sb := if s then f.signBit else 0
      if mode = .ieee ∧ f.hasInf then (sb + f.inf, 0) else (sb + f.maxFin, flagOVF)
  | .fin s n d ex =>
    if f = .int8 then
      let (a, b) := scaleFrac n d (-ex)
      let q := roundHalfEven a b
      if q > 127 then ((if s then 0x81 else 0x7F), flagOVF)
      else ((if s then (256 - q) % 256 else q), 0)
    else
      let sb := if s then f.signBit else 0
      if n = 0 then (sb, 0)
      else
        let p := f.man
        let emin : Int := 1 - (f.bias : Int)
        let e := max (floorLog2 n d ex) emin
        let (a, b) := scaleFrac n d (e - p - ex)
        let q0 := roundHalfEven a b
        let carry := q0 = 2 ^ (p + 1)
        let q := if carry then 2 ^ p else q0
        let e := if carry then e + 1 else e
        let enc : Nat := if q ≥ 2 ^ p then ((e + f.bias).toNat) * 2 ^ p + (q - 2 ^ p) else q
        if enc > f.maxFin then
          if mode = .ieee ∧ f.hasInf then (sb + f.inf, flagOVF) else (sb + f.maxFin, flagOVF)
        else if q = 0 then (sb, flagUNF)
        else (sb + enc, 0)

/-- Exact sum. Opposite infinities give NaN; an exact zero sum of unlike signs is +0. -/
def Val.add : Val → Val → Val
  | .nan, _ => .nan
  | _, .nan => .nan
  | .inf a, .inf b => if a = b then .inf a else .nan
  | .inf a, _ => .inf a
  | _, .inf b => .inf b
  | .fin s1 n1 d1 e1, .fin s2 n2 d2 e2 =>
    if n1 = 0 ∧ n2 = 0 then .fin (s1 && s2) 0 1 0
    else
      let e := min e1 e2
      let a : Nat := n1 * 2 ^ (e1 - e).toNat * d2
      let b : Nat := n2 * 2 ^ (e2 - e).toNat * d1
      if s1 = s2 then .fin s1 (a + b) (d1 * d2) e
      else if a > b then .fin s1 (a - b) (d1 * d2) e
      else if b > a then .fin s2 (b - a) (d1 * d2) e
      else .fin false 0 1 0

/-- Exact product. Zero times infinity gives NaN. -/
def Val.mul : Val → Val → Val
  | .nan, _ => .nan
  | _, .nan => .nan
  | .inf a, .inf b => .inf (a != b)
  | .inf a, .fin s n _ _ => if n = 0 then .nan else .inf (a != s)
  | .fin s n _ _, .inf b => if n = 0 then .nan else .inf (s != b)
  | .fin s1 n1 d1 e1, .fin s2 n2 d2 e2 => .fin (s1 != s2) (n1 * n2) (d1 * d2) (e1 + e2)

/-- Exact quotient. 0/0 and inf/inf give NaN; a non-zero value over zero gives an infinity. -/
def Val.div : Val → Val → Val
  | .nan, _ => .nan
  | _, .nan => .nan
  | .inf _, .inf _ => .nan
  | .inf a, .fin s _ _ _ => .inf (a != s)
  | .fin s _ _ _, .inf b => .fin (s != b) 0 1 0
  | .fin s1 n1 d1 e1, .fin s2 n2 d2 e2 =>
    if n2 = 0 then (if n1 = 0 then .nan else .inf (s1 != s2))
    else .fin (s1 != s2) (n1 * d2) (d1 * n2) (e1 - e2)

/-- Comparison of two values that are not NaN: −1, 0 or 1; the two zeros are equal. -/
def Val.cmp (a b : Val) : Int :=
  match a, b with
  | .inf x, .inf y => if x = y then 0 else if x then -1 else 1
  | .inf x, _ => if x then -1 else 1
  | _, .inf y => if y then 1 else -1
  | a, b =>
    match a.add b.negate with
    | .fin s n _ _ => if n = 0 then 0 else if s then -1 else 1
    | _ => 0

/-- `a` is below `b`, neither NaN. -/
def Val.lt (a b : Val) : Bool := !a.isNan && !b.isNan && a.cmp b == -1

/-- The FP32 value of a word. -/
def f32 (x : Nat) : Val := decodeElem .fp32 x

/-- Round an exact value once to FP32 (R7): the bits and the flag. -/
def toF32 (v : Val) : Nat × Nat := convert v .fp32 .ieee

/-- FP32 addition, rounded once. -/
def fadd (a b : Nat) : Nat := (toF32 ((f32 a).add (f32 b))).1
/-- FP32 subtraction. -/
def fsub (a b : Nat) : Nat := (toF32 ((f32 a).add (f32 b).negate)).1
/-- FP32 multiplication. -/
def fmul (a b : Nat) : Nat := (toF32 ((f32 a).mul (f32 b))).1
/-- FP32 division. -/
def fdiv (a b : Nat) : Nat := (toF32 ((f32 a).div (f32 b))).1
/-- FP32 fused multiply-add. -/
def ffma (a b c : Nat) : Nat := (toF32 (((f32 a).mul (f32 b)).add (f32 c))).1
/-- FP32 comparison below; false where either is NaN. -/
def flt (a b : Nat) : Bool := (f32 a).lt (f32 b)
/-- FP32 comparison below or equal. -/
def fle (a b : Nat) : Bool := !(f32 a).isNan && !(f32 b).isNan && decide ((f32 a).cmp (f32 b) ≤ 0)
/-- FP32 comparison at or above. -/
def fge (a b : Nat) : Bool := fle b a

/-- Integer square root by bisection on bits, structurally on the bit count. -/
def isqrtFrom : Nat → Nat → Nat → Nat
  | 0, _, acc => acc
  | k + 1, x, acc =>
    let t := acc + 2 ^ k
    isqrtFrom k x (if t * t ≤ x then t else acc)

/-- Floor of the square root. -/
def isqrt (x : Nat) : Nat := isqrtFrom (Nat.log2 x / 2 + 1) x 0

/-- Round toward +infinity to FP32 for a non-negative exact value (R7: the comparison bound of R274). -/
def toF32Up (v : Val) : Nat :=
  match v with
  | .fin false n d ex =>
    if n = 0 then 0
    else
      let e := max (floorLog2 n d ex) (-126)
      let (a, b) := scaleFrac n d (e - 23 - ex)
      let q0 := ceilDiv a b
      let carry := q0 = 2 ^ 24
      let q := if carry then 2 ^ 23 else q0
      let e := if carry then e + 1 else e
      let enc := if q ≥ 2 ^ 23 then (e + 127).toNat * 2 ^ 23 + (q - 2 ^ 23) else q
      if enc > 0x7F7FFFFF then 0x7F800000 else enc
  | .inf false => 0x7F800000
  | .nan => 0x7FC00000
  | _ => 0x80000000

end Sys2Proof.Machine
end

