-- ==== Sys2Proof/Machine/ParamTable.lean ====
section
/-! DEFINITION. The parameter directory as data: the name of every parameter (R321), and its row in the table of its
chapter, with type, access code, element size, element count, readiness (R330) and units (Tables 15-2, 15-3, 15-7). -/

namespace Sys2Proof.Machine

/-- A type of Table 15-2. -/
inductive PType where
  | u8 | u16 | u32 | u64 | i32 | f32 | enum | bits | str | blob | table
  deriving DecidableEq, Repr

/-- The type codes of Table 15-2. -/
def PType.code : PType → Nat
  | .u8 => 1 | .u16 => 2 | .u32 => 3 | .u64 => 4 | .i32 => 5 | .f32 => 6
  | .enum => 7 | .bits => 8 | .str => 9 | .blob => 10 | .table => 11

/-- An access code of Table 15-3. -/
inductive Access where
  | ro | rw | rws | wo | rs
  deriving DecidableEq, Repr

/-- The access codes of Table 15-3. -/
def Access.code : Access → Nat
  | .ro => 1 | .rw => 2 | .rws => 3 | .wo => 4 | .rs => 5

/-- One row of a chapter's parameter table: subindices `lo` to `hi` of object `index`. `late` marks a Default of "—",
"per module" or "computed" (R330); `units` is the ASCII text of Table 15-7 as a little-endian number, `none` where the
text does not fit its eight bytes. -/
structure ParamRow where
  index  : Nat
  lo     : Nat
  hi     : Nat
  ty     : PType
  access : Access
  bytes  : Nat
  count  : Nat
  late   : Bool
  units  : Option Nat
  deriving DecidableEq, Repr

namespace P

/-- 0x1000.01 -/ abbrev vendor : Nat := 0x100001
/-- 0x1000.02 -/ abbrev product : Nat := 0x100002
/-- 0x1000.03 -/ abbrev serial : Nat := 0x100003
/-- 0x1000.04 -/ abbrev featureLevel : Nat := 0x100004
/-- 0x1000.05 -/ abbrev firmwareVersion : Nat := 0x100005
/-- 0x1000.06 -/ abbrev recordVersion : Nat := 0x100006
/-- 0x1000.07 -/ abbrev manualIssue : Nat := 0x100007
/-- 0x1000.08 -/ abbrev dieRevisions : Nat := 0x100008
/-- 0x1010.01 -/ abbrev objectCount : Nat := 0x101001
/-- 0x1010.02 -/ abbrev rwsHeld : Nat := 0x101002
/-- 0x1010.03 -/ abbrev rwsLimit : Nat := 0x101003
/-- 0x1010.04 -/ abbrev requests : Nat := 0x101004
/-- 0x1010.05 -/ abbrev rejected : Nat := 0x101005
/-- 0x1010.06 -/ abbrev rwsCancel : Nat := 0x101006
/-- 0x1020.01 -/ abbrev transportRights : Nat := 0x102001
/-- 0x1020.02 -/ abbrev mctpEid : Nat := 0x102002
/-- 0x1020.03 -/ abbrev i3cStaticAddress : Nat := 0x102003
/-- 0x1020.04 -/ abbrev i3cPid : Nat := 0x102004
/-- 0x1020.05 -/ abbrev mgmtMac : Nat := 0x102005
/-- 0x1020.06 -/ abbrev mgmtAddress : Nat := 0x102006
/-- 0x1020.07 -/ abbrev mgmtUdpPort : Nat := 0x102007
/-- 0x1020.08 -/ abbrev vendorIana : Nat := 0x102008
/-- 0x1020.09 -/ abbrev mgmtLink : Nat := 0x102009
/-- 0x2000.01 -/ abbrev powerLimit : Nat := 0x200001
/-- 0x2000.02 -/ abbrev gearCap : Nat := 0x200002
/-- 0x2000.03 -/ abbrev streamOrder : Nat := 0x200003
/-- 0x2000.04 -/ abbrev bucketDepth : Nat := 0x200004
/-- 0x2000.05 -/ abbrev correction : Nat := 0x200005
/-- 0x2000.06 -/ abbrev weirStatus : Nat := 0x200006
/-- 0x2000.07 -/ abbrev moduleGear : Nat := 0x200007
/-- 0x2000.08 -/ abbrev dieGear : Nat := 0x200008
/-- 0x2000.09 -/ abbrev inputPower : Nat := 0x200009
/-- 0x2000.0A -/ abbrev railPower : Nat := 0x20000A
/-- 0x2000.0B -/ abbrev inputVoltage : Nat := 0x20000B
/-- 0x2010.01 -/ abbrev throttleTemp : Nat := 0x201001
/-- 0x2010.02 -/ abbrev hardLimit : Nat := 0x201002
/-- 0x2010.03 -/ abbrev thermalHyst : Nat := 0x201003
/-- 0x2010.04 -/ abbrev hbmThrottleTemp : Nat := 0x201004
/-- 0x2010.05 -/ abbrev hbmLimit : Nat := 0x201005
/-- 0x2010.06 -/ abbrev temperatures : Nat := 0x201006
/-- 0x2010.07 -/ abbrev coolantTemps : Nat := 0x201007
/-- 0x2020.01 -/ abbrev warnLevel : Nat := 0x202001
/-- 0x2020.02 -/ abbrev resetLevel : Nat := 0x202002
/-- 0x2020.03 -/ abbrev supplyHyst : Nat := 0x202003
/-- 0x2020.04 -/ abbrev supplyHold : Nat := 0x202004
/-- 0x2020.05 -/ abbrev overLevel : Nat := 0x202005
/-- 0x2020.06 -/ abbrev resetCause : Nat := 0x202006
/-- 0x2030.01 -/ abbrev gearTime : Nat := 0x203001
/-- 0x2030.02 -/ abbrev supplyDips : Nat := 0x203002
/-- 0x2030.03 -/ abbrev thermalSteps : Nat := 0x203003
/-- 0x2030.04 -/ abbrev overPowerSteps : Nat := 0x203004
/-- 0x2030.05 -/ abbrev budgetWaits : Nat := 0x203005
/-- 0x2030.06 -/ abbrev correctionClamps : Nat := 0x203006
/-- 0x3000.01 -/ abbrev llmMode : Nat := 0x300001
/-- 0x3000.02 -/ abbrev tierMapCapacity : Nat := 0x300002
/-- 0x3000.03 -/ abbrev tierMapStatus : Nat := 0x300003
/-- 0x3000.04 -/ abbrev freeGranules : Nat := 0x300004
/-- 0x3000.05 -/ abbrev scrubPeriod : Nat := 0x300005
/-- 0x3000.06 -/ abbrev ceRetireThreshold : Nat := 0x300006
/-- 0x3000.07 -/ abbrev applyFailures : Nat := 0x300007
/-- 0x3010.01 -/ abbrev tierMapCursor : Nat := 0x301001
/-- 0x3010.02 -/ abbrev tierMapEntry : Nat := 0x301002
/-- 0x3010.03 -/ abbrev stagedWrites : Nat := 0x301003
/-- 0x3020.01 -/ abbrev memCorrected : Nat := 0x302001
/-- 0x3020.02 -/ abbrev memUncorrected : Nat := 0x302002
/-- 0x3020.03 -/ abbrev retireRequest : Nat := 0x302003
/-- 0x3020.04 -/ abbrev retireStatus : Nat := 0x302004
/-- 0x3020.05 -/ abbrev retiredGranules : Nat := 0x302005
/-- 0x3020.06 -/ abbrev hbmErrorLog : Nat := 0x302006
/-- 0x3030.01 -/ abbrev millraceTable : Nat := 0x303001
/-- 0x3030.02 -/ abbrev millraceStatus : Nat := 0x303002
/-- 0x3030.03 -/ abbrev millraceOutOfRange : Nat := 0x303003
/-- 0x3030.04 -/ abbrev millraceInvalid : Nat := 0x303004
/-- 0x3030.05 -/ abbrev millraceOverflows : Nat := 0x303005
/-- 0x3030.06 -/ abbrev millraceUnderflows : Nat := 0x303006
/-- 0x3040.01 -/ abbrev spills : Nat := 0x304001
/-- 0x3040.02 -/ abbrev migrations : Nat := 0x304002
/-- 0x3040.03 -/ abbrev demandLoads : Nat := 0x304003
/-- 0x3040.04 -/ abbrev widthFaults : Nat := 0x304004
/-- 0x3040.05 -/ abbrev unmappedAccesses : Nat := 0x304005
/-- 0x3040.06 -/ abbrev aliasWrites : Nat := 0x304006
/-- 0x3050.01 -/ abbrev journalBlocks : Nat := 0x305001
/-- 0x3050.02 -/ abbrev mirrorBlocks : Nat := 0x305002
/-- 0x3050.03 -/ abbrev readRetrySteps : Nat := 0x305003
/-- 0x3050.04 -/ abbrev readDisturbLimit : Nat := 0x305004
/-- 0x3050.05 -/ abbrev flashScanPeriod : Nat := 0x305005
/-- 0x3050.06 -/ abbrev wearSpread : Nat := 0x305006
/-- 0x3050.07 -/ abbrev bwStatus : Nat := 0x305007
/-- 0x3051.01 -/ abbrev ladderRecovered : Nat := 0x305101
/-- 0x3051.02 -/ abbrev ladderFailed : Nat := 0x305102
/-- 0x3051.03 -/ abbrev retiredBlocks : Nat := 0x305103
/-- 0x3051.04 -/ abbrev spareBlocks : Nat := 0x305104
/-- 0x3051.05 -/ abbrev eraseCounts : Nat := 0x305105
/-- 0x3051.06 -/ abbrev relocations : Nat := 0x305106
/-- 0x3051.07 -/ abbrev luWrites : Nat := 0x305107
/-- 0x3051.08 -/ abbrev mirrorShort : Nat := 0x305108
/-- 0x3051.09 -/ abbrev backingFaults : Nat := 0x305109
/-- 0x3051.0A -/ abbrev discardedWrites : Nat := 0x30510A
/-- 0x3051.0B -/ abbrev lifeUsed : Nat := 0x30510B
/-- 0x3051.0C -/ abbrev channelState : Nat := 0x30510C
/-- 0x3052.01 -/ abbrev journalIndex : Nat := 0x305201
/-- 0x3052.02 -/ abbrev journalHead : Nat := 0x305202
/-- 0x3052.03 -/ abbrev journalStatus : Nat := 0x305203
/-- 0x3052.04 -/ abbrev journalFree : Nat := 0x305204
/-- 0x4000.01 -/ abbrev portMap : Nat := 0x400001
/-- 0x4000.02 -/ abbrev portStatus : Nat := 0x400002
/-- 0x4000.03 -/ abbrev linkState : Nat := 0x400003
/-- 0x4000.04 -/ abbrev macBase : Nat := 0x400004
/-- 0x4000.05 -/ abbrev linkFlaps : Nat := 0x400005
/-- 0x4010.01 -/ abbrev moduleAddress : Nat := 0x401001
/-- 0x4010.02 -/ abbrev nextHop : Nat := 0x401002
/-- 0x4010.03 -/ abbrev streamTable : Nat := 0x401003
/-- 0x4010.04 -/ abbrev groupTable : Nat := 0x401004
/-- 0x4010.05 -/ abbrev memberTable : Nat := 0x401005
/-- 0x4010.06 -/ abbrev topologyStatus : Nat := 0x401006
/-- 0x4010.07 -/ abbrev topologyEpoch : Nat := 0x401007
/-- 0x4020.01 -/ abbrev streamUdpPort : Nat := 0x402001
/-- 0x4020.02 -/ abbrev segmentBytes : Nat := 0x402002
/-- 0x4020.03 -/ abbrev retxTimeout : Nat := 0x402003
/-- 0x4020.04 -/ abbrev retxAlarm : Nat := 0x402004
/-- 0x4020.05 -/ abbrev window : Nat := 0x402005
/-- 0x4020.06 -/ abbrev mgmtOnData : Nat := 0x402006
/-- 0x4020.07 -/ abbrev streamState : Nat := 0x402007
/-- 0x4020.08 -/ abbrev holdBytes : Nat := 0x402008
/-- 0x4030.01 -/ abbrev ptpRole : Nat := 0x403001
/-- 0x4030.02 -/ abbrev ptpPort : Nat := 0x403002
/-- 0x4030.03 -/ abbrev ptpMaster : Nat := 0x403003
/-- 0x4030.04 -/ abbrev ptpDomain : Nat := 0x403004
/-- 0x4030.05 -/ abbrev ptpLogSync : Nat := 0x403005
/-- 0x4030.06 -/ abbrev timeState : Nat := 0x403006
/-- 0x4030.07 -/ abbrev panelTime : Nat := 0x403007
/-- 0x4030.08 -/ abbrev timeOffset : Nat := 0x403008
/-- 0x4040.01 -/ abbrev flagSources : Nat := 0x404001
/-- 0x4040.02 -/ abbrev stepFlagRaise : Nat := 0x404002
/-- 0x4040.03 -/ abbrev localFlags : Nat := 0x404003
/-- 0x4040.04 -/ abbrev finalFlags : Nat := 0x404004
/-- 0x4040.05 -/ abbrev finalStep : Nat := 0x404005
/-- 0x4050.01 -/ abbrev fcsErrors : Nat := 0x405001
/-- 0x4050.02 -/ abbrev framesDropped : Nat := 0x405002
/-- 0x4050.03 -/ abbrev segmentCrcErrors : Nat := 0x405003
/-- 0x4050.04 -/ abbrev segmentsSent : Nat := 0x405004
/-- 0x4050.05 -/ abbrev retransmits : Nat := 0x405005
/-- 0x4050.06 -/ abbrev timeouts : Nat := 0x405006
/-- 0x4050.07 -/ abbrev epochResets : Nat := 0x405007
/-- 0x4050.08 -/ abbrev staleMessages : Nat := 0x405008
/-- 0x4050.09 -/ abbrev collInvalid : Nat := 0x405009
/-- 0x4050.0A -/ abbrev collOverflows : Nat := 0x40500A
/-- 0x4050.0B -/ abbrev lateFlags : Nat := 0x40500B
/-- 0x4050.0C -/ abbrev congestionMarks : Nat := 0x40500C
/-- 0x5010.01 -/ abbrev formatMismatches : Nat := 0x501001
/-- 0x5010.02 -/ abbrev widthMismatches : Nat := 0x501002
/-- 0x5010.03 -/ abbrev digestErrors : Nat := 0x501003
/-- 0x5010.04 -/ abbrev digestVerify : Nat := 0x501004
/-- 0x5020.01 -/ abbrev passes : Nat := 0x502001
/-- 0x5020.02 -/ abbrev invColumns : Nat := 0x502002
/-- 0x5020.03 -/ abbrev invCreated : Nat := 0x502003
/-- 0x5020.04 -/ abbrev lossColumns : Nat := 0x502004
/-- 0x5020.05 -/ abbrev scaleRebases : Nat := 0x502005
/-- 0x5020.06 -/ abbrev offenderMask : Nat := 0x502006
/-- 0x5020.07 -/ abbrev offenderMissed : Nat := 0x502007
/-- 0x5030.01 -/ abbrev accumSeed : Nat := 0x503001
/-- 0x5030.02 -/ abbrev drains : Nat := 0x503002
/-- 0x5030.03 -/ abbrev accOverflows : Nat := 0x503003
/-- 0x5030.04 -/ abbrev accUnderflows : Nat := 0x503004
/-- 0x5030.05 -/ abbrev accInvalid : Nat := 0x503005
/-- 0x5030.06 -/ abbrev convOverflows : Nat := 0x503006
/-- 0x5030.07 -/ abbrev convUnderflows : Nat := 0x503007
/-- 0x5030.08 -/ abbrev scaleClamps : Nat := 0x503008
/-- 0x5040.01 -/ abbrev vecElements : Nat := 0x504001
/-- 0x5040.02 -/ abbrev vecInvalid : Nat := 0x504002
/-- 0x5040.03 -/ abbrev vecOverflows : Nat := 0x504003
/-- 0x5040.04 -/ abbrev vecUnderflows : Nat := 0x504004
/-- 0x5040.05 -/ abbrev vecScaleClamps : Nat := 0x504005
/-- 0x5040.06 -/ abbrev laneFlags : Nat := 0x504006
/-- 0x5040.07 -/ abbrev redFlags : Nat := 0x504007
/-- 0x5040.08 -/ abbrev stickyClear : Nat := 0x504008
/-- 0x5040.09 -/ abbrev postRepeats : Nat := 0x504009
/-- 0x5050.01 -/ abbrev riffleRate : Nat := 0x505001
/-- 0x5050.02 -/ abbrev riffleSeed : Nat := 0x505002
/-- 0x5050.03 -/ abbrev riffleDeadline : Nat := 0x505003
/-- 0x5050.04 -/ abbrev riffleClear : Nat := 0x505004
/-- 0x5050.05 -/ abbrev checkerState : Nat := 0x505005
/-- 0x5051.01 -/ abbrev verdicts : Nat := 0x505101
/-- 0x5051.02 -/ abbrev droppedReasons : Nat := 0x505102
/-- 0x5051.03 -/ abbrev primaryBlames : Nat := 0x505103
/-- 0x5051.04 -/ abbrev checkerBlames : Nat := 0x505104
/-- 0x5051.05 -/ abbrev splits : Nat := 0x505105
/-- 0x5051.06 -/ abbrev riffleExempt : Nat := 0x505106
/-- 0x5051.07 -/ abbrev captureInUse : Nat := 0x505107
/-- 0x5060.01 -/ abbrev silenceRun : Nat := 0x506001
/-- 0x5060.02 -/ abbrev normFloor : Nat := 0x506002
/-- 0x5060.03 -/ abbrev watchChannelMap : Nat := 0x506003
/-- 0x5060.04 -/ abbrev watchStatus : Nat := 0x506004
/-- 0x5060.05 -/ abbrev layerRanges : Nat := 0x506005
/-- 0x5060.06 -/ abbrev poisonedPosts : Nat := 0x506006
/-- 0x5061.01 -/ abbrev layerOvf : Nat := 0x506101
/-- 0x5061.02 -/ abbrev layerUnf : Nat := 0x506102
/-- 0x5061.03 -/ abbrev layerInv : Nat := 0x506103
/-- 0x5061.04 -/ abbrev layerLoss : Nat := 0x506104
/-- 0x5061.05 -/ abbrev layerNorms : Nat := 0x506105
/-- 0x5070.01 -/ abbrev phaseTimers : Nat := 0x507001
/-- 0x5070.02 -/ abbrev phaseLast : Nat := 0x507002
/-- 0x5070.03 -/ abbrev phaseEntries : Nat := 0x507003
/-- 0x5070.04 -/ abbrev phaseTile : Nat := 0x507004
/-- 0x6000.01 -/ abbrev updateSeed : Nat := 0x600001
/-- 0x6000.02 -/ abbrev optStep : Nat := 0x600002
/-- 0x6000.03 -/ abbrev momentRecords : Nat := 0x600003
/-- 0x6000.04 -/ abbrev shardLoadStatus : Nat := 0x600004
/-- 0x6000.05 -/ abbrev programStatus : Nat := 0x600005
/-- 0x6010.01 -/ abbrev shardTable : Nat := 0x601001
/-- 0x6010.02 -/ abbrev layerTable : Nat := 0x601002
/-- 0x6020.01 -/ abbrev hyperSet : Nat := 0x602001
/-- 0x6030.01 -/ abbrev program : Nat := 0x603001
/-- 0x6040.01 -/ abbrev updated : Nat := 0x604001
/-- 0x6040.02 -/ abbrev weightInvalid : Nat := 0x604002
/-- 0x6040.03 -/ abbrev weightOverflows : Nat := 0x604003
/-- 0x6040.04 -/ abbrev weightUnderflows : Nat := 0x604004
/-- 0x6040.05 -/ abbrev momentInvalid : Nat := 0x604005
/-- 0x6040.06 -/ abbrev momentOverflows : Nat := 0x604006
/-- 0x6040.07 -/ abbrev momentUnderflows : Nat := 0x604007
/-- 0x6040.08 -/ abbrev momentClamps : Nat := 0x604008
/-- 0x6040.09 -/ abbrev remainderClamps : Nat := 0x604009
/-- 0x6040.0A -/ abbrev restarts : Nat := 0x60400A
/-- 0x6040.0B -/ abbrev poisonedTiles : Nat := 0x60400B
/-- 0x6040.0C -/ abbrev extraTriggers : Nat := 0x60400C
/-- 0x6050.01 -/ abbrev digestGroup : Nat := 0x605001
/-- 0x6050.02 -/ abbrev checkpointStep : Nat := 0x605002
/-- 0x6050.03 -/ abbrev restoreRequest : Nat := 0x605003
/-- 0x6050.04 -/ abbrev restoreStatus : Nat := 0x605004
/-- 0x6050.05 -/ abbrev replayPeer : Nat := 0x605005
/-- 0x7000.01 -/ abbrev snapshotTime : Nat := 0x700001
/-- 0x7000.02 -/ abbrev snapshotStatus : Nat := 0x700002
/-- 0x7000.03 -/ abbrev snapshotTaken : Nat := 0x700003
/-- 0x7000.04 -/ abbrev snapshotCount : Nat := 0x700004
/-- 0x7000.05 -/ abbrev snapshotStep : Nat := 0x700005
/-- 0x7000.06 -/ abbrev snapshotTimeState : Nat := 0x700006
/-- 0x7000.07 -/ abbrev snapshotAc : Nat := 0x700007
/-- 0x7010.01 -/ abbrev eventLog : Nat := 0x701001
/-- 0x7010.02 -/ abbrev eventSeq : Nat := 0x701002
/-- 0x7010.03 -/ abbrev eventHoldoff : Nat := 0x701003
/-- 0x7010.04 -/ abbrev eventsRaised : Nat := 0x701004
/-- 0x7010.05 -/ abbrev eventsCoalesced : Nat := 0x701005
/-- 0x7010.06 -/ abbrev eventsLost : Nat := 0x701006
/-- 0x7011.01 -/ abbrev eventRingEnable : Nat := 0x701101
/-- 0x7011.02 -/ abbrev eventRingBase : Nat := 0x701102
/-- 0x7011.03 -/ abbrev eventRingLine : Nat := 0x701103
/-- 0x7011.04 -/ abbrev eventRingSize : Nat := 0x701104
/-- 0x7011.05 -/ abbrev eventRingVector : Nat := 0x701105
/-- 0x7011.06 -/ abbrev eventRingFrom : Nat := 0x701106
/-- 0x7011.07 -/ abbrev eventRingStatus : Nat := 0x701107
/-- 0x7012.01 -/ abbrev eventSinkAddress : Nat := 0x701201
/-- 0x7012.02 -/ abbrev eventSinkPort : Nat := 0x701202
/-- 0x7012.03 -/ abbrev sinkSignatures : Nat := 0x701203
/-- 0x7020.01 -/ abbrev signatureLog : Nat := 0x702001
/-- 0x7020.02 -/ abbrev signatureSeq : Nat := 0x702002
/-- 0x7020.03 -/ abbrev signatureAck : Nat := 0x702003
/-- 0x7020.04 -/ abbrev signaturesLost : Nat := 0x702004
/-- 0x7100.01 -/ abbrev guardCollisions : Nat := 0x710001
/-- 0x7100.02 -/ abbrev tokenSaturations : Nat := 0x710002
/-- 0x7100.03 -/ abbrev staleRaises : Nat := 0x710003
/-- 0x7100.04 -/ abbrev stalls : Nat := 0x710004
/-- 0x7100.05 -/ abbrev headState : Nat := 0x710005
/-- 0x7101.01 -/ abbrev guardRecord : Nat := 0x710101
/-- 0x7102.01 -/ abbrev tokenCounts : Nat := 0x710201
/-- 0x7110.01 -/ abbrev offenderLatch : Nat := 0x711001
/-- 0x7120.01 -/ abbrev shardRecords : Nat := 0x712001
/-- 0x7130.01 -/ abbrev stepLog : Nat := 0x713001
/-- 0x7130.02 -/ abbrev decidedStep : Nat := 0x713002
/-- 0x7130.03 -/ abbrev stepsCommitted : Nat := 0x713003
/-- 0x7130.04 -/ abbrev stepsSkipped : Nat := 0x713004
/-- 0x7130.05 -/ abbrev digestMismatches : Nat := 0x713005
/-- 0x7130.06 -/ abbrev rechecks : Nat := 0x713006
/-- 0x7130.07 -/ abbrev shardCopies : Nat := 0x713007
/-- 0x7130.08 -/ abbrev replayRequests : Nat := 0x713008
/-- 0x7130.09 -/ abbrev commitStalls : Nat := 0x713009
/-- 0x7130.0A -/ abbrev checkpointsWritten : Nat := 0x71300A
/-- 0x8000.01 -/ abbrev bootState : Nat := 0x800001
/-- 0x8000.02 -/ abbrev bootTimes : Nat := 0x800002
/-- 0x8000.03 -/ abbrev bootStateRecord : Nat := 0x800003
/-- 0x8000.04 -/ abbrev bootStateValid : Nat := 0x800004
/-- 0x8010.01 -/ abbrev fwImage : Nat := 0x801001
/-- 0x8010.02 -/ abbrev fwCommand : Nat := 0x801002
/-- 0x8010.03 -/ abbrev fwStatus : Nat := 0x801003
/-- 0x8010.04 -/ abbrev autoConfirm : Nat := 0x801004
/-- 0x8010.05 -/ abbrev runningSlot : Nat := 0x801005
/-- 0x8010.06 -/ abbrev slotVersions : Nat := 0x801006
/-- 0x8020.01 -/ abbrev identityState : Nat := 0x802001
/-- 0x8020.02 -/ abbrev aliasCertificate : Nat := 0x802002
/-- 0x8020.03 -/ abbrev deviceIdCertificate : Nat := 0x802003
/-- 0x9000.01 -/ abbrev vfCount : Nat := 0x900001
/-- 0x9000.02 -/ abbrev vfRights : Nat := 0x900002
/-- 0x9000.03 -/ abbrev vfTileWindow : Nat := 0x900003
/-- 0x9000.04 -/ abbrev linkEpoch : Nat := 0x900004
/-- 0x9000.05 -/ abbrev hostLinkState : Nat := 0x900005
/-- 0x9000.06 -/ abbrev linkDowns : Nat := 0x900006
/-- 0x9010.01 -/ abbrev commandsDone : Nat := 0x901001
/-- 0x9010.02 -/ abbrev droppedWrites : Nat := 0x901002
/-- 0x9010.03 -/ abbrev hostReadErrors : Nat := 0x901003
/-- 0x9010.04 -/ abbrev quiesces : Nat := 0x901004
/-- 0x9010.05 -/ abbrev ringErrors : Nat := 0x901005
/-- 0x9100.01 -/ abbrev activeSetId : Nat := 0x910001
/-- 0x9100.02 -/ abbrev pendingSetId : Nat := 0x910002
/-- 0x9100.03 -/ abbrev loadStatus : Nat := 0x910003
/-- 0x9100.04 -/ abbrev activateStep : Nat := 0x910004
/-- 0x9100.05 -/ abbrev stepGate : Nat := 0x910005
/-- 0x9100.06 -/ abbrev stallLimit : Nat := 0x910006
/-- 0x9100.07 -/ abbrev currentStep : Nat := 0x910007
/-- 0xA000.01 -/ abbrev screenEnable : Nat := 0xA00001
/-- 0xA000.02 -/ abbrev screenInterval : Nat := 0xA00002
/-- 0xA000.03 -/ abbrev screenConcurrency : Nat := 0xA00003
/-- 0xA000.04 -/ abbrev screenTemp : Nat := 0xA00004
/-- 0xA000.05 -/ abbrev replayTime : Nat := 0xA00005
/-- 0xA000.06 -/ abbrev blameRetire : Nat := 0xA00006
/-- 0xA000.07 -/ abbrev screenRequest : Nat := 0xA00007
/-- 0xA000.08 -/ abbrev screenStatus : Nat := 0xA00008
/-- 0xA010.01 -/ abbrev slotMap : Nat := 0xA01001
/-- 0xA020.01 -/ abbrev rillWidth : Nat := 0xA02001
/-- 0xA020.02 -/ abbrev rillState : Nat := 0xA02002
/-- 0xA020.03 -/ abbrev rillSpares : Nat := 0xA02003
/-- 0xA020.04 -/ abbrev rillReplays : Nat := 0xA02004
/-- 0xA020.05 -/ abbrev rillRetrains : Nat := 0xA02005
/-- 0xA020.06 -/ abbrev rillMappedOut : Nat := 0xA02006
/-- 0xA020.07 -/ abbrev rillErrorLimit : Nat := 0xA02007
/-- 0xA020.08 -/ abbrev rillRetrain : Nat := 0xA02008
/-- 0xA030.01 -/ abbrev screenRecord : Nat := 0xA03001
/-- 0xA040.01 -/ abbrev rootLock : Nat := 0xA04001
/-- 0xA040.02 -/ abbrev refLosses : Nat := 0xA04002
/-- 0xA040.03 -/ abbrev panelAc : Nat := 0xA04003
/-- 0xA040.04 -/ abbrev fieldRepairs : Nat := 0xA04004
/-- 0xA040.05 -/ abbrev capacityState : Nat := 0xA04005
end P

/-- Rows of the parameter tables, part 0, in ascending order. -/
def paramRows0 : List ParamRow :=
  [ ⟨0x1000, 0, 0, .u8, .ro, 1, 1, false, some 0⟩,
    ⟨0x1000, 0x1, 0x1, .str, .ro, 16, 1, false, some 0⟩,
    ⟨0x1000, 0x2, 0x2, .str, .ro, 16, 1, false, some 0⟩,
    ⟨0x1000, 0x3, 0x3, .str, .ro, 12, 1, true, some 0⟩,
    ⟨0x1000, 0x4, 0x4, .u8, .ro, 1, 1, true, some 0⟩,
    ⟨0x1000, 0x5, 0x5, .u32, .ro, 4, 1, false, some 0⟩,
    ⟨0x1000, 0x6, 0x6, .u32, .ro, 4, 1, true, some 0⟩,
    ⟨0x1000, 0x7, 0x7, .u16, .ro, 2, 1, false, some 0⟩,
    ⟨0x1000, 0x8, 0x8, .table, .ro, 4, 80, true, some 0⟩,
    ⟨0x1010, 0, 0, .u8, .ro, 1, 1, false, some 0⟩,
    ⟨0x1010, 0x1, 0x1, .u16, .ro, 2, 1, false, some 0x737463656A626F⟩,
    ⟨0x1010, 0x2, 0x2, .u32, .ro, 4, 1, false, some 0x7365747962⟩,
    ⟨0x1010, 0x3, 0x3, .u32, .ro, 4, 1, false, some 0x7365747962⟩,
    ⟨0x1010, 0x4, 0x4, .table, .rs, 8, 6, false, some 0x7364726F636572⟩,
    ⟨0x1010, 0x5, 0x5, .table, .rs, 8, 6, false, some 0x7364726F636572⟩,
    ⟨0x1010, 0x6, 0x6, .u8, .wo, 1, 1, false, some 0⟩,
    ⟨0x1020, 0, 0, .u8, .ro, 1, 1, false, some 0⟩,
    ⟨0x1020, 0x1, 0x1, .table, .rw, 1, 6, false, some 0⟩,
    ⟨0x1020, 0x2, 0x2, .u8, .ro, 1, 1, false, some 0⟩,
    ⟨0x1020, 0x3, 0x3, .u8, .ro, 1, 1, true, some 0⟩,
    ⟨0x1020, 0x4, 0x4, .u64, .ro, 8, 1, true, some 0⟩,
    ⟨0x1020, 0x5, 0x5, .u64, .ro, 8, 1, true, some 0⟩,
    ⟨0x1020, 0x6, 0x6, .blob, .rw, 16, 1, false, some 0⟩,
    ⟨0x1020, 0x7, 0x7, .u16, .rw, 2, 1, false, some 0⟩,
    ⟨0x1020, 0x8, 0x8, .u32, .ro, 4, 1, false, some 0⟩,
    ⟨0x1020, 0x9, 0x9, .enum, .ro, 1, 1, false, some 0⟩,
    ⟨0x2000, 0, 0, .u8, .ro, 1, 1, false, some 0⟩,
    ⟨0x2000, 0x1, 0x1, .u32, .rw, 4, 1, false, some 0x57⟩,
    ⟨0x2000, 0x2, 0x2, .u8, .rw, 1, 1, false, some 0⟩,
    ⟨0x2000, 0x3, 0x3, .table, .rw, 8, 8, false, some 0⟩,
    ⟨0x2000, 0x4, 0x4, .u32, .rw, 4, 1, false, some 0x4A6E203631⟩,
    ⟨0x2000, 0x5, 0x5, .f32, .ro, 4, 1, false, some 0⟩,
    ⟨0x2000, 0x6, 0x6, .u32, .ro, 4, 1, false, some 0⟩,
    ⟨0x2000, 0x7, 0x7, .table, .ro, 1, 2, false, some 0⟩,
    ⟨0x2000, 0x8, 0x8, .table, .ro, 1, 64, false, some 0⟩,
    ⟨0x2000, 0x9, 0x9, .f32, .ro, 4, 1, true, some 0x57⟩,
    ⟨0x2000, 0xA, 0xA, .table, .ro, 4, 6, true, some 0x57⟩,
    ⟨0x2000, 0xB, 0xB, .f32, .ro, 4, 1, true, some 0x56⟩,
    ⟨0x2010, 0, 0, .u8, .ro, 1, 1, false, some 0⟩,
    ⟨0x2010, 0x1, 0x1, .f32, .rw, 4, 1, false, some 0x43⟩ ]

/-- Rows of the parameter tables, part 1, in ascending order. -/
def paramRows1 : List ParamRow :=
  [ ⟨0x2010, 0x2, 0x2, .f32, .ro, 4, 1, false, some 0x43⟩,
    ⟨0x2010, 0x3, 0x3, .f32, .rw, 4, 1, false, some 0x43⟩,
    ⟨0x2010, 0x4, 0x4, .f32, .rw, 4, 1, false, some 0x43⟩,
    ⟨0x2010, 0x5, 0x5, .f32, .ro, 4, 1, false, some 0x43⟩,
    ⟨0x2010, 0x6, 0x6, .table, .ro, 4, 96, true, some 0x43⟩,
    ⟨0x2010, 0x7, 0x7, .table, .ro, 4, 2, true, some 0x43⟩,
    ⟨0x2020, 0, 0, .u8, .ro, 1, 1, false, some 0⟩,
    ⟨0x2020, 0x1, 0x1, .f32, .rw, 4, 1, false, some 0x56⟩,
    ⟨0x2020, 0x2, 0x2, .f32, .rw, 4, 1, false, some 0x56⟩,
    ⟨0x2020, 0x3, 0x3, .f32, .rw, 4, 1, false, some 0x56⟩,
    ⟨0x2020, 0x4, 0x4, .u32, .rw, 4, 1, false, some 0x7375⟩,
    ⟨0x2020, 0x5, 0x5, .f32, .ro, 4, 1, false, some 0x56⟩,
    ⟨0x2020, 0x6, 0x6, .u32, .ro, 4, 1, true, some 0⟩,
    ⟨0x2030, 0, 0, .u8, .ro, 1, 1, false, some 0⟩,
    ⟨0x2030, 0x1, 0x1, .table, .rs, 8, 8, false, some 0x7375⟩,
    ⟨0x2030, 0x2, 0x2, .u32, .rs, 4, 1, false, some 0x73746E657665⟩,
    ⟨0x2030, 0x3, 0x3, .table, .rs, 4, 96, false, some 0x7370657473⟩,
    ⟨0x2030, 0x4, 0x4, .u32, .rs, 4, 1, false, some 0x7370657473⟩,
    ⟨0x2030, 0x5, 0x5, .table, .rs, 8, 64, false, some 0x6361⟩,
    ⟨0x2030, 0x6, 0x6, .u32, .rs, 4, 1, false, some 0x73656C706D6173⟩,
    ⟨0x3000, 0, 0, .u8, .ro, 1, 1, false, some 0⟩,
    ⟨0x3000, 0x1, 0x1, .table, .rws, 1, 8, false, some 0⟩,
    ⟨0x3000, 0x2, 0x2, .u32, .ro, 4, 1, false, some 0x7365676170⟩,
    ⟨0x3000, 0x3, 0x3, .u64, .ro, 8, 1, false, some 0⟩,
    ⟨0x3000, 0x4, 0x4, .table, .ro, 4, 81, true, some 0x73656C756E617267⟩,
    ⟨0x3000, 0x5, 0x5, .u32, .rw, 4, 1, false, some 0x73⟩,
    ⟨0x3000, 0x6, 0x6, .u32, .rw, 4, 1, false, some 0x73726F727265⟩,
    ⟨0x3000, 0x7, 0x7, .u32, .rs, 4, 1, false, some 0x736574697277⟩,
    ⟨0x3010, 0, 0, .u8, .ro, 1, 1, false, some 0⟩,
    ⟨0x3010, 0x1, 0x1, .u64, .rw, 8, 1, false, some 0⟩,
    ⟨0x3010, 0x2, 0x2, .blob, .rw, 16, 1, true, some 0⟩,
    ⟨0x3010, 0x3, 0x3, .u32, .ro, 4, 1, false, some 0x736574697277⟩,
    ⟨0x3020, 0, 0, .u8, .ro, 1, 1, false, some 0⟩,
    ⟨0x3020, 0x1, 0x1, .table, .rs, 8, 32, false, some 0x73726F727265⟩,
    ⟨0x3020, 0x2, 0x2, .table, .rs, 8, 32, false, some 0x73726F727265⟩,
    ⟨0x3020, 0x3, 0x3, .u32, .wo, 4, 1, false, some 0⟩,
    ⟨0x3020, 0x4, 0x4, .u32, .ro, 4, 1, false, some 0⟩,
    ⟨0x3020, 0x5, 0x5, .table, .ro, 4, 4096, false, some 0⟩,
    ⟨0x3020, 0x6, 0x6, .table, .rs, 16, 64, false, some 0⟩,
    ⟨0x3030, 0, 0, .u8, .ro, 1, 1, false, some 0⟩ ]

/-- Rows of the parameter tables, part 2, in ascending order. -/
def paramRows2 : List ParamRow :=
  [ ⟨0x3030, 0x1, 0x1, .table, .rws, 32, 256, false, some 0⟩,
    ⟨0x3030, 0x2, 0x2, .u32, .ro, 4, 1, false, some 0⟩,
    ⟨0x3030, 0x3, 0x3, .table, .rs, 8, 64, false, some 0x73656C756E617267⟩,
    ⟨0x3030, 0x4, 0x4, .table, .rs, 8, 64, false, some 0x73746E656D656C65⟩,
    ⟨0x3030, 0x5, 0x5, .table, .rs, 8, 64, false, some 0x73746E656D656C65⟩,
    ⟨0x3030, 0x6, 0x6, .table, .rs, 8, 64, false, some 0x73746E656D656C65⟩,
    ⟨0x3040, 0, 0, .u8, .ro, 1, 1, false, some 0⟩,
    ⟨0x3040, 0x1, 0x1, .table, .rs, 8, 4, false, some 0x7365676170⟩,
    ⟨0x3040, 0x2, 0x2, .u64, .rs, 8, 1, false, some 0x7365676170⟩,
    ⟨0x3040, 0x3, 0x3, .u64, .rs, 8, 1, false, some 0x7365676170⟩,
    ⟨0x3040, 0x4, 0x4, .table, .rs, 8, 72, false, some 0x73656C6974⟩,
    ⟨0x3040, 0x5, 0x5, .table, .rs, 8, 72, false, some 0x7365737365636361⟩,
    ⟨0x3040, 0x6, 0x6, .table, .rs, 8, 72, false, some 0x736574697277⟩,
    ⟨0x3050, 0, 0, .u8, .ro, 1, 1, false, some 0⟩,
    ⟨0x3050, 0x1, 0x1, .u32, .rws, 4, 1, false, some 0x736B636F6C62⟩,
    ⟨0x3050, 0x2, 0x2, .u32, .rws, 4, 1, false, some 0x736B636F6C62⟩,
    ⟨0x3050, 0x3, 0x3, .u8, .rw, 1, 1, false, some 0x7370657473⟩,
    ⟨0x3050, 0x4, 0x4, .u32, .rw, 4, 1, false, some 0x7364616572⟩,
    ⟨0x3050, 0x5, 0x5, .u32, .rw, 4, 1, false, some 0x73⟩,
    ⟨0x3050, 0x6, 0x6, .u16, .rw, 2, 1, false, some 0x73656C637963⟩,
    ⟨0x3050, 0x7, 0x7, .u32, .ro, 4, 1, false, some 0⟩,
    ⟨0x3051, 0, 0, .u8, .ro, 1, 1, false, some 0⟩,
    ⟨0x3051, 0x1, 0x1, .table, .rs, 8, 24, false, some 0x73554C⟩,
    ⟨0x3051, 0x2, 0x2, .table, .rs, 8, 8, false, some 0x73554C⟩,
    ⟨0x3051, 0x3, 0x3, .table, .rs, 4, 8, false, some 0x736B636F6C62⟩,
    ⟨0x3051, 0x4, 0x4, .table, .ro, 4, 8, true, some 0x736B636F6C62⟩,
    ⟨0x3051, 0x5, 0x5, .table, .rs, 4, 24, true, some 0x73656C637963⟩,
    ⟨0x3051, 0x6, 0x6, .table, .rs, 8, 8, false, some 0x736B636F6C62⟩,
    ⟨0x3051, 0x7, 0x7, .table, .rs, 8, 8, false, some 0x73554C⟩,
    ⟨0x3051, 0x8, 0x8, .u64, .rs, 8, 1, false, some 0x73554C⟩,
    ⟨0x3051, 0x9, 0x9, .u64, .rs, 8, 1, false, some 0x73656C6974⟩,
    ⟨0x3051, 0xA, 0xA, .u64, .rs, 8, 1, false, some 0x736574697277⟩,
    ⟨0x3051, 0xB, 0xB, .u8, .ro, 1, 1, false, some 0x25⟩,
    ⟨0x3051, 0xC, 0xC, .table, .ro, 1, 64, false, some 0⟩,
    ⟨0x3052, 0, 0, .u8, .ro, 1, 1, false, some 0⟩,
    ⟨0x3052, 0x1, 0x1, .table, .ro, 32, 256, false, some 0⟩,
    ⟨0x3052, 0x2, 0x2, .u64, .ro, 8, 1, false, some 0⟩,
    ⟨0x3052, 0x3, 0x3, .u32, .ro, 4, 1, false, some 0⟩,
    ⟨0x3052, 0x4, 0x4, .u32, .ro, 4, 1, true, some 0x73656C756E617267⟩,
    ⟨0x4000, 0, 0, .u8, .ro, 1, 1, false, some 0⟩ ]

/-- Rows of the parameter tables, part 3, in ascending order. -/
def paramRows3 : List ParamRow :=
  [ ⟨0x4000, 0x1, 0x1, .table, .rws, 1, 24, false, some 0⟩,
    ⟨0x4000, 0x2, 0x2, .u32, .ro, 4, 1, false, some 0⟩,
    ⟨0x4000, 0x3, 0x3, .table, .ro, 1, 48, true, some 0⟩,
    ⟨0x4000, 0x4, 0x4, .u64, .ro, 8, 1, true, some 0⟩,
    ⟨0x4000, 0x5, 0x5, .table, .rs, 4, 48, false, some 0x73746E657665⟩,
    ⟨0x4010, 0, 0, .u8, .ro, 1, 1, false, some 0⟩,
    ⟨0x4010, 0x1, 0x1, .blob, .rws, 16, 1, false, some 0⟩,
    ⟨0x4010, 0x2, 0x2, .table, .rws, 8, 48, false, some 0⟩,
    ⟨0x4010, 0x3, 0x3, .table, .rws, 64, 4096, false, some 0⟩,
    ⟨0x4010, 0x4, 0x4, .table, .rws, 16, 4096, false, some 0⟩,
    ⟨0x4010, 0x5, 0x5, .table, .rws, 2, 65536, false, some 0⟩,
    ⟨0x4010, 0x6, 0x6, .u64, .ro, 8, 1, false, some 0⟩,
    ⟨0x4010, 0x7, 0x7, .u32, .ro, 4, 1, false, some 0⟩,
    ⟨0x4020, 0, 0, .u8, .ro, 1, 1, false, some 0⟩,
    ⟨0x4020, 0x1, 0x1, .u16, .rws, 2, 1, false, some 0⟩,
    ⟨0x4020, 0x2, 0x2, .u16, .rws, 2, 1, false, some 0x7365747962⟩,
    ⟨0x4020, 0x3, 0x3, .u32, .rw, 4, 1, false, some 0x7375⟩,
    ⟨0x4020, 0x4, 0x4, .u16, .rw, 2, 1, false, some 0x7374756F656D6974⟩,
    ⟨0x4020, 0x5, 0x5, .u16, .rws, 2, 1, false, some 0x73746E656D676573⟩,
    ⟨0x4020, 0x6, 0x6, .u8, .rw, 1, 1, false, some 0⟩,
    ⟨0x4020, 0x7, 0x7, .table, .ro, 1, 4096, false, some 0⟩,
    ⟨0x4020, 0x8, 0x8, .u32, .rws, 4, 1, false, some 0x7365747962⟩,
    ⟨0x4030, 0, 0, .u8, .ro, 1, 1, false, some 0⟩,
    ⟨0x4030, 0x1, 0x1, .enum, .rws, 1, 1, false, some 0⟩,
    ⟨0x4030, 0x2, 0x2, .u8, .rws, 1, 1, false, some 0⟩,
    ⟨0x4030, 0x3, 0x3, .blob, .rws, 16, 1, false, some 0⟩,
    ⟨0x4030, 0x4, 0x4, .u8, .rws, 1, 1, false, some 0⟩,
    ⟨0x4030, 0x5, 0x5, .i32, .rws, 4, 1, false, none⟩,
    ⟨0x4030, 0x6, 0x6, .enum, .ro, 1, 1, false, some 0⟩,
    ⟨0x4030, 0x7, 0x7, .u64, .ro, 8, 1, false, some 0x736E⟩,
    ⟨0x4030, 0x8, 0x8, .i32, .ro, 4, 1, false, some 0x736E⟩,
    ⟨0x4040, 0, 0, .u8, .ro, 1, 1, false, some 0⟩,
    ⟨0x4040, 0x1, 0x1, .bits, .rws, 1, 1, false, some 0⟩,
    ⟨0x4040, 0x2, 0x2, .u64, .wo, 8, 1, false, some 0⟩,
    ⟨0x4040, 0x3, 0x3, .u64, .ro, 8, 1, false, some 0⟩,
    ⟨0x4040, 0x4, 0x4, .u64, .ro, 8, 1, false, some 0⟩,
    ⟨0x4040, 0x5, 0x5, .u64, .ro, 8, 1, false, some 0x70657473⟩,
    ⟨0x4050, 0, 0, .u8, .ro, 1, 1, false, some 0⟩,
    ⟨0x4050, 0x1, 0x1, .table, .rs, 8, 48, false, some 0x73656D617266⟩,
    ⟨0x4050, 0x2, 0x2, .table, .rs, 8, 48, false, some 0x73656D617266⟩ ]

/-- Rows of the parameter tables, part 4, in ascending order. -/
def paramRows4 : List ParamRow :=
  [ ⟨0x4050, 0x3, 0x3, .table, .rs, 8, 8, false, some 0x73746E656D676573⟩,
    ⟨0x4050, 0x4, 0x4, .table, .rs, 8, 4096, false, some 0x73746E656D676573⟩,
    ⟨0x4050, 0x5, 0x5, .table, .rs, 8, 4096, false, some 0x73746E656D676573⟩,
    ⟨0x4050, 0x6, 0x6, .table, .rs, 4, 4096, false, some 0x73746E657665⟩,
    ⟨0x4050, 0x7, 0x7, .table, .rs, 4, 4096, false, some 0x73746E657665⟩,
    ⟨0x4050, 0x8, 0x8, .table, .rs, 4, 4096, false, some 0x736567617373656D⟩,
    ⟨0x4050, 0x9, 0x9, .table, .rs, 8, 8, false, some 0x73746E656D656C65⟩,
    ⟨0x4050, 0xA, 0xA, .table, .rs, 8, 8, false, some 0x73746E656D656C65⟩,
    ⟨0x4050, 0xB, 0xB, .u64, .rs, 8, 1, false, some 0x73746E657665⟩,
    ⟨0x4050, 0xC, 0xC, .table, .rs, 8, 4096, false, some 0x7374656B636170⟩,
    ⟨0x5010, 0, 0, .u8, .ro, 1, 1, false, some 0⟩,
    ⟨0x5010, 0x1, 0x1, .table, .rs, 8, 64, false, some 0x73656972746E65⟩,
    ⟨0x5010, 0x2, 0x2, .table, .rs, 8, 64, false, some 0x73656972746E65⟩,
    ⟨0x5010, 0x3, 0x3, .table, .rs, 8, 72, false, some 0x73656C6974⟩,
    ⟨0x5010, 0x4, 0x4, .bits, .rws, 1, 1, false, some 0⟩,
    ⟨0x5020, 0, 0, .u8, .ro, 1, 1, false, some 0⟩,
    ⟨0x5020, 0x1, 0x1, .table, .rs, 8, 64, false, some 0x736573736170⟩,
    ⟨0x5020, 0x2, 0x2, .table, .rs, 8, 64, false, some 0x73656E616C⟩,
    ⟨0x5020, 0x3, 0x3, .table, .rs, 8, 64, false, some 0x73656E616C⟩,
    ⟨0x5020, 0x4, 0x4, .table, .rs, 8, 64, false, some 0x73656E616C⟩,
    ⟨0x5020, 0x5, 0x5, .table, .rs, 8, 64, false, some 0x73656972746E65⟩,
    ⟨0x5020, 0x6, 0x6, .bits, .rw, 1, 1, false, some 0⟩,
    ⟨0x5020, 0x7, 0x7, .table, .rs, 4, 128, false, some 0x73746E657665⟩,
    ⟨0x5030, 0, 0, .u8, .ro, 1, 1, false, some 0⟩,
    ⟨0x5030, 0x1, 0x1, .u64, .rws, 8, 1, false, some 0⟩,
    ⟨0x5030, 0x2, 0x2, .table, .rs, 8, 64, false, some 0x73656C6974⟩,
    ⟨0x5030, 0x3, 0x3, .table, .rs, 8, 64, false, some 0x73746E656D656C65⟩,
    ⟨0x5030, 0x4, 0x4, .table, .rs, 8, 64, false, some 0x73746E656D656C65⟩,
    ⟨0x5030, 0x5, 0x5, .table, .rs, 8, 64, false, some 0x73746E656D656C65⟩,
    ⟨0x5030, 0x6, 0x6, .table, .rs, 8, 64, false, some 0x73746E656D656C65⟩,
    ⟨0x5030, 0x7, 0x7, .table, .rs, 8, 64, false, some 0x73746E656D656C65⟩,
    ⟨0x5030, 0x8, 0x8, .table, .rs, 8, 64, false, some 0x73776F72⟩,
    ⟨0x5040, 0, 0, .u8, .ro, 1, 1, false, some 0⟩,
    ⟨0x5040, 0x1, 0x1, .table, .rs, 8, 64, false, some 0x73746E656D656C65⟩,
    ⟨0x5040, 0x2, 0x2, .table, .rs, 8, 64, false, some 0x73746E656D656C65⟩,
    ⟨0x5040, 0x3, 0x3, .table, .rs, 8, 64, false, some 0x73746E656D656C65⟩,
    ⟨0x5040, 0x4, 0x4, .table, .rs, 8, 64, false, some 0x73746E656D656C65⟩,
    ⟨0x5040, 0x5, 0x5, .table, .rs, 8, 64, false, some 0x73776F72⟩,
    ⟨0x5040, 0x6, 0x6, .table, .rs, 1, 16384, false, some 0⟩,
    ⟨0x5040, 0x7, 0x7, .table, .rs, 1, 64, false, some 0⟩ ]

/-- Rows of the parameter tables, part 5, in ascending order. -/
def paramRows5 : List ParamRow :=
  [ ⟨0x5040, 0x8, 0x8, .u8, .wo, 1, 1, false, some 0⟩,
    ⟨0x5040, 0x9, 0x9, .table, .rs, 4, 64, false, some 0x7374736F70⟩,
    ⟨0x5050, 0, 0, .u8, .ro, 1, 1, false, some 0⟩,
    ⟨0x5050, 0x1, 0x1, .u32, .rws, 4, 1, false, some 0x736E69617264⟩,
    ⟨0x5050, 0x2, 0x2, .u64, .rws, 8, 1, false, some 0⟩,
    ⟨0x5050, 0x3, 0x3, .u32, .rw, 4, 1, false, some 0x7375⟩,
    ⟨0x5050, 0x4, 0x4, .u8, .wo, 1, 1, false, some 0⟩,
    ⟨0x5050, 0x5, 0x5, .table, .ro, 1, 128, false, some 0⟩,
    ⟨0x5051, 0, 0, .u8, .ro, 1, 1, false, some 0⟩,
    ⟨0x5051, 0x1, 0x1, .table, .rs, 8, 6, false, some 0x736B63656863⟩,
    ⟨0x5051, 0x2, 0x2, .table, .rs, 8, 4, false, some 0x736B63656863⟩,
    ⟨0x5051, 0x3, 0x3, .table, .rs, 4, 128, false, some 0x736B63656863⟩,
    ⟨0x5051, 0x4, 0x4, .table, .rs, 4, 128, false, some 0x736B63656863⟩,
    ⟨0x5051, 0x5, 0x5, .u64, .rs, 8, 1, false, some 0x736B63656863⟩,
    ⟨0x5051, 0x6, 0x6, .u64, .rs, 8, 1, false, some 0x73746E656D656C65⟩,
    ⟨0x5051, 0x7, 0x7, .table, .ro, 4, 8, false, some 0x7365747962⟩,
    ⟨0x5060, 0, 0, .u8, .ro, 1, 1, false, some 0⟩,
    ⟨0x5060, 0x1, 0x1, .u16, .rws, 2, 1, false, some 0x7370657473⟩,
    ⟨0x5060, 0x2, 0x2, .f32, .rws, 4, 1, false, some 0⟩,
    ⟨0x5060, 0x3, 0x3, .table, .rws, 2, 256, false, some 0⟩,
    ⟨0x5060, 0x4, 0x4, .u32, .ro, 4, 1, false, some 0⟩,
    ⟨0x5060, 0x5, 0x5, .table, .rws, 16, 4096, false, some 0⟩,
    ⟨0x5060, 0x6, 0x6, .u64, .rs, 8, 1, false, some 0x7374736F70⟩,
    ⟨0x5061, 0, 0, .u8, .ro, 1, 1, false, some 0⟩,
    ⟨0x5061, 0x1, 0x1, .table, .rs, 8, 4096, false, some 0x73746E656D656C65⟩,
    ⟨0x5061, 0x2, 0x2, .table, .rs, 8, 4096, false, some 0x73746E656D656C65⟩,
    ⟨0x5061, 0x3, 0x3, .table, .rs, 8, 4096, false, some 0x73746E656D656C65⟩,
    ⟨0x5061, 0x4, 0x4, .table, .rs, 8, 4096, false, some 0x73746E657665⟩,
    ⟨0x5061, 0x5, 0x5, .table, .rs, 24, 1024, false, some 0⟩,
    ⟨0x5070, 0, 0, .u8, .ro, 1, 1, false, some 0⟩,
    ⟨0x5070, 0x1, 0x1, .table, .rs, 8, 1216, false, some 0x6361⟩,
    ⟨0x5070, 0x2, 0x2, .table, .ro, 8, 1216, false, some 0x6361⟩,
    ⟨0x5070, 0x3, 0x3, .table, .rs, 8, 1024, false, some 0x73656972746E65⟩,
    ⟨0x5070, 0x4, 0x4, .u64, .rws, 8, 1, false, some 0⟩,
    ⟨0x6000, 0, 0, .u8, .ro, 1, 1, false, some 0⟩,
    ⟨0x6000, 0x1, 0x1, .u64, .rws, 8, 1, false, some 0⟩,
    ⟨0x6000, 0x2, 0x2, .u64, .rws, 8, 1, false, some 0x7370657473⟩,
    ⟨0x6000, 0x3, 0x3, .u32, .rws, 4, 1, false, some 0x7364726F636572⟩,
    ⟨0x6000, 0x4, 0x4, .u64, .ro, 8, 1, false, some 0⟩,
    ⟨0x6000, 0x5, 0x5, .u32, .ro, 4, 1, false, some 0⟩ ]

/-- Rows of the parameter tables, part 6, in ascending order. -/
def paramRows6 : List ParamRow :=
  [ ⟨0x6010, 0, 0, .u8, .ro, 1, 1, false, some 0⟩,
    ⟨0x6010, 0x1, 0x1, .table, .rws, 128, 8192, false, some 0⟩,
    ⟨0x6010, 0x2, 0x2, .table, .rws, 16, 1024, false, some 0⟩,
    ⟨0x6020, 0, 0, .u8, .ro, 1, 1, false, some 0⟩,
    ⟨0x6020, 0x1, 0x40, .blob, .rws, 64, 1, false, some 0⟩,
    ⟨0x6030, 0, 0, .u8, .ro, 1, 1, false, some 0⟩,
    ⟨0x6030, 0x1, 0x8, .blob, .rws, 128, 1, false, some 0⟩,
    ⟨0x6040, 0, 0, .u8, .ro, 1, 1, false, some 0⟩,
    ⟨0x6040, 0x1, 0x1, .table, .rs, 8, 8, false, none⟩,
    ⟨0x6040, 0x2, 0x2, .table, .rs, 8, 8, false, some 0x73746E656D656C65⟩,
    ⟨0x6040, 0x3, 0x3, .table, .rs, 8, 8, false, some 0x73746E656D656C65⟩,
    ⟨0x6040, 0x4, 0x4, .table, .rs, 8, 8, false, some 0x73746E656D656C65⟩,
    ⟨0x6040, 0x5, 0x5, .table, .rs, 8, 8, false, some 0x73746E656D656C65⟩,
    ⟨0x6040, 0x6, 0x6, .table, .rs, 8, 8, false, some 0x73746E656D656C65⟩,
    ⟨0x6040, 0x7, 0x7, .table, .rs, 8, 8, false, some 0x73746E656D656C65⟩,
    ⟨0x6040, 0x8, 0x8, .table, .rs, 8, 8, false, some 0x736B636F6C62⟩,
    ⟨0x6040, 0x9, 0x9, .table, .rs, 8, 8, false, some 0x73746E656D656C65⟩,
    ⟨0x6040, 0xA, 0xA, .table, .rs, 4, 8, false, some 0x73657461647075⟩,
    ⟨0x6040, 0xB, 0xB, .table, .rs, 8, 8, false, some 0x73656C6974⟩,
    ⟨0x6040, 0xC, 0xC, .table, .rs, 4, 8, false, some 0x7374726F706572⟩,
    ⟨0x6050, 0, 0, .u8, .ro, 1, 1, false, some 0⟩,
    ⟨0x6050, 0x1, 0x1, .table, .rws, 2, 8192, false, some 0⟩,
    ⟨0x6050, 0x2, 0x2, .u64, .rw, 8, 1, false, some 0x70657473⟩,
    ⟨0x6050, 0x3, 0x3, .u64, .wo, 8, 1, false, some 0x70657473⟩,
    ⟨0x6050, 0x4, 0x4, .u32, .ro, 4, 1, false, some 0⟩,
    ⟨0x6050, 0x5, 0x5, .u16, .rw, 2, 1, false, some 0⟩,
    ⟨0x7000, 0, 0, .u8, .ro, 1, 1, false, some 0⟩,
    ⟨0x7000, 0x1, 0x1, .u64, .rw, 8, 1, false, some 0x736E⟩,
    ⟨0x7000, 0x2, 0x2, .u32, .ro, 4, 1, false, some 0⟩,
    ⟨0x7000, 0x3, 0x3, .u64, .ro, 8, 1, false, some 0x736E⟩,
    ⟨0x7000, 0x4, 0x4, .u64, .ro, 8, 1, false, none⟩,
    ⟨0x7000, 0x5, 0x5, .u64, .rw, 8, 1, false, some 0x70657473⟩,
    ⟨0x7000, 0x6, 0x6, .enum, .ro, 1, 1, false, some 0⟩,
    ⟨0x7000, 0x7, 0x7, .u64, .ro, 8, 1, false, some 0x6361⟩,
    ⟨0x7010, 0, 0, .u8, .ro, 1, 1, false, some 0⟩,
    ⟨0x7010, 0x1, 0x1, .table, .ro, 48, 256, false, some 0⟩,
    ⟨0x7010, 0x2, 0x2, .u32, .ro, 4, 1, false, some 0⟩,
    ⟨0x7010, 0x3, 0x3, .u32, .rw, 4, 1, false, some 0x7375⟩,
    ⟨0x7010, 0x4, 0x4, .table, .rs, 8, 16, false, some 0x73746E657665⟩,
    ⟨0x7010, 0x5, 0x5, .u64, .rs, 8, 1, false, some 0x73746E657665⟩ ]

/-- Rows of the parameter tables, part 7, in ascending order. -/
def paramRows7 : List ParamRow :=
  [ ⟨0x7010, 0x6, 0x6, .table, .rs, 8, 2, false, some 0x7364726F636572⟩,
    ⟨0x7011, 0, 0, .u8, .ro, 1, 1, false, some 0⟩,
    ⟨0x7011, 0x1, 0x1, .u8, .rw, 1, 1, false, some 0⟩,
    ⟨0x7011, 0x2, 0x2, .u64, .rw, 8, 1, false, some 0⟩,
    ⟨0x7011, 0x3, 0x3, .u64, .rw, 8, 1, false, some 0⟩,
    ⟨0x7011, 0x4, 0x4, .u8, .rw, 1, 1, false, some 0⟩,
    ⟨0x7011, 0x5, 0x5, .u8, .rw, 1, 1, false, some 0⟩,
    ⟨0x7011, 0x6, 0x6, .u32, .rw, 4, 1, false, some 0⟩,
    ⟨0x7011, 0x7, 0x7, .u32, .ro, 4, 1, false, some 0⟩,
    ⟨0x7012, 0, 0, .u8, .ro, 1, 1, false, some 0⟩,
    ⟨0x7012, 0x1, 0x1, .blob, .rw, 16, 1, false, some 0⟩,
    ⟨0x7012, 0x2, 0x2, .u16, .rw, 2, 1, false, some 0⟩,
    ⟨0x7012, 0x3, 0x3, .u8, .rw, 1, 1, false, some 0⟩,
    ⟨0x7020, 0, 0, .u8, .ro, 1, 1, false, some 0⟩,
    ⟨0x7020, 0x1, 0x1, .table, .ro, 512, 32, false, some 0⟩,
    ⟨0x7020, 0x2, 0x2, .u64, .ro, 8, 1, false, some 0⟩,
    ⟨0x7020, 0x3, 0x3, .u64, .wo, 8, 1, false, some 0⟩,
    ⟨0x7020, 0x4, 0x4, .u32, .ro, 4, 1, false, none⟩,
    ⟨0x7100, 0, 0, .u8, .ro, 1, 1, false, some 0⟩,
    ⟨0x7100, 0x1, 0x1, .table, .rs, 8, 64, false, some 0x73656972746E65⟩,
    ⟨0x7100, 0x2, 0x2, .table, .rs, 4, 64, false, some 0x73746E657665⟩,
    ⟨0x7100, 0x3, 0x3, .table, .rs, 4, 64, false, some 0x73746E657665⟩,
    ⟨0x7100, 0x4, 0x4, .table, .rs, 4, 64, false, some 0x73746E657665⟩,
    ⟨0x7100, 0x5, 0x5, .table, .rs, 4, 1024, true, some 0⟩,
    ⟨0x7101, 0, 0, .u8, .ro, 1, 1, false, some 0⟩,
    ⟨0x7101, 0x1, 0x40, .blob, .rw, 16, 1, false, some 0⟩,
    ⟨0x7102, 0, 0, .u8, .ro, 1, 1, false, some 0⟩,
    ⟨0x7102, 0x1, 0x1, .table, .rs, 1, 4096, true, some 0⟩,
    ⟨0x7110, 0, 0, .u8, .ro, 1, 1, false, some 0⟩,
    ⟨0x7110, 0x1, 0x80, .blob, .rw, 32, 1, false, some 0⟩,
    ⟨0x7120, 0, 0, .u8, .ro, 1, 1, false, some 0⟩,
    ⟨0x7120, 0x1, 0x1, .table, .ro, 64, 8192, false, some 0⟩,
    ⟨0x7130, 0, 0, .u8, .ro, 1, 1, false, some 0⟩,
    ⟨0x7130, 0x1, 0x1, .table, .ro, 32, 64, false, some 0⟩,
    ⟨0x7130, 0x2, 0x2, .u64, .ro, 8, 1, false, some 0x70657473⟩,
    ⟨0x7130, 0x3, 0x3, .u64, .rs, 8, 1, false, some 0x7370657473⟩,
    ⟨0x7130, 0x4, 0x4, .table, .rs, 8, 5, false, some 0x7370657473⟩,
    ⟨0x7130, 0x5, 0x5, .u64, .rs, 8, 1, false, some 0x736472616873⟩,
    ⟨0x7130, 0x6, 0x6, .u64, .rs, 8, 1, false, some 0x736472616873⟩,
    ⟨0x7130, 0x7, 0x7, .u64, .rs, 8, 1, false, some 0x736472616873⟩ ]

/-- Rows of the parameter tables, part 8, in ascending order. -/
def paramRows8 : List ParamRow :=
  [ ⟨0x7130, 0x8, 0x8, .u64, .rs, 8, 1, false, some 0x7370657473⟩,
    ⟨0x7130, 0x9, 0x9, .u32, .rs, 4, 1, false, some 0x73746E657665⟩,
    ⟨0x7130, 0xA, 0xA, .u64, .rs, 8, 1, false, none⟩,
    ⟨0x8000, 0, 0, .u8, .ro, 1, 1, false, some 0⟩,
    ⟨0x8000, 0x1, 0x1, .enum, .ro, 1, 1, false, some 0⟩,
    ⟨0x8000, 0x2, 0x2, .table, .ro, 4, 4, false, some 0x7375⟩,
    ⟨0x8000, 0x3, 0x3, .blob, .ro, 96, 1, true, some 0⟩,
    ⟨0x8000, 0x4, 0x4, .u8, .ro, 1, 1, true, some 0⟩,
    ⟨0x8010, 0, 0, .u8, .ro, 1, 1, false, some 0⟩,
    ⟨0x8010, 0x1, 0x1, .table, .wo, 4096, 6144, false, some 0⟩,
    ⟨0x8010, 0x2, 0x2, .u8, .wo, 1, 1, false, some 0⟩,
    ⟨0x8010, 0x3, 0x3, .u32, .ro, 4, 1, false, some 0⟩,
    ⟨0x8010, 0x4, 0x4, .u8, .rw, 1, 1, false, some 0⟩,
    ⟨0x8010, 0x5, 0x5, .u8, .ro, 1, 1, true, some 0⟩,
    ⟨0x8010, 0x6, 0x6, .table, .ro, 8, 2, true, some 0⟩,
    ⟨0x8020, 0, 0, .u8, .ro, 1, 1, false, some 0⟩,
    ⟨0x8020, 0x1, 0x1, .enum, .ro, 1, 1, true, some 0⟩,
    ⟨0x8020, 0x2, 0x2, .blob, .ro, 2048, 1, true, some 0⟩,
    ⟨0x8020, 0x3, 0x3, .blob, .ro, 2048, 1, true, some 0⟩,
    ⟨0x9000, 0, 0, .u8, .ro, 1, 1, false, some 0⟩,
    ⟨0x9000, 0x1, 0x1, .u8, .ro, 1, 1, false, some 0⟩,
    ⟨0x9000, 0x2, 0x2, .table, .rw, 1, 8, false, some 0⟩,
    ⟨0x9000, 0x3, 0x3, .table, .rw, 16, 8, false, some 0⟩,
    ⟨0x9000, 0x4, 0x4, .u32, .ro, 4, 1, false, some 0⟩,
    ⟨0x9000, 0x5, 0x5, .u32, .ro, 4, 1, false, some 0⟩,
    ⟨0x9000, 0x6, 0x6, .u32, .rs, 4, 1, false, some 0x73746E657665⟩,
    ⟨0x9010, 0, 0, .u8, .ro, 1, 1, false, some 0⟩,
    ⟨0x9010, 0x1, 0x1, .table, .rs, 8, 9, false, some 0x73646E616D6D6F63⟩,
    ⟨0x9010, 0x2, 0x2, .table, .rs, 8, 9, false, some 0x73656E696C⟩,
    ⟨0x9010, 0x3, 0x3, .table, .rs, 8, 9, false, some 0x7364616572⟩,
    ⟨0x9010, 0x4, 0x4, .table, .rs, 4, 9, false, some 0x73746E657665⟩,
    ⟨0x9010, 0x5, 0x5, .table, .rs, 4, 9, false, some 0x73746E657665⟩,
    ⟨0x9100, 0, 0, .u8, .ro, 1, 1, false, some 0⟩,
    ⟨0x9100, 0x1, 0x1, .u32, .ro, 4, 1, false, some 0⟩,
    ⟨0x9100, 0x2, 0x2, .u32, .ro, 4, 1, false, some 0⟩,
    ⟨0x9100, 0x3, 0x3, .u64, .ro, 8, 1, false, some 0⟩,
    ⟨0x9100, 0x4, 0x4, .u64, .rws, 8, 1, false, some 0x70657473⟩,
    ⟨0x9100, 0x5, 0x5, .u64, .rw, 8, 1, false, some 0x70657473⟩,
    ⟨0x9100, 0x6, 0x6, .u32, .rw, 4, 1, false, some 0x7375⟩,
    ⟨0x9100, 0x7, 0x7, .u64, .ro, 8, 1, false, some 0x70657473⟩ ]

/-- Rows of the parameter tables, part 9, in ascending order. -/
def paramRows9 : List ParamRow :=
  [ ⟨0xA000, 0, 0, .u8, .ro, 1, 1, false, some 0⟩,
    ⟨0xA000, 0x1, 0x1, .u8, .rw, 1, 1, false, some 0⟩,
    ⟨0xA000, 0x2, 0x2, .u32, .rw, 4, 1, false, some 0x73⟩,
    ⟨0xA000, 0x3, 0x3, .u8, .rw, 1, 1, false, some 0x73656964⟩,
    ⟨0xA000, 0x4, 0x4, .f32, .rw, 4, 1, false, some 0x43⟩,
    ⟨0xA000, 0x5, 0x5, .u32, .rw, 4, 1, false, some 0x73⟩,
    ⟨0xA000, 0x6, 0x6, .u8, .rw, 1, 1, false, some 0x7374636964726576⟩,
    ⟨0xA000, 0x7, 0x7, .u8, .wo, 1, 1, false, some 0⟩,
    ⟨0xA000, 0x8, 0x8, .u32, .ro, 4, 1, false, some 0⟩,
    ⟨0xA010, 0, 0, .u8, .ro, 1, 1, false, some 0⟩,
    ⟨0xA010, 0x1, 0x1, .u64, .ro, 8, 1, true, some 0⟩,
    ⟨0xA010, 0x2, 0x2, .u64, .ro, 8, 1, true, some 0⟩,
    ⟨0xA010, 0x3, 0x3, .u64, .ro, 8, 1, true, some 0⟩,
    ⟨0xA010, 0x4, 0x4, .u64, .ro, 8, 1, true, some 0⟩,
    ⟨0xA010, 0x5, 0x5, .u64, .ro, 8, 1, true, some 0⟩,
    ⟨0xA010, 0x6, 0x6, .u64, .ro, 8, 1, true, some 0⟩,
    ⟨0xA010, 0x7, 0x7, .u64, .ro, 8, 1, true, some 0⟩,
    ⟨0xA010, 0x8, 0x8, .u64, .ro, 8, 1, true, some 0⟩,
    ⟨0xA020, 0, 0, .u8, .ro, 1, 1, false, some 0⟩,
    ⟨0xA020, 0x1, 0x1, .table, .ro, 2, 10, true, some 0⟩,
    ⟨0xA020, 0x2, 0x2, .table, .ro, 1, 10, true, some 0⟩,
    ⟨0xA020, 0x3, 0x3, .table, .ro, 1, 20, true, some 0x7365726977⟩,
    ⟨0xA020, 0x4, 0x4, .table, .rs, 8, 160, false, some 0x7374696C66⟩,
    ⟨0xA020, 0x5, 0x5, .table, .rs, 4, 10, false, some 0x73746E657665⟩,
    ⟨0xA020, 0x6, 0x6, .table, .rs, 4, 10, false, some 0x7370756F7267⟩,
    ⟨0xA020, 0x7, 0x7, .u32, .rw, 4, 1, false, some 0x7374696C66⟩,
    ⟨0xA020, 0x8, 0x8, .u8, .wo, 1, 1, false, some 0⟩,
    ⟨0xA030, 0, 0, .u8, .ro, 1, 1, false, some 0⟩,
    ⟨0xA030, 0x1, 0x48, .blob, .ro, 32, 1, false, some 0⟩,
    ⟨0xA040, 0, 0, .u8, .ro, 1, 1, false, some 0⟩,
    ⟨0xA040, 0x1, 0x1, .enum, .ro, 1, 1, true, some 0⟩,
    ⟨0xA040, 0x2, 0x2, .u32, .rs, 4, 1, false, some 0x73746E657665⟩,
    ⟨0xA040, 0x3, 0x3, .u64, .ro, 8, 1, false, some 0x6361⟩,
    ⟨0xA040, 0x4, 0x4, .table, .ro, 2, 82, true, some 0x7365726977⟩,
    ⟨0xA040, 0x5, 0x5, .table, .ro, 1, 8, true, some 0⟩ ]

/-- Every parameter of the manual, in ascending order of index and subindex. -/
def paramTable : List ParamRow :=
  paramRows0 ++ paramRows1 ++ paramRows2 ++ paramRows3 ++ paramRows4 ++ paramRows5 ++ paramRows6 ++ paramRows7 ++ paramRows8 ++ paramRows9

end Sys2Proof.Machine
end

