-- ==== Sys2Proof/Machine/Params.lean ====
section
/-! DEFINITION. What every parameter holds before anything has written it: the Default column of the parameter tables
(R330). Values of STR, BLOB and TABLE elements are little-endian numbers. -/

namespace Sys2Proof.Machine

/-- The key of element `e` of parameter `p`. -/
def pkey (p e : Nat) : Nat := p * 2 ^ 24 + e

/-- The bytes of an ASCII text as a little-endian number. -/
def asciiNat (cs : List Nat) : Nat := cs.foldr (fun c acc => c + 256 * acc) 0

/-- "Jaerasar" (R8). -/
def vendorText : Nat := 0x726173617265614A
/-- "JDX-6410" (R8). -/
def productText : Nat := 0x303134362D58444A

/-- Table 7-5: the defaults of a hyperparameter set, H1 to H7. -/
def hyperDefault : Nat :=
  0x3F666666 * 2 ^ 32 + 0x3F7FBE77 * 2 ^ 64 + 0x322BCC77 * 2 ^ 96 + 0 * 2 ^ 128 + 0x3F800000 * 2 ^ 160
    + 0x3F800000 * 2 ^ 192 + 0x3C23D70A * 2 ^ 224

/-- Defaults other than zero of parameters whose elements all share one Default. -/
def plainDefaults : List (Nat × Nat) :=
  [ (P.vendor, vendorText), (P.product, productText), (P.rwsLimit, 8388608), (P.transportRights, 3)
  , (P.mgmtUdpPort, 47000), (P.powerLimit, 4000), (P.gearCap, 7), (P.streamOrder, 0xFEDCBA9876543210)
  , (P.bucketDepth, 4096), (P.correction, 0x3F800000), (P.moduleGear, 7), (P.dieGear, 7)
  , (P.throttleTemp, 0x42C80000), (P.hardLimit, 0x42DC0000), (P.thermalHyst, 0x40400000)
  , (P.hbmThrottleTemp, 0x42AA0000), (P.hbmLimit, 0x42BE0000), (P.warnLevel, 0x42300000)
  , (P.resetLevel, 0x42200000), (P.supplyHyst, 0x3F000000), (P.supplyHold, 10000), (P.overLevel, 0x426C0000)
  , (P.llmMode, 0x0F), (P.tierMapCapacity, 4194304), (P.scrubPeriod, 86400), (P.ceRetireThreshold, 16)
  , (P.journalBlocks, 16384), (P.mirrorBlocks, 16384), (P.readRetrySteps, 8), (P.readDisturbLimit, 50000)
  , (P.flashScanPeriod, 604800), (P.wearSpread, 500), (P.portMap, 1), (P.memberTable, 0xFFFF)
  , (P.streamUdpPort, 47000), (P.segmentBytes, 8192), (P.retxTimeout, 40), (P.retxAlarm, 16), (P.window, 512)
  , (P.holdBytes, 262144), (P.ptpLogSync, 0xFFFFFFFD), (P.flagSources, 1), (P.digestVerify, 7)
  , (P.offenderMask, 0x16), (P.riffleRate, 4096), (P.riffleDeadline, 20000), (P.silenceRun, 64)
  , (P.phaseTile, 0xFFFFFFFFFFFFFFFF), (P.shardTable, 0xFF000000), (P.digestGroup, 0xFFFF)
  , (P.checkpointStep, 0xFFFFFFFFFFFFFFFF), (P.replayPeer, 0xFFFF), (P.snapshotStep, 0xFFFFFFFFFFFFFFFF)
  , (P.eventHoldoff, 1000), (P.eventRingSize, 8), (P.eventRingVector, 0xFF), (P.eventRingFrom, 1)
  , (P.eventSinkPort, 47001), (P.sinkSignatures, 1), (P.autoConfirm, 1), (P.linkEpoch, 1)
  , (P.activateStep, 0xFFFFFFFFFFFFFFFF), (P.stallLimit, 1000000), (P.screenEnable, 1), (P.screenInterval, 3600)
  , (P.screenConcurrency, 1), (P.screenTemp, 0x42BE0000), (P.replayTime, 300), (P.blameRetire, 2)
  , (P.rillErrorLimit, 64) ]

/-- The Default of element `e` of parameter `p`. -/
def defaultOf (p _e : Nat) : Nat :=
  match plainDefaults.find? (fun d => d.1 == p) with
  | some d => d.2
  | none => if 0x602001 ≤ p ∧ p ≤ 0x602040 then hyperDefault else 0

/-- What an unlisted key of the parameter store reads as. -/
def paramDefault (k : Nat) : Nat := defaultOf (k / 2 ^ 24) (k % 2 ^ 24)

/-- The row of parameter `p` (R321): subindex 0x00 of an object is its Count. -/
def rowOf (p : Nat) : Option ParamRow :=
  paramTable.find? fun r => r.index == p / 256 && decide (r.lo ≤ p % 256) && decide (p % 256 ≤ r.hi)

/-- The largest value of an unsigned field of `n` bytes. -/
def maxOfBytes (n : Nat) : Nat := 2 ^ (8 * n) - 1

end Sys2Proof.Machine
end

