-- ==== Sys2Proof/Machine/Arith.lean ====
section
/-! DEFINITION. The arithmetic of the arrays: operand decoding (R74), the pass sum and its kinds (R75, R78), Ripple (R92),
the two accumulations (R90, R91), scale choice (R102) and row conversion (R101). -/

namespace Sys2Proof.Machine

/-- The class of a decoded operand (R74). -/
inductive DecKind where
  | nan | inf | zero | finite
  deriving DecidableEq, Repr

/-- A decoded operand: value (−1)^s × m × 2^c (R74). -/
structure Dec where
  k : DecKind
  s : Bool
  m : Nat
  c : Int
  deriving DecidableEq, Repr

/-- R74: decode one operand element of a row with scale byte `scale`. -/
def decodeOperand (f : Fmt) (scale x : Nat) : Dec :=
  if scale = 0xFF then ⟨.nan, false, 0, 0⟩
  else
    match decodeElem f x with
    | .nan => ⟨.nan, false, 0, 0⟩
    | .inf s => ⟨.inf, s, 0, 0⟩
    | .fin s n _ e => if n = 0 then ⟨.zero, s, 0, 0⟩ else ⟨.finite, s, n, e⟩

/-- The sum of one lane of one pass: its value, the kind of R78 with its product (0xFF: none), and LOSS with its product. -/
structure PassSum where
  val      : Val
  kind     : Nat
  product  : Nat
  loss     : Bool
  lossProd : Nat
  deriving DecidableEq, Repr

/-- One product that is aligned in the window: its index, sign, significand and exponent. -/
structure Product where
  k : Nat
  s : Bool
  m : Nat
  q : Int
  deriving DecidableEq, Repr

/-- The magnitude of a product in the window whose lowest bit weighs 2^L, and whether a 1 was discarded (R75). -/
def alignProduct (L : Int) (p : Product) : Nat × Bool :=
  if L ≤ p.q then (p.m * 2 ^ (p.q - L).toNat, false)
  else
    let sh := (L - p.q).toNat
    let u := p.m >>> sh
    (u, u * 2 ^ sh != p.m)

/-- The pairs of decoded operands of a pass, with their index k. -/
def passPairs (fa fb : Fmt) (sa sb : Nat) (a b : List Nat) : List (Nat × Dec × Dec) :=
  (List.range 128).zip ((a.map (decodeOperand fa sa)).zip (b.map (decodeOperand fb sb)))

/-- Whether a product meets kind 1 (NaN operand) or kind 2 (zero times infinity): its kind, or 0. -/
def badKind (x y : Dec) : Nat :=
  if x.k = .nan ∨ y.k = .nan then 1
  else if (x.k = .inf ∧ y.k = .zero) ∨ (x.k = .zero ∧ y.k = .inf) then 2
  else 0

/-- R75, R78: the pass sum of one lane; with `exact`, the sum without a window of R273. -/
def passSumIn (exact : Bool) (fa fb : Fmt) (sa sb : Nat) (a b : List Nat) : PassSum :=
  let ps := passPairs fa fb sa sb a b
  match ps.find? (fun p => badKind p.2.1 p.2.2 != 0) with
  | some (k, x, y) =>
    if sa = 0xFF ∨ sb = 0xFF then ⟨.nan, 1, 0xFF, false, 0xFF⟩
    else ⟨.nan, badKind x y, k, false, 0xFF⟩
  | none =>
    let infs := ps.filter (fun p => decide (p.2.1.k = .inf) || decide (p.2.2.k = .inf))
    let pinf := infs.any (fun p => p.2.1.s == p.2.2.s)
    let ninf := infs.any (fun p => p.2.1.s != p.2.2.s)
    if pinf ∧ ninf then ⟨.nan, 3, 0xFF, false, 0xFF⟩
    else if pinf then ⟨.inf false, 0, 0xFF, false, 0xFF⟩
    else if ninf then ⟨.inf true, 0, 0xFF, false, 0xFF⟩
    else
      let prods := (ps.filter (fun p => decide (p.2.1.k = .finite) && decide (p.2.2.k = .finite))).map
        (fun p => Product.mk p.1 (p.2.1.s != p.2.2.s) (p.2.1.m * p.2.2.m) (p.2.1.c + p.2.2.c))
      match prods with
      | [] =>
        let allneg := ps.all (fun p => p.2.1.s != p.2.2.s)
        ⟨.zero allneg, 0, 0xFF, false, 0xFF⟩
      | p0 :: rest =>
        let qmax := rest.foldl (fun q p => max q p.q) p0.q
        let L := if exact then rest.foldl (fun q p => min q p.q) p0.q else qmax - 61
        let t : Int := prods.foldl (fun t p =>
          let u := (alignProduct L p).1
          if p.s then t - u else t + u) 0
        let lost := prods.find? (fun p => (alignProduct L p).2)
        let v := if t = 0 then Val.zero false else .fin (decide (t < 0)) t.natAbs 1 L
        ⟨v, 0, 0xFF, lost.isSome, (lost.map (·.k)).getD 0xFF⟩

/-- R75, R78: the pass sum of one lane. -/
def passSum (fa fb : Fmt) (sa sb : Nat) (a b : List Nat) : PassSum := passSumIn false fa fb sa sb a b

/-- R273: the largest exponent of a product of the pass; none where no product is finite and non-zero. -/
def passQmax (fa fb : Fmt) (sa sb : Nat) (a b : List Nat) : Option Int :=
  (passPairs fa fb sa sb a b).foldl (fun q p =>
    if p.2.1.k = .finite ∧ p.2.2.k = .finite then some (max (q.getD (p.2.1.c + p.2.2.c)) (p.2.1.c + p.2.2.c)) else q) none

/-- One mixing round of Ripple (R92), modulo 2^64. -/
def rippleMix (z0 : W64) : W64 :=
  let z := z0 + 0x9E3779B97F4A7C15#64
  let z := z ^^^ (z >>> 30)
  let z := z * 0xBF58476D1CE4E5B9#64
  let z := z ^^^ (z >>> 27)
  let z := z * 0x94D049BB133111EB#64
  z ^^^ (z >>> 31)

/-- The 64-bit state of Ripple before its top 16 bits are taken (R92). -/
def rippleWord (seed step tile index : Nat) : W64 :=
  let x := BitVec.ofNat 64 seed ^^^ 0x6A09E667F3BCC909#64
  let x := rippleMix (x ^^^ BitVec.ofNat 64 step)
  let x := rippleMix (x ^^^ BitVec.ofNat 64 tile)
  rippleMix (x ^^^ BitVec.ofNat 64 index)

/-- R92: Ripple's 16 bits. -/
def ripple (seed step tile index : Nat) : Nat := (rippleWord seed step tile index).toNat >>> 48

/-- R91: round an exact finite non-zero value to BF16 with 16 random bits. -/
def srBf16 (v : Val) (r : Nat) : Nat × Nat :=
  match v with
  | .fin s num den ex =>
    let sb := if s then 0x8000 else 0
    let e := max (floorLog2 num den ex) (-126)
    let (a, b) := scaleFrac num den (e - 7 - ex)
    let n0 := a / b
    let g := ((a % b) * 2 ^ 16) / b
    let n1 := if g + r ≥ 2 ^ 16 then n0 + 1 else n0
    if n1 = 0 then (sb, flagUNF)
    else
      let carry := n1 = 2 ^ 8
      let n := if carry then 2 ^ 7 else n1
      let e := if carry then e + 1 else e
      let enc := if n ≥ 2 ^ 7 then (e + 127).toNat * 2 ^ 7 + (n - 2 ^ 7) else n
      if enc > 0x7F7F then (sb + 0x7F80, flagOVF) else (sb + enc, 0)
  | v => convert v .bf16 .ieee

/-- R90: add the handed-over pass sum `p` to element `a` of a set; `r` is Ripple's draw for the element. -/
def accumulate (a : Nat) (p : Val) (half : Bool) (r : Nat) : Nat × Nat :=
  let f : Fmt := if half then .bf16 else .fp32
  let va := decodeElem f a
  match va, p with
  | .nan, _ => (f.nan, 0)
  | _, .nan => (f.nan, 0)
  | .inf x, .inf y => if x = y then (a, 0) else (f.nan, flagINV)
  | .inf _, _ => (a, 0)
  | _, .inf y => ((if y then f.signBit else 0) + f.inf, 0)
  | va, p =>
    let v := va.add p
    if v.isZero then ((if v.neg? then f.signBit else 0), 0)
    else if half then srBf16 v r
    else convert v .fp32 .ieee

/-- Whether |v| is at most maxfin(f) × 2^k. -/
def fitsScale (f : Fmt) (v : Val) (k : Int) : Bool :=
  decide (v.abs.cmp ((decodeElem f f.maxFin).shift k) ≤ 0)

/-- The smallest k at or above `k0` with v ≤ maxfin × 2^k, searching `fuel` steps. -/
def leastScale (f : Fmt) (v : Val) : Nat → Int → Int
  | 0, k => k
  | n + 1, k => if fitsScale f v k then k else leastScale f v n (k + 1)

/-- R102: the row scale of a row of exact values, and whether it clamped. -/
def chooseScale (xs : List Val) (f : Fmt) : Nat × Bool :=
  let m := xs.foldl (fun m x => match x with
    | .fin _ n d e => if m.lt (.fin false n d e) then .fin false n d e else m
    | _ => m) (Val.zero false)
  match m with
  | .fin _ n d e =>
    if n = 0 then (0x7F, false)
    else
      let top : Int := match decodeElem f f.maxFin with
        | .fin _ n' _ e' => (Nat.log2 n' : Int) + e'
        | _ => 0
      let k := leastScale f m 4 (floorLog2 n d e - top - 1)
      if k > 127 then (0xFE, true)
      else if k < -127 then (0x00, true)
      else ((127 + k).toNat, false)
  | _ => (0x7F, false)

/-- The clip of R101; NaN bounds bound nothing. -/
def clipVal (x lo hi : Val) : Val :=
  if x.isNan then x
  else
    let x := if !lo.isNan && x.lt lo then lo else x
    if !hi.isNan && hi.lt x then hi else x

/-- The conversion inputs that a DRAIN captures (R97, Table 5-2). -/
structure ConvIn where
  fmtOut    : Fmt
  autoScale : Bool
  biasEn    : Bool
  clipEn    : Bool
  reg       : Nat
  deriving DecidableEq, Repr

/-- Element `e` of a 256 × 32-bit vector register. -/
def regElem (v e : Nat) : Nat := bits v (32 * e) 32

/-- R101: convert one row of a set: the elements with their flags, the row scale, and whether the scale clamped. -/
def convertRow (ci : ConvIn) (half : Bool) (acc : List Nat) (sA : Nat) (sB : List Nat) :
    List (Nat × Nat) × Nat × Bool :=
  let f : Fmt := if half then .bf16 else .fp32
  let xs := (List.range 128).zip (acc.zip sB) |>.map fun (j, a, sb) =>
    let x : Val := if sA = 0xFF ∨ sb = 0xFF then .nan
      else (decodeElem f a).shift ((sA : Int) + sb - 254)
    let x := if ci.biasEn then x.add (f32 (regElem ci.reg j)) else x
    if ci.clipEn then clipVal x (f32 (regElem ci.reg 128)) (f32 (regElem ci.reg 129)) else x
  let (s0, cl) := if ci.autoScale then chooseScale xs ci.fmtOut else (0x7F, false)
  let s := if sA = 0xFF then 0xFF else s0
  let ys := (List.range 128).zip xs |>.map fun (j, x) =>
    let mode := if bit ci.reg (4160 + j) then ClipMode.ieee else ClipMode.sat
    convert (x.shift (127 - (s : Int))) ci.fmtOut mode
  (ys, s, cl)

end Sys2Proof.Machine
end

