-- ==== Sys2Proof/Machine/Flags.lean ====
section
/-! DEFINITION. The flag computations: element flags into a tile's Flags word and counts (R60, R62), the Status word
(R61), and the images that writers of tiles form (R63, R65, R67, R71). -/

namespace Sys2Proof.Machine

/-- The image of a tile: element rows as little-endian numbers of a row's bytes, and the sidecar of Table 3-5. -/
structure Tile where
  rows    : Sparse Nat := []
  scales  : Sparse Nat := []
  flags   : Nat := 0
  status  : Nat := 0
  ovf     : Nat := 0
  unf     : Nat := 0
  loss    : Nat := 0
  inv     : Nat := 0
  digest  : Nat := 0x713C8713FA4E087E
  stamp   : Nat := 0
  setId   : Nat := 0
  entry   : Nat := 0
  deriving DecidableEq, Repr

/-- What an unlisted row scale reads as (Table 3-5). -/
def scaleDefault : Nat → Nat := fun _ => 0x7F

/-- Row `i`'s bytes. -/
def Tile.row (t : Tile) (i : Nat) : Nat := Sparse.get zeros t.rows i
/-- Row `i`'s scale byte. -/
def Tile.scale (t : Tile) (i : Nat) : Nat := Sparse.get scaleDefault t.scales i
/-- All 128 scale bytes. -/
def Tile.scaleList (t : Tile) : List Nat := (List.range 128).map t.scale
/-- The format code of the Status word. -/
def Tile.fmtCode (t : Tile) : Nat := bits t.status 0 3
/-- The Written bit. -/
def Tile.written (t : Tile) : Bool := bit t.status 3
/-- The POISON flag. -/
def Tile.poisoned (t : Tile) : Bool := bit t.flags 4

/-- Rows of numbers as a canonical map. -/
def rowMap (rows : List Nat) : Sparse Nat := Sparse.putRun zeros [] 0 rows
/-- Scale bytes as a canonical map. -/
def scaleMap (ss : List Nat) : Sparse Nat := Sparse.putRun scaleDefault [] 0 ss

/-- Element data in storage order (R56), for rows of `w` bytes per element. -/
def Tile.dataBytes (t : Tile) (w : Nat) : List Byte := (List.range 128).flatMap fun i => leBytes (128 * w) (t.row i)

/-- Bytes 0x00 to 0x83 of the sidecar. -/
def Tile.headBytes (t : Tile) : List Byte := t.scaleList.map (BitVec.ofNat 8) ++ leBytes 4 t.flags

/-- R63: the digest of the tile's content. -/
def Tile.computeDigest (t : Tile) (w : Nat) : Nat := crc64From (crc64 (t.dataBytes w)) t.headBytes

/-- The whole sidecar as 256 bytes. -/
def Tile.sidecarBytes (t : Tile) : List Byte :=
  t.headBytes ++ leBytes 4 t.status ++ leBytes 2 t.ovf ++ leBytes 2 t.unf ++ leBytes 2 t.loss ++ leBytes 2 t.inv
    ++ leBytes 8 t.digest ++ leBytes 8 t.stamp ++ leBytes 4 t.setId ++ leBytes 4 t.entry ++ leBytes 88 0

/-- The tile that element data and sidecar bytes spell (network receive, TILE_WRITE Mode 0); Res bits are ignored (R5). -/
def Tile.ofBytes (w : Nat) (dat side : List Byte) : Tile :=
  { rows := rowMap ((chunks (128 * w) 128 dat).map leNat)
    scales := scaleMap ((side.take 128).map (·.toNat))
    flags := leField side 0x80 4 % 2 ^ 5, status := Nat.land (leField side 0x84 4) 0x00FF7FFF
    ovf := leField side 0x88 2, unf := leField side 0x8A 2, loss := leField side 0x8C 2, inv := leField side 0x8E 2
    digest := leField side 0x90 8, stamp := leField side 0x98 8, setId := leField side 0xA0 4
    entry := leField side 0xA4 4 }

/-- R71: the tile of a newly mapped page. Its digest does not depend on the width: leading zero bytes leave a CRC of
initial value zero at zero. -/
def Tile.fresh : Tile := {}

/-- Digest of the poisoned content of R67, of any width. -/
def poisonDigest : Nat := crc64 (List.replicate 128 0x7F#8 ++ leBytes 4 flagPOISON)

/-- A writer's identity, for Status, StepStamp, SetId and Entry (R61, R64). -/
structure Writer where
  source : Nat
  slot   : Nat := 0
  array  : Nat := 0
  opcode : Nat := 0
  stamp  : Nat := 0
  setId  : Nat := 0
  entry  : Nat := 0
  deriving DecidableEq, Repr

/-- R61: the Status word. -/
def statusWord (w : Writer) (fmt : Nat) (autoScaled partialW : Bool) : Nat :=
  fmt % 8 + 8 + 16 * b2n autoScaled + 32 * b2n partialW + 64 * (w.source % 4) + 256 * (w.slot % 64)
    + 2 ^ 14 * (w.array % 2) + 2 ^ 16 * (w.opcode % 256)

/-- R67: the poisoned content in a given format, as a writer leaves it. -/
def Tile.poison (w : Writer) (fmt : Nat) : Tile :=
  { flags := flagPOISON, status := statusWord w fmt false false, digest := poisonDigest
    stamp := w.stamp, setId := w.setId, entry := w.entry }

/-- R67: the poisoned content in place of a tile: the fields that its writer filled stay, AutoScaled and Partial are 0. -/
def Tile.poisonInPlace (t : Tile) : Tile :=
  { flags := flagPOISON, status := setBits (setBits (setBits t.status 3 1 1) 4 1 0) 5 1 0
    digest := poisonDigest, stamp := t.stamp, setId := t.setId, entry := t.entry }

/-- R159, R67: the poisoned content in place of a tile, in another format. -/
def Tile.poisonAs (t : Tile) (fmt : Nat) : Tile :=
  { t.poisonInPlace with status := setBits t.poisonInPlace.status 0 3 fmt }

/-- Saturate a sidecar count at 0xFFFF. -/
def sat16 (n : Nat) : Nat := min n 0xFFFF

/-- How many elements of a list of flags carry a flag. -/
def countFlag (fl : Nat) (fs : List Nat) : Nat := (fs.filter (fun f => Nat.land f fl != 0)).length

/-- The OR of a list of flags. -/
def orFlags (fs : List Nat) : Nat := fs.foldl Nat.lor 0

/-- What a writer of a whole tile formed: encodings row by row, element flags row by row, row scales, and the flags and
LOSS count that the writer adds (R62, R82). -/
structure Formed where
  fmt        : Fmt
  elems      : List (List Nat)
  flags      : List (List Nat)
  scales     : List Nat
  extraFlags : Nat
  lossCount  : Nat
  autoScaled : Bool
  deriving DecidableEq, Repr

/-- A row of elements of `w` bytes as one little-endian number. -/
def packRow (w : Nat) (xs : List Nat) : Nat := xs.foldr (fun x acc => x % 2 ^ (8 * w) + 2 ^ (8 * w) * acc) 0

/-- Elements of a row number. -/
def unpackRow (w r : Nat) : List Nat := (List.range 128).map fun j => bits r (8 * w * j) (8 * w)

/-- R62: the flags and counts of a formed tile; a row scale of 0xFF sets INV and adds its 128 elements to InvCount. -/
def Formed.invCount (f : Formed) : Nat :=
  ((f.flags.zip f.scales).map fun (fs, s) => if s = 0xFF then 128 else countFlag flagINV fs).foldl (· + ·) 0

/-- The tile a writer leaves: content, Flags, counts, Status, digest and stamps. -/
def Formed.tile (f : Formed) (w : Writer) : Tile :=
  let all := f.flags.flatten
  let inv := f.invCount
  let fl := Nat.lor (Nat.lor (orFlags all % 16) f.extraFlags) (if inv = 0 then 0 else flagINV)
  let t : Tile :=
    { rows := rowMap (f.elems.map (packRow f.fmt.bytes)), scales := scaleMap f.scales, flags := fl
      status := statusWord w f.fmt.code f.autoScaled false
      ovf := sat16 (countFlag flagOVF all), unf := sat16 (countFlag flagUNF all), loss := sat16 f.lossCount
      inv := sat16 inv, stamp := w.stamp, setId := w.setId, entry := w.entry }
  { t with digest := t.computeDigest f.fmt.bytes }

end Sys2Proof.Machine
end

