-- ==== Sys2Proof/Machine/StateCompute.lean ====
section
/-! DEFINITION. The state of a compute die (streams, tokens, entries in flight, arrays, vector registers), of the memory
tiers and of the weir. Every structure is plain data; times are ROOT cycles (9 GHz) since panel reset release. -/

namespace Sys2Proof.Machine

/-- A resource of a footprint (R42): a range of tiles, a vector register, or an array's state. -/
inductive Res where
  | tiles (first n : Nat)
  | reg (r : Nat)
  | array (a : Nat)
  deriving DecidableEq, Repr

/-- What an entry's completion makes visible. Operands are read at issue, so an effect holds values, not operands. -/
inductive Effect where
  | tile (id cls ovfBit : Nat) (w : Writer) (t : Tile)
  | moveTile (id width : Nat) (t : Tile)
  | reg (r : Nat) (v : Nat) (poison : Bool)
  | bump (p e n : Nat)
  | orByte (p e v : Nat)
  | raise (slot token count : Nat) (step : Nat)
  | post (channel a0 a128 : Nat) (poison : Bool)
  | scatter (desc gran : Nat) (cells : List (Nat × Nat))
  | flagWord (w : Nat)
  deriving DecidableEq, Repr

/-- How an entry in flight reaches its completion. -/
inductive FlightKind where
  | timed
  | mma (a : Nat)
  | drain (a : Nat)
  | remote
  | nsend (stream : Nat) (message : Nat)
  | coll (key : Nat)
  deriving DecidableEq, Repr

/-- An entry issued and not yet completed. `ready` is set when the event that its kind waits on has come about; `cold` holds
the pages that a Demand load must fill before its unit starts, `x` the base registers it issued with (R36, R175). -/
structure Flight where
  id       : Nat
  stream   : Nat
  index    : Nat
  entry    : Nat
  issued   : Nat
  due      : Nat
  step     : Nat
  reads    : List Res
  writes   : List Res
  effects  : List Effect
  kind     : FlightKind
  ready    : Bool
  cold     : List Nat := []
  x        : List Nat := []
  deriving DecidableEq, Repr

/-- A running LOOP: its level, first and last body index, iterations left, and X0–X2 at entry (R27). -/
structure LoopFrame where
  level : Nat
  first : Nat
  last  : Nat
  left  : Nat
  saved : List Nat
  deriving DecidableEq, Repr

/-- One stream of a die (R20, R27, R35). -/
structure Stream where
  head    : Nat := 0
  ended   : Bool := true
  x       : List Nat := [0, 0, 0, 0]
  strides : List Nat := List.replicate 12 0
  loops   : List LoopFrame := []
  passed  : Nat := 0
  held    : Bool := false
  stalled : Bool := false
  deriving DecidableEq, Repr

/-- An MMA with the operands and mode it captured at issue (R24, R72, R83). `late` is the delay of operands that are not
resident, in ROOT cycles (R36); `cold` tells that a Demand load must fill an operand's page first (R175). -/
structure MmaJob where
  flight : Nat
  ord    : Nat
  issued : Nat
  stream : Nat
  index  : Nat
  step   : Nat
  fmtA   : Fmt
  fmtB   : Fmt
  half   : Bool
  idA    : Nat
  idB    : Nat
  a      : List (List Nat)
  sa     : List Nat
  b      : List (List Nat)
  sb     : List Nat
  poison : Bool
  mism   : Bool
  badDigest : Bool := false
  before : Nat := 0
  late   : Nat := 0
  cold   : Bool := false
  deriving DecidableEq, Repr

/-- A DRAIN with the inputs it captured at issue (R97). -/
structure DrainJob where
  flight  : Nat
  ord     : Nat
  issued  : Nat
  dest    : Nat
  conv    : ConvIn
  convPoi : Bool
  writer  : Writer
  deriving DecidableEq, Repr

/-- A pass in the adder tree. -/
structure TreePass where
  job   : MmaJob
  row   : Nat
  enter : Nat
  first : Bool
  last  : Bool
  sums  : List Val
  invs  : List Bool
  losses : List Bool
  deriving DecidableEq, Repr

/-- One accumulator set (R81, R88). -/
structure AccSet where
  acc       : Sparse Nat := []
  half      : Bool := false
  lanes     : Sparse Nat := []
  lossCount : Nat := 0
  poison    : Bool := false
  mismatch  : Bool := false
  captured  : Option (List Nat × List Nat) := none
  mmas      : Nat := 0
  deriving DecidableEq, Repr

/-- A set being converted: the DRAIN, the swap time, the set as it stood at the swap, and the rows counted so far (R104). -/
structure Conv where
  job   : DrainJob
  swap  : Nat
  set   : AccSet
  freed : Bool
  counted : Nat := 0
  deriving DecidableEq, Repr

/-- What the riffle captured of the sampled set that an array accumulates (R271). -/
structure RiffleCap where
  set     : Nat
  mmas    : List MmaJob
  bytes   : Nat
  dropped : Option Nat
  deriving DecidableEq, Repr

/-- One array of a die. `running` is the MMA whose passes enter, with the next row and the time of its first pass; `lastEnter`
the time of the last pass that entered, `ends` the time of the last pass of each MMA since the last swap with its place in the
queue, `lastSwap` the time of the last swap (R37, R38, R88). -/
structure ArrayState where
  mode      : Nat := 0
  convReg   : Nat := 0
  nextOrd   : Nat := 0
  halves    : List (Nat × Bool) := []
  mmas      : List MmaJob := []
  drains    : List DrainJob := []
  running   : Option (MmaJob × Nat × Nat) := none
  tree      : List TreePass := []
  lastEnter : Option Nat := none
  ends      : List (Nat × Nat) := []
  lastSwap  : Option Nat := none
  active    : Nat := 0
  set0      : AccSet := {}
  set1      : AccSet := {}
  convs     : List Conv := []
  swaps     : Nat := 0
  capture   : Option RiffleCap := none
  deriving DecidableEq, Repr

/-- One logical slot's die: its sequencer, tokens, arrays and vector registers. `raised` holds the newest raises: the token, the
ac and the count, which readiness sees one ac later (R31). -/
structure Die where
  streams   : List Stream := List.replicate 16 {}
  tokens    : List Nat := List.replicate 64 0
  flight    : List Flight := []
  nextId    : Nat := 0
  lastIssue : Option Nat := none
  lastAct   : Nat := 0
  stallTold : Bool := false
  array0    : ArrayState := {}
  array1    : ArrayState := {}
  regs      : Sparse Nat := []
  regPoison : Sparse Nat := []
  posted    : List Nat := []
  vecBusy   : Nat := 0
  redBusy   : Nat := 0
  raised    : List (Nat × Nat × Nat) := []
  doneAt    : Nat := 0
  phaseAt   : Nat := 0
  phaseBase : List Nat := List.replicate 19 0
  deriving DecidableEq, Repr

/-- What an unlisted die reads as: a die before its first step. -/
def dieDefault : Nat → Die := fun _ => {}

/-- A table set image as loaded (R47): header fields, directory, initial tokens and entries. -/
structure TableSet where
  setId      : Nat
  flagToken  : Nat
  slotMask   : Nat
  directory  : Sparse Nat
  tokens     : Sparse Nat
  entries    : Sparse Nat
  entryCount : Nat
  deriving DecidableEq, Repr

/-- A raise in transit, or held for a later step (R32). It arrives no earlier than ROOT cycle `sent` (Table 2-6). -/
structure HeldRaise where
  slot  : Nat
  token : Nat
  count : Nat
  step  : Nat
  origin : Option (Nat × Nat) := none
  sent  : Nat := 0
  deriving DecidableEq, Repr

/-- The first event of an enabled kind that an offender latch met in an ac (R85): the latch (2 × slot + array), the ac, the
record, and whether it found the latch full. -/
structure LatchEvent where
  latch  : Nat
  ac     : Nat
  word   : Nat
  missed : Bool
  deriving DecidableEq, Repr

/-- Step sequencing and the table sets (R44 to R49). `opened` tells whether a step's entries are still running; `wordTaken`
whether the closing collective has taken its word (R246); `fabric` holds raises in transit; `copying` the slots whose tile
store is being copied, with the position that held them (R13); `changeReq` the slot changes asked for, with their order of
R356; `changedAt` the base dies changed at this boundary; `dead` the slots whose die failed (R354); `firstOpen` tells that the
next open is the first after power-up or a restore, `everOpen` that a step has opened since power-up; `stickyHeld` a
StickyClear that waits for the next step open; `aborted` the last step aborted (R46); `latched` the events that offender
latches met in their last ac (R85). -/
structure Seq where
  dies      : Sparse Die := []
  active    : Option TableSet := none
  pendingSet : Option TableSet := none
  heldRaises : List HeldRaise := []
  fabric    : List HeldRaise := []
  opened    : Bool := false
  firstOpen : Bool := true
  everOpen  : Bool := false
  openedAt  : Nat := 0
  copying   : List (Nat × Nat) := []
  changeReq : List (Nat × Nat) := []
  changedAt : List Nat := []
  dead      : List Nat := []
  wordTaken : Bool := false
  nextWord  : Nat := 0
  stickyHeld : Bool := false
  aborted   : Option Nat := none
  latched   : List LatchEvent := []
  deriving DecidableEq, Repr

/-- A migration in progress (R173): the page, the frame it copies to with its tier, and the Home and Unit fields of later writes of
the page's entry that wait behind it, in order (R174). -/
structure Migration where
  page  : Nat
  tier  : Nat
  frame : Nat
  next  : List Nat := []
  deriving DecidableEq, Repr

/-- A write of a tile: the element of R413 that it is charged to, the tile ID, the width class, the bit of FlagSources that enables
its writer, the column of its layer counts if it has one (R279), and the tile. -/
structure TileWrite where
  acct   : Nat
  id     : Nat
  cls    : Nat
  ovf    : Nat
  column : Option Nat
  tile   : Tile
  deriving DecidableEq, Repr

/-- The memory tiers (chapter 8). Tile content is keyed by tile ID; a page's entry says which frame holds it. `waiting` are the
writes that wait for a Demand load of their page (R175). -/
structure Mem where
  pages      : Sparse (BitVec 128) := []
  tiles      : Sparse Tile := []
  staged     : List (Nat × BitVec 128) := []
  migrations : List Migration := []
  demand     : List Nat := []
  waiting    : List TileWrite := []
  reloads    : List Nat := []
  retired    : List (Nat × Bool) := []
  corrected  : Sparse Nat := []
  millrace   : Sparse Nat := []
  millPoison : List (Nat × Nat) := []
  llmMode    : List Nat := List.replicate 8 0x0F
  moments    : Sparse (Sparse Nat) := []
  momDraw    : Nat := 0
  momPoison  : List (Nat × Nat) := []
  unmapTold  : List Nat := []
  mirrorTold : Bool := false
  deriving DecidableEq, Repr

/-- A logical unit of the backwater (R189): its state, its flash page (key 2048 × block key + page), its stripe (8 × stripe + base
die), and its second copy in the mirror area. -/
structure LuInfo where
  written  : Bool := false
  poisoned : Bool := false
  page     : Nat := 0
  stripe   : Nat := 0
  copy     : Option Nat := none
  deriving DecidableEq, Repr

/-- A write of a logical unit that is not complete (R194): its content, as a little-endian number: that of the whole unit for
`slot` 64, or that of one sidecar slot; and the page that it belongs to. -/
structure LuWrite where
  lu       : Nat
  slot     : Nat
  dat      : Nat
  page     : Nat
  mirrored : Bool
  deriving DecidableEq, Repr

/-- A flash page (R192): local unit number, write sequence number, CRC-32C, and the 16 KiB of data as a little-endian number. -/
structure FlashPage where
  unit : Nat := 0
  seq  : Nat := 0
  crc  : Nat := 0
  dat  : Nat := 0
  deriving DecidableEq, Repr

/-- The flash (chapter 9). It alone survives a power cycle. Blocks of base die `d` are numbered 0 to 81 919, and keys of blocks are
81 920 × d + block. `stripes` counts the stripes of each base die, `filled` lists the pages of each open stripe, `layout` the pages
of every stripe, `seqs` the write sequence numbers, `opened` the next page of each channel, `entryDue` the entries that are not yet
durable, each with its deadline; `scan` and `scanFrom` are where the patrol scan stands and when its pass began (R205). -/
structure Flash where
  pages    : Sparse FlashPage := []
  lus      : Sparse LuInfo := []
  writes   : List LuWrite := []
  stripes  : List Nat := List.replicate 8 0
  filled   : List (List Nat) := List.replicate 8 []
  layout   : Sparse (List Nat) := []
  seqs     : List Nat := List.replicate 8 0
  lastLu   : List Nat := List.replicate 8 0
  opened   : Sparse Nat := []
  erases   : Sparse Nat := []
  used     : List Nat := []
  reads    : Sparse Nat := []
  retired  : List Nat := []
  mirrors  : Sparse Nat := []
  entries  : Sparse (BitVec 128) := []
  entryDue : List (Nat × Nat × BitVec 128) := []
  scan     : List Nat := List.replicate 8 0
  scanFrom : List Nat := List.replicate 8 0
  moving   : List Nat := []
  badChans : List Nat := []
  deriving DecidableEq, Repr

/-- What an unlisted logical unit reads as: unwritten (R190). -/
def luDefault : Nat → LuInfo := fun _ => {}

/-- What an unlisted flash page reads as: erased, with no logical unit. -/
def pageErased : Nat → FlashPage := fun _ => {}

/-- What an unlisted page's entry reads as: unmapped, Reset of Table 8-3. -/
def pageDefault : Nat → BitVec 128 := fun _ => 0x00000000FFFFFFFF0000000000000000#128

/-- What an unlisted tile reads as (R71). -/
def tileDefault : Nat → Tile := fun _ => {}

/-- A riffle check: the sampled DRAIN, what was captured, the arrays that recompute it (array index 2 × slot + array), and
its stage: 0 capture running, 1 awaiting the checker, 2 awaiting the arbiter (R271 to R275), and the AccumSeed of its set. -/
structure Check where
  id      : Nat
  slot    : Nat
  array   : Nat
  stream  : Nat
  entry   : Nat
  flight  : Nat
  stamp   : Nat
  checker : Nat
  arbiter : Nat
  stage   : Nat
  mmas    : List MmaJob
  conv    : ConvIn
  set     : AccSet
  tile    : Option Tile
  bytes   : Nat
  errs    : ArrayErrors
  checkerPos : Nat
  position : Nat
  accumSeed : Nat
  convPoi : Bool
  deriving DecidableEq, Repr

/-- The riffle checker (chapter 12): the rotation of each base die, excluded arrays, the checks in progress, the
blamed primaries as (step, slot, position), and when condition 1 of R254 came to hold for decided steps (R277). -/
structure Riffle where
  checks    : List Check := []
  nextId    : Nat := 0
  rotation  : List Nat := List.replicate 8 15
  excluded  : List Nat := []
  clearHeld : Bool := false
  blames    : List (Nat × Nat × Nat) := []
  posts     : List (Nat × Nat × Nat × Nat × Nat × Bool) := []
  silent    : Sparse Nat := []
  met       : List (Nat × Nat) := []
  deriving DecidableEq, Repr

/-- The weir (chapter 13): gears, budget, and the timers of its rules. `levels` are the thresholds in force: ThrottleTemp,
HardLimit, ThermalHyst, HbmThrottleTemp, HbmLimit, WarnLevel, ResetLevel, SupplyHyst, SupplyHold, OverLevel (R291). Levels are
in units of 2^−16 × 16 nJ. -/
structure Weir where
  supplyGear : Nat := 7
  powerGear  : Nat := 7
  thermal    : Sparse Nat := []
  gearCap    : Nat := 7
  powerLimit : Nat := 4000
  depth      : Nat := 4096
  levels     : List Nat := [0x42C80000, 0x42DC0000, 0x40400000, 0x42AA0000, 0x42BE0000, 0x42300000, 0x42200000, 0x3F000000, 10000, 0x426C0000]
  orders     : List Nat := List.replicate 8 0xFEDCBA9876543210
  dieGears   : List Nat := List.replicate 64 7
  rates      : List Nat := List.replicate 8 0
  buckets    : List Nat := List.replicate 64 0
  reserves   : List Nat := List.replicate 8 0
  refilled   : List Nat := List.replicate 8 0
  waited     : Bool := false
  lastChange : Sparse Nat := []
  lowSince   : Option Nat := none
  hot        : List (Nat × Nat) := []
  lastSample : Nat := 0
  coolSince  : Option Nat := none
  coolOut    : Bool := false
  dipAt      : Nat := 0
  hystSince  : Option Nat := none
  gearSince  : Nat := 0
  gearTimes  : List Nat := List.replicate 8 0
  deriving DecidableEq, Repr

/-- What an unlisted thermal gear reads as. -/
def gearDefault : Nat → Nat := fun _ => 7

end Sys2Proof.Machine
end

