-- ==== Sys2Proof/Machine/StateCommit.lean ====
section
/-! DEFINITION. The state of the update engines, of the step decisions, of checkpoints and of the replica exchange
(chapters 7 and 11). -/

namespace Sys2Proof.Machine

/-- A moment record (Table 7-2) as four little-endian numbers: M1, M2, S1, S2. -/
structure Moments where
  m1 : Nat := 0
  m2 : Nat := 0
  s1 : Nat := 0
  s2 : Nat := 0
  deriving DecidableEq, Repr

/-- What a step open captures (R133): the parameter store's tables that updates read, with UpdateSeed and OptStep. -/
structure Captured where
  step   : Nat
  params : Sparse Nat
  deriving DecidableEq, Repr

/-- The commit exchange of one shard in one step (R259 to R263, R414). Stage: 0 compares digests, 1 a recheck is due,
2 awaits recheck records, 3 awaits copies, 4 agreed, 5 resolved. `bits` are its bits of the commit word; `copiers` the
ranks that take a copy, each with how many copies have not agreed. -/
structure ShardCommit where
  shard   : Nat
  stage   : Nat := 0
  rounds  : Nat := 0
  bits    : Nat := 0
  own     : List Nat := []
  digests : List (Nat × Nat × Nat) := []
  rechecks : List (Nat × List Nat) := []
  reference : Nat := 0
  copiers : List (Nat × Nat) := []
  deriving DecidableEq, Repr

/-- An undecided step (R249 to R257). `counts` holds the completions reported per group (R135), `metAt` when condition 1
of R254 came to hold, `verifiedAt` when the step became VERIFIED. -/
structure StepRec where
  step      : Nat
  isFinal   : Bool := false
  finalAt   : Nat := 0
  word      : Nat := 0
  suspect   : Bool := false
  counts    : Sparse Nat := []
  stallTold : List Nat := []
  doneTold  : List Nat := []
  stopped   : Bool := false
  metAt     : Option Nat := none
  verifiedAt : Option Nat := none
  ownWord   : Nat := 0
  commitTold : Bool := false
  shards    : List ShardCommit := []
  deriving DecidableEq, Repr

/-- A replica record (Table 11-5) received and not yet used, with the stream it came on. -/
structure Kept where
  ns    : Nat
  typ   : Nat
  part  : Nat
  shard : Nat
  tile  : Nat
  step  : Nat
  vals  : List Nat
  dat   : List Byte
  deriving DecidableEq, Repr

/-- One section of a checkpoint payload (Table 11-8): the committed weight tile, remainder tile and moment record of each
tile. -/
structure CkSection where
  shard   : Nat
  tiles   : Nat
  commitStep : Nat
  digest  : Nat
  blocks  : List (Tile × Tile × Moments)
  deriving DecidableEq, Repr

/-- A checkpoint in the journal (R208 to R211, R267). `headed` tells that the open of the step after its own has given the values of
the payload header (Table 11-8). -/
structure Checkpoint where
  number  : Nat
  step    : Nat
  first   : Nat
  granules : Nat
  bytes   : Nat
  optStep : Nat
  updateSeed : Nat
  accumSeed : Nat
  sections : List CkSection
  headed  : Bool := true
  deriving DecidableEq, Repr

/-- The update engines and the step decisions. `queues` and `running` hold (shard, step) per base die; `triggered` the updates
whose gradient is final and that wait on the other conditions of R135; `arrived` those whose conditions hold and for which
their engine's queue has no room yet, in order (R136); `begun` (step, shard, half written); `tables` the shard, layer and
digest group tables of the last step open (R132); `restoreHold` the lowest step that RESTORE holds closed (Table 11-4). -/
structure Upd where
  captured  : List Captured := []
  reports   : List (Nat × Nat) := []
  triggered : List (Nat × Nat) := []
  arrived   : List (Nat × Nat) := []
  queues    : List (List (Nat × Nat)) := List.replicate 8 []
  running   : List (Option (Nat × Nat)) := List.replicate 8 none
  begun     : List (Nat × Nat × Nat) := []
  tables    : Sparse Nat := []
  steps     : List StepRec := []
  kept      : List Kept := []
  orphan    : Option Nat := none
  restoreHold : Option Nat := none
  resets    : List Nat := []
  writing   : List Checkpoint := []
  restoring : Option Nat := none
  deriving DecidableEq, Repr

/-- What the translation metadata keep of the checkpoint journal (R211); it survives a power cycle. `next` is where the next
checkpoint starts, `number` the newest begun. The bytes of a checkpoint lie in the flash. -/
structure Journal where
  complete : List Checkpoint := []
  next     : Nat := 0
  number   : Nat := 0
  deriving DecidableEq, Repr

end Sys2Proof.Machine
end

