-- ==== Sys2Proof/Machine/StateHost.lean ====
section
/-! DEFINITION. The state of the host port (chapter 14) and of the directory's transports (chapter 15). -/

namespace Sys2Proof.Machine

/-- A command fetched and not yet completed (R306): its number, its 128 bytes, the submission head after its fetch, the
epoch at its fetch, and, once it has run, its status and result with the lines of its data writes. Of a command that has started and
not run to its end (Table 14-11): the units done, those written without poison, whether a read failed, and the width classes of its
tiles as it started (R308). -/
structure HostCmd where
  n     : Nat
  bytes : List Byte
  head  : Nat
  epoch : Nat
  done  : Option (Nat × Nat) := none
  order : Nat := 0
  lines : Nat := 0
  began : Bool := false
  units : Nat := 0
  good  : Nat := 0
  lost  : Bool := false
  widths : List Nat := []
  deriving DecidableEq, Repr

/-- A queue: its registers (Table 14-4), the queue line as last read, and its rings. -/
structure HostQueue where
  sqBase : Nat := 0
  cqBase : Nat := 0
  line   : Nat := 0
  config : Nat := 0
  status : Nat := 0
  sqTail : Nat := 0
  cqHead : Nat := 0
  head   : Nat := 0
  tail   : Nat := 0
  phase  : Nat := 1
  next   : Nat := 0
  dones  : Nat := 0
  cmds   : List HostCmd := []
  deriving DecidableEq, Repr

/-- A function: its register block (Tables 14-1 to 14-3), its PCIe configuration and its pending MSI-X vectors (R314). `again` is a
write of 1 to Enable kept until Quiesced (R319). -/
structure HostFn where
  enable     : Bool := false
  running    : Bool := false
  quiesced   : Bool := true
  epochFault : Bool := false
  epochLine  : Nat := 0
  again      : Option (Nat × Bool) := none
  queues     : Sparse HostQueue := []
  cfg        : FnConfig := {}
  irq        : List Nat := []
  deriving DecidableEq, Repr

/-- The host port. -/
structure HostPort where
  fns   : Sparse HostFn := []
  perst : Bool := true
  deriving DecidableEq, Repr

/-- What an unlisted function or queue reads as: its Reset values. -/
def fnDefault : Nat → HostFn := fun _ => {}
/-- What an unlisted queue reads as. -/
def queueDefault : Nat → HostQueue := fun _ => {}

/-- A request message kept with its response for R337. -/
structure Answered where
  who      : Requester
  time     : Nat
  request  : List Byte
  response : List Byte
  deriving DecidableEq, Repr

/-- The directory's transports: kept answers and the dynamic I3C address (0: none). -/
structure Directory where
  kept    : List Answered := []
  i3cAddr : Nat := 0
  deriving DecidableEq, Repr

/-- A reply to an MCTP control message (R335). -/
inductive ControlReply where
  | setEndpointId (eid : Nat)
  | endpointId (eid : Nat)
  | versionSupport (msgType : Nat) (supported : Bool)
  | messageTypes (types : List Nat)
  | addressSet (addr : Nat)
  deriving DecidableEq, Repr

/-- A reply to an SPDM request (R394, R395), by its content. -/
inductive SpdmReply where
  | version
  | capabilities
  | algorithms (iana : Nat)
  | digests (slot0 : Nat)
  | certificate (slot : Nat) (dat : List Byte) (remaining : Nat)
  | challengeAuth (certHash nonce signature : Nat)
  | measurementCount (n : Nat)
  | measurements (blocks : List (Nat × Nat × List Byte)) (signature : Option Nat)
  | unsupportedRequest
  | unspecified
  | invalidRequest
  deriving DecidableEq, Repr

end Sys2Proof.Machine
end

