-- ==== Sys2Proof/Machine/StateNet.lean ====
section
/-! DEFINITION. The state of the ports, the stream protocol, panel time and the confluence units (chapter 10). Sequence
and message numbers are unbounded here and wrap at 2^32 on the wire. -/

namespace Sys2Proof.Machine

/-- A segment that this module sends (R219 to R221). `sentAt` is when its timer last started, `sent` tells that it has been sent,
`lost` that it is to be sent again, `fast` that it has been sent again for three later ones. -/
structure Seg where
  seq     : Nat
  msg     : Nat
  step    : Nat
  ix      : Nat
  first   : Bool
  last    : Bool
  payload : List Byte
  sentAt  : Option Nat := none
  acked   : Bool := false
  sent    : Bool := false
  lost    : Bool := false
  fast    : Bool := false
  deriving DecidableEq, Repr

/-- The sending direction of a stream (R221, R222, R227). `win` is the congestion window in 2^−32 segments, `timeout` the
present timeout in µs (0: RetxTimeout), `syncAt` the time of the next SYNC, `sinceCut` the segments acknowledged since the last
cut of the window. -/
structure Tx where
  synced  : Bool := false
  syncAt  : Nat := 0
  seq     : Nat := 0
  msg     : Nat := 0
  segs    : List Seg := []
  cum     : Nat := 0
  limit   : Nat := 0
  win     : Nat := 32 * 2 ^ 32
  losses  : Nat := 0
  timeout : Nat := 0
  sinceCut : Option Nat := none
  deriving DecidableEq, Repr

/-- A segment received of a message not yet applied. -/
structure RSeg where
  seq     : Nat
  msg     : Nat
  step    : Nat
  ix      : Nat
  last    : Bool
  payload : List Byte
  deriving DecidableEq, Repr

/-- The receiving direction of a stream (R220, R225): what is accepted beyond `cum`, the segments since the last ACK, and the Kind 3
messages applied ahead of the message `msg`. -/
structure Rx where
  epoch   : Option Nat := none
  cum     : Nat := 0
  msg     : Nat := 0
  got     : List Nat := []
  segs    : List RSeg := []
  done    : List Nat := []
  since   : Nat := 0
  firstAt : Nat := 0
  ece     : Bool := false
  limit   : Nat := 0
  deriving DecidableEq, Repr

/-- A contribution or result tile as it stands in a confluence slot: its width in bytes and its image. -/
structure CollTile where
  width : Nat
  tile  : Tile
  deriving DecidableEq, Repr

/-- A COLL in progress (R236 to R242). `word` is the contributed word once taken; `arrived1` the Kind 1 messages applied
(rank, index, tile or none), `arrived2` the Kind 2 messages applied (rank, index); `cold` tells that a Demand load must bring a
source tile first (R175). -/
structure Coll where
  key      : Nat
  slot     : Nat
  flight   : Nat
  group    : Nat
  step     : Nat
  inst     : Nat
  kind     : Nat
  len      : Nat
  dest     : Nat
  size     : Nat
  rank     : Nat
  source   : List CollTile
  issued   : Nat
  word     : Option Nat := none
  words    : Nat := 0
  arrived1 : List (Nat × Option Nat × Option CollTile) := []
  arrived2 : List (Nat × Option Nat) := []
  formed   : List Nat := []
  cold     : Bool := false
  deriving DecidableEq, Repr

/-- Panel time's servo (R233, R234). Times are in units of 0.25 ns. -/
structure Ptp where
  twoStep  : Option (Nat × Int) := none
  syncPair : Option (Int × Int) := none
  delayReq : Option (Nat × Int) := none
  reqSeq   : Nat := 0
  delay    : Int := 0
  good     : Nat := 0
  lastSync : Nat := 0
  clients  : List (BitVec 128) := []
  sendSeq  : Nat := 0
  lastSend : Nat := 0
  deriving DecidableEq, Repr

/-- A Kind 1 or 2 message that a confluence unit holds until its COLL issues (R239, R243). -/
structure EarlyMessage where
  ns    : Nat
  base  : Nat
  step  : Nat
  bytes : List Byte
  deriving DecidableEq, Repr

/-- The network and the confluence units. `early` are the messages that wait for their COLL, oldest first. -/
structure Net where
  tx        : Sparse Tx := []
  rx        : Sparse Rx := []
  colls     : List Coll := []
  nextColl  : Nat := 0
  instances : Sparse Nat := []
  early     : List EarlyMessage := []
  ptp       : Ptp := {}
  deriving DecidableEq, Repr

/-- What an unlisted sending direction reads as. -/
def txDefault : Nat → Tx := fun _ => {}
/-- What an unlisted receiving direction reads as. -/
def rxDefault : Nat → Rx := fun _ => {}

end Sys2Proof.Machine
end

