-- ==== Sys2Proof/Machine/StatePanel.lean ====
section
/-! DEFINITION. The state of the panel (chapter 16), of the supply (chapters 13 and 19), of bring-up (chapter 18), and the
content of the boot SPI NOR (Table 18-1), which survives a power cycle. -/

namespace Sys2Proof.Machine

/-- A rill (R338 to R345): the masks stored at its two ends, the handshake in progress, the groups mapped out until the next
power-up, and the replays of the last millisecond (group, ROOT cycle, flits). -/
structure Rill where
  lower     : Nat := 0xFFFF
  upper     : Nat := 0xFFFF
  shaking   : Bool := false
  before    : Nat := 0xFFFF
  agreed    : Nat := 0xFFFF
  fails     : Nat := 0
  mappedOut : Nat := 0
  recent    : List (Nat × Nat × Nat) := []
  deriving DecidableEq, Repr

/-- A die under screening: its position and when its screen started. -/
structure Screen where
  position : Nat
  started  : Nat
  deriving DecidableEq, Repr

/-- A capture in a replay pool (R359): its base die, the AccumSeed of its set, and the capture with its step. -/
structure PoolEntry where
  base      : Nat
  accumSeed : Nat
  check     : Check
  deriving DecidableEq, Repr

/-- The panel. `cutOff` are base dies to be taken out of service at the next boundary, `out` those that are; `class1` and
`class2` the positions that wait for a screen (R356);
`unscreened` the base dies whose event of R355 was raised; `fieldDirty` tells that the field state is to be written. -/
structure Panel where
  rills      : List Rill := List.replicate 10 {}
  repairs    : Sparse Nat := []
  cutOff     : List Nat := []
  out        : List Nat := []
  screens    : List Screen := []
  class1     : List Nat := []
  class2     : List Nat := []
  lastScreen : Option Nat := none
  pool       : List PoolEntry := []
  unscreened : List Nat := []
  fieldDirty : Bool := false
  lastSlot   : Sparse Nat := []
  deriving DecidableEq, Repr

/-- The supply and the reset tree: ENABLE mated, the input at 38 V or more, the hot-swap switch closed, the input at or
above WarnLevel + SupplyHyst, a power-up begun at a qualification, panel reset released, REF within limits; `failHeld` tells that an
orderly reset found FAIL_N low and keeps it so (Table 19-3). -/
structure Supply where
  mated     : Bool := false
  input38   : Bool := false
  closed    : Bool := false
  qualified : Bool := false
  powering  : Bool := false
  released  : Bool := false
  refGood   : Bool := true
  failHeld  : Bool := false
  deriving DecidableEq, Repr

/-- A boot state record without its Mac (Table 18-5). -/
structure BootRec where
  seq         : Nat := 0
  preferred   : Nat := 0
  trial       : Nat := 0xFF
  trialCount  : Nat := 0
  trialResult : Nat := 0
  svnFloor    : Nat := 0
  keyFloor    : Nat := 0
  bootCount   : Nat := 0
  deriving DecidableEq, Repr

/-- A firmware slot: as the factory left it, or as Install programmed it, in elements of 4096 bytes. -/
inductive FwSlot where
  | factory
  | image (elems : Sparse Nat)
  deriving DecidableEq, Repr

/-- The field state (R352): wire repairs, retired positions, the spare position of each base die, and screen records. -/
structure FieldState where
  repairs : Sparse Nat
  retired : List Nat
  spares  : List Nat
  records : Sparse Nat
  deriving DecidableEq, Repr

/-- A stored failure signature (R379). -/
structure SigRec where
  id    : Nat
  acked : Bool
  dat   : List Byte
  deriving DecidableEq, Repr

/-- The boot SPI NOR outside the panel record. `fieldDrops` counts the field states discarded at a power-up (R352). The reset
record holds ResetCause and whether it was consumed (R383). -/
structure Nor where
  field    : Option FieldState := none
  fieldDrops : Nat := 0
  cause    : Nat := 0
  consumed : Bool := true
  sigs     : List SigRec := []
  sigSeq   : Nat := 0
  sigLost  : Nat := 0
  boot0    : Option BootRec := none
  boot1    : Option BootRec := none
  slotA    : FwSlot := .factory
  slotB    : FwSlot := .factory
  deriving DecidableEq, Repr

/-- Bring-up and the firmware staging buffer (R382 to R397). `trialBoot` tells that the running slot is on trial; `slot` and
`image` are the running slot and image; `release` is the time from qualification to release in µs; `retry` tells that the
host port answers configuration requests with Request Retry Status; `certDraw` names the alias certificate of this boot. -/
structure Boot where
  trialBoot : Bool := false
  slot      : Nat := 0
  image     : FwSlot := .factory
  staged    : Sparse Nat := []
  stagedAny : Bool := false
  target    : Nat := 0
  release   : Nat := 0
  retry     : Bool := true
  certDraw  : Nat := 0
  deriving DecidableEq, Repr

end Sys2Proof.Machine
end

