-- ==== Sys2Proof/Machine/State.lean ====
section
/-! DEFINITION. The state of the module, its stop reasons and the state after reset. -/

namespace Sys2Proof.Machine

/-- Faults. No rule of the manual stops the module (R362), so no meaning raises one. -/
inductive Fault where
  /-- Raised by nobody: an error never stops the module (R362). Safe. -/
  | none
  deriving DecidableEq, Repr

/-- Refusals. -/
inductive Refusal where
  /-- Raised by `exec` for a command that has no meaning yet. Safe: the machine stops. -/
  | notModelled (mnemonic : String)
  deriving DecidableEq, Repr

/-- An event record (Table 17-3). -/
structure Event where
  seq     : Nat
  cls     : Nat
  code    : Nat
  flags   : Nat
  time    : Nat
  step    : Nat
  source  : Nat
  repeats : Nat
  d0      : Nat
  d1      : Nat
  deriving DecidableEq, Repr

/-- How a frame leaves (R215, R216): the port, its source MAC address and the destination's, where a rule gives one. -/
structure Link where
  carrier : Carrier
  srcMac  : Nat
  destMac : Option Nat
  deriving DecidableEq, Repr

/-- The IPv6 header fields that R216 fixes for the stream protocol. -/
structure IpFields where
  hopLimit     : Nat
  trafficClass : Nat
  flowLabel    : Nat
  deriving DecidableEq, Repr

/-- A UDP packet over IPv6. -/
structure Udp where
  src      : Nat
  dest     : Nat
  ip       : Option IpFields
  srcPort  : Nat
  dstPort  : Nat
  checksum : Nat
  payload  : List Byte
  deriving DecidableEq, Repr

/-- A PTP message that the module sends (R233). -/
inductive PtpMessage where
  | delayReq (seq : Nat) (sent : Int)
  | sync (seq : Nat) (sent : Int)
  | followUp (seq : Nat) (sent : Int)
  | delayResp (seq : Nat) (received correction : Int)
  deriving DecidableEq, Repr

/-- What the module sent to its surroundings. `flush` tells that the host is made to write the lines back to memory (R313). -/
inductive Emission where
  | udp (l : Link) (u : Udp)
  | hostWrite (fn : Nat) (addr : Nat) (dat : List Byte) (flush : Bool)
  | msix (fn : Nat) (vector : Nat)
  | response (who : Requester) (ic : Bool) (msg : List Byte)
  | inBandInterrupt
  | echoReply (l : Link) (src dest : Addr6) (body : List Byte)
  | neighborAdvertisement (l : Link) (dest target : Addr6)
  | ptp (l : Link) (src dest udpPort domain : Nat) (m : PtpMessage)
  | control (pcie : Bool) (r : ControlReply)
  | spdm (pcie : Bool) (r : SpdmReply)
  deriving DecidableEq, Repr

/-- The clock: ROOT cycles since panel reset release, and panel time as a base at a reference cycle with an increment in
2^−32 ns per SCLK cycle (R234, R346). -/
structure Clock where
  now     : Nat := 0
  timeRef : Nat := 0
  timeBase : Nat := 0
  inc     : Nat := 7635497415
  deriving DecidableEq, Repr

/-- Events, the host ring, the management sink and snapshots (chapter 17). -/
structure Log where
  events    : List Event := []
  ringTail  : Nat := 0
  ringPhase : Nat := 1
  ringNext  : Nat := 1
  ringHead  : Nat := 0
  sinkQueue : List (Nat × List Byte) := []
  sinkSec   : Nat := 0
  sinkSent  : Nat := 0
  snapAt    : Option Nat := none
  snapOut   : Nat := 0
  copying   : Option (Nat × Nat × Nat × Sparse Nat) := none
  shadow    : Option (Sparse Nat) := none
  sigDue    : List (Nat × List Byte) := []
  deriving DecidableEq, Repr

/-- A held write to an RWS parameter (R327). -/
structure HeldWrite where
  param  : Nat
  offset : Nat
  bytes  : List Byte
  deriving DecidableEq, Repr

/-- The module. -/
structure State where
  pending : List Instr := []
  params  : Sparse Nat := []
  clock   : Clock := {}
  log     : Log := {}
  held    : List HeldWrite := []
  seq     : Seq := {}
  mem     : Mem := {}
  weir    : Weir := {}
  flash   : Flash := {}
  net     : Net := {}
  riffle  : Riffle := {}
  upd     : Upd := {}
  journal : Journal := {}
  panel   : Panel := {}
  supply  : Supply := {}
  fw      : Boot := {}
  nor     : Nor := {}
  host    : HostPort := {}
  dir     : Directory := {}
  out     : List Emission := []
  draws   : Nat := 0
  deriving DecidableEq, Repr

/-- The module right after reset: no supply, nothing written, the queue empty. -/
def State.reset : State := {}

end Sys2Proof.Machine
end

