-- ==== Sys2Proof/Machine/Ops.lean ====
section
/-! DEFINITION. The named operations on the state that every family shares: the parameter store, the clock, the event log
(R367 to R370), emissions, the slot map and the free-value counter. -/

namespace Sys2Proof.Machine

/-- One ACLK cycle in ROOT cycles (2.25 GHz of 9 GHz). -/
def acRoot : Nat := 4
/-- One FCLK cycle in ROOT cycles (1.5 GHz). -/
def fcRoot : Nat := 6
/-- One SCLK cycle in ROOT cycles (562.5 MHz). -/
def sclkRoot : Nat := 16
/-- One nanosecond in ROOT cycles. -/
def nsRoot : Nat := 9
/-- One microsecond in ROOT cycles. -/
def usRoot : Nat := 9000
/-- One second in ROOT cycles. -/
def secRoot : Nat := 9000000000

/-- Element `e` of parameter `p`. -/
def State.reg (s : State) (p e : Nat) : Nat := Sparse.get paramDefault s.params (pkey p e)

/-- Write element `e` of parameter `p`. -/
def State.setReg (s : State) (p e v : Nat) : State :=
  { s with params := Sparse.put paramDefault s.params (pkey p e) v }

/-- A scalar parameter. -/
def State.val (s : State) (p : Nat) : Nat := s.reg p 0
/-- Write a scalar parameter. -/
def State.setVal (s : State) (p v : Nat) : State := s.setReg p 0 v

/-- Add to a counter of `bytes` bytes, saturating at the largest value of its type (R363). -/
def State.bump (s : State) (p e n bytes : Nat) : State :=
  s.setReg p e (min (s.reg p e + n) (maxOfBytes bytes))

/-- Add to a U64 counter. -/
def State.bump64 (s : State) (p e n : Nat) : State := s.bump p e n 8
/-- Add to a U32 counter. -/
def State.bump32 (s : State) (p e n : Nat) : State := s.bump p e n 4

/-- The step now open, or the last one (0x9100.07). -/
def State.step (s : State) : Nat := s.val P.currentStep
/-- The boot state (0x8000.01). -/
def State.boot (s : State) : Nat := s.val P.bootState

/-- Whether bring-up has reached boot state `b` (Table 18-2); the states 5 and 6 of R390 reach none. -/
def State.up (s : State) (b : Nat) : Bool := decide (b ≤ s.boot) && decide (s.boot ≤ 4)

/-- Advance the clock to `t`, if `t` lies ahead. -/
def State.reach (s : State) (t : Nat) : State := { s with clock := { s.clock with now := max s.clock.now t } }

/-- ACLK cycles since reset release. -/
def State.ac (s : State) : Nat := s.clock.now / acRoot

/-- Panel time at ROOT cycle `t`, in nanoseconds (R234). -/
def Clock.timeAt (c : Clock) (t : Nat) : Nat :=
  (c.timeBase + (t / sclkRoot - c.timeRef / sclkRoot) * c.inc) / 2 ^ 32

/-- Panel time now, in nanoseconds. -/
def State.panelTime (s : State) : Nat := s.clock.timeAt s.clock.now

/-- Send something to the module's surroundings. -/
def State.emit (s : State) (e : Emission) : State := { s with out := e :: s.out }

/-- The index of the next free draw, and the state that has used it. -/
def State.draw (s : State) : Nat × State := (s.draws, { s with draws := s.draws + 1 })

/-- Position that holds slot `sl`: 0–8, or 0xF for an absent slot (Table 1-3). -/
def State.slotPos (s : State) (sl : Nat) : Nat := bits (s.reg (P.slotMap + sl / 8) 0) (4 * (sl % 8)) 4

/-- Whether slot `sl` is absent (R14). -/
def State.absent (s : State) (sl : Nat) : Bool := s.slotPos sl == 0xF

/-- The slots that are present. -/
def State.presentSlots (s : State) : List Nat := indicesWhere 64 (fun sl => !s.absent sl)

/-- Source field of Table 17-4. -/
def srcOf (kind index : Nat) : Nat := kind * 4096 + index % 4096
/-- Source: the module. -/
def srcModule : Nat := 0
/-- Source: slot. -/
def srcSlot (sl : Nat) : Nat := srcOf 1 sl
/-- Source: base die. -/
def srcBase (b : Nat) : Nat := srcOf 2 b

/-- The bytes of an event record (Table 17-3). -/
def Event.bytes (e : Event) : List Byte :=
  leBytes 4 e.seq ++ leBytes 1 e.cls ++ leBytes 1 e.flags ++ leBytes 2 e.code ++ leBytes 8 e.time ++ leBytes 8 e.step
    ++ leBytes 2 e.source ++ leBytes 2 e.repeats ++ leBytes 4 0 ++ leBytes 8 e.d0 ++ leBytes 8 e.d1

/-- R369: count an occurrence in the newest record of its kind. -/
def coalesceIn (cls code source : Nat) : List Event → List Event
  | [] => []
  | e :: es =>
    if e.cls = cls ∧ e.code = code ∧ e.source = source then
      { e with repeats := min (e.repeats + 1) 0xFFFF, flags := Nat.lor e.flags 1 } :: es
    else e :: coalesceIn cls code source es

/-- R370, R372: the newest 256 records; a record that leaves before the ring took it counts in EventsLost[0]. -/
def State.storeEvent (s : State) (e : Event) : State :=
  let full := s.log.events.length ≥ 256
  let oldest := (s.log.events.getLast?).map (·.seq)
  let lost := full && s.val P.eventRingEnable == 1 && (match oldest with
    | some q => decide (s.log.ringNext ≤ q)
    | none => false)
  let kept := s.log.events.take 255
  let s := if lost then s.bump64 P.eventsLost 0 1 else s
  let next := if lost then (match oldest with | some q => q + 1 | none => s.log.ringNext) else s.log.ringNext
  let sink := if s.val P.eventSinkAddress = 0 then s.log.sinkQueue else s.log.sinkQueue ++ [(0x81, e.bytes)]
  { s with log := { s.log with events := e :: kept, ringNext := next, sinkQueue := sink } }.setVal P.eventSeq e.seq

/-- R369: raise an event of step `step`: store it, or coalesce it into the newest record with its class, code and source. -/
def State.raiseEventOf (s : State) (step cls code source d0 d1 : Nat) : State :=
  let s := s.bump64 P.eventsRaised cls 1
  let t := s.panelTime
  let newest := s.log.events.find? fun e => e.cls == cls && e.code == code && e.source == source
  let within := match newest with
    | some e => decide (t < e.time + s.val P.eventHoldoff * 1000)
    | none => false
  if within then
    { s with log := { s.log with events := coalesceIn cls code source s.log.events } }.bump64 P.eventsCoalesced 0 1
  else
    s.storeEvent
      { seq := s.val P.eventSeq + 1, cls := cls, code := code, flags := 0, time := t, step := step
        source := source, repeats := 0, d0 := d0, d1 := d1 }

/-- R369: raise an event of the step now open, or of the last one. -/
def State.raiseEvent (s : State) (cls code source d0 d1 : Nat) : State := s.raiseEventOf s.step cls code source d0 d1

/-- The die of slot `sl`. -/
def State.die (s : State) (sl : Nat) : Die := Sparse.get dieDefault s.seq.dies sl
/-- Replace the die of slot `sl`. -/
def State.setDie (s : State) (sl : Nat) (d : Die) : State :=
  { s with seq := { s.seq with dies := Sparse.put dieDefault s.seq.dies sl d } }

/-- Array `a` of a die. -/
def Die.array (d : Die) (a : Nat) : ArrayState := if a = 0 then d.array0 else d.array1
/-- Replace array `a` of a die. -/
def Die.setArray (d : Die) (a : Nat) (x : ArrayState) : Die :=
  if a = 0 then { d with array0 := x } else { d with array1 := x }
/-- Accumulator set `k` of an array. -/
def ArrayState.set (x : ArrayState) (k : Nat) : AccSet := if k = 0 then x.set0 else x.set1
/-- Replace accumulator set `k`. -/
def ArrayState.setSet (x : ArrayState) (k : Nat) (v : AccSet) : ArrayState :=
  if k = 0 then { x with set0 := v } else { x with set1 := v }
/-- Vector register `r` (R105). -/
def Die.vreg (d : Die) (r : Nat) : Nat := Sparse.get zeros d.regs r
/-- The poison mark of register `r` (R66). -/
def Die.vpoison (d : Die) (r : Nat) : Bool := Sparse.get zeros d.regPoison r == 1
/-- Write register `r` and its mark. -/
def Die.setVreg (d : Die) (r v : Nat) (poison : Bool) : Die :=
  { d with regs := Sparse.put zeros d.regs r v, regPoison := Sparse.put zeros d.regPoison r (b2n poison) }

/-- R245, R248: a flag condition arises. It enters the local word of the open step, or, once the closing collective has
taken its contributed word, the word of the next step, counted in LateFlags. With no step open it enters the word of the
next step. -/
def State.condition (s : State) (w : Nat) : State :=
  if w = 0 then s
  else if s.seq.wordTaken ∨ ¬ s.seq.opened then
    let s := { s with seq := { s.seq with nextWord := Nat.lor s.seq.nextWord w } }
    if s.seq.wordTaken then s.bump64 P.lateFlags 0 1 else s
  else s.setVal P.localFlags (Nat.lor (s.val P.localFlags) w)

end Sys2Proof.Machine
end

