-- ==== Sys2Proof/Machine/Transcend.lean ====
section
/-! DEFINITION. The element functions of Table 6-1 (R110 to R112): the correctly rounded FP32 result of each. A
transcendental result is enclosed in an interval of exact values computed with 1024 fractional bits; both ends round
alike, or the result is a free value (DESIGN CHOICE, assumption log 12). -/

namespace Sys2Proof.Machine

/-- Fractional bits of the enclosures. -/
def fixBits : Nat := 1024

/-- floor(ln 2 × 2^1024). -/
def ln2Fix : Nat :=
  0xB17217F7D1CF79ABC9E3B39803F2F6AF40F343267298B62D8A0D175B8BAAFA2BE7B876206DEBAC98559552FB4AFA1B10ED2EAE35C138214427573B291169B8253E96CA16224AE8C51ACBDA11317C387EB9EA9BC3B136603B256FA0EC7657F74B72CE87B19D6548CAF5DFA6BD38303248655FA1872F20E3A2DA2D97C50F3FD5C6

/-- floor(2^1024 / √(2π)). -/
def rsqrt2piFix : Nat :=
  0x662114CF50D942343F2CF1402EAE38BFD3829F30512706D8C0471B4802639D2E9DF8AC55447D3DB723F5D3ABB374E88DEB14277970BE1513278E993445F08CFF98282E1FD947CE4B4ECDBD6E65C23395CACB544DE69EEA32C276937B1BC567691C1CEC4882C77AACEFE1F6708329AB3FC8D2AB2435EE45C9150C426BBB49487E

/-- An enclosure of an exact result. -/
structure Enclosure where
  lo : Val
  hi : Val
  deriving DecidableEq, Repr

/-- An exact result. -/
def Enclosure.exact (v : Val) : Enclosure := ⟨v, v⟩

/-- x × 2^1024 for a value whose lowest bit weighs at least 2^−1024, rounded toward zero otherwise. -/
def toFix (v : Val) : Int :=
  match v with
  | .fin s n d e =>
    let k := e + fixBits
    let m : Nat := if 0 ≤ k then n * 2 ^ k.toNat / d else n / (d * 2 ^ (-k).toNat)
    if s then -(m : Int) else m
  | _ => 0

/-- The value m × 2^k of a fixed-point magnitude. -/
def ofFix (m : Int) (k : Int) : Val := .fin (decide (m < 0)) m.natAbs 1 (k - fixBits)

/-- Σ r^i / i! in fixed point, `n` terms. -/
def expSeries : Nat → Nat → Nat → Nat → Nat → Nat
  | 0, _, _, _, acc => acc
  | n + 1, i, r, t, acc =>
    let t' := (t * r / 2 ^ fixBits) / i
    if t' = 0 then acc else expSeries n (i + 1) r t' (acc + t')

/-- An enclosure of e^x for |x| at most 1024; far below, a positive value under 2^−1000 and far above one over 2^1000. -/
def encExp (x : Val) : Enclosure :=
  let X := toFix x
  let bound : Int := 1024 * 2 ^ fixBits
  if X > bound then ⟨.fin false 1 1 1000, .fin false 1 1 2000⟩
  else if X < -bound then ⟨.fin false 1 1 (-2000), .fin false 1 1 (-1000)⟩
  else
    let k := X.fdiv ln2Fix
    let r := (X - k * ln2Fix).toNat
    let s : Int := expSeries 220 1 r (2 ^ fixBits) (2 ^ fixBits)
    ⟨ofFix (s - 2 ^ 14) k, ofFix (s + 2 ^ 14) k⟩

/-- Σ z^(2i+1)/(2i+1) in fixed point. -/
def atanhSeries : Nat → Nat → Nat → Nat → Nat → Nat
  | 0, _, _, _, acc => acc
  | n + 1, i, z2, t, acc =>
    if t = 0 then acc else atanhSeries n (i + 2) z2 (t * z2 / 2 ^ fixBits) (acc + t / i)

/-- An enclosure of ln x for a finite x above zero, x not 1. -/
def encLog (x : Val) : Enclosure :=
  match x with
  | .fin _ n d e =>
    let k := floorLog2 n d e
    -- m = x / 2^k in [1, 2)
    let (a, b) := scaleFrac n d (k - e)
    let z := (a - b) * 2 ^ fixBits / (a + b)
    let s : Int := 2 * atanhSeries 700 1 (z * z / 2 ^ fixBits) z 0 + k * ln2Fix
    ⟨ofFix (s - 2 ^ 14) 0, ofFix (s + 2 ^ 14) 0⟩
  | v => .exact v

/-- Σ a^(2i+1)/(2i+1)!! in fixed point. -/
def phiSeries : Nat → Nat → Nat → Nat → Nat → Nat
  | 0, _, _, _, acc => acc
  | n + 1, i, a2, t, acc =>
    if t = 0 then acc else phiSeries n (i + 2) a2 ((t * a2 / 2 ^ fixBits) / (i + 2)) (acc + t)

/-- An enclosure of Φ(|a|) − 1/2 for |a| at most 20. -/
def encPhiTail (a : Val) : Enclosure :=
  let A := (toFix a).natAbs
  let s : Int := phiSeries 1600 1 (A * A / 2 ^ fixBits) A 0
  let slack : Int := 2 ^ 400
  let ex := encExp ((a.mul a).shift (-1)).negate
  let lo := (ex.lo.mul (ofFix rsqrt2piFix 0)).mul (ofFix (s - slack) 0)
  let hi := (ex.hi.mul (ofFix (rsqrt2piFix + 1) 0)).mul (ofFix (s + slack) 0)
  ⟨lo, hi⟩

/-- One. -/
def vOne : Val := .fin false 1 1 0

/-- An enclosure of 1 / (1 + e^−a). -/
def encSigmoid (a : Val) : Enclosure :=
  let e := encExp a.negate
  ⟨vOne.div (vOne.add e.hi), vOne.div (vOne.add e.lo)⟩

/-- An enclosure of tanh a for finite a not zero. -/
def encTanh (a : Val) : Enclosure :=
  let m := a.abs
  let small := m.lt (.fin false 1 1 (-40))
  let body : Enclosure :=
    if small then ⟨m.mul (.fin false (2 ^ 78 - 1) 1 (-78)), m⟩
    else if (Val.ofInt 45).lt m then ⟨.fin false (2 ^ 100 - 1) 1 (-100), vOne⟩
    else
      let e := encExp (m.shift 1)
      let f (x : Val) := (x.add vOne.negate).div (x.add vOne)
      ⟨f e.lo, f e.hi⟩
  if a.neg? then ⟨body.hi.negate, body.lo.negate⟩ else body

/-- Multiply an enclosure of a positive quantity by a signed value. -/
def Enclosure.scale (e : Enclosure) (a : Val) : Enclosure := ⟨a.mul e.lo, a.mul e.hi⟩

/-- An enclosure of a · Φ(a). -/
def encGelu (a : Val) : Enclosure :=
  let m := a.abs
  if (Val.ofInt 20).lt m then
    if a.neg? then ⟨.fin true 1 1 (-200), .fin true 1 1 (-190)⟩
    else ⟨a.mul (.fin false (2 ^ 100 - 1) 1 (-100)), a⟩
  else
    let t := encPhiTail a
    let half : Val := .fin false 1 1 (-1)
    if a.neg? then Enclosure.scale ⟨half.add t.hi.negate, half.add t.lo.negate⟩ a
    else Enclosure.scale ⟨half.add t.lo, half.add t.hi⟩ a

/-- Round an enclosure to FP32 once: where both ends give one encoding and flag, that is the correctly rounded result;
where they do not, the result is free. -/
def roundEnclosure (func : Nat) (a : Nat) (e : Enclosure) : Nat × Nat :=
  let l := toF32 e.lo
  let h := toF32 e.hi
  if l = h then l else ((Config.freeTranscendental func a).toNat, 0)

/-- √(num/den × 2^exp) with an even shift: exact, or with a half-unit sticky bit far below the last place. -/
def sqrtVal (n : Nat) (e : Int) : Val :=
  let g : Nat := 200
  let odd := e % 2 = 1
  let n' := if odd then 2 * n else n
  let e' := if odd then e - 1 else e
  let x := n' * 2 ^ (2 * g)
  let s := isqrt x
  if s * s = x then .fin false s 1 (e' / 2 - g) else .fin false (2 * s + 1) 1 (e' / 2 - g - 1)

/-- 1/√(n × 2^e), exact or with a sticky half unit. -/
def rsqrtVal (n : Nat) (e : Int) : Val :=
  let g : Nat := 400
  let odd := e % 2 = 1
  let n' := if odd then 2 * n else n
  let e' := if odd then e - 1 else e
  let s := isqrt (2 ^ (2 * g) / n')
  if s * s * n' = 2 ^ (2 * g) then .fin false s 1 (-(e' / 2) - g) else .fin false (2 * s + 1) 1 (-(e' / 2) - g - 1)

/-- Signed infinity in FP32. -/
def f32Inf (neg : Bool) : Nat := if neg then 0xFF800000 else 0x7F800000
/-- Signed zero in FP32. -/
def f32Zero (neg : Bool) : Nat := if neg then 0x80000000 else 0
/-- The canonical NaN of FP32. -/
def f32NaN : Nat := 0x7FC00000
/-- 1.0 in FP32. -/
def f32One : Nat := 0x3F800000

/-- Larger of two values under R112: NaN if either is NaN, −0 below +0. -/
def maxVal (a b : Val) : Val :=
  if a.isNan ∨ b.isNan then .nan
  else match a.cmp b with
    | 1 => a
    | -1 => b
    | _ => if a.neg? then b else a

/-- Smaller of two values under R112. -/
def minVal (a b : Val) : Val :=
  if a.isNan ∨ b.isNan then .nan
  else match a.cmp b with
    | 1 => b
    | -1 => a
    | _ => if a.neg? then a else b

/-- The unary transcendental and algebraic functions 0x12 to 0x1A on FP32 bits (R111). -/
def unaryF32 (func a : Nat) : Nat × Nat :=
  let v := f32 a
  match v with
  | .nan => (f32NaN, flagINV)
  | .inf s =>
    match func with
    | 0x12 => (f32Zero s, 0)
    | 0x13 => if s then (f32NaN, flagINV) else (f32Inf false, 0)
    | 0x14 => if s then (f32NaN, flagINV) else (0, 0)
    | 0x15 => if s then (0, 0) else (f32Inf false, 0)
    | 0x16 => if s then (f32NaN, flagINV) else (f32Inf false, 0)
    | 0x17 => ((if s then 0xBF800000 else f32One), 0)
    | 0x18 => if s then (0, 0) else (f32One, 0)
    | _ => if s then (f32Zero true, 0) else (f32Inf false, 0)
  | .fin s n d e =>
    if n = 0 then
      match func with
      | 0x12 => (f32Inf s, flagOVF)
      | 0x13 => (f32Zero s, 0)
      | 0x14 => (f32Inf s, flagOVF)
      | 0x15 => (f32One, 0)
      | 0x16 => (f32Inf true, flagOVF)
      | 0x18 => (0x3F000000, 0)
      | _ => (f32Zero s, 0)
    else
      match func with
      | 0x12 => toF32 (vOne.div v)
      | 0x13 => if s then (f32NaN, flagINV) else toF32 (sqrtVal n e)
      | 0x14 => if s then (f32NaN, flagINV) else toF32 (rsqrtVal n e)
      | 0x15 => roundEnclosure func a (encExp v)
      | 0x16 =>
        if s then (f32NaN, flagINV)
        else if v.cmp vOne = 0 then (0, 0)
        else roundEnclosure func a (encLog (.fin s n d e))
      | 0x17 => roundEnclosure func a (encTanh v)
      | 0x18 => roundEnclosure func a (encSigmoid v)
      | 0x19 => roundEnclosure func a (encGelu v)
      | _ => roundEnclosure func a ((encSigmoid v).scale v)

/-- The element function of Table 6-1 on exact values, for the functions that COPY, compare or combine; `none` for the
functions of one FP32 operand that `unaryF32` gives. -/
def simpleFunc (func : Nat) (a b c : Val) : Option Val :=
  let one (x : Bool) : Val := if x then vOne else Val.zero false
  match func with
  | 0x00 => some a
  | 0x01 => some (a.add b)
  | 0x02 => some (a.add b.negate)
  | 0x03 => some (a.mul b)
  | 0x04 => some ((a.mul b).add c)
  | 0x05 => some (maxVal a b)
  | 0x06 => some (minVal a b)
  | 0x07 => some (one (b.lt a))
  | 0x08 => some (one (!a.isNan && !b.isNan && decide (a.cmp b ≥ 0)))
  | 0x09 => some (one (!a.isNan && !b.isNan && decide (a.cmp b = 0)))
  | 0x10 => some a.abs
  | 0x11 => some a.negate
  | 0x1B => some (if a.isNan then .nan else if (Val.zero false).lt a then a else Val.zero false)
  | _ => none

/-- R110 to R112: one element function on FP32 bits, with the flags the function itself returns. -/
def evalFunc (func a b c : Nat) : Nat × Nat :=
  match simpleFunc func (f32 a) (f32 b) (f32 c) with
  | some v =>
    let (x, fl) := toF32 v
    -- MAX, MIN, COPY, ABS, NEG, RELU and the comparisons raise no flag of their own (R112)
    let own := func = 1 ∨ func = 2 ∨ func = 3 ∨ func = 4
    (x, if own then fl else 0)
  | none => unaryF32 func a

/-- A packed function on one BF16 pair position (R112): one rounding to BF16. -/
def evalPacked (func a b c : Nat) : Nat × Nat :=
  match simpleFunc func (decodeElem .bf16 a) (decodeElem .bf16 b) (decodeElem .bf16 c) with
  | some v => convert v .bf16 .ieee
  | none => (Fmt.nan .bf16, flagINV)

/-- Whether the function reads a second operand. -/
def funcBinary (func : Nat) : Bool := decide (1 ≤ func ∧ func ≤ 9)
/-- Whether the function reads a third operand. -/
def funcTernary (func : Nat) : Bool := func == 4
/-- Whether the code names a function of tiles (Table 6-1, column Tile). -/
def funcTile (func : Nat) : Bool := decide (func ≤ 9) || decide (0x10 ≤ func ∧ func ≤ 0x1B)
/-- Whether the code names a function of VREG. -/
def funcVreg (func : Nat) : Bool := funcTile func || decide (0x30 ≤ func ∧ func ≤ 0x32)
/-- Whether VREG may run the function packed. -/
def funcPacked (func : Nat) : Bool := decide (func ≤ 6)

end Sys2Proof.Machine
end

