-- ==== Sys2Proof/Machine/VectorOps.lean ====
section
/-! DEFINITION. What the vector engine and the reduction unit compute (R105 to R127), as functions of the tiles and
registers an entry reads. -/

namespace Sys2Proof.Machine

/-- A tile operand as an entry reads it (R68): encodings, row scales, the declared format, and its POISON and mismatch. -/
structure TileIn where
  fmt      : Fmt
  elems    : List (List Nat)
  scales   : List Nat
  poison   : Bool
  mismatch : Bool
  deriving DecidableEq, Repr

/-- R107: an element as FP32, with the flags of its decoding. -/
def decodeIn (f : Fmt) (s x : Nat) : Nat × Nat := toF32 (decodeScaled f s x)

/-- A register element as FP32, with INV for a NaN (DEDUCED, assumption log 13). -/
def decodeReg (x : Nat) : Nat × Nat := if (f32 x).isNan then (f32NaN, flagINV) else (x, 0)

/-- All elements of an operand as FP32 with flags. -/
def TileIn.decoded (t : TileIn) : List (List (Nat × Nat)) :=
  (t.elems.zip t.scales).map fun (r, s) => r.map (decodeIn t.fmt s)

/-- Whether mask `m` enables element (i, j) (R115). -/
def maskOn (m : Nat) (i j : Nat) : Bool :=
  bits (regElem m j) 0 31 != 0 && bits (regElem m (128 + i)) 0 31 != 0

/-- R108: encode one row of FP32 results: encodings with flags, the scale, and whether it clamped. -/
def encodeRow (f : Fmt) (auto : Bool) (forceNaN : Bool) (rs : List Nat) : List (Nat × Nat) × Nat × Bool :=
  let (s0, cl) := if auto then chooseScale (rs.map f32) f else (0x7F, false)
  let s := if forceNaN then 0xFF else s0
  (rs.map fun r => if forceNaN then convert .nan f .ieee else convert ((f32 r).shift (127 - (s : Int))) f .ieee, s, cl)

/-- The result of a tile operation: the formed tile and how many row scales clamped. -/
structure VecResult where
  formed : Formed
  clamps : Nat
  deriving DecidableEq, Repr

/-- Collect encoded rows into a formed tile; `pre` holds the flags that decoding and the function raised. -/
def vecCollect (f : Fmt) (extra : Nat) (pre : List (List Nat))
    (rows : List (List (Nat × Nat) × Nat × Bool)) : VecResult :=
  { formed :=
      { fmt := f, elems := rows.map (fun r => r.1.map (·.1))
        flags := (rows.zip pre).map fun (r, p) => (r.1.zip p).map fun (e, q) => Nat.lor e.2 q
        scales := rows.map (·.2.1), extraFlags := extra, lossCount := 0, autoScaled := false }
    clamps := (rows.filter (·.2.2)).length }

/-- Where the second operand of a tile operation comes from (R114). -/
inductive VecB where
  | none
  | tile (b : TileIn)
  | row (v : Nat)
  | col (v : Nat)
  deriving DecidableEq, Repr

/-- Second and third operands of element (i, j), with their decoding flags. -/
def VecB.at (b : VecB) (bd : List (List (Nat × Nat))) (ternary : Bool) (i j : Nat) : Nat × Nat × Nat :=
  match b with
  | .none => (0, 0, 0)
  | .tile _ =>
    let (x, f) := nth (nth bd i []) j (0, 0)
    (x, 0, f)
  | .row v =>
    let (x, f) := decodeReg (regElem v j)
    if ternary then let (y, g) := decodeReg (regElem v (128 + j)); (x, y, Nat.lor f g) else (x, 0, f)
  | .col v =>
    let (x, f) := decodeReg (regElem v i)
    if ternary then let (y, g) := decodeReg (regElem v (128 + i)); (x, y, Nat.lor f g) else (x, 0, f)

/-- R108 to R115: VOP, VROW and VCOL. -/
def vecTileOp (func : Nat) (a : TileIn) (b : VecB) (mask : Option Nat) (fmtOut : Fmt) (auto : Bool) : VecResult :=
  let bd := match b with
    | .tile t => t.decoded
    | _ => []
  let mism := a.mismatch || (match b with | .tile t => t.mismatch | _ => false)
  let rows := ((List.range 128).zip (a.decoded.zip a.scales)).map fun ((i, ra, sa) : Nat × List (Nat × Nat) × Nat) =>
    let rf : List (Nat × Nat) := ((List.range 128).zip ra).map fun ((j, x, fx) : Nat × Nat × Nat) =>
      let (y, z, fy) := b.at bd (funcTernary func) i j
      let on := match mask with
        | none => true
        | some m => maskOn m i j
      let (r, fr) := if on then evalFunc func x y z else (x, 0)
      (r, Nat.lor (Nat.lor fx fy) fr)
    (encodeRow fmtOut auto (sa == 0xFF) (rf.map Prod.fst), rf.map Prod.snd)
  vecCollect fmtOut (if mism then flagINV else 0) (rows.map (·.2)) (rows.map (·.1))

/-- R116: VTRANS. -/
def vecTranspose (a : TileIn) (fmtOut : Fmt) (auto : Bool) : VecResult :=
  let ad := a.decoded
  let rows := (List.range 128).map fun i =>
    let rf := ad.map fun r => nth r i (0, 0)
    (encodeRow fmtOut auto false (rf.map (·.1)), rf.map (·.2))
  vecCollect fmtOut (if a.mismatch then flagINV else 0) (rows.map (·.2)) (rows.map (·.1))

/-- R109: element flags per lane: lane (i mod 2) × 128 + j. -/
def laneFlagsOf (flags : List (List Nat)) : List Nat :=
  (List.range 256).map fun l =>
    orFlags (((List.range 128).zip flags).map fun (i, fs) => if i % 2 = l / 128 then nth fs (l % 128) 0 % 8 else 0)

/-- A register from 256 elements. -/
def packReg (xs : List Nat) : Nat := xs.foldr (fun x acc => x % 2 ^ 32 + 2 ^ 32 * acc) 0
/-- The 256 elements of a register. -/
def unpackReg (v : Nat) : List Nat := (List.range 256).map (regElem v)

/-- R118: the 128 elements that VLD writes, with their decoding flags. -/
def vldElems (kind index : Nat) (a : TileIn) : List (Nat × Nat) :=
  match kind with
  | 0 => (nth a.elems index []).map (decodeIn a.fmt (nth a.scales index 0x7F))
  | 1 => (nth a.elems index []).map fun x => toF32 (decodeElem a.fmt x)
  | 2 => a.scales.map fun (s : Nat) => toF32 (if s = 0xFF then .nan else vOne.shift ((s : Int) - 127))
  | 3 => a.scales.map fun (s : Nat) => toF32 (Val.ofInt s)
  | _ => (a.elems.zip a.scales).map fun (r, s) => decodeIn a.fmt s (nth r index 0)

/-- A register with 128 elements of one half replaced. -/
def putHalf (v : Nat) (half : Bool) (xs : List Nat) : Nat :=
  let old := unpackReg v
  if half then packReg (old.take 128 ++ xs) else packReg (xs ++ old.drop 128)

/-- R119: the row a VST writes: encodings with flags, the row scale and whether it clamped. -/
def vstRow (v : Nat) (half : Bool) (f : Fmt) (src kept : Nat) : List (Nat × Nat) × Nat × Bool :=
  let xs := (if half then (unpackReg v).drop 128 else (unpackReg v).take 128)
  let ds := xs.map decodeReg
  let (s, cl) := match src with
    | 0 => (0x7F, false)
    | 1 => chooseScale (xs.map f32) f
    | _ => (kept, false)
  (ds.map fun (x, fx) =>
    let (y, fy) := if s = 0xFF then convert .nan f .ieee else convert ((f32 x).shift (127 - (s : Int))) f .ieee
    (y, Nat.lor fx fy), s, cl)

/-- R120: VREG on FP32 elements or packed pairs: the register and the flags per element. -/
def vregResult (func : Nat) (packed : Bool) (k a b d : Nat) : Nat × List Nat :=
  if func = 0x30 then (packReg (List.replicate 256 (regElem a k)), List.replicate 256 0)
  else if func = 0x31 then
    (packReg ((List.range 256).map fun e => regElem a (Nat.xor e 128)), List.replicate 256 0)
  else
    let rs := (List.range 256).map fun e =>
      let x := regElem a e
      let y := if funcBinary func then regElem b e else 0
      let z := if funcTernary func then regElem d e else 0
      if packed then
        let (l, fl) := evalPacked func (x % 2 ^ 16) (y % 2 ^ 16) (z % 2 ^ 16)
        let (h, fh) := evalPacked func (x / 2 ^ 16) (y / 2 ^ 16) (z / 2 ^ 16)
        (l + 2 ^ 16 * h, Nat.lor fl fh)
      else
        let (x', fx) := decodeReg x
        let (y', fy) := decodeReg y
        let (z', fz) := decodeReg z
        let (r, fr) := evalFunc func x' y' z'
        let nanF := if (f32 r).isNan then flagINV else 0
        (r, Nat.lor (Nat.lor (Nat.lor fx fy) fz) (Nat.lor fr nanF))
    (packReg (rs.map (·.1)), rs.map (·.2))

/-- R121: VIMM. -/
def vimmResult (mode k imm d : Nat) : Nat × List Nat :=
  match mode with
  | 0 => (packReg (List.replicate 256 imm), List.replicate 256 0)
  | 1 => (packReg ((unpackReg d).set k imm), [0])
  | _ =>
    let rs := (List.range 256).map fun (e : Nat) => toF32 ((f32 imm).add (Val.ofInt e))
    (packReg (rs.map (·.1)), rs.map (·.2))

/-- The groups of a reduction: rows, columns or the whole tile (R124). -/
def redGroups (axis : Nat) (ad : List (List Nat)) : List (List Nat) :=
  match axis with
  | 0 => ad
  | 1 => (List.range 128).map fun j => ad.map fun r => nth r j 0
  | _ => [ad.flatten]

/-- R125: the exact sum of a list of values, an exact zero being −0 only if every term is −0. -/
def exactSum : List Val → Val
  | [] => Val.zero false
  | x :: xs => xs.foldl Val.add x

/-- Running count, mean and squared deviation of R127, with the flags met. -/
structure Welford where
  n  : Nat
  m  : Nat
  q  : Nat
  fl : Nat
  deriving DecidableEq, Repr

/-- wf_step of R127. -/
def wfStep (w : Welford) (x : Nat) : Welford :=
  let n := w.n + 1
  let (d, f1) := toF32 ((f32 x).add (f32 w.m).negate)
  let (t, f2) := toF32 ((f32 d).div (Val.ofInt n))
  let (m, f3) := toF32 ((f32 w.m).add (f32 t))
  let (e, f4) := toF32 ((f32 x).add (f32 m).negate)
  let (q, f5) := toF32 (((f32 d).mul (f32 e)).add (f32 w.q))
  ⟨n, m, q, orFlags [w.fl, f1, f2, f3, f4, f5]⟩

/-- wf_merge of R127. -/
def wfMerge (a b : Welford) : Welford :=
  if a.n = 0 then { b with fl := Nat.lor a.fl b.fl }
  else if b.n = 0 then { a with fl := Nat.lor a.fl b.fl }
  else
    let n := a.n + b.n
    let (d, f1) := toF32 ((f32 b.m).add (f32 a.m).negate)
    let (f, f2) := toF32 ((Val.ofInt b.n).div (Val.ofInt n))
    let (m, f3) := toF32 (((f32 d).mul (f32 f)).add (f32 a.m))
    let (g, f4) := toF32 ((Val.ofInt (a.n * b.n)).div (Val.ofInt n))
    let (h, f5) := toF32 ((f32 d).mul (f32 d))
    let (q, f6) := toF32 ((f32 a.q).add (f32 b.q))
    let (q', f7) := toF32 (((f32 h).mul (f32 g)).add (f32 q))
    ⟨n, m, q', orFlags [a.fl, b.fl, f1, f2, f3, f4, f5, f6, f7]⟩

/-- One level of the tree of R127: pairs merge left to right. -/
def wfPairs : List Welford → List Welford
  | a :: b :: rest => wfMerge a b :: wfPairs rest
  | xs => xs

/-- The tree of R127 over 2^k partials. -/
def wfTree : Nat → List Welford → Welford
  | 0, ps => ps.headD ⟨0, 0, 0, 0⟩
  | k + 1, ps => wfTree k (wfPairs ps)

/-- wf_line of R127: chunks of four, then the tree. -/
def wfLine (xs : List Nat) : Welford :=
  wfTree 5 ((chunks 4 32 xs).map fun c => c.foldl wfStep ⟨0, 0, 0, 0⟩)

/-- R125 to R127: one group's pair (element k, element 128 + k) and its flags. `b0`, `b1` are the prior's, when `prior`
is not zero; `np` is the prior's count. -/
def redGroup (kind prior np b0 b1 : Nat) (axis : Nat) (rows : List (List Nat)) (g : List Nat) : Nat × Nat × Nat :=
  let pv := if prior = 0 then [] else [f32 b0]
  let pf := if prior = 0 then 0 else (decodeReg b0).2
  match kind with
  | 0 =>
    let (x, f) := toF32 (exactSum (pv ++ g.map f32))
    (x, 0, f)
  | 1 =>
    let (x, f) := toF32 (exactSum (pv ++ g.map fun x => (f32 x).mul (f32 x)))
    let cnt := (g.filter (fun x => !(f32 x).isZero)).length
    let (c, f') := toF32 ((if prior = 0 then Val.zero false else f32 b1).add (Val.ofInt cnt))
    (x, c, Nat.lor f f')
  | 2 => (match pv ++ g.map f32 with | [] => 0 | v :: vs => (toF32 (vs.foldl maxVal v)).1, 0, pf)
  | 3 => (match pv ++ g.map f32 with | [] => 0 | v :: vs => (toF32 (vs.foldl minVal v)).1, 0, pf)
  | 4 => (match (pv ++ g.map f32).map Val.abs with | [] => 0 | v :: vs => (toF32 (vs.foldl maxVal v)).1, 0, pf)
  | _ =>
    let w := if axis = 2 then wfTree 7 (rows.map wfLine) else wfLine g
    let w := if prior = 0 then w else wfMerge ⟨np, b0, b1, 0⟩ w
    (w.m, w.q, w.fl)

/-- R124: the register a RED writes, and the flags the unit raises (decoding flags included). -/
def redResult (kind axis prior : Nat) (a : TileIn) (b : Nat) : Nat × Nat :=
  let dec := a.decoded
  let ad := dec.map fun r => r.map (·.1)
  let dfl := orFlags (dec.map fun r => orFlags (r.map (·.2)))
  let np := if axis = 2 then prior * 16384 else prior * 128
  let gs := (redGroups axis ad)
  let rs := ((List.range gs.length).zip gs).map fun (k, g) =>
    redGroup kind prior np (regElem b k) (regElem b (128 + k)) axis ad g
  let lo := rs.map (·.1)
  let hi := rs.map (·.2.1)
  let pad (xs : List Nat) := xs ++ List.replicate (128 - xs.length) 0
  (packReg (pad lo ++ pad hi), Nat.lor dfl (orFlags (rs.map (·.2.2))))

end Sys2Proof.Machine
end

