-- ==== Sys2Proof/Machine/Tiles.lean ====
section
/-! DEFINITION. Access to tiles through the tier map: entry fields (Table 8-3), aliases and unmapped pages (R176, R185),
declared formats (R68), width classes (R159), and what a write adds to the step-flag word and the layer counts (R245,
R279). -/

namespace Sys2Proof.Machine

/-- The page of a tile (R158). -/
def pageOf (id : Nat) : Nat := id / 64
/-- A tile ID, modulo 2^40. -/
def tileId (x : Nat) : Nat := x % 2 ^ 40

/-- The tier map entry of a page, as a number. -/
def State.page (s : State) (p : Nat) : Nat := (Sparse.get pageDefault s.mem.pages p).toNat
/-- Replace a page's entry. -/
def State.setPage (s : State) (p e : Nat) : State :=
  { s with mem := { s.mem with pages := Sparse.put pageDefault s.mem.pages p (BitVec.ofNat 128 e) } }

/-- Kind field: 0 unmapped, 1 mapped, 2 alias. -/
def eKind (e : Nat) : Nat := bits e 0 2
/-- Width field. -/
def eWidth (e : Nat) : Nat := bits e 2 2
/-- Home tier. -/
def eHome (e : Nat) : Nat := bits e 4 2
/-- Home unit. -/
def eUnit (e : Nat) : Nat := bits e 6 6
/-- Pinned. -/
def ePinned (e : Nat) : Bool := bit e 12
/-- Demand. -/
def eDemand (e : Nat) : Bool := bit e 13
/-- Mirrored. -/
def eMirrored (e : Nat) : Bool := bit e 14
/-- Tier that holds the page now. -/
def eTier (e : Nat) : Nat := bits e 16 2
/-- Migrating. -/
def eMigrating (e : Nat) : Bool := bit e 19
/-- Loaded. -/
def eLoaded (e : Nat) : Bool := bit e 20
/-- First data granule. -/
def eFrame (e : Nat) : Nat := bits e 32 32
/-- Backing granule. -/
def eBacking (e : Nat) : Nat := bits e 64 32
/-- Target page of an alias. -/
def eTarget (e : Nat) : Nat := bits e 64 34
/-- Uncorrected count. -/
def eUncorrected (e : Nat) : Nat := bits e 96 16

/-- Bytes per element of a width class. -/
def classBytes (w : Nat) : Nat := 2 ^ w
/-- Granules of a page of a width class (R161). -/
def classGranules (w : Nat) : Nat := 2 ^ w
/-- Fmt that poisoned content takes in a width class (R159): E4M3, BF16 or FP32. -/
def classFmt (w : Nat) : Nat := match w with | 0 => 0 | 1 => 3 | _ => 5
/-- Width class of a format. -/
def fmtClass (f : Fmt) : Nat := match f.bytes with | 1 => 0 | 2 => 1 | _ => 2

/-- The stored tile `id`. -/
def State.tile (s : State) (id : Nat) : Tile := Sparse.get tileDefault s.mem.tiles id
/-- Store tile `id`. -/
def State.putTile (s : State) (id : Nat) (t : Tile) : State :=
  { s with mem := { s.mem with tiles := Sparse.put tileDefault s.mem.tiles id t } }

/-- First granule of the LL, HB and BW regions (Table 8-1). -/
def llBase : Nat := 0x1000
/-- First granule of the HB region. -/
def hbBase : Nat := 0x100000
/-- First granule of the BW region. -/
def bwBase : Nat := 0x10000000

/-- Logical unit of part `part` of tile `t` of a page of `w` bytes per element at BW granule `g` (R189). -/
def luData (g t w part : Nat) : Nat := 64 * g + w * t + part
/-- Logical unit of the sidecars of the page at BW granule `g`. -/
def luSide (g : Nat) : Nat := (g / 64) * 4096 + 63 * 64 + g % 64

/-- Part `part` of the data of a tile of `w` bytes per element, as the number of a logical unit (R162). -/
def Tile.luPart (t : Tile) (w part : Nat) : Nat := leNat (slice (t.dataBytes w) (16384 * part) 16384)

/-- The logical-unit writes that a write of tile `id` makes on a page in the backwater (R194). -/
def luWritesOf (e id : Nat) (t : Tile) : List LuWrite :=
  let g := eFrame e - bwBase
  let k := id % 64
  let w := classBytes (eWidth e)
  ((List.range w).map fun i =>
    { lu := luData g k w i, slot := 64, dat := t.luPart w i, page := pageOf id, mirrored := eMirrored e })
  ++ [{ lu := luSide g, slot := k, dat := leNat t.sidecarBytes, page := pageOf id, mirrored := eMirrored e }]

/-- Store tile `id` of a mapped page; a page in the backwater writes its logical units (R194). -/
def State.putStored (s : State) (id : Nat) (t : Tile) : State :=
  let e := s.page (pageOf id)
  let s := s.putTile id t
  if eTier e = 3 then { s with flash := { s.flash with writes := s.flash.writes ++ luWritesOf e id t } } else s

/-- Where an access to a tile lands: an unmapped page, a mapped page, a mapped page behind an alias, or an alias whose Target is
unmapped (R176). -/
inductive Place where
  | unmapped
  | mapped (id width : Nat)
  | viaAlias (id width : Nat)
  | hollow
  deriving DecidableEq, Repr

/-- Resolve a tile ID through the tier map. -/
def State.place (s : State) (id : Nat) : Place :=
  let e := s.page (pageOf id)
  if eKind e = 1 then .mapped id (eWidth e)
  else if eKind e = 2 then
    let t := s.page (eTarget e)
    if eKind t = 1 then .viaAlias (eTarget e * 64 + id % 64) (eWidth t) else .hollow
  else .unmapped

/-- The Source field of the slot or base die that an access is charged to (R413): 0–63 slots, 64–71 base dies. -/
def acctSrc (acct : Nat) : Nat := if acct < 64 then srcSlot acct else srcBase (acct - 64)

/-- R185: an access to an unmapped page: counted, with one event per step for the unit. -/
def State.unmappedAccess (s : State) (acct id : Nat) : State :=
  let s := s.bump64 P.unmappedAccesses acct 1
  if s.mem.unmapTold.contains acct then s
  else
    { s with mem := { s.mem with unmapTold := acct :: s.mem.unmapTold } }.raiseEvent 7 0x08 (acctSrc acct) id 0

/-- The raw content of a tile as a reader without a declared format sees it: the tile and its width in bytes. An
unmapped page reads as poisoned content of width class `w`. -/
def State.readRaw (s : State) (acct id w : Nat) : Tile × Nat × State :=
  match s.place id with
  | .unmapped | .hollow => (Tile.poison { source := 0 } (classFmt w), classBytes w, s.unmappedAccess acct id)
  | .mapped i c => (s.tile i, classBytes c, s)
  | .viaAlias i c => (s.tile i, classBytes c, s)

/-- The elements of a tile of `w` bytes per element, row by row. -/
def Tile.elems (t : Tile) (w : Nat) : List (List Nat) := (List.range 128).map fun i => unpackRow w (t.row i)

/-- All-zero elements. -/
def zeroElems : List (List Nat) := List.replicate 128 (List.replicate 128 0)

/-- R68: a tile operand in a declared format, for slot `sl`. -/
def State.readOperand (s : State) (sl id : Nat) (f : Fmt) : TileIn × State :=
  match s.place id with
  | .unmapped | .hollow => (⟨f, zeroElems, List.replicate 128 0x7F, true, false⟩, s.unmappedAccess sl id)
  | .mapped i c | .viaAlias i c =>
    let t := s.tile i
    if ¬ t.written then
      (⟨f, zeroElems, List.replicate 128 0x7F, t.poisoned, false⟩, s)
    else if classBytes c ≠ f.bytes then
      (⟨f, zeroElems, List.replicate 128 0x7F, t.poisoned, true⟩, s.bump64 P.widthMismatches sl 1)
    else
      let s := if t.fmtCode = f.code then s else s.bump64 P.formatMismatches sl 1
      (⟨f, t.elems f.bytes, t.scaleList, t.poisoned, false⟩, s)

/-- The layer of a tile (R279): that of the lowest-indexed used entry of LayerRanges that holds it. -/
def State.layerOf (s : State) (id : Nat) : Option Nat :=
  (s.params.find? fun kv => kv.1 / 2 ^ 24 == P.layerRanges && bits kv.2 64 32 != 0
    && decide (bits kv.2 0 40 ≤ id) && decide (id < bits kv.2 0 40 + bits kv.2 64 32)).map fun kv => bits kv.2 96 10

/-- R279: add a write's counts to a layer, in the column of its Source. -/
def State.countLayer (s : State) (layer source : Nat) (t : Tile) : State :=
  let e := layer * 4 + source
  (((s.bump64 P.layerOvf e t.ovf).bump64 P.layerUnf e t.unf).bump64 P.layerInv e t.inv).bump64 P.layerLoss e t.loss

/-- R279 for a tile that a range may hold. -/
def State.countTileLayer (s : State) (id source : Nat) (t : Tile) : State :=
  match s.layerOf id with
  | some l => s.countLayer l source t
  | none => s

/-- R245: the step-flag bits of a written tile; `ovfOn` tells whether its writer is enabled in FlagSources. -/
def wordOf (flags : Nat) (ovfOn : Bool) : Nat :=
  b2n (bit flags 0) + 2 * b2n (ovfOn && bit flags 1) + 4 * b2n (bit flags 4)

/-- Which bit of FlagSources enables a writer: 0 COLL results, 1 DRAIN, 2 vector entries, 3 none. -/
def State.ovfEnabled (s : State) (k : Nat) : Bool := decide (k < 3) && bit (s.val P.flagSources) k

/-- R159, R176, R185: a write of tile `t` of width class `cls` to `id`, charged to `acct`; what was stored, if anything.
Poisoned content keeps the writer's fields that `t` carries, those of its source for a MOVE (R65, R67). -/
def State.storeTile (s : State) (acct id cls : Nat) (t : Tile) : Option Tile × State :=
  match s.place id with
  | .unmapped => (none, s.unmappedAccess acct id)
  | .viaAlias _ _ | .hollow => (none, (s.bump64 P.aliasWrites acct 1).raiseEvent 7 0x09 (acctSrc acct) id 0)
  | .mapped i c =>
    if cls = c then (some t, s.putStored i t)
    else
      let p := t.poisonAs (classFmt c)
      (some p, (s.putStored i p).bump64 P.widthFaults acct 1)

/-- R69: a copied tile, verified against its stored digest when `verify` holds: a mismatch is written as poisoned content,
counted in DigestErrors and reported. Its other fields stay those of the tile copied (R65, R67). -/
def State.verifyTile (s : State) (acct id width : Nat) (t : Tile) (verify : Bool) : Tile × State :=
  if verify && t.computeDigest width != t.digest then
    (t.poisonInPlace, (s.bump64 P.digestErrors acct 1).raiseEvent 7 0x06 (acctSrc acct) id 0)
  else (t, s)

/-- R413: the base die of the home unit of a tile's page: the unit for LL and HB, the slot's die for TS, B0 for BW or
for no home. -/
def State.homeAcct (s : State) (id : Nat) : Nat :=
  let e := s.page (pageOf id)
  let e := if eKind e = 2 then s.page (eTarget e) else e
  if eKind e ≠ 1 then 64
  else match eHome e with
    | 0 => 64 + eUnit e / 8
    | 3 => 64
    | _ => 64 + eUnit e % 8

/-- Whether a tile lies in the tile store of slot `sl`. -/
def State.resident (s : State) (sl id : Nat) : Bool :=
  let e := s.page (pageOf id)
  let e := if eKind e = 2 then s.page (eTarget e) else e
  eKind e == 1 && eTier e == 0 && eFrame e / 64 == sl

/-- R36: how much later operands arrive that do not lie in the tile store of slot `sl`, in ROOT cycles: no rule bounds it (DESIGN
CHOICE, assumption log 84). -/
def State.operandDelay (s : State) (sl : Nat) (ids : List Nat) : Nat × State :=
  if ids.all (s.resident sl) then (0, s)
  else
    let (n, s) := s.draw
    (acRoot * Config.freeArrival n, s)

/-- R175: pages among `ids` that a first access must load before the access can proceed. -/
def State.unloaded (s : State) (ids : List Nat) : List Nat :=
  (ids.map fun id =>
    let e := s.page (pageOf id)
    if eKind e = 2 then eTarget e else pageOf id).filter fun p => eKind (s.page p) == 1 && !eLoaded (s.page p)

/-- R175: start the loads of pages that are not loaded, one load per page. -/
def State.startLoads (s : State) (ps : List Nat) : State :=
  { s with mem := { s.mem with demand := s.mem.demand ++ (ps.eraseDups.filter fun p => !s.mem.demand.contains p) } }

/-- R159, R176, R185: a write of a tile at a page that is loaded, or at none: stored, ORed into the step-flag word (R245) and
counted for its layer (R279). -/
def State.tileWrite (s : State) (w : TileWrite) : State :=
  match s.storeTile w.acct w.id w.cls w.tile with
  | (none, s) => s
  | (some t, s) =>
    let s := s.condition (wordOf t.flags (s.ovfEnabled w.ovf))
    match w.column with
    | some k => s.countTileLayer w.id k t
    | none => s

/-- R175: a write of a tile, by any unit: at once, or when the Demand load of its page is complete. -/
def State.write (s : State) (w : TileWrite) : State :=
  let ps := s.unloaded [w.id]
  if ps = [] then s.tileWrite w
  else
    let s := s.startLoads ps
    { s with mem := { s.mem with waiting := s.mem.waiting ++ [w] } }

/-- The writes that wait for page `p` proceed, in order (R175). -/
def State.releaseWrites (s : State) (p : Nat) : State :=
  let mine (w : TileWrite) : Bool :=
    let e := s.page (pageOf w.id)
    pageOf w.id == p || (eKind e == 2 && eTarget e == p)
  let ws := s.mem.waiting.filter mine
  ws.foldl State.tileWrite { s with mem := { s.mem with waiting := s.mem.waiting.filter fun w => !mine w } }

/-- A write by an entry, the confluence unit or network receive: stored, ORed into the step-flag word and counted for its
layer. -/
def State.writeTile (s : State) (acct : Nat) (w : Writer) (ovfBit id cls : Nat) (t : Tile) : State :=
  s.write { acct := acct, id := id, cls := cls, ovf := ovfBit, column := some w.source, tile := t }

end Sys2Proof.Machine
end

