-- ==== Sys2Proof/Machine/Operands.lean ====
section
/-! DEFINITION. The fields of a course table entry (Table 2-1), its operand forms (Table 2-2) and its footprint (R42). -/

namespace Sys2Proof.Machine

/-- Opcode. -/
def enOpcode (e : Nat) : Nat := bits e 0 8
/-- Phase tag. -/
def enPhase (e : Nat) : Nat := bits e 8 4
/-- Energy charge, in 16 nJ. -/
def enEnergy (e : Nat) : Nat := bits e 12 12
/-- Token group of the wait mask. -/
def enWaitGroup (e : Nat) : Nat := bits e 24 2
/-- Wait mask. -/
def enWaitMask (e : Nat) : Nat := bits e 26 16
/-- Token raised at completion. -/
def enSignalToken (e : Nat) : Nat := bits e 42 6
/-- Amount of the signal. -/
def enSignalCount (e : Nat) : Nat := bits e 48 2
/-- Modifier. -/
def enMod (e : Nat) : Nat := bits e 50 18
/-- Destination operand field. -/
def enD (e : Nat) : Nat := bits e 68 20
/-- First source operand field. -/
def enA (e : Nat) : Nat := bits e 88 20
/-- Second source operand field. -/
def enB (e : Nat) : Nat := bits e 108 20

/-- Field [lo + n − 1 : lo] of the Modifier. -/
def enM (e lo n : Nat) : Nat := bits (enMod e) lo n

/-- The tokens an entry waits on (R29). -/
def enWaits (e : Nat) : List Nat :=
  (indicesWhere 16 (bit (enWaitMask e))).map fun i => 16 * enWaitGroup e + i

/-- Form T: the tile ID that an operand field names (Table 2-2). -/
def tileOperand (x : List Nat) (op : Nat) : Nat := tileId (nth x (bits op 18 2) 0 + bits op 0 18)

/-- Form V: the register that an operand field names. -/
def regOperand (op : Nat) : Nat := bits op 0 6

/-- The mask register of a tile operation, if any (Table 6-2). -/
def maskReg (e : Nat) : Option Nat := if enM e 12 3 = 0 then none else some (56 + enM e 12 3)

/-- Declared format of tile B of a VOP (Table 6-2). -/
def vopFmtB (e : Nat) : Fmt :=
  match enM e 16 2 with
  | 0 => Fmt.ofCodeD (enM e 6 3)
  | 1 => .fp32
  | 2 => .bf16
  | _ => .fp16

/-- First tile of chunk `c` of `n` over `len` tiles (R238). -/
def chunkStart (c len n : Nat) : Nat := if n = 0 then 0 else c * len / n

/-- Destination length of a COLL (Table 10-9): kind, OpB and the group's size. -/
def collDstLen (kind len n : Nat) : Nat :=
  match kind with
  | 0 => if n = 0 then 0 else len / n
  | 1 => n * len
  | _ => len

/-- The footprint of an entry (R42): what it reads and what it writes. An entry on an array reads and writes the array's
state. `conv` is the ConvReg of the mode register that a DRAIN would capture, `n` the size of a COLL's group. -/
def footprint (e : Nat) (x : List Nat) (conv n : Nat) : List Res × List Res :=
  let tD := Res.tiles (tileOperand x (enD e)) 1
  let tA := Res.tiles (tileOperand x (enA e)) 1
  let tB := Res.tiles (tileOperand x (enB e)) 1
  let vD := Res.reg (regOperand (enD e))
  let vA := Res.reg (regOperand (enA e))
  let vB := Res.reg (regOperand (enB e))
  let mask := match maskReg e with
    | some m => [Res.reg m]
    | none => []
  let bin := funcBinary (enM e 0 6)
  let arr := Res.array (enM e 0 1)
  match enOpcode e with
  | 0x08 => ([arr], [arr])
  | 0x10 => ([tA, tB, arr], [arr])
  | 0x11 => ([.reg conv, arr], [tD, arr])
  | 0x20 => (tA :: (if bin then [tB] else []) ++ mask, [tD])
  | 0x21 => (tA :: (if bin then [vB] else []) ++ mask, [tD])
  | 0x22 => (tA :: (if bin then [vB] else []) ++ mask, [tD])
  | 0x23 => ([tA], [tD])
  | 0x24 => ([tA], [vD])
  | 0x25 => ([vA], [tD])
  | 0x26 =>
    if enM e 0 6 = 0x32 then ([vA], [])
    else (vA :: (if bin then [vB] else []) ++ (if funcTernary (enM e 0 6) then [vD] else []), [vD])
  | 0x27 => ([], [vD])
  | 0x28 => (tA :: (if enM e 10 8 = 0 then [] else [vB]), [vD])
  | 0x30 => ([tA], [tD])
  | 0x31 => ([tA], [tD])
  | 0x32 => ([tA, tB], [])
  | 0x40 => ([tA], [])
  | 0x41 => ([.tiles (tileOperand x (enA e)) (enB e)],
             [.tiles (tileOperand x (enD e)) (collDstLen (enM e 0 2) (enB e) n)])
  | _ => ([], [])

/-- One tile of each page that resources touch on their own module (for Demand loads, R175). -/
def touchedTiles (r : List Res) : List Nat :=
  r.flatMap fun
    | .tiles f n => (List.range (ceilDiv (f % 64 + n) 64)).map fun i => tileId (64 * (f / 64) + 64 * i)
    | _ => []

/-- Where a resource first meets another: the place of the first common tile in the first range, in its order (ranges run modulo
2^40). -/
def Res.meet : Res → Res → Option Nat
  | .tiles f n, .tiles f' n' =>
    if n = 0 ∨ n' = 0 then none
    else if tileId (f + 2 ^ 40 - f' % 2 ^ 40) < n' then some 0
    else if tileId (f' + 2 ^ 40 - f % 2 ^ 40) < n then some (tileId (f' + 2 ^ 40 - f % 2 ^ 40))
    else none
  | .reg r, .reg r' => if r = r' then some 0 else none
  | .array a, .array a' => if a = a' then some 0 else none
  | _, _ => none

/-- The resource at place `k` of a range; a register or an array's state is its own. -/
def Res.at (x : Res) (k : Nat) : Res :=
  match x with
  | .tiles f _ => .tiles (tileId (f + k)) 1
  | x => x

/-- The first resource, in the order of `xs`, that is also one of `ys`: the first tile of a range (Table 2-7). -/
def firstMeet (xs ys : List Res) : Option Res :=
  xs.findSome? fun x =>
    match ys.filterMap x.meet with
    | [] => none
    | k :: ks => some (x.at (ks.foldl min k))

/-- Resource code and identifier of a guard record (Table 2-7). -/
def Res.code : Res → Nat × Nat
  | .tiles f _ => (0, f)
  | .reg r => (1, r)
  | .array a => (2, a)

/-- Whether a resource is an array's state. -/
def Res.isArray : Res → Bool
  | .array _ => true
  | _ => false

/-- R42: the hazard between a head's footprint and that of an entry in flight: 0 RAW, 1 WAR, 2 WAW, with the first colliding
resource. Where several hold at once the first in this order is taken (DESIGN CHOICE, assumption log 79). -/
def hazardOf (reads writes reads' writes' : List Res) : Option (Nat × Res) :=
  match firstMeet reads writes' with
  | some r => some (0, r)
  | none =>
    match firstMeet writes reads' with
    | some r => some (1, r)
    | none => (firstMeet writes writes').map fun r => (2, r)

end Sys2Proof.Machine
end

