-- ==== Sys2Proof/Machine/Weirgate.lean ====
section
/-! DEFINITION. What the weir does at issue: open ac per gear (R286), the die gears (R287), refill of buckets and reserves
(R288), and the debit of a charge (R290). -/

namespace Sys2Proof.Machine

/-- The open-ac mask of a gear (Table 13-2). -/
def gearMask (g : Nat) : Nat :=
  match g with
  | 7 => 0xFFFF | 6 => 0x7777 | 5 => 0x5555 | 4 => 0x1111 | 3 => 0x0101 | _ => 0x0001

/-- Refill fraction of a gear, in sixteenths (Table 13-2). -/
def gearFraction (g : Nat) : Nat :=
  match g with
  | 7 => 16 | 6 => 14 | 5 => 12 | 4 => 10 | 3 => 8 | 2 => 6 | 1 => 4 | _ => 1

/-- Whether ac `c` is open in gear `g` (R286). -/
def acOpen (g c : Nat) : Bool := bit (gearMask g) (c % 16)

/-- The die gear of slot `sl` (R287): the lowest of its sources; 0 while a sensor is at its hard limit (R294). -/
def State.gearOf (s : State) (sl : Nat) : Nat :=
  if s.weir.hot ≠ [] then 0 else
  let b := sl / 8
  let pos := s.slotPos sl
  let th (k : Nat) := Sparse.get gearDefault s.weir.thermal k
  let die := if pos = 0xF then 7 else th (9 * b + pos)
  min (min (min s.weir.gearCap s.weir.supplyGear) (min s.weir.powerGear die))
    (min (th (72 + b)) (min (th (80 + 2 * b)) (th (81 + 2 * b))))

/-- The gear in force of slot `sl`. -/
def State.gear (s : State) (sl : Nat) : Nat := nth s.weir.dieGears sl 7

/-- R288: refill the buckets of base die `b` up to ac `t`; what a full bucket cannot take passes to the reserve. -/
def State.refillTo (s : State) (b t : Nat) : State :=
  let w := s.weir
  let n := t - nth w.refilled b 0
  let cap := w.depth * 2 ^ 16
  let fill := (List.range 8).map fun k =>
    let sl := 8 * b + k
    if s.absent sl then (nth w.buckets sl 0, 0)
    else
      let v := nth w.buckets sl 0 + n * nth w.rates (s.gear sl) 0
      (min v cap, v - cap)
  let spill := (fill.map Prod.snd).foldl (· + ·) 0
  let buckets := (w.buckets.take (8 * b)) ++ fill.map Prod.fst ++ w.buckets.drop (8 * b + 8)
  { s with weir := { w with
      buckets := buckets
      reserves := w.reserves.set b (min (nth w.reserves b 0 + spill) (8 * cap))
      refilled := setAt 0 w.refilled b t } }

/-- R288: refill the buckets of base die `b` up to now. -/
def State.refill (s : State) (b : Nat) : State := s.refillTo b s.ac

/-- GearTime: account the time at the present lowest gear up to now (0x2030.01), in ROOT cycles. -/
def State.accountGear (s : State) : State :=
  let g := (s.presentSlots.map s.gear).foldl min 7
  let w := s.weir
  { s with weir := { w with
      gearTimes := w.gearTimes.set g (nth w.gearTimes g 0 + (s.clock.now - w.gearSince)), gearSince := s.clock.now } }

/-- What the bucket of slot `sl` holds, in 2^−16 units. -/
def State.bucket (s : State) (sl : Nat) : Nat := nth s.weir.buckets sl 0

/-- R290: debit a charge from the bucket first, the rest from the reserve. -/
def State.debit (s : State) (sl charge : Nat) : State :=
  let c := charge * 2 ^ 16
  let b := s.bucket sl
  let fromB := min b c
  { s with weir := { s.weir with
      buckets := s.weir.buckets.set sl (b - fromB)
      reserves := s.weir.reserves.set (sl / 8) (nth s.weir.reserves (sl / 8) 0 - (c - fromB)) } }

/-- The streams of slot `sl` in the priority order of its gear (Table 13-3). -/
def State.order (s : State) (sl : Nat) : List Nat :=
  let o := nth s.weir.orders (s.gear sl) 0xFEDCBA9876543210
  (List.range 16).map fun k => bits o (4 * k) 4

end Sys2Proof.Machine
end

