-- ==== Sys2Proof/Machine/Ready.lean ====
section
/-! DEFINITION. Readiness (R28, R29, R31, R33), the choice of the weir (R34, R35, R290), and the ac in which a die's heads wait
(R35, R289, R290). Times named `c` are ac. -/

namespace Sys2Proof.Machine

/-- Entry `i` of stream `st` of slot `sl` in the active set. -/
def TableSet.entryAt (t : TableSet) (sl st i : Nat) : Nat :=
  Sparse.get zeros t.entries (bits (Sparse.get zeros t.directory (16 * sl + st)) 0 32 + i)

/-- Length of stream `st` of slot `sl`. -/
def TableSet.lengthOf (t : TableSet) (sl st : Nat) : Nat :=
  bits (Sparse.get zeros t.directory (16 * sl + st)) 32 32

/-- Stream `st` of a die. -/
def Die.stream (d : Die) (st : Nat) : Stream := nth d.streams st {}
/-- Replace stream `st`. -/
def Die.setStream (d : Die) (st : Nat) (x : Stream) : Die := { d with streams := setAt {} d.streams st x }
/-- Count of token `t`. -/
def Die.token (d : Die) (t : Nat) : Nat := nth d.tokens t 0

/-- The entry at the head of stream `st` of slot `sl`, while a step is open and the stream has not ended. -/
def State.headEntry (s : State) (sl st : Nat) : Option Nat :=
  let x := (s.die sl).stream st
  match s.seq.active with
  | some t =>
    if s.seq.opened ∧ ¬ x.ended ∧ ¬ x.stalled ∧ ¬ s.absent sl ∧ ¬ s.seq.dead.contains sl ∧ x.head < t.lengthOf sl st then
      some (t.entryAt sl st x.head)
    else none
  | none => none

/-- Size of group `g` (Table 10-7). -/
def State.groupSize (s : State) (g : Nat) : Nat := bits (s.reg P.groupTable g) 0 16

/-- The footprint of an entry of stream `x` on die `d`. -/
def State.footprintOf (s : State) (d : Die) (x : Stream) (e : Nat) : List Res × List Res :=
  footprint e x.x (d.array (enM e 0 1)).convReg (s.groupSize (enM e 2 12))

/-- R28: whether an earlier entry of the same stream holds the entry. An entry that writes what an earlier one reads is held until
that one completes, and the head may issue in the ac of a completion (DESIGN CHOICE, assumption log 80). -/
def heldByStream (d : Die) (st e : Nat) (fp : List Res × List Res) : Bool :=
  let op := enOpcode e
  let arr := op == 0x08 || op == 0x10 || op == 0x11
  let strip (f : Flight) (xs : List Res) :=
    if arr ∧ (enOpcode f.entry = 0x08 ∨ enOpcode f.entry = 0x10 ∨ enOpcode f.entry = 0x11)
    then xs.filter (fun r => !r.isArray) else xs
  d.flight.any fun f => f.stream == st &&
    (hazardOf (strip f fp.1) (strip f fp.2) f.reads f.writes).isSome

/-- R42: the first entry of another stream in flight that collides with a head, with the hazard and the resource. -/
def guardHazard (d : Die) (st : Nat) (fp : List Res × List Res) : Option (Flight × Nat × Res) :=
  (d.flight.filter (fun f => f.stream != st)).findSome? fun f =>
    (hazardOf fp.1 fp.2 f.reads f.writes).map fun h => (f, h.1, h.2)

/-- Entries waiting in an array's queue (Table 2-6). A MODE waits there from its issue to its HALF_CONVERSION when it changes
Half, and not at all otherwise (DESIGN CHOICE, assumption log 81). -/
def ArrayState.queued (a : ArrayState) : Nat := a.halves.length + a.mmas.length + a.drains.length

/-- Entries in flight that a unit counts. -/
def Die.inUnit (d : Die) (ops : List Nat) : Nat := (d.flight.filter fun f => ops.contains (enOpcode f.entry)).length

/-- Opcodes of the vector engine. -/
def vectorOps : List Nat := [0x20, 0x21, 0x22, 0x23, 0x24, 0x25, 0x26, 0x27]

/-- Whether an entry of one of `ops` waits for a Demand load before its unit starts. -/
def Die.loading (d : Die) (ops : List Nat) : Bool := d.flight.any fun f => ops.contains (enOpcode f.entry) && !f.cold.isEmpty

/-- R33 condition 4, apart from units that are busy for a known time: whether the unit can accept the entry. -/
def unitFree (d : Die) (e : Nat) : Bool :=
  let op := enOpcode e
  if op = 0x08 ∨ op = 0x10 ∨ op = 0x11 then decide ((d.array (enM e 0 1)).queued < 8)
  else if op = 0x30 ∨ op = 0x31 ∨ op = 0x32 ∨ op = 0x40 then decide (d.inUnit [0x30, 0x31, 0x32, 0x40] < 8)
  else if op = 0x41 then decide (d.inUnit [0x41] < 4)
  else if vectorOps.contains op then !d.loading vectorOps
  else if op = 0x28 then !d.loading [0x28]
  else true

/-- The earliest ROOT cycle at which the entry's unit is idle (Table 2-6). -/
def unitTime (d : Die) (e : Nat) : Nat :=
  let op := enOpcode e
  if vectorOps.contains op then d.vecBusy else if op = 0x28 then d.redBusy else 0

/-- R31: what token `t` shows to readiness in ac `c`: a raise of that ac shows one ac later. -/
def Die.visible (d : Die) (t c : Nat) : Nat :=
  d.token t - ((d.raised.filter fun r => r.1 == t && decide (c ≤ r.2.1)).map (·.2.2)).foldl (· + ·) 0

/-- R29: whether every awaited token shows a count in ac `c`. -/
def waitsMet (d : Die) (e c : Nat) : Bool := (enWaits e).all fun t => decide (1 ≤ d.visible t c)

/-- R29: whether every awaited token holds a count. -/
def waitsHeld (d : Die) (e : Nat) : Bool := (enWaits e).all fun t => decide (1 ≤ d.token t)

/-- R33 without the guard: the entry waits on nothing but time and collisions. -/
def nearlyReady (s : State) (d : Die) (st : Nat) (x : Stream) (e : Nat) : Bool :=
  waitsHeld d e && !heldByStream d st e (s.footprintOf d x e) && unitFree d e && decide (d.flight.length < 48)

/-- R33 without the guard in ac `c`: a head that the guard held is free one ac after the completion it waited for (Table 2-12). -/
def State.clearAt (s : State) (sl st c : Nat) : Bool :=
  let d := s.die sl
  let x := d.stream st
  match s.headEntry sl st with
  | none => false
  | some e =>
    nearlyReady s d st x e && waitsMet d e c && decide (unitTime d e ≤ acRoot * c) && !(x.held && decide (c ≤ d.doneAt / acRoot))

/-- R42: what the guard finds for the head of stream `st`. -/
def State.collision (s : State) (sl st : Nat) : Option (Flight × Nat × Res) :=
  let d := s.die sl
  match s.headEntry sl st with
  | none => none
  | some e => guardHazard d st (s.footprintOf d (d.stream st) e)

/-- R33: the head of stream `st` is ready in ac `c`. -/
def State.readyAt (s : State) (sl st c : Nat) : Bool := s.clearAt sl st c && (s.collision sl st).isNone

/-- The charge of a stream's head, in 2^−16 units. -/
def State.charge (s : State) (sl st : Nat) : Nat := ((s.headEntry sl st).map enEnergy).getD 0 * 2 ^ 16

/-- R34, R35, R290: the stream that the weir picks among ready heads when a charge of at most `v` is covered. -/
def State.pick (s : State) (sl v : Nat) (ready : Nat → Bool) : Option Nat :=
  let rs := (s.order sl).filter ready
  match rs.find? (fun st => decide (16 ≤ ((s.die sl).stream st).passed)) with
  | some st => if s.charge sl st ≤ v then some st else none
  | none => rs.find? fun st => decide (s.charge sl st ≤ v)

/-- R34, R286, R13: whether slot `sl` may issue in ac `c`: the ac is open, nothing issued in it, and no tile store copy runs. -/
def State.slotOpen (s : State) (sl c : Nat) : Bool :=
  acOpen (s.gear sl) c && (s.die sl).lastIssue.all (fun t => t / acRoot != c) && !(s.seq.copying.any fun k => k.1 == sl)

/-- R290: what the reserve of base die `b` holds for its slot number `n` in ac `c`: heads that lower slots issue in the same ac
draw first. -/
def State.reserveFor (s : State) (b c : Nat) : Nat → Nat
  | 0 => nth s.weir.reserves b 0
  | n + 1 =>
    let v := s.reserveFor b c n
    let sl := 8 * b + n
    if ¬ s.slotOpen sl c then v
    else
      match s.pick sl (s.bucket sl + v) (fun st => s.readyAt sl st c) with
      | some st => v - (s.charge sl st - s.bucket sl)
      | none => v

/-- What bucket and reserve together give slot `sl` in ac `c`, in 2^−16 units. -/
def State.budgetAt (s : State) (sl c : Nat) : Nat := s.bucket sl + s.reserveFor (sl / 8) c (sl % 8)

/-- R34, R35, R290: the stream of slot `sl` that the weir selects in ac `c`. -/
def State.selectAt (s : State) (sl c : Nat) : Option Nat :=
  if s.slotOpen sl c then s.pick sl (s.budgetAt sl c) (fun st => s.readyAt sl st c) else none

/-- R42: whether the head of `st` would issue in ac `c` but for the guard. -/
def State.wouldIssue (s : State) (sl st c : Nat) : Bool :=
  s.slotOpen sl c && (s.collision sl st).isSome
    && s.pick sl (s.budgetAt sl c) (fun k => if k = st then s.clearAt sl k c else s.readyAt sl k c) == some st

/-- R290: whether the budget alone keeps slot `sl` from an issue in ac `c`. -/
def State.budgetHolds (s : State) (sl c : Nat) : Bool :=
  s.slotOpen sl c && (List.range 16).any (fun st => s.readyAt sl st c) && (s.selectAt sl c).isNone

/-- R35, R289, R290: ac `c` passes on slot `sl` with no issue: every ready head is passed over, and an ac that the budget held back
counts in BudgetWaits. -/
def State.passSlot (s : State) (sl c : Nat) : State :=
  let d := s.die sl
  if ¬ acOpen (s.gear sl) c ∨ d.lastIssue.any (fun t => t / acRoot == c) then s
  else
    let xs := ((List.range 16).zip d.streams).map fun (k, x) =>
      if s.readyAt sl k c then { x with passed := x.passed + 1 } else x
    let held := s.budgetHolds sl c
    let s := s.setDie sl { d with streams := xs }
    if held then { s with weir := { s.weir with waited := true } }.bump64 P.budgetWaits sl 1 else s

/-- One ac passes on base die `b`: its slots' heads wait, then the next ac's refill comes (R288). -/
def State.passBase (s : State) (b : Nat) : State :=
  let c := nth s.weir.refilled b 0
  ((List.range 8).foldl (fun s k => s.passSlot (8 * b + k) c) s).refillTo b (c + 1)

/-- Whether some head of base die `b` waits on nothing but time while the budget or a tile store copy holds it. -/
def State.headsWait (s : State) (b : Nat) : Bool :=
  (List.range 8).any fun k =>
    let sl := 8 * b + k
    (List.range 16).any fun st =>
      match s.headEntry sl st with
      | none => false
      | some e =>
        nearlyReady s (s.die sl) st ((s.die sl).stream st) e && (s.collision sl st).isNone
          && (decide (s.bucket sl + nth s.weir.reserves b 0 < s.charge sl st) || s.seq.copying.any fun c => c.1 == sl)

/-- The ac up to now pass on base die `b`, one by one while heads wait. A covered head that no command has issued is not passed over
meanwhile (DESIGN CHOICE, assumption log 82). -/
def State.passAcs (b : Nat) : Nat → State → State
  | 0, s => s
  | n + 1, s => if s.headsWait b then State.passAcs b n (s.passBase b) else s

/-- R288 to R290: base die `b` up to now. -/
def State.catchUp (s : State) (b : Nat) : State := (State.passAcs b (s.ac - nth s.weir.refilled b 0) s).refill b

/-- Every base die up to now. -/
def State.catchUpAll (s : State) : State := (List.range 8).foldl State.catchUp s

/-- R287: recompute the die gears after a source changed. -/
def State.regear (s : State) : State :=
  let s := s.catchUpAll.accountGear
  let gs := (List.range 64).map s.gearOf
  let s := { s with weir := { s.weir with dieGears := gs } }
  let s := (s.setReg P.moduleGear 0 s.weir.supplyGear).setReg P.moduleGear 1 s.weir.powerGear
  ((List.range 64).zip gs).foldl (fun s (sl, g) => s.setReg P.dieGear sl g) s

/-- R294, R296: empty every bucket and reserve. -/
def State.drainBudget (s : State) : State :=
  let s := s.catchUpAll
  { s with weir := { s.weir with buckets := List.replicate 64 0, reserves := List.replicate 8 0 } }

/-- The next ac comes on the die of slot `sl`. -/
def State.nextAc (s : State) (sl : Nat) : State := (s.reach (acRoot * (s.ac + 1))).catchUp (sl / 8)

/-- The clock at the start of an ac, with the base die of slot `sl` settled. -/
def State.atAc (s : State) (sl : Nat) : State := (s.reach (acRoot * ceilDiv s.clock.now acRoot)).catchUp (sl / 8)

/-- R33 to R35, R290: ac pass until a head of slot `sl` issues, or that of `st` would but for the guard: at most `n` ac. -/
def State.seek (sl st : Nat) : Nat → State → State
  | 0, s => s
  | n + 1, s => if (s.selectAt sl s.ac).isSome || s.wouldIssue sl st s.ac then s else State.seek sl st n (s.nextAc sl)

/-- R35: ac pass until the head of `st` is due, while no head of slot `sl` issues: at most `n` ac. -/
def State.awaitDue (sl st : Nat) : Nat → State → State
  | 0, s => s
  | n + 1, s =>
    if 16 ≤ ((s.die sl).stream st).passed ∨ (s.selectAt sl s.ac).isSome then s else State.awaitDue sl st n (s.nextAc sl)

/-- No head that waits on nothing but time waits for more ac: its unit becomes idle, an ac opens, and refill covers the largest
charge. With no refill only a covered head issues. -/
def State.seekBound (s : State) (sl e : Nat) : Nat :=
  let r := nth s.weir.rates (s.gear sl) 0
  (unitTime (s.die sl) e / acRoot - s.ac) + 64 + (if r = 0 then 0 else ceilDiv (4095 * 2 ^ 16) r)

end Sys2Proof.Machine
end

