-- ==== Sys2Proof/Machine/Issue.lean ====
section
/-! DEFINITION. The issue of a stream's head (R29, R34 to R36, R42, R43, R175), loops (R27), the raise of tokens (R30 to R32), and
the accounting of every ac to a phase (R282). -/

namespace Sys2Proof.Machine

/-- R282: the bucket that ac `c` of slot `sl` belongs to, as things stand. -/
def State.phaseOf (s : State) (sl c : Nat) : Nat :=
  let d := s.die sl
  match d.flight with
  | f :: _ => enPhase f.entry
  | [] =>
    if ¬ s.seq.opened ∨ d.streams.all (·.ended) then 18
    else if (List.range 16).any fun st => s.readyAt sl st c then 16
    else 17

/-- R282: account the ac of slot `sl` up to now. The first of them may see a raise or a completion that readiness does not see yet
(R31). -/
def State.account (s : State) (sl : Nat) : State :=
  let s := s.catchUp (sl / 8)
  let d := s.die sl
  let n := s.ac - d.phaseAt
  if n = 0 ∨ s.absent sl then s.setDie sl { d with phaseAt := s.ac }
  else
    ((s.bump64 P.phaseTimers (sl * 19 + s.phaseOf sl d.phaseAt) 1).bump64 P.phaseTimers
      (sl * 19 + s.phaseOf sl (d.phaseAt + 1)) (n - 1)).setDie sl { d with phaseAt := s.ac }

/-- R282 for every slot. -/
def State.accountAll (s : State) : State := (List.range 64).foldl State.account s

/-- R42, R43: count a collision once per held entry, and fill the guard record when it is not valid. -/
def State.recordCollision (s : State) (sl st : Nat) (f : Flight) (hz : Nat) (r : Res) : State :=
  let d := s.die sl
  let x := d.stream st
  if x.held then s
  else
    let s := (s.setDie sl (d.setStream st { x with held := true })).bump64 P.guardCollisions sl 1
    let p := P.guardRecord + sl
    if bit (s.val p) 23 then s
    else
      let rec' := sl + 2 ^ 6 * st + 2 ^ 10 * f.stream + 2 ^ 14 * hz + 2 ^ 16 * r.code.1 + 2 ^ 23
        + 2 ^ 24 * (r.code.2 % 2 ^ 40) + 2 ^ 64 * (x.head % 2 ^ 32) + 2 ^ 96 * (s.step % 2 ^ 32)
      (s.setVal p rec').raiseEvent 7 0x01 (srcSlot sl) r.code.2 0

/-- R27: after the last body entry of the innermost loops ends at index `i`, stride and return, or restore and leave. -/
def loopAdvance : Nat → Stream → Nat → Stream
  | 0, x, i => { x with head := i + 1 }
  | n + 1, x, i =>
    match x.loops with
    | [] => { x with head := i + 1 }
    | f :: fs =>
      if f.last ≠ i then { x with head := i + 1 }
      else if f.left = 0 then
        loopAdvance n { x with loops := fs, x := f.saved ++ x.x.drop 3 } i
      else
        let st (k : Nat) := signedOf 20 (nth x.strides (3 * f.level + k) 0)
        let xs := (List.range 3).map fun k => wrapInt 40 (((nth x.x k 0 : Nat) : Int) + st k)
        { x with head := f.first, x := xs ++ x.x.drop 3, loops := { f with left := f.left - 1 } :: fs }

/-- What the meaning of an opcode adds to an issue: the state with its unit occupied, when and how the entry completes,
and what its completion makes visible. -/
structure Issued where
  state   : State
  due     : Nat
  kind    : FlightKind := .timed
  effects : List Effect := []
  ready   : Bool := true
  deriving DecidableEq, Repr

/-- What an opcode's meaning sees of the issue. -/
structure Ctx where
  sl     : Nat
  st     : Nat
  index  : Nat
  entry  : Nat
  x      : List Nat
  flight : Nat
  now    : Nat
  deriving DecidableEq, Repr

/-- R61, R64: the identity of an entry as a writer. -/
def Ctx.writer (c : Ctx) (s : State) (array : Nat) : Writer :=
  { source := 0, slot := c.sl, array := array, opcode := enOpcode c.entry, stamp := s.step
    setId := s.val P.activeSetId, entry := c.index }

/-- The due time `n` ac after the issue. -/
def Ctx.after (c : Ctx) (n : Nat) : Nat := c.now + acRoot * n

/-- R35: every other ready head is passed over in the ac of an issue. -/
def State.passOver (s : State) (sl st c : Nat) : State :=
  let d := s.die sl
  let xs := ((List.range 16).zip d.streams).map fun (k, x) =>
    if k ≠ st ∧ s.readyAt sl k c then { x with passed := x.passed + 1 } else x
  s.setDie sl { d with streams := xs }

/-- What the meaning of entry `e`, the head of stream `st`, sees of its issue. -/
def State.issueCtx (s : State) (sl st e : Nat) : Ctx :=
  let d := s.die sl
  let x := d.stream st
  { sl := sl, st := st, index := x.head, entry := e, x := x.x, flight := d.nextId, now := s.clock.now }

/-- A die whose stream `st` issues entry `e` at ROOT cycle `t`: the awaited tokens are taken (R29), the stream has not been passed
over, and the stall time begins anew. -/
def Die.takeIssue (d : Die) (st e t : Nat) : Die :=
  { d.setStream st { d.stream st with passed := 0, held := false } with
    tokens := (enWaits e).foldl (fun ts k => ts.set k (nth ts k 0 - 1)) d.tokens
    nextId := d.nextId + 1, lastIssue := some t, lastAct := t, stallTold := false }

/-- What an issue does before its meaning: the ac is accounted, the other ready heads are passed over, the charge is debited and
the entry counted in its phase (R29, R34, R35, R282, R290). -/
def State.prepareIssue (s : State) (sl st e : Nat) : State :=
  let s := (s.account sl).passOver sl st s.ac
  let s := (s.debit sl (enEnergy e)).bump64 P.phaseEntries (sl * 16 + enPhase e) 1
  s.setDie sl ((s.die sl).takeIssue st e s.clock.now)

/-- A die that puts an entry into flight and moves the head of its stream on (R27). -/
def Die.launch (d : Die) (st index : Nat) (f : Flight) : Die :=
  let x := d.stream st
  { d.setStream st (if enOpcode f.entry = 0x04 then { x with head := index + 1 } else loopAdvance 8 x index) with
    flight := d.flight ++ [f] }

/-- The entry in flight of an issue; `cold` are the pages that a Demand load must fill before its unit starts. -/
def Ctx.flightOf (c : Ctx) (fp : List Res × List Res) (step : Nat) (cold : List Nat) (r : Issued) : Flight :=
  { id := c.flight, stream := c.st, index := c.index, entry := c.entry, issued := c.now, due := r.due, step := step
    reads := fp.1, writes := fp.2, effects := r.effects, kind := r.kind, ready := r.ready, cold := cold, x := c.x }

/-- Opcodes that take their place in their unit at issue, and their operands when a Demand load brings them: MMA in the array queue
(R89), COLL in the sequence of its group (R239). -/
def queuesCold (e : Nat) : Bool := enOpcode e == 0x10 || enOpcode e == 0x41

/-- R36, R175: start the entry's unit, or begin the loads it waits for. -/
def State.startUnit (s : State) (c : Ctx) (cold : List Nat) (act : State → Ctx → Issued) : Issued :=
  if cold = [] ∨ queuesCold c.entry then act (s.startLoads cold) c
  else { state := s.startLoads cold, due := c.after 1, ready := false }

/-- Issue the head of stream `st` with the meaning `act`, its conditions having been met (R29, R34): tokens are taken, the
charge is debited, the entry enters flight with its footprint, and the head moves on. -/
def State.issueNow (s : State) (sl st e : Nat) (act : State → Ctx → Issued) : State :=
  let c := s.issueCtx sl st e
  let fp := s.footprintOf (s.die sl) ((s.die sl).stream st) e
  let v := s.prepareIssue sl st e
  let cold := v.unloaded (touchedTiles fp.1)
  let r := v.startUnit c cold act
  r.state.setDie sl ((r.state.die sl).launch st c.index (c.flightOf fp v.step cold r))

/-- R33 to R35, R42, R290: the head of stream `st` of slot `sl` issues, if its entry satisfies `op`, in the first ac from now on in
which the weir selects it. Where the guard holds it at that moment, the collision is recorded. Where another head issues first, or
the head waits on more than time, nothing happens. -/
def State.tryIssue (s : State) (sl st : Nat) (op : Nat → Bool) (act : State → Ctx → Issued) : State :=
  match s.headEntry sl st with
  | none => s
  | some e =>
    if ¬ op e ∨ ¬ nearlyReady s (s.die sl) st ((s.die sl).stream st) e then s
    else
      let u := State.seek sl st (s.seekBound sl e) (s.atAc sl)
      if u.selectAt sl u.ac = some st then u.issueNow sl st e act
      else if u.wouldIssue sl st u.ac then
        match u.collision sl st with
        | some (f, hz, r) => u.recordCollision sl st f hz r
        | none => s
      else s

/-- Add to a token, saturating at 255 (R30). -/
def State.addToken (s : State) (sl t n : Nat) : State :=
  let s := s.account sl
  let d := s.die sl
  let v := d.token t + n
  let fresh := (t, s.ac, min v 255 - d.token t) :: d.raised.filter fun r => decide (s.ac ≤ r.2.1)
  let s := s.setDie sl { d with tokens := d.tokens.set t (min v 255), raised := fresh }
  if v > 255 then s.bump32 P.tokenSaturations sl 1 else s

/-- R32: a raise that crossed a die: applied for the current step, held for a later one, discarded for an earlier one. -/
def State.applyRaise (s : State) (r : HeldRaise) : State :=
  if r.step = s.step then s.addToken r.slot r.token r.count
  else if r.step > s.step then
    { s with seq := { s.seq with heldRaises := s.seq.heldRaises ++ [r] } }
  else s.bump32 P.staleRaises r.slot 1

end Sys2Proof.Machine
end

