-- ==== Sys2Proof/Machine/RiffleCapture.lean ====
section
/-! DEFINITION. Which accumulator sets the riffle samples (R270), what it captures of them (R271) and which arrays check
them (R272). -/

namespace Sys2Proof.Machine

/-- The sampled offset o(w) of a window (R270). -/
def riffleOffset (seed sl a w rate : Nat) : Nat :=
  crc64 (leBytes 8 seed ++ leBytes 1 sl ++ leBytes 1 a ++ leBytes 8 w) % rate

/-- R270: whether set number `d` of array (sl, a) is sampled. -/
def State.sampled (s : State) (sl a d : Nat) : Bool :=
  let rate := s.val P.riffleRate
  rate != 0 && d == (d / rate) * rate + riffleOffset (s.val P.riffleSeed) sl a (d / rate) rate

/-- Capture buffer of a base die, in bytes (R271). -/
def captureLimit : Nat := 32 * 2 ^ 20

/-- Bytes of one MMA's operands and their sidecars. -/
def MmaJob.captureBytes (j : MmaJob) : Nat := 16384 * j.fmtA.bytes + 16384 * j.fmtB.bytes + 512

/-- Bytes in the capture buffer of base die `b` (0x5051.07). -/
def State.captureInUse (s : State) (b : Nat) : Nat :=
  let checks := (s.riffle.checks.filter fun c => c.slot / 8 == b).map (·.bytes)
  let caps := (List.range 8).flatMap fun k =>
    let d := s.die (8 * b + k)
    [d.array0, d.array1].filterMap fun a => a.capture.map (·.bytes)
  (checks ++ caps).foldl (· + ·) 0

/-- Riffle verdict counts (0x5051.01) and reasons of DROPPED (0x5051.02): Buffer 0, Mode 1, Mark 2, Capture 3. -/
def State.dropCheck (s : State) (reason : Nat) : State :=
  (s.bump64 P.verdicts 4 1).bump64 P.droppedReasons (reason % 4) 1

/-- R271: capture an MMA whose first pass is added into a sampled set. -/
def captureMma (inUse : Nat) (cap : RiffleCap) (j : MmaJob) : RiffleCap :=
  match cap.dropped with
  | some _ => cap
  | none =>
    if inUse + j.captureBytes > captureLimit then { cap with dropped := some 0, mmas := [], bytes := 0 }
    else if j.badDigest then { cap with dropped := some 3, mmas := [], bytes := 0 }
    else { cap with mmas := cap.mmas ++ [j], bytes := cap.bytes + j.captureBytes }

/-- The compute die (position) of an array index 2 × slot + array. -/
def State.arrayDie (s : State) (ix : Nat) : Nat := 9 * (ix / 16) + s.slotPos (ix / 2)

/-- R272: whether array index `ix` may check: its slot present, not excluded, and on none of the given dies. -/
def State.mayCheck (s : State) (dies : List Nat) (ix : Nat) : Bool :=
  !s.absent (ix / 2) && !s.riffle.excluded.contains ix && !dies.contains (s.arrayDie ix)

/-- The arrays of base die `b` in rotation order after position `pos`. -/
def rotationFrom (b pos : Nat) : List Nat := (List.range 16).map fun k => 16 * b + (pos + 1 + k) % 16

/-- R272: the arrays that could check a sample of base die `b`, in order: its own rotation, then those of the next base
dies, each after the position it keeps. -/
def State.checkOrder (s : State) (b : Nat) : List Nat :=
  (List.range 8).flatMap fun k => rotationFrom ((b + k) % 8) (nth s.riffle.rotation ((b + k) % 8) 15)

/-- R272: checker and arbiter of a sample of array (sl, a). -/
def State.chooseCheckers (s : State) (sl : Nat) : Option (Nat × Nat) :=
  let pd := 9 * (sl / 8) + s.slotPos sl
  let order := s.checkOrder (sl / 8)
  match order.find? (s.mayCheck [pd]) with
  | none => none
  | some ck =>
    let after := rotationFrom (ck / 16) (ck % 16) ++ (order.filter fun i => i / 16 != ck / 16)
    match after.find? (s.mayCheck [pd, s.arrayDie ck]) with
    | some ar => some (ck, ar)
    | none => some (ck, ck)

/-- R271, R272: at the issue of the DRAIN of a sampled set, its capture becomes a check, or ends DROPPED. While an earlier
DRAIN waits for its swap, the array's capture is of that DRAIN's set. -/
def State.startCheck (s : State) (sl a st index flight : Nat) (conv : ConvIn) (convPoi : Bool) : State :=
  let x := (s.die sl).array a
  let cap := if x.drains.isEmpty then x.capture else none
  match cap.bind (·.dropped) with
  | some r => s.dropCheck r
  | none =>
    match s.chooseCheckers sl with
    | none => s.dropCheck 0
    | some (ck, ar) =>
      let b := sl / 8
      let c : Check :=
        { id := s.riffle.nextId, slot := sl, array := a, stream := st, entry := index, flight := flight, stamp := s.step
          checker := ck, arbiter := ar, stage := 0, mmas := [], conv := conv, set := {}, tile := none, bytes := 0
          errs := {}, checkerPos := s.arrayDie ck, position := 9 * b + s.slotPos sl, accumSeed := s.val P.accumSeed, convPoi := convPoi }
      { s with riffle := { s.riffle with
          checks := s.riffle.checks ++ [c], nextId := s.riffle.nextId + 1
          rotation := s.riffle.rotation.set (ck / 16) (ck % 16) } }

/-- R271: at the swap, the captured operands and the set pass to the check; a marked set or a dropped capture ends it. -/
def State.captureSwap (s : State) (sl a flight : Nat) (cap : RiffleCap) (set : AccSet) (fo : Fmt) : State :=
  match s.riffle.checks.find? (fun c => c.slot == sl && c.array == a && c.flight == flight) with
  | none => s
  | some c =>
    let rest := s.riffle.checks.filter fun k => k.id != c.id
    let extra := 16384 * (if set.half then 2 else 4) + 16384 * fo.bytes + 256
    let reason : Option Nat :=
      match cap.dropped with
      | some r => some r
      | none =>
        if set.poison ∨ set.mismatch then some 2
        else if s.captureInUse (sl / 8) + extra > captureLimit then some 0
        else none
    match reason with
    | some r => { s with riffle := { s.riffle with checks := rest } }.dropCheck r
    | none =>
      let c := { c with mmas := cap.mmas, set := set, bytes := cap.bytes + extra }
      { s with riffle := { s.riffle with checks := rest ++ [c] } }

/-- R271: the drained tile is captured as written, and the check can begin. -/
def State.captureTile (s : State) (sl a flight : Nat) (t : Tile) : State :=
  { s with riffle := { s.riffle with checks := s.riffle.checks.map fun c =>
      if c.slot = sl ∧ c.array = a ∧ c.flight = flight then { c with tile := some t, stage := 1 } else c } }

end Sys2Proof.Machine
end

