-- ==== Sys2Proof/Machine/Arrays.lean ====
section
/-! DEFINITION. The matrix arrays: MODE, MMA and DRAIN at issue (R24, R83, R97), the passes (R37, R72 to R79, R84 to R87),
the accumulator sets (R88 to R96) and output conversion (R98 to R104). -/

namespace Sys2Proof.Machine

/-- Array `a` of slot `sl`. -/
def State.array (s : State) (sl a : Nat) : ArrayState := (s.die sl).array a
/-- Replace array `a` of slot `sl`. -/
def State.setArray (s : State) (sl a : Nat) (x : ArrayState) : State := s.setDie sl ((s.die sl).setArray a x)

/-- Half of a mode register (Table 2-4). -/
def modeHalf (m : Nat) : Bool := bit m 7

/-- MODE: the mode register and ConvReg (R24). A change of Half waits in the array queue for HALF_CONVERSION. -/
def modeAct (s : State) (c : Ctx) : Issued :=
  let a := enM c.entry 0 1
  let x := s.array c.sl a
  let m := enMod c.entry
  let h := modeHalf m
  let halves := if h = modeHalf x.mode then x.halves else x.halves ++ [(x.nextOrd, h)]
  { state := s.setArray c.sl a
      { x with mode := m, convReg := regOperand (enD c.entry), halves := halves, nextOrd := x.nextOrd + 1 }
    due := c.after 1 }

/-- Whether a stored tile's digest does not match its content (the riffle's Capture reason). -/
def State.badDigest (s : State) (id : Nat) : Bool :=
  match s.place id with
  | .mapped i c | .viaAlias i c => (s.tile i).computeDigest (classBytes c) != (s.tile i).digest
  | .unmapped | .hollow => false

/-- R68, R83, R36: an MMA reads its operands. -/
def State.fillMma (s : State) (sl : Nat) (j : MmaJob) : MmaJob × State :=
  let (late, s) := s.operandDelay sl [j.idA, j.idB]
  let (ta, s) := s.readOperand sl j.idA j.fmtA
  let (tb, s) := s.readOperand sl j.idB j.fmtB
  let sample := s.val P.riffleRate != 0
  ({ j with
      a := ta.elems, sa := ta.scales, b := tb.elems, sb := tb.scales, poison := ta.poison || tb.poison
      mism := ta.mismatch || tb.mismatch, badDigest := sample && (s.badDigest j.idA || s.badDigest j.idB)
      late := j.late + late, cold := false }, s)

/-- MMA: the operands and the mode are captured at issue (R24, R68, R83); operands that a Demand load must bring are read when it
has (R175). -/
def mmaAct (s : State) (c : Ctx) : Issued :=
  let a := enM c.entry 0 1
  let m := (s.array c.sl a).mode
  let fa := Fmt.ofCodeD (bits m 1 3)
  let fb := Fmt.ofCodeD (bits m 4 3)
  let idA := tileOperand c.x (enA c.entry)
  let idB := tileOperand c.x (enB c.entry)
  let cold := !(s.unloaded [idA, idB]).isEmpty
  let j : MmaJob :=
    { flight := c.flight, ord := (s.array c.sl a).nextOrd, issued := c.now, stream := c.st, index := c.index, step := s.step
      fmtA := fa, fmtB := fb, half := modeHalf m, idA := idA, idB := idB, a := [], sa := [], b := [], sb := []
      poison := false, mism := false, cold := true }
  let (j, s) := if cold then (j, s) else s.fillMma c.sl j
  let x := s.array c.sl a
  { state := s.setArray c.sl a { x with mmas := x.mmas ++ [j], nextOrd := x.nextOrd + 1 }
    due := c.after 1, kind := .mma a, ready := false }

/-- The number that the set drained by the next DRAIN has (R270): swaps made and swaps that wait. -/
def ArrayState.nextSet (x : ArrayState) : Nat := x.swaps + x.drains.length

/-- Whether an MMA has been or will be added into the set that the next DRAIN drains. -/
def ArrayState.nextFed (x : ArrayState) : Bool :=
  let lastDrain := (x.drains.getLast?).map (·.ord)
  let later (o : Nat) : Bool := match lastDrain with | some k => decide (k < o) | none => true
  x.mmas.any (fun j => later j.ord) || (match x.running with | some (j, _, _) => later j.ord | none => false)
    || x.tree.any (fun p => later p.job.ord) || (lastDrain.isNone && decide (0 < (x.set x.active).mmas))

/-- DRAIN: the conversion inputs are captured at issue (R97). The DRAIN of a sampled set starts its check (R271). -/
def drainAct (s : State) (c : Ctx) : Issued :=
  let a := enM c.entry 0 1
  let x := s.array c.sl a
  let d := s.die c.sl
  let m := x.mode
  let ci : ConvIn :=
    { fmtOut := Fmt.ofCodeD (bits m 8 3), autoScale := bit m 11, biasEn := bit m 12, clipEn := bit m 13
      reg := d.vreg x.convReg }
  let j : DrainJob :=
    { flight := c.flight, ord := x.nextOrd, issued := c.now, dest := tileOperand c.x (enD c.entry), conv := ci
      convPoi := d.vpoison x.convReg, writer := c.writer s a }
  let s := if s.sampled c.sl a x.nextSet && x.nextFed then s.startCheck c.sl a c.st c.index c.flight ci (d.vpoison x.convReg)
    else s
  { state := s.setArray c.sl a { x with drains := x.drains ++ [j], nextOrd := x.nextOrd + 1 }
    due := c.after 1, kind := .drain a, ready := false }

/-- MODE. -/
def execMode (sl : Slot) (st : StreamIx) (s : State) : Host.Outcome State Fault Refusal :=
  .next (s.tryIssue sl st (fun e => enOpcode e == 0x08) modeAct)
/-- MMA. -/
def execMma (sl : Slot) (st : StreamIx) (s : State) : Host.Outcome State Fault Refusal :=
  .next (s.tryIssue sl st (fun e => enOpcode e == 0x10) mmaAct)
/-- DRAIN. -/
def execDrain (sl : Slot) (st : StreamIx) (s : State) : Host.Outcome State Fault Refusal :=
  .next (s.tryIssue sl st (fun e => enOpcode e == 0x11) drainAct)

/-- R38, R88: the time at which the first waiting DRAIN swaps, once every earlier MMA's passes have entered: 1 ac after its issue,
24 ac after the last of those passes, and when the conversion of the other set reads its last row. -/
def ArrayState.swapTime (x : ArrayState) (j : DrainJob) : Nat :=
  let passes := ((x.ends.filter fun e => decide (e.1 < j.ord)).map fun e => e.2 + 24 * acRoot).foldl max 0
  max (j.issued + acRoot) (max passes ((x.lastSwap.map (· + 127 * acRoot)).getD 0))

/-- R37: the time at which the first pass of an MMA may enter: operand set-up, the ac after the last pass, and 23 ac before the
swap of every DRAIN issued before it. None while an earlier DRAIN waits for another's swap, or a Demand load for an operand. -/
def ArrayState.firstPassTime (x : ArrayState) (j : MmaJob) : Option Nat :=
  let t := max (j.issued + 36 * acRoot + j.late) (max ((x.lastEnter.map (· + acRoot)).getD 0)
    ((x.lastSwap.map (· - 23 * acRoot)).getD 0))
  if j.cold then none
  else
    match x.drains.filter (fun d => decide (d.ord < j.ord)) with
    | [] => some t
    | [d] => some (max t (x.swapTime d - 23 * acRoot))
    | _ => none

/-- Row `i`'s pass sums over the 128 lanes (R72, R75). -/
def passRow (j : MmaJob) (i : Nat) : List PassSum :=
  let ra := nth j.a i []
  let sa := nth j.sa i 0x7F
  (j.b.zip j.sb).map fun (rb, sb) => passSum j.fmtA j.fmtB sa sb ra rb

/-- R87: the operand-pattern hash of row i of A and row j of B. -/
def patternHash (j : MmaJob) (i l : Nat) : Nat :=
  crc64 (leBytes (128 * j.fmtA.bytes) (packRow j.fmtA.bytes (nth j.a i []))
    ++ leBytes (128 * j.fmtB.bytes) (packRow j.fmtB.bytes (nth j.b l []))
    ++ leBytes 1 (nth j.sa i 0) ++ leBytes 1 (nth j.sb l 0))

/-- Whether a kind is enabled in OffenderMask (Table 4-7). -/
def State.kindOn (s : State) (k : Nat) : Bool := k != 0 && bit (s.val P.offenderMask) (k - 1)

/-- Fields of an offender latch record (Table 4-5). -/
structure OffenderRec where
  kind : Nat
  slot : Nat
  array : Nat
  stream : Nat
  row : Nat
  col : Nat
  product : Nat
  position : Nat
  ordinal : Nat
  opA : Nat
  opB : Nat
  scaleA : Nat
  scaleB : Nat
  entry : Nat
  step : Nat
  hash : Nat
  deriving DecidableEq, Repr

/-- The 256 bits of a record, Valid set. -/
def OffenderRec.word (r : OffenderRec) : Nat :=
  1 + 2 * (r.kind % 8) + 2 ^ 4 * (r.slot % 64) + 2 ^ 10 * (r.array % 2) + 2 ^ 11 * (r.stream % 16) + 2 ^ 15 * (r.row % 128)
    + 2 ^ 22 * (r.col % 128) + 2 ^ 29 * (r.product % 256) + 2 ^ 37 * (r.position % 16) + 2 ^ 48 * min r.ordinal 0xFFFF
    + 2 ^ 64 * (r.opA % 2 ^ 16) + 2 ^ 80 * (r.opB % 2 ^ 16) + 2 ^ 96 * (r.scaleA % 256) + 2 ^ 104 * (r.scaleB % 256)
    + 2 ^ 128 * (r.entry % 2 ^ 32) + 2 ^ 160 * (r.step % 2 ^ 32) + 2 ^ 192 * (r.hash % 2 ^ 64)

/-- R85: the first event that a latch meets in an ac is kept for a rearm in the same ac. -/
def State.noteLatch (s : State) (ix word : Nat) (missed : Bool) : State :=
  let old := s.seq.latched.filter fun e => e.ac == s.ac
  if old.any (fun e => e.latch == ix) then s
  else { s with seq := { s.seq with latched := old ++ [{ latch := ix, ac := s.ac, word := word, missed := missed }] } }

/-- R85: offer an event to the latch of array (sl, a): it fills an armed latch, or counts in OffenderMissed. -/
def State.offerLatch (s : State) (sl a : Nat) (r : OffenderRec) : State :=
  let ix := 2 * sl + a
  let full := bit (s.val (P.offenderLatch + ix)) 0
  if ¬ s.kindOn r.kind then s
  else
    let s := s.noteLatch ix r.word full
    if full then s.bump32 P.offenderMissed ix 1 else s.setVal (P.offenderLatch + ix) r.word

/-- R85, R325: software writes 1 to Valid of latch `ix`. An event of the same ac wins: the record is its, and Valid reads 1. -/
def State.rearmLatch (s : State) (ix : Nat) : State :=
  let p := P.offenderLatch + ix
  match s.seq.latched.find? fun e => e.latch == ix && e.ac == s.ac with
  | none => s.setVal p (setBits (s.val p) 0 1 0)
  | some e =>
    let s := s.setVal p e.word
    if e.missed then s.setReg P.offenderMissed ix (s.reg P.offenderMissed ix - 1) else s

/-- The events of one lane of a pass (R78, R85): its kind with the offending product. -/
def laneEvent (p : PassSum) : Option (Nat × Nat) :=
  if p.kind ≠ 0 then some (p.kind, p.product) else if p.loss then some (4, p.lossProd) else none

/-- Offer the events of a pass in ascending lane. -/
def State.offerPass (s : State) (sl a : Nat) (j : MmaJob) (i : Nat) (ps : List PassSum) : State :=
  ((List.range 128).zip ps).foldl (fun s (l, p) =>
    match laneEvent p with
    | none => s
    | some (k, prod) =>
      if ¬ s.kindOn k then s
      else
        s.offerLatch sl a
          { kind := k, slot := sl, array := a, stream := j.stream, row := i, col := l, product := prod
            position := s.slotPos sl, ordinal := j.before
            opA := if prod = 0xFF then 0 else nth (nth j.a i []) prod 0
            opB := if prod = 0xFF then 0 else nth (nth j.b l []) prod 0
            scaleA := nth j.sa i 0, scaleB := nth j.sb l 0, entry := j.index, step := j.step
            hash := patternHash j i l }) s

/-- R84: the counters of a pass. -/
def State.countPass (s : State) (sl : Nat) (ps : List PassSum) : State :=
  let n (f : PassSum → Bool) := (ps.filter f).length
  (((s.bump64 P.passes sl 1).bump64 P.invColumns sl (n fun p => p.val.isNan)).bump64 P.invCreated sl
    (n fun p => p.kind == 2 || p.kind == 3)).bump64 P.lossColumns sl (n (·.loss))

/-- The MMA whose next pass enters: the running one, or the first in the queue with its ordinal in its set (R37). -/
def ArrayState.nextMma (x : ArrayState) : Option (MmaJob × Nat × Nat) :=
  match x.running with
  | some r => some r
  | none =>
    match x.mmas with
    | [] => none
    | j :: _ =>
      let before := match x.drains.find? (fun d => decide (d.ord < j.ord)) with
        | some _ => 0
        | none => (x.set x.active).mmas
      (x.firstPassTime j).map fun t => ({ j with before := before }, 0, t)

/-- PASS_ENTER (R37, R72, R74 to R79, R84 to R87): the next pass enters the tree at its ac. Passes that have left the tree
by then are added first. -/
def passEnterStep (s : State) (sl a : Nat) : State :=
  let x := s.array sl a
  match x.nextMma with
  | none => s
  | some (j, i, t0) =>
    let t := t0 + acRoot * (if j.half then i / 2 else i)
    if x.tree.any (fun p => decide (p.enter + 24 * acRoot < t)) then s
    else
      let s := s.reach t
      let ps := passRow j i
      let s := (s.countPass sl ps).offerPass sl a j i ps
      let p : TreePass :=
        { job := j, row := i, enter := t, first := i == 0, last := i == 127, sums := ps.map (·.val)
          invs := ps.map fun q => q.kind != 0, losses := ps.map (·.loss) }
      let x := s.array sl a
      s.setArray sl a { x with
        mmas := if i = 0 then x.mmas.drop 1 else x.mmas
        running := if i = 127 then none else some (j, i + 1, t0)
        tree := x.tree ++ [p], lastEnter := some t
        ends := if i = 127 then x.ends ++ [(j.ord, t)] else x.ends }

/-- PASS_ENTER. -/
def execPassEnter (sl : Slot) (a : ArrayIx) (s : State) : Host.Outcome State Fault Refusal :=
  .next (passEnterStep s sl a)

/-- R79: the exponent by which the pass sum of (i, l) is rebased onto the scales the set captured. -/
def rebase (cap : List Nat × List Nat) (j : MmaJob) (i l : Nat) : Int :=
  let ca := nth cap.1 i 0x7F
  let cb := nth cap.2 l 0x7F
  if ca = 0xFF ∨ cb = 0xFF then 0
  else ((nth j.sa i 0x7F : Nat) : Int) - (ca : Int) + (((nth j.sb l 0x7F : Nat) : Int) - (cb : Int))

/-- R79: whether any element of an MMA is rebased. -/
def anyRebase (cap : List Nat × List Nat) (j : MmaJob) : Bool :=
  (List.range 128).any fun i => (List.range 128).any fun l => rebase cap j i l != 0

/-- R79, R81, R83: the first pass of an MMA meets the set: scales captured, marks ORed, the MMA counted. -/
def AccSet.meet (v : AccSet) (j : MmaJob) : AccSet :=
  { v with captured := some (v.captured.getD (j.sa, j.sb)), poison := v.poison || j.poison
           mismatch := v.mismatch || j.mism, mmas := v.mmas + 1 }

/-- The draw of Ripple for element (i, l) of an MMA (R90, R93). -/
def accDraw (seed : Nat) (j : MmaJob) (i l : Nat) : Nat :=
  ripple seed j.step j.idA (2 ^ 63 + j.idB * 2 ^ 14 + (128 * i + l))

/-- R81, R90: add one lane of a pass into a set; the flags the addition returned. -/
def addLane (seed : Nat) (cap : List Nat × List Nat) (p : TreePass) (v : AccSet) (l : Nat) (sum : Val) (inv loss : Bool) :
    AccSet × Nat :=
  let k := 128 * p.row + l
  let a := Sparse.get zeros v.acc k
  let r := if v.half then accDraw seed p.job p.row l else 0
  let (x, f) := accumulate a (sum.shift (rebase cap p.job p.row l)) v.half r
  let bitsNew := Nat.lor (Nat.lor f (b2n inv)) (if loss then flagLOSS else 0)
  ({ v with acc := Sparse.put zeros v.acc k x
            lanes := Sparse.put zeros v.lanes l (Nat.lor (Sparse.get zeros v.lanes l) bitsNew)
            lossCount := min (v.lossCount + b2n loss) 0xFFFF }, f)

/-- The fold of `addLane` over the lanes of a pass, with the counts of OVF, UNF and INV. -/
def addPass (seed : Nat) (p : TreePass) (v : AccSet) : AccSet × Nat × Nat × Nat :=
  let cap := v.captured.getD ([], [])
  ((List.range 128).zip (p.sums.zip (p.invs.zip p.losses))).foldl (fun acc q =>
    let (v, o, u, n) := acc
    let (l, sum, inv, loss) := q
    let (v, f) := addLane seed cap p v l sum inv loss
    (v, o + b2n (Nat.land f flagOVF != 0), u + b2n (Nat.land f flagUNF != 0), n + b2n (Nat.land f flagINV != 0)))
    (v, 0, 0, 0)

/-- Mark an entry in flight as having reached its completion at ROOT cycle `t`. -/
def State.flightReady (s : State) (sl id t : Nat) : State :=
  let d := s.die sl
  s.setDie sl { d with flight := d.flight.map fun f => if f.id = id then { f with ready := true, due := t } else f }

/-- R270, R271: the capture that an MMA's first pass begins or extends. -/
def State.captureFor (s : State) (sl a : Nat) (x : ArrayState) (j : MmaJob) : Option RiffleCap :=
  let v := x.set x.active
  match x.capture with
  | some c => some (captureMma (s.captureInUse (sl / 8)) c j)
  | none =>
    if v.mmas = 0 ∧ s.sampled sl a x.swaps then
      some (captureMma (s.captureInUse (sl / 8)) { set := x.active, mmas := [], bytes := 0, dropped := none } j)
    else none

/-- PASS_SUM_ADD (R79, R81, R90, R91, R96): the oldest pass leaves the tree, 24 ac after it entered, and is added into the
active set, every earlier DRAIN having swapped and every earlier change of Half having been made (R80, R89). -/
def passSumAddStep (s : State) (sl a : Nat) : State :=
  let x := s.array sl a
  match x.tree with
  | [] => s
  | p :: rest =>
    if x.drains.any (fun d => decide (d.ord < p.job.ord)) ∨ x.halves.any (fun h => decide (h.1 < p.job.ord)) then s
    else
      let s := s.reach (p.enter + 24 * acRoot)
      let v := x.set x.active
      let rebased := p.first && (match v.captured with | some c => anyRebase c p.job | none => false)
      let cap := if p.first then s.captureFor sl a x p.job else x.capture
      let v := if p.first then v.meet p.job else v
      let (v, o, u, n) := addPass (s.val P.accumSeed) p v
      let s := s.setArray sl a ({ x with tree := rest, capture := cap }.setSet x.active v)
      let s := if rebased then s.bump64 P.scaleRebases sl 1 else s
      let s := ((s.bump64 P.accOverflows sl o).bump64 P.accUnderflows sl u).bump64 P.accInvalid sl n
      if p.last then s.flightReady sl p.job.flight (p.enter + 24 * acRoot) else s

/-- PASS_SUM_ADD. -/
def execPassSumAdd (sl : Slot) (a : ArrayIx) (s : State) : Host.Outcome State Fault Refusal :=
  .next (passSumAddStep s sl a)

/-- Whether an MMA issued before ordinal `o` has a pass yet to be added. -/
def ArrayState.mmaBefore (x : ArrayState) (o : Nat) : Bool :=
  x.mmas.any (fun j => decide (j.ord < o)) || (match x.running with | some (j, _, _) => decide (j.ord < o) | none => false)
    || x.tree.any (fun p => decide (p.job.ord < o))

/-- R24, R95: convert one set to another width: the set, and how many elements raised OVF and UNF. -/
def AccSet.toWidth (v : AccSet) (half : Bool) : AccSet × Nat × Nat :=
  if v.half = half then (v, 0, 0)
  else
    let src : Fmt := if v.half then .bf16 else .fp32
    let dst : Fmt := if half then .bf16 else .fp32
    v.acc.foldl (fun acc kv =>
      let (w, o, u) := acc
      let (x, f) := convert (decodeElem src kv.2) dst .ieee
      let l := kv.1 % 128
      let f := if half then Nat.land f 6 else 0
      ({ w with acc := Sparse.put zeros w.acc kv.1 x
                lanes := Sparse.put zeros w.lanes l (Nat.lor (Sparse.get zeros w.lanes l) f) },
        o + b2n (f == flagOVF), u + b2n (f == flagUNF))) ({ v with acc := [], half := half }, 0, 0)

/-- HALF_CONVERSION (R24, R80, R95): the active set takes the width of the first waiting MODE, every earlier pass having
been added and every earlier DRAIN having swapped. A capture of the set ends with reason Mode (R271). -/
def halfConversionStep (s : State) (sl a : Nat) : State :=
  let x := s.array sl a
  match x.halves with
  | [] => s
  | (o, h) :: rest =>
    if x.mmaBefore o ∨ x.drains.any (fun d => decide (d.ord < o)) then s
    else
      let (v, ov, un) := (x.set x.active).toWidth h
      let cap := x.capture.map fun c =>
        if c.dropped.isNone then { c with dropped := some 1, mmas := [], bytes := 0 } else c
      let s := s.setArray sl a ({ x with halves := rest, capture := cap }.setSet x.active v)
      (s.bump64 P.accOverflows sl ov).bump64 P.accUnderflows sl un

/-- HALF_CONVERSION. -/
def execHalfConversion (sl : Slot) (a : ArrayIx) (s : State) : Host.Outcome State Fault Refusal :=
  .next (halfConversionStep s sl a)

/-- DRAIN_SWAP (R38, R88, R89, R24): the sets swap and conversion of the old active set starts. The set that becomes ACTIVE
holds +0 everywhere and takes the width of the set it replaces. -/
def drainSwapStep (s : State) (sl a : Nat) : State :=
  let x := s.array sl a
  match x.drains with
  | [] => s
  | j :: rest =>
    if x.mmaBefore j.ord ∨ x.halves.any (fun h => decide (h.1 < j.ord)) then s
    else
      let t := x.swapTime j
      let s := s.reach t
      let old := x.set x.active
      let s := match x.capture with
        | some c => s.captureSwap sl a j.flight c old j.conv.fmtOut
        | none => s
      let conv : Conv := { job := j, swap := t, set := old, freed := false }
      let x' : ArrayState :=
        { x with drains := rest, active := 1 - x.active, swaps := x.swaps + 1, capture := none, lastSwap := some t
                 ends := x.ends.filter fun e => decide (j.ord < e.1)
                 convs := x.convs.map (fun c => { c with freed := true }) ++ [conv] }
      s.setArray sl a (x'.setSet (1 - x.active) { half := old.half })

/-- DRAIN_SWAP. -/
def execDrainSwap (sl : Slot) (a : ArrayIx) (s : State) : Host.Outcome State Fault Refusal :=
  .next (drainSwapStep s sl a)

/-- The rows that conversion of a set forms (R98, R101, R103): elements with flags, row scale, and whether it clamped. -/
def Conv.rows (c : Conv) : List (List (Nat × Nat) × Nat × Bool) :=
  let (sA, sB) := c.set.captured.getD (List.replicate 128 0x7F, List.replicate 128 0x7F)
  (List.range 128).map fun i =>
    let acc := (List.range 128).map fun l => Sparse.get zeros c.set.acc (128 * i + l)
    convertRow c.job.conv c.set.half acc (nth sA i 0x7F) sB

/-- R99: whether the drained tile takes the poisoned content. -/
def Conv.poisons (c : Conv) : Bool :=
  c.set.poison || (c.job.convPoi && (c.job.conv.biasEn || c.job.conv.clipEn))

/-- R82, R83, R104: the drained tile. -/
def Conv.tile (c : Conv) : Tile :=
  if c.poisons then Tile.poison c.job.writer c.job.conv.fmtOut.code
  else
    let rows := c.rows
    let lanes := orFlags ((List.range 128).map (Sparse.get zeros c.set.lanes))
    let f : Formed :=
      { fmt := c.job.conv.fmtOut, elems := rows.map fun r => r.1.map Prod.fst, flags := rows.map fun r => r.1.map Prod.snd
        scales := rows.map fun r => r.2.1
        extraFlags := Nat.lor lanes (if c.set.mismatch then flagINV else 0), lossCount := c.set.lossCount
        autoScaled := c.job.conv.autoScale }
    f.tile c.job.writer

/-- R104: the counters of rows `from'` to `to'` − 1 of a conversion. -/
def State.countRows (s : State) (sl : Nat) (c : Conv) (from' to' : Nat) : State :=
  if c.poisons then s
  else
    let rows := (c.rows.take to').drop from'
    let fl := rows.flatMap fun r => r.1.map Prod.snd
    ((s.bump64 P.convOverflows sl (countFlag flagOVF fl)).bump64 P.convUnderflows sl (countFlag flagUNF fl)).bump64
      P.scaleClamps sl (rows.filter fun r => r.2.2).length

/-- Rows that a conversion has read by ROOT cycle `t`: row i at swap + i (R38). -/
def Conv.rowsRead (c : Conv) (t : Nat) : Nat := if t < c.swap then 0 else min 128 ((t - c.swap) / acRoot + 1)

/-- R104: the rows that the conversions of an array have read up to now enter the counters. -/
def State.countReads (s : State) (sl a : Nat) : State :=
  let x := s.array sl a
  let s := x.convs.foldl (fun s c => s.countRows sl c c.counted (c.rowsRead s.clock.now)) s
  s.setArray sl a { x with convs := x.convs.map fun c => { c with counted := max c.counted (c.rowsRead s.clock.now) } }

/-- R104 for every array: a snapshot counts every row already read. -/
def State.countAllReads (s : State) : State :=
  (s.seq.dies.map Prod.fst).foldl (fun s sl => (s.countReads sl 0).countReads sl 1) s

/-- CONVERSION_END (R25, R38, R88): row 127 is read at swap + 127; the set is FREE, its lane bits, counts and marks cleared; the
tile is complete 17 ac later. A conversion that writes the poisoned content counts in Drains too (DESIGN CHOICE, assumption
log 85). -/
def conversionEndStep (s : State) (sl a : Nat) : State :=
  let x := s.array sl a
  match x.convs with
  | [] => s
  | c :: rest =>
    let s := s.reach (c.swap + 127 * acRoot)
    let other := 1 - x.active
    let x' := { x with convs := rest }
    let x' := if c.freed then x' else x'.setSet other { half := (x.set other).half }
    let s := (s.setArray sl a x').countRows sl c c.counted 128
    let t := c.tile
    let s := (s.bump64 P.drains sl 1).captureTile sl a c.job.flight t
    let d := s.die sl
    s.setDie sl { d with flight := d.flight.map fun f =>
      if f.id = c.job.flight then
        { f with effects := [.tile c.job.dest (fmtClass c.job.conv.fmtOut) 1 c.job.writer t], ready := true
                 due := c.swap + 144 * acRoot }
      else f }

/-- CONVERSION_END. -/
def execConversionEnd (sl : Slot) (a : ArrayIx) (s : State) : Host.Outcome State Fault Refusal :=
  .next (conversionEndStep s sl a)

end Sys2Proof.Machine
end

