-- ==== Sys2Proof/Machine/Held.lean ====
section
/-! DEFINITION. Parameter values as bytes (R323, R324), and the held writes of RWS parameters (R327). -/

namespace Sys2Proof.Machine

/-- Bytes of one element of parameter `p`. -/
def elemBytes (p : Nat) : Nat := ((rowOf p).map (·.bytes)).getD 1

/-- Store whole elements of parameter `p` from element `e` on. -/
def putElems (m : Sparse Nat) (p e : Nat) : List Nat → Sparse Nat
  | [] => m
  | v :: vs => putElems (Sparse.put paramDefault m (pkey p e) v) p (e + 1) vs

/-- Store bytes at an offset of parameter `p`, in whole elements (R324). -/
def putParam (m : Sparse Nat) (p off : Nat) (bytes : List Byte) : Sparse Nat :=
  let eb := max (elemBytes p) 1
  putElems m p (off / eb) ((chunks eb bytes.length bytes).map leNat)

/-- Write bytes at an offset of parameter `p`. -/
def State.putBytes (s : State) (p off : Nat) (bytes : List Byte) : State :=
  { s with params := putParam s.params p off bytes }

/-- Bytes [off, off + len) of the value of parameter `p` in a store. -/
def paramBytes (get : Nat → Nat) (p off len : Nat) : List Byte :=
  let eb := max (elemBytes p) 1
  let first := off / eb
  let n := ceilDiv (off + len) eb - first
  slice ((List.range n).flatMap fun i => leBytes eb (get (pkey p (first + i)))) (off - first * eb) len

/-- R327: the store once every write already held has been applied. -/
def State.heldParams (s : State) : Sparse Nat := s.held.foldl (fun m h => putParam m h.param h.offset h.bytes) s.params

/-- The value of element `e` of parameter `p` once every held write has been applied. -/
def State.heldReg (s : State) (p e : Nat) : Nat := Sparse.get paramDefault s.heldParams (pkey p e)

/-- Whether held and staged writes apply at once: from BootState 4 (R384; DEDUCED, assumption log 41) while no step is open
and StepGate holds the next step (R169, R327). -/
def State.gateHolds (s : State) : Bool := s.boot == 4 && !s.seq.opened && decide (s.val P.stepGate < s.step + 1)

end Sys2Proof.Machine
end

