-- ==== Sys2Proof/Machine/Lus.lean ====
section
/-! DEFINITION. What the logical units of the backwater hold (R189 to R191, R199), and the tiles that they make up. -/

namespace Sys2Proof.Machine

/-- Base die of a logical unit (R189). -/
def luBase (lu : Nat) : Nat := lu % 8

/-- What is known of a logical unit. -/
def State.lu (s : State) (x : Nat) : LuInfo := Sparse.get luDefault s.flash.lus x
/-- Replace it. -/
def State.setLu (s : State) (x : Nat) (v : LuInfo) : State :=
  { s with flash := { s.flash with lus := Sparse.put luDefault s.flash.lus x v } }

/-- Frame blocks of the backwater (R195). -/
def State.bwBlocks (s : State) : Nat := 262144 - s.val P.journalBlocks - s.val P.mirrorBlocks

/-- Whether `x` is a sidecar unit of a frame block. -/
def State.luIsSide (s : State) (x : Nat) : Bool := decide (4032 ≤ x % 4096) && decide (x / 4096 < s.bwBlocks)

/-- Whether logical unit `x` belongs to the frame of `n` granules at granule `frame` (R189). -/
def luOfFrame (frame n x : Nat) : Bool :=
  let g := frame - bwBase
  (decide (64 * g ≤ x) && decide (x < 64 * (g + n)) && decide (x % 4096 < 4032))
    || (List.range n).any fun i => luSide (g + i) == x

/-- The page in the backwater whose frame holds logical unit `x`, with its entry. -/
def State.luPage (s : State) (x : Nat) : Option (Nat × Nat) :=
  (s.mem.pages.find? fun kv =>
    let e := kv.2.toNat
    eKind e == 1 && eTier e == 3 && luOfFrame (eFrame e) (classGranules (eWidth e)) x).map fun kv => (kv.1, kv.2.toNat)

/-- The page that holds logical unit `x`, and the tiles of which `x` holds a part (R189, R201). -/
def State.luTiles (s : State) (x : Nat) : Option (Nat × List Nat) :=
  (s.luPage x).bind fun (p, e) =>
    let g := eFrame e - bwBase
    if x % 4096 < 4032 then some (p, [(x - 64 * g) / classBytes (eWidth e)])
    else if x = luSide g then some (p, List.range 64) else none

/-- The same sidecar in all 64 slots of a unit. -/
def sideUnit (t : Tile) : Nat := (List.replicate 64 (leNat t.sidecarBytes)).foldl (fun acc v => v + 2 ^ 2048 * acc) 0

/-- The poisoned content that a tile of a failed unit reads as: no writer filled its fields (R191; DESIGN CHOICE, assumption
log 89). -/
def lostTile (width : Nat) : Tile := Tile.poison { source := 0 } (classFmt width)

/-- R191: the bytes of a poisoned unit. -/
def State.poisonedUnit (s : State) (x : Nat) : Nat :=
  if s.luIsSide x then sideUnit (lostTile (((s.luPage x).map fun pe => eWidth pe.2).getD 0)) else 0

/-- R190: the bytes of an unwritten unit. -/
def State.unwrittenUnit (s : State) (x : Nat) : Nat := if s.luIsSide x then sideUnit Tile.fresh else 0

/-- What a read of logical unit `x` returns: nothing of a write that is not complete (R189 to R191). -/
def State.luContent (s : State) (x : Nat) : Nat :=
  let l := s.lu x
  if l.poisoned then s.poisonedUnit x
  else if l.written then (Sparse.get pageErased s.flash.pages l.page).dat
  else s.unwrittenUnit x

/-- The content that a write leaves over `old` (R191, R194). -/
def LuWrite.over (w : LuWrite) (old : Nat) : Nat := if w.slot < 64 then setBits old (2048 * w.slot) 2048 w.dat else w.dat

/-- Logical unit `x` once every write that has arrived is complete: whether it is poisoned, and its content (R199). -/
def State.luSeen (s : State) (x : Nat) : Bool × Nat :=
  (s.flash.writes.filter fun w => w.lu == x).foldl (fun (acc : Bool × Nat) w => (false, w.over acc.2))
    ((s.lu x).poisoned, s.luContent x)

/-- The tile that the logical units of a page hold: wholly the poisoned content where a data unit is poisoned (R191). -/
def State.bwTile (s : State) (e id : Nat) : Tile :=
  let g := eFrame e - bwBase
  let w := classBytes (eWidth e)
  let parts := (List.range w).map fun i => s.luSeen (luData g (id % 64) w i)
  if parts.any Prod.fst then lostTile (eWidth e)
  else
    Tile.ofBytes w (parts.flatMap fun p => leBytes 16384 p.2)
      (leBytes 256 (bits (s.luSeen (luSide g)).2 (2048 * (id % 64)) 2048))

/-- Whether a unit that holds a part of tile `id` of a page in the backwater is poisoned. -/
def State.bwLost (s : State) (e id : Nat) : Bool :=
  let g := eFrame e - bwBase
  let w := classBytes (eWidth e)
  (luSide g :: (List.range w).map (luData g (id % 64) w)).any fun x => (s.luSeen x).1

/-- The tiles of which `x` holds a part, as the units hold them now. -/
def State.refreshLu (s : State) (x : Nat) : State :=
  match s.luTiles x with
  | none => s
  | some (p, ts) => ts.foldl (fun s t => s.putTile (64 * p + t) (s.bwTile (s.page p) (64 * p + t))) s

/-- R191, R201, R202: logical unit `x` becomes poisoned, and its tiles read so unless a later write has arrived (R199). -/
def State.markPoison (s : State) (x : Nat) : State := (s.setLu x { s.lu x with written := true, poisoned := true }).refreshLu x

/-- The logical units in a list become unwritten; their second copies and their unfinished writes go with them (R190, R196). -/
def State.dropLus (s : State) (mine : Nat → Bool) : State :=
  let f := s.flash
  let copies := (f.mirrors.filter fun kv => mine (kv.2 - 1)).map Prod.fst
  { s with flash := { f with
      lus := f.lus.filter fun kv => !mine kv.1 && !copies.contains kv.1
      writes := f.writes.filter fun w => !mine w.lu
      mirrors := f.mirrors.filter fun kv => !mine (kv.2 - 1) } }

/-- R196: every second copy of a page of the backwater is freed. -/
def State.freeCopies (s : State) (e : Nat) : State :=
  if eTier e ≠ 3 then s
  else
    let mine := luOfFrame (eFrame e) (classGranules (eWidth e))
    let f := s.flash
    let copies := (f.mirrors.filter fun kv => mine (kv.2 - 1)).map Prod.fst
    { s with flash := { f with
        lus := (f.lus.filter fun kv => !copies.contains kv.1).map fun kv =>
          if mine kv.1 then (kv.1, { kv.2 with copy := none }) else kv
        mirrors := f.mirrors.filter fun kv => !mine (kv.2 - 1) } }

end Sys2Proof.Machine
end

