-- ==== Sys2Proof/Machine/Shards.lean ====
section
/-! DEFINITION. The fields of shard descriptors (Table 7-1), layer entries (Table 7-3), shard records (Table 7-9), and of
millrace descriptors (Table 8-7). -/

namespace Sys2Proof.Machine

/-- Layer of a descriptor. -/
def sdLayer (d : Nat) : Nat := bits d 0 16
/-- BaseDie. -/
def sdBase (d : Nat) : Nat := bits d 16 8
/-- Rule; 0xFF unused. -/
def sdRule (d : Nat) : Nat := bits d 24 8
/-- HyperSet. -/
def sdHyper (d : Nat) : Nat := bits d 32 8
/-- Options. -/
def sdOptions (d : Nat) : Nat := bits d 40 8
/-- TriggerCount. -/
def sdTriggerCount (d : Nat) : Nat := bits d 48 16
/-- Trigger. -/
def sdTrigger (d : Nat) : Nat := bits d 64 16
/-- Elements. -/
def sdElements (d : Nat) : Nat := bits d 96 32
/-- Tiles. -/
def sdTiles (d : Nat) : Nat := bits d 128 32
/-- First moment record of a half. -/
def sdMoment (d half : Nat) : Nat := bits d (160 + 32 * half) 32
/-- First weight tile of a half. -/
def sdWeight (d half : Nat) : Nat := bits d (256 + 64 * half) 40
/-- First remainder tile of a half. -/
def sdRem (d half : Nat) : Nat := bits d (384 + 64 * half) 40
/-- First gradient tile of a buffer. -/
def sdGrad (d buf : Nat) : Nat := bits d (512 + 64 * buf) 40
/-- First tile of the view range. -/
def sdView (d : Nat) : Nat := bits d 640 40

/-- Tile `k` of a range (R129). -/
def rangeTile (first k : Nat) : Nat := tileId (first + k)

/-- The used shards of a store of parameters, with their descriptors. An unlisted descriptor is unused (R129). -/
def usedShards (params : Sparse Nat) : List (Nat × Nat) :=
  params.filterMap fun kv =>
    if kv.1 / 2 ^ 24 = P.shardTable ∧ sdRule kv.2 ≠ 0xFF then some (kv.1 % 2 ^ 24, kv.2) else none

/-- The pages of a shard's range that starts at a page boundary, modulo 2^34 (R129). -/
def rangePages (first tiles : Nat) : List Nat := (List.range (ceilDiv tiles 64)).map fun i => (pageOf first + i) % 2 ^ 34

/-- The view pages of the used shards: view page, first page of half A and of half B at the same offset, and the shard. -/
def viewPages (params : Sparse Nat) : List (Nat × Nat × Nat) :=
  (usedShards params).flatMap fun (sh, d) =>
    (List.range (ceilDiv (sdTiles d) 64)).map fun i => ((pageOf (sdView d) + i) % 2 ^ 34, i, sh)

/-- Whether a page lies in the view range of a used shard of a store. -/
def inView (params : Sparse Nat) (p : Nat) : Bool :=
  (usedShards params).any fun (_, d) =>
    decide (p < 2 ^ 34) && decide ((p + 2 ^ 34 - pageOf (sdView d)) % 2 ^ 34 < ceilDiv (sdTiles d) 64)

/-- Layer entry: DoneToken, DoneCount, FreeToken, FreeCount, Slots. -/
def leDoneToken (e : Nat) : Nat := bits e 0 8
/-- DoneCount. -/
def leDoneCount (e : Nat) : Nat := bits e 8 8
/-- FreeToken. -/
def leFreeToken (e : Nat) : Nat := bits e 16 8
/-- FreeCount. -/
def leFreeCount (e : Nat) : Nat := bits e 24 8
/-- Slots. -/
def leSlots (e : Nat) : Nat := bits e 64 64

/-- Half of a shard record. -/
def srHalf (r : Nat) : Nat := bits r 0 1
/-- Phase: 0 IDLE, 1 WRITING, 2 WRITTEN. -/
def srPhase (r : Nat) : Nat := bits r 1 2
/-- Restarts. -/
def srRestarts (r : Nat) : Nat := bits r 8 8
/-- WriteStep. -/
def srWriteStep (r : Nat) : Nat := bits r 64 64
/-- WrittenDigest. -/
def srWritten (r : Nat) : Nat := bits r 192 64
/-- CommittedDigest. -/
def srCommitted (r : Nat) : Nat := bits r 256 64
/-- Check. -/
def srCheck (r : Nat) : Nat := bits r 320 64

/-- The record of shard `sh`. -/
def State.shardRec (s : State) (sh : Nat) : Nat := s.reg P.shardRecords sh
/-- Replace a shard's record. -/
def State.setShardRec (s : State) (sh r : Nat) : State := s.setReg P.shardRecords sh r

/-- Fields of a millrace descriptor (Table 8-7). -/
def mrOp (d : Nat) : Nat := bits d 0 8
/-- Fmt of a descriptor. -/
def mrFmt (d : Nat) : Fmt := Fmt.ofCodeD (bits d 8 8)
/-- BaseDies of a descriptor. -/
def mrBaseDies (d : Nat) : Nat := bits d 16 8
/-- Bytes of a descriptor's region: none while it is unused. -/
def mrSize (d : Nat) : Nat := if mrOp d = 0 then 0 else bits d 32 32 * 2 ^ 26

/-- R179: the base die that byte `x` of the region of descriptor `d` lies on, and its offset in that base die's part. -/
def millPlace (d x : Nat) : Nat × Nat :=
  let on := indicesWhere 8 (bit (mrBaseDies d))
  let line := x / 256
  (nth on (line % max on.length 1) 0, line / max on.length 1 * 256 + x % 256)

end Sys2Proof.Machine
end

