-- ==== Sys2Proof/Machine/TierMap.lean ====
section
/-! DEFINITION. The tier map (R158 to R177): frames and the spillway, staged writes and what an applied write does,
migrations, views, loads from Backing, memory errors and retirement (R183 to R187). -/

namespace Sys2Proof.Machine

/-- A run of frame blocks of one unit: its tier, first block (64 MiB each, numbered over the device space) and how many. -/
structure FrameUnit where
  tier   : Nat
  first  : Nat
  blocks : Nat
  deriving DecidableEq, Repr

/-- Blocks of base die `n` that millrace regions take (R167, R179). -/
def State.millBlocks (s : State) (n : Nat) : Nat :=
  (List.range 256).foldl (fun acc k =>
    let d := s.reg P.millraceTable k
    let c := (indicesWhere 8 (bit (bits d 16 8))).length
    if bits d 0 8 ≠ 0 ∧ bit (bits d 16 8) n ∧ c ≠ 0 then acc + bits d 32 32 / c else acc) 0

/-- Frame blocks of base die `n`'s HBM (R167). -/
def State.hbBlocks (s : State) (n : Nat) : Nat :=
  1979 - ceilDiv (s.val P.momentRecords * 33792) (2 ^ 26) - s.millBlocks n

/-- The tile store of slot `sl`, while the slot is present. -/
def State.tsUnit (s : State) (sl : Nat) : List FrameUnit := if s.absent sl then [] else [⟨0, sl, 1⟩]
/-- The scratchpad regions of base die `n` (R164). -/
def State.llUnit (s : State) (n : Nat) : List FrameUnit :=
  (indicesWhere 8 (bit (nth s.mem.llmMode n 0))).map fun r => ⟨1, llBase / 64 + 8 * n + r, 1⟩
/-- The HBM of base die `n`. -/
def State.hbUnit (s : State) (n : Nat) : List FrameUnit := [⟨2, hbBase / 64 + 2048 * n, s.hbBlocks n⟩]
/-- The backwater. -/
def State.bwUnit (s : State) : List FrameUnit := [⟨3, bwBase / 64, s.bwBlocks⟩]
/-- All HBM in ascending order. -/
def State.hbAll (s : State) : List FrameUnit := (List.range 8).flatMap s.hbUnit

/-- R171: the home unit's frame blocks. -/
def State.homeUnits (s : State) (home unit : Nat) : List FrameUnit :=
  match home with
  | 0 => s.tsUnit unit
  | 1 => s.llUnit unit
  | 2 => s.hbUnit unit
  | _ => s.bwUnit

/-- R171: where the spillway looks, in order. -/
def State.spillUnits (s : State) (home unit : Nat) : List FrameUnit :=
  match home with
  | 0 => s.llUnit (unit / 8) ++ s.hbUnit (unit / 8) ++ s.hbAll ++ s.bwUnit
  | 1 => s.hbUnit unit ++ s.hbAll ++ s.bwUnit
  | 2 => s.hbAll ++ s.bwUnit
  | _ => []

/-- The frames of mapped pages and the new frames of migrations: first granule and length. `except` is a page whose frames are left
out. -/
def State.framesBut (s : State) (except : Option Nat) : List (Nat × Nat) :=
  (s.mem.pages.filterMap fun kv =>
    let e := kv.2.toNat
    if eKind e = 1 ∧ except ≠ some kv.1 then some (eFrame e, classGranules (eWidth e)) else none)
  ++ (s.mem.migrations.filterMap fun m =>
    if except = some m.page then none else some (m.frame, classGranules (eWidth (s.page m.page))))

/-- Every frame. -/
def State.frames (s : State) : List (Nat × Nat) := s.framesBut none

/-- Granules that are not free: every frame and every retired granule. -/
def State.occupied (s : State) (except : Option Nat) : List (Nat × Nat) :=
  s.framesBut except ++ s.mem.retired.map fun r => (r.1, 1)

/-- R161: the lowest free run of `n` granules in frame block `b`. -/
def runInBlock (occ : List (Nat × Nat)) (n b : Nat) : Option Nat :=
  let inB := occ.filter fun o => decide (o.1 / 64 = b)
  let free (g : Nat) : Bool := inB.all fun o => decide (g + n ≤ o.1) || decide (o.1 + o.2 ≤ g)
  ((List.range (63 / n)).map fun i => 64 * b + n * i).find? free

/-- The lowest free run over `fuel` blocks from block `b`. -/
def runFrom (occ : List (Nat × Nat)) (n : Nat) : Nat → Nat → Option Nat
  | 0, _ => none
  | fuel + 1, b =>
    match runInBlock occ n b with
    | some g => some g
    | none => runFrom occ n fuel (b + 1)

/-- The first unit of a list that has a free run: its tier and the run. -/
def runInUnits (occ : List (Nat × Nat)) (n : Nat) : List FrameUnit → Option (Nat × Nat)
  | [] => none
  | u :: us =>
    match runFrom occ n u.blocks u.first with
    | some g => some (u.tier, g)
    | none => runInUnits occ n us

/-- R171: allocate a frame: tier, first granule, and whether the page spills. -/
def State.allocFrame (s : State) (occ : List (Nat × Nat)) (home unit width : Nat) (pinned : Bool) :
    Option (Nat × Nat × Bool) :=
  let n := classGranules width
  match runInUnits occ n (s.homeUnits home unit) with
  | some (t, g) => some (t, g, false)
  | none =>
    if pinned then none
    else (runInUnits occ n (s.spillUnits home unit)).map fun (t, g) => (t, g, true)

/-- R189, R190: a frame of tier `tier` is allocated or freed: in the backwater its logical units become unwritten. -/
def State.freeFrame (s : State) (tier frame width : Nat) : State :=
  if tier = 3 then s.dropLus (luOfFrame frame (classGranules width)) else s

/-- R171: the unit that a frame lies in counts a spill for the page's home tier. -/
def State.countSpill (s : State) (home : Nat) (spilled : Bool) : State :=
  if spilled then s.bump64 P.spills home 1 else s

/-- Drop the content of a page. -/
def State.dropTiles (s : State) (p : Nat) : State :=
  { s with mem := { s.mem with
      tiles := s.mem.tiles.filter fun kv => kv.1 / 64 != p
      demand := s.mem.demand.filter (· != p)
      reloads := s.mem.reloads.filter fun t => pageOf t != p } }

/-- The low 32 bits and the rest of an entry: Kind, Width, Home, Unit, Pinned, Demand, Mirrored, Tier, Spilled, Migrating,
Loaded, Frame, Backing, Uncorrected (Table 8-3). -/
def mkEntry (soft tier : Nat) (spilled migrating loaded : Bool) (frame backing uncorrected : Nat) : Nat :=
  bits soft 0 15 + tier % 4 * 2 ^ 16 + b2n spilled * 2 ^ 18 + b2n migrating * 2 ^ 19 + b2n loaded * 2 ^ 20
    + frame % 2 ^ 32 * 2 ^ 32 + backing % 2 ^ 32 * 2 ^ 64 + uncorrected % 2 ^ 16 * 2 ^ 96

/-- An alias entry (R176): Kind 0b10 and Target. -/
def aliasEntry (target : Nat) : Nat := 2 + target % 2 ^ 34 * 2 ^ 64

/-- What the durable copies keep of a page's entry: that of a page whose Home and Tier are BW (R198). -/
def keptEntry (p e : Nat) : BitVec 128 :=
  if eKind e = 1 ∧ eHome e = 3 ∧ eTier e = 3 then BitVec.ofNat 128 e else pageDefault p

/-- R198: the entry of a page changed: its durable copy is due within 10 ms. -/
def State.entryChanged (s : State) (p : Nat) : State :=
  { s with flash := { s.flash with
      entryDue := s.flash.entryDue ++ [(p, s.clock.now + 10000 * usRoot, keptEntry p (s.page p))] } }

/-- Replace a page's entry, and note the change for the durable copy. -/
def State.putPage (s : State) (p e : Nat) : State := (s.setPage p e).entryChanged p

/-- R187: a page has left its granules: deferred retirements there complete. True if any did. -/
def State.leaveGranules (s : State) (frame width : Nat) : Bool × State :=
  let n := classGranules width
  let here (g : Nat) : Bool := decide (frame ≤ g) && decide (g < frame + n)
  (s.mem.retired.any (fun r => r.2 && here r.1),
    { s with mem := { s.mem with retired := s.mem.retired.map fun (r : Nat × Bool) => if here r.1 then (r.1, false) else r } })

/-- R170, R174: unmap a page: its frames are freed, a migration or load of it is abandoned, and writes that waited for it find
no page. A retirement that this completes raises the migration event (R187). -/
def State.unmapPage (s : State) (p : Nat) : State :=
  let e := s.page p
  if eKind e ≠ 1 then s.putPage p (pageDefault p).toNat
  else
    let ms := s.mem.migrations.filter fun m => m.page == p
    let s := ms.foldl (fun s m => s.freeFrame m.tier m.frame (eWidth e)) (s.freeFrame (eTier e) (eFrame e) (eWidth e))
    let s := { s with mem := { s.mem with migrations := s.mem.migrations.filter fun m => m.page != p } }
    let s := ((s.dropTiles p).putPage p (pageDefault p).toNat).releaseWrites p
    let frames := (eFrame e, eWidth e) :: ms.map fun m => (m.frame, eWidth e)
    frames.foldl (fun s f =>
      let (done, s) := s.leaveGranules f.1 f.2
      if done then s.raiseEvent 3 0x03 (srcBase ((f.1 - hbBase) / 131072 % 8)) p 0 else s) s

/-- Mapped and alias entries (R169, code 0x06). -/
def State.mappedCount (s : State) : Nat := (s.mem.pages.filter fun kv => eKind kv.2.toNat != 0).length

/-- R170: map a page in a frame that is to be had: content of R71, Loaded unless Demand is 1. -/
def State.mapPage (s : State) (p soft backing : Nat) (a : Nat × Nat × Bool) : State :=
  let (tier, frame, spilled) := a
  (((s.freeFrame tier frame (eWidth soft)).dropTiles p).putPage p
    (mkEntry soft tier spilled false (!eDemand soft) frame backing 0)).countSpill (eHome soft) spilled

/-- R173: start a migration of page `p` to the home that its entry now names; the Home and Unit fields in `next` wait behind
it. None when R171 finds no frame. -/
def State.startMigration (s : State) (p : Nat) (next : List Nat) : Option State :=
  let e := s.page p
  match s.allocFrame (s.occupied none) (eHome e) (eUnit e) (eWidth e) (ePinned e) with
  | none => none
  | some (tier, frame, spilled) =>
    let s := (s.countSpill (eHome e) spilled).freeFrame tier frame (eWidth e)
    let m := s.mem.migrations ++ [{ page := p, tier := tier, frame := frame, next := next }]
    some ({ s with mem := { s.mem with migrations := m } }.setPage p (setBits e 19 1 1))

/-- The Home and Unit fields of an entry. -/
def eWhere (e : Nat) : Nat := bits e 4 8

/-- R170, R174: what an applied write of a mapped page that keeps its width does: a new Home or Unit starts a migration, or
waits for the migrations before it. None: no frame (code 0x07). -/
def State.rewriteEntry (s : State) (p w : Nat) : Option State :=
  let e := s.page p
  let soft := setBits (setBits e 12 3 (bits w 12 3)) 64 32 (bits w 64 32)
  let clear (s : State) : State := if eMirrored e && !eMirrored w then s.freeCopies e else s
  match s.mem.migrations.find? (fun m => m.page == p) with
  | some m =>
    let ms := s.mem.migrations.map fun (k : Migration) => if k.page = p then { k with next := k.next ++ [eWhere w] } else k
    let s := if eWhere w = (m.next.getLast?).getD (eWhere e) then s else { s with mem := { s.mem with migrations := ms } }
    some (clear (s.putPage p soft))
  | none =>
    if eWhere w = eWhere e then some (clear (s.putPage p soft))
    else (clear (s.putPage p (setBits soft 4 8 (eWhere w)))).startMigration p []

/-- TierMapStatus: code and page (R169). -/
def State.tierStatus (s : State) (code p : Nat) : State := s.setVal P.tierMapStatus (code + 2 ^ 8 * (p % 2 ^ 34))

/-- R169: an applied write failed. -/
def State.applyFailed (s : State) (code p : Nat) : State :=
  let s := (s.bump32 P.applyFailures 0 1).tierStatus code p
  s.raiseEvent 7 0x04 srcModule (s.val P.tierMapStatus) 0

/-- R169, R170: apply one staged write. -/
def State.applyEntry (s : State) (p w : Nat) : State :=
  if inView s.params p then s.applyFailed 0x04 p
  else
    let e := s.page p
    if eKind w = 0 then (s.unmapPage p).tierStatus 0 p
    else if eKind e ≠ 1 then
      if s.mappedCount + 1 > s.val P.tierMapCapacity ∧ eKind e = 0 then s.applyFailed 0x06 p
      else
        match s.allocFrame (s.occupied none) (eHome w) (eUnit w) (eWidth w) (ePinned w) with
        | none => s.applyFailed 0x07 p
        | some a => (s.mapPage p w (eBacking w) a).tierStatus 0 p
    else if eWidth e ≠ eWidth w then
      match s.allocFrame (s.occupied (some p)) (eHome w) (eUnit w) (eWidth w) (ePinned w) with
      | none => s.applyFailed 0x07 p
      | some a => ((s.unmapPage p).mapPage p w (eBacking w) a).tierStatus 0 p
    else
      match s.rewriteEntry p w with
      | none => s.applyFailed 0x07 p
      | some s => s.tierStatus 0 p

/-- Whether granule `g` lies in the frame of page entry `e`. -/
def holdsGranule (e g : Nat) : Bool := eKind e == 1 && decide (eFrame e ≤ g) && decide (g < eFrame e + classGranules (eWidth e))

/-- R187: retry the deferred retirements of occupied granules. -/
def State.retryRetirements (s : State) : State :=
  s.mem.retired.foldl (fun s r =>
    if ¬ r.2 then s
    else
      match s.mem.pages.find? (fun kv => holdsGranule kv.2.toNat r.1) with
      | none => s
      | some kv =>
        if s.mem.migrations.any (fun m => m.page == kv.1) then s else (s.startMigration kv.1 []).getD s) s

/-- R169: apply every staged write in the order written. -/
def State.applyStaged (s : State) : State :=
  let q := s.mem.staged
  let s := { s with mem := { s.mem with staged := [] } }
  q.foldl (fun s w => s.applyEntry w.1 w.2.toNat) s

/-- Apply staged writes where they apply at once. -/
def State.settleStaged (s : State) : State := if s.gateHolds then s.applyStaged else s

/-- R169, Table 8-4: the check of a write to an entry: the page number first, then in ascending code order (DEDUCED, assumption
log 50). -/
def State.checkEntry (s : State) (p w : Nat) : Nat :=
  let res := bits w 15 1 != 0 || bits w 21 11 != 0 || bits w 112 16 != 0
  if p ≥ 2 ^ 34 then 0x09
  else if eKind w ≥ 2 ∨ res then 0x01
  else if eKind w = 1 ∧ eWidth w = 3 then 0x01
  else if eKind w = 1 ∧ ((eHome w = 0 ∧ s.absent (eUnit w)) ∨ ((eHome w = 1 ∨ eHome w = 2) ∧ eUnit w > 7)) then 0x02
  else if eKind w = 1 ∧ ((eBacking w ≠ 0xFFFFFFFF ∧ (eBacking w < bwBase ∨ eBacking w ≥ bwBase + 2 ^ 24))
      ∨ (eDemand w ∧ eBacking w = 0xFFFFFFFF)) then 0x03
  else if inView s.params p then 0x04
  else if s.mem.staged.length ≥ 65536 then 0x05
  else 0

/-- R169: check a write and stage it; it applies at once where R169 says so. The code is left in TierMapStatus. -/
def State.stageEntry (s : State) (p w : Nat) : State :=
  let code := s.checkEntry p w
  let s := s.tierStatus code p
  if code ≠ 0 then s
  else { s with mem := { s.mem with staged := s.mem.staged ++ [(p, BitVec.ofNat 128 w)] } }.settleStaged

/-- The home unit's base die, for events and R413. -/
def homeBase (e : Nat) : Nat :=
  match eHome e with
  | 0 => eUnit e / 8
  | 3 => 0
  | _ => eUnit e % 8

/-- R69 on migration: each tile of the page is verified when DigestVerify bit 2 is 1. -/
def State.verifyPage (s : State) (p : Nat) : State :=
  if ¬ bit (s.val P.digestVerify) 2 then s
  else
    let e := s.page p
    let acct := 64 + homeBase e
    (s.mem.tiles.filter fun kv => kv.1 / 64 == p).foldl (fun s kv =>
      if kv.2.computeDigest (classBytes (eWidth e)) = kv.2.digest then s
      else
        ((s.putTile kv.1 kv.2.poisonInPlace).bump64 P.digestErrors acct 1).raiseEvent 7 0x06 (acctSrc acct) kv.1 0) s

/-- Every logical unit of a page in the backwater is written with its present content. -/
def State.writePageLus (s : State) (p : Nat) : State :=
  let e := s.page p
  if eTier e ≠ 3 then s
  else
    { s with flash := { s.flash with writes :=
        s.flash.writes ++ (List.range 64).flatMap fun t => luWritesOf e (64 * p + t) (s.tile (64 * p + t)) } }

/-- R174: the writes that waited for a migration of page `p`: the first that moves the page starts a new migration, and the others
wait behind it. One that finds no frame has failed (code 0x07). -/
def State.nextMove (p : Nat) : List Nat → State → State
  | [], s => s
  | w :: ws, s =>
    let e := s.page p
    if w = eWhere e then State.nextMove p ws s
    else
      match (s.putPage p (setBits e 4 8 w)).startMigration p ws with
      | some s => s
      | none => State.nextMove p ws (s.applyFailed 0x07 p)

/-- R172: whether a frame of tier `tier` lies outside the home of entry `e`. -/
def State.outsideHome (s : State) (e tier frame : Nat) : Bool :=
  !((s.homeUnits (eHome e) (eUnit e)).any fun u =>
    u.tier == tier && decide (u.first ≤ frame / 64) && decide (frame / 64 < u.first + u.blocks))

/-- An entry whose page lies in another frame, with no migration in progress. -/
def movedEntry (e tier frame : Nat) (spilled : Bool) : Nat :=
  setBits (setBits (setBits (setBits e 16 2 tier) 18 1 (b2n spilled)) 19 1 0) 32 32 frame

/-- MIGRATION_COMPLETE (R173, R174): the copy is verified, the entry switches, the old frame is freed; a write that waited
starts a new migration. -/
def migrationCompleteStep (s : State) (p : Nat) : State :=
  match s.mem.migrations.find? (fun m => m.page == p) with
  | none => s
  | some m =>
    let s := s.verifyPage p
    let e := s.page p
    let s := { s with mem := { s.mem with migrations := s.mem.migrations.filter fun k => k.page != p } }
    let e' := movedEntry e m.tier m.frame (s.outsideHome e m.tier m.frame)
    let s := ((s.freeFrame (eTier e) (eFrame e) (eWidth e)).putPage p e').writePageLus p
    let s := ((s.bump64 P.migrations 0 1).leaveGranules (eFrame e) (eWidth e)).2
    State.nextMove p m.next (s.raiseEvent 3 0x03 (srcBase (homeBase e)) p 0)

/-- MIGRATION_COMPLETE. -/
def execMigrationComplete (page : Nat) (s : State) : Host.Outcome State Fault Refusal :=
  .next (migrationCompleteStep s page)

/-- R197: the source page that a Backing names. -/
def State.sourcePage (s : State) (width backing : Nat) : Option Nat :=
  (s.mem.pages.find? fun kv =>
    let e := kv.2.toNat
    eKind e == 1 && eHome e == 3 && eTier e == 3 && eWidth e == width && eFrame e == backing).map Prod.fst

/-- A load's writer: host command or backwater load. -/
def loadWriter (stamp : Nat) : Writer := { source := 3, stamp := stamp }

/-- The tile that a load writes from a source tile: its content, flags and counts, with the stamp kept (R64, R65). -/
def Tile.loaded (t : Tile) : Tile :=
  { t with status := setBits (setBits (setBits t.status 5 11 6) 16 8 0) 3 1 (b2n t.written), setId := 0, entry := 0 }

/-- R197: load tile `k` of page `p` from its Backing; true when the loaded tile is poisoned. A source tile that the ladder
lost counts in Uncorrected of the loading page (Table 9-4). Where Backing names no page the tile's StepStamp is 0 (DESIGN
CHOICE, assumption log 49). -/
def State.loadTile (s : State) (p k : Nat) : Bool × State :=
  let e := s.page p
  let id := 64 * p + k
  match s.sourcePage (eWidth e) (eBacking e) with
  | none => (true, (s.putStored id (Tile.poison (loadWriter 0) (classFmt (eWidth e)))).bump64 P.backingFaults 0 1)
  | some q =>
    let t := (s.tile (64 * q + k)).loaded
    let s := s.putStored id t
    (t.poisoned, if s.bwLost (s.page q) (64 * q + k) then s.putPage p (setBits e 96 16 (min (eUncorrected e + 1) 0xFFFF)) else s)

/-- BACKING_RELOAD_COMPLETE (R184): a poisoned tile is loaded again from its page's Backing. -/
def backingReloadStep (s : State) (id : Nat) : State :=
  if ¬ s.mem.reloads.contains id then s
  else
    let s := { s with mem := { s.mem with reloads := s.mem.reloads.filter (· != id) } }
    if eKind (s.page (pageOf id)) ≠ 1 then s
    else
      let (bad, s) := s.loadTile (pageOf id) (id % 64)
      if bad then s.condition 4 else s

/-- BACKING_RELOAD_COMPLETE. -/
def execBackingReloadComplete (tile : Nat) (s : State) : Host.Outcome State Fault Refusal :=
  .next (backingReloadStep s tile)

/-- R187: retire an HBM granule: the outcome code and the state. A granule that a migration is filling is retired once its page has
moved on. -/
def State.retireGranule (s : State) (g : Nat) : State :=
  let set (s : State) (c : Nat) : State := s.setVal P.retireStatus c
  if g < hbBase ∨ g ≥ hbBase + 2 ^ 20 then set s 0x01
  else if (g - hbBase) / 64 % 2048 ≥ s.hbBlocks ((g - hbBase) / 131072) then set s 0x02
  else if s.mem.retired.length ≥ 4096 then set s 0x03
  else if s.mem.retired.any (fun r => r.1 == g) then set s 0x04
  else
    let list (s : State) (deferred : Bool) : State :=
      { s with mem := { s.mem with retired := s.mem.retired ++ [(g, deferred)] } }
    let filling := s.mem.migrations.any fun m =>
      decide (m.frame ≤ g) && decide (g < m.frame + classGranules (eWidth (s.page m.page)))
    if filling then set (list s true) 0x05
    else
      match s.mem.pages.find? (fun kv => holdsGranule kv.2.toNat g) with
      | none => set (list s false) 0x00
      | some kv =>
        if s.mem.migrations.any (fun m => m.page == kv.1) then set (list s false) 0x00
        else
          match (list s false).startMigration kv.1 [] with
          | some s => set s 0x00
          | none => set (list s true) 0x05

/-- An HbmErrorLog record (0x3020.06) at the end of the newest 64. -/
def State.logMemError (s : State) (granule unit kind count : Nat) : State :=
  let rec' := granule + 2 ^ 32 * unit + 2 ^ 40 * kind + 2 ^ 48 * min count 0xFFFF + 2 ^ 64 * s.step
  let old := (List.range 64).map fun i => s.reg P.hbmErrorLog i
  (((List.range 64).zip (old.drop 1 ++ [rec'])).foldl (fun s (i, v) => s.setReg P.hbmErrorLog i v) s)

/-- A tile of a page with its content poisoned in place (R67, R184); a tile that was never written takes the format of the page's
class. -/
def State.lostAt (s : State) (id : Nat) : Tile :=
  let t := s.tile id
  (if t.written then t else { t with status := classFmt (eWidth (s.page (pageOf id))) }).poisonInPlace

/-- Memory that a device address names (R160, R161, R166, R167). -/
inductive DeviceArea where
  | frame
  | cache (bd : Nat)
  | tables (bd : Nat)
  | mapCopy (bd : Nat)
  | slots (bd : Nat)
  | moments (bd r : Nat)
  | millrace (bd : Nat)
  | outside
  deriving DecidableEq, Repr

/-- R166: stack and pseudo-channel of byte `o` of base die `n`'s HBM. -/
def hbmStack (n o : Nat) : Nat × Nat := (2 * n + o / 256 % 2, o / 256 / 2 % 64)

/-- Blocks of the optimiser state area of each base die (R130, R167). -/
def State.momentBlocks (s : State) : Nat := ceilDiv (s.val P.momentRecords * 33792) (2 ^ 26)

/-- R160, R167: the area that device address `a` lies in. -/
def State.areaOf (s : State) (a : Nat) : DeviceArea :=
  if a < 2 ^ 32 then .frame
  else if a < 2 ^ 33 then
    let n := (a - 2 ^ 32) / 2 ^ 29
    if bit (nth s.mem.llmMode n 0) (a / 2 ^ 26 % 8) then .frame else .cache n
  else if a < 2 ^ 40 ∨ a ≥ 2 ^ 41 then .outside
  else
    let n := (a - 2 ^ 40) / 2 ^ 37
    let o := a % 2 ^ 37
    let b := o / 2 ^ 26
    let m := s.momentBlocks
    if b ≥ 2044 then .tables n
    else if b = 2043 then .mapCopy n
    else if b ≥ 1979 then .slots n
    else if b + m ≥ 1979 then .moments n ((o - (1979 - m) * 2 ^ 26) / 33792)
    else if b ≥ s.hbBlocks n then .millrace n
    else .frame

/-- R161, R162: the tile whose data or sidecar lies at device address `a`, in any frame block but one of BW. -/
def State.tileAt (s : State) (a : Nat) : Option Nat :=
  let g := a / 2 ^ 20
  if g % 64 < 63 then
    (s.mem.pages.find? fun kv => eTier kv.2.toNat != 3 && holdsGranule kv.2.toNat g).map fun kv =>
      64 * kv.1 + (a - eFrame kv.2.toNat * 2 ^ 20) / (16384 * classBytes (eWidth kv.2.toNat))
  else
    (s.mem.pages.find? fun kv => eKind kv.2.toNat == 1 && eTier kv.2.toNat != 3
      && eFrame kv.2.toNat == 64 * (g / 64) + a % 2 ^ 20 / 16384).map fun kv => 64 * kv.1 + a % 16384 / 256

/-- R162: device address of the data of tile `id` of a mapped page. -/
def State.tileAddr (s : State) (id : Nat) : Nat :=
  let e := s.page (pageOf id)
  eFrame e * 2 ^ 20 + id % 64 * (16384 * classBytes (eWidth e))

/-- R162: device address of its sidecar. -/
def State.sideAddr (s : State) (id : Nat) : Nat :=
  let e := s.page (pageOf id)
  eFrame e / 64 * 2 ^ 26 + 63 * 2 ^ 20 + eFrame e % 64 * 16384 + id % 64 * 256

/-- The element of MemCorrected that device address `a` counts in: stack, LLM or tile-store group. -/
def memUnit (a : Nat) : Nat :=
  if a < 2 ^ 32 then 24 + a / 2 ^ 26 / 8
  else if a < 2 ^ 33 then 16 + (a - 2 ^ 32) / 2 ^ 29
  else (hbmStack ((a - 2 ^ 40) / 2 ^ 37) (a % 2 ^ 37)).1

/-- Source of an uncorrectable error's event (Table 17-5). -/
def memErrorSrc (a : Nat) : Nat :=
  if a < 2 ^ 32 then srcSlot (a / 2 ^ 26) else if a < 2 ^ 33 then srcBase (memUnit a - 16) else srcOf 6 (memUnit a)

/-- R184: poison a tile of a mapped page in place. -/
def State.poisonTile (s : State) (id : Nat) : State :=
  let p := pageOf id
  let e := s.page p
  if eKind e ≠ 1 ∨ eTier e = 3 then s
  else
    let s := (s.putTile id (s.lostAt id)).putPage p (setBits e 96 16 (min (eUncorrected e + 1) 0xFFFF))
    let s := s.condition 4
    if eBacking e ≠ 0xFFFFFFFF then { s with mem := { s.mem with reloads := s.mem.reloads ++ [id] } }
    else
      let b := match eTier e with
        | 0 => eFrame e / 64 / 8
        | 1 => (eFrame e - llBase) / 512
        | _ => (eFrame e - hbBase) / 131072
      s.raiseEvent 3 0x02 (srcBase b) p (2 ^ (id % 64))

/-- The tile that an error at device address `a` strikes: that of the frame, or that of the HBM line which a dirty cache line holds
(Table 8-8). -/
def State.struckTile (s : State) (e : MemError) : Option Nat :=
  match s.areaOf e.device, e.detail with
  | .frame, _ => s.tileAt e.device
  | .cache _, .dirtyLine a => if s.areaOf a = .frame then s.tileAt a else none
  | _, _ => none

/-- Whether what is said of an error beside its address fits the address: a cache line of the base die's own HBM (R164), a stream of
the table set area, a byte of a used millrace region at the place that R179 gives it. -/
def State.fitsArea (s : State) (e : MemError) : Bool :=
  match s.areaOf e.device, e.detail with
  | .cache n, .dirtyLine a => decide (2 ^ 40 + n * 2 ^ 37 ≤ a) && decide (a < 2 ^ 40 + (n + 1) * 2 ^ 37)
  | .tables _, .tableSet _ _ => true
  | .tables _, _ => false
  | .millrace n, .millrace k x =>
    let d := s.reg P.millraceTable k
    decide (x < mrSize d) && (millPlace d x).1 == n && (millPlace d x).2 % 2 ^ 26 == e.device % 2 ^ 26
  | .millrace _, _ => false
  | .outside, _ => false
  | _, .none => true
  | _, _ => false

/-- Table 8-8: the effect of an uncorrectable error. -/
def State.memErrorAt (s : State) (e : MemError) : State :=
  match s.areaOf e.device, e.detail with
  | .tables _, .tableSet sl st =>
    let d := s.die sl
    s.setDie sl { d with streams := setAt {} d.streams st { nth d.streams st {} with stalled := true } }
  | .millrace _, .millrace k x => { s with mem := { s.mem with millPoison := (k.val, x / 32) :: s.mem.millPoison } }
  | .moments n r, _ =>
    if r < s.val P.momentRecords then { s with mem := { s.mem with momPoison := (n, r) :: s.mem.momPoison } } else s
  | _, _ =>
    match s.struckTile e with
    | some id => s.poisonTile id
    | none => s

/-- R183: whether bits in error can be corrected: those of one 16-bit symbol of a half-line of HBM, one bit of a 64-bit word
of SRAM. `some false`: the error is detected. None: no rule says that it is (more than two symbols, more than two bits). -/
def eccOutcome (hbm : Bool) (flips : List Nat) : Option Bool :=
  let n := (if hbm then flips.map (· / 16) else flips).eraseDups.length
  if n ≤ 1 then some true else if n = 2 then some false else none

/-- PATROL_SCRUB, and an error met on a read or in a migration (R183, R184, R187). The scrub reads HBM only, and not at all with
ScrubPeriod 0. Whether an error that no rule says is detected is so stays open (DESIGN CHOICE, assumption log 87). -/
def patrolScrubStep (s : State) (e : MemError) : State :=
  let u := memUnit e.device
  let g := e.device / 2 ^ 20
  let hbm := decide (2 ^ 40 ≤ e.device)
  let off := e.byScrub && (!hbm || s.val P.scrubPeriod == 0)
  if ¬ s.up 3 ∨ off ∨ ¬ s.fitsArea e ∨ e.flips = [] then s
  else
    let advise (s : State) : State := if hbm then s.raiseEvent 3 0x01 (srcOf 6 u) g 0 else s
    let lost (s : State) : State :=
      let s := (s.bump64 P.memUncorrected u 1).logMemError g u 1 (s.reg P.memUncorrected u + 1)
      let s := s.raiseEvent 7 0x07 (memErrorSrc e.device) e.device ((s.struckTile e).getD (2 ^ 64 - 1))
      advise (s.memErrorAt e)
    match eccOutcome hbm e.flips with
    | some true =>
      let n := Sparse.get zeros s.mem.corrected g + 1
      let s := s.bump64 P.memCorrected u 1
      if ¬ hbm then s
      else
        let s := { s with mem := { s.mem with corrected := Sparse.put zeros s.mem.corrected g n } }
        if n = s.val P.ceRetireThreshold then advise (s.logMemError g u 0 n) else s
    | some false => lost s
    | none =>
      let (n, s) := s.draw
      if Config.freeDetected n then lost s else s

/-- PATROL_SCRUB. -/
def execPatrolScrub (e : MemError) (s : State) : Host.Outcome State Fault Refusal := .next (patrolScrubStep s e)

/-- R186: page `p`, which has a frame in the tile store of an absent slot, or was on its way into one, is placed by the spillway. A
migration that it took part in is over, and the writes behind it follow. -/
def State.respillPage (s : State) (p : Nat) (unreadable : List Nat) : State :=
  let e := s.page p
  match s.allocFrame (s.occupied (some p)) (eHome e) (eUnit e) (eWidth e) false with
  | none => s
  | some (tier, frame, _) =>
    let ms := s.mem.migrations.filter fun m => m.page == p
    let s := ms.foldl (fun s m => s.freeFrame m.tier m.frame (eWidth e)) (s.freeFrame (eTier e) (eFrame e) (eWidth e))
    let s := { s with mem := { s.mem with migrations := s.mem.migrations.filter fun m => m.page != p } }
    let s := (s.freeFrame tier frame (eWidth e)).putPage p (movedEntry e tier frame (s.outsideHome e tier frame))
    let s := s.countSpill (eHome e) (s.outsideHome e tier frame)
    let s := (unreadable.filter fun id => pageOf id == p).foldl (fun s id => s.putTile id (s.lostAt id)) s
    State.nextMove p (ms.flatMap Migration.next) (s.writePageLus p)

/-- R186: a slot has become absent: the pages of its tile store are placed again, in ascending page order, and tiles that could not
be read are poisoned. -/
def State.respill (s : State) (sl : Nat) (unreadable : List Nat) : State :=
  let inSlot (tier frame : Nat) : Bool := tier == 0 && frame / 64 == sl
  let mine (kv : Nat × BitVec 128) : Bool :=
    eKind kv.2.toNat == 1 && (inSlot (eTier kv.2.toNat) (eFrame kv.2.toNat)
      || s.mem.migrations.any fun m => m.page == kv.1 && inSlot m.tier m.frame)
  (s.mem.pages.filter mine).foldl (fun s kv => s.respillPage kv.1 unreadable) s

/-- R134, R176: set the alias of each view page of each used shard: to the written half where `written` holds for the
shard, else to the committed half; pages that left the view ranges become unmapped. -/
def State.remapViews (s : State) (written : Nat → Bool) : State :=
  let views := viewPages s.params
  let stale := (s.mem.pages.filter fun kv => eKind kv.2.toNat == 2 && !inView s.params kv.1).map Prod.fst
  let s := stale.foldl State.unmapPage s
  views.foldl (fun s v =>
    let (p, i, sh) := v
    let d := s.reg P.shardTable sh
    let half := srHalf (s.shardRec sh)
    let half := if written sh then 1 - half else half
    let s := if eKind (s.page p) = 1 then s.unmapPage p else s
    s.setPage p (aliasEntry (pageOf (sdWeight d half) + i))) s

end Sys2Proof.Machine
end

