-- ==== Sys2Proof/Machine/Backwater.lean ====
section
/-! DEFINITION. The backwater's translation layer (chapter 9): flash pages and stripes (R192, R193), placement, second copies,
relocation, wear, and the durable copies of tier map entries. -/

namespace Sys2Proof.Machine

/-- Blocks of one channel: 5 dies × 4 planes × 512 (Table 9-1). -/
def chanBlocks : Nat := 10240
/-- Key of block `b` of base die `d`. -/
def blockKey (d b : Nat) : Nat := 81920 * d + b
/-- Block key of a flash page. -/
def pageBlock (k : Nat) : Nat := k / 2048
/-- Channel 0 to 7 of a flash page on its base die. -/
def pageChan (k : Nat) : Nat := pageBlock k % 81920 / chanBlocks

/-- A flash page. -/
def State.flashPage (s : State) (k : Nat) : FlashPage := Sparse.get pageErased s.flash.pages k

/-- R192: the CRC-32C of a page: over its data, then its local unit number and its sequence number (their order in the metadata is
DESIGN CHOICE, assumption log 91). -/
def flashCrc (unit seq dat : Nat) : Nat := crc32c (leBytes 16384 dat ++ leBytes 8 unit ++ leBytes 8 seq)

/-- R192: whether a decoded page counts as read for local unit `unit`. -/
def FlashPage.matches (p : FlashPage) (unit : Nat) : Bool := p.unit == unit && p.crc == flashCrc p.unit p.seq p.dat

/-- The XOR of pages, data and metadata (R193). -/
def xorPages (ps : List FlashPage) : FlashPage :=
  ps.foldl (fun a p => { unit := Nat.xor a.unit p.unit, seq := Nat.xor a.seq p.seq, crc := Nat.xor a.crc p.crc
                         dat := Nat.xor a.dat p.dat }) {}

/-- The in-service channels of base die `d`, 0 to 7 (R203). -/
def State.goodChans (s : State) (d : Nat) : List Nat := (List.range 8).filter fun c => !s.flash.badChans.contains (8 * d + c)

/-- R193, R203: the channel of the parity page of a stripe, and the channels of its logical units in ascending order. -/
def State.stripeChans (s : State) (d : Nat) : Nat × List Nat :=
  let good := s.goodChans d
  let st := nth s.flash.stripes d 0
  let par := if good.length = 8 then st % 8 else nth good (st % max good.length 1) 0
  (par, good.filter (· != par))

/-- The number of the open stripe of base die `d`, over all base dies. -/
def State.openStripe (s : State) (d : Nat) : Nat := 8 * nth s.flash.stripes d 0 + d

/-- Whether a logical unit's content lies in its flash page. -/
def LuInfo.valid (l : LuInfo) : Bool := l.written && !l.poisoned

/-- Blocks that no new stripe may take: retired ones, open ones, those of open stripes, and those with a page of a stripe that
holds a valid logical unit (R193: its parity and its other pages stay). -/
def State.busyBlocks (s : State) : List Nat :=
  let f := s.flash
  let stripes := ((f.lus.filter fun l => l.2.valid).map fun l => l.2.stripe).eraseDups
  f.retired ++ f.opened.map (fun o => (o.2 - 1) / 4096) ++ (f.filled.flatMap fun ps => ps.map pageBlock)
    ++ stripes.flatMap fun st => (Sparse.get (fun _ => []) f.layout st).map pageBlock

/-- R204: the free block of a channel with the lowest erase count, the lowest-numbered among equals. -/
def State.chooseBlock (s : State) (d c : Nat) : Option Nat :=
  let busy := s.busyBlocks
  ((List.range chanBlocks).map fun i => blockKey d (chanBlocks * c + i)).foldl (fun best k =>
    if busy.contains k then best
    else
      match best with
      | none => some k
      | some b => if Sparse.get zeros s.flash.erases k < Sparse.get zeros s.flash.erases b then some k else best) none

/-- A block is erased before its second use: its pages go, and its erase count grows. -/
def State.eraseBlock (s : State) (k : Nat) : State :=
  let f := s.flash
  if f.used.contains k then
    { s with flash := { f with
        erases := Sparse.put zeros f.erases k (Sparse.get zeros f.erases k + 1), reads := Sparse.put zeros f.reads k 0
        pages := f.pages.filter fun kv => pageBlock kv.1 != k
        layout := f.layout.filter fun kv => !kv.2.any fun p => pageBlock p == k } }
  else { s with flash := { f with used := k :: f.used } }

/-- Take the next page of channel `c` of base die `d`. A full block is followed by a free one. -/
def State.takePage (s : State) (d c : Nat) : Option Nat × State :=
  let key := 8 * d + c
  let o := Sparse.get zeros s.flash.opened key
  let put (s : State) (v : Nat) : State := { s with flash := { s.flash with opened := Sparse.put zeros s.flash.opened key v } }
  if o ≠ 0 ∧ (o - 1) % 4096 < 2048 then (some (2048 * ((o - 1) / 4096) + (o - 1) % 4096), put s (o + 1))
  else
    match s.chooseBlock d c with
    | none => (none, s)
    | some k => (some (2048 * k), put (s.eraseBlock k) (1 + k * 4096 + 1))

/-- Program a flash page, which joins the open stripe of base die `d`. -/
def State.putFlashPage (s : State) (d k : Nat) (p : FlashPage) : State :=
  { s with flash := { s.flash with
      pages := Sparse.put pageErased s.flash.pages k p, filled := setAt [] s.flash.filled d (nth s.flash.filled d [] ++ [k]) } }

/-- R193: close the open stripe of base die `d`: its parity page is written, and the next stripe opens. -/
def State.closeStripe (s : State) (d : Nat) : State :=
  let parity := xorPages ((nth s.flash.filled d []).map s.flashPage)
  let s := match s.takePage d (s.stripeChans d).1 with
    | (some k, s) => s.putFlashPage d k parity
    | (none, s) => s
  { s with flash := { s.flash with
      layout := Sparse.put (fun _ => []) s.flash.layout (s.openStripe d) (nth s.flash.filled d [])
      stripes := setAt 0 s.flash.stripes d (nth s.flash.stripes d 0 + 1), filled := setAt [] s.flash.filled d [] } }

/-- R192, R193: program `dat` as logical unit `x` in the next page of its base die's open stripe. False where no free block is
left. -/
def State.programLu (s : State) (x dat : Nat) : Bool × State :=
  let d := luBase x
  let (_, chans) := s.stripeChans d
  match chans[(nth s.flash.filled d []).length]? with
  | none => (false, s)
  | some c =>
    match s.takePage d c with
    | (none, s) => (false, s)
    | (some k, s) =>
      let n := nth s.flash.seqs d 0
      let l := { s.lu x with written := true, poisoned := false, page := k, stripe := s.openStripe d }
      let s := (s.putFlashPage d k { unit := x / 8, seq := n, crc := flashCrc (x / 8) n dat, dat := dat }).setLu x l
      let s := { s with flash := { s.flash with
        seqs := setAt 0 s.flash.seqs d ((n + 1) % 2 ^ 64), lastLu := setAt 0 s.flash.lastLu d s.clock.now } }
      (true, if (nth s.flash.filled d []).length ≥ chans.length then s.closeStripe d else s)

/-- R202: a write of logical unit `x`: programmed and counted, or discarded for want of a free block, and the unit poisoned. -/
def State.writeLu (s : State) (x dat : Nat) : State :=
  match s.programLu x dat with
  | (true, s) => s.bump64 P.luWrites (luBase x) 1
  | (false, s) => (s.markPoison x).bump64 P.discardedWrites 0 1

/-- R196: the lowest-numbered free logical unit of the mirror area with the residue of the second copy of `x`. -/
def mirrorFrom (used : Sparse Nat) : Nat → Nat → Option Nat
  | 0, _ => none
  | n + 1, m => if used.any (fun e => e.1 == m) then mirrorFrom used n (m + 8) else some m

/-- R196: the mirror area's first logical unit and its size in logical units of one residue. -/
def State.mirrorLu (s : State) (x : Nat) : Option Nat :=
  let first := s.bwBlocks * 4096
  mirrorFrom s.flash.mirrors (s.val P.mirrorBlocks * 512) (first + (x + 4) % 8)

/-- R196: the second copy of a mirrored logical unit of page `page` is programmed four base dies away. One that finds no free block
counts as a discarded write (DEDUCED, assumption log 90). -/
def State.writeCopy (s : State) (x page dat : Nat) : State :=
  match (s.lu x).copy.orElse fun _ => s.mirrorLu x with
  | none =>
    let s := s.bump64 P.mirrorShort 0 1
    if s.mem.mirrorTold then s
    else { s with mem := { s.mem with mirrorTold := true } }.raiseEvent 7 0x0B (srcBase (luBase x)) page 0
  | some m =>
    let s := s.setLu x { s.lu x with copy := some m }
    { s with flash := { s.flash with mirrors := Sparse.put zeros s.flash.mirrors m (x + 1) } }.writeLu m dat

/-- The writes of base die `d` that are not complete, oldest first. -/
def State.luQueue (s : State) (d : Nat) : List LuWrite := s.flash.writes.filter fun w => luBase w.lu == d

/-- LU_WRITE_COMPLETE (R193, R194, R196, R202): the oldest write of the base die, if it is of logical unit `x`, is programmed,
with its second copy. -/
def luWriteStep (s : State) (x : Nat) : State :=
  match s.luQueue (luBase x) with
  | [] => s
  | w :: _ =>
    if w.lu ≠ x then s
    else
      let dat := w.over (s.luContent x)
      let s := { s with flash := { s.flash with writes := removeFirst (fun k => luBase k.lu == luBase x) s.flash.writes } }
      let s := s.writeLu x dat
      if w.mirrored ∧ (s.lu x).valid then s.writeCopy x w.page dat else s

/-- LU_WRITE_COMPLETE. -/
def execLuWriteComplete (lu : Nat) (s : State) : Host.Outcome State Fault Refusal := .next (luWriteStep s lu)

/-- Spare blocks left on base die `d` (0x3051.04). -/
def State.spareBlocks (s : State) (d : Nat) : Nat :=
  (Config.spareBlocks d).toNat - (s.flash.retired.filter fun k => k / 81920 == d).length

/-- R202: retire a block of base die `d`; its valid logical units are to be moved. -/
def State.retireBlock (s : State) (d k : Nat) : State :=
  if s.flash.retired.contains k then s
  else
    let f := s.flash
    let s := { s with flash := { f with
      retired := f.retired ++ [k], moving := f.moving ++ [k]
      opened := f.opened.filter fun o => (o.2 - 1) / 4096 != k } }.bump32 P.retiredBlocks d 1
    if s.spareBlocks d = 820 then s.raiseEvent 3 0x04 (srcBase d) 820 0 else s

/-- R199, R202: move every valid logical unit of block `k`, second copies and journal units among them; reads switch to the new
pages. -/
def State.relocateBlock (s : State) (d k : Nat) : State :=
  let s := (s.flash.lus.filter fun l => l.2.valid && pageBlock l.2.page == k).foldl (fun s l =>
    match s.programLu l.1 (s.luContent l.1) with
    | (true, s) => s
    | (false, s) => (s.markPoison l.1).bump64 P.discardedWrites 0 1) s
  { s with flash := { s.flash with moving := s.flash.moving.filter (· != k) } }.bump64 P.relocations d 1

/-- R201: every step of the ladder failed for logical unit `x`: it becomes poisoned, and the page that it belongs to is told. -/
def State.poisonLu (s : State) (x : Nat) : State :=
  let s := s.markPoison x
  match s.luTiles x with
  | none => s.condition 4
  | some (p, ts) =>
    let n := min (eUncorrected (s.page p) + ts.length) 0xFFFF
    let s := (s.putPage p (setBits (s.page p) 96 16 n)).condition 4
    s.raiseEvent 3 0x02 (srcBase (luBase x)) p (ts.foldl (fun a t => a + 2 ^ t) 0)

/-- R208: the first logical unit of the journal area, and the units of each half. -/
def State.journalLus (s : State) : Nat × Nat :=
  ((262144 - s.val P.journalBlocks) * 4096, s.val P.journalBlocks / 2 * 4096)

/-- The second copy of logical unit `x`: that of R196, or copy 1 of the journal (R208). -/
def State.copyOf (s : State) (x : Nat) : Option Nat :=
  let (first, half) := s.journalLus
  if first ≤ x ∧ x < first + half then some (x + half) else (s.lu x).copy

/-- Whether the page of logical unit `x` lies on a channel that is in service (R203). -/
def State.luReachable (s : State) (x : Nat) : Bool := !s.flash.badChans.contains (8 * luBase x + pageChan (s.lu x).page)

/-- R200, R203: the other pages of the stripe of logical unit `x`, once the stripe has closed and no other page of it is lost. -/
def State.rebuildPages (s : State) (x : Nat) : Option (List Nat) :=
  let l := s.lu x
  let ps := (Sparse.get (fun _ => []) s.flash.layout l.stripe).filter (· != l.page)
  if ps.isEmpty ∨ ps.any fun p => s.flash.badChans.contains (8 * luBase x + pageChan p) then none else some ps

/-- R192, R200: whether step 0 or 1, and whether step 2, can return logical unit `x`. -/
def State.directRead (s : State) (x : Nat) : Bool :=
  (s.lu x).valid && s.luReachable x && (s.flashPage (s.lu x).page).matches (x / 8)
/-- Step 2: the XOR of the other seven pages of the stripe. -/
def State.parityRead (s : State) (x : Nat) : Bool :=
  (s.lu x).valid && (match s.rebuildPages x with
    | some ps => (xorPages (ps.map s.flashPage)).matches (x / 8)
    | none => false)

/-- A page is read (R205). -/
def State.countRead (s : State) (k : Nat) : State :=
  let b := pageBlock k
  { s with flash := { s.flash with reads := Sparse.put zeros s.flash.reads b (Sparse.get zeros s.flash.reads b + 1) } }

/-- R199 to R203, R208: where the ladder of a read of logical unit `x` ended. Steps 0 and 1 need the unit's own page, step 2 a
closed stripe with no other page lost, step 3 a second copy, and each a page with matching metadata. A read of an unwritten or
of a poisoned unit needs no flash read (R190, R191). -/
def luReadStep (s : State) (x : Nat) (r : LadderEnd) : State :=
  let l := s.lu x
  if ¬ l.valid then s
  else
    let d := luBase x
    let k := pageBlock l.page
    let s' := s.countRead l.page
    match r with
    | .step j =>
      match j.val with
      | 0 => if s.directRead x then s' else s
      | 1 =>
        if ¬ s.directRead x then s
        else
          let s := s'.bump64 P.ladderRecovered (3 * d) 1
          { s with flash := { s.flash with moving := s.flash.moving ++ [k] } }
      | 2 =>
        if ¬ s.parityRead x then s
        else
          let s := ((s.rebuildPages x).getD []).foldl State.countRead s'
          (s.bump64 P.ladderRecovered (3 * d + 1) 1).retireBlock d k
      | _ =>
        match s.copyOf x with
        | some m =>
          if s.directRead m ∨ s.parityRead m then
            ((s'.countRead (s.lu m).page).bump64 P.ladderRecovered (3 * d + 2) 1).retireBlock d k
          else s
        | none => s
    | .failed => ((s'.bump64 P.ladderFailed d 1).poisonLu x).retireBlock d k

/-- STRIPE_CLOSE_TIMEOUT (R193): an open stripe that received no unit for 2 ms is closed with padding pages, which hold no unit. -/
def stripeCloseStep (s : State) (d : Nat) : State :=
  let n := (nth s.flash.filled d []).length
  if n = 0 ∨ ¬ s.up 2 then s
  else
    let s := s.reach (nth s.flash.lastLu d 0 + 2000 * usRoot)
    let s := ((s.stripeChans d).2.drop n).foldl (fun s c =>
      match s.takePage d c with
      | (some k, s) => s.putFlashPage d k {}
      | (none, s) => s) s
    s.closeStripe d

/-- STRIPE_CLOSE_TIMEOUT. -/
def execStripeCloseTimeout (bd : BaseDie) (s : State) : Host.Outcome State Fault Refusal := .next (stripeCloseStep s bd)

/-- BLOCK_RELOCATION (R199, R202, R206): the units of a block have been written anew and the mapping switches. -/
def blockRelocationStep (s : State) (d k : Nat) : State := if s.up 2 then s.relocateBlock d k else s

/-- BLOCK_RELOCATION. -/
def execBlockRelocation (bd : BaseDie) (block : Nat) (s : State) : Host.Outcome State Fault Refusal :=
  .next (blockRelocationStep s bd (blockKey bd (block % 81920)))

/-- PROGRAM_ERASE_FAILURE (R202): the block is retired and the write goes to another. -/
def programFailureStep (s : State) (d k : Nat) : State := if s.up 2 then s.retireBlock d k else s

/-- PROGRAM_ERASE_FAILURE. -/
def execProgramEraseFailure (bd : BaseDie) (block : Nat) (s : State) : Host.Outcome State Fault Refusal :=
  .next (programFailureStep s bd (blockKey bd (block % 81920)))

/-- Erase counts of a base die's in-service blocks: lowest and highest. -/
def State.eraseSpread (s : State) (d : Nat) : Nat × Nat :=
  let mine := s.flash.erases.filter fun kv => kv.1 / 81920 == d && !s.flash.retired.contains kv.1
  let hi := mine.foldl (fun m kv => max m kv.2) 0
  let dead := (s.flash.retired.filter fun k => k / 81920 == d).length
  let lo := if mine.length + dead < 81920 then 0 else mine.foldl (fun m kv => min m kv.2) hi
  (lo, hi)

/-- WEAR_LEVEL (R204): while the counts differ by more than WearSpread, the units of a block with the lowest count that
holds any move. -/
def wearLevelStep (s : State) (d : Nat) : State :=
  let (lo, hi) := s.eraseSpread d
  if hi - lo ≤ s.val P.wearSpread ∨ ¬ s.up 2 then s
  else
    match s.flash.lus.find? (fun l => l.2.valid && pageBlock l.2.page / 81920 == d
        && Sparse.get zeros s.flash.erases (pageBlock l.2.page) == lo) with
    | some l => s.relocateBlock d (pageBlock l.2.page)
    | none => s

/-- WEAR_LEVEL. -/
def execWearLevel (bd : BaseDie) (s : State) : Host.Outcome State Fault Refusal := .next (wearLevelStep s bd)

/-- READ_DISTURB_LIMIT (R205): a block whose reads since its last program reached ReadDisturbLimit is relocated. -/
def readDisturbStep (s : State) (d k : Nat) : State :=
  if Sparse.get zeros s.flash.reads k < s.val P.readDisturbLimit ∨ ¬ s.up 2 then s
  else
    let s := s.relocateBlock d k
    { s with flash := { s.flash with reads := Sparse.put zeros s.flash.reads k 0 } }

/-- READ_DISTURB_LIMIT. -/
def execReadDisturbLimit (bd : BaseDie) (block : Nat) (s : State) : Host.Outcome State Fault Refusal :=
  .next (readDisturbStep s bd (blockKey bd (block % 81920)))

/-- R205: the written logical units of base die `d`, by local unit from `from'` on. -/
def State.scanRest (s : State) (d from' : Nat) : List (Nat × LuInfo) :=
  s.flash.lus.filter fun l => l.2.valid && luBase l.1 == d && decide (from' ≤ l.1 / 8)

/-- FLASH_PATROL_SCAN (R205): the scan of a base die reads the page of the next written logical unit; a block that shows a weak
codeword is relocated. A pass starts at local unit 0, and FlashScanPeriod after the pass before it. -/
def flashScanStep (s : State) (d : Nat) (weak : Bool) : State :=
  let period := s.val P.flashScanPeriod
  if period = 0 ∨ ¬ s.up 2 then s
  else
    let read (s : State) (l : Nat × LuInfo) : State :=
      let s := s.countRead l.2.page
      let s := { s with flash := { s.flash with scan := setAt 0 s.flash.scan d (l.1 / 8 + 1) } }
      if weak then s.relocateBlock d (pageBlock l.2.page) else s
    match s.scanRest d (nth s.flash.scan d 0), s.scanRest d 0 with
    | l :: _, _ => read s l
    | [], l :: _ =>
      let s := s.reach (nth s.flash.scanFrom d 0 + period * secRoot)
      read { s with flash := { s.flash with scanFrom := setAt 0 s.flash.scanFrom d s.clock.now } } l
    | [], [] => s

/-- FLASH_PATROL_SCAN: a codeword is weak that needs step 1 of the ladder, or shows more than 60 corrected bits in 4 KiB. -/
def execFlashPatrolScan (bd : BaseDie) (step1 : Bool) (bits : Nat) (s : State) : Host.Outcome State Fault Refusal :=
  .next (flashScanStep s bd (step1 || decide (60 < bits)))

/-- Make entry `v` of page `p` durable. -/
def State.persist (s : State) (p : Nat) (v : BitVec 128) : State :=
  { s with flash := { s.flash with entries := Sparse.put pageDefault s.flash.entries p v } }

/-- BW_ENTRY_PERSIST (R198): the entry of a page whose Home and Tier are BW becomes durable; that of another page is no
longer kept. -/
def bwPersistStep (s : State) (p : Nat) : State :=
  if ¬ s.flash.entryDue.any (fun d => d.1 == p) then s
  else
    let s := s.persist p (keptEntry p (s.page p))
    { s with flash := { s.flash with entryDue := s.flash.entryDue.filter fun d => d.1 != p } }

/-- BW_ENTRY_PERSIST. -/
def execBwEntryPersist (page : Nat) (s : State) : Host.Outcome State Fault Refusal := .next (bwPersistStep s page)

/-- R194: the units of every stripe that never closed are read through steps 0 and 1 and written anew; those in `lost`, and
those on a channel that is mapped out, cannot be read and become poisoned. -/
def State.rebuildStripes (s : State) (lost : List Nat) : State :=
  (List.range 8).foldl (fun s d =>
    let old := s.flash.lus.filter fun l => l.2.valid && luBase l.1 == d && l.2.stripe == s.openStripe d
    if nth s.flash.filled d [] = [] then s
    else
      let data := old.map fun l => (l.1, s.luContent l.1, !lost.contains l.1 && s.directRead l.1)
      let s := s.closeStripe d
      data.foldl (fun s (x, dat, good) =>
        if ¬ good then s.markPoison x
        else
          match s.programLu x dat with
          | (true, s) => s
          | (false, s) => (s.markPoison x).bump64 P.discardedWrites 0 1) s) s

/-- R198: at power-up the entries kept are restored, and their tiles read from the flash. -/
def State.restoreEntries (s : State) : State :=
  s.flash.entries.foldl (fun s kv =>
    let e := setBits (setBits kv.2.toNat 19 1 0) 20 1 1
    (List.range 64).foldl (fun s t => s.putTile (64 * kv.1 + t) (s.bwTile e (64 * kv.1 + t))) (s.setPage kv.1 e)) s

/-- R194, R198: at a power loss, each write that had not completed leaves its unit with its old or its new content, and each
entry applied within the last 10 ms is restored as it was before or after; which, the manual leaves open (DESIGN CHOICE,
assumption log 20). -/
def State.loseWrites (s : State) : State :=
  let s' := s.flash.writes.foldl (fun s w =>
    let (n, s) := s.draw
    if Config.freeLuNew n then (s.programLu w.lu (w.over (s.luContent w.lu))).2 else s) s
  let s' := s'.flash.entryDue.foldl (fun s (p, due, v) =>
    let (n, s) := s.draw
    if due ≤ s.clock.now ∨ Config.freeLuNew n then s.persist p v else s) s'
  { s' with flash := { s'.flash with writes := [], entryDue := [] } }

/-- R195: the outcome of a change of JournalBlocks and MirrorBlocks. A block that would change role must hold nothing. -/
def State.layoutCode (s : State) (j m : Nat) (journalUse : Nat → Bool) : Nat :=
  if j % 2 = 1 ∨ j < 2 ∨ j + m > 131072 then 0x01
  else
    let role (j m b : Nat) : Nat := if b ≥ 262144 - j then 2 else if b ≥ 262144 - j - m then 1 else 0
    let oj := s.val P.journalBlocks
    let om := s.val P.mirrorBlocks
    let changes (b : Nat) : Bool := role oj om b != role j m b
    let frame := s.mem.pages.any fun kv => eKind kv.2.toNat == 1 && eTier kv.2.toNat == 3
      && changes ((eFrame kv.2.toNat - bwBase) / 64)
    let copy := s.flash.mirrors.any fun kv => changes (kv.1 / 4096)
    if frame || copy || (List.range (oj - j)).any journalUse then 0x02 else 0

end Sys2Proof.Machine
end

