-- ==== Sys2Proof/Machine/Move.lean ====
section
/-! DEFINITION. The move engine's entries: MOVE (R65, R69, R185), GATHER and SCATTER (R178 to R182). -/

namespace Sys2Proof.Machine

/-- The width class that a MOVE of an unmapped tile takes: that of its destination page (R185). -/
def State.classOfDest (s : State) (id : Nat) : Nat :=
  match s.place id with
  | .mapped _ c | .viaAlias _ c => c
  | .unmapped | .hollow => 0

/-- The remote signal of a MOVE (Table 2-4). -/
def moveSignal (e step : Nat) : List Effect :=
  if enM e 0 7 = 0x7F ∨ enM e 13 2 = 0 then [] else [.raise (enM e 0 7) (enM e 7 6) (enM e 13 2) step]

/-- MOVE: the tile and its sidecar as they stand at issue, verified when DigestVerify bit 0 is 1. -/
def moveAct (s : State) (c : Ctx) : Issued :=
  let e := c.entry
  let src := tileOperand c.x (enA e)
  let dst := tileOperand c.x (enD e)
  let (t, w, s) := s.readRaw c.sl src (s.classOfDest dst)
  let (t, s) := s.verifyTile c.sl dst w t (bit (s.val P.digestVerify) 0)
  let due := if s.resident c.sl src && s.resident c.sl dst then c.after (16 + ceilDiv (16384 * w + 256) 1024)
    else c.after 1
  { state := s, due := due, effects := .moveTile dst w t :: moveSignal e s.step }

/-- The millrace descriptor in force. -/
def State.millDesc (s : State) (k : Nat) : Nat := s.reg P.millraceTable k

/-- Key of the 32-byte granule `g` of region `k`. -/
def millKey (k g : Nat) : Nat := k * 2 ^ 41 + g

/-- `g` bytes (32 or 64) of region `k` at granule index `v`. -/
def State.millRead (s : State) (k g v : Nat) : Nat :=
  let n := g / 32
  (List.range n).foldl (fun acc i => acc + Sparse.get zeros s.mem.millrace (millKey k (n * v + i)) * 2 ^ (256 * i)) 0

/-- Whether a memory error has poisoned any part of a granule of region `k`. -/
def State.millPoisoned (s : State) (k g v : Nat) : Bool :=
  let n := g / 32
  (List.range n).any fun i => s.mem.millPoison.contains (k, n * v + i)

/-- Store a granule of region `k`; the store clears a poison mark. -/
def State.millWrite (s : State) (k g v x : Nat) : State :=
  let n := g / 32
  let keys := (List.range n).map fun i => n * v + i
  let m := (List.range n).foldl
    (fun m i => Sparse.put zeros m (millKey k (n * v + i)) (bits x (256 * i) 256)) s.mem.millrace
  { s with mem := { s.mem with millrace := m, millPoison := s.mem.millPoison.filter fun p =>
      !(p.1 == k && keys.contains p.2) } }

/-- An index tile: 32-bit raw elements; a tile of another width reads as zeros (R68, R180). -/
structure IndexIn where
  rows     : List (List Nat)
  poison   : Bool
  mismatch : Bool
  deriving DecidableEq, Repr

/-- R180: read an index tile, checked for width only. -/
def State.readIndex (s : State) (sl id : Nat) : IndexIn × State :=
  match s.place id with
  | .unmapped | .hollow => (⟨zeroElems, true, false⟩, s.unmappedAccess sl id)
  | .mapped i c | .viaAlias i c =>
    let t := s.tile i
    if ¬ t.written then (⟨zeroElems, t.poisoned, false⟩, s)
    else if classBytes c ≠ 4 then (⟨zeroElems, t.poisoned, true⟩, s.bump64 P.widthMismatches sl 1)
    else (⟨t.elems 4, t.poisoned, false⟩, s)

/-- What an index value means (R181): padding, out of range, or a granule of the region. -/
inductive MillIndex where
  | padding
  | outside
  | at (v : Nat)
  deriving DecidableEq, Repr

/-- R181. -/
def millIndex (size g v : Nat) : MillIndex :=
  if v = 0xFFFFFFFF then .padding else if g * (v + 1) ≤ size then .at v else .outside

/-- The granule size of a GATHER or SCATTER. -/
def millGran (e : Nat) : Nat := if enM e 0 1 = 0 then 32 else 64

/-- The index values of a tile's granules: row, granule and value, ascending. -/
def millCells (rows : List (List Nat)) (k : Nat) : List (Nat × Nat × Nat) :=
  ((List.range 128).zip rows).flatMap fun (i, r) => ((List.range k).zip (r.take k)).map fun (g, v) => (i, g, v)

/-- GATHER (R180, R181, R182). -/
def gatherAct (s : State) (c : Ctx) : Issued :=
  let e := c.entry
  let k := enM e 1 8
  let d := s.millDesc k
  let f := mrFmt d
  let g := millGran e
  let (ix, s) := s.readIndex c.sl (tileOperand c.x (enA e))
  let cells := (millCells ix.rows (128 * f.bytes / g)).map fun (i, j, v) => (i, j, millIndex (mrSize d) g v)
  let outside := (cells.filter fun q => q.2.2 == .outside).length
  let bad := cells.any fun q => match q.2.2 with
    | .at v => s.millPoisoned k g v
    | _ => false
  let w := c.writer s 0
  let granule (i j : Nat) : MillIndex → Nat
    | .at v => s.millRead k g v * 2 ^ (8 * g * j)
    | _ => i * 0
  let rows := (List.range 128).map fun i => (cells.filter fun q => q.1 == i).foldl
    (fun acc q => acc + granule q.1 q.2.1 q.2.2) 0
  let t : Tile := { rows := rowMap rows, flags := if ix.mismatch then flagINV else 0, status := statusWord w f.code false false
                    stamp := w.stamp, setId := w.setId, entry := w.entry }
  let t := if ix.poison || bad then Tile.poison w f.code else { t with digest := t.computeDigest f.bytes }
  let count : List Effect := if ix.poison then [] else [.bump P.millraceOutOfRange c.sl outside]
  { state := s, due := c.after 1, effects := .tile (tileOperand c.x (enD e)) (fmtClass f) 3 w t :: count }

/-- SCATTER (R180, R181, R182). The granules' bytes are those of tile A at issue; under Op 2 they are FP32 values. -/
def scatterAct (s : State) (c : Ctx) : Issued :=
  let e := c.entry
  let k := enM e 1 8
  let d := s.millDesc k
  let f := mrFmt d
  let g := millGran e
  let (a, s) := s.readOperand c.sl (tileOperand c.x (enA e)) f
  let (ix, s) := s.readIndex c.sl (tileOperand c.x (enB e))
  if a.poison || ix.poison then { state := s, due := c.after 1, effects := [.flagWord 4] }
  else
    let src := (a.elems.zip a.scales).map fun (r, sc) =>
      packRow f.bytes (if mrOp d = 2 then r.map fun x => (decodeIn f sc x).1 else r)
    let cells := (millCells ix.rows (128 * f.bytes / g)).map fun (i, j, v) => (i, j, millIndex (mrSize d) g v)
    let outside := (cells.filter fun q => q.2.2 == .outside).length
    let out := cells.filterMap fun (i, j, m) => match m with
      | .at v => some (v, bits (nth src i 0) (8 * g * j) (8 * g))
      | _ => none
    { state := s, due := c.after 1
      effects := [.scatter k g out, .bump P.millraceOutOfRange c.sl outside] }

/-- R180, R182: Op 2 adds the FP32 values of a granule: the sum, and how many additions returned INV, OVF and UNF. -/
def millAdd (n old x : Nat) : Nat × Nat × Nat × Nat :=
  (List.range n).foldl (fun acc i =>
    let (v, a, o, u) := acc
    let (r, f) := toF32 ((f32 (bits old (32 * i) 32)).add (f32 (bits x (32 * i) 32)))
    (v + r * 2 ^ (32 * i), a + b2n (Nat.land f flagINV != 0), o + b2n (Nat.land f flagOVF != 0),
      u + b2n (Nat.land f flagUNF != 0))) (0, 0, 0, 0)

/-- One granule of a SCATTER reaches HBM. -/
def State.scatterCell (s : State) (sl k g v x : Nat) : State :=
  if mrOp (s.millDesc k) = 2 then
    if s.millPoisoned k g v then s.condition 4
    else
      let (r, a, o, u) := millAdd (g / 4) (s.millRead k g v) x
      let s := s.millWrite k g v r
      let s := ((s.bump64 P.millraceInvalid sl a).bump64 P.millraceOverflows sl o).bump64 P.millraceUnderflows sl u
      if a = 0 then s else s.condition 1
  else s.millWrite k g v x

/-- What one effect of an entry of slot `sl` makes visible at its completion. -/
def State.applyEffect (s : State) (sl : Nat) : Effect → State
  | .tile id cls b w t => s.writeTile sl w b id cls t
  | .moveTile id width t =>
    s.write { acct := sl, id := id, cls := Nat.log2 width, ovf := 3, column := some (bits t.status 6 2), tile := t }
  | .reg r v p => s.setDie sl ((s.die sl).setVreg r v p)
  | .bump p e n => s.bump p e n (if p = P.postRepeats then 4 else 8)
  | .orByte p e v => s.setReg p e (Nat.lor (s.reg p e) v)
  | .raise sl' t n st =>
    { s with seq := { s.seq with fabric := s.seq.fabric ++ [{ slot := sl', token := t, count := n, step := st, sent := s.clock.now }] } }
  | .post ch a b p =>
    let s := { s with riffle := { s.riffle with posts := s.riffle.posts ++ [(sl, ch, s.step, a, b, p)] } }
    if p && bit (s.reg P.watchChannelMap ch) 15 then s.bump64 P.poisonedPosts 0 1 else s
  | .scatter k g cells => cells.foldl (fun s q => s.scatterCell sl k g q.1 q.2) s
  | .flagWord w => s.condition w

/-- MOVE. -/
def execMove (sl : Slot) (st : StreamIx) (s : State) : Host.Outcome State Fault Refusal :=
  .next (s.tryIssue sl st (fun e => enOpcode e == 0x30) moveAct)
/-- GATHER. -/
def execGather (sl : Slot) (st : StreamIx) (s : State) : Host.Outcome State Fault Refusal :=
  .next (s.tryIssue sl st (fun e => enOpcode e == 0x31) gatherAct)
/-- SCATTER. -/
def execScatter (sl : Slot) (st : StreamIx) (s : State) : Host.Outcome State Fault Refusal :=
  .next (s.tryIssue sl st (fun e => enOpcode e == 0x32) scatterAct)

end Sys2Proof.Machine
end

