-- ==== Sys2Proof/Machine/Streams.lean ====
section
/-! DEFINITION. The stream protocol (R218 to R227): headers, segments, acknowledgement, windows, retransmission and SYNC. -/

namespace Sys2Proof.Machine

/-- Fields of a stream entry (Table 10-6). -/
def State.streamEntry (s : State) (ns : Nat) : Nat := s.reg P.streamTable ns
/-- Used. -/
def seUsed (e : Nat) : Bool := bits e 0 8 == 1
/-- DSCP. -/
def seDscp (e : Nat) : Nat := bits e 8 6
/-- PeerStream. -/
def sePeer (e : Nat) : Nat := bits e 16 12
/-- Ports. -/
def sePorts (e : Nat) : Nat := bits e 64 48
/-- PeerAddress, as a big-endian number. -/
def seAddr (e : Nat) : Nat := beNat (leBytes 16 (bits e 128 128))
/-- Mgmt. -/
def seMgmt (e : Nat) : Bool := bit e 256

/-- The sending direction of stream `ns`. -/
def State.tx (s : State) (ns : Nat) : Tx := Sparse.get txDefault s.net.tx ns
/-- Replace it. -/
def State.setTx (s : State) (ns : Nat) (t : Tx) : State :=
  { s with net := { s.net with tx := Sparse.put txDefault s.net.tx ns t } }
/-- The receiving direction of stream `ns`. -/
def State.rx (s : State) (ns : Nat) : Rx := Sparse.get rxDefault s.net.rx ns
/-- Replace it. -/
def State.setRx (s : State) (ns : Nat) (r : Rx) : State :=
  { s with net := { s.net with rx := Sparse.put rxDefault s.net.rx ns r } }

/-- Whether port `k` is up. -/
def State.portUp (s : State) (k : Nat) : Bool := s.reg P.linkState k == 3

/-- R223: the port that carries a packet of Seq `q`, modulo 2^32, on a stream. -/
def State.choosePort (s : State) (e q : Nat) : Option Nat :=
  let up := (List.range 48).filter fun k => bit (sePorts e) k && s.portUp k
  up[q % 2 ^ 32 % max up.length 1]?

/-- An IPv6 address that a 16-byte parameter holds in network byte order. -/
def State.addrOf (s : State) (p : Nat) : Nat := beNat (leBytes 16 (s.val p))

/-- R215, R216: how a frame leaves port `p`: from MacBase + p to the port's NextHop. -/
def State.dataLink (s : State) (p : Nat) : Link :=
  { carrier := .data (Fin.ofNat 48 p), srcMac := (s.val P.macBase + p) % 2 ^ 48, destMac := some (bits (s.reg P.nextHop p) 0 48) }

/-- The ones' complement sum of 16-bit words. -/
def onesSum : List Nat → Nat
  | [] => 0
  | x :: xs =>
    let t := x + onesSum xs
    t % 2 ^ 16 + t / 2 ^ 16

/-- The 16-bit words of bytes in network order, a last odd byte padded with zero. -/
def words16 : List Byte → List Nat
  | [] => []
  | [a] => [a.toNat * 256]
  | a :: b :: bs => (a.toNat * 256 + b.toNat) :: words16 bs

/-- The UDP checksum over IPv6 (R216): of the pseudo-header, the UDP header and the payload; 0 is sent as 0xFFFF. -/
def udpChecksum (src dest srcPort dstPort : Nat) (payload : List Byte) : Nat :=
  let n := 8 + payload.length
  let head := beBytes 16 src ++ beBytes 16 dest ++ beBytes 4 n ++ beBytes 4 17 ++ beBytes 2 srcPort ++ beBytes 2 dstPort
    ++ beBytes 2 n ++ beBytes 2 0
  let c := 0xFFFF - onesSum (words16 (head ++ payload))
  if c = 0 then 0xFFFF else c

/-- A UDP packet with its checksum. -/
def udpPacket (src dest : Nat) (ip : Option IpFields) (srcPort dstPort : Nat) (payload : List Byte) : Udp :=
  { src := src, dest := dest, ip := ip, srcPort := srcPort, dstPort := dstPort, payload := payload
    checksum := udpChecksum src dest srcPort dstPort payload }

/-- R216: the IPv6 fields of a stream packet: Hop Limit 64, the DSCP with ECT(0), the flow label. -/
def streamIp (dscp stream q : Nat) : IpFields :=
  { hopLimit := 64, trafficClass := 4 * dscp + 2, flowLabel := stream * 256 + q % 256 }

/-- The 32-byte header with its Crc over a payload (Table 10-3). -/
def netPacket (cls flags stream epoch seq msg step ix : Nat) (payload : List Byte) : List Byte :=
  let head := beBytes 1 (0x10 + cls) ++ beBytes 1 flags ++ beBytes 2 stream ++ beBytes 4 epoch ++ beBytes 4 seq
    ++ beBytes 4 msg ++ beBytes 8 step ++ beBytes 2 ix ++ beBytes 2 payload.length
  head ++ beBytes 4 (crc32c (head ++ beBytes 4 0 ++ payload)) ++ payload

/-- R216: send a packet of a stream with Seq `q`; with no listed port up nothing leaves. -/
def State.sendPacket (s : State) (ns q : Nat) (pkt : List Byte) : State :=
  let e := s.streamEntry ns
  match s.choosePort e q with
  | none => s
  | some p =>
    s.emit (.udp (s.dataLink p) (udpPacket (s.addrOf P.moduleAddress) (seAddr e) (some (streamIp (seDscp e) (sePeer e) q))
      (49152 + (sePeer e + q) % 16384) (s.val P.streamUdpPort) pkt))

/-- Header class, flags, stream, epoch and the other fields of a received packet. -/
structure Header where
  version : Nat
  cls     : Nat
  flags   : Nat
  stream  : Nat
  epoch   : Nat
  seq     : Nat
  msg     : Nat
  step    : Nat
  ix      : Nat
  payload : List Byte
  crcOk   : Bool
  deriving DecidableEq, Repr

/-- Read a packet (Table 10-3). -/
def parseHeader (pkt : List Byte) : Header :=
  { version := beField pkt 0 1 / 16, cls := beField pkt 0 1 % 16, flags := beField pkt 1 1
    stream := beField pkt 2 2 % 4096, epoch := beField pkt 4 4, seq := beField pkt 8 4, msg := beField pkt 12 4
    step := beField pkt 16 8, ix := beField pkt 24 2, payload := slice pkt 32 (beField pkt 26 2)
    crcOk := decide (32 ≤ pkt.length) &&
      beField pkt 28 4 == crc32c (pkt.take 28 ++ beBytes 4 0 ++ slice pkt 32 (beField pkt 26 2)) }

/-- The kind of a SYNC packet: 0 SYNC, 1 SYNCACK, 2 NEEDSYNC. -/
def syncKind (h : Header) : Nat := beField h.payload 0 1

/-- R224: whether a packet's Epoch differs from the one recorded for its stream. SYNC records one; DATA is checked where it arrives
(R227). Nothing differs from an Epoch that no SYNC has recorded yet (DEDUCED, assumption log 96). -/
def State.oldEpoch (s : State) (h : Header) : Bool :=
  h.cls != 0 && !(h.cls == 2 && syncKind h == 0) && (match (s.rx h.stream).epoch with
    | some e => e != h.epoch
    | none => false)

/-- R224: the checks of a packet of class `cls` that arrives on port `p`: what it discards it counts. Some header when the
packet goes on to its stream. -/
def State.receive (s : State) (p cls : Nat) (ce : Bool) (pkt : List Byte) : Option Header × State :=
  let h := parseHeader pkt
  if ¬ s.portUp p then (none, s)
  else if ¬ h.crcOk then (none, s.bump64 P.segmentCrcErrors (p / 6) 1)
  else if h.version ≠ 1 ∨ h.cls > 3 then (none, s.bump64 P.framesDropped p 1)
  else if h.cls ≠ cls then (none, s)
  else
    let e := s.streamEntry h.stream
    if ¬ seUsed e then (none, s.bump64 P.framesDropped p 1)
    else if seMgmt e ∧ cls ≠ 3 then (none, s.bump64 P.framesDropped p 1)
    else
      let s := if ce then s.bump64 P.congestionMarks h.stream 1 else s
      if s.oldEpoch h then (none, s.bump32 P.epochResets h.stream 1) else (some h, s)

/-- Segments of one FP32 tile's message (R219). -/
def State.tileSegs (s : State) : Nat := if s.val P.segmentBytes = 4096 then 17 else 9

/-- R243: the credit that the receiver grants on a stream: two tiles for every COLL in flight that the stream is a member
of, and some of the memory outside every share, how much of it the manual does not say (DESIGN CHOICE, assumption log 22). -/
def State.creditOf (s : State) (ns : Nat) : Nat :=
  let n := (s.net.colls.filter fun c =>
    let g := s.reg P.groupTable c.group
    (List.range (bits g 0 16)).any fun q => s.reg P.memberTable (bits g 32 32 + q) == ns).length
  n * 2 * s.tileSegs + (Config.heldCredit ns).toNat

/-- The ranges of accepted segments beyond Cum, at most 8 (Table 10-5). -/
def ackRanges (got : List Nat) : List (Nat × Nat) :=
  ((sortBy id got).foldl (fun acc q => match acc with
    | (a, b) :: rs => if q = b then (a, b + 1) :: rs else (q, q + 1) :: (a, b) :: rs
    | [] => [(q, q + 1)]) []).reverse.take 8

/-- R220: send an ACK. -/
def State.sendAck (s : State) (ns : Nat) : State :=
  let r := s.rx ns
  let credit := s.creditOf ns
  let rs := ackRanges r.got
  let payload := beBytes 4 r.cum ++ beBytes 4 credit ++ beBytes 1 rs.length ++ beBytes 3 0
    ++ rs.flatMap (fun q => beBytes 4 q.1 ++ beBytes 4 q.2) ++ beBytes (8 * (8 - rs.length)) 0
  let pkt := netPacket 1 (8 * b2n r.ece) (sePeer (s.streamEntry ns)) (s.val P.topologyEpoch) 0 0 0 0 payload
  (s.setRx ns { r with since := 0, ece := false, limit := max r.limit (r.cum + credit) }).sendPacket ns 0 pkt

/-- Send or resend one segment. -/
def State.sendSeg (s : State) (ns : Nat) (g : Seg) : State :=
  let flags := b2n g.first + 2 * b2n g.last + 4 * b2n g.sent
  let pkt := netPacket 0 flags (sePeer (s.streamEntry ns)) (s.val P.topologyEpoch) (g.seq % 2 ^ 32) (g.msg % 2 ^ 32) g.step
    g.ix g.payload
  let s := (s.sendPacket ns g.seq pkt).bump64 P.segmentsSent ns 1
  let s := if g.sent then s.bump64 P.retransmits ns 1 else s
  let t := s.tx ns
  s.setTx ns { t with segs := t.segs.map fun k =>
    if k.seq = g.seq then { k with sentAt := some s.clock.now, sent := true, lost := false } else k }

/-- Whether any listed port of a stream is up (R223). -/
def State.streamPort (s : State) (ns : Nat) : Bool := (s.choosePort (s.streamEntry ns) 0).isSome

/-- R221, R222: the segments that credit and window let a sender send now, in order: those never sent, and those to be sent again,
among the oldest unacknowledged that the window holds. -/
def Tx.sendable (t : Tx) : List Seg :=
  ((t.segs.filter fun g => !g.acked).take (t.win / 2 ^ 32)).filter fun g => (!g.sent || g.lost) && decide (g.seq < t.limit)

/-- R221 to R223: send what may be sent; with no listed port up, nothing. -/
def State.pump (s : State) (ns : Nat) : State :=
  let t := s.tx ns
  if ¬ t.synced ∨ ¬ s.streamPort ns then s else t.sendable.foldl (fun s g => s.sendSeg ns g) s

/-- R219: queue a message on a stream; its number. -/
def State.sendMessage (s : State) (ns step : Nat) (bytes : List Byte) : Nat × State :=
  let t := s.tx ns
  let n := s.val P.segmentBytes
  let parts := chunks n (bytes.length / max n 1 + 1) bytes
  let segs := ((List.range parts.length).zip parts).map fun (i, p) =>
    ({ seq := t.seq + i, msg := t.msg, step := step, ix := i, first := i == 0, last := i + 1 == parts.length
       payload := p } : Seg)
  (t.msg, (s.setTx ns { t with seq := t.seq + parts.length, msg := t.msg + 1, segs := t.segs ++ segs }).pump ns)

/-- The message descriptor of Table 10-4. -/
def msgDescriptor (kind signal group rank target inst index flagWord : Nat) : List Byte :=
  beBytes 1 kind ++ beBytes 1 0 ++ beBytes 2 signal ++ beBytes 2 group ++ beBytes 2 rank ++ beBytes 8 target
    ++ beBytes 4 inst ++ beBytes 4 index ++ beBytes 8 flagWord

/-- A tile as it travels: its sidecar and its element data (R219). -/
def tileBytes (t : Tile) (w : Nat) : List Byte := t.sidecarBytes ++ t.dataBytes w

/-- R227: whether every segment of message `m` is acknowledged. -/
def Tx.whole (t : Tx) (m : Nat) : Bool := t.segs.all fun g => g.msg != m || g.acked

/-- R227: send SYNC and restart the direction from its oldest message not fully acknowledged, which is resent whole. -/
def State.sendSync (s : State) (ns : Nat) : State :=
  let t := s.tx ns
  let open' : List Seg := match t.segs.find? (fun g => !g.acked) with
    | some g => t.segs.filter fun k => decide (g.msg ≤ k.msg)
    | none => []
  let segs := open'.map fun (g : Seg) => { g with acked := false, sentAt := none, lost := true, fast := false }
  let (q, m) := match segs with
    | g :: _ => (g.seq, g.msg)
    | [] => (t.seq, t.msg)
  let s := s.setTx ns { t with synced := false, segs := segs, cum := q, limit := q
                               syncAt := s.clock.now + s.val P.retxTimeout * usRoot }
  let s := s.setReg P.streamState ns 1
  s.sendPacket ns q (netPacket 2 0 (sePeer (s.streamEntry ns)) (s.val P.topologyEpoch) (q % 2 ^ 32) (m % 2 ^ 32) 0 0
    [BitVec.ofNat 8 0])

/-- The number of full width that a 32-bit field names, at or after `base`. -/
def unwrap32 (base x : Nat) : Nat := base + (x + 2 ^ 32 - base % 2 ^ 32) % 2 ^ 32

/-- The segments of message `m` of a stream, when the message is complete, in order. -/
def Rx.message (r : Rx) (m : Nat) : Option (List RSeg) :=
  let mine := sortBy (·.ix) (r.segs.filter fun g => g.msg == m)
  match mine.find? (·.last) with
  | none => none
  | some l => if mine.length = l.ix + 1 then some mine else none

/-- The bytes of a message. -/
def messageBytes (gs : List RSeg) : List Byte := gs.flatMap (·.payload)

/-- Kind of a message. -/
def messageKind (bs : List Byte) : Nat := beField bs 0 1

/-- Whether message `m` is complete and of Kind 3, which is applied out of turn (R225). -/
def Rx.isReplica (r : Rx) (m : Nat) : Bool :=
  match r.message m with
  | some gs => messageKind (messageBytes gs) == 3
  | none => false

/-- The first message at or after `m` that is neither applied nor of Kind 3 and complete. -/
def Rx.nextFrom (r : Rx) : Nat → Nat → Nat
  | 0, m => m
  | n + 1, m => if r.done.contains m || r.isReplica m then r.nextFrom n (m + 1) else m

/-- The segments of the next message of a stream in Message order, when it is complete (R225). -/
def Rx.headMessage (r : Rx) : Option (List RSeg) := r.message (r.nextFrom (r.segs.length + r.done.length) r.msg)

/-- The oldest complete message of Kind 3 (R225, R260). -/
def Rx.replicaMessage (r : Rx) : Option (List RSeg) :=
  ((sortBy id (r.segs.map (·.msg)).eraseDups).find? r.isReplica).bind r.message

/-- The kind of message `m`, where its first segment is here. -/
def Rx.kindOf (r : Rx) (m : Nat) : Option Nat :=
  (r.segs.find? fun g => g.msg == m && g.ix == 0).map fun g => messageKind g.payload

/-- Move Cum over what is accepted. -/
def cumFrom : Nat → Nat → List Nat → Nat
  | 0, c, _ => c
  | n + 1, c, got => if got.contains c then cumFrom n (c + 1) got else c

/-- A segment is accepted: Cum advances (R220). -/
def Rx.accept (r : Rx) (q now : Nat) : Rx :=
  let got := q :: r.got
  let c := cumFrom got.length r.cum got
  { r with got := got.filter (fun x => decide (c ≤ x)), cum := c, since := r.since + 1
           firstAt := if r.since = 0 then now else r.firstAt }

/-- The first message number at or after `m` that is not in a list. -/
def skipDone (done : List Nat) : Nat → Nat → Nat
  | 0, m => m
  | n + 1, m => if done.contains m then skipDone done n (m + 1) else m

/-- Message `m` has been applied or discarded (R225). -/
def Rx.finish (r : Rx) (m : Nat) : Rx :=
  let done := m :: r.done
  let next := skipDone done done.length r.msg
  { r with msg := next, done := done.filter (fun k => decide (next < k)), segs := r.segs.filter fun g => g.msg != m }

/-- R220, R225: a message has been applied or discarded: its LAST segment is accepted. -/
def State.finishMessage (s : State) (ns : Nat) (gs : List RSeg) : State :=
  let s := match gs.getLast? with
    | some l => s.setRx ns (((s.rx ns).accept l.seq s.clock.now).finish l.msg)
    | none => s
  if (s.rx ns).since ≥ 8 then s.sendAck ns else s

/-- R225: discard the next messages of a stream, those of earlier steps. -/
def dropStale : Nat → Nat → State → State
  | 0, _, s => s
  | n + 1, ns, s =>
    match (s.rx ns).headMessage with
    | none => s
    | some gs =>
      let stale := match gs with
        | g :: _ => decide (g.step < s.step)
        | [] => false
      if stale then dropStale n ns ((s.bump32 P.staleMessages ns 1).finishMessage ns gs) else s

/-- R225: discard every message of an earlier step that comes next. -/
def discardStale (ns : Nat) (s : State) : State := dropStale ((s.rx ns).segs.length + 1) ns s

/-- The next message of a stream if it may be applied now: of the open step (R225). -/
def State.applicable (s : State) (ns : Nat) : Option (List RSeg × List Byte) :=
  match (s.rx ns).headMessage with
  | none => none
  | some gs =>
    let bs := messageBytes gs
    match gs with
    | [] => none
    | g :: _ => if g.step = s.step then some (gs, bs) else none

/-- Bytes held of messages for later steps (R225); Kind 3 is exempt. -/
def State.heldBytes (s : State) (ns : Nat) : Nat :=
  let r := s.rx ns
  (r.segs.filter fun g => decide (s.step < g.step) && r.kindOf g.msg != some 3).foldl (fun n g => n + g.payload.length) 0

/-- Whether the COLL of a Kind 1 or 2 message of a step has issued (R239). -/
def State.collIssued (s : State) (bs : List Byte) (step : Nat) : Bool :=
  s.net.colls.any fun c => c.group == beField bs 4 2 && c.inst == beField bs 16 4 && c.step == step

/-- The base die whose confluence unit takes the messages of group `g`: that of its LocalSlot (Table 10-7). -/
def State.groupBase (s : State) (g : Nat) : Nat := bits (s.reg P.groupTable g) 64 8 / 8

/-- Bytes of the Kind 1 and 2 messages that came before their COLL, of base die `b`: those that its unit holds and those still on
their streams (R243). -/
def State.earlyBytes (s : State) (b : Nat) : Nat :=
  let held := (s.net.early.filter fun e => e.base == b).foldl (fun n e => n + e.bytes.length) 0
  s.net.rx.foldl (fun n kv =>
    let firsts := kv.2.segs.filter fun g => g.ix == 0 && (messageKind g.payload == 1 || messageKind g.payload == 2)
      && s.groupBase (beField g.payload 4 2) == b && !s.collIssued g.payload g.step
    n + (kv.2.segs.filter fun g => firsts.any fun x => x.msg == g.msg).foldl (fun n g => n + g.payload.length) 0) held

/-- Memory of base die `b`'s confluence unit outside every share: 32 MiB and 4 GiB, less two tiles for every member stream of every
COLL in flight (R243). -/
def State.outsideShares (s : State) (b : Nat) : Nat :=
  2 ^ 25 + 2 ^ 32 - ((s.net.colls.filter fun c => c.slot / 8 == b).map fun c => (c.size - 1) * 2 ^ 17).foldl (· + ·) 0

/-- Whether a segment finds no memory: of a held message beyond HoldBytes (R225), or of a Kind 1 or 2 message that comes before its
COLL and that the memory outside every share does not hold (R243). -/
def State.noRoom (s : State) (ns : Nat) (g : RSeg) : Bool :=
  let r := s.rx ns
  let head := if g.ix = 0 then some g.payload else (r.segs.find? fun x => x.msg == g.msg && x.ix == 0).map (·.payload)
  let kind := head.map messageKind
  let held := decide (s.step < g.step) && kind != some 3
    && decide (s.val P.holdBytes < s.heldBytes ns + g.payload.length)
  let early := match head with
    | some bs =>
      let b := s.groupBase (beField bs 4 2)
      (messageKind bs == 1 || messageKind bs == 2) && !s.collIssued bs g.step
        && decide (s.outsideShares b < s.earlyBytes b + g.payload.length)
    | none => false
  held || early

/-- DATA (R220, R224, R225): a segment arrives. -/
def dataStep (s : State) (p : Nat) (ce : Bool) (pkt : List Byte) : State :=
  match s.receive p 0 ce pkt with
  | (none, s) => s
  | (some h, s) =>
    let ns := h.stream
    let r := s.rx ns
    if r.epoch ≠ some h.epoch then
      (s.bump32 P.epochResets ns 1).sendPacket ns 0
        (netPacket 2 0 (sePeer (s.streamEntry ns)) (s.val P.topologyEpoch) 0 0 0 0 [BitVec.ofNat 8 2])
    else
      let r := { r with ece := r.ece || ce }
      let s := s.setRx ns r
      let q := unwrap32 r.cum h.seq
      if q ≥ r.limit ∨ r.got.contains q then (s.bump64 P.framesDropped p 1).sendAck ns
      else if r.segs.any (fun g => g.seq == q) then (if ce then s.sendAck ns else s)
      else
        let m := unwrap32 r.msg h.msg
        let last := bit h.flags 1
        let g : RSeg := { seq := q, msg := m, step := h.step, ix := h.ix, last := last, payload := h.payload }
        let gap := (List.range (q - r.cum)).any fun i =>
          !r.got.contains (r.cum + i) && !(r.segs.any fun k => k.seq == r.cum + i)
        if s.noRoom ns g then (if gap ∨ ce then s.sendAck ns else s)
        else
          let r := { r with segs := r.segs ++ [g] }
          let r := if last then r else r.accept q s.clock.now
          let s := discardStale ns (s.setRx ns r)
          let r := s.rx ns
          if gap ∨ ce ∨ r.since ≥ 8 then s.sendAck ns else s

/-- DATA. -/
def execData (p : Port) (ce : Bool) (pkt : List Byte) (s : State) : Host.Outcome State Fault Refusal :=
  .next (dataStep s p ce pkt)

/-- ACK_DELAY_TIMER (R220): 4 µs after the first segment not yet acknowledged. -/
def ackDelayStep (s : State) (ns : Nat) : State :=
  let r := s.rx ns
  if r.since = 0 then s else (s.reach (r.firstAt + 4 * usRoot)).sendAck ns

/-- ACK_DELAY_TIMER. -/
def execAckDelayTimer (ns : NetIx) (s : State) : Host.Outcome State Fault Refusal := .next (ackDelayStep s ns)

/-- R222: the window after an acknowledgement of `n` segments. -/
def growWindow : Nat → Nat → Nat → Nat
  | 0, _, w => w
  | n + 1, top, w => growWindow n top (min top (w + 2 ^ 64 / w))

/-- R30: an NSEND completes when its LAST segment is acknowledged (R226). -/
def State.nsendAcked (s : State) (ns msg : Nat) : State :=
  (List.range 64).foldl (fun s sl =>
    let d := s.die sl
    if d.flight.any (fun f => f.kind == .nsend ns msg && !f.ready) then
      s.setDie sl { d with flight := d.flight.map fun f =>
        if f.kind == FlightKind.nsend ns msg then { f with ready := true, due := max f.due s.clock.now } else f }
    else s) s

/-- ACK (R220 to R222): acknowledgement, credit, window, and segments shown missing. -/
def ackStep (s : State) (p : Nat) (ce : Bool) (pkt : List Byte) : State :=
  match s.receive p 1 ce pkt with
  | (none, s) => s
  | (some h, s) =>
    let ns := h.stream
      let t := s.tx ns
      let pl := h.payload
      let cum := unwrap32 t.cum (beField pl 0 4)
      if decide (cum > t.seq) || !t.synced then s
      else
        let credit := beField pl 4 4
        let n := min (beField pl 8 1) 8
        let ranges := (List.range n).map fun i =>
          (unwrap32 t.cum (beField pl (12 + 8 * i) 4), unwrap32 t.cum (beField pl (16 + 8 * i) 4))
        let hit (q : Nat) : Bool := decide (q < cum) || ranges.any fun r => decide (r.1 ≤ q) && decide (q < r.2)
        let fresh := t.segs.filter fun g => g.sent && !g.acked && hit g.seq
        let k := fresh.length
        let segs := t.segs.map fun g => if g.sent && hit g.seq then { g with acked := true } else g
        let ece := bit h.flags 3
        let w := t.win
        let top := s.val P.window * 2 ^ 32
        let cut := ece && (t.sinceCut.map fun n => decide (w / 2 ^ 32 ≤ n + k)).getD true
        let w := if cut then max (4 * 2 ^ 32) (w * 3 / 4 / 2 ^ 32 * 2 ^ 32) else if ece then w else growWindow k top w
        let wasDown := decide (s.reg P.streamState ns = 3)
        let later (q : Nat) : Nat := (segs.filter fun (x : Seg) => x.acked && decide (q < x.seq)).length
        let missing (g : Seg) : Bool := g.sent && !g.acked && !g.fast && decide (3 ≤ later g.seq)
        let all : Tx := { t with segs := segs.map fun g => if missing g then { g with fast := true, lost := true } else g }
        let t' : Tx := { t with
          segs := all.segs.filter (fun g => !(decide (g.seq < cum) && all.whole g.msg)), cum := cum
          limit := cum + credit, win := w, sinceCut := if cut then some 0 else t.sinceCut.map (· + k)
          losses := if k = 0 then t.losses else 0, timeout := if k = 0 then t.timeout else 0 }
        let s := s.setTx ns t'
        let s := if k ≠ 0 ∧ wasDown then (s.setReg P.streamState ns 2).raiseEvent 7 0x0E (srcOf 4 ns) 0 0 else s
        ((fresh.filter (·.last)).foldl (fun s g => s.nsendAcked ns g.msg) s).pump ns

/-- ACK. -/
def execAck (p : Port) (ce : Bool) (pkt : List Byte) (s : State) : Host.Outcome State Fault Refusal :=
  .next (ackStep s p ce pkt)

/-- RETX_TIMEOUT (R221 to R223): the oldest unacknowledged segment has waited its timeout, and so has every other that has; they are
sent again as credit, window and ports allow. -/
def retxStep (s : State) (ns : Nat) : State :=
  let t := s.tx ns
  let flying := t.segs.filter fun g => g.sent && !g.acked
  match (flying.filterMap (·.sentAt)).foldl (fun m x => some (match m with | some y => min x y | none => x)) none with
  | none => s
  | some t0 =>
    let down := decide (s.reg P.streamState ns = 3)
    let limit := if down then 1000 else if t.timeout = 0 then s.val P.retxTimeout else t.timeout
    let s := s.reach (t0 + limit * usRoot)
    let now := s.clock.now
    let late (g : Seg) : Bool := g.sent && !g.acked && (g.sentAt.map fun x => decide (x + limit * usRoot ≤ now)).getD false
    let n := t.losses + 1
    let s := (s.bump32 P.timeouts ns 1).setTx ns { t with
      losses := n, timeout := max limit (min 1000 (2 * limit)), win := 4 * 2 ^ 32
      segs := t.segs.map fun g => if late g then { g with lost := true, sentAt := some now } else g }
    let s := s.pump ns
    if s.val P.retxAlarm ≤ n ∧ ¬ down then
      (s.setReg P.streamState ns 3).raiseEvent 7 0x0D (srcOf 4 ns) 0 0
    else s

/-- RETX_TIMEOUT. -/
def execRetxTimeout (ns : NetIx) (s : State) : Host.Outcome State Fault Refusal := .next (retxStep s ns)

/-- SYNC (R227): the stream's incomplete messages go, the epoch is recorded, and SYNCACK answers. -/
def syncStep (s : State) (p : Nat) (ce : Bool) (pkt : List Byte) : State :=
  match s.receive p 2 ce pkt with
  | (none, s) => s
  | (some h, s) =>
    if syncKind h ≠ 0 then s
    else
      let ns := h.stream
      let r : Rx := { epoch := some h.epoch, cum := h.seq, msg := h.msg, limit := h.seq + s.creditOf ns }
      ((s.setRx ns r).bump32 P.epochResets ns 1).sendPacket ns 0
        (netPacket 2 0 (sePeer (s.streamEntry ns)) (s.val P.topologyEpoch) 0 0 0 0 [BitVec.ofNat 8 1])

/-- SYNC. -/
def execSync (p : Port) (ce : Bool) (pkt : List Byte) (s : State) : Host.Outcome State Fault Refusal :=
  .next (syncStep s p ce pkt)

/-- SYNCACK (R222, R227): DATA may flow, with a window of 32. -/
def syncackStep (s : State) (p : Nat) (ce : Bool) (pkt : List Byte) : State :=
  match s.receive p 2 ce pkt with
  | (none, s) => s
  | (some h, s) =>
    let ns := h.stream
    let t := s.tx ns
    if syncKind h ≠ 1 ∨ t.synced ∨ s.reg P.streamState ns ≠ 1 then s
    else
      ((s.setTx ns { t with synced := true, win := max 4 (min 32 (s.val P.window)) * 2 ^ 32
                            limit := t.cum + (Config.firstCredit ns).toNat
                            losses := 0, timeout := 0, sinceCut := none }).setReg P.streamState ns 2).pump ns

/-- SYNCACK. -/
def execSyncack (p : Port) (ce : Bool) (pkt : List Byte) (s : State) : Host.Outcome State Fault Refusal :=
  .next (syncackStep s p ce pkt)

/-- NEEDSYNC (R227): the sender restarts with SYNC. -/
def needsyncStep (s : State) (p : Nat) (ce : Bool) (pkt : List Byte) : State :=
  match s.receive p 2 ce pkt with
  | (none, s) => s
  | (some h, s) =>
    if syncKind h ≠ 2 then s else (s.bump32 P.epochResets h.stream 1).sendSync h.stream

/-- NEEDSYNC. -/
def execNeedsync (p : Port) (ce : Bool) (pkt : List Byte) (s : State) : Host.Outcome State Fault Refusal :=
  .next (needsyncStep s p ce pkt)

/-- SYNC_REPEAT_TIMER (R227): SYNC is repeated every RetxTimeout until SYNCACK. -/
def syncRepeatStep (s : State) (ns : Nat) : State :=
  if s.reg P.streamState ns ≠ 1 ∨ ¬ seUsed (s.streamEntry ns) then s
  else (s.reach (s.tx ns).syncAt).sendSync ns

/-- SYNC_REPEAT_TIMER. -/
def execSyncRepeatTimer (ns : NetIx) (s : State) : Host.Outcome State Fault Refusal := .next (syncRepeatStep s ns)

/-- NSEND (R219, R226): the tile as it stands goes to tile D of the peer, with the remote signal of OpB. -/
def nsendAct (s : State) (c : Ctx) : Issued :=
  let e := c.entry
  let (t, w, s) := s.readRaw c.sl (tileOperand c.x (enA e)) 0
  let ns := enM e 0 12
  let desc := msgDescriptor 0 (enB e % 2 ^ 14) 0 0 (tileOperand c.x (enD e)) 0 0 0
  let (m, s) := s.sendMessage ns s.step (desc ++ tileBytes t w)
  { state := s, due := c.after 1, kind := .nsend ns m, ready := false }

/-- NSEND. -/
def execNsend (sl : Slot) (st : StreamIx) (s : State) : Host.Outcome State Fault Refusal :=
  .next (s.tryIssue sl st (fun e => enOpcode e == 0x40) nsendAct)

/-- A tile of a received message: width from its length, image from its bytes. -/
def receivedTile (bs : List Byte) : Nat × Tile :=
  let body := bs.drop 32
  let w := (body.length - 256) / 16384
  (w, Tile.ofBytes w (body.drop 256) (body.take 256))

/-- R226, R65: the sidecar of a received tile; Partial is 0, as for every writer but MOVE and VST. -/
def Tile.received (t : Tile) : Tile :=
  { t with status := setBits (setBits (setBits t.status 5 3 4) 8 7 0) 16 8 0, setId := 0, entry := 0 }

/-- The writer that a received tile names. -/
def netWriter (stamp : Nat) : Writer := { source := 2, stamp := stamp }

/-- R69 on receive, with DigestVerify bit 1. -/
def State.verifyReceived (s : State) (acct id w : Nat) (t : Tile) : Tile × State :=
  s.verifyTile acct id w t (bit (s.val P.digestVerify) 1)

/-- Apply a Kind 0 message (R226, R245, R279): the tile is written, then its signal is raised. -/
def State.applyTile (s : State) (bs : List Byte) (step : Nat) : State :=
  let target := tileId (beField bs 8 8)
  let sig := beField bs 2 2
  let (w, t) := receivedTile bs
  let acct := s.homeAcct target
  let (t, s) := s.verifyReceived acct target w t.received
  let s := match s.storeTile acct target (Nat.log2 w) t with
    | (none, s) => s
    | (some t, s) => (s.condition (wordOf t.flags false)).countTileLayer target 2 t
  if bits sig 12 2 = 0 then s
  else s.applyRaise { slot := bits sig 0 6, token := bits sig 6 6, count := bits sig 12 2, step := step }

/-- Pages of Target that a Kind 0 message has to wait for (R175). -/
def State.messageCold (s : State) (bs : List Byte) : List Nat := s.unloaded [tileId (beField bs 8 8)]

/-- NSEND_TILE (R226): the next message of the stream is a Kind 0 message of the open step. A page of Target that is not loaded is
loaded first (R175). -/
def nsendTileStep (s : State) (ns : Nat) : State :=
  match s.applicable ns with
  | none => s
  | some (gs, bs) =>
    if messageKind bs ≠ 0 then s
    else if s.messageCold bs ≠ [] then s.startLoads (s.messageCold bs)
    else
      let step := match gs with | g :: _ => g.step | [] => 0
      discardStale ns ((s.applyTile bs step).finishMessage ns gs)

/-- NSEND_TILE. -/
def execNsendTile (ns : NetIx) (s : State) : Host.Outcome State Fault Refusal := .next (nsendTileStep s ns)

/-- R212: whether a PortMap forms port `k`. -/
def portFormed (map : Nat → Nat) (k : Nat) : Bool :=
  let g := k / 2
  match bits (map g) 0 2 with
  | 1 => k % 2 == 0
  | 2 => true
  | 3 => k % 2 == 0 && g % 2 == 0
  | _ => false

/-- The PortMap in force. -/
def State.portMapIn (s : State) (g : Nat) : Nat := s.reg P.portMap g

/-- Rill `r`. -/
def State.rill (s : State) (r : Nat) : Rill := nth s.panel.rills r {}
/-- The stored group mask of a rill: what both ends hold in service. -/
def Rill.mask (x : Rill) : Nat := Nat.land x.lower x.upper

/-- Groups in service. -/
def popcount16 (m : Nat) : Nat := ((List.range 16).filter (bit m)).length

/-- R345: the 1.6TbE port that a rill feeds: port `p` of groups `g` and `g` + 1. -/
def fedPorts : List (Nat × Nat) := [(0, 2), (2, 8), (3, 14), (5, 20)]

/-- R345: whether a port fed across a rill has the 8 groups it needs. -/
def State.portFed (s : State) (p : Nat) : Bool :=
  fedPorts.all fun (r, g) => p != 2 * g || bits (s.portMapIn g) 0 2 != 3 || decide (8 ≤ popcount16 (s.rill r).mask)

/-- PORT_LINK_DOWN (R223): the port goes down. -/
def portDownStep (s : State) (p : Nat) : State :=
  if s.reg P.linkState p ≠ 3 then s else (s.setReg P.linkState p 1).bump32 P.linkFlaps p 1

/-- PORT_LINK_DOWN. -/
def execPortLinkDown (p : Port) (s : State) : Host.Outcome State Fault Refusal := .next (portDownStep s p)

/-- PORT_LINK_UP (R213, R214, R345, R348): a port that PortMap forms has trained; streams that list it may send. -/
def portUpStep (s : State) (p : Nat) : State :=
  if ¬ portFormed s.portMapIn p ∨ s.reg P.linkState p = 3 ∨ s.reg P.linkState p = 0 ∨ ¬ s.portFed p ∨ ¬ s.supply.refGood then s
  else
    let s := s.setReg P.linkState p 3
    s.net.tx.foldl (fun s kv => s.pump kv.1) s

/-- PORT_LINK_UP. -/
def execPortLinkUp (p : Port) (s : State) : Host.Outcome State Fault Refusal := .next (portUpStep s p)

/-- FRAME_RECEIVE (R215, R217): what the MAC and the IPv6 receiver discard is counted; the rest goes on. A Next Header value
of an extension header is neither of those that go on. UDP and ICMPv6 have the values 17 and 58, Echo Request and Neighbor
Solicitation the types 128 and 135 (PRESUMED, assumption log 97). -/
def frameStep (s : State) (f : Frame) : State :=
  let p := f.port.val
  if ¬ s.portUp p then s
  else if f.bytes > 9216 then s.bump64 P.framesDropped p 1
  else if ¬ f.fcsOk then s.bump64 P.fcsErrors p 1
  else if f.macControl ∨ f.vlanTagged then s.bump64 P.framesDropped p 1
  else
    let mine := f.dest.toNat == s.addrOf P.moduleAddress
    let ptp := s.val P.ptpPort == p && (f.destPort.toNat == 319 || f.destPort.toNat == 320)
      && (s.val P.ptpRole == 2 || (s.val P.ptpRole == 1 && f.src.toNat == s.addrOf P.ptpMaster))
    let udp := f.nextHeader == 17 && mine && f.checksumOk && (f.destPort.toNat == s.val P.streamUdpPort || ptp)
    let icmp := f.nextHeader == 58 && (f.icmpType == 135 || (f.icmpType == 128 && mine))
    if udp || icmp then s else s.bump64 P.framesDropped p 1

/-- FRAME_RECEIVE. -/
def execFrameReceive (f : Frame) (s : State) : Host.Outcome State Fault Refusal := .next (frameStep s f)

end Sys2Proof.Machine
end

