-- ==== Sys2Proof/Machine/Confluence.lean ====
section
/-! DEFINITION. The confluence units (R236 to R243, R246): COLL entries, contributions, results and the contributed word. -/

namespace Sys2Proof.Machine

/-- Rank of this module in a group. -/
def geRank (g : Nat) : Nat := bits g 16 16
/-- MemberTable index of rank 0. -/
def geFirst (g : Nat) : Nat := bits g 32 32
/-- LocalSlot. -/
def geLocal (g : Nat) : Nat := bits g 64 8
/-- CarryFlags. -/
def geCarry (g : Nat) : Bool := bit g 72
/-- Closing. -/
def geClosing (g : Nat) : Bool := bit g 73

/-- The group entry of a COLL. -/
def State.groupOf (s : State) (g : Nat) : Nat := s.reg P.groupTable g

/-- The stream to rank `q` of group `g`. -/
def State.memberStream (s : State) (g q : Nat) : Nat := s.reg P.memberTable (geFirst (s.groupOf g) + q)

/-- The Closing group, if the table defines one (R247). -/
def State.closingGroup (s : State) : Option Nat :=
  (s.params.find? fun kv => kv.1 / 2 ^ 24 == P.groupTable && bits kv.2 0 16 != 0 && geClosing kv.2).map (·.1 % 2 ^ 24)

/-- R236: capture source tile `id` of a COLL of slot `sl`. -/
def State.collSource (s : State) (sl id : Nat) : CollTile × State :=
  match s.place id with
  | .unmapped | .hollow => (⟨4, Tile.poison { source := 0 } Fmt.fp32.code⟩, s.unmappedAccess (64 + sl / 8) id)
  | .mapped i c | .viaAlias i c =>
    let t := s.tile i
    (⟨classBytes c, t⟩, if t.written ∧ classBytes c ≠ 4 then s.bump64 P.widthMismatches sl 1 else s)

/-- Capture a range of source tiles. -/
def State.collSources (s : State) (sl first : Nat) : Nat → List CollTile × State
  | 0 => ([], s)
  | n + 1 =>
    let (ts, s) := s.collSources sl first n
    let (t, s) := s.collSource sl (tileId (first + n))
    (ts ++ [t], s)

/-- Whether a tile is read as zero for its width (R236). -/
def CollTile.mismatch (t : CollTile) : Bool := t.tile.written && t.width != 4

/-- R107, R236: the decoded element of a contribution, with its flags. -/
def CollTile.at (t : CollTile) (i j : Nat) : Nat × Nat :=
  if t.width ≠ 4 ∨ ¬ t.tile.written then (0, 0)
  else decodeIn .fp32 (t.tile.scale i) (bits (t.tile.row i) (32 * j) 32)

/-- R240: the sum over ranks of one element, with the flags of its decodings and additions. -/
def sumElems : List (Nat × Nat) → Nat × Nat
  | [] => (0, 0)
  | x :: xs => xs.foldl (fun (acc : Nat × Nat) (x : Nat × Nat) =>
      let (y, f) := toF32 ((f32 acc.1).add (f32 x.1))
      (y, Nat.lor acc.2 (Nat.lor x.2 f))) x

/-- R240, R241: the result tile of the contributions in rank order. -/
def resultTile (ts : List CollTile) (stamp : Nat) : Tile × List Nat :=
  let w : Writer := { source := 2, stamp := stamp }
  if ts.any (·.tile.poisoned) then (Tile.poison w Fmt.fp32.code, [])
  else
    let rows := (List.range 128).map fun i => (List.range 128).map fun j => sumElems (ts.map fun t => t.at i j)
    let fl := rows.map fun r => r.map Prod.snd
    let f : Formed :=
      { fmt := .fp32, elems := rows.map fun r => r.map Prod.fst, flags := fl, scales := List.replicate 128 0x7F
        extraFlags := if ts.any CollTile.mismatch then flagINV else 0, lossCount := 0, autoScaled := false }
    (f.tile w, fl.flatten)

/-- Replace a COLL in progress. -/
def State.setColl (s : State) (c : Coll) : State :=
  { s with net := { s.net with colls := s.net.colls.map fun k => if k.key = c.key then c else k } }

/-- The COLL with a key. -/
def State.coll (s : State) (key : Nat) : Option Coll := s.net.colls.find? fun c => c.key == key

/-- Tiles of chunk `q` (R238). -/
def Coll.chunkLen (c : Coll) (q : Nat) : Nat := chunkStart (q + 1) c.len c.size - chunkStart q c.len c.size
/-- Tiles that rank `q` owns in the second phase. -/
def Coll.owned (c : Coll) (q : Nat) : Nat := if c.kind = 1 then c.len else c.chunkLen q
/-- The other ranks. -/
def Coll.peers (c : Coll) : List Nat := (List.range c.size).filter (· != c.rank)
/-- Where tile `i` that rank `q` owns lies in D. -/
def Coll.place (c : Coll) (q i : Nat) : Nat :=
  match c.kind with
  | 0 => tileId (c.dest + i)
  | 1 => tileId (c.dest + q * c.len + i)
  | _ => tileId (c.dest + chunkStart q c.len c.size + i)

/-- Send one message of a COLL to rank `q`: a tile, or flag-only (R238, R246). -/
def State.sendColl (s : State) (c : Coll) (q kind index : Nat) (t : Option CollTile) : State :=
  let ge := s.groupOf c.group
  let fw := if geCarry ge || geClosing ge then c.word.getD 0 else 0
  let desc := msgDescriptor kind 0 c.group c.rank 0 c.inst index fw
  let body := match t with
    | some t => tileBytes t.tile t.width
    | none => []
  (s.sendMessage (s.memberStream c.group q) c.step (desc ++ body)).2

/-- Write a result tile at its place in D (R241). -/
def State.writeResult (s : State) (c : Coll) (q i : Nat) (t : Tile) (fl : List Nat) : State :=
  let b := c.slot / 8
  let s := s.writeTile (64 + b) (netWriter c.step) 0 (c.place q i) 2 t
  (s.bump64 P.collInvalid b (countFlag flagINV fl)).bump64 P.collOverflows b (countFlag flagOVF fl)

/-- The contribution of rank `q` to tile `i` of the own chunk. -/
def Coll.contribution (c : Coll) (q i : Nat) : Option CollTile :=
  if q = c.rank then c.source[chunkStart c.rank c.len c.size + i]?
  else (c.arrived1.find? fun a => a.1 == q && a.2.1 == some i).bind (·.2.2)

/-- R240: form the result tiles of the own chunk whose contributions are all present, and, in an all-reduce, send them. -/
def State.formResults (s : State) (key : Nat) : State :=
  match s.coll key with
  | none => s
  | some c =>
    if c.kind = 1 ∨ c.word.isNone then s
    else
      (List.range (c.chunkLen c.rank)).foldl (fun s i =>
        match s.coll key with
        | none => s
        | some c =>
          let ts := (List.range c.size).map fun q => c.contribution q i
          if c.formed.contains i ∨ ts.any (·.isNone) then s
          else
            let (t, fl) := resultTile (ts.filterMap id) c.step
            let s := (s.setColl { c with formed := i :: c.formed }).writeResult c c.rank i t fl
            if c.kind = 2 then c.peers.foldl (fun s q => s.sendColl c q 2 i (some ⟨4, t⟩)) s else s) s

/-- Whether every tile of D is written and every message of the COLL applied (R242, R248). -/
def Coll.complete (c : Coll) : Bool :=
  let one := c.kind == 1 || (c.peers.all fun q =>
    let n := c.chunkLen c.rank
    if n = 0 then c.arrived1.any fun a => a.1 == q && a.2.1 == none
    else (List.range n).all fun i => c.arrived1.any fun a => a.1 == q && a.2.1 == some i)
  let two := c.kind == 0 || (c.peers.all fun q =>
    let n := c.owned q
    if n = 0 then c.arrived2.contains (q, none) else (List.range n).all fun i => c.arrived2.contains (q, some i))
  let own := c.kind == 1 || (List.range (c.chunkLen c.rank)).all c.formed.contains
  c.word.isSome && one && two && own

/-- R242: a COLL that is complete may complete its entry. -/
def State.settleColl (s : State) (key : Nat) : State :=
  let s := s.formResults key
  match s.coll key with
  | none => s
  | some c => if c.complete then s.flightReady c.slot c.flight s.clock.now else s

/-- R238: the first messages of a COLL, once its word is taken. -/
def State.startColl (s : State) (c : Coll) : State :=
  if c.kind = 1 then
    ((List.range c.len).zip c.source).foldl (fun s (i, src) =>
      let (t, fl) := resultTile [src] c.step
      let s := s.writeResult c c.rank i t fl
      c.peers.foldl (fun s q => s.sendColl c q 2 i (some ⟨4, t⟩)) s) s
  else
    let s := c.peers.foldl (fun s q =>
      let n := c.chunkLen q
      if n = 0 then s.sendColl c q 1 0xFFFFFFFF none
      else (List.range n).foldl (fun s i => s.sendColl c q 1 i (c.source[chunkStart q c.len c.size + i]?)) s) s
    if c.kind = 2 ∧ c.chunkLen c.rank = 0 then c.peers.foldl (fun s q => s.sendColl c q 2 0xFFFFFFFF none) s else s

/-- The COLL that a message belongs to (R239); one whose sources a Demand load must bring first takes no message yet (R175,
R237). -/
def State.collOf (s : State) (bs : List Byte) (step : Nat) : Option Coll :=
  s.net.colls.find? fun c => c.group == beField bs 4 2 && c.inst == beField bs 16 4 && c.step == step && !c.cold

/-- R246, R247: the FlagWord of an applied message. -/
def State.applyWord (s : State) (c : Coll) (fw : Nat) : State :=
  let s := match s.coll c.key with
    | some k => s.setColl { k with words := Nat.lor k.words fw }
    | none => s
  if geClosing (s.groupOf c.group) ∧ c.word.isSome then s else s.condition fw

/-- Index of a message: none for flag-only. -/
def messageIndex (bs : List Byte) : Option Nat := if beField bs 20 4 = 0xFFFFFFFF then none else some (beField bs 20 4)

/-- A Kind 1 message is applied to its COLL (R238 to R241, R246). -/
def State.applyContribution (s : State) (c : Coll) (bs : List Byte) : State :=
  let q := beField bs 6 2
  let ix := messageIndex bs
  let (w, t) := receivedTile bs
  let acct := 64 + c.slot / 8
  let (tile, s) : Option CollTile × State :=
    match ix with
    | none => (none, s)
    | some i =>
      let (t, s) := s.verifyReceived acct (c.place c.rank i) w t
      (some ⟨w, t⟩, s)
  let s := s.applyWord c (beField bs 24 8)
  let s := match s.coll c.key with
    | some k => s.setColl { k with arrived1 := k.arrived1 ++ [(q, ix, tile)] }
    | none => s
  s.settleColl c.key

/-- A Kind 2 message is applied to its COLL (R226, R238, R241, R246). -/
def State.applyResult (s : State) (c : Coll) (bs : List Byte) : State :=
  let q := beField bs 6 2
  let ix := messageIndex bs
  let acct := 64 + c.slot / 8
  let s := match ix with
    | none => s
    | some i =>
      let (w, t) := receivedTile bs
      let id := c.place q i
      let (t, s) := s.verifyReceived acct id w t.received
      s.writeTile acct (netWriter t.stamp) 0 id (Nat.log2 w) t
  let s := s.applyWord c (beField bs 24 8)
  let s := match s.coll c.key with
    | some k => s.setColl { k with arrived2 := k.arrived2 ++ [(q, ix)] }
    | none => s
  s.settleColl c.key

/-- A Kind 1 or 2 message is applied to its COLL. -/
def State.applyColl (s : State) (c : Coll) (bs : List Byte) : State :=
  if messageKind bs = 1 then s.applyContribution c bs else s.applyResult c bs

/-- R239, R243: a message goes to the confluence unit: applied to its COLL, or held until that has issued. -/
def State.toUnit (s : State) (ns step : Nat) (bs : List Byte) : State :=
  match s.collOf bs step with
  | some c => s.applyColl c bs
  | none =>
    let e : EarlyMessage := { ns := ns, base := s.groupBase (beField bs 4 2), step := step, bytes := bs }
    { s with net := { s.net with early := s.net.early ++ [e] } }

/-- R239: the messages that were held for the COLL with a key are applied, in order. -/
def State.feedColl (s : State) (key : Nat) : State :=
  match s.coll key with
  | none => s
  | some c =>
    let mine (e : EarlyMessage) : Bool := ((s.collOf e.bytes e.step).map (·.key)) == some key
    let es := s.net.early.filter mine
    es.foldl (fun s e => s.applyColl c e.bytes) { s with net := { s.net with early := s.net.early.filter fun e => !mine e } }

/-- R225: messages that a unit held for an earlier step are discarded and counted as stale. -/
def State.dropEarly (s : State) : State :=
  let s' := (s.net.early.filter fun e => decide (e.step < s.step)).foldl (fun s e => s.bump32 P.staleMessages e.ns 1) s
  { s' with net := { s'.net with early := s'.net.early.filter fun e => !decide (e.step < s'.step) } }

/-- CONTRIBUTED_WORD_TAKE (R246): a COLL takes a copy of the local word as it forms its first descriptor, on a Closing
group no earlier than 64 fc after its issue; the closing collective ends the step's local word (R248). -/
def wordTakeStep (s : State) (sl id : Nat) : State :=
  match s.net.colls.find? (fun c => c.slot == sl && c.flight == id && c.word.isNone && !c.cold) with
  | none => s
  | some c =>
    let closing := geClosing (s.groupOf c.group)
    let s := if closing then s.reach (c.issued + 64 * fcRoot) else s
    let c := { c with word := some (s.val P.localFlags) }
    let s := s.setColl c
    let s := if closing then { s with seq := { s.seq with wordTaken := true } } else s
    (s.startColl c).settleColl c.key

/-- CONTRIBUTED_WORD_TAKE. -/
def execContributedWordTake (sl : Slot) (id : Nat) (s : State) : Host.Outcome State Fault Refusal :=
  .next (wordTakeStep s sl id)

/-- COLL (R236, R237, R239): the source range is captured, once every Demand load it waits for has ended (R175); the instance is
numbered, and the messages that came before it are applied. -/
def collAct (s : State) (c : Ctx) : Issued :=
  let e := c.entry
  let g := enM e 2 12
  let ge := s.groupOf g
  let first := tileOperand c.x (enA e)
  let cold := !(s.unloaded (touchedTiles [.tiles first (enB e)])).isEmpty
  let (src, s) := if cold then ([], s) else s.collSources c.sl first (enB e)
  let k := s.net.nextColl
  let inst := Sparse.get zeros s.net.instances g
  let coll : Coll :=
    { key := k, slot := c.sl, flight := c.flight, group := g, step := s.step, inst := inst, kind := enM e 0 2
      len := enB e, dest := tileOperand c.x (enD e), size := bits ge 0 16, rank := geRank ge, source := src
      issued := c.now, cold := cold }
  let s := { s with net := { s.net with
    colls := s.net.colls ++ [coll], nextColl := k + 1, instances := Sparse.put zeros s.net.instances g (inst + 1) } }
  { state := s.feedColl k, due := c.after 1, kind := .coll k, ready := false }

/-- COLL. -/
def execColl (sl : Slot) (st : StreamIx) (s : State) : Host.Outcome State Fault Refusal :=
  .next (s.tryIssue sl st (fun e => enOpcode e == 0x41) collAct)

/-- COLL_CONTRIBUTION and COLL_RESULT (R225, R238 to R243, R246): the next message of the stream, of a kind, goes to the confluence
unit. -/
def collMessageStep (s : State) (ns kind : Nat) : State :=
  match s.applicable ns with
  | none => s
  | some (gs, bs) =>
    if messageKind bs ≠ kind then s
    else
      let step := match gs with | g :: _ => g.step | [] => 0
      discardStale ns ((s.toUnit ns step bs).finishMessage ns gs)

/-- COLL_CONTRIBUTION. -/
def execCollContribution (ns : NetIx) (s : State) : Host.Outcome State Fault Refusal := .next (collMessageStep s ns 1)

/-- COLL_RESULT. -/
def execCollResult (ns : NetIx) (s : State) : Host.Outcome State Fault Refusal := .next (collMessageStep s ns 2)

end Sys2Proof.Machine
end

