-- ==== Sys2Proof/Machine/Optimiser.lean ====
section
/-! DEFINITION. The arithmetic of one update (R137 to R148): master weights, write-back, moments, the menu rules and
programs. Everything here is a function of its inputs. -/

namespace Sys2Proof.Machine

/-- Exact power of a value. -/
def powVal (v : Val) (t : Nat) : Val :=
  match v with
  | .nan => .nan
  | .inf s => if t = 0 then vOne else .inf (s && t % 2 == 1)
  | .fin s n d e => if t = 0 then vOne else .fin (s && t % 2 == 1) (n ^ t) (d ^ t) (e * t)

/-- The per-update constants of R144 and the hyperparameters. -/
structure UpdConst where
  h   : List Nat
  t   : Nat
  c1  : Nat
  c2  : Nat
  nkd : Nat
  b1  : Nat
  b2  : Nat
  k1  : Nat
  nesterov : Bool
  deriving DecidableEq, Repr

/-- FP32 1.0. -/
def one32 : Nat := 0x3F800000

/-- R144. -/
def updConst (hyper opt options : Nat) : UpdConst :=
  let h := (List.range 16).map fun i => bits hyper (32 * i) 32
  let h1 := f32 (nth h 1 0)
  let h2 := f32 (nth h 2 0)
  let bias := bit options 0
  let b (v : Val) : Nat := if bias then (toF32 (vOne.add (powVal v (opt + 1)).negate)).1 else one32
  let b1 := b h1
  { h := h, t := (toF32 (Val.ofInt (opt + 1 : Nat))).1, c1 := (toF32 (vOne.add h1.negate)).1
    c2 := (toF32 (vOne.add h2.negate)).1, nkd := (toF32 ((f32 (nth h 0 0)).mul (f32 (nth h 4 0))).negate).1
    b1 := b1, b2 := b h2, k1 := fdiv (nth h 0 0) b1, nesterov := bit options 1 }

/-- Hyperparameter word `i`. -/
def UpdConst.hp (u : UpdConst) (i : Nat) : Nat := nth u.h i 0

/-- R139: the spacing exponent of a BF16 weight. -/
def spacingExp (v : Val) : Int :=
  match v with
  | .fin _ n d e => (if n = 0 then -126 else max (floorLog2 n d e) (-126)) - 7
  | _ => -133

/-- R139: the master weight. -/
def masterWeight (w q : Nat) : Nat :=
  match decodeElem .bf16 w with
  | .fin s n d e =>
    let v : Val := .fin s n d e
    (toF32 (v.add ((Val.ofInt (signedOf 16 q)).shift (spacingExp v - 15)))).1
  | v => (toF32 v).1

/-- Nearest integer of a value, ties to even. -/
def roundInt (v : Val) : Int :=
  match v with
  | .fin s n d e =>
    let (a, b) := scaleFrac n d (-e)
    let r : Int := (roundHalfEven a b : Nat)
    if s then -r else r
  | _ => 0

/-- R140: the working weight, the remainder, the flag, and whether the remainder was clamped. -/
def writeback (W r : Nat) : Nat × Nat × Nat × Bool :=
  match f32 W with
  | .nan => (Fmt.nan .bf16, 0, flagINV, false)
  | .inf s => ((if s then 0x8000 else 0) + 0x7F80, 0, flagOVF, false)
  | .fin s n d e =>
    let v : Val := .fin s n d e
    if n = 0 then ((if s then 0x8000 else 0), 0, 0, false)
    else
      let (w, f) := srBf16 v r
      let wv := decodeElem .bf16 w
      if wv.isInf then (w, 0, f, false)
      else
        let q := roundInt ((v.add wv.negate).shift (15 - spacingExp wv))
        if q > 32767 then (w, 32767, f, true)
        else if q < -32768 then (w, wrapInt 16 (-32768), f, true)
        else (w, wrapInt 16 q, f, false)

/-- R142: a first moment. -/
def decodeMoment (c s : Nat) : Nat := (toF32 (decodeScaled .e4m3 s c)).1
/-- R142: a second moment from its root. -/
def decodeSecond (c s : Nat) : Nat :=
  let z := decodeMoment c s
  fmul z z

/-- R143: what a block's moments encode to: codes and scale, with counts of NaN, OVF, UNF and clamps. -/
structure MomentBlock where
  codes  : List Nat
  scale  : Nat
  nans   : Nat
  ovf    : Nat
  unf    : Nat
  clamps : Nat
  deriving DecidableEq, Repr

/-- R143. -/
def encodeBlock (xs : List Nat) : MomentBlock :=
  let (s, clamp) := chooseScale (xs.map f32) .e4m3
  let rs := xs.map fun x => convert ((f32 x).shift (127 - (s : Int))) .e4m3 .sat
  { codes := rs.map Prod.fst, scale := s, nans := (xs.filter fun x => (f32 x).isNan).length
    ovf := countFlag flagOVF (rs.map Prod.snd), unf := countFlag flagUNF (rs.map Prod.snd), clamps := b2n clamp }

/-- R143: the root of a new second moment; NaN when it is below −0. -/
def rootSecond (v : Nat) : Nat := (unaryF32 0x13 v).1

/-- sign of R145. -/
def sign32 (x : Nat) : Nat :=
  match f32 x with
  | .nan => 0x7FC00000
  | v => if v.isZero then x else if v.neg? then 0xBF800000 else one32

/-- max and min on FP32 bits (R112). -/
def fmax (a b : Nat) : Nat := (toF32 (maxVal (f32 a) (f32 b))).1
/-- min. -/
def fmin (a b : Nat) : Nat := (toF32 (minVal (f32 a) (f32 b))).1
/-- Square root. -/
def fsqrt (a : Nat) : Nat := (unaryF32 0x13 a).1
/-- Negation: only the sign changes. -/
def fneg (a : Nat) : Nat := Nat.xor a 0x80000000

/-- R145: the common last lines: decoupled decay, then the step. -/
def decayStep (u : UpdConst) (W step : Nat) : Nat := fsub (ffma u.nkd W W) step

/-- R145: SGDM. -/
def ruleSgdm (u : UpdConst) (W g m : Nat) : Nat × Nat :=
  let g := fmul g (u.hp 5)
  let m := ffma m (u.hp 1) g
  let x := if u.nesterov then ffma m (u.hp 1) g else m
  (decayStep u W (fmul x (u.hp 0)), m)

/-- The momentum and second moment lines that ADAMW and CLIPPED share. -/
def momentLines (u : UpdConst) (g m v : Nat) : Nat × Nat :=
  (ffma g u.c1 (fmul m (u.hp 1)), ffma (fmul g g) u.c2 (fmul v (u.hp 2)))

/-- R145: ADAMW. -/
def ruleAdamw (u : UpdConst) (W g m v : Nat) : Nat × Nat × Nat :=
  let g := fmul g (u.hp 5)
  let (m, v) := momentLines u g m v
  let d := fadd (fsqrt (fdiv v u.b2)) (u.hp 3)
  (decayStep u W (fmul (fdiv m d) u.k1), m, v)

/-- R145: SIGNM. -/
def ruleSignm (u : UpdConst) (W g m : Nat) : Nat × Nat :=
  let g := fmul g (u.hp 5)
  let c := ffma g u.c1 (fmul m (u.hp 1))
  (decayStep u W (fmul (sign32 c) (u.hp 0)), ffma g u.c2 (fmul m (u.hp 2)))

/-- R145: CLIPPED. -/
def ruleClipped (u : UpdConst) (W g m v : Nat) : Nat × Nat × Nat :=
  let g := fmul g (u.hp 5)
  let (m, v) := momentLines u g m v
  let d := fmax (fmul v (u.hp 7)) (u.hp 3)
  let p := fmax (fmin (fdiv m d) (u.hp 6)) (fneg (u.hp 6))
  (decayStep u W (fmul p (u.hp 0)), m, v)

/-- One position of a block: gradient, master weight, moments, and whether it is padding. -/
structure Pos where
  g   : Nat
  w   : Nat
  m   : Nat
  v   : Nat
  pad : Bool
  deriving DecidableEq, Repr

/-- Fields of a program instruction (Table 7-6). -/
def piOp (x : Nat) : Nat := bits x 0 6
/-- Destination. -/
def piD (x : Nat) : Nat := bits x 6 3
/-- First source. -/
def piA (x : Nat) : Nat := bits x 9 3
/-- Second source. -/
def piB (x : Nat) : Nat := bits x 12 3
/-- Third source. -/
def piC (x : Nat) : Nat := bits x 15 3
/-- Index K. -/
def piK (x : Nat) : Nat := bits x 18 4

/-- A position in a running program: its eight element registers and the patterns it folds. -/
structure PState where
  regs  : List Nat
  folds : List Nat
  pad   : Bool
  deriving DecidableEq, Repr

/-- The result of an element operation of Table 7-7. -/
def elemOp (u : UpdConst) (op k a b c : Nat) : Nat :=
  match op with
  | 0x01 => a
  | 0x02 => fadd a b
  | 0x03 => fsub a b
  | 0x04 => fmul a b
  | 0x05 => fdiv a b
  | 0x06 => ffma a b c
  | 0x07 => fmax a b
  | 0x08 => fmin a b
  | 0x09 => (evalFunc 0x10 a 0 0).1
  | 0x0A => (evalFunc 0x11 a 0 0).1
  | 0x0B => fsqrt a
  | 0x0C => (unaryF32 0x14 a).1
  | 0x0D => sign32 a
  | 0x0E => if (Val.zero false).lt (f32 a) then b else c
  | 0x10 => u.hp k
  | 0x11 => match k with
    | 0 => u.t
    | 1 => u.b1
    | 2 => u.b2
    | _ => one32
  | _ => a

/-- R125, R126, R147: the block operations over the non-padding positions' values. -/
def blockOp (op : Nat) (xs : List Nat) : Nat :=
  match op with
  | 0x18 => (toF32 (exactSum (xs.map f32))).1
  | 0x19 => (toF32 ((xs.map fun x => (f32 x).abs).foldl maxVal (Val.zero false))).1
  | _ => (toF32 (exactSum (xs.map fun x => (f32 x).mul (f32 x)))).1

/-- R147: one instruction on every position of a block. -/
def runInstr (u : UpdConst) (x : Nat) (ps : List PState) : List PState :=
  let op := piOp x
  let rd (p : PState) (r : Nat) : Nat := nth p.regs r 0
  if op = 0x1F then ps.map fun p => if p.pad then p else { p with folds := p.folds ++ [rd p (piA x)] }
  else if op = 0x18 ∨ op = 0x19 ∨ op = 0x1A then
    let v := blockOp op ((ps.filter fun p => !p.pad).map fun p => rd p (piA x))
    ps.map fun p => { p with regs := p.regs.set (piD x) v }
  else
    ps.map fun p => { p with regs := p.regs.set (piD x) (elemOp u op (piK x) (rd p (piA x)) (rd p (piB x)) (rd p (piC x))) }

/-- R146: run a program's instructions until an END. -/
def runProgram (u : UpdConst) : List Nat → List PState → List PState
  | [], ps => ps
  | x :: xs, ps => if piOp x = 0 then ps else runProgram u xs (runInstr u x ps)

/-- R137, R146: the new master weights and moments of a block, with the patterns folded in order of position. -/
def blockUpdate (u : UpdConst) (rule program : Nat) (ps : List Pos) : List Pos × List Nat :=
  let menu (f : Pos → Pos) : List Pos × List Nat := (ps.map fun p => if p.pad then p else f p, [])
  match rule with
  | 0 => menu fun p => let (w, m) := ruleSgdm u p.w p.g p.m; { p with w := w, m := m }
  | 1 => menu fun p => let (w, m, v) := ruleAdamw u p.w p.g p.m p.v; { p with w := w, m := m, v := v }
  | 2 => menu fun p => let (w, m) := ruleSignm u p.w p.g p.m; { p with w := w, m := m }
  | 3 => menu fun p => let (w, m, v) := ruleClipped u p.w p.g p.m p.v; { p with w := w, m := m, v := v }
  | _ =>
    let st := ps.map fun p => ({ regs := [p.g, p.w, p.m, p.v, 0, 0, 0, 0], folds := [], pad := p.pad } : PState)
    let out := runProgram u ((List.range 32).map fun i => bits program (32 * i) 32) st
    ((ps.zip out).map fun (p, q) =>
      if p.pad then p else { p with w := nth q.regs 1 0, m := nth q.regs 2 0, v := nth q.regs 3 0 },
      out.flatMap (·.folds))

/-- The bytes of a moment record. -/
def Moments.bytes (r : Moments) : List Byte :=
  leBytes 16384 r.m1 ++ leBytes 16384 r.m2 ++ leBytes 512 r.s1 ++ leBytes 512 r.s2

/-- The record that bytes spell. -/
def Moments.ofBytes (bs : List Byte) : Moments :=
  { m1 := leField bs 0 16384, m2 := leField bs 16384 16384, s1 := leField bs 32768 512, s2 := leField bs 33280 512 }

/-- R151: the record that goes with a poisoned tile pair: codes 0x00, scales 0x7F. -/
def Moments.poison : Moments := { s1 := leNat (List.replicate 512 0x7F#8), s2 := leNat (List.replicate 512 0x7F#8) }

/-- Bytes as a little-endian number. -/
def packBytes (xs : List Nat) : Nat := xs.foldr (fun x acc => x % 256 + 256 * acc) 0

/-- What the engine forms of one tile: weights and remainders by row, moment record, weight flags by row, and counts of
remainder clamps, moment NaN, OVF, UNF and clamps, with the patterns folded. -/
structure TileUpdate where
  w       : List (List Nat)
  q       : List (List Nat)
  flags   : List (List Nat)
  moments : Moments
  remClamps : Nat
  nans    : Nat
  ovf     : Nat
  unf     : Nat
  clamps  : Nat
  folds   : List Nat
  updated : Nat
  deriving DecidableEq, Repr

/-- The inputs of one tile's update. -/
structure TileJob where
  weight : Tile
  rem    : Tile
  grad   : Tile
  mom    : Moments
  first  : Nat
  elements : Nat
  rule   : Nat
  program : Nat
  seed   : Nat
  step   : Nat
  weightA : Nat
  deriving DecidableEq, Repr

/-- R137 to R143: one tile of an update. -/
def updateTile (u : UpdConst) (j : TileJob) : TileUpdate :=
  let wRows := j.weight.elems 2
  let qRows := j.rem.elems 2
  let gRows := (List.range 128).map fun i => (List.range 128).map fun k =>
    (decodeIn .fp32 (j.grad.scale i) (bits (j.grad.row i) (32 * k) 32)).1
  let flat (r : List (List Nat)) : List Nat := r.flatten
  let ws := flat wRows
  let qs := flat qRows
  let gs := flat gRows
  let uses2 := j.rule = 1 ∨ j.rule ≥ 3
  let blocks := (List.range 512).map fun b =>
    let es := (List.range 32).map fun t => 32 * b + t
    let ps := es.map fun e =>
      ({ g := nth gs e 0, w := masterWeight (nth ws e 0) (nth qs e 0)
         m := decodeMoment (bits j.mom.m1 (8 * e) 8) (bits j.mom.s1 (8 * b) 8)
         v := decodeSecond (bits j.mom.m2 (8 * e) 8) (bits j.mom.s2 (8 * b) 8)
         pad := decide (j.first + e ≥ j.elements) } : Pos)
    let r := blockUpdate u j.rule j.program ps
    let ps' : List Pos := r.1
    let folds : List Nat := r.2
    let m1 := encodeBlock (ps'.map (·.m))
    let m2 := encodeBlock (ps'.map fun p => rootSecond p.v)
    let outs := (es.zip ps').map fun ((e, p) : Nat × Pos) =>
      if p.pad then (nth ws e 0, nth qs e 0, 0, false)
      else writeback p.w (ripple j.seed j.step j.weightA e)
    (outs, m1, m2, folds, (ps'.filter fun p => !p.pad).length)
  let outs := blocks.flatMap (·.1)
  let b1 := blocks.map (·.2.1)
  let b2 := blocks.map (·.2.2.1)
  let rows (f : Nat × Nat × Nat × Bool → Nat) : List (List Nat) := chunks 128 128 (outs.map f)
  let sum (f : MomentBlock → Nat) : Nat :=
    (b1.map f).foldl (· + ·) 0 + (if uses2 then (b2.map f).foldl (· + ·) 0 else 0)
  { w := rows (·.1), q := rows (·.2.1), flags := rows (·.2.2.1)
    moments :=
      { m1 := packBytes (b1.flatMap (·.codes)), s1 := packBytes (b1.map (·.scale))
        m2 := if uses2 then packBytes (b2.flatMap (·.codes)) else j.mom.m2
        s2 := if uses2 then packBytes (b2.map (·.scale)) else j.mom.s2 }
    remClamps := (outs.filter fun o => o.2.2.2).length
    nans := sum (·.nans), ovf := sum (·.ovf), unf := sum (·.unf), clamps := sum (·.clamps)
    folds := blocks.flatMap (·.2.2.2.1), updated := (blocks.map (·.2.2.2.2)).foldl (· + ·) 0 }

end Sys2Proof.Machine
end

