-- ==== Sys2Proof/Machine/Decide.lean ====
section
/-! DEFINITION. The step decisions (R249 to R257): captured tables (R133), token raises of layers (R154, R155), StepLog, the
skip and the commit of a step, the silence watch (R281), the start of a checkpoint (R266) and replay requests (R264). -/

namespace Sys2Proof.Machine

/-- The parameters that step `n` captured (R133). -/
def State.capturedOf (s : State) (n : Nat) : Sparse Nat :=
  match s.upd.captured.find? (fun c => c.step == n) with
  | some c => c.params
  | none => []

/-- Element `e` of parameter `p` in a captured store. -/
def capReg (c : Sparse Nat) (p e : Nat) : Nat := Sparse.get paramDefault c (pkey p e)

/-- The layers that used shards of a store name (R131). -/
def usedLayers (c : Sparse Nat) : List Nat := ((usedShards c).map fun q => sdLayer q.2).eraseDups

/-- R154, R155: a layer's raise on every slot of its Slots. -/
def State.raiseOn (s : State) (slots token count step : Nat) : State :=
  if token = 0xFF then s
  else (indicesWhere 64 (bit slots)).foldl
    (fun s sl => s.applyRaise { slot := sl, token := token, count := count, step := step }) s

/-- R154: raise a layer's DoneToken for step `n` + 1. -/
def State.raiseDone (s : State) (c : Sparse Nat) (layer n : Nat) : State :=
  let e := capReg c P.layerTable layer
  s.raiseOn (leSlots e) (leDoneToken e) (leDoneCount e) (n + 1)

/-- R155: raise every used layer's FreeToken for step `n` + 2. -/
def State.raiseFree (s : State) (c : Sparse Nat) (n : Nat) : State :=
  (usedLayers c).foldl (fun s l =>
    let e := capReg c P.layerTable l
    s.raiseOn (leSlots e) (leFreeToken e) (leFreeCount e) (n + 2)) s

/-- The record of an undecided step. -/
def State.stepRec (s : State) (n : Nat) : Option StepRec := s.upd.steps.find? fun r => r.step == n

/-- Replace the record of an undecided step. -/
def State.setStepRec (s : State) (r : StepRec) : State :=
  { s with upd := { s.upd with steps := s.upd.steps.map fun k => if k.step = r.step then r else k } }

/-- Change the record of step `n`, if it is undecided. -/
def State.modStep (s : State) (n : Nat) (f : StepRec → StepRec) : State :=
  { s with upd := { s.upd with steps := s.upd.steps.map fun k => if k.step = n then f k else k } }

/-- Whether step `n` has been opened and is not decided. -/
def State.undecided (s : State) (n : Nat) : Bool := s.upd.steps.any fun r => r.step == n

/-- The new StepLog entry, newest last (0x7130.01). -/
def State.logStep (s : State) (n state cause flag commit : Nat) : State :=
  let e := n + 2 ^ 64 * state + 2 ^ 72 * cause + 2 ^ 128 * flag + 2 ^ 192 * commit
  let old := (List.range 64).map fun i => s.reg P.stepLog i
  (((List.range 64).zip (old.drop 1 ++ [e])).foldl (fun s (i, v) => s.setReg P.stepLog i v) s).setVal P.decidedStep
    (max n (s.val P.decidedStep))

/-- R152: shard records whose reset waited for the decision of their step take their reset content. -/
def State.applyResets (s : State) : State :=
  let ready := s.upd.resets.filter fun sh => srPhase (s.shardRec sh) == 0
  let s := ready.foldl (fun s sh => s.setShardRec sh 0) s
  { s with upd := { s.upd with resets := s.upd.resets.filter fun sh => srPhase (s.shardRec sh) != 0 } }

/-- R135: whether an update of shard `sh` is pending or running. -/
def Upd.busy (u : Upd) (sh : Nat) : Bool :=
  u.arrived.any (fun x => x.1 == sh) || u.queues.any (fun q => q.any fun x => x.1 == sh) || u.running.any fun r => match r with
    | some x => x.1 == sh
    | none => false

/-- R135: updates whose other conditions have come to hold have arrived, those of one instant by shard (R136). -/
def State.arriveUpdates (s : State) : State :=
  (sortBy Prod.fst s.upd.triggered).foldl (fun s x =>
    if s.undecided (x.2 - 1) ∨ s.upd.busy x.1 then s
    else { s with upd := { s.upd with triggered := s.upd.triggered.filter (· != x), arrived := s.upd.arrived ++ [x] } }) s

/-- R136: updates that have arrived enter their engine's queue of 64 in order, as it has room. -/
def State.requeue (s : State) : State :=
  let s := s.arriveUpdates
  s.upd.arrived.foldl (fun s x =>
    let b := sdBase (capReg (s.capturedOf x.2) P.shardTable x.1)
    let q := nth s.upd.queues b []
    if q.length ≥ 64 then s
    else { s with upd := { s.upd with arrived := s.upd.arrived.filter (· != x), queues := setAt [] s.upd.queues b (q ++ [x]) } }) s

/-- R251, R256, R157: the updates of step `n` that wait or run are discarded. -/
def State.discardUpdates (s : State) (n : Nat) : State :=
  { s with upd := { s.upd with
      triggered := s.upd.triggered.filter fun x => x.2 != n
      arrived := s.upd.arrived.filter fun x => x.2 != n
      reports := s.upd.reports.filter fun x => x.2 != n
      queues := s.upd.queues.map fun q => q.filter fun x => x.2 != n
      running := s.upd.running.map fun r => match r with
        | some x => if x.2 = n then none else some x
        | none => none } }

/-- Change the record of every shard that step `n` is writing or has written. -/
def State.modPhases (s : State) (n : Nat) (f : Nat → Nat) : State :=
  let shs := (s.params.filter fun kv => kv.1 / 2 ^ 24 == P.shardRecords && srPhase kv.2 != 0 && srWriteStep kv.2 == n).map
    fun kv => kv.1 % 2 ^ 24
  shs.foldl (fun s sh => s.setShardRec sh (f (s.shardRec sh))) s

/-- A decided step leaves the books. -/
def State.forget (s : State) (n : Nat) : State :=
  { s with
    upd := { s.upd with
      steps := s.upd.steps.filter (fun r => r.step != n), kept := s.upd.kept.filter (fun k => k.step != n)
      captured := s.upd.captured.filter fun c => c.step != n }
    riffle := { s.riffle with
      posts := s.riffle.posts.filter fun p => p.2.2.1 != n
      met := s.riffle.met.filter (fun m => s.riffle.checks.any fun c => c.stamp == m.1)
        ++ (match (s.stepRec n).bind (·.metAt) with
            | some t => [(n, t)]
            | none => []) } }

/-- R251, R252, R155: step `n` is SKIPPED. -/
def State.skipStep (s : State) (n cause commit : Nat) : State :=
  match s.stepRec n with
  | none => s
  | some r =>
    let c := s.capturedOf n
    let s := (s.discardUpdates n).modPhases n (fun x => setBits x 1 2 0)
    let s := ((usedLayers c).filter fun l => !r.doneTold.contains l).foldl (fun s l => s.raiseDone c l n) s
    let s := s.raiseFree c n
    let s := s.logStep n 5 cause (if r.isFinal then r.word else 0) commit
    let s := (s.bump64 P.stepsSkipped (cause - 1) 1).forget n
    s.applyResets.requeue

/-- The base die's spare position, if it has one (Table 1-3). -/
def State.spareOf (s : State) (b : Nat) : Option Nat :=
  let v := bits (s.reg (P.slotMap + b) 0) 32 4
  if v = 0xF then none else some (9 * b + v)

/-- R264: a replay request for step `n`: the event, whose Step is that step (DEDUCED, assumption log 95), and the blamed die's
change of slot at the next boundary. -/
def State.requestReplay (s : State) (n : Nat) : State :=
  let s := s.bump64 P.replayRequests 0 1
  match s.riffle.blames.find? (fun b => b.1 == n) with
  | none => s.raiseEventOf n 6 0x04 srcModule 0xFF (s.val P.replayPeer)
  | some (_, sl, pos) =>
    match s.spareOf (sl / 8) with
    | none => s.raiseEventOf n 6 0x04 (srcSlot sl) 0xFF (s.val P.replayPeer)
    | some _ =>
      let s := s.raiseEventOf n 6 0x04 (srcSlot sl) pos (s.val P.replayPeer)
      { s with seq := { s.seq with changeReq := s.seq.changeReq ++ [(2, pos)] } }

/-- OptStep, UpdateSeed and AccumSeed as the open of step `n` + 1 left them (Table 11-8), once it has come. -/
def State.openValues (s : State) (n : Nat) : Option (Nat × Nat × Nat) :=
  if s.step > n then
    let c := s.capturedOf (n + 1)
    some (capReg c P.optStep 0, capReg c P.updateSeed 0, s.val P.accumSeed)
  else none

/-- Key of a moment record. -/
def momKey (bd r : Nat) : Nat := bd * 2 ^ 20 + r

/-- A moment record of base die `bd` (R130). Until it has been written it is undefined. -/
def State.moments (s : State) (bd r : Nat) : Moments :=
  match s.mem.moments.find? (fun kv => kv.1 == momKey bd r) with
  | some kv =>
    { m1 := Sparse.get zeros kv.2 0, m2 := Sparse.get zeros kv.2 1, s1 := Sparse.get zeros kv.2 2
      s2 := Sparse.get zeros kv.2 3 }
  | none =>
    let f (part w : Nat) : Nat := (Config.freeMoment s.mem.momDraw bd r part).toNat % 2 ^ w
    { m1 := f 0 131072, m2 := f 1 131072, s1 := f 2 4096, s2 := f 3 4096 }

/-- Write a moment record; a write clears the mark of an uncorrectable error. -/
def State.putMoments (s : State) (bd r : Nat) (m : Moments) : State :=
  let v : Sparse Nat := Sparse.put zeros (Sparse.put zeros (Sparse.put zeros (Sparse.put zeros
    (Sparse.put zeros [] 0 m.m1) 1 m.m2) 2 m.s1) 3 m.s2) 4 1
  { s with mem := { s.mem with
      moments := Sparse.put (fun _ => []) s.mem.moments (momKey bd r) v
      momPoison := s.mem.momPoison.filter (· != (bd, r)) } }

/-- The three parts of tile `k` of a half of a shard. -/
def State.halfTile (s : State) (d half k : Nat) : Tile × Tile × Moments :=
  (s.tile (rangeTile (sdWeight d half) k), s.tile (rangeTile (sdRem d half) k),
    s.moments (sdBase d) (sdMoment d half + k))

/-- R267: the section of shard `sh`, of its committed half. -/
def State.ckSection (s : State) (sh d : Nat) : CkSection :=
  let r := s.shardRec sh
  { shard := sh, tiles := sdTiles d, commitStep := bits r 128 64, digest := srCommitted r
    blocks := (List.range (sdTiles d)).map fun k => s.halfTile d (srHalf r) k }

/-- Journal granules (R208). -/
def State.journalSize (s : State) : Nat := s.val P.journalBlocks / 2 * 64

/-- The granules of a checkpoint in a journal of `j` granules (R209). -/
def Checkpoint.uses (c : Checkpoint) (j u : Nat) : Bool :=
  j != 0 && (List.range c.granules).any fun i => (c.first + i) % j == u

/-- R210: an error of a checkpoint: JournalStatus and the event. -/
def State.journalError (s : State) (code : Nat) : State :=
  (s.setVal P.journalStatus code).raiseEvent 7 0x10 srcModule code 0

/-- R266, R267, R209, R210: start the checkpoint of step `n`. One that is still being written and whose granules it takes is
abandoned. -/
def State.startCheckpoint (s : State) (n : Nat) : State :=
  let s := s.setVal P.checkpointStep (2 ^ 64 - 1)
  let c := s.capturedOf n
  let shards := usedShards c
  let bytes := 64 + (shards.map fun q => 64 + sdTiles q.2 * 99840).foldl (· + ·) 0
  let g := ceilDiv (4096 + bytes + 256) (2 ^ 20)
  let j := s.journalSize
  if g > j - 1 then s.journalError 0x01
  else
    let v := s.openValues n
    let (o, u, a) := v.getD (0, 0, 0)
    let ck : Checkpoint :=
      { number := s.journal.number + 1, step := n, first := s.journal.next % max j 1, granules := g, bytes := bytes
        optStep := o, updateSeed := u, accumSeed := a, sections := shards.map fun q => s.ckSection q.1 q.2
        headed := v.isSome }
    let head := s.journal.complete.find? fun k => k.number == s.val P.journalHead
    let onHead := match head with
      | some h => (List.range g).any fun i => h.uses j ((ck.first + i) % max j 1)
      | none => false
    if onHead then s.journalError 0x02
    else
      let w (i : Nat) : Nat := (ck.first + i) % max j 1
      let hit := (List.range g).map w
      let lost := s.upd.writing.filter fun k => hit.any (k.uses j)
      let s := { s with
        journal := { s.journal with
          number := ck.number, next := w g, complete := s.journal.complete.filter (fun k => !hit.contains k.first) }
        upd := { s.upd with writing := s.upd.writing.filter (fun k => !hit.any (k.uses j)) ++ [ck] } }
      lost.foldl (fun s _ => s.raiseEvent 7 0x10 srcModule (s.val P.journalStatus) 0) s

/-- Table 11-8: the open of step `n` gives the values of the payload header to a checkpoint of the step before. -/
def State.headCheckpoints (s : State) (n : Nat) : State :=
  let give (k : Checkpoint) : Checkpoint :=
    if k.headed ∨ k.step + 1 ≠ n then k
    else
      { k with optStep := s.val P.optStep, updateSeed := s.val P.updateSeed, accumSeed := s.val P.accumSeed, headed := true }
  { s with upd := { s.upd with writing := s.upd.writing.map give } }

/-- R280: the sums of channel `k` of step `n`, unless it had no summed post or is poisoned: SumSq and NonZero. An A[128]
that is no integer leaves NonZero open (DESIGN CHOICE, assumption log 25). -/
def State.channelSums (s : State) (k n : Nat) : Option (Nat × Option Int) :=
  let ps := sortBy Prod.fst (s.riffle.posts.filter fun p => p.2.1 == k && p.2.2.1 == n)
  if ps.isEmpty ∨ ps.any (fun p => p.2.2.2.2.2) then none
  else
    let sq := (toF32 (exactSum (ps.map fun p => f32 p.2.2.2.1))).1
    let counts := ps.map fun p => f32 p.2.2.2.2.1
    let whole (v : Val) : Bool := match v with
      | .fin _ _ _ _ => v.cmp (Val.ofInt (roundInt v)) == 0
      | _ => false
    some (sq, if counts.all whole then some ((counts.map roundInt).foldl (· + ·) 0) else none)

/-- NonZero as the layer norms hold it (Table 12-5): an exact sum that its 32 bits cannot hold leaves the field open (DESIGN CHOICE,
assumption log 25). The state that has used the draw comes with it. -/
def State.nonZeroField (s : State) (v : Option Int) : Nat × State :=
  match v with
  | some z => if 0 ≤ z ∧ z < 2 ^ 32 then (z.toNat, s) else let (d, s) := s.draw; ((Config.freeNonZero d).toNat, s)
  | none => let (d, s) := s.draw; ((Config.freeNonZero d).toNat, s)

/-- R281: the evaluation of one watched layer. -/
def State.silence (s : State) (n k layer : Nat) : State :=
  match s.channelSums k n with
  | none => s
  | some (sq, nz) =>
    let exact := nz
    let (nz, s) := s.nonZeroField exact
    let floor := s.val P.normFloor
    let silent := exact.getD (Int.ofNat nz) == 0 || flt sq (fmul floor floor)
    let old := Sparse.get zeros s.riffle.silent layer
    let run := if silent then min (old % 2 ^ 32 + 1) 0xFFFFFFFF else 0
    let told := old / 2 ^ 32
    let raise := silent && run == s.val P.silenceRun && old % 2 ^ 32 != run
    let v := run + 2 ^ 32 * (if raise then 1 else if silent then told else 0)
    let s := { s with riffle := { s.riffle with silent := Sparse.put zeros s.riffle.silent layer v } }
    let s := s.setReg P.layerNorms layer (n + 2 ^ 64 * sq + 2 ^ 96 * nz + 2 ^ 128 * run)
    let d0 := sq + 2 ^ 32 * nz
    if raise then s.raiseEvent 5 0x01 (srcOf 5 layer) d0 run
    else if !silent && told == 1 then s.raiseEvent 5 0x02 (srcOf 5 layer) d0 run
    else s

/-- R281: every used channel of the watch, in ascending layer. -/
def State.silenceAll (s : State) (n : Nat) : State :=
  let used := (List.range 256).filter fun k => bit (s.reg P.watchChannelMap k) 15
  (sortBy (fun k => bits (s.reg P.watchChannelMap k) 0 10) used).foldl
    (fun s k => s.silence n k (bits (s.reg P.watchChannelMap k) 0 10)) s

/-- R155: step `n` is COMMITTED: halves flip, tokens are raised, the watch evaluates (R281) and a due checkpoint starts
(R266). -/
def State.commitStep (s : State) (n : Nat) : State :=
  let c := s.capturedOf n
  let flip (x : Nat) : Nat :=
    if srPhase x = 2 then
      setBits (setBits (setBits (setBits x 0 1 (1 - srHalf x)) 1 2 0) 128 64 n) 256 64 (srWritten x)
    else x
  let s := ((s.modPhases n flip).raiseFree c n).logStep n 4 0 0 0
  let s := (s.bump64 P.stepsCommitted 0 1).silenceAll n
  let s := if n ≥ s.val P.checkpointStep then s.startCheckpoint n else s
  (s.forget n).applyResets.requeue

/-- R256: the step after one skipped by its commit word is an orphan: at once if it has opened, else at its open. -/
def State.orphanNext (s : State) (n : Nat) : State :=
  if s.undecided (n + 1) then s.skipStep (n + 1) 3 0 else { s with upd := { s.upd with orphan := some (n + 1) } }

/-- R255: the final commit word of step `n` decides it. -/
def State.decideStep (s : State) (n word : Nat) : State :=
  if word = 0 then s.commitStep n
  else
    let s := (s.skipStep n 2 word).orphanNext n
    let s := if bit word 4 then { s with upd := { s.upd with restoreHold := some (n + 2) } } else s
    if bit word 2 ∨ bit word 0 then s.requestReplay n else s

end Sys2Proof.Machine
end

