-- ==== Sys2Proof/Machine/Journal.lean ====
section
/-! DEFINITION. The checkpoint journal's bytes in the flash (R208 to R211, Tables 9-2 and 11-8). -/

namespace Sys2Proof.Machine

/-- The bytes of a tile block: weight tile, remainder tile and moment record (Table 11-8). -/
def blockBytes (x : Tile × Tile × Moments) : List Byte :=
  let (w, q, m) := x
  w.sidecarBytes ++ w.dataBytes 2 ++ q.sidecarBytes ++ q.dataBytes 2
    ++ leBytes 16384 m.m1 ++ leBytes 16384 m.m2 ++ leBytes 512 m.s1 ++ leBytes 512 m.s2

/-- The bytes of a section (Table 11-8). -/
def CkSection.bytes (x : CkSection) : List Byte :=
  leBytes 2 x.shard ++ leBytes 2 0 ++ leBytes 4 x.tiles ++ leBytes 8 x.commitStep ++ leBytes 8 x.digest ++ leBytes 40 0
    ++ x.blocks.flatMap blockBytes

/-- R267: the payload. -/
def Checkpoint.payload (c : Checkpoint) : List Byte :=
  leBytes 2 1 ++ leBytes 2 0 ++ leBytes 4 c.sections.length ++ leBytes 8 c.step ++ leBytes 8 c.optStep
    ++ leBytes 8 c.updateSeed ++ leBytes 8 c.accumSeed ++ leBytes 24 0 ++ c.sections.flatMap CkSection.bytes

/-- R209: a header or trailer (Table 9-2). -/
def Checkpoint.record (c : Checkpoint) (magic payloadCrc : Nat) : List Byte :=
  let core := leBytes 4 magic ++ leBytes 2 1 ++ leBytes 2 0 ++ leBytes 8 c.number ++ leBytes 8 c.step ++ leBytes 4 c.first
    ++ leBytes 4 c.granules ++ leBytes 8 c.bytes ++ leBytes 8 payloadCrc
  core ++ leBytes 8 (crc64 core) ++ leBytes 200 0

/-- R209: the bytes of a checkpoint's granules: header, payload and trailer; the bytes between them are zero (DESIGN CHOICE,
assumption log 92). -/
def Checkpoint.image (c : Checkpoint) : List Byte :=
  let body := c.payload
  let front := c.record 0x4B434844 0 ++ leBytes 3840 0 ++ body
  front ++ leBytes (c.granules * 2 ^ 20 - 256 - front.length) 0 ++ c.record 0x4B43544C (crc64 body)

/-- R208: logical unit `i` of a checkpoint, in copy `copy` of the journal. -/
def State.journalUnit (s : State) (c : Checkpoint) (copy i : Nat) : Nat :=
  let (first, half) := s.journalLus
  first + copy * half + 64 * ((c.first + i / 64) % max s.journalSize 1) + i % 64

/-- R208, R210: the first `n` logical units of a checkpoint are written, in both copies. -/
def State.writeJournal (s : State) (c : Checkpoint) (n : Nat) : State :=
  let image := c.image
  (List.range n).foldl (fun s i =>
    let dat := leNat (slice image (16384 * i) 16384)
    (s.writeLu (s.journalUnit c 0 i) dat).writeLu (s.journalUnit c 1 i) dat) s

/-- R210: a checkpoint that does not complete leaves off before its trailer; how far it came, the manual leaves open (DESIGN CHOICE,
assumption log 92). -/
def State.abandonJournal (s : State) (c : Checkpoint) : State :=
  let (n, s) := s.draw
  s.writeJournal c (Config.freeProgress n % (64 * max c.granules 1))

/-- What a read of logical unit `i` of a checkpoint returns: copy 1 where copy 0 is lost (R208). -/
def State.journalRead (s : State) (c : Checkpoint) (i : Nat) : Nat :=
  let x := s.journalUnit c 0 i
  s.luContent (if (s.lu x).valid then x else s.journalUnit c 1 i)

/-- R211: whether a header or trailer in one copy has a correct RecordCrc and the Number, First and Granules of the index. -/
def Checkpoint.agrees (c : Checkpoint) (r : List Byte) : Bool :=
  leField r 0x30 8 == crc64 (r.take 0x30) && leField r 0x08 8 == c.number && leField r 0x18 4 == c.first
    && leField r 0x1C 4 == c.granules

/-- R211: whether the header and the trailer of a checkpoint are good, each in at least one copy. -/
def State.journalGood (s : State) (c : Checkpoint) : Bool :=
  let rec' (copy i off : Nat) : List Byte := slice (leBytes 16384 (s.luContent (s.journalUnit c copy i))) off 256
  let last := 64 * c.granules - 1
  (c.agrees (rec' 0 0 0) || c.agrees (rec' 1 0 0)) && (c.agrees (rec' 0 last 16128) || c.agrees (rec' 1 last 16128))

/-- R211: whether the payload read back has the PayloadCrc of the trailer. -/
def State.payloadGood (s : State) (c : Checkpoint) : Bool :=
  let units := ceilDiv (4096 + c.bytes) 16384
  let body := slice ((List.range units).flatMap fun i => leBytes 16384 (s.journalRead c i)) 4096 c.bytes
  let trailer := slice (leBytes 16384 (s.journalRead c (64 * c.granules - 1))) 16128 256
  leField trailer 0x28 8 == crc64 body

/-- R211: at power-up the checkpoints whose header or trailer is not good are dropped, and JournalHead is the newest that
remains. -/
def State.checkJournal (s : State) : State :=
  let good := s.journal.complete.filter s.journalGood
  { s with journal := { s.journal with complete := good } }.setVal P.journalHead ((good.getLast?.map Checkpoint.number).getD 0)

/-- R194, R210: at a power loss every checkpoint being written is abandoned. -/
def State.loseCheckpoints (s : State) : State :=
  s.upd.writing.foldl State.abandonJournal { s with upd := { s.upd with writing := [] } }

end Sys2Proof.Machine
end

