-- ==== Sys2Proof/Machine/Update.lean ====
section
/-! DEFINITION. The update engines at work: completion reports and starts (R135, R136), the update of a shard (R137 to R153),
interruption (R156), trigger stalls (R157), and what replicas exchange about an update (R258 to R260, R414). -/

namespace Sys2Proof.Machine

/-- The bytes of a replica record (Table 11-5) with its data. -/
def replicaBytes (typ part shard tile step : Nat) (vals : List Nat) (dat : List Byte) : List Byte :=
  leBytes 1 typ ++ leBytes 1 part ++ leBytes 2 shard ++ leBytes 4 tile ++ leBytes 8 step
    ++ (List.range 5).flatMap (fun i => leBytes 8 (nth vals i 0)) ++ leBytes 8 0 ++ dat

/-- The ranks of group `g` other than this module's, of a group of Size `n` (R230). -/
def State.otherRanks (s : State) (g : Nat) : List Nat :=
  (List.range (s.groupSize g)).filter (· != geRank (s.groupOf g))

/-- R260: send a Kind 3 message to rank `q` of group `g`. -/
def State.sendReplica (s : State) (g q step : Nat) (payload : List Byte) : State :=
  (s.sendMessage (s.memberStream g q) step (msgDescriptor 3 0 0 0 step 0 0 0 ++ payload)).2

/-- R260: send a record to every other rank of group `g`. -/
def State.sendReplicaAll (s : State) (g step : Nat) (payload : List Byte) : State :=
  (s.otherRanks g).foldl (fun s q => s.sendReplica g q step payload) s

/-- R258: the digest group of a shard in a captured store. -/
def digestGroupOf (c : Sparse Nat) (sh : Nat) : Nat :=
  let g := capReg c P.digestGroup sh
  if g = 0xFFFF then sdTrigger (capReg c P.shardTable sh) else g

/-- The commit exchange of a shard in a step, if the step has one. -/
def StepRec.shard (r : StepRec) (sh : Nat) : Option ShardCommit := r.shards.find? fun x => x.shard == sh

/-- Put a shard's commit exchange in place. -/
def StepRec.putShard (r : StepRec) (x : ShardCommit) : StepRec :=
  { r with shards := r.shards.filter (fun k => k.shard != x.shard) ++ [x] }

/-- R253: STOPPED in a commit word. -/
def cwStopped : Nat := 8

/-- R414, R156: a shard's exchange is resolved with STOPPED. -/
def State.stopShard (s : State) (n sh : Nat) : State :=
  s.modStep n fun r =>
    let x := (r.shard sh).getD { shard := sh }
    r.putShard { x with stage := 5, bits := Nat.lor x.bits cwStopped }

/-- R153: the shard digest of a half. -/
def State.shardDigest (s : State) (d half : Nat) : Nat :=
  (List.range (sdTiles d)).foldl (fun c k =>
    let (w, q, m) := s.halfTile d half k
    crc64From (crc64From (crc64From c (leBytes 8 w.digest)) (leBytes 8 q.digest)) m.bytes) 0

/-- R261: the gradient digest of a shard's buffer. -/
def State.gradDigest (s : State) (d buf : Nat) : Nat :=
  crc64 ((List.range (sdTiles d)).flatMap fun k => leBytes 8 (s.tile (rangeTile (sdGrad d buf) k)).digest)

/-- COLL_COMPLETION_REPORT (R135): the engines count a completion of a group in a step. -/
def collReportStep (s : State) (g n : Nat) : State :=
  if ¬ s.upd.reports.contains (g, n) then s
  else
    let s := { s with upd := { s.upd with reports := removeFirst (· == (g, n)) s.upd.reports } }
    match s.stepRec n with
    | none => s
    | some r =>
      let k := Sparse.get zeros r.counts g + 1
      let s := s.setStepRec { r with counts := Sparse.put zeros r.counts g k }
      let shs := (usedShards (s.capturedOf n)).filter fun q => sdTrigger q.2 == g
      let extra := ((shs.filter fun q => decide (k > sdTriggerCount q.2)).map fun q => sdBase q.2).eraseDups
      let s := extra.foldl (fun s b => s.bump32 P.extraTriggers b 1) s
      let due := (shs.filter fun q => k == sdTriggerCount q.2).map fun q => (q.1, n)
      { s with upd := { s.upd with triggered := s.upd.triggered ++ due } }.requeue

/-- COLL_COMPLETION_REPORT. -/
def execCollCompletionReport (g : GroupIx) (step : W64) (s : State) : Host.Outcome State Fault Refusal :=
  .next (collReportStep s g step.toNat)

/-- R153: the record of a shard whose update begins in step `n`. -/
def beginRecord (r n : Nat) : Nat :=
  setBits (setBits (setBits (setBits (setBits r 1 2 1) 3 4 0) 8 8 0) 64 64 n) 320 64 0

/-- UPDATE_START (R135, R136, R153): the engine of base die `b` takes the head of its queue. -/
def updateStartStep (s : State) (b : Nat) : State :=
  match nth s.upd.running b none, nth s.upd.queues b [] with
  | none, (sh, n) :: rest =>
    let r := s.shardRec sh
    let s := { s with upd := { s.upd with
      queues := setAt [] s.upd.queues b rest, running := setAt none s.upd.running b (some (sh, n))
      begun := s.upd.begun ++ [(n, sh, 1 - srHalf r)] } }
    (s.setShardRec sh (beginRecord r n)).requeue
  | _, _ => s

/-- UPDATE_START. -/
def execUpdateStart (bd : BaseDie) (s : State) : Host.Outcome State Fault Refusal := .next (updateStartStep s bd)

/-- A tile that the engine reads at a width (R151): its content, and whether it poisons the pair. -/
def State.engineRead (s : State) (b id width : Nat) : Tile × Bool × State :=
  let (t, w, s) := s.readRaw (64 + b) id (Nat.log2 width)
  (t, t.poisoned || w != width, s)

/-- The identity of the engine's writes (R150). -/
def engineWriter (n : Nat) : Writer := { source := 1, stamp := n }

/-- R150: the weight tile that an update forms. -/
def weightTile (u : TileUpdate) (n : Nat) : Tile :=
  { ({ fmt := .bf16, elems := u.w, flags := u.flags, scales := List.replicate 128 0x7F, extraFlags := 0, lossCount := 0
       autoScaled := false } : Formed).tile (engineWriter n) with digest := 0 }

/-- R140: the remainder tile: raw 16-bit integers, Fmt 0b100, Flags 0. -/
def remTile (u : TileUpdate) (n : Nat) : Tile :=
  { rows := rowMap (u.q.map (packRow 2)), status := statusWord (engineWriter n) 4 false false, digest := 0, stamp := n }

/-- A byte of a tile's data written wrong. -/
def Tile.flipByte (t : Tile) (off : Nat) (x : Byte) : Tile :=
  let i := off / 256
  { t with rows := Sparse.put zeros t.rows i (Nat.xor (t.row i) (x.toNat * 2 ^ (8 * (off % 256)))) }

/-- A byte of a moment record written wrong. -/
def Moments.flipByte (m : Moments) (off : Nat) (x : Byte) : Moments :=
  let f (v base : Nat) : Nat := Nat.xor v (x.toNat * 2 ^ (8 * (off - base)))
  if off < 0x4000 then { m with m1 := f m.m1 0 }
  else if off < 0x8000 then { m with m2 := f m.m2 0x4000 }
  else if off < 0x8200 then { m with s1 := f m.s1 0x8000 }
  else if off < 0x8400 then { m with s2 := f m.s2 0x8200 }
  else m

/-- What the engine wrote wrong of part `p` of tile `k`. -/
def wrongOf (wrong : List Miswrite) (k p : Nat) : List Miswrite := wrong.filter fun x => x.tile == k && x.part.val == p

/-- The result of an update of one tile: the pair, the record, and what it counts; none where the pair is poisoned. -/
structure TileResult where
  w   : Tile
  q   : Tile
  m   : Moments
  upd : Option TileUpdate
  deriving DecidableEq, Repr

/-- R137 to R151: what the update of step `n` forms of tile `k` of shard `sh`, from the committed half and the gradient. -/
def State.formTile (s : State) (c : Sparse Nat) (d n k : Nat) (half : Nat) : TileResult × State :=
  let b := sdBase d
  let (w, pw, s) := s.engineRead b (rangeTile (sdWeight d half) k) 2
  let (q, pq, s) := s.engineRead b (rangeTile (sdRem d half) k) 2
  let (g, pg, s) := s.engineRead b (rangeTile (sdGrad d (n % 2)) k) 4
  let r := sdMoment d half + k
  let wr := engineWriter n
  if pw || pq || pg || s.mem.momPoison.contains (b, r) then
    ({ w := Tile.poison wr Fmt.bf16.code, q := Tile.poison wr 4, m := Moments.poison, upd := none }, s)
  else
    let u := updConst (capReg c (P.hyperSet + sdHyper d) 0) (capReg c P.optStep 0) (sdOptions d)
    let t := updateTile u
      { weight := w, rem := q, grad := g, mom := s.moments b r, first := 16384 * k, elements := sdElements d
        rule := sdRule d, program := if sdRule d < 0x10 then 0 else capReg c (P.program + (sdRule d - 0x10)) 0
        seed := capReg c P.updateSeed 0, step := n, weightA := rangeTile (sdWeight d 0) k }
    ({ w := weightTile t n, q := remTile t n, m := t.moments, upd := some t }, s)

/-- R150: what one updated tile adds to the base die's counters. -/
def State.countUpdate (s : State) (b : Nat) (w : Tile) (u : TileUpdate) : State :=
  let s := (s.bump64 P.updated b u.updated).bump64 P.remainderClamps b u.remClamps
  let s := ((s.bump64 P.weightInvalid b w.inv).bump64 P.weightOverflows b w.ovf).bump64 P.weightUnderflows b w.unf
  let s := ((s.bump64 P.momentInvalid b u.nans).bump64 P.momentOverflows b u.ovf).bump64 P.momentUnderflows b u.unf
  s.bump64 P.momentClamps b u.clamps

/-- The digest that a tile written by the engine takes, its data as they were written. -/
def Tile.sealed (t : Tile) (wrong : List Miswrite) : Tile :=
  let t := wrong.foldl (fun t x => t.flipByte x.offset x.flip) t
  { t with digest := t.computeDigest 2 }

/-- Write tile `k` of an update into the written half; the patterns it folded. -/
def State.writeUpdate (s : State) (sh d k half : Nat) (x : TileResult) (wrong : List Miswrite) : State :=
  let b := sdBase d
  let w := if x.upd.isNone then x.w else x.w.sealed (wrongOf wrong k 0)
  let q := if x.upd.isNone then x.q else x.q.sealed (wrongOf wrong k 1)
  let m := (wrongOf wrong k 2).foldl (fun m y => m.flipByte y.offset y.flip) x.m
  let (stored, s) := s.storeTile (64 + b) (rangeTile (sdWeight d half) k) 1 w
  let s := match stored with
    | some t => s.countLayer (sdLayer d) 1 t
    | none => s
  let (stored, s) := s.storeTile (64 + b) (rangeTile (sdRem d half) k) 1 q
  let s := match stored with
    | some t => s.countLayer (sdLayer d) 1 t
    | none => s
  let s := s.putMoments b (sdMoment d half + k) m
  let s := match x.upd with
    | some u => s.countUpdate b w u
    | none => s.bump64 P.poisonedTiles b 1
  let fl := if x.upd.isNone then 1 else 2 * (w.flags % 8)
  let r := s.shardRec sh
  s.setShardRec sh (setBits r 3 4 (Nat.lor (bits r 3 4) fl))

/-- The tiles of a range. -/
def rangeTiles (first n : Nat) : List Nat := (List.range n).map (rangeTile first)

/-- The tiles that an update of step `n` reads and writes. -/
def updateTiles (d n : Nat) : List Nat :=
  let t := sdTiles d
  rangeTiles (sdWeight d 0) t ++ rangeTiles (sdWeight d 1) t ++ rangeTiles (sdRem d 0) t ++ rangeTiles (sdRem d 1) t
    ++ rangeTiles (sdGrad d (n % 2)) t

/-- Whether every used shard of step `n` is WRITTEN for it (R153). -/
def State.updatedAll (s : State) (n : Nat) (p : Nat → Bool) : Bool :=
  ((usedShards (s.capturedOf n)).filter fun q => p (sdLayer q.2)).all fun q =>
    let r := s.shardRec q.1
    srPhase r == 2 && srWriteStep r == n

/-- R277: note when condition 1 of R254 came to hold for step `n`. -/
def State.noteMet (s : State) (n : Nat) : State :=
  match s.stepRec n with
  | some r =>
    if r.isFinal ∧ r.metAt.isNone ∧ (r.stopped ∨ s.updatedAll n fun _ => true) then
      s.setStepRec { r with metAt := some s.clock.now }
    else s
  | none => s

/-- R154: raise a layer's DoneToken once every used shard of it is WRITTEN for step `n`. -/
def State.layerDone (s : State) (n layer : Nat) : State :=
  match s.stepRec n with
  | some r =>
    if r.doneTold.contains layer ∨ ¬ s.updatedAll n (· == layer) then s
    else (s.setStepRec { r with doneTold := layer :: r.doneTold }).raiseDone (s.capturedOf n) layer n
  | none => s

/-- R258, R259: a shard that has become WRITTEN enters its commit exchange. A stopped one stays resolved. -/
def State.offerDigest (s : State) (n sh : Nat) : State :=
  let g := digestGroupOf (s.capturedOf n) sh
  let r := s.shardRec sh
  match s.stepRec n with
  | none => s
  | some st =>
    let tell (s : State) : State := s.sendReplicaAll g n (replicaBytes 0 0 sh 0 n [srWritten r, srCheck r] [])
    match st.shard sh with
    | some _ => tell s
    | none =>
      if s.groupSize g ≤ 1 then s.setStepRec (st.putShard { shard := sh, stage := 4 })
      else tell (s.setStepRec (st.putShard { shard := sh }))

/-- R137 to R154, R259: the running update of base die `b` has written every tile of the other half. A
page that a first access must load is loaded first (R175). -/
def State.writeShard (s : State) (b : Nat) (wrong : List Miswrite) : State :=
  match nth s.upd.running b none with
  | none => s
  | some (sh, n) =>
    let c := s.capturedOf n
    let d := capReg c P.shardTable sh
    let cold := s.unloaded (updateTiles d n)
    if cold ≠ [] then s.startLoads cold
    else
      let half := srHalf (s.shardRec sh)
      let (folds, s) := (List.range (sdTiles d)).foldl (fun (acc : List Nat × State) k =>
        let (x, s) := acc.2.formTile c d n k half
        let f := match x.upd with
          | some u => u.folds
          | none => []
        (acc.1 ++ f, s.writeUpdate sh d k (1 - half) x wrong)) ([], s)
      let check := crc64 (folds.flatMap (leBytes 4))
      let r := s.shardRec sh
      let r := setBits (setBits (setBits r 1 2 2) 192 64 (s.shardDigest d (1 - half))) 320 64 (if folds = [] then 0 else check)
      let s := { s with upd := { s.upd with running := setAt none s.upd.running b none } }.setShardRec sh r
      (((s.layerDone n (sdLayer d)).offerDigest n sh).noteMet n).requeue

/-- UPDATE_INTERRUPT (R156): the update restarts from tile 0; a fourth interruption stops the shard (R414). -/
def updateInterruptStep (s : State) (b : Nat) : State :=
  match nth s.upd.running b none with
  | none => s
  | some (sh, n) =>
    let r := s.shardRec sh
    if srRestarts r ≥ 3 then
      let s := { s with upd := { s.upd with running := setAt none s.upd.running b none } }
      let s := (s.raiseEvent 7 0x0A (srcBase b) sh 0).sendReplicaAll (digestGroupOf (s.capturedOf n) sh) n
        (replicaBytes 5 0 sh 0 n [] [])
      (((s.stopShard n sh).modStep n fun st => { st with stopped := true }).noteMet n).requeue
    else
      (s.setShardRec sh (setBits (setBits (setBits r 3 4 0) 8 8 (srRestarts r + 1)) 320 64 0)).bump32 P.restarts b 1

/-- UPDATE_INTERRUPT. -/
def execUpdateInterrupt (bd : BaseDie) (s : State) : Host.Outcome State Fault Refusal := .next (updateInterruptStep s bd)

/-- SHARD_TRIGGER_STALL (R157): the step's word has been final for StallLimit and a shard's trigger is not complete. -/
def triggerStallStep (s : State) (sh : Nat) : State :=
  let limit := s.val P.stallLimit
  match s.upd.steps.find? (fun r =>
    let d := capReg (s.capturedOf r.step) P.shardTable sh
    r.isFinal && sdRule d != 0xFF && !r.stallTold.contains sh
      && decide (Sparse.get zeros r.counts (sdTrigger d) < sdTriggerCount d)) with
  | none => s
  | some r =>
    if limit = 0 then s
    else
      let b := sdBase (capReg (s.capturedOf r.step) P.shardTable sh)
      let s := s.reach (r.finalAt + limit * usRoot)
      (s.setStepRec { r with stallTold := sh :: r.stallTold }).raiseEvent 6 0x02 (srcBase b) sh 0

/-- SHARD_TRIGGER_STALL. -/
def execShardTriggerStall (sh : ShardIx) (s : State) : Host.Outcome State Fault Refusal := .next (triggerStallStep s sh)

end Sys2Proof.Machine
end

