-- ==== Sys2Proof/Machine/Commit.lean ====
section
/-! DEFINITION. The commit exchange (R254 to R257), the decision of a replica mismatch (R259 to R263, R414), checkpoints and
their restore (R266, R269). -/

namespace Sys2Proof.Machine

/-- The rank of group `g` whose stream is `ns`. -/
def State.rankOfStream (s : State) (g ns : Nat) : Option Nat :=
  (s.otherRanks g).find? fun q => s.memberStream g q == ns

/-- The replica record that the payload of a Kind 3 message holds (Table 11-5). -/
def keptRecord (ns : Nat) (p : List Byte) : Kept :=
  { ns := ns, typ := leField p 0 1, part := leField p 1 1, shard := leField p 2 2, tile := leField p 4 4, step := leField p 8 8
    vals := (List.range 5).map fun i => leField p (16 + 8 * i) 8, dat := p.drop 64 }

/-- R225, R260: the oldest complete Kind 3 message of a stream with its record. -/
def State.nextReplica (s : State) (ns : Nat) : Option (List RSeg × Kept) :=
  (s.rx ns).replicaMessage.map fun gs => (gs, keptRecord ns ((messageBytes gs).drop 32))

/-- The page that a copied tile's record writes, while it is not loaded (R175). -/
def State.copyCold (s : State) (k : Kept) : List Nat :=
  let d := capReg (s.capturedOf k.step) P.shardTable k.shard
  let half := 1 - srHalf (s.shardRec k.shard)
  if k.typ = 3 then s.unloaded [rangeTile (if k.part = 0 then sdWeight d half else sdRem d half) k.tile] else []

/-- R260: take the next Kind 3 message of a stream when it is a replica record of type `typ`. A record of a decided step is a
duplicate, counted in StaleMessages. A copied tile waits for the Demand load of its page (R175). -/
def State.takeReplica (s : State) (ns typ : Nat) : Option Kept × State :=
  match s.nextReplica ns with
  | none => (none, s)
  | some (gs, k) =>
    if k.typ ≠ typ then (none, s)
    else if s.undecided k.step ∧ s.copyCold k ≠ [] then (none, s.startLoads (s.copyCold k))
    else
      let s := discardStale ns (s.finishMessage ns gs)
      if s.undecided k.step ∨ k.step > s.step then
        (some k, { s with upd := { s.upd with kept := s.upd.kept ++ [k] } })
      else (none, s.bump32 P.staleMessages ns 1)

/-- The kept records of a type for a shard in a step, in order of arrival. -/
def State.keptOf (s : State) (n sh typ : Nat) : List Kept :=
  s.upd.kept.filter fun k => k.step == n && k.shard == sh && k.typ == typ

/-- Drop one kept record. -/
def State.dropKept (s : State) (k : Kept) : State :=
  { s with upd := { s.upd with kept := removeFirst (· == k) s.upd.kept } }

/-- R263: send every part of the written half of a shard to rank `q`, in ascending tile. -/
def State.sendCopy (s : State) (g q n sh d : Nat) : State :=
  let half := 1 - srHalf (s.shardRec sh)
  (List.range (sdTiles d)).foldl (fun s k =>
    let (w, r, m) := s.halfTile d half k
    let s := s.sendReplica g q n (replicaBytes 3 0 sh k n [] (tileBytes w 2))
    let s := s.sendReplica g q n (replicaBytes 3 1 sh k n [] (tileBytes r 2))
    s.sendReplica g q n (replicaBytes 4 0 sh k n [] m.bytes)) s

/-- The ranks with StoredOk 1 (Table 11-5). -/
def okRanks (recs : List (Nat × List Nat)) : List (Nat × List Nat) :=
  (sortBy Prod.fst recs).filter fun r => bit (nth r.2 3 0) 0

/-- Whether all records agree on value `i`. -/
def allSame (recs : List (Nat × List Nat)) (i : Nat) : Bool :=
  match recs with
  | [] => true
  | r :: rs => rs.all fun x => nth x.2 i 0 == nth r.2 i 0

/-- Table 11-6: what the records of every rank decide. -/
inductive Mismatch where
  | copy (reference : Nat)
  | mismatch
  | restore
  | noReference
  deriving DecidableEq, Repr

/-- R262: the decision. -/
def decideMismatch (recs : List (Nat × List Nat)) : Mismatch :=
  let ok := okRanks recs
  if ¬ allSame recs 1 then .restore
  else if ¬ allSame recs 2 then .mismatch
  else
    match ok with
    | [] => .noReference
    | r :: _ => if allSame ok 0 && allSame ok 4 then .copy r.1 else .noReference

/-- Put a shard's commit exchange of step `n` in place. -/
def State.putShard (s : State) (n : Nat) (x : ShardCommit) : State := s.modStep n fun r => r.putShard x

/-- R262: act on the records of every rank. -/
def State.actOnRechecks (s : State) (g n d : Nat) (x : ShardCommit) : State :=
  let me := geRank (s.groupOf g)
  let recs := (me, x.own) :: x.rechecks
  match decideMismatch recs with
  | .restore => s.putShard n { x with stage := 5, bits := Nat.lor x.bits 16 }
  | .mismatch => s.putShard n { x with stage := 5, bits := Nat.lor x.bits 1 }
  | .noReference =>
    if x.rounds ≥ 2 then s.putShard n { x with stage := 5, bits := Nat.lor x.bits cwStopped }
    else s.putShard n { x with stage := 1, rechecks := [] }
  | .copy ref =>
    let cs := ((sortBy Prod.fst recs).filter fun r => !bit (nth r.2 3 0) 0).map fun r => (r.1, 0)
    let s := s.putShard n { x with stage := if cs = [] then 5 else 3, reference := ref, copiers := cs }
    if ref = me then cs.foldl (fun s q => s.sendCopy g q.1 n x.shard d) s else s

/-- The digest and check word that a copy must reach: the reference replica's. -/
def State.referencePair (s : State) (g : Nat) (x : ShardCommit) : Nat × Nat :=
  if x.reference = geRank (s.groupOf g) then (srWritten (s.shardRec x.shard), srCheck (s.shardRec x.shard))
  else ((x.digests.find? fun y => y.1 == x.reference).map Prod.snd).getD (0, 0)

/-- R263: the digest record of copier `q` after a copy: agreed, to be copied again, or stopped after the third. -/
def State.judgeCopy (s : State) (g n d q : Nat) (x : ShardCommit) (pair : Nat × Nat) : State :=
  let fails := ((x.copiers.find? fun c => c.1 == q).map Prod.snd).getD 0
  if pair = s.referencePair g x then
    let cs := x.copiers.filter fun c => c.1 != q
    s.putShard n { x with copiers := cs, stage := if cs = [] then 5 else 3 }
  else if fails + 1 ≥ 3 then s.putShard n { x with stage := 5, bits := Nat.lor x.bits cwStopped }
  else
    let s := s.putShard n { x with copiers := x.copiers.map fun c => if c.1 = q then (q, fails + 1) else c }
    if x.reference = geRank (s.groupOf g) then s.sendCopy g q n x.shard d else s

/-- R263: write a copied part into the written half; after the last part the digest is formed again and sent. -/
def State.applyCopy (s : State) (g n d : Nat) (x : ShardCommit) (k : Kept) : State :=
  let b := sdBase d
  let half := 1 - srHalf (s.shardRec x.shard)
  if k.typ = 3 then
    let first := if k.part = 0 then sdWeight d half else sdRem d half
    let id := rangeTile first k.tile
    let t := Tile.ofBytes 2 (k.dat.drop 256) (k.dat.take 256)
    let (t, s) := s.verifyReceived (64 + b) id 2 t
    match s.storeTile (64 + b) id 1 t with
    | (some t, s) => s.countLayer (sdLayer d) 1 t
    | (none, s) => s
  else
    let s := s.putMoments b (sdMoment d half + k.tile) (Moments.ofBytes k.dat)
    if k.tile + 1 < sdTiles d then s
    else
      let w := s.shardDigest d half
      let s := (s.setShardRec x.shard (setBits (s.shardRec x.shard) 192 64 w)).bump64 P.shardCopies 0 1
      let check := srCheck (s.shardRec x.shard)
      let s := s.sendReplicaAll g n (replicaBytes 0 0 x.shard 0 n [w, check] [])
      s.judgeCopy g n d (geRank (s.groupOf g)) x (w, check)

/-- Use the kept records of a shard as far as its exchange has come: true when something was used. -/
def State.settleOnce (s : State) (n sh : Nat) : Bool × State :=
  match s.stepRec n with
  | none => (false, s)
  | some r =>
    match r.shard sh with
    | none => (false, s)
    | some x =>
      let c := s.capturedOf n
      let d := capReg c P.shardTable sh
      let g := digestGroupOf c sh
      let peers := s.otherRanks g
      match x.stage with
      | 0 =>
        match (s.keptOf n sh 0).findSome? (fun k => (s.rankOfStream g k.ns).bind fun q =>
            if x.digests.any (fun y => y.1 == q) then none else some (q, k)) with
        | none => (false, s)
        | some (q, k) =>
          let pair := (nth k.vals 0 0, nth k.vals 1 0)
          let x := { x with digests := x.digests ++ [(q, pair)] }
          let s := s.dropKept k
          if pair ≠ (srWritten (s.shardRec sh), srCheck (s.shardRec sh)) then
            (true, (s.bump64 P.digestMismatches 0 1).putShard n { x with stage := 1 })
          else if peers.all fun q => x.digests.any fun y => y.1 == q then (true, s.putShard n { x with stage := 4 })
          else (true, s.putShard n x)
      | 2 =>
        match (s.keptOf n sh 2).findSome? (fun k => (s.rankOfStream g k.ns).bind fun q =>
            if x.rechecks.any (fun y => y.1 == q) then none else some (q, k)) with
        | none => (false, s)
        | some (q, k) =>
          let x := { x with rechecks := x.rechecks ++ [(q, k.vals)] }
          let s := s.dropKept k
          if peers.all fun q => x.rechecks.any fun y => y.1 == q then
            let late := (s.keptOf n sh 0).filterMap fun k => (s.rankOfStream g k.ns).bind fun q =>
              if x.digests.any (fun y => y.1 == q) then none else some (q, k)
            let x := { x with digests := x.digests ++ late.map fun y => (y.1, nth y.2.vals 0 0, nth y.2.vals 1 0) }
            let s := late.foldl (fun s y => s.dropKept y.2) s
            (true, s.actOnRechecks g n d x)
          else (true, s.putShard n x)
      | 3 =>
        let me := geRank (s.groupOf g)
        match s.upd.kept.findSome? (fun k =>
            if k.step ≠ n ∨ k.shard ≠ sh then none
            else if (k.typ = 3 ∨ k.typ = 4) ∧ x.copiers.any (fun c => c.1 == me) then some (me, k)
            else if k.typ = 0 then
              (s.rankOfStream g k.ns).bind fun q => if x.copiers.any (fun c => c.1 == q) then some (q, k) else none
            else none) with
        | none => (false, s)
        | some (q, k) =>
          let s := s.dropKept k
          if k.typ = 0 then (true, s.judgeCopy g n d q x (nth k.vals 0 0, nth k.vals 1 0))
          else (true, s.applyCopy g n d x k)
      | _ => (false, s)

/-- Use kept records of a shard until none is of use. -/
def settleShard : Nat → Nat → Nat → State → State
  | 0, _, _, s => s
  | fuel + 1, n, sh, s =>
    match s.settleOnce n sh with
    | (true, s) => settleShard fuel n sh s
    | (false, s) => s

/-- Settle a shard with every record kept. -/
def State.settle (s : State) (n sh : Nat) : State := settleShard (s.upd.kept.length + 1) n sh s

/-- SHARD_WRITTEN (R137 to R154, R259): the running update of base die `b` has written every tile of the other half; the
digest records kept for it are compared. -/
def shardWrittenStep (s : State) (b : Nat) (wrong : List Miswrite) : State :=
  match nth s.upd.running b none with
  | some (sh, n) => (s.writeShard b wrong).settle n sh
  | none => s

/-- SHARD_WRITTEN. -/
def execShardWritten (bd : BaseDie) (wrong : List Miswrite) (s : State) : Host.Outcome State Fault Refusal :=
  .next (shardWrittenStep s bd wrong)

/-- R414: stop records kept for an undecided step take effect. -/
def State.settleStops (s : State) (n : Nat) : State :=
  (s.upd.kept.filter fun k => k.step == n && k.typ == 5).foldl (fun s k => (s.dropKept k).stopShard n k.shard) s

/-- DIGEST_RECORD (R259, R260): a replica's digest is compared, or kept until this module's own shard is WRITTEN. -/
def digestRecordStep (s : State) (ns : Nat) : State :=
  match s.takeReplica ns 0 with
  | (some k, s) => s.settle k.step k.shard
  | (none, s) => s

/-- DIGEST_RECORD. -/
def execDigestRecord (ns : NetIx) (s : State) : Host.Outcome State Fault Refusal := .next (digestRecordStep s ns)

/-- RECHECK_RECORD (R262): with the records of every rank the mismatch is decided. -/
def recheckRecordStep (s : State) (ns : Nat) : State :=
  match s.takeReplica ns 2 with
  | (some k, s) => s.settle k.step k.shard
  | (none, s) => s

/-- RECHECK_RECORD. -/
def execRecheckRecord (ns : NetIx) (s : State) : Host.Outcome State Fault Refusal := .next (recheckRecordStep s ns)

/-- COPY_TILE_RECORD (R263): a weight or remainder tile from the reference replica. -/
def copyTileStep (s : State) (ns : Nat) : State :=
  match s.takeReplica ns 3 with
  | (some k, s) => s.settle k.step k.shard
  | (none, s) => s

/-- COPY_TILE_RECORD. -/
def execCopyTileRecord (ns : NetIx) (s : State) : Host.Outcome State Fault Refusal := .next (copyTileStep s ns)

/-- COPY_MOMENTS_RECORD (R263): a moment record from the reference replica. -/
def copyMomentsStep (s : State) (ns : Nat) : State :=
  match s.takeReplica ns 4 with
  | (some k, s) => s.settle k.step k.shard
  | (none, s) => s

/-- COPY_MOMENTS_RECORD. -/
def execCopyMomentsRecord (ns : NetIx) (s : State) : Host.Outcome State Fault Refusal := .next (copyMomentsStep s ns)

/-- STOP_RECORD (R414): the shard is resolved with STOPPED. -/
def stopRecordStep (s : State) (ns : Nat) : State :=
  match s.takeReplica ns 5 with
  | (some k, s) => if s.undecided k.step then s.settleStops k.step else s
  | (none, s) => s

/-- STOP_RECORD. -/
def execStopRecord (ns : NetIx) (s : State) : Host.Outcome State Fault Refusal := .next (stopRecordStep s ns)

/-- R261: what a recheck of shard `sh` for step `n` finds: recomputed digest and check word. -/
def State.recompute (s : State) (n sh : Nat) : Nat × Nat :=
  let c := s.capturedOf n
  let d := capReg c P.shardTable sh
  let half := srHalf (s.shardRec sh)
  let (crc, folds) := (List.range (sdTiles d)).foldl (fun (acc : Nat × List Nat) k =>
    let (x, _) := s.formTile c d n k half
    let w := if x.upd.isNone then x.w else x.w.sealed []
    let q := if x.upd.isNone then x.q else x.q.sealed []
    let f := match x.upd with
      | some u => u.folds
      | none => []
    (crc64From (crc64From (crc64From acc.1 (leBytes 8 w.digest)) (leBytes 8 q.digest)) x.m.bytes, acc.2 ++ f)) (0, [])
  (crc, if folds = [] then 0 else crc64 (folds.flatMap (leBytes 4)))

/-- RECHECK (R261): the shard's update is recomputed and nothing is written; the record goes to every other rank. -/
def recheckStep (s : State) (sh : Nat) : State :=
  match s.upd.steps.find? (fun r => match r.shard sh with
    | some x => x.stage == 1
    | none => false) with
  | none => s
  | some r =>
    match r.shard sh with
    | none => s
    | some x =>
      let n := r.step
      let c := s.capturedOf n
      let d := capReg c P.shardTable sh
      let rec' := s.shardRec sh
      let (w, k) := s.recompute n sh
      let vals := [w, srCommitted rec', s.gradDigest d (n % 2),
        b2n (w == srWritten rec') + 2 * b2n (k == srCheck rec'), k]
      let s := s.bump64 P.rechecks 0 1
      let s := s.sendReplicaAll (digestGroupOf c sh) n (replicaBytes 2 0 sh 0 n vals [])
      (s.putShard n { x with stage := 2, rounds := x.rounds + 1, own := vals }).settle n sh

/-- RECHECK. -/
def execRecheck (sh : ShardIx) (s : State) : Host.Outcome State Fault Refusal := .next (recheckStep s sh)

/-- The other ranks of the Closing group (R247, R255). -/
def State.closingRanks (s : State) : List Nat :=
  match s.closingGroup with
  | some g => s.otherRanks g
  | none => []

/-- The commit word that rank `q` sent for step `n`. -/
def State.commitFrom (s : State) (n q : Nat) : Option Nat :=
  (s.closingGroup.bind fun g => s.upd.kept.find? fun k =>
    k.step == n && k.typ == 1 && s.rankOfStream g k.ns == some q).map fun k => nth k.vals 0 0

/-- R255: the commit word is final once every rank's record is held. -/
def State.tryDecide (s : State) (n : Nat) : State :=
  match s.stepRec n with
  | some r =>
    let ws := s.closingRanks.map (s.commitFrom n)
    if r.verifiedAt.isSome ∧ ws.all (·.isSome) then
      s.decideStep n ((ws.filterMap id).foldl Nat.lor r.ownWord)
    else s
  | none => s

/-- R254: whether step `n` may form its commit record. -/
def State.verifiable (s : State) (r : StepRec) : Bool :=
  r.isFinal && r.word == 0 && r.verifiedAt.isNone && r.metAt.isSome
    && !(s.riffle.checks.any fun c => c.stamp == r.step)
    && (s.upd.begun.filter fun b => b.1 == r.step).all fun b => match r.shard b.2.1 with
      | some x => decide (4 ≤ x.stage)
      | none => false

/-- R253: this module's commit word of a step. -/
def State.ownCommitWord (s : State) (r : StepRec) : Nat :=
  let bad := s.params.any fun kv => kv.1 / 2 ^ 24 == P.shardRecords && srPhase kv.2 != 0 && srWriteStep kv.2 == r.step
    && bits kv.2 3 2 != 0
  Nat.lor (r.shards.foldl (fun w x => Nat.lor w x.bits) 0) (2 * b2n bad + 4 * b2n r.suspect)

/-- COMMIT_RECORD_FORMED (R254, R255): the oldest step that meets R254 is VERIFIED; its record goes to every rank. -/
def commitFormedStep (s : State) : State :=
  match s.upd.steps.find? (s.verifiable ·) with
  | none => s
  | some r =>
    let w := s.ownCommitWord r
    let s := s.setStepRec { r with verifiedAt := some s.clock.now, ownWord := w }
    let s := match s.closingGroup with
      | some g => s.sendReplicaAll g r.step (replicaBytes 1 0 0 0 r.step [w] [])
      | none => s
    s.tryDecide r.step

/-- COMMIT_RECORD_FORMED. -/
def execCommitRecordFormed (s : State) : Host.Outcome State Fault Refusal := .next (commitFormedStep s)

/-- COMMIT_RECORD (R255, R260). -/
def commitRecordStep (s : State) (ns : Nat) : State :=
  match s.takeReplica ns 1 with
  | (some k, s) => s.tryDecide k.step
  | (none, s) => s

/-- COMMIT_RECORD. -/
def execCommitRecord (ns : NetIx) (s : State) : Host.Outcome State Fault Refusal := .next (commitRecordStep s ns)

/-- COMMIT_STALL (R257): a record has not arrived StallLimit after VERIFIED; told once for each step. -/
def commitStallStep (s : State) : State :=
  let limit := s.val P.stallLimit
  match s.upd.steps.find? (fun r => r.verifiedAt.isSome && !r.commitTold) with
  | none => s
  | some r =>
    let missing := s.closingRanks.filter fun q => (s.commitFrom r.step q).isNone
    if limit = 0 then s
    else
      match missing with
      | [] => s
      | q :: _ =>
        let s := s.reach (r.verifiedAt.getD 0 + limit * usRoot)
        ((s.setStepRec { r with commitTold := true }).bump32 P.commitStalls 0 1).raiseEvent 6 0x03 srcModule missing.length q

/-- COMMIT_STALL. -/
def execCommitStall (s : State) : Host.Outcome State Fault Refusal := .next (commitStallStep s)

/-- CHECKPOINT_COMPLETE (R210, R266): the oldest checkpoint being written has its trailer durable in both copies, or did not
complete. Its payload header waits for the open of the next step (Table 11-8; DEDUCED, assumption log 92). -/
def checkpointStepDone (s : State) (durable : Bool) : State :=
  match s.upd.writing with
  | [] => s
  | ck :: rest =>
    if ¬ ck.headed then s
    else
    let s := { s with upd := { s.upd with writing := rest } }
    if durable then
      let s := s.writeJournal ck (64 * ck.granules)
      let all := s.journal.complete ++ [ck]
      let s := { s with journal := { s.journal with complete := all.drop (all.length - 256) } }
      ((s.setVal P.journalHead ck.number).setVal P.journalStatus 0).bump64 P.checkpointsWritten 0 1
    else (s.abandonJournal ck).raiseEvent 7 0x10 srcModule (s.val P.journalStatus) 0

/-- CHECKPOINT_COMPLETE. -/
def execCheckpointComplete (durable : Bool) (s : State) : Host.Outcome State Fault Refusal :=
  .next (checkpointStepDone s durable)

/-- The newest checkpoint in the journal of step `n` (R269). -/
def State.checkpointOf (s : State) (n : Nat) : Option Checkpoint := s.journal.complete.reverse.find? fun c => c.step == n

/-- R269: whether the sections match the shard table. -/
def State.sectionsMatch (s : State) (c : Checkpoint) : Bool :=
  let used := usedShards s.params
  (used.all fun q => c.sections.any fun x => x.shard == q.1 && x.tiles == sdTiles q.2)
    && c.sections.all fun x => used.any fun q => q.1 == x.shard && sdTiles q.2 == x.tiles

/-- R269: a restore is asked for: refused with its code, or begun, undecided steps being SKIPPED with cause RESTORE. -/
def State.beginRestore (s : State) (n : Nat) : State :=
  if s.seq.opened then s.setVal P.restoreStatus 0x01
  else
    match s.checkpointOf n with
    | none => s.setVal P.restoreStatus 0x02
    | some c =>
      if ¬ s.sectionsMatch c then s.setVal P.restoreStatus 0x03
      else
        let s := s.upd.steps.foldl (fun s r => s.skipStep r.step 5 0) s
        { s with upd := { s.upd with restoring := some c.number } }.setVal P.restoreStatus 0x06

/-- R269: write a section into half A. -/
def State.writeSection (s : State) (x : CkSection) : State :=
  let d := s.reg P.shardTable x.shard
  let acct := 64 + sdBase d
  ((List.range x.blocks.length).zip x.blocks).foldl (fun s (k, w, q, m) =>
    let s := s.write { acct := acct, id := rangeTile (sdWeight d 0) k, cls := 1, ovf := 3, column := none, tile := w }
    let s := s.write { acct := acct, id := rangeTile (sdRem d 0) k, cls := 1, ovf := 3, column := none, tile := q }
    s.putMoments (sdBase d) (sdMoment d 0 + k) m) s

/-- R269: a tile of student state that a failed restore left undefined (DESIGN CHOICE, assumption log 24). -/
def freeTile (draw id : Nat) : Tile :=
  Tile.ofBytes 2 (leBytes 32768 (Config.freeTileData draw id).toNat) (leBytes 256 (Config.freeSidecar draw id).toNat)

/-- R269, Caution: after code 0x04 or 0x05 the student state is undefined. -/
def State.scramble (s : State) : State :=
  let (n, s) := s.draw
  (usedShards s.params).foldl (fun s (_, d) =>
    (List.range (sdTiles d)).foldl (fun s k =>
      [0, 1].foldl (fun s h =>
        let w := rangeTile (sdWeight d h) k
        let q := rangeTile (sdRem d h) k
        let r := sdMoment d h + k
        let s := if eKind (s.page (pageOf w)) = 1 then s.putStored w (freeTile n w) else s
        let s := if eKind (s.page (pageOf q)) = 1 then s.putStored q (freeTile n q) else s
        let f (part z : Nat) : Nat := (Config.freeMoment (n + 2 ^ 64) (sdBase d) r part).toNat % 2 ^ z
        s.putMoments (sdBase d) r { m1 := f 0 131072, m2 := f 1 131072, s1 := f 2 4096, s2 := f 3 4096 }) s) s) s

/-- RESTORE_COMPLETE (R269, Table 11-9): the restore in progress ends. -/
def restoreCompleteStep (s : State) : State :=
  match s.upd.restoring.bind (fun k => s.journal.complete.find? fun c => c.number == k) with
  | none => s
  | some c =>
    let s := { s with upd := { s.upd with restoring := none } }
    if ¬ s.payloadGood c then
      ((s.setVal P.journalStatus 0x03).setVal P.restoreStatus 0x04).scramble
    else
      let s := c.sections.foldl State.writeSection s
      let wrong := c.sections.any fun x => s.shardDigest (s.reg P.shardTable x.shard) 0 != x.digest
      if wrong then (s.setVal P.restoreStatus 0x05).scramble
      else
        let s := c.sections.foldl (fun s x => s.setShardRec x.shard (2 ^ 128 * x.commitStep + 2 ^ 256 * x.digest)) s
        let s := ((s.setVal P.optStep c.optStep).setVal P.updateSeed c.updateSeed).setVal P.accumSeed c.accumSeed
        let s := ((s.setVal P.currentStep c.step).setVal P.decidedStep c.step).setVal P.finalStep c.step
        { s with
          seq := { s.seq with firstOpen := true }
          upd := { s.upd with restoreHold := none, orphan := none, begun := [], kept := [], captured := [], resets := [] }
        }.setVal P.restoreStatus 0x00

/-- RESTORE_COMPLETE. -/
def execRestoreComplete (s : State) : Host.Outcome State Fault Refusal := .next (restoreCompleteStep s)

end Sys2Proof.Machine
end

