-- ==== Sys2Proof/Machine/Ptp.lean ====
section
/-! DEFINITION. Panel time as a PTP ordinary clock (R233, R234). Timestamps are taken from panel time at the port's PCS,
as integers in units of 0.25 ns; the delay computations are those of IEEE 1588, to which R233 refers. -/

namespace Sys2Proof.Machine

/-- The nominal increment per SCLK cycle, in 2^−32 ns (R234). -/
def nominalInc : Nat := 7635497415
/-- 500 ppm of it. -/
def servoRange : Nat := 3817748

/-- Panel time at a ROOT cycle, in 2^−32 ns. -/
def Clock.fineAt (c : Clock) (t : Nat) : Nat := c.timeBase + (t / sclkRoot - c.timeRef / sclkRoot) * c.inc

/-- Panel time goes on from now with another increment. -/
def Clock.withInc (c : Clock) (inc : Nat) : Clock :=
  { c with timeBase := c.fineAt c.now, timeRef := c.now, inc := inc }

/-- Panel time now, in units of 0.25 ns. -/
def State.stampNow (s : State) : Int := (s.clock.fineAt s.clock.now / 2 ^ 30 : Nat)

/-- R234: enter a time state; a change raises its event. -/
def State.setTimeState (s : State) (v : Nat) : State :=
  let old := s.val P.timeState
  if old = v then s else (s.setVal P.timeState v).raiseEvent 4 0x01 srcModule v old

/-- R233, R234: a change of PtpRole. Role 2 is LOCKED; leaving it, the module is FREE. -/
def State.applyPtpRole (s : State) (old new : Nat) : State :=
  if new = old then s
  else
    let s := { s with net := { s.net with ptp := {} } }
    if new = 2 then s.setTimeState 2 else if old = 2 then s.setTimeState 0 else s

/-- The Sync interval as ROOT cycles (0x4030.05). -/
def State.syncInterval (s : State) : Nat := secRoot / 2 ^ (-(signedOf 32 (s.val P.ptpLogSync))).toNat

/-- Whether a PTP message that port `p` received in `domain` is for the module's clock in a role (R233). -/
def State.ptpFor (s : State) (role p : Nat) (domain : Byte) : Bool :=
  s.portUp p && s.val P.ptpRole == role && s.val P.ptpPort == p && domain.toNat == s.val P.ptpDomain

/-- Whether a PTP message from `src` in `domain` on port `p` is the master's (R233). -/
def State.fromMaster (s : State) (p : Nat) (src : Addr6) (domain : Byte) : Bool :=
  s.ptpFor 1 p domain && src.toNat == s.addrOf P.ptpMaster

/-- R217: a PTP message that the module does not take is counted on its port. -/
def State.ptpDiscard (s : State) (p : Nat) : State := if s.portUp p then s.bump64 P.framesDropped p 1 else s

/-- R233: send a PTP message to `dest`: event messages to UDP port 319, general messages to 320. -/
def State.sendPtp (s : State) (dest : Nat) (m : PtpMessage) : State :=
  let port := match m with
    | .delayReq _ _ | .sync _ _ => 319
    | .followUp _ _ | .delayResp _ _ _ => 320
  s.emit (.ptp (s.dataLink (s.val P.ptpPort)) (s.addrOf P.moduleAddress) dest port (s.val P.ptpDomain) m)

/-- R234: the servo sets the increment within ±500 ppm of nominal; which, the manual leaves open (DESIGN CHOICE, assumption
log 30). -/
def State.servo (s : State) : State :=
  let (n, s) := s.draw
  { s with clock := s.clock.withInc (nominalInc - servoRange + (Config.freeServo n).toNat % (2 * servoRange + 1)) }

/-- R234: panel time steps by `d` units of 0.25 ns, not below zero. -/
def State.stepTime (s : State) (d : Int) : State :=
  let fine : Int := (s.clock.fineAt s.clock.now : Nat) + d * 2 ^ 30
  { s with clock := { s.clock with timeBase := fine.toNat, timeRef := s.clock.now } }

/-- The nearest number of nanoseconds to a time in units of 0.25 ns, within an I32. -/
def offsetNs (d : Int) : Nat := wrapInt 32 (max (-(2 ^ 31)) (min (2 ^ 31 - 1) ((d + 2) / 4)))

/-- R233, R234: a valid Sync, sent at `t1` by the master and received at `t2`; a Delay_Req follows it. -/
def State.syncDone (s : State) (t1 t2 : Int) : State :=
  let p := s.net.ptp
  let off := t2 - t1 - p.delay
  let s := s.setVal P.timeOffset (offsetNs off)
  let st := s.val P.timeState
  let s := if st = 0 then s.setTimeState 1 else if st = 3 then s.setTimeState 2 else s
  let acquiring := s.val P.timeState == 1
  let (good, s) : Nat × State :=
    if acquiring then
      if off > 4000 ∨ off < -4000 then (0, s.stepTime (-off))
      else
        let g := if off < 80 ∧ off > -80 then p.good + 1 else 0
        (g, if g ≥ 16 then s.setTimeState 2 else s)
    else (p.good, s)
  let s := s.servo
  let sent := s.stampNow
  let seq := p.reqSeq
  let ptp : Ptp := { p with twoStep := none, syncPair := some (t1, t2), delayReq := some (seq, sent), reqSeq := (seq + 1) % 65536
                            good := good, lastSync := s.clock.now }
  { s with net := { s.net with ptp := ptp } }.sendPtp (s.addrOf P.ptpMaster) (.delayReq seq sent)

/-- PTP_SYNC: a Sync of the master, which reaches the PCS at ROOT cycle `arrival`. A two-step Sync waits for its Follow_Up. -/
def ptpSyncStep (s : State) (p : Nat) (src : Addr6) (domain : Byte) (seq : W16) (twoStep : Bool) (origin correction : Int)
    (arrival : Nat) : State :=
  let s := s.reach arrival
  let rx := s.stampNow
  if ¬ s.fromMaster p src domain then s.ptpDiscard p
  else if twoStep then
    { s with net := { s.net with ptp := { s.net.ptp with twoStep := some (seq.toNat, rx - correction) } } }
  else s.syncDone (origin + correction) rx

/-- PTP_SYNC. -/
def execPtpSync (src : PtpSender) (domain : Byte) (seq : W16) (twoStep : Bool) (origin correction : Int) (arrival : Nat)
    (s : State) : Host.Outcome State Fault Refusal :=
  .next (ptpSyncStep s src.port src.addr domain seq twoStep origin correction arrival)

/-- PTP_FOLLOW_UP: the origin time of the Sync before it. -/
def ptpFollowStep (s : State) (p : Nat) (src : Addr6) (domain : Byte) (seq : W16) (origin correction : Int) : State :=
  if ¬ s.fromMaster p src domain then s.ptpDiscard p
  else
    match s.net.ptp.twoStep with
    | some (q, rx) => if q = seq.toNat then s.syncDone (origin + correction) rx else s
    | none => s

/-- PTP_FOLLOW_UP. -/
def execPtpFollowUp (src : PtpSender) (domain : Byte) (seq : W16) (origin correction : Int) (s : State) :
    Host.Outcome State Fault Refusal :=
  .next (ptpFollowStep s src.port src.addr domain seq origin correction)

/-- PTP_DELAY_REQ: in role 2 the sender is answered, and receives Sync from now on. -/
def ptpDelayReqStep (s : State) (p : Nat) (src : Addr6) (domain : Byte) (seq : W16) (arrival : Nat) : State :=
  let s := s.reach arrival
  if ¬ s.ptpFor 2 p domain then s.ptpDiscard p
  else
    let x := s.net.ptp
    let cs := if x.clients.contains src then x.clients else x.clients ++ [src]
    { s with net := { s.net with ptp := { x with clients := cs } } }.sendPtp src.toNat (.delayResp seq.toNat s.stampNow 0)

/-- PTP_DELAY_REQ. -/
def execPtpDelayReq (src : PtpSender) (domain : Byte) (seq : W16) (arrival : Nat) (s : State) :
    Host.Outcome State Fault Refusal :=
  .next (ptpDelayReqStep s src.port src.addr domain seq arrival)

/-- PTP_DELAY_RESP: the mean path delay of the last Sync and the last Delay_Req. -/
def ptpDelayRespStep (s : State) (p : Nat) (src : Addr6) (domain : Byte) (seq : W16) (received correction : Int) : State :=
  let x := s.net.ptp
  if ¬ s.fromMaster p src domain then s.ptpDiscard p
  else
    match x.delayReq, x.syncPair with
    | some (q, t3), some (t1, t2) =>
      if q = seq.toNat then
        { s with net := { s.net with ptp := { x with delayReq := none, delay := ((t2 - t1) + (received - correction - t3)) / 2 } } }
      else s
    | _, _ => s

/-- PTP_DELAY_RESP. -/
def execPtpDelayResp (src : PtpSender) (domain : Byte) (seq : W16) (received correction : Int) (s : State) :
    Host.Outcome State Fault Refusal :=
  .next (ptpDelayRespStep s src.port src.addr domain seq received correction)

/-- PTP_SYNC_SEND: in role 2, Sync and Follow_Up leave every 2^PtpLogSync s for every client. -/
def ptpSyncSendStep (s : State) : State :=
  if s.val P.ptpRole ≠ 2 then s
  else
    let s := s.reach (s.net.ptp.lastSend + s.syncInterval)
    let p := s.net.ptp
    let t := s.stampNow
    let s := { s with net := { s.net with ptp := { p with lastSend := s.clock.now, sendSeq := (p.sendSeq + 1) % 65536 } } }
    p.clients.foldl (fun s c => (s.sendPtp c.toNat (.sync p.sendSeq t)).sendPtp c.toNat (.followUp p.sendSeq t)) s

/-- PTP_SYNC_SEND. -/
def execPtpSyncSend (s : State) : Host.Outcome State Fault Refusal := .next (ptpSyncSendStep s)

/-- PTP_SYNC_LOSS: in LOCKED, 8 Sync intervals without a Sync lead to HOLDOVER. -/
def ptpSyncLossStep (s : State) : State :=
  if s.val P.ptpRole ≠ 1 ∨ s.val P.timeState ≠ 2 then s
  else (s.reach (s.net.ptp.lastSync + 8 * s.syncInterval)).setTimeState 3

/-- PTP_SYNC_LOSS. -/
def execPtpSyncLoss (s : State) : Host.Outcome State Fault Refusal := .next (ptpSyncLossStep s)

end Sys2Proof.Machine
end

