-- ==== Sys2Proof/Machine/Apply.lean ====
section
/-! DEFINITION. What happens when a held write of an RWS parameter applies (R327): LLM modes (R165), moment records and
millrace regions (R130, R167, R178), the flash layout (R195), ports (R213), streams (R227), the riffle's seed (R270), shard
records (R152). -/

namespace Sys2Proof.Machine

/-- The elements of a parameter that a held write covers. -/
def HeldWrite.elems (h : HeldWrite) : List Nat :=
  let eb := max (elemBytes h.param) 1
  (List.range (ceilDiv h.bytes.length eb)).map fun i => h.offset / eb + i

/-- The write in the parameter store. -/
def State.storeHeld (s : State) (h : HeldWrite) : State := s.putBytes h.param h.offset h.bytes

/-- Whether LLM region `r` of base die `n` holds a page or the new frame of one. -/
def State.llHeld (s : State) (n r : Nat) : Bool :=
  (s.occupied none).any fun o => decide (o.1 / 64 = llBase / 64 + 8 * n + r)

/-- R165: the mode of base die `n` changes, unless a region that turns into cache holds a page. -/
def State.applyLlm (s : State) (n m : Nat) : State :=
  let old := nth s.mem.llmMode n 0
  let bad := (List.range 8).any fun r => bit old r && !bit m r && s.llHeld n r
  if bad then (s.setReg P.llmMode n old).raiseEvent 7 0x05 (srcBase n) m 0
  else { s with mem := { s.mem with llmMode := s.mem.llmMode.set n m } }

/-- R167: whether the reserved areas of some base die overlap a mapped page, or do not fit. -/
def State.hbOverlap (s : State) : Bool :=
  (List.range 8).any fun n =>
    decide (1979 < ceilDiv (s.val P.momentRecords * 33792) (2 ^ 26) + s.millBlocks n)
      || s.frames.any fun o =>
        decide (hbBase + 131072 * n ≤ o.1) && decide (o.1 < hbBase + 131072 * (n + 1))
          && decide (s.hbBlocks n ≤ (o.1 - hbBase - 131072 * n) / 64)

/-- R178: regions that are new, unused or of another shape lose their content. -/
def State.clearRegions (s : State) (old : Nat → Nat) : State :=
  let changed := (List.range 256).filter fun k =>
    let d := s.reg P.millraceTable k
    let o := old k
    mrOp o == 0 || mrOp d == 0 || bits o 32 32 != bits d 32 32 || mrBaseDies o != mrBaseDies d
  { s with mem := { s.mem with
      millrace := s.mem.millrace.filter fun kv => !changed.contains (kv.1 / 2 ^ 41)
      millPoison := s.mem.millPoison.filter fun p => !changed.contains p.1 } }

/-- R208: whether block `i` of the journal area holds a journal granule, of either copy. -/
def State.journalUse (s : State) (i : Nat) : Bool :=
  let half := s.val P.journalBlocks / 2
  (s.journal.complete ++ s.upd.writing).any fun c =>
    (List.range c.granules).any fun k => (c.first + k) % max s.journalSize 1 / 64 == i % max half 1

/-- R213: whether an applied PortMap changes port `k`. -/
def portChanged (old new : Nat → Nat) (k : Nat) : Bool :=
  let g := k / 2
  old g != new g || (k % 4 == 0 && (bits (old g) 0 2 == 3 || bits (new g) 0 2 == 3) && old (g + 1) != new (g + 1))

/-- R213: the ports of a changed group go down and retrain. -/
def State.applyPorts (s : State) (old : Nat → Nat) : State :=
  (List.range 48).foldl (fun s k =>
    if ¬ portChanged old s.portMapIn k then s
    else
      let s := if s.reg P.linkState k = 3 then s.bump32 P.linkFlaps k 1 else s
      s.setReg P.linkState k (if portFormed s.portMapIn k then 2 else 0)) s

/-- R227: a stream whose entry changed restarts with SYNC, or ends. -/
def State.restartStream (s : State) (ns : Nat) : State :=
  let e := s.streamEntry ns
  if seUsed e && !seMgmt e then s.sendSync ns
  else
    { s with net := { s.net with tx := Sparse.put txDefault s.net.tx ns {}, rx := Sparse.put rxDefault s.net.rx ns {} } }.setReg
      P.streamState ns (if seUsed e then 2 else 0)

/-- R270, R272: every array counts its swaps from zero, and every rotation starts anew. -/
def State.resetRiffle (s : State) : State :=
  let s := (s.seq.dies.map Prod.fst).foldl (fun s sl =>
    let d := s.die sl
    s.setDie sl { d with array0 := { d.array0 with swaps := 0 }, array1 := { d.array1 with swaps := 0 } }) s
  { s with riffle := { s.riffle with rotation := List.replicate 8 15 } }

/-- R152: the record of a changed descriptor is reset, at once or when the shard's step has been decided. -/
def State.resetRecord (s : State) (sh : Nat) : State :=
  if srPhase (s.shardRec sh) = 0 then s.setShardRec sh 0
  else { s with upd := { s.upd with resets := s.upd.resets ++ [sh] } }

/-- Apply one held write. -/
def State.applyWrite (s : State) (h : HeldWrite) : State :=
  let n := s.storeHeld h
  let moved := h.elems.filter fun e => s.reg h.param e != n.reg h.param e
  if h.param = P.llmMode then moved.foldl (fun n e => n.applyLlm e (n.reg P.llmMode e)) n
  else if h.param = P.momentRecords then
    if n.hbOverlap then s.tierStatus 0x08 0
    else
      let (k, n) := n.draw
      { n with mem := { n.mem with momDraw := k, moments := [], momPoison := [] } }
  else if h.param = P.millraceTable then
    if n.hbOverlap then s.tierStatus 0x08 0 else n.clearRegions (s.reg P.millraceTable)
  else if h.param = P.journalBlocks ∨ h.param = P.mirrorBlocks then
    let code := s.layoutCode (n.val P.journalBlocks) (n.val P.mirrorBlocks) s.journalUse
    if code ≠ 0 then s.setVal P.bwStatus code
    else
      let n := n.setVal P.bwStatus 0
      if h.param = P.journalBlocks ∧ moved ≠ [] then { n with journal := { n.journal with next := 0 } } else n
  else if h.param = P.portMap then n.applyPorts (s.reg P.portMap)
  else if h.param = P.streamTable then moved.foldl State.restartStream n
  else if h.param = P.riffleSeed then n.resetRiffle
  else if h.param = P.shardTable then moved.foldl State.resetRecord n
  else if h.param = P.ptpRole then n.applyPtpRole (s.val P.ptpRole) (n.val P.ptpRole)
  else n

/-- R327: every held write applies, in the order in which they were accepted. -/
def State.applyHeldAll (s : State) : State :=
  let hs := s.held
  hs.foldl State.applyWrite { s with held := [] }

/-- R327: held writes apply at once where no step is open and StepGate holds the next one back. -/
def State.settleHeld (s : State) : State := if s.gateHolds then s.applyHeldAll else s

end Sys2Proof.Machine
end

