-- ==== Sys2Proof/Machine/Slots.lean ====
section
/-! DEFINITION. The slot map (R10 to R14), the states of the compute die positions (R353), capacity (R355), failure
signatures (R374 to R378) and what a change of slot does (R12, R13, R186). -/

namespace Sys2Proof.Machine

/-- The screen record of position `p` (Table 16-4). -/
def State.screenRec (s : State) (p : Nat) : Nat := s.val (P.screenRecord + p)
/-- Replace it; the field state is to be written (R352). -/
def State.setScreenRec (s : State) (p v : Nat) : State :=
  { s.setVal (P.screenRecord + p) v with panel := { s.panel with fieldDirty := true } }
/-- State of a position: 0 in service, 1 spare, 2 under screening, 3 retired. -/
def State.posState (s : State) (p : Nat) : Nat := bits (s.screenRec p) 0 3
/-- Enter a state of a position. -/
def State.setPosState (s : State) (p v : Nat) : State := s.setScreenRec p (setBits (s.screenRec p) 0 3 v)
/-- Store LastResult of a position. -/
def State.setLastResult (s : State) (p v : Nat) : State := s.setScreenRec p (setBits (s.screenRec p) 3 3 v)

/-- The slot map entry of base die `b`. -/
def State.slotEntry (s : State) (b : Nat) : Nat := s.val (P.slotMap + b)
/-- Replace it. -/
def State.setSlotEntry (s : State) (b v : Nat) : State := s.setVal (P.slotMap + b) v

/-- The slot that position `p` holds, if it is in service. -/
def State.slotOfPos (s : State) (p : Nat) : Option Nat :=
  ((List.range 8).map fun k => 8 * (p / 9) + k).find? fun sl => s.slotPos sl == p % 9

/-- Bind slot `sl` to position field `v` (0xF: absent), counting a change (Table 1-3). The ac and the time up to now belong to what
held the slot before (R282), and the gears follow the new map (R287). -/
def State.bindSlot (s : State) (sl v : Nat) : State :=
  let b := sl / 8
  let s := (s.account sl).accountGear
  let e := s.slotEntry b
  let s := (s.setSlotEntry b (setBits (setBits e (4 * (sl % 8)) 4 v) 40 8 (bits e 40 8 + 1))).regear
  if v = 0xF then s
  else { s with panel := { s.panel with lastSlot := Sparse.put zeros s.panel.lastSlot (9 * b + v) (sl + 1) } }

/-- Set the Spare field of base die `b`. -/
def State.setSpare (s : State) (b v : Nat) : State :=
  { s.setSlotEntry b (setBits (s.slotEntry b) 32 4 v) with panel := { s.panel with fieldDirty := true } }

/-- Add 1 to the Retired field of base die `b`. -/
def State.addRetired (s : State) (b : Nat) : State :=
  let e := s.slotEntry b
  s.setSlotEntry b (setBits e 36 4 (bits e 36 4 + 1))

/-- R355: the capacity state of base die `b`. -/
def State.capacity (s : State) (b : Nat) : Nat :=
  if (List.range 8).any fun k => s.absent (8 * b + k) then 2 else if (s.spareOf b).isNone then 1 else 0

/-- R355: CapacityState follows; a base die that has become unscreened raises its event once. -/
def State.reportCapacity (s : State) (b : Nat) : State :=
  let c := s.capacity b
  let s := s.setReg P.capacityState b c
  if c = 1 ∧ ¬ s.panel.unscreened.contains b then
    { s with panel := { s.panel with unscreened := b :: s.panel.unscreened } }.raiseEvent 7 0x14 (srcBase b) 0 0
  else s

/-- Two BCD digits. -/
def bcd (n : Nat) : Nat := n / 10 % 10 * 16 + n % 10

/-- The calendar date of a day count since 1970-01-01: year, month and day of the proleptic Gregorian calendar. -/
def civil (days : Nat) : Nat × Nat × Nat :=
  let z := days + 719468
  let era := z / 146097
  let doe := z % 146097
  let yoe := (doe - doe / 1460 + doe / 36524 - doe / 146096) / 365
  let doy := doe - (365 * yoe + yoe / 4 - yoe / 100)
  let mp := (5 * doy + 2) / 153
  let d := doy - (153 * mp + 2) / 5 + 1
  let m := if mp < 10 then mp + 3 else mp - 9
  (yoe + era * 400 + (if m ≤ 2 then 1 else 0), m, d)

/-- The Timestamp of a CPER record: panel time as a TAI calendar time in BCD (R375; layout of UEFI, DESIGN CHOICE, assumption
log 32). -/
def cperTime (ns : Nat) (precise : Bool) : List Byte :=
  let t := ns / 1000000000
  let (y, m, d) := civil (t / 86400)
  leBytes 1 (bcd (t % 60)) ++ leBytes 1 (bcd (t / 60 % 60)) ++ leBytes 1 (bcd (t / 3600 % 24)) ++ leBytes 1 (b2n precise)
    ++ leBytes 1 (bcd d) ++ leBytes 1 (bcd m) ++ leBytes 1 (bcd (y % 100)) ++ leBytes 1 (bcd (y / 100))

/-- A GUID in the byte order of EFI_GUID: its five groups (R375). -/
def efiGuid (a b c d e : Nat) : List Byte := leBytes 4 a ++ leBytes 2 b ++ leBytes 2 c ++ beBytes 2 d ++ beBytes 6 e

/-- What a signature says beyond the state (Table 17-7). -/
structure SigInfo where
  kind   : Nat
  cause  : Nat
  unit   : Nat
  part   : Nat := 0
  before : Nat := 0
  after  : Nat := 0
  absent : Bool := false
  deriving DecidableEq, Repr

/-- R378: the offender latch records that name position `p`, at most four. -/
def State.latchesOf (s : State) (p : Nat) : List Nat :=
  ((List.range 16).map fun i => s.val (P.offenderLatch + 16 * (p / 9) + i)).filter (fun r => bit r 0 && bits r 37 4 == p % 9)
    |>.take 4

/-- R374 to R378: the CPER record of a signature, with Record ID `id`. -/
def State.cper (s : State) (x : SigInfo) (id : Nat) : List Byte :=
  let die := x.kind == 1
  let latches := if die then s.latchesOf x.unit else []
  let rec' := if die then s.screenRec x.unit else 0
  let (source, hash) : Nat × Nat :=
    if die ∧ x.cause = 2 then (1, bits rec' 192 64)
    else
      match latches.find? (fun r => bits r 1 3 == 5) with
      | some r => (2, bits r 192 64)
      | none =>
        match latches with
        | r :: _ => (2, bits r 192 64)
        | [] => (0, 0)
  let b := if die then x.unit / 9 else if x.kind = 3 then x.unit / 8 else 0
  let len := 0x80 + 32 * latches.length
  let sev := if x.absent then 0 else 2
  let st := s.val P.timeState
  let serial := leBytes 12 (s.val P.serial)
  let head := [0x43, 0x50, 0x45, 0x52].map (BitVec.ofNat 8) ++ leBytes 2 (Config.cperRevision false).toNat
    ++ leBytes 4 0xFFFFFFFF ++ leBytes 2 1 ++ leBytes 4 sev ++ leBytes 4 (if st = 2 ∨ st = 3 then 2 else 0)
    ++ leBytes 4 (128 + 72 + len) ++ cperTime s.panelTime (st == 2) ++ leBytes 16 0 ++ leBytes 16 0
    ++ efiGuid 0x7d1e5a30 0xc4b2 0x4e8f 0x9a61 0x0f3b72d8c5e4 ++ efiGuid 0x2b9c04f7 0x61ad 0x4d3e 0xb8c5 0x93e07a1f6d22
    ++ leBytes 8 id ++ leBytes 4 0 ++ leBytes 8 0 ++ leBytes 12 0
  let desc := leBytes 4 0xC8 ++ leBytes 4 len ++ leBytes 2 (Config.cperRevision true).toNat ++ leBytes 1 2 ++ leBytes 1 0
    ++ leBytes 4 1 ++ efiGuid 0x0c6f3e91 0x5a27 0x4b80 0xa4d9 0xe8125bc3f07a ++ leBytes 16 0 ++ leBytes 4 sev ++ serial
    ++ leBytes 8 0
  let last := Sparse.get zeros s.panel.lastSlot x.unit
  let body := leBytes 2 1 ++ leBytes 1 x.kind ++ leBytes 1 x.cause ++ leBytes 1 x.unit
    ++ leBytes 1 (if ¬ die then 0 else if last = 0 then 0xFF else last - 1) ++ leBytes 1 x.part ++ leBytes 1 source ++ serial
    ++ leBytes 1 (s.val P.featureLevel) ++ leBytes 1 0 ++ leBytes 2 (if die then s.reg P.dieRevisions (8 + x.unit) else 0)
    ++ leBytes 4 (s.val P.firmwareVersion) ++ leBytes 4 (s.val P.recordVersion) ++ leBytes 8 s.panelTime ++ leBytes 8 s.step
    ++ leBytes 8 hash ++ leBytes 32 rec' ++ leBytes 8 (if die then s.slotEntry b else 0) ++ leBytes 2 x.before
    ++ leBytes 2 x.after ++ leBytes 1 (if x.kind = 2 then 0 else s.capacity b) ++ leBytes 1 latches.length ++ leBytes 26 0
    ++ latches.flatMap (leBytes 32)
  head ++ desc ++ body

/-- The Source of a signature's event: its unit (Table 17-4). -/
def SigInfo.source (x : SigInfo) : Nat := srcOf (match x.kind with | 1 => 7 | 2 => 8 | _ => 9) x.unit

/-- R374, R380: a signature is due: its fields are captured, and SIGNATURE_STORE writes it. -/
def State.dueSignature (s : State) (x : SigInfo) : State :=
  let id := s.nor.sigSeq + s.log.sigDue.length + 1
  { s with log := { s.log with sigDue := s.log.sigDue ++ [(x.source, s.cper x id)] } }

/-- The screen of position `p` ends: its stress is removed, and the event of R360 is raised. -/
def State.endScreen (s : State) (p result : Nat) : State :=
  let s := { s with panel := { s.panel with screens := s.panel.screens.filter fun x => x.position != p } }
  let r := s.screenRec p
  let s := s.setScreenRec p (setBits (setBits (setBits r 3 3 result) 16 16 (min (bits r 16 16 + b2n (result != 5)) 0xFFFF))
    64 64 s.panelTime)
  s.raiseEvent 0xA 0x02 (srcOf 7 p) result (bits (s.screenRec p) 128 64)

/-- Whether slot `sl` has an entry of the open step that has not completed. -/
def State.unfinished (s : State) (sl : Nat) : Bool :=
  !s.absent sl && ((s.die sl).streams.any (fun x => !x.ended) || !(s.die sl).flight.isEmpty)

/-- R12: whether base die `b` is at a step boundary: the open step's word is final, and its entries have completed on every die in
service there; or no step is open. -/
def State.atBoundary (s : State) (b : Nat) : Bool :=
  !s.seq.opened || (s.val P.finalStep == s.step
    && (List.range 8).all fun k => s.seq.dead.contains (8 * b + k) || !s.unfinished (8 * b + k))

/-- R264, R354, R356: the spare of base die `b` is needed: a screen on it is ABANDONED. -/
def State.claimSpare (s : State) (b : Nat) : Option Nat × State :=
  match s.spareOf b with
  | none => (none, s)
  | some q => if s.panel.screens.any (fun x => x.position == q) then (some q, s.endScreen q 5) else (some q, s)

/-- A die with nothing in progress; its arrays keep the numbers of their sets (R270). -/
def Die.idle (d : Die) : Die :=
  { d with flight := [], streams := d.streams.map fun (x : Stream) => { x with ended := true }
           array0 := { swaps := d.array0.swaps }, array1 := { swaps := d.array1.swaps } }

/-- R13, R354: the copy of a slot's tile store starts; `old` is the position that held the slot. What a failed die had in progress
comes to nothing. -/
def State.startCopy (s : State) (sl old : Nat) : State :=
  let s := if s.seq.dead.contains sl then s.setDie sl (s.die sl).idle else s
  { s with seq := { s.seq with
      copying := s.seq.copying ++ [(sl, old)], dead := s.seq.dead.filter (· != sl)
      changedAt := if s.seq.changedAt.contains (sl / 8) then s.seq.changedAt else (sl / 8) :: s.seq.changedAt } }

/-- R353: position `p` is retired: its record, the Retired field, and later its signature. -/
def State.retirePos (s : State) (p result : Nat) : State :=
  ((s.setPosState p 3).setLastResult p result).addRetired (p / 9)

/-- R12, R186, R354, R361: slot `sl` leaves position `p`, which is retired; the spare takes it, or it becomes absent. -/
def State.retireSlot (s : State) (sl p result cause : Nat) : State :=
  let b := p / 9
  let (q, s) := s.claimSpare b
  let s := match q with
    | some q => (((s.bindSlot sl (q % 9)).setSpare b 0xF).setPosState q 0).startCopy sl p
    | none => (s.bindSlot sl 0xF).startCopy sl p
  let s := s.retirePos p result
  let gone := q.isNone
  let s := if gone then s.raiseEvent 0xA 0x01 (srcSlot sl) p 0 else s
  (s.reportCapacity b).dueSignature { kind := 1, cause := cause, unit := p, absent := gone }

/-- R360, R361: position `p`, the spare of its base die, is retired. -/
def State.retireSpare (s : State) (p result cause part : Nat) : State :=
  let b := p / 9
  let s := { s with panel := { s.panel with screens := s.panel.screens.filter fun x => x.position != p } }
  let s := (s.setSpare b 0xF).retirePos p result
  (s.reportCapacity b).dueSignature { kind := 1, cause := cause, unit := p, part := part }

/-- R356: slot `sl` leaves position `p`, which becomes the spare, and the spare takes it. None when there is no spare. -/
def State.swapSpare (s : State) (sl p : Nat) : Option State :=
  let b := p / 9
  match s.claimSpare b with
  | (none, _) => none
  | (some q, s) =>
    some ((((s.bindSlot sl (q % 9)).setSpare b (p % 9)).setPosState q 0).setPosState p 1 |>.startCopy sl p)

/-- Whether base die `b` is at a step boundary at which it has not changed yet (R12). A change that is asked for after the
instant of a boundary, while no step is open, is still served at that boundary (DESIGN CHOICE, assumption log 94). -/
def State.mayChange (s : State) (b : Nat) : Bool :=
  s.atBoundary b && s.up 2 && !s.seq.changedAt.contains b

/-- The changes asked for on base die `b`, in the order of R356: a hard failure (0), that of the spare before one of a die in
service, then a replay (2). -/
def State.changesOf (s : State) (b : Nat) : List (Nat × Nat) :=
  let rank (r : Nat × Nat) : Nat := if r.1 = 0 ∧ s.spareOf b = some r.2 then 0 else r.1 + 1
  sortBy rank (s.seq.changeReq.filter fun r => r.2 / 9 == b && r.1 != 1)

/-- SLOT_CHANGE (R12, R13, R264, R353, R354): the first change asked for on base die `bd`. A spare that failed is retired. A request
whose die is neither in service nor spare any more goes. -/
def slotChangeStep (s : State) (b : Nat) : State :=
  if ¬ s.mayChange b then s
  else
    match s.changesOf b with
    | [] => s
    | (k, p) :: _ =>
      let s := { s with seq := { s.seq with changeReq := removeFirst (· == (k, p)) s.seq.changeReq } }
      match s.slotOfPos p with
      | none => if k = 0 ∧ s.spareOf b = some p then s.retireSpare p 4 3 0 else s
      | some sl =>
        if k = 0 then s.retireSlot sl p 4 3 else (s.swapSpare sl p).getD s

/-- BLAME_RETIREMENT (R361): at a boundary a die whose Blames has reached BlameRetire is retired without a screen, after a
hard failure of its base die. -/
def blameRetireStep (s : State) (p : Nat) : State :=
  let b := p / 9
  if ¬ s.mayChange b ∨ ¬ s.seq.changeReq.contains (1, p) ∨ s.seq.changeReq.any (fun r => r.1 == 0 && r.2 / 9 == b) then s
  else
    let s := { s with seq := { s.seq with changeReq := removeFirst (· == (1, p)) s.seq.changeReq } }
    match s.slotOfPos p with
    | some sl => s.retireSlot sl p 6 4
    | none => if s.spareOf b = some p then s.retireSpare p 6 4 0 else s

/-- BLAME_RETIREMENT. -/
def execBlameRetirement (p : Position) (s : State) : Host.Outcome State Fault Refusal := .next (blameRetireStep s p)

/-- SLOT_CHANGE. -/
def execSlotChange (bd : BaseDie) (s : State) : Host.Outcome State Fault Refusal := .next (slotChangeStep s bd)

/-- R354: a tile of slot `sl`'s tile store that the copy could not read is poisoned. -/
def State.poisonUnread (s : State) (sl id : Nat) : State :=
  let e := s.page (pageOf id)
  if eKind e = 1 ∧ eTier e = 0 ∧ eFrame e / 64 = sl then s.putTile id (s.lostAt id) else s

/-- SLOT_COPY_COMPLETE (R13, R186, R354): the copies of base die `bd` complete within 100 µs; an absent slot's pages have
been placed by the spillway. -/
def slotCopyStep (s : State) (b : Nat) (unreadable : List Nat) : State :=
  let mine := s.seq.copying.filter fun c => c.1 / 8 == b
  if mine = [] then s
  else
    let bad := unreadable.filter fun id =>
      let e := s.page (pageOf id)
      eKind e == 1 && eTier e == 0 && mine.any fun c => c.1 == eFrame e / 64
    let s := mine.foldl (fun s c => s.account c.1) s
    let s := { s with seq := { s.seq with copying := s.seq.copying.filter fun c => c.1 / 8 != b } }
    let s := mine.foldl (fun s c =>
      if s.absent c.1 then s.respill c.1 bad else bad.foldl (fun s id => s.poisonUnread c.1 id) s) s
    if bad = [] then s else s.condition 4

/-- SLOT_COPY_COMPLETE. -/
def execSlotCopyComplete (bd : BaseDie) (unreadable : List Nat) (s : State) : Host.Outcome State Fault Refusal :=
  .next (slotCopyStep s bd unreadable)

/-- BASE_DIE_OUT_OF_SERVICE (R344): all eight slots of a base die cut off from B0 become absent at one boundary. -/
def baseDieOutStep (s : State) (b : Nat) : State :=
  if ¬ s.atBoundary b ∨ ¬ s.panel.cutOff.contains b then s
  else
    let s := { s with panel := { s.panel with
      cutOff := s.panel.cutOff.filter (· != b), out := b :: s.panel.out
      screens := s.panel.screens.filter fun x => x.position / 9 != b } }
    let s := (List.range 8).foldl (fun s k =>
      let sl := 8 * b + k
      if s.absent sl then s
      else
        let p := s.slotPos sl
        ((s.bindSlot sl 0xF).startCopy sl (9 * b + p)).raiseEvent 0xA 0x01 (srcSlot sl) (9 * b + p) 0) s
    (s.setSpare b 0xF).reportCapacity b

/-- BASE_DIE_OUT_OF_SERVICE. -/
def execBaseDieOutOfService (bd : BaseDie) (s : State) : Host.Outcome State Fault Refusal := .next (baseDieOutStep s bd)

end Sys2Proof.Machine
end

