-- ==== Sys2Proof/Machine/Channels.lean ====
section
/-! DEFINITION. Flash channels that are mapped out (R203), and the end of a read of a logical unit (R199 to R202, R208). -/

namespace Sys2Proof.Machine

/-- R203, R374: channel `ch` is mapped out for a cause (1 training, 2 every die failed): event, signature, and the blocks of
the channel that hold units are to be relocated. -/
def State.mapOutChannel (s : State) (ch cause : Nat) : State :=
  if s.flash.badChans.contains ch then s
  else
    let lost (p : Nat) : Bool := pageBlock p / 81920 == ch / 8 && pageChan p == ch % 8
    let moved := ((s.flash.lus.filter fun l => l.2.valid && lost l.2.page).map fun l => pageBlock l.2.page).eraseDups
    let moving := s.flash.moving ++ moved.filter fun k => !s.flash.moving.contains k
    let s := { s with flash := { s.flash with badChans := s.flash.badChans ++ [ch], moving := moving } }
    (s.raiseEvent 7 0x0C (srcOf 9 ch) 0 0).dueSignature { kind := 3, cause := cause, unit := ch }

/-- ChannelState (0x3051.0C): 1 for a mapped-out channel. -/
def State.channelState (s : State) (ch : Nat) : Nat := b2n (s.flash.badChans.contains ch)

/-- LU_READ_COMPLETE (R199 to R203): `lost` tells that the read found every die of the unit's channel failed. -/
def luReadDone (s : State) (x : Nat) (r : LadderEnd) (lost : Bool) : State :=
  if ¬ s.up 2 then s
  else
    let l := s.lu x
    let s := luReadStep s x r
    if lost ∧ l.valid then s.mapOutChannel (8 * luBase x + pageChan l.page) 2 else s

/-- LU_READ_COMPLETE. -/
def execLuReadComplete (lu : Nat) (r : LadderEnd) (lost : Bool) (s : State) : Host.Outcome State Fault Refusal :=
  .next (luReadDone s lu r lost)

end Sys2Proof.Machine
end

