-- ==== Sys2Proof/Machine/Rills.lean ====
section
/-! DEFINITION. The rills: replays (R339), the width handshake (R341 to R343), routes (R344), the ports that rills feed
(R345), partial reset (R347). -/

namespace Sys2Proof.Machine

/-- The base dies that a rill joins (Table 16-1). -/
def rillEnds (r : Nat) : Nat × Nat :=
  match r with
  | 0 => (0, 1) | 1 => (1, 2) | 2 => (2, 3) | 3 => (4, 5) | 4 => (5, 6) | 5 => (6, 7) | 6 => (0, 4) | 7 => (1, 5)
  | 8 => (2, 6) | _ => (3, 7)

/-- Replace rill `r`. -/
def State.setRill (s : State) (r : Nat) (x : Rill) : State := { s with panel := { s.panel with rills := setAt {} s.panel.rills r x } }

/-- Base dies joined to one of `xs` by a rill that is up, `xs` included. -/
def State.spread (s : State) (xs : List Nat) : List Nat :=
  (List.range 8).filter fun b => xs.contains b || (List.range 10).any fun r =>
    (s.rill r).mask != 0 && (let (a, c) := rillEnds r
                             (a == b && xs.contains c) || (c == b && xs.contains a))

/-- The base dies that a route joins to B0 (R344). -/
def State.reached (s : State) : List Nat := (List.range 8).foldl (fun xs _ => s.spread xs) [0]

/-- R344: base dies that no route joins to B0 are to be taken out of service. -/
def State.routes (s : State) : State :=
  let on := s.reached
  let off := (List.range 8).filter fun b => !on.contains b && !s.panel.out.contains b
  { s with panel := { s.panel with cutOff := off } }

/-- R345: the ports that rills feed follow their widths. -/
def State.feedPorts (s : State) : State :=
  fedPorts.foldl (fun s (_, g) =>
    let p := 2 * g
    if bits (s.portMapIn g) 0 2 ≠ 3 then s
    else if ¬ s.portFed p then
      let s := if s.reg P.linkState p = 3 then s.bump32 P.linkFlaps p 1 else s
      if s.reg P.linkState p = 0 then s else s.setReg P.linkState p 1
    else if s.reg P.linkState p = 1 ∧ s.supply.refGood then s.setReg P.linkState p 2
    else s) s

/-- R342: a retrain starts with the width handshake. -/
def State.startHandshake (s : State) (r : Nat) : State :=
  let x := s.rill r
  if x.shaking then s
  else (s.setRill r { x with shaking := true, before := x.mask, agreed := x.mask, fails := 0, recent := [] }).bump32
    P.rillRetrains r 1

/-- RILL_FLIT_CRC_ERROR (R339): the receiver discards flits of a group and the sender replays them. -/
def flitErrorStep (s : State) (r dir g flits : Nat) : State :=
  let x := s.rill r
  if ¬ bit x.mask g ∨ flits = 0 ∨ flits > 64 ∨ ¬ s.up 2 then s
  else
    let s := s.bump64 P.rillReplays (16 * r + g) flits
    let recent := (x.recent.filter fun e => decide (s.clock.now ≤ e.2.1 + 1000 * usRoot)) ++ [(16 * dir + g, s.clock.now, flits)]
    s.setRill r { x with recent := recent }

/-- RILL_FLIT_CRC_ERROR. -/
def execRillFlitCrcError (r : RillIx) (dir : Fin 2) (group : Fin 16) (flits : Nat) (s : State) :
    Host.Outcome State Fault Refusal :=
  .next (flitErrorStep s r dir group flits)

/-- RILL_ERROR_LIMIT (R342): the replays of one group rose by more than RillErrorLimit within 1 ms. -/
def errorLimitStep (s : State) (r g : Nat) : State :=
  let n := ((s.rill r).recent.filter fun e => e.1 % 16 == g && decide (s.clock.now ≤ e.2.1 + 1000 * usRoot)).foldl
    (fun n e => n + e.2.2) 0
  if n > s.val P.rillErrorLimit then s.startHandshake r else s

/-- RILL_ERROR_LIMIT. -/
def execRillErrorLimit (r : RillIx) (group : Fin 16) (s : State) : Host.Outcome State Fault Refusal :=
  .next (errorLimitStep s r group)

/-- Add to a count in the map of repairs found in the field: keys 0 to 71 positions, 72 to 81 rills, and for each group of wires or
bonds the spares it has used (`rillKey`, `bondKey`). -/
def State.addRepair (s : State) (k n : Nat) : State :=
  let m := s.panel.repairs
  { s with panel := { s.panel with
      repairs := Sparse.put zeros m k (min (Sparse.get zeros m k + n) 0xFFFF), fieldDirty := true } }

/-- The key of a group of a rill in one direction. -/
def rillKey (r d g : Nat) : Nat := 128 + 32 * r + 16 * d + g
/-- The key of a bond group of a position. -/
def bondKey (p g : Nat) : Nat := 1024 + 128 * p + g

/-- R338, R350: the spares of a group of wires that steering has used, in the factory and in the field. -/
def State.rillUsed (s : State) (r d g : Nat) : Nat :=
  min (Config.factoryRillRepairs r d g).toNat 2 + Sparse.get zeros s.panel.repairs (rillKey r d g)
/-- R350: the spare bonds that a bond group has used. -/
def State.bondUsed (s : State) (p g : Nat) : Nat :=
  min (Config.factoryBondRepairs p g).toNat 2 + Sparse.get zeros s.panel.repairs (bondKey p g)

/-- RillSpares (0xA020.03): spare wires free in direction `d` of rill `r`, two per group. -/
def State.rillSpares (s : State) (r d : Nat) : Nat := (List.range 16).foldl (fun n g => n + (2 - s.rillUsed r d g)) 0

/-- Failing wires of a group in one direction. -/
def faultsIn (fs : List RillFault) (d g : Nat) : Nat :=
  (fs.filter fun f => f.dir.val == d && f.group.val == g).foldl (fun n f => n + f.wires) 0

/-- R341: the groups of `m` that the end receiving direction `d` keeps: those with no more than two failed wires. Each end finds the
faults of the wires that it receives on (DEDUCED, assumption log 100). -/
def State.trainMask (s : State) (r d m : Nat) (fs : List RillFault) : Nat :=
  ((List.range 16).filter fun g => bit m g && decide (s.rillUsed r d g + faultsIn fs d g ≤ 2)).foldl (fun n g => n + 2 ^ g) 0

/-- R341: the failing wires of the groups of `m` are steered onto the spares of their groups. -/
def State.steer (s : State) (r m : Nat) (fs : List RillFault) : State :=
  (List.range 32).foldl (fun s k =>
    let n := faultsIn fs (k / 16) (k % 16)
    if n = 0 ∨ ¬ bit (s.trainMask r (k / 16) m fs) (k % 16) then s
    else (s.addRepair (72 + r) n).addRepair (rillKey r (k / 16) (k % 16)) n) s

/-- R342 to R345: a handshake ends with mask `final`; `out` are the groups that it maps out. -/
def State.endHandshake (s : State) (r final out : Nat) : State :=
  let x := s.rill r
  let before := x.before
  let s := s.setRill r { x with lower := final, upper := final, shaking := false, mappedOut := Nat.lor x.mappedOut out }
  let n := popcount16 out
  let s := s.bump32 P.rillMappedOut r n
  let s := (List.range n).foldl (fun s _ => s.raiseEvent 7 0x13 (srcOf 8 r) final out) s
  let s := if out = 0 then s else s.dueSignature { kind := 2, cause := 1, unit := r, before := before, after := final }
  s.routes.feedPorts

/-- RILL_TRAINING_ATTEMPT (R341, R342): both ends have trained the agreed groups: the lower base die receives direction 1.
They agree, or disagree for the first or the second time. -/
def trainingStep (s : State) (r : Nat) (fs : List RillFault) : State :=
  let x := s.rill r
  if ¬ x.shaking then s
  else
    let a := s.trainMask r 1 x.agreed fs
    let b := s.trainMask r 0 x.agreed fs
    let s := s.steer r x.agreed fs
    if a = b then s.endHandshake r a 0
    else if x.fails = 0 then s.setRill r { x with lower := a, upper := b, agreed := Nat.land a b, fails := 1 }
    else s.endHandshake r (Nat.land a b) (Nat.lor a b - Nat.land a b)

/-- The faults that the two ends of a rill found: the lower base die receives direction 1, the upper direction 0. -/
def attemptFaults (lower upper : List (Fin 16 × Nat)) : List RillFault :=
  (lower.map fun f => { dir := 1, group := f.1, wires := f.2 }) ++ upper.map fun f => { dir := 0, group := f.1, wires := f.2 }

/-- RILL_TRAINING_ATTEMPT: an attempt takes at most 200 µs (R341). -/
def execRillTrainingAttempt (r : RillIx) (lower upper : List (Fin 16 × Nat)) (took : Nat) (s : State) :
    Host.Outcome State Fault Refusal :=
  .next (trainingStep (s.reach (s.clock.now + min took (200 * usRoot))) r (attemptFaults lower upper))

/-- R341, R342, R351: rill `r` at power-up: the interconnect test gives each end its mask, and the handshake trains at most
twice; an attempt that the test names no faults of finds none. Groups that training leaves out go into a signature (R374). -/
def State.trainRill (s : State) (r : Nat) (t : RillTest) : State :=
  let a := s.trainMask r 1 0xFFFF t.faults
  let b := s.trainMask r 0 0xFFFF t.faults
  let s := s.steer r 0xFFFF t.faults
  let s := (s.setRill r { lower := a, upper := b, shaking := true, agreed := Nat.land a b }).bump32 P.rillRetrains r 1
  let s := (List.range 2).foldl (fun s i => trainingStep s r (nth t.attempts i [])) s
  let x := s.rill r
  if Nat.lor x.mask x.mappedOut = 0xFFFF then s
  else s.dueSignature { kind := 2, cause := 2, unit := r, before := 0xFFFF, after := x.mask }

/-- PARTIAL_RESET (R347): the rill endpoints of a base die reload their masks and retrain. -/
def partialResetStep (s : State) (b : Nat) : State :=
  if ¬ s.up 2 then s else
  (List.range 10).foldl (fun s r =>
    let x := s.rill r
    let (lo, hi) := rillEnds r
    let full := 0xFFFF - x.mappedOut
    if lo ≠ b ∧ hi ≠ b then s
    else
      let x : Rill := { x with shaking := false, lower := if lo = b then full else x.lower, upper := if hi = b then full else x.upper }
      (s.setRill r x).startHandshake r) s

/-- PARTIAL_RESET. -/
def execPartialReset (bd : BaseDie) (s : State) : Host.Outcome State Fault Refusal := .next (partialResetStep s bd)

end Sys2Proof.Machine
end

