-- ==== Sys2Proof/Machine/Weir.lean ====
section
/-! DEFINITION. The weir's samples (R285 to R295), the supply comparators (R296, R297) and the orderly reset (R298). -/

namespace Sys2Proof.Machine

/-- The weir's period: 100 µs (R285). -/
def samplePeriod : Nat := 100 * usRoot

/-- The parameters that `Weir.levels` holds in force, in its order. -/
def levelParams : List Nat :=
  [ P.throttleTemp, P.hardLimit, P.thermalHyst, P.hbmThrottleTemp, P.hbmLimit, P.warnLevel, P.resetLevel, P.supplyHyst
  , P.supplyHold, P.overLevel ]

/-- A threshold in force, in the order of `levelParams`. -/
def State.level (s : State) (i : Nat) : Nat := nth s.weir.levels i 0

/-- The recovery level: WarnLevel + SupplyHyst (R297). -/
def State.recoverLevel (s : State) : Val := (f32 (s.level 5)).add (f32 (s.level 7))

/-- Whether an input voltage is at or above the recovery level. -/
def State.recovered (s : State) (v : Nat) : Bool := !(f32 v).isNan && !(f32 v).lt s.recoverLevel

/-- Whether the weir runs: panel reset is released and the module is neither in RECOVERY nor FAILED (R390). -/
def State.weirRuns (s : State) : Bool := s.supply.released && s.up 0

/-- R291: accepted writes take effect at the sample. -/
def State.takeWeirParams (s : State) : State :=
  { s with weir := { s.weir with
      gearCap := s.val P.gearCap, powerLimit := s.val P.powerLimit, depth := s.val P.bucketDepth
      levels := levelParams.map s.val } }

/-- R285: the sample can be read. -/
def State.storeSample (s : State) (x : WeirReadings) : State :=
  let s := (s.setVal P.inputPower x.pIn.toNat).setVal P.inputVoltage x.vIn.toNat
  let s := (List.range 6).foldl (fun s i => s.setReg P.railPower i (nth x.rails i 0).toNat) s
  let s := (List.range 96).foldl (fun s i => s.setReg P.temperatures i (nth x.temps i 0).toNat) s
  (s.setReg P.coolantTemps 0 x.inlet.toNat).setReg P.coolantTemps 1 x.outlet.toNat

/-- R288: the allowance, from input power and compute rail power. -/
def allowanceOf (limit pIn pComp : Nat) : Val :=
  let a := (Val.ofInt limit).add ((f32 pIn).add (f32 pComp).negate).negate
  if a.lt (Val.zero false) then Val.zero false else a

/-- R289: a correction factor clamped to 0.50–1.25, and whether it was clamped. -/
def clampCorrection (c : Nat) : Nat × Bool :=
  if flt c 0x3F000000 then (0x3F000000, true) else if flt 0x3FA00000 c then (0x3FA00000, true) else (c, false)

/-- R289: the correction factor at a sample. 0 / 0 gives a value that the manual leaves open (DESIGN CHOICE, assumption log 39). -/
def State.correct (s : State) (a : Val) (pComp : Nat) : State :=
  if ¬ s.weir.waited ∧ ¬ a.lt (f32 pComp) then s
  else
    let v := ((f32 (s.val P.correction)).mul a).div (f32 pComp)
    let (raw, s) : Nat × State :=
      if v.isNan then (let (n, s) := s.draw
                       ((Config.freeCorrection n).toNat, s)) else ((toF32 v).1, s)
    let (c, hit) := clampCorrection raw
    let s := s.setVal P.correction c
    if hit then s.bump32 P.correctionClamps 0 1 else s

/-- The whole part of a non-negative value. -/
def Val.floorNat : Val → Nat
  | .fin false n d e => let (a, b) := scaleFrac n d (-e); a / b
  | _ => 0

/-- R288: the refill per ac of each gear, in 2^−16 units of 16 nJ, truncated toward zero. -/
def refillRates (a : Val) (c dies : Nat) : List Nat :=
  (List.range 8).map fun g =>
    if dies = 0 then 0
    else (((a.mul (f32 c)).mul (Val.ofInt (gearFraction g * 2 ^ 16))).div (Val.ofInt (16 * 36 * dies))).floorNat

/-- R292: the power gear at a sample of input power `p`. `lowSince` is where a run of samples below 0.95 × PowerLimit began. -/
def State.stepPowerGear (s : State) (p : Nat) : State :=
  let w := s.weir
  let frac (k : Int) : Val := (Val.ofInt (k * w.powerLimit)).div (Val.ofInt 100)
  let low := (f32 p).lt (frac 95)
  let since := if low then some (w.lowSince.getD w.lastSample) else none
  let s := { s with weir := { w with lowSince := since } }
  if (frac 105).lt (f32 p) then
    { s with weir := { s.weir with powerGear := w.powerGear - 1 } }.bump32 P.overPowerSteps 0 1
  else s

/-- R293: the thermal gear of sensor `k` at temperature `t`. `lastChange` holds, plus 1, the time of the last change under
key `k` and of the last step down under key 96 + `k`. -/
def State.stepThermal (s : State) (k t : Nat) : State :=
  let w := s.weir
  let level := s.level (if k < 80 then 0 else 3)
  let g := Sparse.get gearDefault w.thermal k
  let now := s.clock.now
  let last (i : Nat) : Nat := Sparse.get zeros w.lastChange i
  let spaced (i d : Nat) : Bool := last i == 0 || decide (last i - 1 + d ≤ now)
  if fge t level then
    if g = 0 ∨ ¬ spaced (96 + k) (1000 * usRoot) then s
    else
      let s := { s with weir := { w with
        thermal := Sparse.put gearDefault w.thermal k (g - 1)
        lastChange := Sparse.put zeros (Sparse.put zeros w.lastChange k (now + 1)) (96 + k) (now + 1) } }
      let s := s.bump32 P.thermalSteps k 1
      if g = 7 then s.raiseEvent 2 0x01 (srcOf 0xA k) t 0 else s
  else if (f32 t).lt ((f32 level).add (f32 (s.level 2)).negate) then
    if g = 7 ∨ ¬ spaced k (10000 * usRoot) then s
    else { s with weir := { w with
        thermal := Sparse.put gearDefault w.thermal k (g + 1), lastChange := Sparse.put zeros w.lastChange k (now + 1) } }
  else s

/-- Whether sensor `k` is at or above its hard limit at temperature `t` (R294). -/
def State.atLimit (s : State) (k t : Nat) : Bool := fge t (s.level (if k < 80 then 1 else 4))

/-- R294: sensors at their hard limit, with the sample since which each is; a sensor that newly is raises its event. -/
def State.stepHardLimit (s : State) (temps : List Nat) : State :=
  let was := s.weir.hot
  let hot := (indicesWhere 96 fun k => s.atLimit k (nth temps k 0)).map fun k =>
    (k, ((was.find? fun h => h.1 == k).map Prod.snd).getD s.clock.now)
  let s := { s with weir := { s.weir with hot := hot } }
  let s := (hot.filter fun h => !was.any fun o => o.1 == h.1).foldl
    (fun s h => s.raiseEvent 2 0x02 (srcOf 0xA h.1) (nth temps h.1 0) 0) s
  if hot = [] then s else s.drainBudget

/-- Whether an inlet temperature lies outside 20–40 °C (R295). -/
def coolantOutside (t : Nat) : Bool := flt t 0x41A00000 || flt 0x42200000 t

/-- WEIR_SAMPLE (R285, R287 to R289, R291 to R295). -/
def weirSampleStep (s : State) (x : WeirReadings) : State :=
  if ¬ s.weirRuns then s
  else
    let s := (s.reach (s.weir.lastSample + samplePeriod)).accountAll
    let pComp := (nth x.rails 0 0).toNat
    let temps := x.temps.map (·.toNat)
    let s := (s.storeSample x).takeWeirParams
    let a := allowanceOf s.weir.powerLimit x.pIn.toNat pComp
    let s := s.correct a pComp
    let s := { s with weir := { s.weir with rates := refillRates a (s.val P.correction) s.presentSlots.length } }
    let s := s.stepPowerGear x.pIn.toNat
    let s := (List.range 96).foldl (fun s k => s.stepThermal k (nth temps k 0)) s
    let s := s.stepHardLimit temps
    let cool := if coolantOutside x.inlet.toNat then some (s.weir.coolSince.getD s.clock.now) else none
    { s with weir := { s.weir with waited := false, coolSince := cool, lastSample := s.clock.now } }.regear

/-- WEIR_SAMPLE. -/
def execWeirSample (x : WeirReadings) (s : State) : Host.Outcome State Fault Refusal := .next (weirSampleStep s x)

/-- POWER_GEAR_RISE (R292): every sample of a further 1 ms lay below 0.95 × PowerLimit. -/
def powerRiseStep (s : State) : State :=
  match s.weir.lowSince with
  | none => s
  | some t =>
    if ¬ s.weirRuns ∨ s.weir.powerGear = 7 ∨ s.weir.lastSample < t + 1000 * usRoot then s
    else
      let s := s.accountAll
      { s with weir := { s.weir with powerGear := s.weir.powerGear + 1, lowSince := some s.weir.lastSample } }.regear

/-- POWER_GEAR_RISE. -/
def execPowerGearRise (s : State) : Host.Outcome State Fault Refusal := .next (powerRiseStep s)

/-- COOLANT_OUT_OF_RANGE (R295): the inlet has been outside 20–40 °C for 1 s, or is back inside. -/
def coolantStep (s : State) (inlet : Nat) : State :=
  if ¬ s.weirRuns then s
  else if s.weir.coolOut then
    if coolantOutside inlet then s
    else { s with weir := { s.weir with coolOut := false, coolSince := none } }.raiseEvent 2 0x04 srcModule inlet 0
  else
    match s.weir.coolSince with
    | none => s
    | some t =>
      if ¬ coolantOutside inlet then s
      else { s.reach (t + secRoot) with weir := { s.weir with coolOut := true } }.raiseEvent 2 0x03 srcModule inlet 0

/-- COOLANT_OUT_OF_RANGE. -/
def execCoolantOutOfRange (inlet : W32) (s : State) : Host.Outcome State Fault Refusal := .next (coolantStep s inlet.toNat)

/-- STATUS_N is pulled low (R402). -/
def State.statusLow (s : State) : Bool := s.supply.released && s.boot == 4

/-- FAIL_N is pulled low (R402); an orderly reset leaves it as before until the next release (Table 19-3). -/
def State.failLow (s : State) : Bool :=
  if s.supply.released then s.boot == 5 || s.boot == 6 else s.supply.closed && s.supply.failHeld

/-- R298: an orderly reset. Writes to the host are abandoned, flash work ends, ResetCause is stored with its Count, and all
volatile state goes: only the flash with its journal, and the SPI NOR, keep their content. The input and the pins stay as
the surroundings hold them. -/
def State.orderlyReset (s : State) (cause sensor : Nat) : State :=
  let s := s.loseCheckpoints.loseWrites
  let count := min (bits s.nor.cause 16 16 + 1) 0xFFFF
  { pending := s.pending, flash := s.flash, journal := s.journal, out := s.out, draws := s.draws
    supply := { s.supply with powering := false, released := false, failHeld := s.failLow }
    host := { perst := s.host.perst }
    nor := { s.nor with cause := cause + 2 ^ 8 * sensor + 2 ^ 16 * count, consumed := false } }

/-- Whether the module is powered: from qualification to an orderly reset. -/
def State.powered (s : State) : Bool := s.supply.powering || s.supply.released

/-- HARD_LIMIT_PERSIST (R294): every sample of a further 1 ms showed the sensor at or above its limit. -/
def hardPersistStep (s : State) (k : Nat) : State :=
  match s.weir.hot.find? fun h => h.1 == k with
  | none => s
  | some h => if s.weir.lastSample < h.2 + 1000 * usRoot then s else s.orderlyReset 0x03 k

/-- HARD_LIMIT_PERSIST. -/
def execHardLimitPersist (sensor : Sensor) (s : State) : Host.Outcome State Fault Refusal := .next (hardPersistStep s sensor)

/-- SUPPLY_DIP (R296): the input falls below WarnLevel. A crossing in supply gear 0 adds nothing to SupplyDips; before release
it only undoes the qualification second. -/
def supplyDipStep (s : State) (v : Nat) : State :=
  if ¬ flt v (s.level 5) then s
  else
    let s := { s with supply := { s.supply with qualified := false }, weir := { s.weir with hystSince := none } }
    if ¬ s.supply.released then s
    else
      let first := s.weir.supplyGear != 0
      let s := s.accountAll.drainBudget
      let s := { s with weir := { s.weir with
        supplyGear := 0, dipAt := if first then s.clock.now else s.weir.dipAt } }.regear
      (if first then s.bump32 P.supplyDips 0 1 else s).raiseEvent 2 0x05 srcModule 0 0

/-- SUPPLY_DIP. -/
def execSupplyDip (v : W32) (s : State) : Host.Outcome State Fault Refusal := .next (supplyDipStep s v.toNat)

/-- SUPPLY_HYST_CROSSING (R297, R298, R382): the input crosses WarnLevel + SupplyHyst: rising, the hold or the qualification
second starts; falling, it starts anew. -/
def hystStep (s : State) (v : Nat) : State :=
  let up := s.recovered v
  { s with
    supply := { s.supply with qualified := up }
    weir := { s.weir with hystSince := if up then some (s.weir.hystSince.getD s.clock.now) else none } }

/-- SUPPLY_HYST_CROSSING. -/
def execSupplyHystCrossing (v : W32) (s : State) : Host.Outcome State Fault Refusal := .next (hystStep s v.toNat)

/-- SUPPLY_RECOVERED (R297): SupplyHold has passed at or above WarnLevel + SupplyHyst. -/
def recoveredStep (s : State) : State :=
  match s.weir.hystSince with
  | none => s
  | some t =>
    if ¬ s.supply.released ∨ s.weir.supplyGear ≠ 0 then s
    else
      let s := (s.reach (t + s.level 8 * usRoot)).accountAll
      let s := { s with weir := { s.weir with supplyGear := 7 } }.regear
      s.raiseEvent 2 0x06 srcModule ((s.clock.now - s.weir.dipAt) / usRoot) 0

/-- SUPPLY_RECOVERED. -/
def execSupplyRecovered (s : State) : Host.Outcome State Fault Refusal := .next (recoveredStep s)

/-- The hot-swap switch closes only while ENABLE is mated and the input stands at or above 38.0 V (R405). -/
def State.hotSwap (s : State) : State :=
  { s with supply := { s.supply with closed := s.supply.closed || (s.supply.mated && s.supply.input38) } }

/-- What an input voltage tells the input stage; below 38.0 V the switch is open (DEDUCED, assumption log 40). -/
def State.seeInput (s : State) (v : Nat) : State :=
  let high := fge v 0x42180000
  { s with supply := { s.supply with
      input38 := high, closed := s.supply.closed && high, qualified := s.recovered v, failHeld := s.supply.failHeld && high } }

/-- RESET_LEVEL_CROSSING (R298, R405): the input falls below ResetLevel, or rises above OverLevel. -/
def resetLevelStep (s : State) (v : Nat) : State :=
  let low := flt v (s.level 6)
  let high := flt (s.level 9) v
  if ¬ low ∧ ¬ high then s
  else if s.powered then (s.orderlyReset (if low then 0x01 else 0x02) 0).seeInput v
  else s.seeInput v

/-- RESET_LEVEL_CROSSING. -/
def execResetLevelCrossing (v : W32) (s : State) : Host.Outcome State Fault Refusal := .next (resetLevelStep s v.toNat)

/-- ENABLE_OPEN (R405, R406): an orderly reset with cause 0x01 while the switch is closed; the switch
opens, and qualification starts anew. -/
def enableOpenStep (s : State) : State :=
  let s := if s.supply.closed then s.orderlyReset 0x01 0 else s
  { s with supply := { s.supply with mated := false, closed := false, failHeld := false } }

/-- ENABLE_OPEN. -/
def execEnableOpen (s : State) : Host.Outcome State Fault Refusal := .next (enableOpenStep s)

/-- ENABLE_MATE (R405). -/
def enableMateStep (s : State) : State := { s with supply := { s.supply with mated := true } }.hotSwap

/-- ENABLE_MATE. -/
def execEnableMate (s : State) : Host.Outcome State Fault Refusal := .next (enableMateStep s)

/-- INPUT_RISES_TO_38V (R405). -/
def input38Step (s : State) (v : Nat) : State := if fge v 0x42180000 then (s.seeInput v).hotSwap else s

/-- INPUT_RISES_TO_38V. -/
def execInputRisesTo38V (v : W32) (s : State) : Host.Outcome State Fault Refusal := .next (input38Step s v.toNat)

end Sys2Proof.Machine
end

