-- ==== Sys2Proof/Machine/Boot.lean ====
section
/-! DEFINITION. Signed images (R386, R387), boot state and slot selection (R388 to R392), firmware update (R396, R397), and
the power-up sequence (R382 to R385). -/

namespace Sys2Proof.Machine

/-- Element `e` (4096 bytes) of firmware slot `slot`. An erased slot reads as an image that fails R387. -/
def FwSlot.elem (slot : Nat) (x : FwSlot) (e : Nat) : Nat :=
  match x with
  | .factory => (Config.factoryImage slot e).toNat
  | .image m => Sparse.get zeros m e

/-- Bytes [off, off + n) of an image given by its elements. -/
def imageBytes (elem : Nat → Nat) (off n : Nat) : List Byte :=
  let first := off / 4096
  slice ((List.range (ceilDiv (off + n) 4096 - first)).flatMap fun i => leBytes 4096 (elem (first + i))) (off - 4096 * first) n

/-- A digest as the 48 bytes that an image stores. -/
def digest48 (m : List Byte) : List Byte := beBytes 48 (Config.sha384 m).toNat

/-- The components of an image header (Table 18-3): type, offset, bytes, and whether its Res bytes are zero. -/
def components (h : List Byte) : List (Nat × Nat × Nat × Bool) :=
  (List.range 32).map fun i =>
    let o := 0x200 + 16 * i
    (leField h o 1, leField h (o + 4) 4, leField h (o + 8) 4, leField h (o + 1) 3 == 0 && leField h (o + 12) 4 == 0)

/-- Whether two of the used components overlap. -/
def anyOverlap : List (Nat × Nat × Nat × Bool) → Bool
  | [] => false
  | x :: xs => xs.any (fun y => decide (x.2.1 < y.2.1 + y.2.2.1) && decide (y.2.1 < x.2.1 + x.2.2.1)) || anyOverlap xs

/-- The Res bytes of a header outside the components: offset and count (Table 18-3). -/
def headerRes : List (Nat × Nat) := [(0x0F, 1), (0x12, 6), (0x50, 8), (0xB9, 7), (0xC2, 6), (0x129, 7), (0x1F0, 16)]

/-- The checks of Table 18-4 for a firmware image, in order: the code of the first that fails, or 0x00. -/
def checkFw (elem : Nat → Nat) (level svnFloor keyFloor : Nat) : Nat :=
  let h := imageBytes elem 0 1024
  let size := leField h 0x18 8
  let used := (components h).filter fun c => c.1 != 0
  let rootKey := slice h 0x58 97
  let signed := slice h 0 0x190 ++ leBytes 96 0 ++ slice h 0x1F0 528
  if leField h 0 4 ≠ 0x4D57464A ∨ leField h 4 2 ≠ 1 ∨ leField h 6 2 ≠ 0x400 ∨ size < 0x400 ∨ size > 25165824
      ∨ headerRes.any (fun r => leField h r.1 r.2 != 0) ∨ (components h).any (fun c => !c.2.2.2) then 0x01
  else if Config.sha384 rootKey ≠ Config.rootKeyHash then 0x02
  else if leField h 0xC0 2 < keyFloor ∨ ¬ Config.ecdsaVerify rootKey (slice h 0xC0 112) (slice h 0x130 96) then 0x03
  else if ¬ Config.ecdsaVerify (slice h 0xC8 97) signed (slice h 0x190 96) then 0x04
  else if digest48 (imageBytes elem 0x400 (size - 0x400)) ≠ slice h 0x20 48 then 0x05
  else if leField h 0x0C 2 < svnFloor then 0x06
  else if leField h 0x0E 1 > level then 0x07
  else if used.any (fun c => decide (size < c.2.1 + c.2.2.1)) ∨ anyOverlap used ∨ ¬ used.any (fun c => c.1 == 1) then 0x08
  else 0x00

/-- A firmware slot of the SPI NOR: 0 A, 1 B. -/
def Nor.slot (n : Nor) (i : Nat) : FwSlot := if i = 0 then n.slotA else n.slotB
/-- Replace it. -/
def Nor.setSlot (n : Nor) (i : Nat) (x : FwSlot) : Nor := if i = 0 then { n with slotA := x } else { n with slotB := x }

/-- The newest boot state copy (R388). -/
def Nor.newest (n : Nor) : Option BootRec :=
  match n.boot0, n.boot1 with
  | none, b => b
  | a, none => a
  | some a, some b => if a.seq < b.seq then some b else some a

/-- R388: a change writes the other copy, with Seq + 1. -/
def Nor.writeBoot (n : Nor) (r : BootRec) : Nor :=
  let seq := ((n.newest.map (·.seq)).getD 0 + 1) % 2 ^ 32
  let r := { r with seq := seq }
  match n.newest with
  | none => { n with boot0 := some r }
  | some x => if n.boot0 = some x then { n with boot1 := some r } else { n with boot0 := some r }

/-- The boot state in force: none without an identity, since K_bs verifies its Mac (R391). -/
def State.bootRec (s : State) : Option BootRec := if s.val P.identityState = 0 then s.nor.newest else none

/-- SvnFloor and KeyFloor in force: those of the boot state, or the factory floors (R389). -/
def State.floors (s : State) : Nat × Nat :=
  match s.bootRec with
  | some r => (r.svnFloor, r.keyFloor)
  | none => (Config.factoryFloors.toNat % 65536, Config.factoryFloors.toNat / 65536)

/-- verifies(s) of R389: slot `i` passes Table 18-4. -/
def State.slotGood (s : State) (i : Nat) : Bool :=
  checkFw ((s.nor.slot i).elem i) (s.val P.featureLevel) s.floors.1 s.floors.2 == 0

/-- Version and Svn of a slot's image, for the choice of R389. -/
def State.slotRank (s : State) (i : Nat) : Nat :=
  let h := imageBytes ((s.nor.slot i).elem i) 0 16
  leField h 12 2 * 2 ^ 32 + leField h 8 4

/-- select() of R389: the slot to boot, none for RECOVERY, and the boot state it leaves. -/
def State.selectImage (s : State) : Option Nat × BootRec :=
  match s.bootRec with
  | none =>
    let (sv, k) := s.floors
    let c := [0, 1].filter fun i => s.slotGood i
    let pick := if c = [0, 1] ∧ s.slotRank 0 < s.slotRank 1 then some 1 else c.head?
    (pick, { preferred := pick.getD 0, svnFloor := sv, keyFloor := k })
  | some r =>
    let fall (r : BootRec) : Option Nat × BootRec :=
      (if s.slotGood r.preferred then some r.preferred
       else if s.slotGood (1 - r.preferred) then some (1 - r.preferred) else none, r)
    if r.trial = 0xFF then fall r
    else if ¬ s.slotGood r.trial then fall { r with trial := 0xFF, trialResult := 3 }
    else if r.trialCount ≥ 3 then fall { r with trial := 0xFF, trialResult := 2 }
    else (some r.trial, { r with trialCount := r.trialCount + 1 })

/-- Feature level of die `i` of DieRevisions with revision `v` (Table 0-6, R349). -/
def levelOf (i v : Nat) : Nat := if (i < 8 ∧ v = 0x0101) ∨ (8 ≤ i ∧ (v = 0x0200 ∨ v = 0x0201)) then 2 else 1

/-- What the panel record gives the parameters (R8, R349; DESIGN CHOICE, assumption log 33). -/
def State.loadRecord (s : State) : State :=
  let rev (i : Nat) : Nat := (Config.dieRevision i).toNat
  let s := (List.range 80).foldl (fun s i => s.setReg P.dieRevisions i (rev i + 2 ^ 16 * levelOf i (rev i))) s
  let level := ((List.range 80).map fun i => levelOf i (rev i)).foldl min 2
  [ (P.serial, Config.serial.toNat), (P.featureLevel, level), (P.recordVersion, Config.recordVersion.toNat)
  , (P.macBase, Config.macBase.toNat), (P.mgmtMac, Config.mgmtMac.toNat), (P.i3cStaticAddress, Config.i3cStatic.toNat)
  , (P.i3cPid, Config.i3cPid.toNat), (P.vendorIana, Config.vendorIana.toNat), (P.objectCount, Config.objectCount.toNat)
  , (P.deviceIdCertificate, Config.deviceIdCertificate.toNat) ].foldl (fun s (p, v) => s.setVal p v) s

/-- R383: ResetCause at power-up, and the record is consumed. -/
def State.readResetRecord (s : State) : State :=
  let c := s.nor.cause
  let cause := if s.nor.consumed then c / 2 ^ 16 * 2 ^ 16 else c
  { s.setVal P.resetCause cause with nor := { s.nor with consumed := true } }

/-- R389 to R392: an image is selected, the boot state written, and the alias certificate issued; or RECOVERY. -/
def State.bootRom (s : State) : State :=
  let (pick, r) := s.selectImage
  let valid := s.bootRec.isSome
  let s := s.setVal P.bootStateValid (b2n valid)
  let id := s.val P.identityState == 0
  let nor := if id then s.nor.writeBoot { r with bootCount := min (r.bootCount + 1) 0xFFFFFFFF } else s.nor
  let s := { s with nor := nor }
  match pick with
  | none => s.setVal P.bootState 5
  | some i =>
    let (n, s) := s.draw
    let image := s.nor.slot i
    let h := imageBytes (image.elem i) 0 24
    let s := ((s.setVal P.runningSlot i).setVal P.firmwareVersion (leField h 8 4)).setVal P.manualIssue (leField h 0x10 2)
    let s := if id then s.setVal P.aliasCertificate (Config.aliasCertificate n).toNat else s
    { s with fw := { s.fw with trialBoot := id && r.trial == i, image := image, slot := i, certDraw := n } }

/-- QUALIFICATION (R382, R298, R405): ENABLE and the input have held for 1 s; power-up begins. -/
def qualificationStep (s : State) : State :=
  if ¬ s.supply.mated ∨ ¬ s.supply.closed ∨ ¬ s.supply.qualified ∨ s.powered then s
  else
    let (n, s) := s.draw
    { s with supply := { s.supply with powering := true }
             fw := { s.fw with release := (Config.freeRelease n).toNat % 12001 } }

/-- QUALIFICATION. -/
def execQualification (s : State) : Host.Outcome State Fault Refusal := .next (qualificationStep s)

/-- PANEL_RESET_RELEASE (R346, R382 to R392, R227, R385): ROOT has locked; panel time and PanelAc start at zero, the module draws
its epoch, the host link trains, and the boot ROM runs.
`seed` is what the PUF gives; none is a failed reconstruction. -/
def panelReleaseStep (s : State) (seed : Option (BitVec 256)) : State :=
  if ¬ s.supply.powering ∨ ¬ s.supply.refGood then s
  else
    let s := { s with supply := { s.supply with powering := false, released := true }, clock := {} }
    let s := s.loadRecord.readResetRecord.setVal P.identityState (if seed.isSome then 0 else 2)
    let (n, s) := s.draw
    let s := s.setVal P.topologyEpoch (max (Config.freeEpoch n).toNat 1)
    let s := if Config.recordGood ∧ ¬ s.host.perst then s.setVal P.hostLinkState 1 else s
    if Config.recordGood then s.bootRom else s.setVal P.bootState 6

/-- PANEL_RESET_RELEASE. -/
def execPanelResetRelease (seed : Option (BitVec 256)) (s : State) : Host.Outcome State Fault Refusal :=
  .next (panelReleaseStep s seed)

/-- Enter boot state `b` of Table 18-2: BootTimes takes the time since qualification. -/
def State.enterBoot (s : State) (b : Nat) : State :=
  (s.setVal P.bootState b).setReg P.bootTimes (b - 1) (min (s.clock.now / usRoot + s.fw.release) 0xFFFFFFFF)

/-- ENTER_FIRMWARE (R382, R385). -/
def enterFirmwareStep (s : State) : State :=
  if ¬ s.supply.released ∨ s.boot ≠ 0 then s
  else { s.enterBoot 1 with fw := { s.fw with retry := false } }

/-- ENTER_FIRMWARE. -/
def execEnterFirmware (s : State) : Host.Outcome State Fault Refusal := .next (enterFirmwareStep s)

/-- R352: the field state, or the state as delivered (R350). -/
def State.fieldState (s : State) : FieldState :=
  s.nor.field.getD { repairs := [], retired := [], spares := (List.range 8).map fun b => min (Config.factorySpare b).toNat 8
                     records := [] }

/-- R10 to R14: the slot map entry of base die `b`: the good positions other than the spare take the slots in ascending order;
a spare that is good stays spare only while eight others are. -/
def slotMapEntry (b spare : Nat) (retired : List Nat) : Nat :=
  let good := (List.range 9).filter fun p => !retired.contains (9 * b + p)
  let others := good.filter (· != spare)
  let full := others.length == 8
  let use := if full then others else good
  let hold (k : Nat) : Nat := nth use k 0xF
  let sp := if full && good.contains spare then spare else 0xF
  (List.range 8).foldl (fun e k => e + hold k * 16 ^ k) 0 + sp * 2 ^ 32 + (9 - good.length) * 2 ^ 36

/-- R353: the state of position `p` under a slot map entry. -/
def State.mapState (s : State) (retired : List Nat) (p : Nat) : Nat :=
  if retired.contains p then 3 else if bits (s.slotEntry (p / 9)) 32 4 = p % 9 then 1 else 0

/-- R11 to R14, R351 to R353: the slot maps and screen records are loaded; `bad` are the positions that the power-up test
retires. -/
def State.loadMaps (s : State) (f : FieldState) (bad : List Nat) : State :=
  let new := bad.eraseDups.filter fun p => !f.retired.contains p
  let retired := f.retired ++ new
  let s := (List.range 8).foldl (fun s b => s.setVal (P.slotMap + b) (slotMapEntry b (nth f.spares b 0xF) retired)) s
  let s := (List.range 72).foldl (fun s p =>
    s.setVal (P.screenRecord + p) (setBits (Sparse.get zeros f.records p) 0 3 (s.mapState retired p))) s
  let lastSlots : Sparse Nat := ((List.range 72).filterMap fun p => (s.slotOfPos p).map fun sl => (p, sl + 1))
  let s := { s with panel := { s.panel with lastSlot := lastSlots, fieldDirty := s.panel.fieldDirty || !new.isEmpty } }.regear
  let s := (List.range 8).foldl (fun s b => s.setReg P.capacityState b (s.capacity b)) s
  (List.range 8).foldl (fun s b =>
    let lost := new.filter fun p => p / 9 == b
    let before := slotMapEntry b (nth f.spares b 0xF) f.retired
    let gone := (List.range 8).filter fun k => s.absent (8 * b + k) && bits before (4 * k) 4 != 0xF
    let s := gone.foldl (fun s k =>
      s.raiseEvent 0xA 0x01 (srcSlot (8 * b + k)) (9 * b + bits before (4 * k) 4) 0) s
    let s := s.reportCapacity b
    lost.foldl (fun s p => s.dueSignature { kind := 1, cause := 5, unit := p, absent := !gone.isEmpty }) s) s

/-- R351: the interconnect test of the bonds: each new fault is steered onto a free spare of its group, where that has enough. -/
def State.steerBonds (s : State) (fs : List (Nat × Nat)) (count : Nat → Nat → Nat) : State :=
  fs.foldl (fun s (p, g) =>
    if s.bondUsed p g + count p g ≤ 2 then (s.addRepair p (count p g)).addRepair (bondKey p g) (count p g) else s) s

/-- R352: the field state is discarded, and counted, where its CRC fails at power-up. -/
def State.dropField (s : State) : State :=
  { s with nor := { s.nor with field := none, fieldDrops := s.nor.fieldDrops + 1 } }

/-- ENTER_PANEL (R349 to R353, R382, R203, R194): the interconnect test and rill training are done, the slot maps loaded, and
the flash controllers have left reset. -/
def enterPanelStep (s : State) (t : PanelTest) : State :=
  if s.boot ≠ 1 then s
  else
    let s := s.enterBoot 2
    let s := if t.fieldBad then s.dropField else s
    let f := s.fieldState
    let s := { s with panel := { s.panel with repairs := f.repairs, fieldDirty := t.fieldBad } }
    let groups := (t.bondFaults.map fun (p, g, _) => (p.val, g.val)).eraseDups
    let count (p g : Nat) : Nat :=
      (t.bondFaults.filter fun x => x.1.val == p && x.2.1.val == g).foldl (fun n x => n + x.2.2) 0
    let cut := (groups.filter fun (p, g) => decide (2 < s.bondUsed p g + count p g)).map (·.1)
    let s := (s.steerBonds groups count).loadMaps f (cut ++ t.badPositions.map (·.val))
    let s := (List.range 10).foldl (fun s r => s.trainRill r (nth t.rills r { faults := [], attempts := [] })) s
    let s := s.routes
    let s := { s with flash := { s.flash with scan := List.replicate 8 0, scanFrom := List.replicate 8 s.clock.now } }
    let s := t.badChannels.foldl (fun s c => s.mapOutChannel c 1) s
    s.rebuildStripes t.lostUnits

/-- ENTER_PANEL. -/
def execEnterPanel (t : PanelTest) (s : State) : Host.Outcome State Fault Refusal := .next (enterPanelStep s t)

/-- The ports that PortMap forms start to train under R213. -/
def State.trainPorts (s : State) : State :=
  (List.range 48).foldl (fun s k =>
    if portFormed s.portMapIn k then s.setReg P.linkState k (if s.portFed k ∧ s.supply.refGood then 2 else 1) else s) s

/-- R388, R392: the boot state service writes a record whose floors do not fall. -/
def State.serviceWrite (s : State) (r : BootRec) : State :=
  match s.bootRec with
  | none => s
  | some x => if r.svnFloor < x.svnFloor ∨ r.keyFloor < x.keyFloor then s else { s with nor := s.nor.writeBoot r }

/-- FwStatus: a code and a state (R396). -/
def State.fwDone (s : State) (code st : Nat) : State := s.setVal P.fwStatus (code + 2 ^ 8 * st)
/-- The state in FwStatus. -/
def State.fwState (s : State) : Nat := bits (s.val P.fwStatus) 8 8

/-- Confirm (Table 18-7): the running slot on trial becomes the preferred one, and the floors rise. -/
def State.confirm (s : State) : State :=
  let st := s.fwState
  match s.bootRec with
  | none => s.fwDone 0x12 st
  | some r =>
    if r.trial ≠ s.fw.slot ∨ ¬ s.fw.trialBoot then s.fwDone 0x12 st
    else
      let h := imageBytes (s.fw.image.elem s.fw.slot) 0 0xC2
      let r := { r with preferred := s.fw.slot, trial := 0xFF, trialResult := 1
                        svnFloor := max r.svnFloor (leField h 0x0C 2), keyFloor := max r.keyFloor (leField h 0xC0 2) }
      { s.serviceWrite r with fw := { s.fw with trialBoot := false } }.fwDone 0x00 st

/-- ENTER_READY (R382, R384, R198, R211, R397): backwater entries are restored, the journal is checked, held writes apply,
and a trial boot is confirmed where AutoConfirm is 1. -/
def enterReadyStep (s : State) : State :=
  if s.boot ≠ 3 then s
  else
    let s := s.restoreEntries.checkJournal.enterBoot 4
    let s := s.applyHeldAll.settleStaged
    if s.fw.trialBoot ∧ s.val P.autoConfirm = 1 then s.confirm else s

/-- ENTER_READY. -/
def execEnterReady (s : State) : Host.Outcome State Fault Refusal := .next (enterReadyStep s)

/-- WATCHDOG_EXPIRY (R383): the steward firmware has not refreshed the watchdog for 2 s. -/
def watchdogStep (s : State) : State := if s.weirRuns then s.orderlyReset 0x05 0 else s

/-- WATCHDOG_EXPIRY. -/
def execWatchdogExpiry (s : State) : Host.Outcome State Fault Refusal := .next (watchdogStep s)

/-- TRIAL_BOOT_TIMEOUT (R383): a trial boot has not reached BootState 4 by Q + 60 s. -/
def trialTimeoutStep (s : State) : State :=
  if s.fw.trialBoot ∧ s.supply.released ∧ s.boot < 4 then s.orderlyReset 0x05 0 else s

/-- TRIAL_BOOT_TIMEOUT. -/
def execTrialBootTimeout (s : State) : Host.Outcome State Fault Refusal := .next (trialTimeoutStep s)

/-- R390: a panel reset without an orderly reset: volatile state goes, and the boot ROM runs again. -/
def State.panelReset (s : State) : State :=
  let s := s.loseCheckpoints.loseWrites
  { pending := s.pending, flash := s.flash, journal := s.journal, out := s.out, draws := s.draws, nor := s.nor
    supply := { s.supply with powering := true, released := false, failHeld := false }
    host := { perst := s.host.perst }
    fw := { release := s.fw.release } }

/-- Staging (R396): one element of FwImage. A write after Verify undoes state 1. -/
def State.stage (s : State) (e v : Nat) : State :=
  { s with fw := { s.fw with staged := Sparse.put zeros s.fw.staged e v, stagedAny := true } }.fwDone
    (bits (s.val P.fwStatus) 0 8) 0

/-- The slot that Install writes (R390, R396). -/
def State.installSlot (s : State) : Nat :=
  if s.boot = 5 then (if s.slotGood 0 then 1 else 0) else 1 - s.fw.slot

/-- A write of FwCommand (Table 18-7): whether it ends with status Value, and the state. -/
def State.fwCommand (s : State) (c : Nat) : Bool × State :=
  if s.fwState = 2 ∨ (c = 2 ∧ s.boot = 6) then (true, s.fwDone 0x13 s.fwState)
  else
    match c with
    | 1 =>
      if ¬ s.fw.stagedAny then (false, s.fwDone 0x10 0)
      else
        let code := checkFw (Sparse.get zeros s.fw.staged) (s.val P.featureLevel) s.floors.1 s.floors.2
        (false, s.fwDone code (b2n (code == 0)))
    | 2 =>
      if (s.bootRec.map (·.trial)).getD 0xFF ≠ 0xFF then (false, s.fwDone 0x11 s.fwState)
      else if s.fwState ≠ 1 then (true, s.fwDone 0x13 s.fwState)
      else
        let t := s.installSlot
        (false, { s with nor := s.nor.setSlot t (.image []), fw := { s.fw with target := t } }.fwDone 0x00 2)
    | 3 => (false, s.confirm)
    | 4 => (false, { s with fw := { s.fw with staged := [], stagedAny := false } }.fwDone 0x00 0)
    | _ => (true, s)

/-- FW_INSTALL_COMPLETE (R396, R390, R392): the slot is programmed, read back and verified, and boot state names it as the
trial; or programming, erase or readback failed. -/
def installDoneStep (s : State) (ok : Bool) : State :=
  if s.fwState ≠ 2 then s
  else
    let size := leField (imageBytes (Sparse.get zeros s.fw.staged) 0 1024) 0x18 8
    let elems := s.fw.staged.filter fun kv => decide (kv.1 < ceilDiv size 4096)
    let t := s.fw.target
    let written : State := { s with nor := s.nor.setSlot t (.image elems) }
    if ¬ ok ∨ ¬ written.slotGood t then s.fwDone 0x14 0
    else
      let (sv, k) := s.floors
      let r := (s.bootRec).getD { svnFloor := sv, keyFloor := k }
      let r := { r with trial := t, trialCount := 0, trialResult := 0 }
      let nor := if s.val P.identityState = 0 then written.nor.writeBoot r else written.nor
      let s : State := { s with nor := nor }.fwDone 0x00 0
      if s.boot = 5 then s.panelReset else s

/-- FW_INSTALL_COMPLETE. -/
def execFwInstallComplete (ok : Bool) (s : State) : Host.Outcome State Fault Refusal := .next (installDoneStep s ok)

/-- SlotVersions (0x8010.06): Version, Svn and KeyId of slot `i`, all ones where it fails R387. -/
def State.slotVersion (s : State) (i : Nat) : Nat :=
  if s.slotGood i then
    let h := imageBytes ((s.nor.slot i).elem i) 0 0xC2
    leField h 8 4 + leField h 12 2 * 2 ^ 32 + leField h 0xC0 2 * 2 ^ 48
  else 2 ^ 64 - 1

/-- BootStateRecord (0x8000.03): the 96 bytes in force, Mac included; zero where none is (Table 18-5). -/
def State.bootRecord (s : State) : List Byte :=
  match s.bootRec with
  | none => leBytes 96 0
  | some r =>
    let body := leBytes 4 0x5453424A ++ leBytes 4 r.seq ++ leBytes 1 r.preferred ++ leBytes 1 r.trial ++ leBytes 1 r.trialCount
      ++ leBytes 1 r.trialResult ++ leBytes 2 r.svnFloor ++ leBytes 2 r.keyFloor ++ leBytes 4 r.bootCount ++ leBytes 28 0
    body ++ beBytes 48 (Config.bootMac body).toNat

end Sys2Proof.Machine
end

