-- ==== Sys2Proof/Machine/HostQueues.lean ====
section
/-! DEFINITION. The host port's functions, queues, completions and link (R299 to R306, R311 to R319), and the event ring that
it writes (R371, R372). -/

namespace Sys2Proof.Machine

/-- Function `fn`. -/
def State.hostFn (s : State) (fn : Nat) : HostFn := Sparse.get fnDefault s.host.fns fn
/-- Replace function `fn`. -/
def State.setFn (s : State) (fn : Nat) (f : HostFn) : State :=
  { s with host := { s.host with fns := Sparse.put fnDefault s.host.fns fn f } }
/-- Queue `q` of a function. -/
def HostFn.queue (f : HostFn) (q : Nat) : HostQueue := Sparse.get queueDefault f.queues q
/-- Queue `q` of function `fn`. -/
def State.queue (s : State) (fn q : Nat) : HostQueue := (s.hostFn fn).queue q
/-- Replace a queue. -/
def State.setQueue (s : State) (fn q : Nat) (x : HostQueue) : State :=
  let f := s.hostFn fn
  s.setFn fn { f with queues := Sparse.put queueDefault f.queues q x }

/-- Entries of both rings: 2^Size (Table 14-5). -/
def HostQueue.size (x : HostQueue) : Nat := 2 ^ bits x.config 0 4
/-- QEnable. -/
def HostQueue.enabled (x : HostQueue) : Bool := bit x.config 4
/-- QStatus Active. -/
def HostQueue.active (x : HostQueue) : Bool := bit x.status 0

/-- Whether the host link is up (0x9000.05). -/
def State.hostUp (s : State) : Bool := bits (s.val P.hostLinkState) 0 2 == 2

/-- The 64-byte lines of a write. -/
def linesOf (dat : List Byte) : Nat := ceilDiv dat.length 64

/-- R303: the code of the check of a queue's registers, or 0. -/
def HostQueue.formCode (x : HostQueue) : Nat :=
  if x.sqBase % 4096 ≠ 0 ∨ x.cqBase % 4096 ≠ 0 ∨ x.line % 64 ≠ 0 then 0x01
  else if bits x.config 0 4 < 4 ∨ 12 < bits x.config 0 4 then 0x02
  else 0x00

/-- R303: a queue that fails its check with `code`. -/
def HostQueue.reject (x : HostQueue) (code : Nat) : HostQueue :=
  { x with config := setBits x.config 4 1 0, status := 2 ^ 8 * code }

/-- R303: the check of the registers of a queue whose QEnable is 1 in a running function. -/
def HostQueue.form (x : HostQueue) : HostQueue := if x.formCode = 0 then x else x.reject x.formCode

/-- R303: the first read of the line of a queue that is enabled and has passed the check of its registers. -/
def HostQueue.start (x : HostQueue) (sqTail cqHead : Nat) : HostQueue :=
  if sqTail ≠ 0 ∨ cqHead ≠ 0 then x.reject 0x03
  else { x with status := 1, sqTail := 0, cqHead := 0, head := 0, tail := 0, phase := 1, next := 0, dones := 0, cmds := [] }

/-- R303: the check of a queue whose QEnable becomes 1 in a running function, with its line as just read. -/
def HostQueue.activate (x : HostQueue) (sqTail cqHead : Nat) : HostQueue :=
  if x.formCode = 0 then x.start sqTail cqHead else x.reject x.formCode

/-- QUEUE_ENABLE (R303): software writes a queue's registers and sets QEnable; `sqTail` and `cqHead` are what its queue line
holds, which a function that does not run does not read yet. -/
def queueEnableStep (s : State) (fn q sqTail cqHead : Nat) (x : HostQueue) : State :=
  if ¬ s.hostUp ∨ (s.queue fn q).enabled then s
  else s.setQueue fn q (if (s.hostFn fn).running then x.activate sqTail cqHead else x)

/-- QUEUE_ENABLE. -/
def execQueueEnable (fn : FnIx) (q : QueueIx) (sqBase cqBase line : W64) (config : W32) (sqTail cqHead : W32) (s : State) :
    Host.Outcome State Fault Refusal :=
  .next (queueEnableStep s fn q sqTail.toNat cqHead.toNat
    { sqBase := sqBase.toNat, cqBase := cqBase.toNat, line := line.toNat, config := setBits (bits config.toNat 0 10) 4 1 1 })

/-- R305: the code of a queue line that breaks the ring, or 0. -/
def HostQueue.lineCode (x : HostQueue) (sqTail cqHead : Nat) : Nat :=
  let n := x.size
  if n ≤ sqTail ∨ n ≤ cqHead then 0x04
  else if (sqTail + n - x.head) % n < (x.sqTail + n - x.head) % n then 0x05
  else 0x00

/-- Source field of a queue (Table 17-4). -/
def srcQueue (fn q : Nat) : Nat := srcOf 0xB (16 * fn + q)

/-- R314: send an MSI-X message of a function, or keep it pending where MSI-X is not enabled or the vector is masked. -/
def State.sendMsix (s : State) (fn v : Nat) : State :=
  let f := s.hostFn fn
  if f.cfg.msix && f.cfg.unmasked.any (·.val == v) then s.emit (.msix fn v)
  else if f.irq.contains v then s
  else s.setFn fn { f with irq := f.irq ++ [v] }

/-- R302, R314: the PCIe configuration of a function as the host has set it by now; what was pending for a vector that is unmasked
leaves (DESIGN CHOICE, assumption log 99). -/
def State.configure (s : State) (fn : Nat) (cfg : FnConfig) : State :=
  let f := s.hostFn fn
  let s := s.setFn fn { f with cfg := cfg, irq := [] }
  f.irq.foldl (fun s v => s.sendMsix fn v) s

/-- QUEUE_LINE_REREAD (R303 to R305): the first read of the line of a queue that waits for it, or the next of an Active one. -/
def queueRereadStep (s : State) (fn q sqTail cqHead : Nat) (cfg : FnConfig) : State :=
  if ¬ (s.hostFn fn).running then s
  else
  let s := s.configure fn cfg
  let x := s.queue fn q
  if x.enabled ∧ x.status = 0 then s.setQueue fn q (x.start sqTail cqHead)
  else if ¬ x.active then s
  else
    let code := x.lineCode sqTail cqHead
    if code = 0 then s.setQueue fn q { x with sqTail := sqTail, cqHead := cqHead }
    else
      let s := (s.setQueue fn q { x with status := 2 ^ 8 * code }).bump32 P.ringErrors fn 1
      s.raiseEvent 7 0x11 (srcQueue fn q) (2 ^ 8 * code) 0

/-- QUEUE_LINE_REREAD. -/
def execQueueLineReread (f : FnView) (q : QueueIx) (sqTail cqHead : W32) (s : State) :
    Host.Outcome State Fault Refusal := .next (queueRereadStep s f.fn q sqTail.toNat cqHead.toNat f.cfg)

/-- The commands that a function holds between fetch and completion (R306). -/
def HostFn.held (f : HostFn) : Nat := (f.queues.map fun kv => kv.2.cmds.length).foldl (· + ·) 0

/-- Status (Table 14-3): Quiesced reads 1 while the function holds no command. -/
def HostFn.statusReg (f : HostFn) : Nat :=
  b2n f.running + 2 * b2n (f.quiesced && f.held == 0) + 4 * b2n f.epochFault

/-- The 32-bit register at word `i` of a queue's registers (Table 14-4). -/
def HostQueue.regWord (x : HostQueue) (i : Nat) : Nat :=
  match i with
  | 0 => x.sqBase % 2 ^ 32
  | 1 => x.sqBase / 2 ^ 32
  | 2 => x.cqBase % 2 ^ 32
  | 3 => x.cqBase / 2 ^ 32
  | 4 => x.line % 2 ^ 32
  | 5 => x.line / 2 ^ 32
  | 6 => x.config
  | _ => x.status

/-- R300: the 32-bit word that BAR0 of function `fn` reads at a byte offset that is a multiple of 4 (Table 14-1). -/
def State.bar0 (s : State) (fn off : Nat) : Nat :=
  let f := s.hostFn fn
  match off with
  | 0x000 => fn + 0x1000
  | 0x004 => b2n f.enable
  | 0x008 => f.statusReg
  | 0x00C => s.val P.linkEpoch
  | 0x010 => f.epochLine % 2 ^ 32
  | 0x014 => f.epochLine / 2 ^ 32
  | _ =>
    if 0x100 ≤ off ∧ off < 0x300 then (f.queue ((off - 0x100) / 32)).regWord ((off - 0x100) / 4 % 8) else 0

/-- The command that a failed fetch leaves (R315; DESIGN CHOICE, assumption log 44): its 128 bytes are not known. -/
def lostCommand (id : Nat) : List Byte := leBytes 2 0 ++ leBytes 2 id ++ leBytes 124 0

/-- COMMAND_FETCH (R304 to R306, R315): the next command of the ring. -/
def commandFetchStep (s : State) (fn q : Nat) (bytes : Option (List Byte)) : State :=
  let f := s.hostFn fn
  let x := f.queue q
  let h := (x.head + 1) % x.size
  if ¬ f.running ∨ ¬ x.active ∨ x.head = x.sqTail ∨ 64 ≤ x.cmds.length ∨ 256 ≤ f.held then s
  else
    let add (s : State) (c : HostCmd) (dones : Nat) : State :=
      s.setQueue fn q { x with head := h, next := x.next + 1, dones := dones, cmds := x.cmds ++ [c] }
    match bytes with
    | none =>
      let (n, s) := s.draw
      let s := s.bump64 P.hostReadErrors fn 1
      add s { n := x.next, bytes := lostCommand ((Config.hostWord n).toNat % 65536), head := h, epoch := s.val P.linkEpoch
              done := some (3, 0), order := x.dones } (x.dones + 1)
    | some bs =>
      if bs.length ≠ 128 then s
      else add s { n := x.next, bytes := bs, head := h, epoch := s.val P.linkEpoch } x.dones

/-- COMMAND_FETCH. -/
def execCommandFetch (fn : FnIx) (q : QueueIx) (bytes : Option (List Byte)) (s : State) : Host.Outcome State Fault Refusal :=
  .next (commandFetchStep s fn q bytes)

/-- Fields of a command (Table 14-7). -/
def HostCmd.opcode (c : HostCmd) : Nat := leField c.bytes 0 1
/-- Flags. -/
def HostCmd.flags (c : HostCmd) : Nat := leField c.bytes 1 1
/-- Fence. -/
def HostCmd.fence (c : HostCmd) : Bool := bit c.flags 0
/-- Inline. -/
def HostCmd.inline (c : HostCmd) : Bool := bit c.flags 1
/-- R313: READER_PATH 0b01, non-snooping readers permitted. -/
def HostCmd.flush (c : HostCmd) : Bool := bits c.flags 2 2 == 1
/-- CommandId. -/
def HostCmd.id (c : HostCmd) : Nat := leField c.bytes 2 2
/-- InlineBytes. -/
def HostCmd.inlineBytes (c : HostCmd) : Nat := leField c.bytes 4 2
/-- Gate. -/
def HostCmd.gate (c : HostCmd) : Nat := leField c.bytes 8 8
/-- HostAddr. -/
def HostCmd.addr (c : HostCmd) : Nat := leField c.bytes 0x10 8
/-- HostBytes. -/
def HostCmd.hostBytes (c : HostCmd) : Nat := leField c.bytes 0x18 8
/-- An operand of `n` bytes at an offset of the command. -/
def HostCmd.arg (c : HostCmd) (off n : Nat) : Nat := leField c.bytes off n

/-- R306: whether command `c` of a queue may start, the step of DecidedStep being `decided`: commands start in ring order; a
Fence waits until every earlier command has completed, and a Gate waits without holding back later commands. A command that has
started goes on. -/
def HostQueue.mayStart (x : HostQueue) (decided : Nat) (c : HostCmd) : Bool :=
  let earlier := x.cmds.takeWhile fun o => o.n != c.n
  let gated (o : HostCmd) : Bool := decide (decided < o.gate)
  c.began || (!c.fence || earlier.isEmpty) && !gated c
    && earlier.all fun o => o.done.isSome || o.began || (gated o && (!o.fence || (x.cmds.head?.map (·.n)) == some o.n))

/-- Replace a command of a queue. -/
def HostQueue.setCmd (x : HostQueue) (c : HostCmd) : HostQueue :=
  { x with cmds := x.cmds.map fun o => if o.n = c.n then c else o }

/-- A command has run: its status and result, and its data writes to host memory. -/
def State.commandDone (s : State) (fn q : Nat) (c : HostCmd) (status result : Nat) (dat : List Byte) : State :=
  let x := s.queue fn q
  let c := { c with done := some (status, result), order := x.dones, lines := linesOf dat }
  let s := s.setQueue fn q { x.setCmd c with dones := x.dones + 1 }
  if dat.isEmpty then s else s.emit (.hostWrite fn c.addr dat c.flush)

/-- A completion record (Table 14-10). -/
def completionBytes (x : HostQueue) (q : Nat) (c : HostCmd) (status result time : Nat) : List Byte :=
  leBytes 2 c.id ++ leBytes 2 c.head ++ leBytes 2 status ++ leBytes 1 x.phase ++ leBytes 1 q ++ leBytes 4 c.epoch ++ leBytes 4 0
    ++ leBytes 8 result ++ leBytes 8 time

/-- The opcodes of Table 14-9. -/
def hostOpcodes : List Nat := [0x00, 0x02, 0x10, 0x11, 0x20, 0x21, 0x28, 0x29, 0x30, 0x31, 0x38]

/-- A command of a reserved opcode that may start ends with status 0x0001. -/
def State.endReserved (s : State) (fn q n : Nat) : State :=
  let x := s.queue fn q
  match x.cmds.find? fun c => c.n == n && c.done.isNone with
  | none => s
  | some c =>
    if hostOpcodes.contains c.opcode ∨ ¬ x.mayStart (s.val P.decidedStep) c then s else s.commandDone fn q c 0x0001 0 []

/-- COMPLETION_WRITE (R306, R311 to R314): the completion record of the earliest command done, then its MSI-X message. -/
def completionStep (s : State) (fn q n : Nat) (cfg : FnConfig) : State :=
  if ¬ (s.hostFn fn).running then s
  else
    let s := (s.configure fn cfg).endReserved fn q n
    let x := s.queue fn q
    match x.cmds.find? fun c => c.n == n with
    | none => s
    | some c =>
      match c.done with
      | none => s
      | some (status, result) =>
        if (x.tail + 1) % x.size = x.cqHead ∨ x.cmds.any (fun o => o.done.isSome && decide (o.order < c.order)) then s
        else
          let rec' := completionBytes x q c status result s.panelTime
          let t := (x.tail + 1) % x.size
          let s := s.emit (.hostWrite fn (x.cqBase + 32 * x.tail) rec' c.flush)
          let s := s.setQueue fn q { x with
            tail := t, phase := if t = 0 then 1 - x.phase else x.phase, cmds := x.cmds.filter fun o => o.n != n }
          let s := s.bump64 P.commandsDone fn 1
          if bit x.config 5 then s.sendMsix fn (bits x.config 6 4) else s

/-- COMPLETION_WRITE. -/
def execCompletionWrite (f : FnView) (q : QueueIx) (n : Nat) (s : State) :
    Host.Outcome State Fault Refusal := .next (completionStep s f.fn q n f.cfg)

/-- R316, R318: the host writes of a queue that are abandoned: of those not known to have global observation, a number that
the surroundings decide (DESIGN CHOICE, assumption log 38). -/
def State.dropWrites (s : State) (fn q : Nat) : State :=
  let pending := (((s.queue fn q).cmds.filter fun c => c.done.isSome).map fun c => c.lines + 1).foldl (· + ·) 0
  if pending = 0 then s
  else
    let (n, s) := s.draw
    s.bump64 P.droppedWrites fn ((Config.freeDropped n).toNat % (pending + 1))

/-- R318, R319: queue `q` stops: its writes are abandoned, its commands dropped, its registers at their Reset values. -/
def State.stopQueue (s : State) (fn q : Nat) : State := (s.dropWrites fn q).setQueue fn q {}

/-- QUEUE_DISABLE (R319): QEnable is cleared. -/
def queueDisableStep (s : State) (fn q : Nat) : State := if (s.queue fn q).enabled then s.stopQueue fn q else s

/-- QUEUE_DISABLE. -/
def execQueueDisable (fn : FnIx) (q : QueueIx) (s : State) : Host.Outcome State Fault Refusal := .next (queueDisableStep s fn q)

/-- R317: the function's epoch line is written; `observed` tells whether that write had global observation. Queues whose
QEnable is 1 are then checked (R303), and their lines are read next. -/
def State.runFunction (s : State) (fn : Nat) (observed : Bool) : State :=
  let f := s.hostFn fn
  let line := leBytes 4 (s.val P.linkEpoch) ++ leBytes 1 fn ++ leBytes 3 0 ++ leBytes 8 s.panelTime ++ leBytes 48 0
  let s := s.emit (.hostWrite fn f.epochLine line false)
  if observed then
    s.setFn fn { f with running := true, again := none
                        queues := f.queues.map fun kv => (kv.1, if kv.2.enabled then kv.2.form else kv.2) }
  else s.setFn fn { f with epochFault := true, again := none }

/-- A write of 1 to Enable of a function that is not enabled (R317, R319, R385). -/
def State.enableFunction (s : State) (fn epochLine : Nat) (observed : Bool) : State :=
  let f := s.hostFn fn
  if ¬ f.quiesced then s.setFn fn { f with again := some (epochLine, observed) }
  else
    let s := s.setVal P.vfCount (max (s.val P.vfCount) fn)
    let s := s.setFn fn { f with enable := true, epochLine := epochLine, again := some (epochLine, observed) }
    if s.up 3 then s.runFunction fn observed else s

/-- FUNCTION_ENABLE (R317). -/
def functionEnableStep (s : State) (fn epochLine : Nat) (observed : Bool) (cfg : FnConfig) : State :=
  if ¬ s.hostUp ∨ (s.hostFn fn).enable then s else (s.configure fn cfg).enableFunction fn epochLine observed

/-- FUNCTION_ENABLE. -/
def execFunctionEnable (f : FnView) (epochLine : W64) (observed : Bool) (s : State) :
    Host.Outcome State Fault Refusal := .next (functionEnableStep s f.fn epochLine.toNat observed f.cfg)

/-- R318: a function is disabled: its queues go, its epoch line and its PCIe configuration stay. Of a command that has
started, what was read whole is written by now, and the rest is dropped with its token (Table 14-11). -/
def State.disableFunction (s : State) (fn : Nat) : State :=
  let f := s.hostFn fn
  let s := (f.queues.map Prod.fst).foldl (fun s q => s.dropWrites fn q) s
  let off : HostFn := { quiesced := f.quiesced && !f.enable, epochLine := f.epochLine, cfg := f.cfg, irq := f.irq }
  let s := s.setFn fn off
  if f.enable then s.bump32 P.quiesces fn 1 else s

/-- FUNCTION_DISABLE (R318). Clearing VF Enable disables every VF; a Function Level Reset clears the PCIe configuration too. -/
def functionDisableStep (s : State) (fn : Nat) (c : DisableCause) : State :=
  match c with
  | .flr =>
    let s := s.disableFunction fn
    s.setFn fn { s.hostFn fn with cfg := {}, irq := [] }
  | .vfDisable => ((List.range 8).foldl (fun s k => s.disableFunction (k + 1)) s).setVal P.vfCount 0
  | _ => s.disableFunction fn

/-- FUNCTION_DISABLE. -/
def execFunctionDisable (fn : FnIx) (c : DisableCause) (s : State) : Host.Outcome State Fault Refusal :=
  .next (functionDisableStep s fn c)

/-- QUIESCE_COMPLETE (R318, R319). -/
def quiesceStep (s : State) (fn : Nat) : State :=
  let f := s.hostFn fn
  if f.quiesced then s
  else
    let s := s.setFn fn { f with quiesced := true, again := none }
    match f.again with
    | some (line, observed) => s.enableFunction fn line observed
    | none => s

/-- QUIESCE_COMPLETE. -/
def execQuiesceComplete (fn : FnIx) (s : State) : Host.Outcome State Fault Refusal := .next (quiesceStep s fn)

/-- R316, R372: a link-down event. -/
def State.linkDown (s : State) : State :=
  let s := (List.range 9).foldl (fun s fn => ((s.hostFn fn).queues.map Prod.fst).foldl (fun s q => s.dropWrites fn q) s) s
  let e := (s.val P.linkEpoch + 1) % 2 ^ 32
  let s := (s.setVal P.linkEpoch (if e = 0 then 1 else e)).bump32 P.linkDowns 0 1
  let s := { s with host := { s.host with fns := [] } }
  ((s.setVal P.hostLinkState 0).setVal P.eventRingEnable 0).setVal P.eventRingStatus 0x04

/-- A link-down event of a link that is up; one that is not up goes down without one. -/
def State.loseHostLink (s : State) : State := if s.hostUp then s.linkDown else s.setVal P.hostLinkState 0

/-- HOST_LINK_DOWN (R316): the data link is lost. PERST# as the cause asserts the pin. -/
def hostLinkDownStep (s : State) (c : LinkDownCause) : State :=
  let s := if c = .perst then { s with host := { s.host with perst := true } } else s
  if s.hostUp then s.linkDown else s

/-- HOST_LINK_DOWN. -/
def execHostLinkDown (c : LinkDownCause) (s : State) : Host.Outcome State Fault Refusal := .next (hostLinkDownStep s c)

/-- Whether the host port presents its receivers (R385, R390, R348): released, not FAILED, PERST# deasserted, REF good. -/
def State.hostPresent (s : State) : Bool := s.supply.released && s.boot != 6 && !s.host.perst && s.supply.refGood

/-- HOST_LINK_UP (R299): the link has trained to L0. -/
def hostLinkUpStep (s : State) (rate width : Nat) : State :=
  if ¬ s.hostPresent ∨ s.hostUp ∨ ¬ [16, 32, 64].contains rate ∨ ¬ [4, 8, 16].contains width then s
  else s.setVal P.hostLinkState (2 + 2 ^ 8 * rate + 2 ^ 16 * width)

/-- HOST_LINK_UP. -/
def execHostLinkUp (rate width : Byte) (s : State) : Host.Outcome State Fault Refusal :=
  .next (hostLinkUpStep s rate.toNat width.toNat)

/-- PERST_ASSERT (R301): only the host port is reset. -/
def perstAssertStep (s : State) : State := { s with host := { s.host with perst := true } }.loseHostLink

/-- PERST_ASSERT. -/
def execPerstAssert (s : State) : Host.Outcome State Fault Refusal := .next (perstAssertStep s)

/-- PERST_DEASSERT (R385): the link trains, and the window of Request Retry Status starts where firmware does not run yet. -/
def perstDeassertStep (s : State) : State :=
  if ¬ s.host.perst then s
  else
    let s := { s with host := { s.host with perst := false }, fw := { s.fw with retry := s.boot == 0 } }
    if s.hostPresent then s.setVal P.hostLinkState 1 else s

/-- PERST_DEASSERT. -/
def execPerstDeassert (s : State) : Host.Outcome State Fault Refusal := .next (perstDeassertStep s)

/-- REQUEST_RETRY_STATUS_END (R385): configuration requests are answered normally from now on. -/
def retryEndStep (s : State) : State := { s with fw := { s.fw with retry := false } }

/-- REQUEST_RETRY_STATUS_END. -/
def execRequestRetryStatusEnd (s : State) : Host.Outcome State Fault Refusal := .next (retryEndStep s)

/-- ENTER_MEMORY (R382, R385): HBM is trained and zeroed, the tier map accepts writes, ports train, and functions whose Enable
is 1 run. -/
def enterMemoryStep (s : State) : State :=
  if s.boot ≠ 2 then s
  else
    let s := (s.enterBoot 3).trainPorts
    (List.range 9).foldl (fun s fn =>
      match (s.hostFn fn).enable, (s.hostFn fn).again with
      | true, some (_, observed) => s.runFunction fn observed
      | _, _ => s) s

/-- ENTER_MEMORY. -/
def execEnterMemory (s : State) : Host.Outcome State Fault Refusal := .next (enterMemoryStep s)

/-- REF_LOSS (R348, R405, R407): ROOT holds its frequency; the links that take REF go down; panel time goes to HOLDOVER. -/
def refLossStep (s : State) : State :=
  if ¬ s.supply.refGood then s
  else
    let s := { s with supply := { s.supply with refGood := false } }
    if ¬ s.supply.released then s
    else
      let s := (s.setVal P.rootLock 1).bump32 P.refLosses 0 1
      let s := s.raiseEvent 7 0x12 srcModule 0 0
      let s := if s.val P.ptpRole = 1 ∧ s.val P.timeState = 2 then s.setTimeState 3 else s
      let s := (List.range 48).foldl (fun s k =>
        if s.reg P.linkState k = 3 then (s.bump32 P.linkFlaps k 1).setReg P.linkState k 1
        else if s.reg P.linkState k = 2 then s.setReg P.linkState k 1 else s) s
      s.loseHostLink

/-- REF_LOSS. -/
def execRefLoss (s : State) : Host.Outcome State Fault Refusal := .next (refLossStep s)

/-- REF_RETURN (R348, R407): ROOT relocks without a phase step, and the links retrain. -/
def refReturnStep (s : State) : State :=
  if s.supply.refGood then s
  else
    let s := { s with supply := { s.supply with refGood := true } }
    if ¬ s.supply.released then s
    else
      let s := s.setVal P.rootLock 0
      let s := if s.up 3 then s.trainPorts else s
      if s.hostPresent ∧ ¬ s.hostUp then s.setVal P.hostLinkState 1 else s

/-- REF_RETURN. -/
def execRefReturn (s : State) : Host.Outcome State Fault Refusal := .next (refReturnStep s)

/-- A slot of the event ring (R371). -/
def ringSlot (e : Event) (phase : Nat) : List Byte := e.bytes ++ leBytes 1 phase ++ leBytes 15 0

/-- EVENT_RING_DELIVER (R371, R372): the next record goes to the ring, unless it is full; `head` is the Head line as the host
last wrote it. -/
def ringDeliverStep (s : State) (head : Nat) : State :=
  let n := 2 ^ s.val P.eventRingSize
  if s.val P.eventRingEnable ≠ 1 ∨ ¬ s.hostUp then s
  else
    let s := { s with log := { s.log with ringHead := head } }
    if (s.log.ringTail + 1) % n = head then s
    else
      match s.log.events.reverse.find? fun e => decide (s.log.ringNext ≤ e.seq) with
      | none => s
      | some e =>
        let s := s.emit (.hostWrite 0 (s.val P.eventRingBase + 64 * s.log.ringTail) (ringSlot e s.log.ringPhase) false)
        let t := (s.log.ringTail + 1) % n
        let s := { s with log := { s.log with
          ringTail := t, ringPhase := if t = 0 then 1 - s.log.ringPhase else s.log.ringPhase, ringNext := e.seq + 1 } }
        if s.val P.eventRingVector = 0xFF then s else s.sendMsix 0 (s.val P.eventRingVector)

/-- EVENT_RING_DELIVER. -/
def execEventRingDeliver (head : W32) (s : State) : Host.Outcome State Fault Refusal := .next (ringDeliverStep s head.toNat)

end Sys2Proof.Machine
end

