-- ==== Sys2Proof/Machine/Sequencer.lean ====
section
/-! DEFINITION. The sequencer's own entries (NOP to LOOP, RSIG), HEAD_DUE, token raises and stall events. -/

namespace Sys2Proof.Machine

/-- The meaning of an entry that only waits and signals: it completes 1 ac after issue. -/
def plainAct (s : State) (c : Ctx) : Issued := { state := s, due := c.after 1 }

/-- Change the issuing stream. -/
def State.modStream (s : State) (c : Ctx) (f : Stream → Stream) : State :=
  let d := s.die c.sl
  s.setDie c.sl (d.setStream c.st (f (d.stream c.st)))

/-- BASE: X*x* := OpB × 2^20 + OpA (R20). -/
def baseAct (s : State) (c : Ctx) : Issued :=
  plainAct (s.modStream c fun x => { x with x := x.x.set (enM c.entry 0 2) (enB c.entry * 2 ^ 20 + enA c.entry) }) c

/-- STRIDE: S*l*.0 to S*l*.2 (R20). -/
def strideAct (s : State) (c : Ctx) : Issued :=
  let l := enM c.entry 0 2
  plainAct (s.modStream c fun x => { x with strides :=
    ((x.strides.set (3 * l) (enD c.entry)).set (3 * l + 1) (enA c.entry)).set (3 * l + 2) (enB c.entry) }) c

/-- LOOP: the next 1–64 entries run OpA + 1 times (R27). -/
def loopAct (s : State) (c : Ctx) : Issued :=
  plainAct (s.modStream c fun x => { x with loops :=
    { level := enM c.entry 6 2, first := c.index + 1, last := c.index + 1 + enM c.entry 0 6
      left := enA c.entry, saved := x.x.take 3 } :: x.loops }) c

/-- END: the stream ends for this step (R44). -/
def endAct (s : State) (c : Ctx) : Issued := plainAct (s.modStream c fun x => { x with ended := true }) c

/-- RSIG: the raise crosses the fabric, to be applied no earlier than 1 ac after the issue; the entry completes at its application
there (Table 2-6). -/
def rsigAct (s : State) (c : Ctx) : Issued :=
  let r : HeldRaise :=
    { slot := enM c.entry 0 6, token := enM c.entry 6 6, count := enM c.entry 12 2, step := s.step
      origin := some (c.sl, c.flight), sent := c.after 1 }
  { state := { s with seq := { s.seq with fabric := s.seq.fabric ++ [r] } }, due := c.after 1, kind := .remote
    ready := false }

/-- NOP. -/
def execNop (sl : Slot) (st : StreamIx) (s : State) : Host.Outcome State Fault Refusal :=
  .next (s.tryIssue sl st (fun e => enOpcode e == 0x00) plainAct)
/-- END. -/
def execEnd (sl : Slot) (st : StreamIx) (s : State) : Host.Outcome State Fault Refusal :=
  .next (s.tryIssue sl st (fun e => enOpcode e == 0x01) endAct)
/-- BASE. -/
def execBase (sl : Slot) (st : StreamIx) (s : State) : Host.Outcome State Fault Refusal :=
  .next (s.tryIssue sl st (fun e => enOpcode e == 0x02) baseAct)
/-- STRIDE. -/
def execStride (sl : Slot) (st : StreamIx) (s : State) : Host.Outcome State Fault Refusal :=
  .next (s.tryIssue sl st (fun e => enOpcode e == 0x03) strideAct)
/-- LOOP. -/
def execLoop (sl : Slot) (st : StreamIx) (s : State) : Host.Outcome State Fault Refusal :=
  .next (s.tryIssue sl st (fun e => enOpcode e == 0x04) loopAct)
/-- RSIG, a feature level 2 opcode. -/
def execRsig (sl : Slot) (st : StreamIx) (s : State) : Host.Outcome State Fault Refusal :=
  .next (s.tryIssue sl st (fun e => enOpcode e == 0x38) rsigAct)

/-- HEAD_DUE (R35): the count of the head of `st` reaches 16, and the head is due. The ac that pass until then are those in
which the budget or a tile store copy holds the die; an ac in which another head issues counts at that issue. -/
def headDueStep (s : State) (sl st : Nat) : State :=
  match s.headEntry sl st with
  | none => s
  | some e =>
    if ¬ nearlyReady s (s.die sl) st ((s.die sl).stream st) e then s
    else
      let u := State.awaitDue sl st (unitTime (s.die sl) e / acRoot - s.ac + 272) (s.atAc sl)
      if 16 ≤ ((u.die sl).stream st).passed then u else s

/-- HEAD_DUE. -/
def execHeadDue (sl : Slot) (st : StreamIx) (s : State) : Host.Outcome State Fault Refusal :=
  .next (headDueStep s sl st)

/-- Mark the entry that a raise came from: RSIG completes at remote application. -/
def State.raiseArrived (s : State) (o : Option (Nat × Nat)) : State :=
  match o with
  | none => s
  | some (sl, id) =>
    let d := s.die sl
    s.setDie sl { d with flight := d.flight.map fun f =>
      if f.id = id ∧ f.kind = .remote then { f with ready := true, due := max f.due s.clock.now } else f }

/-- REMOTE_TOKEN_RAISE (R30, R32): a raise in transit arrives at its slot, that of an RSIG no earlier than 1 ac after its issue. -/
def remoteRaiseStep (s : State) (sl t count step : Nat) : State :=
  let same (r : HeldRaise) : Bool := r.slot == sl && r.token == t && r.count == count && r.step == step
  match s.seq.fabric.find? same with
  | none => s
  | some r =>
    let s := { s.reach r.sent with seq := { s.seq with fabric := removeFirst same s.seq.fabric } }
    (s.applyRaise r).raiseArrived r.origin

/-- REMOTE_TOKEN_RAISE. -/
def execRemoteTokenRaise (sl : Slot) (t : Token) (count : Fin 4) (step : W64) (s : State) :
    Host.Outcome State Fault Refusal :=
  .next (remoteRaiseStep s sl t count step.toNat)

/-- Whether slot `sl` has a stream that has not executed END while a step is open (R46): an END that waits for earlier entries
of its stream has not been executed. -/
def State.slotBusy (s : State) (sl : Nat) : Bool :=
  s.seq.opened && !s.absent sl
    && ((s.die sl).streams.any (fun x => !x.ended) || (s.die sl).flight.any fun f => enOpcode f.entry == 0x01)

/-- R46: the index of each stream's head, all ones where the stream has ended, and the token counts, as the snapshot objects
show them. -/
def State.headStates (s : State) (sl : Nat) (m : Sparse Nat) : Sparse Nat :=
  let d := s.die sl
  let m := (List.range 16).foldl (fun m k =>
    let x := d.stream k
    Sparse.put paramDefault m (pkey P.headState (16 * sl + k)) (if x.ended then 0xFFFFFFFF else x.head)) m
  (List.range 64).foldl (fun m t => Sparse.put paramDefault m (pkey P.tokenCounts (64 * sl + t)) (d.token t)) m

/-- R46: a stall event records heads and tokens of the slot in the snapshot objects. -/
def State.recordStall (s : State) (sl : Nat) : State :=
  { s with params := s.headStates sl s.params
           log := { s.log with shadow := s.log.shadow.map (s.headStates sl) } }

/-- SLOT_STALL (R46): StallLimit has passed with no issue or completion on the slot; told once per quiet period. With nothing issued
or completed in the step the quiet period runs from the step's open (DESIGN CHOICE, assumption log 83). -/
def slotStallStep (s : State) (sl : Nat) : State :=
  let d := s.die sl
  let limit := s.val P.stallLimit
  if limit = 0 ∨ ¬ s.slotBusy sl ∨ d.stallTold then s
  else
    let s := (s.account sl).reach (max d.lastAct s.seq.openedAt + limit * usRoot)
    let d := s.die sl
    let s := s.setDie sl { d with stallTold := true }
    ((s.bump32 P.stalls sl 1).recordStall sl).raiseEvent 6 0x01 (srcSlot sl) 0 0

/-- SLOT_STALL. -/
def execSlotStall (sl : Slot) (s : State) : Host.Outcome State Fault Refusal := .next (slotStallStep s sl)

end Sys2Proof.Machine
end

