-- ==== Sys2Proof/Machine/Snapshots.lean ====
section
/-! DEFINITION. Snapshots (R364 to R366): arming, the instant, and the switch of every RS read to the new shadows. -/

namespace Sys2Proof.Machine

/-- EraseCounts of base die `d` (0x3051.05): lowest, mean (rounded down) and highest erase count of its blocks in service. -/
def State.eraseView (s : State) (d : Nat) : List Nat :=
  let mine := (s.flash.erases.filter fun kv => kv.1 / 81920 == d && !s.flash.retired.contains kv.1).map Prod.snd
  let dead := (s.flash.retired.filter fun k => k / 81920 == d).length
  let (lo, hi) := s.eraseSpread d
  [lo, mine.foldl (· + ·) 0 / (81920 - dead), hi]

/-- The RS parameters that other state holds, as they stand now: GearTime, HeadState, TokenCounts and EraseCounts. -/
def State.rsViews (s : State) : Sparse Nat :=
  let s := s.accountGear
  let m := ((List.range 8).zip s.weir.gearTimes).foldl
    (fun m (g, t) => Sparse.put paramDefault m (pkey P.gearTime g) (t / usRoot)) s.params
  let m := (List.range 64).foldl (fun m sl => s.headStates sl m) m
  (List.range 8).foldl (fun m d =>
    ((List.range 3).zip (s.eraseView d)).foldl
      (fun m (i, v) => Sparse.put paramDefault m (pkey P.eraseCounts (3 * d + i)) v) m) m

/-- SnapshotStatus: state and outcome of the last write. -/
def State.snapState (s : State) (st : Nat) : State :=
  s.setVal P.snapshotStatus (setBits (s.val P.snapshotStatus) 0 2 st)

/-- R104, R365: the instant: every unit copies its RS parameters at the end of the present ac, with the rows that conversions
have read by then. -/
def State.takeSnapshot (s : State) : State :=
  let s := s.accountAll.countAllReads
  { s with log := { s.log with copying := some (s.panelTime, s.ac, s.val P.timeState, s.rsViews), snapAt := none } }.snapState 2

/-- R364: arm for a panel time, or reject while a snapshot is copying. `snapOut` tells whether `snapAt` is a panel time (0)
or, for an instant moved to 20 µs after the write, a ROOT cycle (1). -/
def State.armTime (s : State) (t : Nat) : State :=
  let s := s.setVal P.snapshotTime t
  let late := decide (t < s.panelTime + 20000)
  let s := { s with log := { s.log with
    snapAt := some (if late then s.clock.now + 20 * usRoot else t), snapOut := b2n late } }
  s.setVal P.snapshotStatus (1 + 2 ^ 8 * b2n late)

/-- R364: arm for the open of a step; all ones arms nothing. -/
def State.armStep (s : State) (n : Nat) : State :=
  let s := { s.setVal P.snapshotStep n with log := { s.log with snapAt := none } }
  s.setVal P.snapshotStatus (if n = 2 ^ 64 - 1 then 0 else 1)

/-- R364: a write made while a snapshot is copying is rejected. -/
def State.rejectSnapshot (s : State) : State :=
  s.setVal P.snapshotStatus (setBits (s.val P.snapshotStatus) 8 8 2)

/-- R364: whether the open of step `n` takes a snapshot. -/
def State.stepArmed (s : State) (n : Nat) : Bool :=
  bits (s.val P.snapshotStatus) 0 2 == 1 && s.log.snapAt.isNone && s.val P.snapshotStep == n

/-- The ROOT cycle of the SCLK cycle in which panel time first reaches `t`, from now on. -/
def State.timeReaches (s : State) (t : Nat) : Nat :=
  let need := t * 2 ^ 32 - s.clock.fineAt s.clock.now
  (s.clock.now / sclkRoot + ceilDiv need s.clock.inc) * sclkRoot

/-- SNAPSHOT_INSTANT (R365): an armed time has come. -/
def snapshotInstantStep (s : State) : State :=
  match s.log.snapAt with
  | none => s
  | some t =>
    let at' := if s.log.snapOut = 1 then ceilDiv t sclkRoot * sclkRoot else s.timeReaches t
    (s.reach at').takeSnapshot

/-- SNAPSHOT_INSTANT. -/
def execSnapshotInstant (s : State) : Host.Outcome State Fault Refusal := .next (snapshotInstantStep s)

/-- SNAPSHOT_COMPLETE (R366): the new shadows take effect together. -/
def snapshotCompleteStep (s : State) : State :=
  match s.log.copying with
  | none => s
  | some (t, ac, st, m) =>
    let s := { s with log := { s.log with copying := none, shadow := some m } }
    let s := ((s.setVal P.snapshotTaken t).setVal P.snapshotAc ac).setVal P.snapshotTimeState st
    (s.bump64 P.snapshotCount 0 1).snapState 0

/-- SNAPSHOT_COMPLETE. -/
def execSnapshotComplete (s : State) : Host.Outcome State Fault Refusal := .next (snapshotCompleteStep s)

end Sys2Proof.Machine
end

