-- ==== Sys2Proof/Machine/Views.lean ====
section
/-! DEFINITION. What a read of a parameter returns (R326 to R330): parameters that other state holds are computed here. -/

namespace Sys2Proof.Machine

/-- Free data granules of a run of units (0x3000.04): 63 for each frame block, less those in use or retired. -/
def State.freeIn (s : State) (us : List FrameUnit) : Nat :=
  let occ := s.occupied none
  us.foldl (fun n u =>
    let inside (g : Nat) : Bool := decide (64 * u.first ≤ g) && decide (g < 64 * (u.first + u.blocks))
    let used := ((occ.flatMap fun o => (List.range o.2).map (o.1 + ·)).filter inside).eraseDups.length
    n + (63 * u.blocks - used)) 0

/-- FreeGranules, per slot, LLM, HBM and BW. -/
def State.freeGranules (s : State) (e : Nat) : Nat :=
  s.freeIn (if e < 64 then s.tsUnit e else if e < 72 then s.llUnit (e - 64) else if e < 80 then s.hbUnit (e - 72) else s.bwUnit)

/-- RetiredGranules (0x3020.05), in the order retired; bit 31 while deferred. -/
def State.retiredEntry (s : State) (e : Nat) : Nat :=
  match s.mem.retired[e]? with
  | some (g, d) => g + 2 ^ 31 * b2n d
  | none => 0

/-- JournalIndex (0x3052.01), oldest first. -/
def State.journalEntry (s : State) (e : Nat) : Nat :=
  match s.journal.complete[e]? with
  | some c => c.number + 2 ^ 64 * c.step + 2 ^ 128 * c.first + 2 ^ 160 * c.granules + 2 ^ 192 * c.bytes
  | none => 0

/-- JournalFree (0x3052.04): the granules from the next checkpoint's first to the first of the checkpoint of JournalHead. -/
def State.journalFree (s : State) : Nat :=
  let j := s.journalSize
  match s.journal.complete.find? fun c => c.number == s.val P.journalHead with
  | none => j - 1
  | some c => if j = 0 then 0 else (List.range j).takeWhile (fun i => !c.uses j ((s.journal.next + i) % j)) |>.length

/-- LifeUsed (0x3051.0B): the mean erase count of all blocks ÷ 3000, in percent. -/
def State.lifeUsed (s : State) : Nat :=
  min (((s.flash.erases.map Prod.snd).foldl (· + ·) 0) * 100 / (655360 * 3000)) 255

/-- CheckerState (0x5050.05). -/
def State.checkerState (s : State) (ix : Nat) : Nat :=
  if s.absent (ix / 2) then 2 else b2n (s.riffle.excluded.contains ix)

/-- RillState (0xA020.02). -/
def State.rillStateOf (s : State) (r : Nat) : Nat :=
  let x := s.rill r
  if x.shaking then 1 else if x.mask = 0 then 0 else 2

/-- EventLog (0x7010.01), oldest first. -/
def State.eventEntry (s : State) (e : Nat) : Nat :=
  match s.log.events.reverse[e]? with
  | some x => leNat x.bytes
  | none => 0

/-- SignatureLog (0x7020.01), oldest first. -/
def State.sigEntry (s : State) (e : Nat) : Nat :=
  match s.nor.sigs[e]? with
  | some x => leNat x.dat
  | none => 0

/-- The highest subindex of an object (R321). -/
def countOf (index : Nat) : Nat := (paramTable.filter fun r => r.index == index).foldl (fun m r => max m r.hi) 0

/-- Element `e` of parameter `p` as it stands now. -/
def State.now (s : State) (p e : Nat) : Nat :=
  if p % 256 = 0 then countOf (p / 256)
  else if p = P.panelTime then s.panelTime
  else if p = P.panelAc then s.ac
  else if p = P.freeGranules then s.freeGranules e
  else if p = P.tierMapEntry then s.page (s.val P.tierMapCursor)
  else if p = P.stagedWrites then s.mem.staged.length
  else if p = P.retiredGranules then s.retiredEntry e
  else if p = P.spareBlocks then s.spareBlocks e
  else if p = P.lifeUsed then s.lifeUsed
  else if p = P.channelState then s.channelState e
  else if p = P.journalIndex then s.journalEntry e
  else if p = P.journalFree then s.journalFree
  else if p = P.checkerState then s.checkerState e
  else if p = P.captureInUse then s.captureInUse e
  else if p = P.rillWidth then (s.rill e).mask
  else if p = P.rillState then s.rillStateOf e
  else if p = P.rillSpares then s.rillSpares (e / 2) (e % 2)
  else if p = P.fieldRepairs then Sparse.get zeros s.panel.repairs e
  else if p = P.eventLog then s.eventEntry e
  else if p = P.signatureLog then s.sigEntry e
  else if p = P.signatureSeq then s.nor.sigSeq
  else if p = P.signaturesLost then s.nor.sigLost
  else if p = P.rwsHeld then s.held.foldl (fun n h => n + h.bytes.length) 0
  else if p = P.bootStateRecord then leNat s.bootRecord
  else if p = P.slotVersions then s.slotVersion e
  else s.reg p e

/-- A key of the parameter store as it stands now. -/
def State.nowKey (s : State) (k : Nat) : Nat := s.now (k / 2 ^ 24) (k % 2 ^ 24)

/-- Whether a snapshot has switched the RS reads (R365). -/
def State.shown (s : State) : Bool := s.log.shadow.isSome
/-- Whether a stall event has recorded heads and tokens (R46). -/
def State.stalled (s : State) : Bool := (List.range 64).any fun sl => s.reg P.stalls sl != 0

/-- R330: whether a parameter has a value: one with no Default has it once bring-up has loaded or computed it. -/
def State.loaded (s : State) (r : ParamRow) : Bool :=
  !r.late
    || (if r.access = .rs then s.shown || (r.index == 0x7100 || r.index == 0x7102) && s.stalled
        else if r.index = 0x2000 ∨ r.index = 0x2010 then s.weir.lastSample != 0
        else if r.index = 0x4000 ∧ r.lo = 3 then s.up 3
        else if r.index = 0x8010 ∧ r.lo = 5 then decide (1 ≤ s.boot ∧ s.boot ≤ 4)
        else if r.index = 0x8020 ∧ r.lo = 2 then s.up 1 && s.val P.identityState != 2
        else if r.index = 0x3000 ∨ r.index = 0x3010 ∨ r.index = 0x3052 then s.up 3
        else if r.index = 0x3051 ∨ r.index = 0xA010 ∨ r.index = 0xA020 then s.up 2
        else if r.index = 0xA040 then s.up 2 || r.lo == 1
        else if r.index = 0x8000 then s.bootRec.isSome || r.lo != 3
        else true)

/-- How a read of a parameter goes (R46: a stall event's records can be read before the first snapshot): its bytes, the flags
of Table 15-6 and Detail. -/
def State.readParam (s : State) (p : Nat) (r : ParamRow) (off len : Nat) : List Byte × Nat × Nat :=
  match r.access with
  | .wo => (List.replicate len 0, 0, 0)
  | .rs =>
    match s.log.shadow with
    | none =>
      let told := p == P.headState || p == P.tokenCounts
      (paramBytes (if told then s.nowKey else paramDefault) p off len, 2, 0)
    | some m => (paramBytes (Sparse.get paramDefault m) p off len, 2, s.val P.snapshotTaken)
  | .rws =>
    if s.held.any (fun h => h.param == p) then
      (paramBytes (Sparse.get paramDefault s.heldParams) p off len, 1, s.step + 1)
    else (paramBytes s.nowKey p off len, 0, 0)
  | _ => (paramBytes s.nowKey p off len, 0, 0)

end Sys2Proof.Machine
end

