-- ==== Sys2Proof/Machine/Checks.lean ====
section
/-! DEFINITION. The checks of parameter writes (R326), each over the values as they would stand after the write, and the
reserved bits that a write leaves zero (R5, R325). -/

namespace Sys2Proof.Machine

/-- The outcome of a check: whether the write is accepted, and the status object with the value it reports. -/
structure Verdict where
  ok     : Bool
  report : Option (Nat × Nat) := none
  deriving DecidableEq, Repr

/-- Accepted without a status object, or refused. -/
def Verdict.plain (ok : Bool) : Verdict := { ok := ok }
/-- A code in a status object: 0 in its low byte accepts. -/
def Verdict.code (status value : Nat) : Verdict := { ok := value % 256 == 0, report := some (status, value) }

/-- The number of the first element of a list that a test finds, as a code with that element's index. -/
def firstBad {α : Type} (code : Nat) (p : α → Bool) (ix : α → Nat) (xs : List α) : Option (Nat × Nat) :=
  (xs.find? p).map fun x => (code, ix x)

/-- The first failure in a list of checks in ascending code order; none is code 0. -/
def firstCode : List (Option (Nat × Nat)) → Nat × Nat
  | [] => (0, 0)
  | some c :: _ => c
  | none :: cs => firstCode cs

/-- Element `e` of parameter `p` in a store. -/
def regIn (m : Sparse Nat) (p e : Nat) : Nat := Sparse.get paramDefault m (pkey p e)

/-- The listed elements of parameter `p` in a store, with their indices. -/
def listed (m : Sparse Nat) (p : Nat) : List (Nat × Nat) :=
  (m.filter fun kv => kv.1 / 2 ^ 24 == p).map fun kv => (kv.1 % 2 ^ 24, kv.2)

/-- Whether two runs of tiles modulo 2^40 overlap. -/
def runsOverlap (a n b m : Nat) : Bool := decide ((b + 2 ^ 40 - a) % 2 ^ 40 < n) || decide ((a + 2 ^ 40 - b) % 2 ^ 40 < m)

/-- The seven ranges of a shard (Table 7-4, code 0x05). -/
def shardRanges (d : Nat) : List Nat :=
  [sdWeight d 0, sdWeight d 1, sdRem d 0, sdRem d 1, sdGrad d 0, sdGrad d 1, sdView d]

/-- Whether one of a list of runs, all of `n` tiles, overlaps another of the list. -/
def selfOverlap (n : Nat) : List Nat → Bool
  | [] => false
  | a :: as => as.any (fun b => runsOverlap a n b n) || selfOverlap n as

/-- Whether the moment records of shard `d` overlap those of `e` on one base die. -/
def momentsMeet (d e : Nat) : Bool :=
  sdBase d == sdBase e && [0, 1].any fun h => [0, 1].any fun k =>
    decide (sdMoment d h < sdMoment e k + sdTiles e) && decide (sdMoment e k < sdMoment d h + sdTiles d)

/-- Whether the two halves of a shard share a moment record. -/
def halvesMeet (d : Nat) : Bool :=
  decide (sdMoment d 0 < sdMoment d 1 + sdTiles d) && decide (sdMoment d 1 < sdMoment d 0 + sdTiles d)

/-- The tiles past the end of a range in its last page: first and count (R177). -/
def tailRun (first tiles : Nat) : Nat × Nat := (tileId (first + tiles), (64 - tiles % 64) % 64)

/-- The tails of a shard's page-aligned ranges: the tiles beyond Tiles in their last pages (R177, Table 7-4, code 0x08). -/
def shardTails (d : Nat) : List (Nat × Nat) :=
  ([sdView d, sdWeight d 0, sdWeight d 1].map fun f => tailRun f (sdTiles d)).filter fun t => t.2 != 0

/-- Whether a tail of shard `d` lies in a range of shard `e`. -/
def tailsMeet (d e : Nat) : Bool :=
  (shardTails d).any fun t => (shardRanges e).any fun b => runsOverlap t.1 t.2 b (sdTiles e)

/-- Whether a rule code is one of Table 7-1. -/
def ruleKnown (m : Sparse Nat) (r : Nat) : Bool :=
  decide (r < 4) || (decide (0x10 ≤ r) && decide (r ≤ 0x17) && regIn m (P.program + (r - 0x10)) 0 != 0)

/-- R132, Table 7-4: the checks of the shard and layer tables at a write. -/
def State.checkShards (s : State) (m : Sparse Nat) : Verdict :=
  let used := usedShards m
  let mr := regIn m P.momentRecords 0
  let layers := sortBy id ((used.map fun q => sdLayer q.2).eraseDups)
  let badToken (t c : Nat) : Bool := t != 0xFF && (decide (t > 63) || c == 0)
  let (code, ix) := firstCode
    [ firstBad 0x01 (fun q => !ruleKnown m (sdRule q.2)) Prod.fst used
    , firstBad 0x02 (fun q => decide (sdBase q.2 > 7 ∨ sdHyper q.2 > 63 ∨ sdLayer q.2 > 1023 ∨ sdOptions q.2 > 3)) Prod.fst used
    , firstBad 0x03 (fun q =>
        let t := sdTiles q.2
        decide (t = 0 ∨ sdTriggerCount q.2 = 0 ∨ t > 65536 ∨ sdElements q.2 = 0 ∨ sdElements q.2 > 16384 * t)) Prod.fst used
    , firstBad 0x04 (fun q =>
        decide (mr < sdMoment q.2 0 + sdTiles q.2) || decide (mr < sdMoment q.2 1 + sdTiles q.2) || halvesMeet q.2
          || used.any fun o => o.1 != q.1 && momentsMeet q.2 o.2) Prod.fst used
    , firstBad 0x05 (fun q =>
        selfOverlap (sdTiles q.2) (shardRanges q.2) || used.any fun o =>
          o.1 != q.1 && (shardRanges q.2).any fun a => (shardRanges o.2).any fun b =>
            runsOverlap a (sdTiles q.2) b (sdTiles o.2)) Prod.fst used
    , firstBad 0x06 (fun l =>
        let e := regIn m P.layerTable l
        badToken (leDoneToken e) (leDoneCount e) || badToken (leFreeToken e) (leFreeCount e)
          || (List.range 64).any fun sl => bit (leSlots e) sl && s.absent sl) id layers
    , firstBad 0x08 (fun q =>
        [sdView q.2, sdWeight q.2 0, sdWeight q.2 1].any (fun f => f % 64 != 0)
          || used.any fun o => tailsMeet q.2 o.2 || tailsMeet o.2 q.2)
        Prod.fst used ]
  .code P.shardLoadStatus (code + 2 ^ 8 * ix)

/-- The fields that a program operation uses: D, A, B, C, K (Table 7-7); none for a reserved operation. -/
def opFields (op : Nat) : Option (List Bool) :=
  let f (d a b c k : Bool) : Option (List Bool) := some [d, a, b, c, k]
  match op with
  | 0x00 => f false false false false false
  | 0x01 | 0x09 | 0x0A | 0x0B | 0x0C | 0x0D | 0x18 | 0x19 | 0x1A => f true true false false false
  | 0x02 | 0x03 | 0x04 | 0x05 | 0x07 | 0x08 => f true true true false false
  | 0x06 | 0x0E => f true true true true false
  | 0x10 | 0x11 => f true false false false true
  | 0x1F => f false true false false false
  | _ => none

/-- Whether an instruction's Op, or its LDC constant, is reserved (R149, code 0x01). -/
def opReserved (w : Nat) : Bool := (opFields (bits w 0 6)).isNone || (bits w 0 6 == 0x11 && decide (bits w 18 4 > 3))

/-- Whether a Res bit of an instruction is set: a field that its operation does not use counts (R147, R149). -/
def opResSet (w : Nat) : Bool :=
  bits w 22 10 != 0 || match opFields (bits w 0 6) with
    | some fs => ([(6, 3), (9, 3), (12, 3), (15, 3), (18, 4)].zip fs).any fun (q, u) => !u && bits w q.1 q.2 != 0
    | none => false

/-- R149: the check of program `n`. -/
def checkProgram (n v : Nat) : Verdict :=
  let ws := (List.range 32).map fun i => (i, bits v (32 * i) 32)
  let (code, ix) := firstCode
    [ firstBad 0x01 (fun w => opReserved w.2) Prod.fst ws, firstBad 0x02 (fun w => opResSet w.2) Prod.fst ws
    , if v = 0 then some (0x03, 0) else none ]
  .code P.programStatus (code + 2 ^ 8 * n + 2 ^ 11 * ix)

/-- R178: the check of the millrace descriptors. -/
def checkMillrace (m : Sparse Nat) : Verdict :=
  let ds := listed m P.millraceTable
  let op (d : Nat) : Nat := bits d 0 8
  let fmt (d : Nat) : Nat := bits d 8 8
  let dies (d : Nat) : Nat := ((List.range 8).filter fun n => bit d (16 + n)).length
  let (code, ix) := firstCode
    [ firstBad 0x01 (fun d => decide (op d.2 > 2 ∨ fmt d.2 > 5 ∨ (op d.2 = 2 ∧ fmt d.2 ≠ 5))) Prod.fst ds
    , firstBad 0x02 (fun d => op d.2 != 0 && (dies d.2 == 0 || bits d.2 32 32 == 0 || bits d.2 32 32 % max (dies d.2) 1 != 0))
        Prod.fst ds
    , firstBad 0x03 (fun d => bits d.2 24 8 != 0 || bits d.2 64 192 != 0) Prod.fst ds ]
  .code P.millraceStatus (code + 2 ^ 8 * ix)

/-- A member entry of a used group that is not the module's own rank's: its MemberTable index and the stream it names. -/
def membersOf (m : Sparse Nat) (g : Nat) : List (Nat × Nat) :=
  ((List.range (bits g 0 16)).filter fun q => q != geRank g).map fun q => (geFirst g + q, regIn m P.memberTable (geFirst g + q))

/-- Whether a stream entry has a Res bit or a reserved value set (Table 10-6). -/
def streamRes (e : Nat) : Bool :=
  decide (bits e 0 8 > 1) || bits e 14 2 != 0 || bits e 28 4 != 0 || bits e 32 32 != 0 || bits e 112 16 != 0
    || bits e 257 7 != 0 || bits e 264 248 != 0

/-- Whether a group entry has a Res bit or a reserved value set (Table 10-7). -/
def groupRes (g : Nat) : Bool := decide (bits g 0 16 > 1024) || bits g 74 6 != 0 || bits g 80 48 != 0

/-- R231, Table 10-8: the check of the topology objects together. -/
def State.checkTopology (s : State) (m : Sparse Nat) : Verdict :=
  let streams := listed m P.streamTable
  let groups := listed m P.groupTable
  let used := groups.filter fun g => bits g.2 0 16 != 0
  let address := leBytes 16 (regIn m P.moduleAddress 0)
  let closing := used.filter fun g => geClosing g.2
  let (code, ix) := firstCode
    [ firstBad 0x01 (fun e => seUsed e.2 && (sePorts e.2 == 0
        || (List.range 48).any fun k => bit (sePorts e.2) k && !portFormed s.portMapIn k)) Prod.fst streams
    , firstBad 0x02 (fun g => decide (geRank g.2 ≥ bits g.2 0 16 ∨ geFirst g.2 + bits g.2 0 16 > 65536 ∨ geLocal g.2 > 63)
        || s.absent (geLocal g.2)) Prod.fst used
    , firstBad 0x03 (fun q => decide (q.2 > 4095) || !seUsed (regIn m P.streamTable q.2)) Prod.fst
        (used.flatMap fun g => membersOf m g.2)
    , if leNat address = 0 ∨ leField address 0 1 = 0xFF then some (0x04, 0) else none
    , firstBad 0x04 (fun e => streamRes e.2) Prod.fst streams
    , firstBad 0x04 (fun g => groupRes g.2) Prod.fst groups
    , firstBad 0x04 (fun h => bits h.2 48 16 != 0) Prod.fst (listed m P.nextHop)
    , (closing[1]?).map fun g => (0x05, g.1) ]
  .code P.topologyStatus (code + 2 ^ 8 * (ix % 65536))

/-- R213: the check of a PortMap. -/
def checkPortMap (m : Sparse Nat) : Verdict :=
  let g (i : Nat) : Nat := regIn m P.portMap i
  let any (p : Nat → Bool) : Bool := (List.range 24).any p
  let mode (i : Nat) : Nat := bits (g i) 0 2
  let pair (i : Nat) : Nat := if i % 2 = 0 then i + 1 else i - 1
  .code P.portStatus
    (if any fun i => mode i == 3 && mode (pair i) != 3 then 0x01
     else if any fun i => mode i == 3 && bit (g i) 2 != bit (g (pair i)) 2 then 0x02
     else if any fun i => bits (g i) 3 5 != 0 then 0x03 else 0x00)

/-- R280: the check of the watch channel map and the layer ranges. -/
def checkWatch (m : Sparse Nat) : Verdict :=
  let chans := listed m P.watchChannelMap
  let used := chans.filter fun c => bit c.2 15
  let (code, ix) := firstCode
    [ firstBad 0x01 (fun c => used.any fun o => decide (o.1 < c.1) && bits o.2 0 10 == bits c.2 0 10) Prod.fst used
    , firstBad 0x02 (fun c => bits c.2 10 5 != 0) Prod.fst chans
    , firstBad 0x02 (fun r => bits r.2 40 24 != 0 || bits r.2 106 6 != 0 || bits r.2 112 16 != 0) Prod.fst (listed m P.layerRanges) ]
  .code P.watchStatus (code + 2 ^ 8 * ix)

/-- Whether an FP32 value lies in a range given by its FP32 bounds. -/
def within (v lo hi : Nat) : Bool := fle lo v && fle v hi

/-- R291: the check of the weir parameters: the code with the subindex. -/
def checkWeir (m : Sparse Nat) (p : Nat) : Verdict :=
  let v (q : Nat) : Nat := regIn m q 0
  let order (e : Nat) : Bool := (List.range 16).all fun st => (List.range 16).any fun k => bits e (4 * k) 4 == st
  let gap := (f32 (v P.warnLevel)).add (f32 (v P.resetLevel)).negate
  let supply := within (v P.warnLevel) 0x42280000 0x42380000 && within (v P.resetLevel) 0x42180000 0x42240000
    && within (v P.supplyHyst) 0x3E4CCCCD 0x40000000 && decide (1000 ≤ v P.supplyHold) && decide (v P.supplyHold ≤ 1000000)
    && !gap.lt (Val.ofInt 2)
  let temps := within (v P.throttleTemp) 0x42A00000 0x42D20000 && within (v P.thermalHyst) 0x3F800000 0x41200000
    && within (v P.hbmThrottleTemp) 0x428C0000 0x42B40000
  let code :=
    if p = P.powerLimit then (if 1000 ≤ v p ∧ v p ≤ 4000 then 0 else 0x01)
    else if p = P.streamOrder then (if (List.range 8).all fun g => order (regIn m p g) then 0 else 0x02)
    else if p = P.bucketDepth then (if 4096 ≤ v p ∧ v p ≤ 65535 then 0 else 0x03)
    else if p = P.gearCap then (if v p ≤ 7 then 0 else 0x06)
    else if p / 256 = 0x2020 then (if supply then 0 else 0x04)
    else (if temps then 0 else 0x05)
  .code P.weirStatus (code + 2 ^ 8 * (p % 256))

/-- Whether RiffleRate may hold a value (R270). -/
def rateOk (v : Nat) : Bool := v == 0 || (decide (16 ≤ v) && decide (v ≤ 1048576) && v == 2 ^ Nat.log2 v)

/-- The check of a screening parameter (0xA000.08). -/
def checkScreen (p v : Nat) : Verdict :=
  let ok : Bool :=
    if p = P.screenEnable then decide (v ≤ 1)
    else if p = P.screenInterval then decide (60 ≤ v) && decide (v ≤ 604800)
    else if p = P.screenConcurrency then decide (1 ≤ v) && decide (v ≤ 8)
    else if p = P.screenTemp then within v 0x42AA0000 0x42C60000
    else if p = P.replayTime then decide (v ≤ 3600)
    else decide (1 ≤ v)
  .code P.screenStatus (if ok then 0x00 else 0x02)

/-- The topology objects (R231). -/
def topologyParams : List Nat := [P.moduleAddress, P.nextHop, P.streamTable, P.groupTable, P.memberTable]

/-- The check of a write to parameter `p` that leaves the store `m` (R326). -/
def State.checkWrite (s : State) (p : Nat) (m : Sparse Nat) : Verdict :=
  let v := regIn m p 0
  if p / 256 = 0x2000 ∨ p / 256 = 0x2010 ∨ p / 256 = 0x2020 then checkWeir m p
  else if p = P.shardTable ∨ p = P.layerTable then s.checkShards m
  else if P.program ≤ p ∧ p ≤ P.program + 7 then checkProgram (p - P.program) v
  else if p = P.millraceTable then checkMillrace m
  else if topologyParams.contains p then s.checkTopology m
  else if p = P.portMap then checkPortMap m
  else if p = P.watchChannelMap ∨ p = P.layerRanges then checkWatch m
  else if p / 256 = 0xA000 then checkScreen p v
  else if p = P.riffleRate then .plain (rateOk v)
  else if p = P.silenceRun then .plain (v != 0)
  else if p = P.readRetrySteps then .plain (decide (1 ≤ v) && decide (v ≤ 16))
  else if p = P.momentRecords then .plain (decide (v ≤ 1048576))
  else if p = P.segmentBytes then .plain (v == 4096 || v == 8192)
  else if p = P.ptpRole then .plain (decide (v ≤ 2))
  else if p = P.ptpPort then .plain (decide (v ≤ 47))
  else if p = P.ptpLogSync then .plain (decide (-7 ≤ signedOf 32 v) && decide (signedOf 32 v ≤ 0))
  else if p = P.tierMapCursor then .plain (decide (v < 2 ^ 34))
  else if p = P.eventHoldoff then .plain (decide (v ≤ 1000000))
  else if p = P.eventRingEnable then .plain (decide (v ≤ 1))
  else if p = P.eventRingVector then .plain (decide (v ≤ 15) || v == 0xFF)
  else .plain true

/-- The fields of an element that a write can set, as runs of bits; `none` for every bit (R5, R325). Where the object's own
check refuses Res bits, it sees them. -/
def writable (p : Nat) : Option (List (Nat × Nat)) :=
  if p = P.digestVerify ∨ p = P.flagSources then some [(0, 3)]
  else if p = P.offenderMask then some [(0, 5)]
  else if p = P.transportRights then some [(0, 2)]
  else if p = P.vfRights then some [(0, 7)]
  else if p = P.vfTileWindow then some [(0, 40), (64, 64)]
  else if p = P.layerTable then some [(0, 32), (64, 64)]
  else if p = P.shardTable then
    some ([(0, 80), (96, 128)] ++ (List.range 7).map fun i => (256 + 64 * i, 40))
  else none

/-- An element with its Res bits zero. -/
def maskElem (p v : Nat) : Nat :=
  match writable p with
  | none => v
  | some fs => fs.foldl (fun a f => a + bits v f.1 f.2 * 2 ^ f.1) 0

/-- Written data with the Res bits of every element zero. -/
def maskBytes (p : Nat) (bytes : List Byte) : List Byte :=
  let eb := max (elemBytes p) 1
  (chunks eb bytes.length bytes).flatMap fun c => leBytes eb (maskElem p (leNat c))

end Sys2Proof.Machine
end

