-- ==== Sys2Proof/Machine/TableSet.lean ====
section
/-! DEFINITION. Course table set images (R47): the loader's checks (R48, R23, R26, R123) and the checks at activation
(R49, R232). -/

namespace Sys2Proof.Machine

/-- LoadStatus (0x9100.03): code, slot, stream and entry. -/
def loadWord (code sl st ix : Nat) : Nat := code + 2 ^ 8 * sl + 2 ^ 14 * st + 2 ^ 32 * ix

/-- Pairs of an index and a value that is not zero. -/
def indexed (xs : List Nat) : Sparse Nat := ((List.range xs.length).zip xs).filter fun kv => kv.2 != 0

/-- The table set of an image (R47). -/
def parseSet (bs : List Byte) : TableSet :=
  let n := leField bs 0x10 8
  { setId := leField bs 0x28 4, flagToken := leField bs 7 1, slotMask := leField bs 8 8
    directory := indexed ((chunks 16 1024 (slice bs 0x40 0x4000)).map leNat)
    tokens := indexed ((slice bs 0x4040 0x1000).map (·.toNat))
    entries := indexed ((chunks 16 n (bs.drop 0x5040)).map leNat)
    entryCount := n }

/-- The non-empty streams in directory order, with their entries. -/
def TableSet.streams (t : TableSet) : List (Nat × Nat × List Nat) :=
  ((List.range 1024).filter fun k => t.lengthOf (k / 16) (k % 16) != 0).map fun k =>
    (k / 16, k % 16, (List.range (t.lengthOf (k / 16) (k % 16))).map (t.entryAt (k / 16) (k % 16)))

/-- The first entry, in directory and list order, for which a test of the stream's entries and an index holds. -/
def TableSet.firstEntry (t : TableSet) (bad : Nat → List Nat → Nat → Bool) : Option (Nat × Nat × Nat) :=
  t.streams.findSome? fun (sl, st, es) =>
    ((List.range es.length).find? (bad sl es)).map fun i => (sl, st, i)

/-- The opcodes of Table 2-3, with their feature levels. -/
def opcodeLevel (op : Nat) : Option Nat :=
  if op = 0x38 then some 2
  else if [0x00, 0x01, 0x02, 0x03, 0x04, 0x08, 0x10, 0x11, 0x20, 0x21, 0x22, 0x23, 0x24, 0x25, 0x26, 0x27, 0x28, 0x30, 0x31,
      0x32, 0x40, 0x41].contains op then some 1
  else none

/-- Entry `i` of a stream. -/
def entryOf (es : List Nat) (i : Nat) : Nat := nth es i 0

/-- The LOOP entries whose body holds index `i`. -/
def enclosing (es : List Nat) (i : Nat) : List Nat :=
  (List.range i).filter fun k =>
    enOpcode (entryOf es k) == 0x04 && decide (i ≤ k + 1 + enM (entryOf es k) 0 6)

/-- R26: whether entry `i` breaks the loop structure. -/
def loopBroken (level : Nat) (es : List Nat) (i : Nat) : Bool :=
  let e := entryOf es i
  let outer := enclosing es i
  match enOpcode e with
  | 0x04 =>
    let last := i + 1 + enM e 0 6
    decide (es.length ≤ last) || outer.any (fun k => decide (k + 1 + enM (entryOf es k) 0 6 < last))
      || enM e 6 2 != outer.length || decide ((if level ≥ 2 then 3 else 1) < enM e 6 2)
      || enWaitMask e != 0 || enSignalCount e != 0
  | 0x01 => enSignalCount e != 0 || !outer.isEmpty
  | _ => false

/-- R23: whether an entry has an invalid MODE, COLL, RSIG or MOVE field (code 0x0A). -/
def fieldInvalid (e : Nat) : Bool :=
  match enOpcode e with
  | 0x08 =>
    let fa := enM e 1 3
    let fb := enM e 4 3
    decide (4 < fa) || decide (4 < fb) || decide (5 < enM e 8 3) || (enM e 7 1 == 1 && (fa == 4 || fb == 4))
  | 0x41 => enM e 0 2 == 3 || enB e == 0
  | 0x38 => enM e 12 2 == 0
  | 0x30 => decide (0x40 ≤ enM e 0 7) && enM e 0 7 != 0x7F
  | _ => false

/-- Table 6-1: whether a function code is valid for an opcode: 0x20 VOP, 0x21 VROW, 0x22 VCOL, 0x26 VREG. -/
def funcValid (op f : Nat) (packed : Bool) : Bool :=
  if packed then decide (f ≤ 6)
  else if f = 4 then op != 0x20
  else decide (f ≤ 9) || (decide (0x10 ≤ f) && decide (f ≤ 0x1B)) || (op == 0x26 && decide (0x30 ≤ f) && decide (f ≤ 0x32))

/-- R123: whether the loader rejects a vector or reduction entry (code 0x0C). -/
def vectorInvalid (e : Nat) : Bool :=
  let badFmt (lo : Nat) : Bool := decide (5 < enM e lo 3)
  match enOpcode e with
  | 0x20 | 0x21 | 0x22 => !funcValid (enOpcode e) (enM e 0 6) false || badFmt 6 || badFmt 9
  | 0x23 => badFmt 6 || badFmt 9
  | 0x24 => decide (5 ≤ enM e 0 3) || badFmt 11
  | 0x25 => badFmt 8 || enM e 11 2 == 3
  | 0x26 => !funcValid 0x26 (enM e 0 6) (enM e 6 1 == 1)
  | 0x27 => enM e 0 2 == 3
  | 0x28 => decide (6 ≤ enM e 0 4) || enM e 4 2 == 3 || badFmt 6
  | _ => false

/-- R14: whether an entry names an absent slot (code 0x06). -/
def State.namesAbsent (s : State) (e : Nat) : Bool :=
  match enOpcode e with
  | 0x30 => enM e 0 7 != 0x7F && decide (enM e 0 7 < 64) && s.absent (enM e 0 7)
  | 0x38 => s.absent (enM e 0 6)
  | _ => false

/-- The stage of R48 that fails first, as LoadStatus; none when the image is accepted. -/
def State.checkSet (s : State) (t : TableSet) : Option Nat :=
  let level := s.val P.featureLevel
  let report (code : Nat) (r : Option (Nat × Nat × Nat)) : Option Nat := r.map fun (sl, st, i) => loadWord code sl st i
  let c05 := (t.streams.find? fun (sl, st, _) =>
    decide (t.entryCount < bits (Sparse.get zeros t.directory (16 * sl + st)) 0 32 + t.lengthOf sl st)
      || !bit t.slotMask sl).map fun (sl, st, _) => loadWord 0x05 sl st 0
  let c06 := match (List.range 64).find? fun sl => bit t.slotMask sl && s.absent sl with
    | some sl => some (loadWord 0x06 sl 0 0)
    | none => report 0x06 (t.firstEntry fun _ es i => s.namesAbsent (entryOf es i))
  let c07 := report 0x07 (t.firstEntry fun _ es i => match opcodeLevel (enOpcode (entryOf es i)) with
    | some l => decide (level < l)
    | none => true)
  let c08 := report 0x08 (t.firstEntry fun _ es i =>
    (decide (0 < i) && enOpcode (entryOf es (i - 1)) == 0x01) || (i + 1 == es.length && enOpcode (entryOf es i) != 0x01))
  let c09 := report 0x09 (t.firstEntry fun _ es i => loopBroken level es i)
  let c0A := report 0x0A (t.firstEntry fun _ es i => fieldInvalid (entryOf es i))
  let c0C := report 0x0C (t.firstEntry fun _ es i => vectorInvalid (entryOf es i))
  [c05, c06, c07, c08, c09, c0A, c0C].findSome? id

/-- R48: the outcome of loading an image, as LoadStatus. -/
def State.checkImage (s : State) (bs : List Byte) : Nat :=
  let bytes := leField bs 0x18 8
  let ft := leField bs 7 1
  if bs.length < 0x40 ∨ leField bs 0 4 ≠ 0x5354434A ∨ leField bs 4 2 ≠ 1 ∨ leField bs 0x28 4 = 0
      ∨ bytes ≠ 0x5040 + 16 * leField bs 0x10 8 ∨ bytes ≠ bs.length then loadWord 0x01 0 0 0
  else if bytes > 2 ^ 30 then loadWord 0x02 0 0 0
  else if crc64 (bs.drop 0x40) ≠ leField bs 0x20 8 then loadWord 0x03 0 0 0
  else if leField bs 6 1 > s.val P.featureLevel ∨ (64 ≤ ft ∧ ft ≠ 0xFF) then loadWord 0x04 0 0 0
  else (s.checkSet (parseSet bs)).getD 0

/-- TABLE_LOAD's effect (R48): a rejected image changes nothing but LoadStatus; an accepted one is the pending set. -/
def State.loadSet (s : State) (bs : List Byte) : State :=
  let w := s.checkImage bs
  let s := s.setVal P.loadStatus w
  if bits w 0 8 ≠ 0 then s
  else
    let t := parseSet bs
    ({ s with seq := { s.seq with pendingSet := some t } }.setVal P.pendingSetId t.setId).setVal P.activateStep (2 ^ 64 - 1)

/-- R49: the first NSEND stream or COLL group that the topology table does not define (code 0x0B). -/
def State.missingIndex (s : State) (t : TableSet) : Option Nat :=
  (t.firstEntry fun _ es i =>
    let e := entryOf es i
    match enOpcode e with
    | 0x40 => !seUsed (s.streamEntry (enM e 0 12))
    | 0x41 => s.groupSize (enM e 2 12) == 0
    | _ => false).map fun (sl, st, i) => loadWord 0x0B sl st i

/-- R232: the first COLL that the topology table does not allow (code 0x0D). -/
def State.badColl (s : State) (t : TableSet) : Option Nat :=
  let uses (sl st g : Nat) : Bool := ((t.streams.find? fun x => x.1 == sl && x.2.1 == st).map fun x =>
    x.2.2.any fun e => enOpcode e == 0x41 && enM e 2 12 == g).getD false
  (t.streams.findSome? fun (sl, st, es) =>
    ((List.range es.length).find? fun i =>
      let e := entryOf es i
      let g := enM e 2 12
      enOpcode e == 0x41
        && (geLocal (s.groupOf g) != sl
          || (t.streams.any fun x => decide (16 * x.1 + x.2.1 < 16 * sl + st) && uses x.1 x.2.1 g)
          || (decide (enM e 0 2 < 2) && enB e % s.groupSize g != 0))).map fun i => loadWord 0x0D sl st i)

/-- R49, R232: at the open of step `n` a pending set whose ActivateStep has been reached becomes active, or is discarded. -/
def State.activateSet (s : State) (n : Nat) : State :=
  match s.seq.pendingSet with
  | none => s
  | some t =>
    if n < s.val P.activateStep then s
    else
      let s := { s with seq := { s.seq with pendingSet := none } }.setVal P.pendingSetId 0
      match (s.missingIndex t).orElse fun _ => s.badColl t with
      | some w => (s.setVal P.loadStatus w).raiseEvent 7 0x02 srcModule w 0
      | none => { s with seq := { s.seq with active := some t } }.setVal P.activeSetId t.setId

end Sys2Proof.Machine
end

