-- ==== Sys2Proof/Machine/Vector.lean ====
section
/-! DEFINITION. The vector engine's and the reduction unit's entries (chapter 6): what each reads at issue, what its
completion writes and counts. -/

namespace Sys2Proof.Machine

/-- Occupancy of a tile operation in ac: 32 for 8- and 16-bit tiles, 64 for 32-bit tiles (Table 2-6). -/
def tileOccupancy (f : Fmt) : Nat := if f.bytes = 4 then 64 else 32

/-- Occupy the vector engine for `n` ac from the issue, and for `late` ROOT cycles more until its operands arrive (R36). -/
def State.busyVector (s : State) (c : Ctx) (n : Nat) (late : Nat := 0) : State :=
  let d := s.die c.sl
  s.setDie c.sl { d with vecBusy := c.after n + late }

/-- Occupy the reduction unit. -/
def State.busyReducer (s : State) (c : Ctx) (n : Nat) (late : Nat := 0) : State :=
  let d := s.die c.sl
  s.setDie c.sl { d with redBusy := c.after n + late }

/-- The counters and sticky bits of elements written by a vector entry (R109): `lanes` gives each lane's flags. -/
def vecCounts (sl n : Nat) (flags : List Nat) (lanes : List (Nat × Nat)) (clamps : Nat) : List Effect :=
  [ .bump P.vecElements sl n, .bump P.vecInvalid sl (countFlag flagINV flags)
  , .bump P.vecOverflows sl (countFlag flagOVF flags), .bump P.vecUnderflows sl (countFlag flagUNF flags)
  , .bump P.vecScaleClamps sl clamps ]
  ++ ((lanes.filter fun l => l.2 % 8 != 0).map fun l => Effect.orByte P.laneFlags (sl * 256 + l.1) (l.2 % 8))

/-- The effects of a vector entry that writes a whole tile: poisoned content where an input is poisoned (R122), with the flags
that the function raised on its inputs (R67, R109; DEDUCED, assumption log 88). The counts cover a write that the tier map
discards as well (DESIGN CHOICE, assumption log 86). -/
def vecTileEffects (c : Ctx) (w : Writer) (dest : Nat) (fmt : Fmt) (poison : Bool) (r : VecResult) : List Effect :=
  .tile dest (fmtClass fmt) 2 w (if poison then Tile.poison w fmt.code else r.formed.tile w)
    :: vecCounts c.sl 16384 r.formed.flags.flatten
        (((List.range 256).zip (laneFlagsOf r.formed.flags)).map fun (l, f) => (l, f)) r.clamps

/-- VOP, VROW and VCOL: `form` 0, 1 or 2. -/
def vecTileAct (form : Nat) (s : State) (c : Ctx) : Issued :=
  let e := c.entry
  let func := enM e 0 6
  let fa := Fmt.ofCodeD (enM e 6 3)
  let fo := Fmt.ofCodeD (enM e 9 3)
  let ids := tileOperand c.x (enA e) :: (if form = 0 ∧ funcBinary func then [tileOperand c.x (enB e)] else [])
  let (late, s) := s.operandDelay c.sl ids
  let (a, s) := s.readOperand c.sl (tileOperand c.x (enA e)) fa
  let d := s.die c.sl
  let reg := regOperand (enB e)
  let (b, bp, s) : VecB × Bool × State :=
    if ¬ funcBinary func then (.none, false, s)
    else match form with
      | 0 =>
        let (t, s) := s.readOperand c.sl (tileOperand c.x (enB e)) (vopFmtB e)
        (.tile t, t.poison, s)
      | 1 => (.row (d.vreg reg), d.vpoison reg, s)
      | _ => (.col (d.vreg reg), d.vpoison reg, s)
  let mp := match maskReg e with
    | some m => d.vpoison m
    | none => false
  let r := vecTileOp func a b ((maskReg e).map d.vreg) fo (enM e 15 1 == 1)
  let occ := tileOccupancy fa
  let w := c.writer s 0
  { state := s.busyVector c occ late, due := c.after (occ + 16) + late
    effects := vecTileEffects c w (tileOperand c.x (enD e)) fo (a.poison || bp || mp) r }

/-- VTRANS (R116). -/
def vtransAct (s : State) (c : Ctx) : Issued :=
  let e := c.entry
  let fa := Fmt.ofCodeD (enM e 6 3)
  let fo := Fmt.ofCodeD (enM e 9 3)
  let (late, s) := s.operandDelay c.sl [tileOperand c.x (enA e)]
  let (a, s) := s.readOperand c.sl (tileOperand c.x (enA e)) fa
  let r := vecTranspose a fo (enM e 15 1 == 1)
  let occ := 2 * tileOccupancy fa
  { state := s.busyVector c occ late, due := c.after (occ + 16) + late
    effects := vecTileEffects c (c.writer s 0) (tileOperand c.x (enD e)) fo a.poison r }

/-- VLD (R118): 128 elements into one half of a register, the other half kept; its marks are ORed (R122). -/
def vldAct (s : State) (c : Ctx) : Issued :=
  let e := c.entry
  let (late, s) := s.operandDelay c.sl [tileOperand c.x (enA e)]
  let (a, s) := s.readOperand c.sl (tileOperand c.x (enA e)) (Fmt.ofCodeD (enM e 11 3))
  let d := s.die c.sl
  let r := regOperand (enD e)
  let xs := vldElems (enM e 0 3) (enM e 3 7) a
  let half := enM e 10 1 == 1
  let fl := xs.map Prod.snd
  let base := if half then 128 else 0
  { state := s.busyVector c 1 late, due := c.after 8 + late
    effects := .reg r (putHalf (d.vreg r) half (xs.map Prod.fst)) (d.vpoison r || a.poison)
      :: vecCounts c.sl 128 fl (((List.range 128).zip fl).map fun (l, f) => (base + l, f)) 0 }

/-- R119: tile D with row `row` replaced, its sidecar updated under R65. `cls` is the class of its page. -/
def vstTile (t : Tile) (w : Writer) (row : Nat) (f : Fmt) (r : List (Nat × Nat) × Nat × Bool) : Tile :=
  let fl := r.1.map Prod.snd
  let inv := if r.2.1 = 0xFF then 128 else countFlag flagINV fl
  let u : Tile :=
    { t with
      rows := Sparse.put zeros t.rows row (packRow f.bytes (r.1.map Prod.fst))
      scales := Sparse.put scaleDefault t.scales row r.2.1
      flags := Nat.lor t.flags (Nat.lor (orFlags fl % 16) (if inv = 0 then 0 else flagINV))
      status := statusWord w f.code false true
      ovf := sat16 (t.ovf + countFlag flagOVF fl), unf := sat16 (t.unf + countFlag flagUNF fl)
      inv := sat16 (t.inv + inv), stamp := w.stamp, setId := w.setId, entry := w.entry }
  { u with digest := u.computeDigest f.bytes }

/-- VST (R119). A poisoned source register leaves the poisoned content (DEDUCED, assumption log 14). -/
def vstAct (s : State) (c : Ctx) : Issued :=
  let e := c.entry
  let f := Fmt.ofCodeD (enM e 8 3)
  let dest := tileOperand c.x (enD e)
  let d := s.die c.sl
  let w := c.writer s 0
  let src := regOperand (enA e)
  let (t, wd, known) : Tile × Nat × Bool := match s.place dest with
    | .mapped i k => (s.tile i, classBytes k, true)
    | .viaAlias i k => (s.tile i, classBytes k, false)
    | .unmapped | .hollow => ({}, f.bytes, false)
  let mism := known && t.written && t.fmtCode != f.code
  let s := if ¬ mism then s
    else if wd = f.bytes then s.bump64 P.formatMismatches c.sl 1 else s.bump64 P.widthMismatches c.sl 1
  let half := enM e 7 1 == 1
  let r := vstRow (d.vreg src) half f (enM e 11 2) (t.scale (enM e 0 7))
  let poison := d.vpoison src
  let tile := if poison then Tile.poison w f.code else vstTile t w (enM e 0 7) f r
  let fl := r.1.map Prod.snd
  let base := if half then 128 else 0
  { state := s.busyVector c 1, due := c.after 8
    effects := .tile dest (fmtClass f) 2 w tile
      :: vecCounts c.sl 128 fl (((List.range 128).zip fl).map fun (l, x) => (base + l, x)) (b2n r.2.2) }

/-- VREG with a function that computes or copies a register (R120, R122). -/
def vregAct (s : State) (c : Ctx) : Issued :=
  let e := c.entry
  let func := enM e 0 6
  let d := s.die c.sl
  let rd := regOperand (enD e)
  let ra := regOperand (enA e)
  let rb := regOperand (enB e)
  let (v, fl) := vregResult func (enM e 6 1 == 1) (enM e 7 8) (d.vreg ra) (d.vreg rb) (d.vreg rd)
  let poison := d.vpoison ra || (funcBinary func && d.vpoison rb) || (funcTernary func && d.vpoison rd)
  { state := s.busyVector c 1, due := c.after 8
    effects := .reg rd v poison
      :: vecCounts c.sl 256 fl (((List.range 256).zip fl).map fun (l, f) => (l, f)) 0 }

/-- POST (R128): the record reaches the watch collector; a second post to a channel in a step is counted instead. -/
def postAct (s : State) (c : Ctx) : Issued :=
  let e := c.entry
  let d := s.die c.sl
  let k := enM e 7 8
  let ra := regOperand (enA e)
  let s := s.busyVector c 1
  if d.posted.contains k then { state := s, due := c.after 8, effects := [.bump P.postRepeats c.sl 1] }
  else
    let d := s.die c.sl
    { state := s.setDie c.sl { d with posted := k :: d.posted }, due := c.after 8
      effects := [.post k (regElem (d.vreg ra) 0) (regElem (d.vreg ra) 128) (d.vpoison ra)] }

/-- VIMM (R121, R122). -/
def vimmAct (s : State) (c : Ctx) : Issued :=
  let e := c.entry
  let d := s.die c.sl
  let rd := regOperand (enD e)
  let mode := enM e 0 2
  let k := enM e 2 8
  let (v, fl) := vimmResult mode k (bits (enB e) 0 12 * 2 ^ 20 + enA e) (d.vreg rd)
  let lanes := if mode = 1 then fl.map fun f => (k, f) else ((List.range 256).zip fl).map fun (l, f) => (l, f)
  { state := s.busyVector c 1, due := c.after 8
    effects := .reg rd v (mode == 1 && d.vpoison rd) :: vecCounts c.sl fl.length fl lanes 0 }

/-- RED (R124 to R127). -/
def redAct (s : State) (c : Ctx) : Issued :=
  let e := c.entry
  let f := Fmt.ofCodeD (enM e 6 3)
  let (late, s) := s.operandDelay c.sl [tileOperand c.x (enA e)]
  let (a, s) := s.readOperand c.sl (tileOperand c.x (enA e)) f
  let d := s.die c.sl
  let prior := enM e 10 8
  let rb := regOperand (enB e)
  let (v, fl) := redResult (enM e 0 4) (enM e 4 2) prior a (d.vreg rb)
  let poison := a.poison || (prior != 0 && d.vpoison rb)
  let occ := tileOccupancy f
  { state := s.busyReducer c occ late, due := c.after (occ + 20) + late
    effects := [.reg (regOperand (enD e)) v poison, .orByte P.redFlags c.sl (fl % 8)] }

/-- VOP. -/
def execVop (sl : Slot) (st : StreamIx) (s : State) : Host.Outcome State Fault Refusal :=
  .next (s.tryIssue sl st (fun e => enOpcode e == 0x20) (vecTileAct 0))
/-- VROW. -/
def execVrow (sl : Slot) (st : StreamIx) (s : State) : Host.Outcome State Fault Refusal :=
  .next (s.tryIssue sl st (fun e => enOpcode e == 0x21) (vecTileAct 1))
/-- VCOL. -/
def execVcol (sl : Slot) (st : StreamIx) (s : State) : Host.Outcome State Fault Refusal :=
  .next (s.tryIssue sl st (fun e => enOpcode e == 0x22) (vecTileAct 2))
/-- VTRANS. -/
def execVtrans (sl : Slot) (st : StreamIx) (s : State) : Host.Outcome State Fault Refusal :=
  .next (s.tryIssue sl st (fun e => enOpcode e == 0x23) vtransAct)
/-- VLD. -/
def execVld (sl : Slot) (st : StreamIx) (s : State) : Host.Outcome State Fault Refusal :=
  .next (s.tryIssue sl st (fun e => enOpcode e == 0x24) vldAct)
/-- VST. -/
def execVst (sl : Slot) (st : StreamIx) (s : State) : Host.Outcome State Fault Refusal :=
  .next (s.tryIssue sl st (fun e => enOpcode e == 0x25) vstAct)
/-- VREG with an arithmetic function. -/
def execVreg (sl : Slot) (st : StreamIx) (s : State) : Host.Outcome State Fault Refusal :=
  .next (s.tryIssue sl st (fun e => enOpcode e == 0x26 && decide (enM e 0 6 < 0x30)) vregAct)
/-- VREG with Func BCAST. -/
def execVregBcast (sl : Slot) (st : StreamIx) (s : State) : Host.Outcome State Fault Refusal :=
  .next (s.tryIssue sl st (fun e => enOpcode e == 0x26 && enM e 0 6 == 0x30) vregAct)
/-- VREG with Func SWAPH. -/
def execVregSwaph (sl : Slot) (st : StreamIx) (s : State) : Host.Outcome State Fault Refusal :=
  .next (s.tryIssue sl st (fun e => enOpcode e == 0x26 && enM e 0 6 == 0x31) vregAct)
/-- VREG with Func POST. -/
def execPost (sl : Slot) (st : StreamIx) (s : State) : Host.Outcome State Fault Refusal :=
  .next (s.tryIssue sl st (fun e => enOpcode e == 0x26 && enM e 0 6 == 0x32) postAct)
/-- VIMM. -/
def execVimm (sl : Slot) (st : StreamIx) (s : State) : Host.Outcome State Fault Refusal :=
  .next (s.tryIssue sl st (fun e => enOpcode e == 0x27) vimmAct)
/-- RED. -/
def execRed (sl : Slot) (st : StreamIx) (s : State) : Host.Outcome State Fault Refusal :=
  .next (s.tryIssue sl st (fun e => enOpcode e == 0x28) redAct)

end Sys2Proof.Machine
end

