-- ==== Sys2Proof/Machine/Steps.lean ====
section
/-! DEFINITION. The course of a step: the completion of an entry (R30, R36, R242), the final step-flag word (R247, R251), the
boundary (R12), the open of the next step (R44, R45, R250) and its abort (R46). -/

namespace Sys2Proof.Machine

/-- R247, R251: the final word of step `n`. A non-zero word skips the step, and one with SUSPECT asks for a replay (R264). -/
def State.finalWord (s : State) (n w : Nat) : State :=
  let s := (s.setVal P.finalFlags w).setVal P.finalStep n
  let s := { s with seq := { s.seq with wordTaken := true } }
  let s := (s.modStep n fun r => { r with isFinal := true, finalAt := s.clock.now, word := w }).noteMet n
  if w = 0 then s
  else
    let s := s.skipStep n 1 0
    if bit w 3 then s.requestReplay n else s

/-- R247: with no Closing group the local word is final when every entry of the step has completed. -/
def State.soloFinal (s : State) : State :=
  if s.seq.opened ∧ ¬ s.seq.wordTaken ∧ s.closingGroup = none ∧ ((List.range 64).all fun sl => !s.unfinished sl) then
    s.finalWord s.step (s.val P.localFlags)
  else s

/-- R169, R327: held and staged writes apply where no step is open and StepGate holds the next one. -/
def State.settleWrites (s : State) : State := s.settleHeld.settleStaged

/-- The boundary of the open step (R12), reached on all eight base dies: its word is final and every entry on every in-service
die has completed. -/
def State.boundary (s : State) : State :=
  let s := s.soloFinal
  if s.seq.opened ∧ (List.range 8).all s.atBoundary then
    ({ s.accountAll with seq := { s.accountAll.seq with opened := false } } : State).settleWrites
  else s

/-- R242, R135, R247: what the completion of a COLL brings about on the module. -/
def State.collDone (s : State) (key : Nat) : State :=
  match s.coll key with
  | none => s
  | some c =>
    let s := { s with
      net := { s.net with colls := s.net.colls.filter fun k => k.key != key }
      upd := { s.upd with reports := s.upd.reports ++ [(c.group, c.step)] } }
    if geClosing (s.groupOf c.group) then s.finalWord c.step (Nat.lor (c.word.getD 0) c.words) else s

/-- Whether an entry in flight can complete: no Demand load keeps it from its unit (R175), its event has come about, and an
END has every earlier entry of its stream behind it (R44). -/
def Die.completable (d : Die) (f : Flight) : Bool :=
  (match f.kind with
    | .timed => true
    | _ => f.ready)
  && f.cold.isEmpty && !(enOpcode f.entry == 0x01 && d.flight.any fun g => g.stream == f.stream && decide (g.id < f.id))

/-- ENTRY_COMPLETE (R30, R36): an entry's writes become visible, and its signal is added. A write to a page that is not loaded
waits for its Demand load (R175). -/
def entryCompleteStep (s : State) (sl id : Nat) : State :=
  match (s.die sl).flight.find? (fun f => f.id == id) with
  | none => s
  | some f =>
    let cold := s.unloaded (touchedTiles f.writes)
    if ¬ (s.die sl).completable f ∨ s.seq.dead.contains sl then s
    else if cold ≠ [] then s.startLoads cold
    else
      let s := (s.reach f.due).account sl
      let s := f.effects.foldl (fun s e => s.applyEffect sl e) s
      let s := if enSignalCount f.entry = 0 then s else s.addToken sl (enSignalToken f.entry) (enSignalCount f.entry)
      let d := s.die sl
      let s := s.setDie sl { d with flight := d.flight.filter (fun g => g.id != id), lastAct := s.clock.now
                                    stallTold := false, doneAt := s.clock.now }
      let s := match f.kind with
        | .coll key => s.collDone key
        | _ => s
      s.boundary

/-- ENTRY_COMPLETE. -/
def execEntryComplete (sl : Slot) (id : Nat) (s : State) : Host.Outcome State Fault Refusal :=
  .next (entryCompleteStep s sl id)

/-- R44, R45, R250, R12, R184: whether the next step may open. -/
def State.mayOpen (s : State) : Bool :=
  let n := s.step + 1
  s.boot == 4 && !s.seq.opened && decide (n ≤ s.val P.stepGate) && s.upd.restoring.isNone
    && (match s.upd.restoreHold with
      | some h => decide (n < h)
      | none => true)
    && s.upd.steps.all (fun r => r.step + 1 == n)
    && !(s.upd.reports.any fun x => x.2 == s.step) && !(s.upd.triggered.any fun x => x.2 == s.step)
    && s.upd.queues.all (fun q => q.all fun x => x.2 != s.step)
    && s.seq.changeReq.all (fun r => s.seq.changedAt.contains (r.2 / 9)) && s.panel.cutOff.isEmpty
    && s.seq.copying.all (fun c => !s.absent c.1) && s.mem.reloads.isEmpty

/-- The parameters of a store that lie in a list. -/
def keepParams (ps : List Nat) (m : Sparse Nat) : Sparse Nat := m.filter fun (kv : Nat × Nat) => ps.contains (kv.1 / 2 ^ 24)

/-- The tables whose groups a step open checks (R132, R258). -/
def groupTables : List Nat := [P.shardTable, P.layerTable, P.digestGroup]

/-- R132, R258: the lowest used shard whose Trigger or digest group the topology table does not define. -/
def State.badTrigger (s : State) : Option Nat :=
  ((usedShards s.params).find? fun q =>
    let g := s.reg P.digestGroup q.1
    s.groupSize (sdTrigger q.2) == 0 || (g != 0xFFFF && s.groupSize g == 0)).map Prod.fst

/-- R132: trigger and digest groups are checked; on a failure the step uses the previous tables. -/
def State.checkTriggers (s : State) : State :=
  let s := match s.badTrigger with
    | none => s
    | some sh =>
      let kept := s.params.filter fun (kv : Nat × Nat) => !groupTables.contains (kv.1 / 2 ^ 24)
      let old := s.upd.tables.foldl (fun (m : Sparse Nat) (kv : Nat × Nat) => Sparse.put paramDefault m kv.1 kv.2) kept
      let w := 0x07 + 2 ^ 8 * sh
      ({ s with params := old }.setVal P.shardLoadStatus w).raiseEvent 7 0x03 srcModule w 0
  { s with upd := { s.upd with tables := keepParams groupTables s.params } }

/-- What a step open captures (R133, R258). -/
def captureParams : List Nat :=
  groupTables ++ [P.updateSeed, P.optStep] ++ (List.range 64).map (P.hyperSet + ·) ++ (List.range 8).map (P.program + ·)

/-- R20, R44, R88, R105: the die of slot `sl` as a step opens: registers, arrays and vector registers zero, tokens at their
initial counts, every stream at its first entry. The arrays keep the numbers of their sets (R270). -/
def State.openDie (s : State) (sl : Nat) (fresh : Bool) : State :=
  let d := s.die sl
  let here := !s.absent sl
  let len (k : Nat) : Nat := match s.seq.active with
    | some t => if here then t.lengthOf sl k else 0
    | none => 0
  let tok (k : Nat) : Nat := match s.seq.active with
    | some t => Sparse.get zeros t.tokens (64 * sl + k)
    | none => 0
  let strs : List Stream := (List.range 16).map fun k =>
    { ended := len k == 0, stalled := !fresh && (d.stream k).stalled }
  let timers := (List.range 19).map fun k => s.reg P.phaseTimers (19 * sl + k)
  let s := s.setDie sl
    { streams := strs, tokens := (List.range 64).map tok, nextId := d.nextId, lastAct := s.clock.now
      array0 := { swaps := d.array0.swaps }, array1 := { swaps := d.array1.swaps }, phaseAt := s.ac, phaseBase := timers }
  match s.seq.active with
  | some t => if here ∧ t.flagToken ≠ 0xFF then s.addToken sl t.flagToken 1 else s
  | none => s

/-- R32, R44: raises held for step `n` apply; those of earlier steps are discarded. -/
def State.applyRaises (s : State) (n : Nat) : State :=
  let hs := s.seq.heldRaises
  let s := { s with seq := { s.seq with heldRaises := hs.filter fun r => decide (n < r.step) } }
  (hs.filter fun r => decide (r.step ≤ n)).foldl State.applyRaise s

/-- R31, R44: what an open adds to the tokens shows at once. -/
def State.showTokens (s : State) : State :=
  (List.range 64).foldl (fun s sl => s.setDie sl { s.die sl with raised := [] }) s

/-- R225: held messages of the step that opens apply, stream by stream; stale ones are discarded. A tile whose page a Demand
load must bring first waits for it (R175). -/
def applyHeld : Nat → Nat → State → State
  | 0, _, s => s
  | fuel + 1, ns, s =>
    let s := discardStale ns s
    match s.applicable ns with
    | none => s
    | some (gs, bs) =>
      if messageKind bs = 0 then
        if s.messageCold bs ≠ [] then s.startLoads (s.messageCold bs)
        else applyHeld fuel ns ((s.applyTile bs s.step).finishMessage ns gs)
      else if messageKind bs = 1 ∨ messageKind bs = 2 then
        applyHeld fuel ns ((s.toUnit ns s.step bs).finishMessage ns gs)
      else s

/-- R225 for every stream that holds segments, and for what the confluence units hold. -/
def State.applyHeldMessages (s : State) : State :=
  (s.net.rx.map Prod.fst).foldl (fun s ns => applyHeld ((s.rx ns).segs.length + 1) ns s) s.dropEarly

/-- R283: the record of slot `sl` in the step that ended: its counts in ac. -/
def State.phaseRecord (s : State) (sl : Nat) : List Nat :=
  ((List.range 19).zip (s.die sl).phaseBase).map fun (k, b) => s.reg P.phaseTimers (19 * sl + k) - b

/-- Table 12-5: one element of the phase tile: a count of ac in µs. -/
def phaseElem (c : Nat) : Nat := (toF32 (.fin false c 2250 0)).1

/-- Table 12-5: one row of the phase tile. -/
def phaseRow (cs : List Nat) : List Nat :=
  cs.map phaseElem ++ [phaseElem (cs.foldl (· + ·) 0)] ++ List.replicate 108 0

/-- R283: the phase tile of the records. -/
def phaseTileOf (recs : List (List Nat)) : Tile :=
  let sums := (List.range 19).map fun k => (recs.map fun r => nth r k 0).foldl (· + ·) 0
  let rows := (recs.map fun r => if r = [] then List.replicate 128 0 else phaseRow r) ++ [phaseRow sums]
    ++ List.replicate 63 (List.replicate 128 0)
  let t : Tile := { rows := rowMap (rows.map (packRow 4)), status := statusWord { source := 3 } Fmt.fp32.code false false }
  { t with digest := t.computeDigest 4 }

/-- R283: at a step open each slot's record is copied to PhaseLast, and the phase tile is written; absent slots have no row in
it. -/
def State.writePhases (s : State) (recs : List (List Nat)) : State :=
  let rows := ((List.range 64).zip recs).map fun (sl, r) => if s.absent sl then [] else r
  let s := ((List.range 64).zip recs).foldl (fun s (sl, r) =>
    ((List.range 19).zip r).foldl (fun s (k, c) => s.setReg P.phaseLast (19 * sl + k) c) s) s
  let p := s.val P.phaseTile
  if p = 2 ^ 64 - 1 then s
  else s.write { acct := 64, id := tileId p, cls := 2, ovf := 3, column := none, tile := phaseTileOf rows }

/-- R16, R44, R46, R134, R144: whether step `n` − 1 ended with a zero final word; an aborted step did not. -/
def State.lastZero (s : State) (n : Nat) : Bool :=
  !s.seq.firstOpen && s.val P.finalStep == n - 1 && s.val P.finalFlags == 0 && s.seq.aborted != some (n - 1)

/-- The first part of R44: the step number advances, held writes apply, OptStep advances (R144), a pending set becomes
active, the topology is checked against it and against the shard tables, staged writes apply (R169) and the views follow
(R134). -/
def State.openTables (s : State) (n : Nat) : State :=
  let zero := s.lastZero n
  let s := (s.setVal P.currentStep n).applyHeldAll
  let s := if zero then s.setVal P.optStep ((s.val P.optStep + 1) % 2 ^ 64) else s
  let s := (s.activateSet n).checkTriggers
  let s := { s with weir := { s.weir with orders := (List.range 8).map fun g => s.reg P.streamOrder g } }
  let s := s.applyStaged.retryRetirements
  let written (sh : Nat) : Bool := zero && s.upd.begun.contains (n - 1, sh, 1 - srHalf (s.shardRec sh))
  s.remapViews written

/-- StickyClear (0x5040.08): LaneFlags and RedFlags clear at the step open. -/
def State.clearSticky (s : State) : State :=
  if s.seq.stickyHeld then
    { s with params := s.params.filter fun kv => kv.1 / 2 ^ 24 != P.laneFlags && kv.1 / 2 ^ 24 != P.redFlags
             seq := { s.seq with stickyHeld := false } }
  else s

/-- The books of a step that opens: its captured tables (R133), its record (R249), its local word (R245), the riffle's
captures of the last step. -/
def State.openBooks (s : State) (n : Nat) : State :=
  let c : Captured := { step := n, params := keepParams captureParams s.params }
  let s := { s with
    upd := { s.upd with
      captured := s.upd.captured ++ [c], steps := s.upd.steps ++ [({ step := n } : StepRec)]
      begun := s.upd.begun.filter fun b => decide (n ≤ b.1 + 1) }
    seq := { s.seq with opened := true, openedAt := s.clock.now, firstOpen := false, everOpen := true, wordTaken := false, nextWord := 0
                        changedAt := [] }
    mem := { s.mem with unmapTold := [], mirrorTold := false }
    net := { s.net with instances := [] }
    riffle := { s.riffle with
      checks := s.riffle.checks.filter fun k => k.stage != 0
      excluded := if s.riffle.clearHeld then [] else s.riffle.excluded
      clearHeld := false, posts := s.riffle.posts.filter fun p => decide (n ≤ p.2.2.1 + 2)
      blames := s.riffle.blames.filter fun b => decide (n ≤ b.1 + 2) } }.setVal P.localFlags s.seq.nextWord
  s.headCheckpoints n

/-- STEP_OPEN (R44, R45, R250). -/
def stepOpenStep (s : State) : State :=
  if ¬ s.mayOpen then s
  else
    let n := s.step + 1
    let s := s.accountAll
    let ever := s.seq.everOpen
    let recs := (List.range 64).map fun sl => if s.seq.everOpen then s.phaseRecord sl else []
    let set := s.seq.active
    let s := ((s.openTables n).openBooks n).clearSticky
    let s := (List.range 64).foldl (fun s sl => s.openDie sl (s.seq.active != set)) s
    let s := (s.applyRaises n).showTokens
    let s := if s.upd.orphan = some n then ({ s with upd := { s.upd with orphan := none } } : State).skipStep n 3 0 else s
    let s := (s.settleStops n).applyHeldMessages
    let s := if ever then s.writePhases recs else s
    let s := if s.stepArmed n then s.takeSnapshot else s
    s.boundary

/-- STEP_OPEN. -/
def execStepOpen (s : State) : Host.Outcome State Fault Refusal := .next (stepOpenStep s)

/-- R46: an entry in flight at an abort: whether its writes become visible is open (DESIGN CHOICE, assumption log 76). -/
def State.abortFlight (s : State) (sl : Nat) (f : Flight) : State :=
  let (n, s) := s.draw
  if Config.freeAborted n then f.effects.foldl (fun s e => s.applyEffect sl e) s else s

/-- R46: a die at an abort: no entry stays in flight, no stream goes on, and the arrays' work is lost. -/
def State.abortDie (s : State) (sl : Nat) : State :=
  let s := (s.die sl).flight.foldl (fun s f => s.abortFlight sl f) s
  s.setDie sl (s.die sl).idle

/-- R46, R157: the open step is aborted: its entries go, it is SKIPPED with cause ABORT, and its word counts as final. -/
def State.abortOpen (s : State) : State :=
  let n := s.step
  let s := s.accountAll
  let s := (List.range 64).foldl State.abortDie s
  let s := { s with
    seq := { s.seq with opened := false, wordTaken := true, aborted := some n }
    net := { s.net with colls := [] }
    riffle := { s.riffle with checks := s.riffle.checks.filter fun k => k.stage != 0 } }
  (s.skipStep n 4 0).settleWrites

end Sys2Proof.Machine
end

