-- ==== Sys2Proof/Machine/Screening.lean ====
section
/-! DEFINITION. Spares and screening: hard failures (R354), screens (R356 to R360), the field state (R352) and the signature
log (R379, R380). -/

namespace Sys2Proof.Machine

/-- DIE_FAILURE (R353, R354): a die in service makes no further progress, which may leave the step with no entry to wait for, and it
leaves its slot at the next boundary; a spare or a die under screening is retired there. -/
def dieFailureStep (s : State) (p : Nat) : State :=
  if ¬ s.up 2 ∨ s.posState p = 3 ∨ s.seq.changeReq.contains (0, p) then s
  else
    let ask (s : State) : State := { s with seq := { s.seq with changeReq := s.seq.changeReq ++ [(0, p)] } }
    match s.slotOfPos p with
    | some sl =>
      let s := s.account sl
      (ask { s with seq := { s.seq with dead := sl :: s.seq.dead } }).boundary
    | none => if s.spareOf (p / 9) = some p then ask s else s

/-- DIE_FAILURE. -/
def execDieFailure (p : Position) (s : State) : Host.Outcome State Fault Refusal := .next (dieFailureStep s p)

/-- Whether base die `b` has a spare that is not under screening. -/
def State.spareFree (s : State) (b : Nat) : Bool :=
  match s.spareOf b with
  | some q => s.posState q == 1
  | none => false

/-- Whether a position may still be screened: in service or spare, on a base die with a spare. -/
def State.screenable (s : State) (p : Nat) : Bool := decide (s.posState p < 2) && (s.spareOf (p / 9)).isSome

/-- R356: the die to screen: the first of class 1, of class 2, or the die of class 3 with the oldest LastScreenTime. -/
def State.screenChoice (s : State) : Option Nat :=
  match s.panel.class1.filter s.screenable, s.panel.class2.filter s.screenable with
  | p :: _, _ => some p
  | [], p :: _ => some p
  | [], [] =>
    let cands := (List.range 72).filter fun p => s.posState p == 0 && s.spareFree (p / 9)
    (sortBy (fun p => bits (s.screenRec p) 64 64) cands).head?

/-- SCREEN_START (R356): ScreenInterval has passed since the start of the previous screen, and the next die is taken at a
boundary at which its base die's spare is free, after any other change there. -/
def screenStartStep (s : State) : State :=
  match s.screenChoice with
  | none => s
  | some p =>
    let b := p / 9
    let busy := s.seq.changeReq.any fun r => r.2 / 9 == b
    if s.val P.screenEnable ≠ 1 ∨ s.boot ≠ 4 ∨ s.panel.screens.length ≥ s.val P.screenConcurrency ∨ ¬ s.mayChange b ∨ busy
        ∨ ¬ s.spareFree b then s
    else
      let s := s.reach (s.panel.lastScreen.getD 0 + s.val P.screenInterval * secRoot)
      let s := match s.slotOfPos p with
        | some sl => (s.swapSpare sl p).getD s
        | none => s
      let s := s.setPosState p 2
      { s with panel := { s.panel with
          screens := s.panel.screens ++ [{ position := p, started := s.clock.now }], lastScreen := some s.clock.now
          class1 := removeFirst (· == p) s.panel.class1, class2 := removeFirst (· == p) s.panel.class2 } }

/-- SCREEN_START. -/
def execScreenStart (s : State) : Host.Outcome State Fault Refusal := .next (screenStartStep s)

/-- R360: the replay of a screen: ReplayChecks and FailHash. -/
def State.setReplay (s : State) (p checks hash : Nat) : State :=
  s.setScreenRec p (setBits (setBits (s.screenRec p) 128 64 checks) 192 64 hash)

/-- SCREEN_END (R358, R360, R276): a screen passes, or fails and the die is retired at the boundary, or another rule needs
the spare. -/
def screenEndStep (s : State) (p : Nat) (r : ScreenResult) : State :=
  if ¬ s.panel.screens.any (fun x => x.position == p) then s
  else
    match r with
    | .pass n =>
      let s := ((s.setReplay p n 0).endScreen p 1).setPosState p 1
      let sl := Sparse.get zeros s.panel.lastSlot p
      { s with riffle := { s.riffle with excluded := s.riffle.excluded.filter fun i => sl == 0 || i / 2 != sl - 1 } }
    | .failPart k =>
      if ¬ s.atBoundary (p / 9) then s else ((s.setReplay p 0 0).endScreen p 2).retireSpare p 2 1 (k.val + 1)
    | .failReplay h n =>
      if ¬ s.atBoundary (p / 9) then s else ((s.setReplay p n h.toNat).endScreen p 3).retireSpare p 3 2 5
    | .abandoned =>
      if s.seq.changeReq.any (fun q => q.2 / 9 == p / 9 && q.1 != 1) then (s.endScreen p 5).setPosState p 1 else s

/-- SCREEN_END. -/
def execScreenEnd (p : Position) (res : ScreenResult) (s : State) : Host.Outcome State Fault Refusal :=
  .next (screenEndStep s p res)

/-- R356: a write to ScreenRequest: its ScreenStatus code, and the die is queued in class 2. -/
def State.requestScreen (s : State) (p : Nat) : Nat × State :=
  let code := if p > 71 then 0x02 else if s.posState p ≠ 0 then 0x01 else if (s.spareOf (p / 9)).isNone then 0x03 else 0x00
  let s := s.setVal P.screenStatus code
  (code, if code = 0 then { s with panel := { s.panel with class2 := s.panel.class2 ++ [p] } } else s)

/-- The field state as it stands (R352). A base die that was taken out of service under R344 keeps Spare 0xF in it: at the next
power-up eight of its good dies take the slots, and a ninth has neither a slot nor the spare's place (DESIGN CHOICE, assumption
log 93). -/
def State.fieldNow (s : State) : FieldState :=
  { repairs := s.panel.repairs, retired := (List.range 72).filter fun p => s.posState p == 3
    spares := (List.range 8).map fun b => bits (s.slotEntry b) 32 4
    records := ((List.range 72).map fun p => (p, s.screenRec p)).filter fun kv => kv.2 != 0 }

/-- FIELD_STATE_WRITE (R352): the steward writes the field state to the SPI NOR within 1 s of a change. -/
def fieldWriteStep (s : State) : State :=
  if ¬ s.panel.fieldDirty then s
  else { s with nor := { s.nor with field := some s.fieldNow }, panel := { s.panel with fieldDirty := false } }

/-- FIELD_STATE_WRITE. -/
def execFieldStateWrite (s : State) : Host.Outcome State Fault Refusal := .next (fieldWriteStep s)

/-- R379: the signature log after a new signature: the newest 32. -/
def Nor.addSig (n : Nor) (x : SigRec) : Nor :=
  match n.sigs with
  | old :: rest =>
    if n.sigs.length < 32 then { n with sigs := n.sigs ++ [x], sigSeq := x.id }
    else
      { n with sigs := rest ++ [x], sigSeq := x.id
               sigLost := if old.acked then n.sigLost else min (n.sigLost + 1) 0xFFFFFFFF }
  | [] => { n with sigs := [x], sigSeq := x.id }

/-- SIGNATURE_STORE (R379, R380, R373): the oldest signature due is written to the SPI NOR; the event is raised, and the
record goes to the sink. -/
def signatureStoreStep (s : State) : State :=
  match s.log.sigDue with
  | [] => s
  | (src, dat) :: rest =>
    let id := s.nor.sigSeq + 1
    let s := { s with nor := s.nor.addSig { id := id, acked := false, dat := dat }, log := { s.log with sigDue := rest } }
    let s := s.raiseEvent 7 0x15 src id 0
    if s.val P.eventSinkAddress ≠ 0 ∧ s.val P.sinkSignatures = 1 then
      { s with log := { s.log with sinkQueue := s.log.sinkQueue ++ [(0x82, dat)] } }
    else s

/-- SIGNATURE_STORE. -/
def execSignatureStore (s : State) : Host.Outcome State Fault Refusal := .next (signatureStoreStep s)

/-- R379: a write of a Record ID to SignatureAck. -/
def State.ackSignature (s : State) (id : Nat) : State :=
  { s with nor := { s.nor with sigs := s.nor.sigs.map fun x => if x.id = id then { x with acked := true } else x } }

end Sys2Proof.Machine
end

