-- ==== Sys2Proof/Machine/Directory.lean ====
section
/-! DEFINITION. Records of the parameter directory (R321 to R331, R336): the access rules, each operation, and what a write
does. -/

namespace Sys2Proof.Machine

/-- How a record is answered (Table 15-6). -/
structure Answer where
  status : Nat
  flags  : Nat := 0
  detail : Nat := 0
  data   : List Byte := []
  deriving DecidableEq, Repr

/-- The status object that reports the check of parameter `p` (R326). -/
def statusOf (p : Nat) : Option Nat :=
  if p / 256 = 0x2000 ∨ p / 256 = 0x2010 ∨ p / 256 = 0x2020 then some P.weirStatus
  else if p = P.shardTable ∨ p = P.layerTable then some P.shardLoadStatus
  else if P.program ≤ p ∧ p ≤ P.program + 7 then some P.programStatus
  else if p = P.millraceTable then some P.millraceStatus
  else if topologyParams.contains p then some P.topologyStatus
  else if p = P.portMap then some P.portStatus
  else if p = P.watchChannelMap ∨ p = P.layerRanges then some P.watchStatus
  else if p / 256 = 0xA000 then some P.screenStatus
  else if p = P.snapshotTime ∨ p = P.snapshotStep then some P.snapshotStatus
  else if p = P.eventRingEnable then some P.eventRingStatus
  else if p = P.tierMapEntry then some P.tierMapStatus
  else if p = P.retireRequest then some P.retireStatus
  else if p = P.restoreRequest then some P.restoreStatus
  else if p = P.fwImage ∨ p = P.fwCommand then some P.fwStatus
  else none

/-- Detail of a record that ends with status Value (Table 15-6). -/
def State.valueDetail (s : State) (p : Nat) : Nat := ((statusOf p).map s.val).getD 0

/-- The outcome of a check, left in its status object. -/
def State.report (s : State) (v : Verdict) : State :=
  match v.report with
  | some (p, x) => s.setVal p x
  | none => s

/-- The rights of a sender's transport (R336): bit 0 Read, bit 1 Write. -/
def State.rights (s : State) (who : Requester) : Nat :=
  if who.transport.val = 0 then 3
  else if who.transport.val = 1 then bits (s.reg P.vfRights (who.fn.val - 1)) 5 2
  else s.reg P.transportRights who.transport.val

/-- Whether the directory answers on a transport (R382, R390): from BootState 1, and in RECOVERY and FAILED only on I3C. -/
def State.answers (s : State) (who : Requester) : Bool :=
  decide (1 ≤ s.boot) && (decide (s.boot ≤ 4) || who.transport.val == 2)

/-- Whether an object is there: in RECOVERY and FAILED only 0x1000 and 0x8010 (R390). -/
def State.objectThere (s : State) (index : Nat) : Bool := decide (s.boot ≤ 4) || index == 0x1000 || index == 0x8010

/-- R324: whether an Offset and a Length are allowed. -/
def spanOk (r : ParamRow) (write : Bool) (off len : Nat) : Bool :=
  match r.ty with
  | .table => len != 0 && off % r.bytes == 0 && len % r.bytes == 0 && decide (off + len ≤ r.bytes * r.count)
  | .str | .blob => if write then off == 0 && len == r.bytes else decide (off + len ≤ r.bytes)
  | _ => off == 0 && len == r.bytes

/-- The bytes of RWS writes held (0x1010.02). -/
def State.rwsBytes (s : State) : Nat := s.held.foldl (fun n h => n + h.bytes.length) 0

/-- R327: a write to an RWS parameter. -/
def State.writeHeld (s : State) (p off : Nat) (bytes : List Byte) : Answer × State :=
  if s.val P.rwsLimit < s.rwsBytes + bytes.length then ({ status := 0x06 }, s)
  else
    let h : HeldWrite := { param := p, offset := off, bytes := maskBytes p bytes }
    let v := s.checkWrite p (putParam s.heldParams p off h.bytes)
    let s := s.report v
    if ¬ v.ok then ({ status := 0x05, detail := s.valueDetail p }, s)
    else
      let n := s.step + 1
      let s := { s with held := s.held ++ [h] }.settleHeld
      if s.held.any (fun x => x.param == p) then ({ status := 0, flags := 1, detail := n }, s) else ({ status := 0 }, s)

/-- R371: the check of an event ring, as EventRingStatus. -/
def State.checkRing (s : State) (head : Nat) : Nat :=
  if s.val P.eventRingBase % 4096 ≠ 0 ∨ s.val P.eventRingLine % 64 ≠ 0 then 0x01
  else if s.val P.eventRingSize < 4 ∨ 12 < s.val P.eventRingSize then 0x02
  else if head ≠ 0 then 0x03
  else 0x00

/-- A write of EventRingEnable (R371): whether the check passed, and the state. -/
def State.enableRing (s : State) (v head : Nat) : Bool × State :=
  if v = 0 then (true, s.setVal P.eventRingEnable 0)
  else
    let code := s.checkRing head
    let s := s.setVal P.eventRingStatus code
    if code ≠ 0 then (false, s)
    else
      (true, ({ s with log := { s.log with
        ringTail := 0, ringPhase := 1, ringNext := s.val P.eventRingFrom, ringHead := head } } : State).setVal
        P.eventRingEnable 1)

/-- What a write of an RW parameter does beyond storing the value, which `s` already holds. -/
def State.afterWrite (s : State) (p : Nat) : State :=
  if p = P.stepGate then s.settleHeld.settleStaged
  else if p = P.eventSinkAddress ∧ s.val p = 0 then { s with log := { s.log with sinkQueue := [] } }
  else s

/-- R325, R326: a write to an RW parameter, on a value of the type. `head` is what the module reads from EventRingLine. -/
def State.writeRw (s : State) (p off head : Nat) (bytes : List Byte) : Answer × State :=
  let v := leNat bytes
  let value (s : State) : Answer × State := ({ status := 0x05, detail := s.valueDetail p }, s)
  let m := putParam s.params p off (maskBytes p bytes)
  let c := s.checkWrite p m
  let s := s.report c
  if ¬ c.ok then value s
  else if p = P.transportRights then
    let rights := s.putBytes p off (maskBytes p bytes)
    if rights.reg p 0 ≠ s.reg p 0 ∨ rights.reg p 1 ≠ s.reg p 1 then value s else ({ status := 0 }, rights)
  else if p = P.tierMapEntry then
    let code := s.checkEntry (s.val P.tierMapCursor) v
    let s := s.stageEntry (s.val P.tierMapCursor) v
    if code ≠ 0 then value s else ({ status := 0 }, s)
  else if p = P.eventRingEnable then
    let (ok, s) := s.enableRing v head
    if ok then ({ status := 0 }, s) else value s
  else if p = P.snapshotTime ∨ p = P.snapshotStep then
    if s.log.copying.isSome then value s.rejectSnapshot
    else ({ status := 0 }, if p = P.snapshotTime then s.armTime v else s.armStep v)
  else if p / 256 = 0x7101 then
    ({ status := 0 }, if bit v 23 then s.setVal p (setBits (s.val p) 23 1 0) else s)
  else if p / 256 = 0x7110 then
    ({ status := 0 }, if bit v 0 then s.rearmLatch (p - P.offenderLatch) else s)
  else ({ status := 0 }, (s.putBytes p off (maskBytes p bytes)).afterWrite p)

/-- A write to a WO parameter: the status it ends with, and the state. -/
def State.writeWo (s : State) (p off : Nat) (bytes : List Byte) : Nat × State :=
  let v := leNat bytes
  if p = P.rwsCancel then (0, if v = 1 then { s with held := [] } else s)
  else if p = P.retireRequest then
    let s := s.retireGranule v
    (if 1 ≤ s.val P.retireStatus ∧ s.val P.retireStatus ≤ 4 then 0x05 else 0, s)
  else if p = P.stepFlagRaise then (0, s.condition (Nat.land v 0xFF00))
  else if p = P.stickyClear then (0, if v = 1 then { s with seq := { s.seq with stickyHeld := true } } else s)
  else if p = P.riffleClear then (0, if v = 1 then { s with riffle := { s.riffle with clearHeld := true } } else s)
  else if p = P.restoreRequest then
    if s.upd.restoring.isSome then (0x06, s)
    else if s.seq.opened then (0x06, s.beginRestore v)
    else
      let s := s.beginRestore v
      (if s.val P.restoreStatus = 0x06 then 0 else 0x05, s)
  else if p = P.signatureAck then (0, s.ackSignature v)
  else if p = P.fwImage then
    if s.fwState = 2 then (0x05, s)
    else
      let es := (chunks 4096 bytes.length bytes).map leNat
      (0, ((List.range es.length).zip es).foldl (fun s (i, x) => s.stage (off / 4096 + i) x) s)
  else if p = P.fwCommand then
    let (bad, s) := s.fwCommand v
    (if bad then 0x05 else 0, s)
  else if p = P.screenRequest then
    let (code, s) := s.requestScreen v
    (if code = 0 then 0 else 0x05, s)
  else if p = P.rillRetrain then if v > 9 then (0x05, s) else (0, s.startHandshake v)
  else (0, s)

/-- R331: WRITE of `bytes` at `off` of a parameter, in the order of the checks (DEDUCED, assumption log 45). -/
def State.writeParam (s : State) (who : Requester) (p off head : Nat) (bytes : List Byte) : Answer × State :=
  if ¬ bit (s.rights who) 1 ∨ p / 256 ≥ 0xF000 then ({ status := 0x02 }, s)
  else
    match rowOf p with
    | none => ({ status := 0x01 }, s)
    | some r =>
      if ¬ s.objectThere r.index then ({ status := 0x01 }, s)
      else
        match r.access with
        | .ro | .rs => ({ status := 0x03 }, s)
        | a =>
          if p = P.transportRights ∧ who.transport.val ≠ 0 then ({ status := 0x02 }, s)
          else if ¬ s.loaded r then ({ status := 0x0A }, s)
          else if ¬ spanOk r true off bytes.length then ({ status := 0x04 }, s)
          else if r.ty = .f32 ∧ (f32 (leNat bytes)).isNan then ({ status := 0x05, detail := s.valueDetail p }, s)
          else
            match a with
            | .rws => s.writeHeld p off bytes
            | .wo =>
              let (st, s) := s.writeWo p off bytes
              ({ status := st, detail := if st = 0x05 then s.valueDetail p else 0 }, s)
            | _ => s.writeRw p off head bytes

/-- R331: READ. -/
def State.readRecord (s : State) (who : Requester) (p off len : Nat) : Answer :=
  if ¬ bit (s.rights who) 0 then { status := 0x02 }
  else
    match rowOf p with
    | none => { status := 0x01 }
    | some r =>
      if ¬ s.objectThere r.index then { status := 0x01 }
      else if ¬ s.loaded r then { status := 0x0A }
      else if ¬ spanOk r false off len then { status := 0x04 }
      else
        let (data, flags, detail) := s.readParam p r off len
        { status := 0, flags := flags, detail := detail, data := data }

/-- Table 15-7: the descriptor of a parameter. -/
def descriptor (p : Nat) (r : ParamRow) : List Byte :=
  let scalar := match r.ty with
    | .str | .blob | .table => false
    | _ => true
  let dflt := if p % 256 = 0 then countOf (p / 256) else if scalar && !r.late then defaultOf p 0 else 0
  let units := r.units.getD (Config.freeUnits r.index (p % 256)).toNat
  leBytes 1 r.ty.code ++ leBytes 1 r.access.code ++ leBytes 2 0 ++ leBytes 4 r.bytes ++ leBytes 4 r.count ++ leBytes 4 0
    ++ leBytes 8 dflt ++ leBytes 8 units

/-- R331: DESCRIBE. -/
def State.describeRecord (s : State) (who : Requester) (p : Nat) : Answer :=
  if ¬ bit (s.rights who) 0 then { status := 0x02 }
  else
    match rowOf p with
    | none => { status := 0x01 }
    | some r => if s.objectThere r.index then { status := 0, data := descriptor p r } else { status := 0x01 }

/-- The first defined parameter after `p`, in ascending order, outside the vendor objects (R331). -/
def nextParam (p : Nat) : Option Nat :=
  paramTable.foldl (fun best r =>
    let lo := r.index * 256 + r.lo
    let c := max lo (p + 1)
    if r.index * 256 + r.hi < c then best
    else
      match best with
      | none => some c
      | some b => some (min b c)) none

/-- R331: NEXT. -/
def State.nextRecord (s : State) (who : Requester) (p : Nat) : Answer :=
  let name (q : Nat) : Answer := { status := 0, data := leBytes 2 (q / 256) ++ leBytes 1 (q % 256) ++ leBytes 1 0 }
  if ¬ bit (s.rights who) 0 then { status := 0x02 }
  else if 4 < s.boot then
    match (([0x1000, 0x8010].flatMap fun i => (List.range (countOf i + 1)).map (i * 256 + ·)).find? fun q => decide (p < q)) with
    | some q => name q
    | none => { status := 0x01 }
  else
    match nextParam p with
    | some q => name q
    | none =>
      match Config.vendorNext (p / 256) (p % 256) with
      | some (i, b) => name (i.toNat * 256 + b.toNat)
      | none => { status := 0x01 }

/-- R322: an answer of a vendor object, which the manual leaves open. -/
def State.vendorRecord (s : State) (who : Requester) (op p : Nat) : Answer × State :=
  if ¬ bit (s.rights who) 0 then ({ status := 0x02 }, s)
  else
    let (n, s) := s.draw
    let st := (Config.vendorStatus n op (p / 256) (p % 256)).toNat
    ({ status := st, data := if st = 0 then Config.vendorData n op (p / 256) (p % 256) else [] }, s)

/-- The parameter a record names. -/
def recParam (r : DirRecord) : Nat := r.index.toNat * 256 + r.sub.toNat

/-- One record (R331). -/
def State.record (s : State) (who : Requester) (head : Nat) (r : DirRecord) : Answer × State :=
  let op := r.op.toNat
  let p := recParam r
  let named := r.offset.toNat ≠ 0 ∨ r.length.toNat ≠ 0
  if op = 0 ∨ 4 < op ∨ r.res0 ≠ 0 ∨ r.res1 ≠ 0 ∨ (3 ≤ op ∧ named) ∨ (op = 2 ∧ r.data.length ≠ r.length.toNat) then
    ({ status := 0x07 }, s)
  else if op = 2 then s.writeParam who p r.offset.toNat head r.data
  else if p / 256 ≥ 0xF000 ∧ s.boot ≤ 4 then s.vendorRecord who op p
  else if op = 1 then (s.readRecord who p r.offset.toNat r.length.toNat, s)
  else if op = 3 then (s.describeRecord who p, s)
  else (s.nextRecord who p, s)

/-- The response record (Table 15-6). -/
def Answer.bytes (a : Answer) (r : DirRecord) : List Byte :=
  let len := if r.op.toNat = 2 then (if a.status = 0 then r.length.toNat else 0) else a.data.length
  leBytes 1 a.status ++ leBytes 1 a.flags ++ leBytes 2 r.tag.toNat ++ leBytes 2 r.index.toNat ++ leBytes 1 r.sub.toNat
    ++ leBytes 1 0 ++ leBytes 4 r.offset.toNat ++ leBytes 4 len ++ leBytes 8 a.detail ++ a.data

/-- An answer whose data fits in `room` bytes, or TooLarge (Table 15-8). -/
def Answer.fit (a : Answer) (room : Nat) : Answer := if room < a.data.length then { status := 0x08 } else a

/-- Requests and Rejected (0x1010) count an answered record. -/
def State.countRecord (s : State) (who : Requester) (a : Answer) : State :=
  let s := s.bump64 P.requests who.transport 1
  if a.status = 0 then s else s.bump64 P.rejected who.transport 1

/-- The response limit of a transport (Table 15-9); on the host port HostBytes also limits it. -/
def State.responseLimit (s : State) (who : Requester) : Nat :=
  match who.transport.val with
  | 0 | 1 => 4198400
  | 2 | 3 => 4096
  | 4 => 1420
  | _ => s.val P.segmentBytes

end Sys2Proof.Machine
end

