-- ==== Sys2Proof/Machine/Messages.lean ====
section
/-! DEFINITION. Directory messages (R332 to R337) and the record commands: READ, WRITE, DESCRIBE, NEXT, and each write that
has a row of its own. -/

namespace Sys2Proof.Machine

/-- The request record at the head of a byte string, and its length. -/
def parseRecord (bs : List Byte) : DirRecord × Nat :=
  let b (i : Nat) : Byte := BitVec.ofNat 8 (leField bs i 1)
  let len := if leField bs 0 1 = 2 then leField bs 12 4 else 0
  ({ op := b 0, res0 := b 1, tag := BitVec.ofNat 16 (leField bs 2 2), index := BitVec.ofNat 16 (leField bs 4 2), sub := b 6
     res1 := b 7, offset := BitVec.ofNat 32 (leField bs 8 4), length := BitVec.ofNat 32 (leField bs 12 4)
     data := slice bs 16 len }, 16 + len)

/-- The records of a message body; none where they overrun it or leave bytes over (R332). -/
def parseRecords : Nat → List Byte → Option (List DirRecord)
  | 0, bs => if bs.isEmpty then some [] else none
  | n + 1, bs =>
    let (r, len) := parseRecord bs
    if bs.length < 16 ∨ bs.length < len then none else (parseRecords n (bs.drop len)).map (r :: ·)

/-- A request message: its StopOnError flag and its records; none where its header or its shape is malformed (R332). Reserved
bits of the header are ignored (R5; DEDUCED, assumption log 78). -/
def parseMessage (bs : List Byte) : Option (Bool × List DirRecord) :=
  let n := leField bs 1 1
  if bs.length < 4 ∨ leField bs 0 1 ≠ 1 ∨ n = 0 ∨ 32 < n then none
  else (parseRecords n (bs.drop 4)).map (bit (leField bs 2 1) 0, ·)

/-- The Head word that the module reads from EventRingLine at an enable of the event ring: the command's own, or where it carries
none a free one (DESIGN CHOICE, assumption log 44). -/
def State.recordHead (s : State) (head : Option Nat) (r : DirRecord) : Nat × State :=
  match head with
  | some h => (h, s)
  | none =>
    if r.op.toNat = 2 ∧ recParam r = P.eventRingEnable ∧ leNat r.data ≠ 0 then
      let (n, s) := s.draw
      ((Config.hostWord n).toNat, s)
    else (0, s)

/-- R332: the records in order. `skip` tells that an earlier one failed under StopOnError; `room` is what the transport leaves
for data. -/
def State.runRecords (who : Requester) (head : Option Nat) (stop : Bool) :
    List DirRecord → Bool → Nat → State → List Byte × State
  | [], _, _, s => ([], s)
  | r :: rs, skip, room, s =>
    let (h, s) := if skip then (0, s) else s.recordHead head r
    let (a, s) := if skip then (({ status := 0x09 } : Answer), s) else s.record who h r
    let a := a.fit room
    let s := s.countRecord who a
    let (out, s) := State.runRecords who head stop rs (skip || (stop && a.status != 0)) (room - a.data.length) s
    (a.bytes r ++ out, s)

/-- R332: a message, with the limit of its response. -/
def State.message (s : State) (who : Requester) (head : Option Nat) (limit : Nat) (msg : List Byte) : List Byte × State :=
  match parseMessage msg with
  | none => ([0x01, 0x00, 0x00, 0x00], s)
  | some (stop, rs) =>
    let (out, s) := State.runRecords who head stop rs false (limit - 4 - 24 * rs.length) s
    ([0x01, BitVec.ofNat 8 rs.length, 0x00, 0x00] ++ out, s)

/-- The request limit of a transport (Table 15-9). -/
def State.requestLimit (s : State) (who : Requester) : Nat := s.responseLimit who

/-- R337: the response kept for an identical request of one MCTP or Ethernet source within 2 s. -/
def State.keptAnswer (s : State) (who : Requester) (msg : List Byte) : Option (List Byte) :=
  (s.dir.kept.find? fun k =>
    k.who == who && k.request == msg && decide (s.clock.now ≤ k.time + 2 * secRoot)).map (·.response)

/-- R337: keep a request with its response, the newest first, 16 of each source. -/
def State.keepAnswer (s : State) (who : Requester) (msg out : List Byte) : State :=
  let (mine, others) := s.dir.kept.partition fun k => k.who == who
  let x : Answered := { who := who, time := s.clock.now, request := msg, response := out }
  { s with dir := { s.dir with kept := (x :: mine.take 15) ++ others } }

/-- R334, R337: a message as its transport delivers it: the response, if any. -/
def State.receiveMessage (s : State) (who : Requester) (head : Option Nat) (msg : List Byte) : Option (List Byte) × State :=
  if ¬ s.answers who then (none, s)
  else if s.requestLimit who < msg.length then (none, s.bump64 P.rejected who.transport 1)
  else if who.transport.val < 2 then
    let (out, s) := s.message who head (s.responseLimit who) msg
    (some out, s)
  else
    match s.keptAnswer who msg with
    | some out => (some out, s)
    | none =>
      let (out, s) := s.message who head (s.responseLimit who) msg
      (some out, s.keepAnswer who msg out)

/-- Whether a transport is MCTP (Table 15-9). -/
def viaMctp (who : Requester) : Bool := who.transport.val == 2 || who.transport.val == 3

/-- R335: the enterprise number in front of an MCTP message body, most significant byte first (PRESUMED, assumption log 98). -/
def State.ianaPrefix (s : State) : List Byte := beBytes 4 (s.val P.vendorIana)

/-- R335: signal a pending response over I3C. -/
def State.signal (s : State) (i3c : Bool) : State := if i3c then s.emit .inBandInterrupt else s

/-- R335: send a response as its carrier holds it. -/
def State.respond (s : State) (who : Requester) (ic : Bool) (out : List Byte) : State :=
  let body := if viaMctp who then s.ianaPrefix ++ out else out
  (s.signal (who.transport.val == 2)).emit (.response who (viaMctp who && ic) body)

/-- A message received and answered. -/
def State.answerMessage (s : State) (who : Requester) (ic : Bool) (head : Option Nat) (msg : List Byte) : State :=
  match s.receiveMessage who head msg with
  | (some out, s) => s.respond who ic out
  | (none, s) => s

/-- DIRECTORY_MESSAGE (R332, R335): over MCTP the body begins with the enterprise number; a body of another number is none of the
module's. -/
def directoryMessageStep (s : State) (who : Requester) (ic : Bool) (msg : List Byte) : State :=
  if ¬ viaMctp who then s.answerMessage who ic none msg
  else if msg.take 4 ≠ s.ianaPrefix then s
  else s.answerMessage who ic none (msg.drop 4)

/-- DIRECTORY_MESSAGE. -/
def execDirectoryMessage (who : Requester) (m : CarriedMessage) (s : State) : Host.Outcome State Fault Refusal :=
  .next (directoryMessageStep s who m.check m.bytes)

/-- The message of one request record (Tables 15-4, 15-5). -/
def recordMessage (r : DirRecord) : List Byte :=
  [0x01, 0x01, 0x00, 0x00] ++ [r.op, r.res0] ++ leBytes 2 r.tag.toNat ++ leBytes 2 r.index.toNat ++ [r.sub, r.res1]
    ++ leBytes 4 r.offset.toNat ++ leBytes 4 r.length.toNat ++ (if r.op = 2 then r.data else [])

/-- A record command: the message of one record, answered to its sender (DESIGN CHOICE, assumption log 65). `head` stands for
EventRingLine's Head where the command carries it. -/
def State.single (s : State) (who : Requester) (head : Option Nat) (r : DirRecord) : State :=
  s.answerMessage who false head (recordMessage r)

/-- A WRITE record to parameter `p` with tag 0. -/
def writeRec (p off : Nat) (data : List Byte) : DirRecord :=
  { op := 2, res0 := 0, tag := 0, index := BitVec.ofNat 16 (p / 256), sub := BitVec.ofNat 8 p, res1 := 0
    offset := BitVec.ofNat 32 off, length := BitVec.ofNat 32 data.length, data := data }

/-- A write of a whole parameter of `n` bytes. -/
def State.writeOf (s : State) (who : Requester) (p n v : Nat) : State := s.single who none (writeRec p 0 (leBytes n v))

/-- A write of bytes at an offset of a parameter. -/
def State.writeAt (s : State) (who : Requester) (p off : Nat) (data : List Byte) : State :=
  s.single who none (writeRec p off data)

/-- READ (R331): the record with operation 0x01. -/
def execRead (who : Requester) (r : DirRecord) (s : State) : Host.Outcome State Fault Refusal :=
  .next (s.single who none { r with op := 1 })

/-- WRITE (R331). -/
def execWrite (who : Requester) (r : DirRecord) (s : State) : Host.Outcome State Fault Refusal :=
  .next (s.single who none { r with op := 2 })

/-- DESCRIBE (R331). -/
def execDescribe (who : Requester) (r : DirRecord) (s : State) : Host.Outcome State Fault Refusal :=
  .next (s.single who none { r with op := 3 })

/-- NEXT (R331). -/
def execNext (who : Requester) (r : DirRecord) (s : State) : Host.Outcome State Fault Refusal :=
  .next (s.single who none { r with op := 4 })

/-- FWIMAGE_WRITE (R396). -/
def execFwimageWrite (who : Requester) (offset : W32) (data : List Byte) (s : State) : Host.Outcome State Fault Refusal :=
  .next (s.writeAt who P.fwImage offset.toNat data)

/-- FW_VERIFY (R387, R396): FwCommand 0x01. -/
def execFwVerify (who : Requester) (s : State) : Host.Outcome State Fault Refusal := .next (s.writeOf who P.fwCommand 1 1)

/-- FW_INSTALL (R396): FwCommand 0x02. -/
def execFwInstall (who : Requester) (s : State) : Host.Outcome State Fault Refusal := .next (s.writeOf who P.fwCommand 1 2)

/-- FW_CONFIRM (R396): FwCommand 0x03. -/
def execFwConfirm (who : Requester) (s : State) : Host.Outcome State Fault Refusal := .next (s.writeOf who P.fwCommand 1 3)

/-- FW_DISCARD (R396): FwCommand 0x04. -/
def execFwDiscard (who : Requester) (s : State) : Host.Outcome State Fault Refusal := .next (s.writeOf who P.fwCommand 1 4)

/-- RILL_RETRAIN (R342). -/
def execRillRetrain (who : Requester) (r : Byte) (s : State) : Host.Outcome State Fault Refusal :=
  .next (s.writeOf who P.rillRetrain 1 r.toNat)

/-- SCREEN_REQUEST (R356). -/
def execScreenRequest (who : Requester) (p : Byte) (s : State) : Host.Outcome State Fault Refusal :=
  .next (s.writeOf who P.screenRequest 1 p.toNat)

/-- SIGNATURE_ACK (R379). -/
def execSignatureAck (who : Requester) (id : W64) (s : State) : Host.Outcome State Fault Refusal :=
  .next (s.writeOf who P.signatureAck 8 id.toNat)

/-- TIERMAP_ENTRY_WRITE (R169): a write to the entry of the page in TierMapCursor. -/
def execTiermapEntryWrite (who : Requester) (entry : BitVec 128) (s : State) : Host.Outcome State Fault Refusal :=
  .next (s.writeOf who P.tierMapEntry 16 entry.toNat)

/-- STEP_GATE_WRITE (R169, R327). -/
def execStepGateWrite (who : Requester) (step : W64) (s : State) : Host.Outcome State Fault Refusal :=
  .next (s.writeOf who P.stepGate 8 step.toNat)

/-- RETIRE_REQUEST (R187). -/
def execRetireRequest (who : Requester) (granule : W32) (s : State) : Host.Outcome State Fault Refusal :=
  .next (s.writeOf who P.retireRequest 4 granule.toNat)

/-- EVENT_RING_ENABLE (R371): `head` is what the module reads from EventRingLine. -/
def execEventRingEnable (who : Requester) (v : Byte) (head : W32) (s : State) : Host.Outcome State Fault Refusal :=
  .next (s.single who (some head.toNat) (writeRec P.eventRingEnable 0 [v]))

/-- SNAPSHOT_TIME_WRITE (R364). -/
def execSnapshotTimeWrite (who : Requester) (v : W64) (s : State) : Host.Outcome State Fault Refusal :=
  .next (s.writeOf who P.snapshotTime 8 v.toNat)

/-- SNAPSHOT_STEP_WRITE (R364). -/
def execSnapshotStepWrite (who : Requester) (v : W64) (s : State) : Host.Outcome State Fault Refusal :=
  .next (s.writeOf who P.snapshotStep 8 v.toNat)

/-- STEP_FLAG_RAISE (R245). -/
def execStepFlagRaise (who : Requester) (v : W64) (s : State) : Host.Outcome State Fault Refusal :=
  .next (s.writeOf who P.stepFlagRaise 8 v.toNat)

/-- STICKY_CLEAR (R363, Table 6-7). -/
def execStickyClear (who : Requester) (v : Byte) (s : State) : Host.Outcome State Fault Refusal :=
  .next (s.writeOf who P.stickyClear 1 v.toNat)

/-- RIFFLE_SEED_WRITE (R270, R327). -/
def execRiffleSeedWrite (who : Requester) (v : W64) (s : State) : Host.Outcome State Fault Refusal :=
  .next (s.writeOf who P.riffleSeed 8 v.toNat)

/-- RIFFLE_CLEAR (R276). -/
def execRiffleClear (who : Requester) (v : Byte) (s : State) : Host.Outcome State Fault Refusal :=
  .next (s.writeOf who P.riffleClear 1 v.toNat)

/-- RESTORE_REQUEST (R269). -/
def execRestoreRequest (who : Requester) (step : W64) (s : State) : Host.Outcome State Fault Refusal :=
  .next (s.writeOf who P.restoreRequest 8 step.toNat)

/-- RWS_CANCEL (R327). -/
def execRwsCancel (who : Requester) (v : Byte) (s : State) : Host.Outcome State Fault Refusal :=
  .next (s.writeOf who P.rwsCancel 1 v.toNat)

/-- OFFENDER_LATCH_REARM (R325, Table 4-5). -/
def execOffenderLatchRearm (who : Requester) (sl : Slot) (a : ArrayIx) (v : BitVec 256) (s : State) :
    Host.Outcome State Fault Refusal := .next (s.writeOf who (P.offenderLatch + 2 * sl.val + a.val) 32 v.toNat)

/-- GUARD_RECORD_REARM (R43, R325, Table 2-7). -/
def execGuardRecordRearm (who : Requester) (sl : Slot) (v : BitVec 128) (s : State) : Host.Outcome State Fault Refusal :=
  .next (s.writeOf who (P.guardRecord + sl.val) 16 v.toNat)

/-- SHARD_TABLE_WRITE (R132): ShardTable, or LayerTable. -/
def execShardTableWrite (who : Requester) (layer : Bool) (offset : W32) (data : List Byte) (s : State) :
    Host.Outcome State Fault Refusal :=
  .next (s.writeAt who (if layer then P.layerTable else P.shardTable) offset.toNat data)

/-- PROGRAM_WRITE (R149). -/
def execProgramWrite (who : Requester) (n : Fin 8) (data : List Byte) (s : State) : Host.Outcome State Fault Refusal :=
  .next (s.writeAt who (P.program + n.val) 0 data)

/-- MILLRACE_TABLE_WRITE (R178). -/
def execMillraceTableWrite (who : Requester) (offset : W32) (data : List Byte) (s : State) :
    Host.Outcome State Fault Refusal := .next (s.writeAt who P.millraceTable offset.toNat data)

/-- TOPOLOGY_WRITE (R231): ModuleAddress, NextHop, StreamTable, GroupTable or MemberTable. -/
def execTopologyWrite (who : Requester) (sub : Fin 5) (offset : W32) (data : List Byte) (s : State) :
    Host.Outcome State Fault Refusal := .next (s.writeAt who (P.moduleAddress + sub.val) offset.toNat data)

/-- PORTMAP_WRITE (R213). -/
def execPortmapWrite (who : Requester) (offset : W32) (data : List Byte) (s : State) : Host.Outcome State Fault Refusal :=
  .next (s.writeAt who P.portMap offset.toNat data)

/-- WATCH_MAP_WRITE (R280): WatchChannelMap, or LayerRanges. -/
def execWatchMapWrite (who : Requester) (ranges : Bool) (offset : W32) (data : List Byte) (s : State) :
    Host.Outcome State Fault Refusal :=
  .next (s.writeAt who (if ranges then P.layerRanges else P.watchChannelMap) offset.toNat data)

/-- WEIR_PARAMETER_WRITE (R291): a parameter of 0x2000, 0x2010 or 0x2020. -/
def execWeirParameterWrite (who : Requester) (index : W16) (sub : Byte) (offset : W32) (data : List Byte) (s : State) :
    Host.Outcome State Fault Refusal :=
  .next (if index = 0x2000 ∨ index = 0x2010 ∨ index = 0x2020 then
    s.writeAt who (index.toNat * 256 + sub.toNat) offset.toNat data else s)

end Sys2Proof.Machine
end

