-- ==== Sys2Proof/Machine/Endpoints.lean ====
section
/-! DEFINITION. The management endpoints: MGMT packets (R228, R335), the addresses the module answers for (R217, R335), the
event sink (R373), MCTP control and I3C addressing (R335), and the SPDM responder (R393 to R395). -/

namespace Sys2Proof.Machine

/-- The management port's link-local address: the modified EUI-64 of MgmtMac (R335). -/
def linkLocal (mac : Nat) : Nat :=
  let eui := (Nat.xor (mac / 2 ^ 24 % 2 ^ 24) 0x020000) * 2 ^ 40 + 0xFFFE * 2 ^ 24 + mac % 2 ^ 24
  0xFE80 * 2 ^ 112 + eui

/-- Whether the module has an address on a carrier: ModuleAddress on data ports; the link-local address and MgmtAddress on the
management port. -/
def State.hasAddress (s : State) (c : Carrier) (a : Nat) : Bool :=
  match c with
  | .data _ => a != 0 && a == s.addrOf P.moduleAddress
  | .mgmt => a == linkLocal (s.val P.mgmtMac) || (a != 0 && a == s.addrOf P.mgmtAddress)

/-- Whether a carrier's link is up. -/
def State.carrierUp (s : State) (c : Carrier) : Bool :=
  match c with
  | .data p => s.portUp p
  | .mgmt => s.val P.mgmtLink == 1

/-- R217: a packet that the module discards counts in FramesDropped of its data port. -/
def State.discard (s : State) (c : Carrier) : State :=
  match c with
  | .data p => s.bump64 P.framesDropped p 1
  | .mgmt => s

/-- How a frame leaves the management port, from MgmtMac. The next hop's address there is outside the model (assumption log 97). -/
def State.mgmtLinkOut (s : State) : Link := { carrier := .mgmt, srcMac := s.val P.mgmtMac, destMac := none }

/-- How an answer leaves the carrier that the request came on. -/
def State.linkOut (s : State) (c : Carrier) : Link :=
  match c with
  | .data p => s.dataLink p
  | .mgmt => s.mgmtLinkOut

/-- NEIGHBOR_SOLICITATION (R217, R335). -/
def solicitationStep (s : State) (c : Carrier) (src target : Addr6) : State :=
  if ¬ s.carrierUp c then s
  else if s.hasAddress c target.toNat then s.emit (.neighborAdvertisement (s.linkOut c) src target) else s.discard c

/-- NEIGHBOR_SOLICITATION. -/
def execNeighborSolicitation (c : Carrier) (src target : Addr6) (s : State) : Host.Outcome State Fault Refusal :=
  .next (solicitationStep s c src target)

/-- ECHO_REQUEST (R217, R335). -/
def echoStep (s : State) (c : Carrier) (src dest : Addr6) (body : List Byte) : State :=
  if ¬ s.carrierUp c then s
  else if s.hasAddress c dest.toNat then s.emit (.echoReply (s.linkOut c) dest src body) else s.discard c

/-- ECHO_REQUEST. -/
def execEchoRequest (c : Carrier) (src dest : Addr6) (body : List Byte) (s : State) : Host.Outcome State Fault Refusal :=
  .next (echoStep s c src dest body)

/-- MGMT_PORT_LINK_CHANGE (R335, R403): MgmtLink follows the management port, whose PHY powers up at BootState 1. -/
def mgmtLinkStep (s : State) (up : Bool) : State := if s.up 1 then s.setVal P.mgmtLink (b2n up) else s

/-- MGMT_PORT_LINK_CHANGE. -/
def execMgmtPortLinkChange (up : Bool) (s : State) : Host.Outcome State Fault Refusal := .next (mgmtLinkStep s up)

/-- The sender of an Ethernet directory message (R333). -/
def ethSender (transport : Fin 6) (src : Endpoint) : Requester :=
  { transport := transport, fn := 0, source := src.addr.toNat * 65536 + src.port.toNat }

/-- A MGMT packet with its stream fields zero (R335). -/
def mgmtPacket (payload : List Byte) : List Byte := netPacket 3 0 0 0 0 0 0 0 payload

/-- A datagram of the management port, with MgmtUdpPort as its source port (R335). -/
def State.mgmtDatagram (s : State) (src srcPort dest destPort : Nat) (payload : List Byte) : State :=
  s.emit (.udp s.mgmtLinkOut (udpPacket src dest none srcPort destPort (mgmtPacket payload)))

/-- MGMT on the management port (R335): the answer leaves from the address and the port that the request was sent to. -/
def mgmtPortStep (s : State) (src dest : Endpoint) (pkt : List Byte) : State :=
  let h := parseHeader pkt
  if ¬ s.carrierUp .mgmt ∨ ¬ s.hasAddress .mgmt dest.addr.toNat ∨ dest.port.toNat ≠ s.val P.mgmtUdpPort ∨ ¬ h.crcOk
      ∨ h.version ≠ 1 ∨ h.cls ≠ 3 then s
  else
    match s.receiveMessage (ethSender 4 src) none h.payload with
    | (none, s) => s
    | (some out, s) => s.mgmtDatagram dest.addr.toNat dest.port.toNat src.addr.toNat src.port.toNat out

/-- MGMT on a data port (R228, R335): only on a Mgmt stream, and only with MgmtOnData 1. -/
def mgmtDataStep (s : State) (p : Port) (ce : Bool) (src dest : Endpoint) (pkt : List Byte) : State :=
  if ¬ s.portUp p then s
  else if ¬ s.hasAddress (.data p) dest.addr.toNat ∨ dest.port.toNat ≠ s.val P.streamUdpPort then s.bump64 P.framesDropped p 1
  else
    match s.receive p 3 ce pkt with
    | (none, s) => s
    | (some h, s) =>
      if ¬ seMgmt (s.streamEntry h.stream) ∨ s.val P.mgmtOnData ≠ 1 then s.bump64 P.framesDropped p 1
      else
        match s.receiveMessage (ethSender 5 src) none h.payload with
        | (none, s) => s
        | (some out, s) =>
          s.sendPacket h.stream 0 (netPacket 3 0 (sePeer (s.streamEntry h.stream)) (s.val P.topologyEpoch) 0 0 0 0 out)

/-- MGMT. -/
def mgmtStep (s : State) (c : Carrier) (ce : Bool) (src dest : Endpoint) (pkt : List Byte) : State :=
  match c with
  | .mgmt => mgmtPortStep s src dest pkt
  | .data p => mgmtDataStep s p ce src dest pkt

/-- MGMT. -/
def execMgmt (c : Carrier) (ce : Bool) (ends : UdpEnds) (pkt : List Byte) (s : State) :
    Host.Outcome State Fault Refusal := .next (mgmtStep s c ce ends.src ends.dest pkt)

/-- R373: the records of the next datagram: up to 16 events, or one signature. -/
def nextDatagram : List (Nat × List Byte) → List (Nat × List Byte)
  | [] => []
  | (k, b) :: q => if k = 0x82 then [(k, b)] else ((k, b) :: q).takeWhile (fun x => x.1 == 0x81) |>.take 16

/-- The bytes of a sink datagram: its 4-byte header and its records (R373). -/
def sinkPayload (rs : List (Nat × List Byte)) : List Byte :=
  leBytes 1 ((rs.head?.map (·.1)).getD 0x81) ++ leBytes 1 rs.length ++ leBytes 2 0 ++ rs.flatMap (·.2)

/-- The management port's own address: MgmtAddress where it has one, else its link-local address (R335; PRESUMED, assumption
log 97). -/
def State.mgmtSource (s : State) : Nat :=
  if s.val P.mgmtAddress = 0 then linkLocal (s.val P.mgmtMac) else s.addrOf P.mgmtAddress

/-- EVENT_SINK_SEND (R373): one datagram, at most 2000 in a second; the records of one beyond that rate are lost. -/
def sinkSendStep (s : State) : State :=
  let rs := nextDatagram s.log.sinkQueue
  if rs = [] ∨ s.val P.eventSinkAddress = 0 ∨ ¬ s.carrierUp .mgmt then s
  else
    let sec := s.clock.now / secRoot
    let sent := if s.log.sinkSec = sec then s.log.sinkSent else 0
    let s := { s with log := { s.log with sinkQueue := s.log.sinkQueue.drop rs.length } }
    if 2000 ≤ sent then s.bump64 P.eventsLost 1 rs.length
    else
      ({ s with log := { s.log with sinkSec := sec, sinkSent := sent + 1 } } : State).mgmtDatagram s.mgmtSource
        (s.val P.mgmtUdpPort) (s.addrOf P.eventSinkAddress) (s.val P.eventSinkPort) (sinkPayload rs)

/-- EVENT_SINK_SEND. -/
def execEventSinkSend (s : State) : Host.Outcome State Fault Refusal := .next (sinkSendStep s)

/-- Whether the MCTP endpoint on PCIe (transport 3) or I3C (transport 2) is reached (R382, R390). -/
def State.mctpUp (s : State) (pcie : Bool) : Bool :=
  decide (1 ≤ s.boot) && (if pcie then s.hostUp && decide (s.boot ≤ 4) else s.supply.released)

/-- Answer an MCTP control message where the endpoint is reached. -/
def State.control (s : State) (pcie : Bool) (r : ControlReply) : State :=
  if s.mctpUp pcie then (s.signal !pcie).emit (.control pcie r) else s

/-- SET_ENDPOINT_ID (R335). -/
def setEidStep (s : State) (pcie : Bool) (eid : Nat) : State :=
  if s.mctpUp pcie then (s.setVal P.mctpEid eid).control pcie (.setEndpointId eid) else s

/-- SET_ENDPOINT_ID. -/
def execSetEndpointId (pcie : Bool) (eid : Byte) (s : State) : Host.Outcome State Fault Refusal :=
  .next (setEidStep s pcie eid.toNat)

/-- GET_ENDPOINT_ID (R335). -/
def execGetEndpointId (pcie : Bool) (s : State) : Host.Outcome State Fault Refusal :=
  .next (s.control pcie (.endpointId (s.val P.mctpEid)))

/-- The MCTP message types of the module: SPDM (R394) and vendor defined by IANA number (R335). -/
def mctpTypes : List Nat := [0x05, 0x7F]

/-- GET_MCTP_VERSION_SUPPORT (R335): of the base protocol (0xFF), of control messages, and of the module's types. -/
def execGetMctpVersionSupport (pcie : Bool) (msgType : Byte) (s : State) : Host.Outcome State Fault Refusal :=
  .next (s.control pcie (.versionSupport msgType.toNat
    (msgType.toNat == 0xFF || msgType.toNat == 0 || mctpTypes.contains msgType.toNat)))

/-- GET_MESSAGE_TYPE_SUPPORT (R335). -/
def execGetMessageTypeSupport (pcie : Bool) (s : State) : Host.Outcome State Fault Refusal :=
  .next (s.control pcie (.messageTypes mctpTypes))

/-- Take a dynamic I3C address. -/
def State.takeAddress (s : State) (a : Nat) : State :=
  if s.mctpUp false ∧ s.dir.i3cAddr = 0 then
    ({ s with dir := { s.dir with i3cAddr := a % 128 } } : State).emit (.control false (.addressSet (a % 128)))
  else s

/-- SETDASA (R335): from I3cStaticAddress. -/
def setdasaStep (s : State) (st dyn : Nat) : State :=
  if st = s.val P.i3cStaticAddress % 128 then s.takeAddress dyn else s

/-- SETDASA. -/
def execSetdasa (staticAddr dynAddr : Byte) (s : State) : Host.Outcome State Fault Refusal :=
  .next (setdasaStep s staticAddr.toNat dynAddr.toNat)

/-- ENTDAA (R335): by I3cPid. -/
def execEntdaa (dynAddr : Byte) (s : State) : Host.Outcome State Fault Refusal := .next (s.takeAddress dynAddr.toNat)

/-- Answer an SPDM request where the responder is reached; in RECOVERY it is not (R390). -/
def State.spdm (s : State) (pcie : Bool) (r : SpdmReply) : State :=
  if s.mctpUp pcie && decide (s.boot ≤ 4) then (s.signal !pcie).emit (.spdm pcie r) else s

/-- Whether the module has its identity (R394). -/
def State.identified (s : State) : Bool := s.val P.identityState == 0

/-- The certificate chain of slot 0 (R393). -/
def State.chain (s : State) : List Byte := Config.certificateChain s.fw.certDraw

/-- GET_VERSION (R394). -/
def execGetVersion (pcie : Bool) (s : State) : Host.Outcome State Fault Refusal := .next (s.spdm pcie .version)

/-- GET_CAPABILITIES (R394). -/
def execGetCapabilities (pcie : Bool) (s : State) : Host.Outcome State Fault Refusal := .next (s.spdm pcie .capabilities)

/-- NEGOTIATE_ALGORITHMS (R394). -/
def execNegotiateAlgorithms (pcie : Bool) (s : State) : Host.Outcome State Fault Refusal :=
  .next (s.spdm pcie (.algorithms (s.val P.vendorIana)))

/-- GET_DIGESTS (R394). -/
def execGetDigests (pcie : Bool) (s : State) : Host.Outcome State Fault Refusal :=
  .next (s.spdm pcie (if s.identified then .digests (Config.sha384 s.chain).toNat else .unspecified))

/-- The answer to GET_CERTIFICATE (R393, R394). -/
def State.certificateReply (s : State) (slot off len : Nat) : SpdmReply :=
  if ¬ s.identified then .unspecified
  else if slot ≠ 0 ∨ s.chain.length ≤ off then .invalidRequest
  else
    let part := slice s.chain off len
    .certificate 0 part (s.chain.length - off - part.length)

/-- GET_CERTIFICATE. -/
def execGetCertificate (pcie : Bool) (slot : Byte) (offset length : W16) (s : State) : Host.Outcome State Fault Refusal :=
  .next (s.spdm pcie (s.certificateReply slot.toNat offset.toNat length.toNat))

/-- CHALLENGE (R394): signed by the alias key. -/
def challengeStep (s : State) (pcie : Bool) (slot : Nat) : State :=
  if ¬ s.identified then s.spdm pcie .unspecified
  else if slot ≠ 0 then s.spdm pcie .invalidRequest
  else
    let (n, s) := s.draw
    s.spdm pcie (.challengeAuth (Config.sha384 s.chain).toNat (Config.freeNonce n).toNat (Config.aliasSignature n).toNat)

/-- CHALLENGE. -/
def execChallenge (pcie : Bool) (slot : Byte) (_nonce : BitVec 256) (s : State) : Host.Outcome State Fault Refusal :=
  .next (challengeStep s pcie slot.toNat)

/-- Measurement `i` of Table 18-6: its DMTF type and value. -/
def State.measurement (s : State) (i : Nat) : Nat × List Byte :=
  let head (off n : Nat) : List Byte := imageBytes (s.fw.image.elem s.fw.slot) off n
  match i with
  | 1 => (0x00, beBytes 48 (Config.fixedMeasurement 1).toNat)
  | 2 => (0x01, digest48 (head 0 1024))
  | 3 => (0x06, head 8 4)
  | 4 => (0x07, head 12 2 ++ leBytes 6 0)
  | 5 => (0x02, beBytes 48 (Config.fixedMeasurement 5).toNat)
  | 6 => (0x02, digest48 (((List.range 8).flatMap fun b => leBytes 8 (s.slotEntry b))
      ++ (List.range 72).flatMap fun p => leBytes 1 (s.posState p)))
  | 7 => (0x03, leBytes 1 (s.val P.featureLevel))
  | _ => (0x03, leBytes 2 s.floors.1 ++ leBytes 2 s.floors.2 ++ leBytes 1 (s.val P.bootStateValid)
      ++ leBytes 1 (s.val P.identityState) ++ leBytes 2 0)

/-- GET_MEASUREMENTS (R394, R395): index 0 asks for the count and 0xFF for all. -/
def measurementsStep (s : State) (pcie : Bool) (index : Nat) (signed : Bool) : State :=
  if signed ∧ ¬ s.identified then s.spdm pcie .unspecified
  else if 8 < index ∧ index ≠ 0xFF then s.spdm pcie .invalidRequest
  else
    let (n, s) := if signed then s.draw else (0, s)
    let is := if index = 0xFF then (List.range 8).map (· + 1) else if index = 0 then [] else [index]
    if index = 0 ∧ ¬ signed then s.spdm pcie (.measurementCount 8)
    else
      s.spdm pcie (.measurements (is.map fun i => (i, s.measurement i))
        (if signed then some (Config.aliasSignature n).toNat else none))

/-- GET_MEASUREMENTS. -/
def execGetMeasurements (pcie : Bool) (index : Byte) (signed : Bool) (_nonce : BitVec 256) (s : State) :
    Host.Outcome State Fault Refusal := .next (measurementsStep s pcie index.toNat signed)

/-- SPDM_UNSUPPORTED_REQUEST (R394): any other request. -/
def execSpdmUnsupportedRequest (pcie : Bool) (_code : Byte) (s : State) : Host.Outcome State Fault Refusal :=
  .next (s.spdm pcie .unsupportedRequest)

end Sys2Proof.Machine
end

