-- ==== Sys2Proof/Machine/HostCommands.lean ====
section
/-! DEFINITION. The host's commands (R307 to R310, R315, R320): each runs in its own row, once it may start; the bytes that it reads
from host memory are the row's operands. A row of TILE_WRITE, TIERMAP_WRITE or STATE_WRITE may bring some of the units only: the
command then stays part-done until a later row brings the rest (Table 14-11; assumption log 101). -/

namespace Sys2Proof.Machine

/-- What a row of a command comes to: the end, with its status, its result and what it writes at HostAddr; or a command that has
started and goes on; or nothing, where the operands of the row do not fit the command. -/
inductive Ran where
  | ends (status result : Nat) (dat : List Byte) (s : State)
  | goesOn (c : HostCmd) (s : State)
  | nothing
  deriving DecidableEq, Repr

/-- The bytes of the operand area that an opcode names, as offsets and counts (Table 14-9). -/
def namedOperands (op : Nat) : List (Nat × Nat) :=
  match op with
  | 0x02 => [(0x20, 12)]
  | 0x10 => [(0x20, 0x14), (0x38, 8)]
  | 0x11 | 0x29 => [(0x20, 12)]
  | 0x21 => [(0x20, 8)]
  | 0x30 | 0x31 => [(0x20, 1), (0x24, 8)]
  | 0x38 => [(0x20, 4)]
  | _ => []

/-- Status 0x0001 of Table 14-8: a shape that R307 does not allow. -/
def HostCmd.malformed (c : HostCmd) : Bool :=
  let op := c.opcode
  decide (1 < bits c.flags 2 2) || bits c.flags 4 4 != 0 || c.arg 6 2 != 0
    || (if c.inline then !(op == 0x02 || op == 0x28)
        else c.inlineBytes != 0 || (List.range 96).any fun i =>
          c.arg (0x20 + i) 1 != 0 && !(namedOperands op).any fun (o, n) => decide (o ≤ 0x20 + i) && decide (0x20 + i < o + n))

/-- The bit of VfRights that grants a class of Table 14-9 (Table 14-12); none for MODULE_RESET. -/
def classBit (op : Nat) (write : Bool) : Option Nat :=
  match op with
  | 0x02 => some (if write then 6 else 5)
  | 0x11 => some 0
  | 0x10 => some 1
  | 0x28 | 0x29 => some 2
  | 0x20 | 0x21 => some 3
  | 0x30 | 0x31 => some 4
  | _ => none

/-- R320: whether function `fn` may issue a command. -/
def State.permitted (s : State) (fn op : Nat) (write : Bool) : Bool :=
  if fn = 0 ∨ op = 0 then true
  else
    match classBit op write with
    | some k => bit (s.reg P.vfRights (fn - 1)) k
    | none => false

/-- R320: whether the tiles [first, first + n) modulo 2^40 lie in the window of a function. -/
def State.inWindow (s : State) (fn first n : Nat) : Bool :=
  if fn = 0 then true
  else
    let w := s.reg P.vfTileWindow (fn - 1)
    let a := bits w 0 40
    let k := bits w 64 64
    let inside (lo len : Nat) : Bool := len == 0 || (decide (a ≤ lo) && decide (lo + len ≤ a + k))
    let upper := min n (2 ^ 40 - first)
    inside first upper && inside 0 (n - upper)

/-- A command that may start, by its number. -/
def State.startable (s : State) (fn q n : Nat) : Option HostCmd :=
  let x := s.queue fn q
  if ¬ (s.hostFn fn).running then none
  else
    match x.cmds.find? fun c => c.n == n && c.done.isNone with
    | none => none
    | some c => if x.mayStart (s.val P.decidedStep) c then some c else none

/-- Run a command of opcode `op`: the checks that every opcode shares, as it starts, in the order 0x0001, 0x0002, then `f`. -/
def State.runCommand (s : State) (fn q n op : Nat) (write : HostCmd → Bool) (f : HostCmd → State → Ran) : State :=
  match s.startable fn q n with
  | none => s
  | some c =>
    if c.opcode ≠ op then s
    else if c.malformed then s.commandDone fn q c 0x0001 0 []
    else if ¬ c.began ∧ ¬ s.permitted fn op (write c) then s.commandDone fn q c 0x0002 0 []
    else
      match f c s with
      | .nothing => s
      | .goesOn c s => s.setQueue fn q ((s.queue fn q).setCmd { c with began := true })
      | .ends status result dat s => s.commandDone fn q c status result dat

/-- A command that ends with a status and no effect. -/
def endWith (s : State) (status : Nat) : Ran := .ends status 0 [] s

/-- R302: whether the host has refused to translate an address: only where ATS is enabled on the function. -/
def State.refuses (s : State) (fn : Nat) (refused : Bool) : Bool := (s.hostFn fn).cfg.ats && refused

/-- NOP (R307). -/
def hostNopRun (_ : HostCmd) (s : State) : Ran := endWith s 0x0000

/-- The command NOP. -/
def execHostNop (fn : FnIx) (q : QueueIx) (n : Nat) (s : State) : Host.Outcome State Fault Refusal :=
  .next (s.runCommand fn q n 0x00 (fun _ => false) hostNopRun)

/-- The sender of a PARAM command (R333, Table 15-9). -/
def paramSender (fn : FnIx) (q : Nat) : Requester := { transport := if fn.val = 0 then 0 else 1, fn := fn, source := q }

/-- The request of a PARAM command: its inline payload, or what was read from RequestAddr. -/
def HostCmd.request (c : HostCmd) (req : Option (List Byte)) : Option (List Byte) :=
  if c.inline then some (slice c.bytes 0x20 c.inlineBytes) else req

/-- Whether a message holds a WRITE (R335): class PW. -/
def hasWrite (req : Option (List Byte)) : Bool :=
  match req.bind parseMessage with
  | some (_, rs) => rs.any fun r => r.op == 2
  | none => false

/-- Whether the request of a PARAM command exceeds its limit (Table 15-9). -/
def HostCmd.tooLong (c : HostCmd) : Bool := if c.inline then decide (96 < c.inlineBytes) else decide (4198400 < c.arg 0x28 4)

/-- PARAM (R310, R334, R335): `refused` tells that the host refuses to translate the response buffer's address. -/
def paramRun (fn : FnIx) (q : Nat) (req : Option (List Byte)) (refused : Bool) (c : HostCmd) (s : State) : Ran :=
  let who := paramSender fn q
  if c.tooLong then .ends 0x0004 0 [] (s.bump64 P.rejected who.transport 1)
  else
    match c.request req with
    | none => .ends 0x0003 0 [] (s.bump64 P.hostReadErrors fn 1)
    | some msg =>
      if ¬ c.inline ∧ msg.length ≠ c.arg 0x28 4 then .nothing
      else
        let (out, s) := s.message who none (min c.hostBytes 4198400) msg
        if c.hostBytes < out.length then endWith s 0x0004
        else if s.refuses fn refused then endWith s 0x0003
        else .ends 0x0000 out.length out s

/-- PARAM. -/
def execParam (fn : FnIx) (q : QueueIx) (r : OutputRun) (req : Option (List Byte)) (s : State) :
    Host.Outcome State Fault Refusal :=
  .next (s.runCommand fn q r.n 0x02 (fun c => hasWrite (c.request req)) (paramRun fn q req r.refused.isSome))

/-- The width class of a tile's page, an alias's target counted; none for an unmapped page. -/
def State.widthAt (s : State) (id : Nat) : Option Nat :=
  match s.place id with
  | .unmapped | .hollow => none
  | .mapped _ c | .viaAlias _ c => some c

/-- The tiles of a TILE command: FirstTile on, modulo 2^40. -/
def HostCmd.tiles (c : HostCmd) : List Nat := (List.range (c.arg 0x28 4)).map fun i => tileId (c.arg 0x20 8 + i)

/-- The writer of a host command (R308). -/
def hostWriter : Writer := { source := 3 }

/-- R308 Mode 0: bytes of one tile's input in a width class. -/
def rawLen (cls : Nat) : Nat := 256 + 16384 * classBytes cls
/-- The width classes of a command's tiles as it starts; a tile of an unmapped page takes the 8-bit size. -/
def State.widthsOf (s : State) (c : HostCmd) : List Nat := c.tiles.map fun id => (s.widthAt id).getD 0

/-- R308 Mode 0: the tile of an input, whether it fails VerifyDigest, and the format code it declares. -/
def rawTile (w : Nat) (input : List Byte) : Tile × Bool × Nat :=
  let side := input.take 256
  let t := Tile.ofBytes w (input.drop 256) side
  let f := t.fmtCode
  let bad := t.computeDigest w != t.digest
  let t : Tile := { rows := t.rows, scales := t.scales, flags := bits t.flags 0 5, status := statusWord hostWriter f false false }
  ({ t with digest := t.computeDigest w }, bad, f)

/-- The width class of a format code; 3, which no page has, for a reserved code. -/
def codeClass (f : Nat) : Nat := ((Fmt.ofCode f).map fmtClass).getD 3

/-- Write a tile of a host command, and whether it was written without poison (R315). -/
def State.hostStore (s : State) (id cls : Nat) (t : Tile) : Bool × State :=
  match s.storeTile 64 id cls t with
  | (some x, s) => (!x.poisoned, s)
  | (none, s) => (false, s)

/-- R308 Mode 0: one tile of input width class `cls` is written. An input whose Fmt has another width than `cls` has the width of
no page (R159). -/
def State.writeRawTile (s : State) (verify : Bool) (cls id : Nat) (input : List Byte) : Bool × State :=
  let (t, bad, f) := rawTile (classBytes cls) input
  let same := codeClass f == cls
  if verify ∧ bad then
    (s.bump64 P.digestErrors 64 1).hostStore id cls (Tile.poison hostWriter (if same then f else classFmt cls))
  else s.hostStore id (if same then cls else 3) t

/-- R308 Mode 1: elements in row-major order, converted from `src` to `dst`. -/
def convertedTile (src dst : Fmt) (auto : Bool) (input : List Byte) : Tile :=
  let rows := (chunks (128 * src.bytes) 128 input).map fun r =>
    encodeRow dst auto false ((chunks src.bytes 128 r).map fun x => (decodeIn src 0x7F (leNat x)).1)
  (vecCollect dst 0 (List.replicate 128 (List.replicate 128 0)) rows).formed.tile hostWriter

/-- R315: a tile whose input the host could not give. -/
def State.writeLostTile (s : State) (fn id k : Nat) : State :=
  let cls := (s.widthAt id).getD 0
  let f := if codeClass k = cls then k else classFmt cls
  ((s.bump64 P.hostReadErrors fn 1).storeTile 64 id cls (Tile.poison hostWriter f)).2

/-- R308: the signal of a TILE_WRITE, raised after its last tile. -/
def State.tileSignal (s : State) (c : HostCmd) : State :=
  let sig := c.arg 0x30 4
  if bits sig 12 2 = 0 then s
  else s.applyRaise { slot := bits sig 0 6, token := bits sig 6 6, count := bits sig 12 2, step := c.arg 0x38 8 }

/-- The checks that both modes of TILE_WRITE share: 0x0001, 0x0002, 0x0004, or 0. -/
def State.tileWriteCode (s : State) (fn : Nat) (c : HostCmd) : Nat :=
  let n := c.arg 0x28 4
  if bits (c.arg 0x2F 1) 2 6 ≠ 0 ∨ bits (c.arg 0x30 4) 14 18 ≠ 0 then 0x0001
  else if ¬ s.inWindow fn (tileId (c.arg 0x20 8)) n then 0x0002
  else if n = 0 ∨ 65536 < n ∨ 1 < c.arg 0x2C 1 ∨ 5 < c.arg 0x2D 1 ∨ 5 < c.arg 0x2E 1 then 0x0004
  else 0

/-- Write units of a TILE_WRITE in turn, each with its index and its tile: how many without poison, and the state. -/
def State.writeUnits (s : State) (fn : Nat) (lostFmt : State → Nat → Nat) (one : State → Nat → Nat → List Byte → Bool × State)
    (todo : List (Nat × Nat)) (units : List (Option (List Byte))) : Nat × State :=
  (todo.zip units).foldl (fun (k, s) ((i, id), u) =>
    match u with
    | none => (k, s.writeLostTile fn id (lostFmt s id))
    | some bs =>
      let (ok, s) := one s i id bs
      (k + b2n ok, s)) (0, s)

/-- How a TILE_WRITE ends: its signal, and 0x0003 with the count of tiles written without poison where a read failed. -/
def State.endTileWrite (s : State) (c : HostCmd) : Ran :=
  .ends (if c.lost then 0x0003 else 0x0000) (if c.lost then c.good else c.units) [] (s.tileSignal c)

/-- Whether inputs are one per tile and of the lengths wanted. -/
def fits (lens : List Nat) (units : List (Option (List Byte))) : Bool :=
  lens.length == units.length && (lens.zip units).all fun (n, u) => (u.map fun b => b.length == n).getD true

/-- R175, R308, R315: the next units of a TILE_WRITE that has started: pages not loaded start their loads and hold it back. -/
def State.tileWriteNext (s : State) (fn : Nat) (len : Nat → Nat) (lostFmt : State → Nat → Nat)
    (one : State → Nat → Nat → List Byte → Bool × State) (units : List (Option (List Byte))) (c : HostCmd) : Ran :=
  let todo := (((List.range (c.arg 0x28 4)).zip c.tiles).drop c.units).take units.length
  let wait := s.unloaded (todo.map (·.2))
  if ¬ fits (todo.map fun x => len x.1) units then .nothing
  else if wait ≠ [] then .goesOn c (s.startLoads wait)
  else
    let (good, s) := s.writeUnits fn lostFmt one todo units
    let c := { c with units := c.units + units.length, good := c.good + good, lost := c.lost || units.any fun u => u.isNone }
    if c.units < c.arg 0x28 4 then .goesOn c s else s.endTileWrite c

/-- TILE_WRITE in Mode 0 (R308). -/
def tileWriteRawRun (fn : Nat) (units : List (Option (List Byte))) (c : HostCmd) (s : State) : Ran :=
  let code := s.tileWriteCode fn c
  let go (c : HostCmd) : Ran :=
    s.tileWriteNext fn (fun i => rawLen (nth c.widths i 0)) (fun s id => classFmt ((s.widthAt id).getD 0))
      (fun s i => s.writeRawTile (bit (c.arg 0x2F 1) 1) (nth c.widths i 0)) units c
  if c.arg 0x2C 1 = 1 then .nothing
  else if c.began then go c
  else if code ≠ 0 then endWith s code
  else
    let widths := s.widthsOf c
    if c.hostBytes ≠ (widths.map rawLen).foldl (· + ·) 0 then endWith s 0x0004 else go { c with widths := widths }

/-- TILE_WRITE, raw. -/
def execTileWriteRaw (fn : FnIx) (q : QueueIx) (n : Nat) (units : List (Option (List Byte))) (s : State) :
    Host.Outcome State Fault Refusal :=
  .next (s.runCommand fn q n 0x10 (fun _ => true) (tileWriteRawRun fn units))

/-- TILE_WRITE in Mode 1 (R308). -/
def tileWriteConvertRun (fn : Nat) (units : List (Option (List Byte))) (c : HostCmd) (s : State) : Ran :=
  let code := s.tileWriteCode fn c
  let src := Fmt.ofCodeD (c.arg 0x2D 1)
  let dst := Fmt.ofCodeD (c.arg 0x2E 1)
  let auto := bit (c.arg 0x2F 1) 0
  let go (c : HostCmd) : Ran :=
    s.tileWriteNext fn (fun _ => 16384 * src.bytes) (fun _ _ => dst.code)
      (fun s _ id bs => s.hostStore id (fmtClass dst) (convertedTile src dst auto bs)) units c
  if c.arg 0x2C 1 ≠ 1 then .nothing
  else if c.began then go c
  else if code ≠ 0 then endWith s code
  else
    let narrow := dst == .fp32 && c.tiles.any fun id => ((s.widthAt id).map fun w => decide (w < 2)).getD false
    if narrow ∨ c.hostBytes ≠ 16384 * src.bytes * c.arg 0x28 4 then endWith s 0x0004 else go c

/-- TILE_WRITE, convert. -/
def execTileWriteConvert (fn : FnIx) (q : QueueIx) (n : Nat) (units : List (Option (List Byte))) (s : State) :
    Host.Outcome State Fault Refusal :=
  .next (s.runCommand fn q n 0x10 (fun _ => true) (tileWriteConvertRun fn units))

/-- R302, R315: of `units` output units, those before the one whose address the host refuses to translate, and the status. -/
def State.outputUnits (s : State) (fn units : Nat) (refused : Option Nat) : Nat × Nat :=
  match refused with
  | some k => if s.refuses fn (decide (k < units)) then (k, 0x0003) else (units, 0x0000)
  | none => (units, 0x0000)

/-- R309: the bytes that TILE_READ returns for a tile. -/
def State.readTileBytes (s : State) (id : Nat) : List Byte × State :=
  let (t, w, s) := s.readRaw 64 id 0
  (t.sidecarBytes ++ t.dataBytes w, s)

/-- TILE_READ (R309): `refused` is the first tile whose output the host refuses to translate. -/
def tileReadRun (fn : Nat) (refused : Option Nat) (c : HostCmd) (s : State) : Ran :=
  let n := c.arg 0x28 4
  let ids := c.tiles
  let wait := s.unloaded ids
  if ¬ c.began ∧ ¬ s.inWindow fn (tileId (c.arg 0x20 8)) n then endWith s 0x0002
  else if ¬ c.began ∧ c.hostBytes ≠ ((s.widthsOf c).map rawLen).foldl (· + ·) 0 then endWith s 0x0004
  else if wait ≠ [] then .goesOn c (s.startLoads wait)
  else
    let (k, status) := s.outputUnits fn n refused
    let (dat, s) := (ids.take k).foldl (fun ((dat, s) : List Byte × State) id =>
      let (b, s) := s.readTileBytes id
      (dat ++ b, s)) ([], s)
    .ends status k dat s

/-- TILE_READ. -/
def execTileRead (fn : FnIx) (q : QueueIx) (r : OutputRun) (s : State) : Host.Outcome State Fault Refusal :=
  .next (s.runCommand fn q r.n 0x11 (fun _ => false) (tileReadRun fn r.refused))

/-- LoadStatus code 0x01 or 0x02 of a header, `bytes` being the number of bytes supplied (R48, R310); 0 where it passes. -/
def headerCode (bs : List Byte) (bytes : Nat) : Nat :=
  if bytes < 0x40 ∨ leField bs 0 4 ≠ 0x5354434A ∨ leField bs 4 2 ≠ 1 ∨ leField bs 0x28 4 = 0
      ∨ leField bs 0x18 8 ≠ 0x5040 + 16 * leField bs 0x10 8 ∨ leField bs 0x18 8 ≠ bytes then 0x01
  else if bytes > 2 ^ 30 then 0x02
  else 0x00

/-- TABLE_LOAD (R48, R310): `image` is the header alone where the header fails, else the whole image. -/
def tableLoadRun (fn : Nat) (image : Option (List Byte)) (c : HostCmd) (s : State) : Ran :=
  match image with
  | none => .ends 0x0003 0 [] (s.bump64 P.hostReadErrors fn 1)
  | some bs =>
    let code := headerCode bs c.hostBytes
    if bs.length ≠ min c.hostBytes 0x40 ∧ bs.length ≠ c.hostBytes then .nothing
    else if code ≠ 0 then .ends 0x0000 (loadWord code 0 0 0) [] (s.setVal P.loadStatus (loadWord code 0 0 0))
    else if bs.length ≠ c.hostBytes then .nothing
    else
      let s := s.loadSet bs
      .ends 0x0000 (s.val P.loadStatus) [] s

/-- TABLE_LOAD. -/
def execTableLoad (fn : FnIx) (q : QueueIx) (n : Nat) (image : Option (List Byte)) (s : State) :
    Host.Outcome State Fault Refusal :=
  .next (s.runCommand fn q n 0x20 (fun _ => true) (tableLoadRun fn image))

/-- STEP_ABORT (R46, R310). -/
def stepAbortRun (c : HostCmd) (s : State) : Ran :=
  if s.seq.opened ∧ c.arg 0x20 8 = s.step then .ends 0x0000 0 [] s.abortOpen else .ends 0x0000 1 [] s

/-- STEP_ABORT. -/
def execStepAbort (fn : FnIx) (q : QueueIx) (n : Nat) (s : State) : Host.Outcome State Fault Refusal :=
  .next (s.runCommand fn q n 0x21 (fun _ => true) stepAbortRun)

/-- R310: `c` with `k` more units done, of `n`: it ends, or goes on. -/
def HostCmd.advance (c : HostCmd) (k n : Nat) (s : State) : Ran :=
  let c := { c with units := c.units + k }
  if c.units < n then .goesOn c s else .ends 0x0000 c.units [] s

/-- R310, R315: records are staged in order up to the first that fails its check or could not be read; `k` have been staged so
far. -/
def State.stageRecords (fn : Nat) : List (Option (List Byte)) → Nat → State → Option (Nat × Nat) × State
  | [], _, s => (none, s)
  | none :: _, k, s => (some (0x0003, k), s.bump64 P.hostReadErrors fn 1)
  | some bs :: us, k, s =>
    let p := leField bs 0 8
    let w := leField bs 16 16
    let bad := s.checkEntry p w ≠ 0
    let s := s.stageEntry p w
    if bad then (some (0x0006, k), s) else State.stageRecords fn us (k + 1) s

/-- TIERMAP_WRITE (R169, R310). -/
def tiermapWriteRun (fn : Nat) (records : List (Option (List Byte))) (c : HostCmd) (s : State) : Ran :=
  let len := if c.inline then c.inlineBytes else c.hostBytes
  let us := if c.inline then (chunks 32 3 (slice c.bytes 0x20 len)).map some else records
  if len = 0 ∨ len % 32 ≠ 0 ∨ (c.inline ∧ 96 < len) then endWith s 0x0004
  else if len / 32 < c.units + us.length ∨ ¬ fits (us.map fun _ => 32) us then .nothing
  else
    match State.stageRecords fn us c.units s with
    | (some (status, k), s) => .ends status k [] s
    | (none, s) => c.advance us.length (len / 32) s

/-- TIERMAP_WRITE. -/
def execTiermapWrite (fn : FnIx) (q : QueueIx) (n : Nat) (records : List (Option (List Byte))) (s : State) :
    Host.Outcome State Fault Refusal :=
  .next (s.runCommand fn q n 0x28 (fun _ => true) (tiermapWriteRun fn records))

/-- TIERMAP_READ (R310): `refused` is the first entry whose output the host refuses to translate. -/
def tiermapReadRun (fn : Nat) (refused : Option Nat) (c : HostCmd) (s : State) : Ran :=
  let first := c.arg 0x20 8
  let n := c.arg 0x28 4
  if 2 ^ 34 < first + n ∨ c.hostBytes ≠ 16 * n then endWith s 0x0004
  else
    let (k, status) := s.outputUnits fn n refused
    .ends status k ((List.range k).flatMap fun i => leBytes 16 (s.page (first + i))) s

/-- TIERMAP_READ. -/
def execTiermapRead (fn : FnIx) (q : QueueIx) (r : OutputRun) (s : State) : Host.Outcome State Fault Refusal :=
  .next (s.runCommand fn q r.n 0x29 (fun _ => false) (tiermapReadRun fn r.refused))

/-- Bytes of a moment record (Table 7-2). -/
def momentBytes : Nat := 33792

/-- Status 0x0004 or 0x0005 of STATE_WRITE and STATE_READ, or 0. -/
def State.stateCode (s : State) (c : HostCmd) : Nat :=
  if 7 < c.arg 0x20 1 ∨ s.val P.momentRecords < c.arg 0x24 4 + c.arg 0x28 4 ∨ c.hostBytes ≠ momentBytes * c.arg 0x28 4 then 0x0004
  else if s.seq.opened then 0x0005
  else 0

/-- R310, R315: moment records are written in order up to the first that could not be read; `k` have been written so far. -/
def State.writeRecords (fn bd first : Nat) : List (Option (List Byte)) → Nat → State → Option Nat × State
  | [], _, s => (none, s)
  | none :: _, k, s => (some k, s.bump64 P.hostReadErrors fn 1)
  | some bs :: us, k, s => State.writeRecords fn bd first us (k + 1) (s.putMoments bd (first + k) (Moments.ofBytes bs))

/-- STATE_WRITE (R310): whether a step is open is looked at as it starts (assumption log 101). -/
def stateWriteRun (fn : Nat) (records : List (Option (List Byte))) (c : HostCmd) (s : State) : Ran :=
  let code := s.stateCode c
  let n := c.arg 0x28 4
  if ¬ c.began ∧ code ≠ 0 then endWith s code
  else if n < c.units + records.length ∨ ¬ fits (records.map fun _ => momentBytes) records then .nothing
  else
    match State.writeRecords fn (c.arg 0x20 1) (c.arg 0x24 4) records c.units s with
    | (some k, s) => .ends 0x0003 k [] s
    | (none, s) => c.advance records.length n s

/-- STATE_WRITE. -/
def execStateWrite (fn : FnIx) (q : QueueIx) (n : Nat) (records : List (Option (List Byte))) (s : State) :
    Host.Outcome State Fault Refusal :=
  .next (s.runCommand fn q n 0x30 (fun _ => true) (stateWriteRun fn records))

/-- STATE_READ (R310): `refused` is the first record whose output the host refuses to translate. -/
def stateReadRun (fn : Nat) (refused : Option Nat) (c : HostCmd) (s : State) : Ran :=
  let code := s.stateCode c
  if code ≠ 0 then endWith s code
  else
    let (k, status) := s.outputUnits fn (c.arg 0x28 4) refused
    .ends status k ((List.range k).flatMap fun i => (s.moments (c.arg 0x20 1) (c.arg 0x24 4 + i)).bytes) s

/-- STATE_READ. -/
def execStateRead (fn : FnIx) (q : QueueIx) (r : OutputRun) (s : State) : Host.Outcome State Fault Refusal :=
  .next (s.runCommand fn q r.n 0x31 (fun _ => false) (stateReadRun fn r.refused))

/-- MODULE_RESET (R298, R310): an orderly reset with ResetCause 0x04; it writes no completion. -/
def moduleResetStep (s : State) (fn q n : Nat) : State :=
  match s.startable fn q n with
  | none => s
  | some c =>
    if c.opcode ≠ 0x38 then s
    else if c.malformed then s.commandDone fn q c 0x0001 0 []
    else if fn ≠ 0 then s.commandDone fn q c 0x0002 0 []
    else if c.arg 0x20 4 ≠ 0x54535752 then s.commandDone fn q c 0x0004 0 []
    else s.orderlyReset 0x04 0

/-- MODULE_RESET. -/
def execModuleReset (fn : FnIx) (q : QueueIx) (n : Nat) (s : State) : Host.Outcome State Fault Refusal :=
  .next (moduleResetStep s fn q n)

end Sys2Proof.Machine
end

