-- ==== Sys2Proof/Machine/Loads.lean ====
section
/-! DEFINITION. The end of a Demand load (R175, R197): the page is loaded, and the entries and writes that waited for it go on. -/

namespace Sys2Proof.Machine

/-- What the entry of a flight does in its unit once its operands are there; entries that touch no source tile never wait. -/
def unitAct (e : Nat) : State → Ctx → Issued :=
  match enOpcode e with
  | 0x20 => vecTileAct 0
  | 0x21 => vecTileAct 1
  | 0x22 => vecTileAct 2
  | 0x23 => vtransAct
  | 0x24 => vldAct
  | 0x25 => vstAct
  | 0x28 => redAct
  | 0x30 => moveAct
  | 0x31 => gatherAct
  | 0x32 => scatterAct
  | 0x40 => nsendAct
  | _ => plainAct

/-- R36: an entry that waited for Demand loads starts in its unit, as at its issue. An MMA or a COLL that has its place in its unit
reads its operands. -/
def State.startFlight (s : State) (sl : Nat) (f : Flight) : State :=
  let a := enM f.entry 0 1
  if enOpcode f.entry = 0x10 then
    match (s.array sl a).mmas.find? (fun j => j.flight == f.id) with
    | none => s
    | some j =>
      let (j, s) := s.fillMma sl { j with late := s.clock.now - j.issued }
      let x := s.array sl a
      s.setArray sl a { x with mmas := x.mmas.map fun k => if k.flight = j.flight then j else k }
  else if enOpcode f.entry = 0x41 then
    match s.net.colls.find? (fun c => c.slot == sl && c.flight == f.id) with
    | none => s
    | some c =>
      let (src, s) := s.collSources sl (tileOperand f.x (enA f.entry)) (enB f.entry)
      (s.setColl { c with source := src, cold := false }).feedColl c.key
  else
    let r := unitAct f.entry s
      { sl := sl, st := f.stream, index := f.index, entry := f.entry, x := f.x, flight := f.id, now := s.clock.now }
    let d := r.state.die sl
    r.state.setDie sl { d with flight := d.flight.map fun g =>
      if g.id = f.id then { g with due := r.due, effects := r.effects, kind := r.kind, ready := r.ready } else g }

/-- Page `p` is loaded: an entry of slot `sl` that waits for no other page starts. -/
def State.flightsLoaded (s : State) (p sl : Nat) : State :=
  let waiting := (s.die sl).flight.filter fun f => f.cold.contains p
  let d := s.die sl
  let s := s.setDie sl { d with flight := d.flight.map fun f => { f with cold := f.cold.filter (· != p) } }
  waiting.foldl (fun s f => if f.cold.all (· == p) then s.startFlight sl f else s) s

/-- The slots of which an entry waits for page `p`. -/
def State.waitingSlots (s : State) (p : Nat) : List Nat :=
  (List.range 64).filter fun sl => (s.die sl).flight.any fun f => f.cold.contains p

/-- R175: page `p` is loaded: the writes that waited for it proceed, then the entries. -/
def State.pageLoaded (s : State) (p : Nat) : State :=
  (s.waitingSlots p).foldl (fun s sl => s.flightsLoaded p sl) (s.releaseWrites p)

/-- DEMAND_LOAD_COMPLETE (R175, R197): the whole page is loaded. A source page that is itself not loaded is loaded first. -/
def demandLoadStep (s : State) (p : Nat) : State :=
  let e := s.page p
  if ¬ s.mem.demand.contains p ∨ eKind e ≠ 1 then s
  else
    let source := s.sourcePage (eWidth e) (eBacking e)
    match source.filter fun q => !eLoaded (s.page q) && q != p with
    | some q => s.startLoads [q]
    | none =>
      let (bad, s) := (List.range 64).foldl (fun (acc : Bool × State) k =>
        let (b, s) := acc.2.loadTile p k
        (acc.1 || b, s)) (false, s)
      let s := if bad then s.condition 4 else s
      let s := { s with mem := { s.mem with demand := s.mem.demand.filter (· != p) } }
      ((s.putPage p (setBits (s.page p) 20 1 1)).bump64 P.demandLoads 0 1).pageLoaded p

/-- DEMAND_LOAD_COMPLETE. -/
def execDemandLoadComplete (page : Nat) (s : State) : Host.Outcome State Fault Refusal := .next (demandLoadStep s page)

end Sys2Proof.Machine
end

