-- ==== Sys2Proof/Machine/Riffle.lean ====
section
/-! DEFINITION. The riffle checker's verdicts: the reference computation (R273), the comparisons (R274), the vote (R275) and
its effects (R276 to R278, R359, R361). -/

namespace Sys2Proof.Machine

/-- The reference of one element (R273): R, the sum of magnitudes Ap and the sum of truncation terms T. -/
structure RefElem where
  r  : Nat
  ap : Val
  t  : Val
  deriving DecidableEq, Repr

/-- R273: add MMA `j` to the reference of element (i, l). -/
def refAdd (cap : List Nat × List Nat) (i l : Nat) (x : RefElem) (j : MmaJob) : RefElem :=
  let sa := nth j.sa i 0x7F
  let sb := nth j.sb l 0x7F
  let d := rebase cap j i l
  let r := (passSumIn true j.fmtA j.fmtB sa sb (nth j.a i []) (nth j.b l [])).val.shift d
  let wide := j.fmtA == .bf16 || j.fmtB == .bf16
  let tau : Val := match (if wide then passQmax j.fmtA j.fmtB sa sb (nth j.a i []) (nth j.b l []) else none) with
    | some q => .fin false 1 1 (q - 54 + d)
    | none => .zero false
  { r := (accumulate x.r r false 0).1
    ap := match r with
      | .fin _ _ _ _ => (x.ap.add r.abs).add tau
      | _ => x.ap
    t := x.t.add tau }

/-- The scales that a check's set captured (R79). -/
def Check.scales (c : Check) : List Nat × List Nat := c.set.captured.getD (List.replicate 128 0x7F, List.replicate 128 0x7F)

/-- R273: the reference of element (i, l) of a check. -/
def Check.refElem (c : Check) (i l : Nat) : RefElem :=
  c.mmas.foldl (refAdd c.scales i l) { r := 0, ap := .zero false, t := .zero false }

/-- The reference element that an array computed: another value where it erred. -/
def refWith (upsets : List Upset) (i l r : Nat) : Nat :=
  match upsets.find? (fun u => u.row.val == i && u.col.val == l) with
  | some u => u.value.toNat
  | none => r

/-- An FP32 operation rounded toward +infinity. -/
def upAdd (a b : Nat) : Nat := toF32Up ((f32 a).add (f32 b))
/-- The same for a product. -/
def upMul (a b : Nat) : Nat := toF32Up ((f32 a).mul (f32 b))

/-- x^n by binary exponentiation from the most significant bit (R274), `k` bits left. -/
def upPow (x n : Nat) : Nat → Nat → Nat
  | 0, acc => acc
  | k + 1, acc =>
    let sq := upMul acc acc
    upPow x n k (if bit n k then upMul sq x else sq)

/-- R274: the bound B. -/
def riffleBound (n : Nat) (ap t : Val) (half : Bool) : Nat :=
  let p2 (k : Int) : Nat := toF32Up (.fin false 1 1 k)
  let uR := p2 (-24)
  let eR := p2 (-149)
  let uP := if half then p2 (-7) else uR
  let eP := if half then p2 (-133) else eR
  let one := p2 0
  let g := upMul (upAdd one uP) (upAdd one uR)
  let g := upPow g n (Nat.log2 n) g
  let s := upMul (upAdd uP uR) (toF32Up ap)
  let s := upAdd (upAdd s eP) eR
  let s := upMul (upMul s (toF32Up (Val.ofInt n))) g
  upAdd s (toF32Up t)

/-- R274: whether primary element `p` agrees with the reference value `r`. -/
def agrees (half exact : Bool) (n p r : Nat) (x : RefElem) : Bool :=
  if exact then p == r
  else
    let f : Fmt := if half then .bf16 else .fp32
    let b := f32 (riffleBound n x.ap x.t half)
    let top := decodeElem f f.maxFin
    let near (v : Val) : Bool := decide (0 ≤ (v.abs.add b).cmp top)
    match decodeElem f p, f32 r with
    | .nan, .nan => true
    | .nan, _ => false
    | _, .nan => false
    | .inf a, .inf c => a == c
    | .inf a, v => a == v.neg? && near v
    | v, .inf a => a == v.neg? && near v
    | v, w => decide ((v.add w.negate).abs.cmp b ≤ 0)

/-- Whether a lane of the set is exempt (R274). -/
def Check.exempt (c : Check) (l : Nat) : Bool := Nat.land (Sparse.get zeros c.set.lanes l) flagOVF != 0

/-- Whether a check compares bit for bit: a wide set that no BF16 operand entered. -/
def Check.bitExact (c : Check) : Bool := !c.set.half && c.mmas.all fun j => j.fmtA != .bf16 && j.fmtB != .bf16

/-- An element of a tile of elements `w` bytes wide replaced. -/
def Tile.putElem (t : Tile) (w i l v : Nat) : Tile :=
  { t with rows := Sparse.put zeros t.rows i (setBits (t.row i) (8 * w * l) (8 * w) v) }

/-- The row scale of row `i` replaced. -/
def Tile.putScale (t : Tile) (i v : Nat) : Tile := { t with scales := Sparse.put zeros t.scales i v }

/-- R101 to R104: the tile that a sound array's conversion forms. -/
def Check.soundTile (c : Check) : Tile :=
  ({ job := { flight := c.flight, ord := 0, issued := 0, dest := 0, conv := c.conv, convPoi := c.convPoi
              writer := { source := 0 } }
     swap := 0, set := c.set, freed := true } : Conv).tile

/-- The tile that an array's conversion forms, its errors counted. -/
def Check.converted (c : Check) (e : ArrayErrors) : Tile :=
  let w := c.conv.fmtOut.bytes
  let t := e.elems.foldl (fun t u => t.putElem w u.row u.col (u.value.toNat % 2 ^ (8 * w))) c.soundTile
  let t := e.scales.foldl (fun t q => t.putScale q.1 q.2.toNat) t
  match e.flags with
  | some f => { t with flags := f.toNat }
  | none => t

/-- R275: whether two arrays formed the same conversion. -/
def Check.sameConv (c : Check) (a b : ArrayErrors) : Bool :=
  let t := c.converted a
  let u := c.converted b
  t.flags == u.flags && (List.range 128).all fun i => t.row i == u.row i && t.scale i == u.scale i

/-- R274: the first element that differs between the drained tile and the one an array converted. -/
def Check.convFail (c : Check) (e : ArrayErrors) : Option (Nat × Nat) :=
  match c.tile with
  | none => none
  | some t =>
    let u := c.converted e
    let w := c.conv.fmtOut.bytes
    match (List.range 128).find? (fun i => t.row i != u.row i || t.scale i != u.scale i) with
    | some i =>
      some (i, ((List.range 128).find? fun l => bits (t.row i) (8 * w * l) (8 * w) != bits (u.row i) (8 * w * l) (8 * w)).getD 0)
    | none => if t.flags = u.flags then none else some (0, 0)

/-- R274: the first element of the accumulation that disagrees with the reference an array computed. -/
def Check.accFail (c : Check) (upsets : List Upset) : Option (Nat × Nat) :=
  (List.range 128).findSome? fun i => ((List.range 128).find? fun l =>
    !c.exempt l &&
      (let x := c.refElem i l
       !agrees c.set.half c.bitExact c.mmas.length (Sparse.get zeros c.set.acc (128 * i + l)) (refWith upsets i l x.r) x)).map
    fun l => (i, l)

/-- The lower of two elements, by row and then column. -/
def firstOf : Option (Nat × Nat) → Option (Nat × Nat) → Option (Nat × Nat)
  | some a, some b => if 128 * a.1 + a.2 ≤ 128 * b.1 + b.2 then some a else some b
  | some a, none => some a
  | none, b => b

/-- R274: the first element that failed a comparison of the primary with an array's results. -/
def Check.fails (c : Check) (e : ArrayErrors) : Option (Nat × Nat) := firstOf (c.accFail e.refs) (c.convFail e)

/-- R275: whether two arrays computed the same reference set. -/
def Check.sameRef (c : Check) (a b : List Upset) : Bool :=
  (List.range 128).all fun i => (List.range 128).all fun l =>
    let r := (c.refElem i l).r
    refWith a i l r == refWith b i l r

/-- R275: whether two arrays have the same reference set and the same conversion. -/
def Check.same (c : Check) (a b : ArrayErrors) : Bool := c.sameRef a.refs b.refs && c.sameConv a b

/-- R278: the pattern hash of element (i, l) over all MMAs of a check. -/
def Check.hash (c : Check) (i l : Nat) : Nat :=
  c.mmas.foldl (fun h j =>
    crc64From h (leBytes (128 * j.fmtA.bytes) (packRow j.fmtA.bytes (nth j.a i []))
      ++ leBytes (128 * j.fmtB.bytes) (packRow j.fmtB.bytes (nth j.b l []))
      ++ leBytes 1 (nth j.sa i 0) ++ leBytes 1 (nth j.sb l 0))) 0

/-- A check has its verdict (Table 12-1): 0 PASS, 1 PRIMARY, 2 CHECKER, 3 SPLIT, 4 DROPPED, 5 LAPSED. -/
def State.endCheck (s : State) (c : Check) (verdict : Nat) : State :=
  { s with riffle := { s.riffle with checks := s.riffle.checks.filter fun k => k.id != c.id } }.bump64 P.verdicts verdict 1

/-- Replay pool of a base die, in bytes (R359). -/
def poolLimit : Nat := 16 * 2 ^ 20

/-- The newest entries of a list that fit in a limit. -/
def fitPool : Nat → List PoolEntry → List PoolEntry
  | _, [] => []
  | room, e :: es => if e.check.bytes ≤ room then e :: fitPool (room - e.check.bytes) es else []

/-- R359: a capture whose verdict is PASS enters the pool of its base die, newest first. -/
def State.poolAdd (s : State) (c : Check) : State :=
  let b := c.slot / 8
  if c.bytes > poolLimit then s
  else
    let mine := s.panel.pool.filter fun e => e.base == b
    let rest := s.panel.pool.filter fun e => e.base != b
    { s with panel := { s.panel with
      pool := fitPool poolLimit ({ base := b, accumSeed := c.accumSeed, check := c } :: mine) ++ rest } }

/-- R276, Table 12-2: the kind 5 record of a check, offered to the latch of array `ix`. -/
def State.offerBlame (s : State) (c : Check) (ix pos product i l : Nat) : State :=
  let (sA, sB) := c.scales
  s.offerLatch (ix / 2) (ix % 2)
    { kind := 5, slot := ix / 2, array := ix % 2, stream := c.stream, row := i, col := l, product := product
      position := pos % 9, ordinal := c.mmas.length, opA := 0, opB := 0, scaleA := nth sA i 0, scaleB := nth sB l 0
      entry := c.entry, step := c.stamp, hash := c.hash i l }

/-- R361, R356: a blame of position `p`: counted, a screen of class 1 asked for, and at the limit its retirement. -/
def State.blame (s : State) (p : Nat) : State :=
  let r := s.screenRec p
  let n := min (bits r 8 8 + 1) 0xFF
  let s := s.setScreenRec p (setBits r 8 8 n)
  let s := { s with panel := { s.panel with class1 := s.panel.class1 ++ [p] } }
  if n ≥ s.val P.blameRetire ∧ s.posState p ≠ 3 ∧ ¬ s.seq.changeReq.contains (1, p) then
    { s with seq := { s.seq with changeReq := s.seq.changeReq ++ [(1, p)] } }
  else s

/-- R277: SUSPECT for step `n`. -/
def State.suspect (s : State) (n : Nat) : State :=
  if n = s.step ∧ s.seq.opened ∧ ¬ s.seq.wordTaken then s.condition 8
  else if s.undecided n then
    let s := s.modStep n fun r => { r with suspect := true }
    let late := decide (n < s.step) && s.seq.opened && !s.seq.wordTaken
    let s := s.condition 8
    if late then s.bump64 P.lateFlags 0 1 else s
  else s

/-- R276: the event of a verdict. -/
def State.verdictEvent (s : State) (c : Check) (pos verdict : Nat) : State := s.raiseEvent 7 0x0F (srcOf 7 pos) verdict c.stamp

/-- R271: the capture buffer reports an uncorrectable error in the capture of a check: verdict DROPPED, reason Capture. -/
def State.loseCapture (s : State) (c : Check) : State := (s.endCheck c 4).bump64 P.droppedReasons 3 1

/-- RIFFLE_CHECK_COMPLETE (R271, R273, R274): the checker has computed; a check that passes has verdict PASS, any other goes to
the arbiter. `lost` tells that the capture buffer reported an uncorrectable error. -/
def checkCompleteStep (s : State) (id : Nat) (errs : ArrayErrors) (lost : Bool) : State :=
  match s.riffle.checks.find? (fun c => c.id == id && c.stage == 1) with
  | none => s
  | some c =>
    if lost then s.loseCapture c else
    let exempt := 128 * ((List.range 128).filter c.exempt).length
    let s := s.bump64 P.riffleExempt 0 exempt
    if (c.fails errs).isNone then (s.endCheck c 0).poolAdd c
    else
      { s with riffle := { s.riffle with checks := s.riffle.checks.map fun k =>
          if k.id = id then { k with stage := 2, errs := errs } else k } }

/-- RIFFLE_CHECK_COMPLETE. -/
def execRiffleCheckComplete (check : Nat) (out : CheckOutcome) (s : State) : Host.Outcome State Fault Refusal :=
  .next (checkCompleteStep s check out.errs out.lost)

/-- RIFFLE_ARBITER_COMPLETE (R275 to R277, Table 12-1): the verdict and its effects. -/
def arbiterStep (s : State) (id : Nat) (errs : ArrayErrors) (lost : Bool) : State :=
  match s.riffle.checks.find? (fun c => c.id == id && c.stage == 2) with
  | none => s
  | some c =>
    if lost then s.loseCapture c else
    let primary := 2 * c.slot + c.array
    let ckPos := c.checkerPos
    let fail := c.fails errs
    let same := c.same errs c.errs
    match fail, same with
    | none, _ =>
      let s := (s.endCheck c 2).bump32 P.checkerBlames c.checker 1
      let (i, l) := (c.fails c.errs).getD (0, 0)
      let s := s.offerBlame c c.checker ckPos 0xFE i l
      let s := { s with riffle := { s.riffle with
        excluded := if s.riffle.excluded.contains c.checker then s.riffle.excluded else c.checker :: s.riffle.excluded } }
      (s.blame ckPos).verdictEvent c ckPos 2
    | some (i, l), true =>
      let s := (s.endCheck c 1).bump32 P.primaryBlames primary 1
      let s := s.offerBlame c primary c.position 0xFF i l
      let s := { s with riffle := { s.riffle with blames := s.riffle.blames ++ [(c.stamp, c.slot, c.position)] } }
      ((s.blame c.position).suspect c.stamp).verdictEvent c c.position 1
    | some _, false =>
      let s := (s.endCheck c 3).bump64 P.splits 0 1
      let s := { s with panel := { s.panel with class1 := s.panel.class1 ++ [c.position, ckPos] } }
      (s.suspect c.stamp).verdictEvent c c.position 3

/-- RIFFLE_ARBITER_COMPLETE. -/
def execRiffleArbiterComplete (check : Nat) (out : CheckOutcome) (s : State) : Host.Outcome State Fault Refusal :=
  .next (arbiterStep s check out.errs out.lost)

/-- When condition 1 of R254 came to hold for a step, decided ones counted. -/
def State.metTime (s : State) (n : Nat) : Option Nat :=
  match (s.stepRec n).bind (·.metAt) with
  | some t => some t
  | none => (s.riffle.met.find? fun m => m.1 == n).map (·.2)

/-- RIFFLE_LAPSED (R277): RiffleDeadline has passed since condition 1 of R254 held for the check's step. -/
def lapsedStep (s : State) (id : Nat) : State :=
  match s.riffle.checks.find? (fun c => c.id == id) with
  | none => s
  | some c =>
    match s.metTime c.stamp with
    | none => s
    | some t => (s.reach (t + s.val P.riffleDeadline * usRoot)).endCheck c 5

/-- RIFFLE_LAPSED. -/
def execRiffleLapsed (check : Nat) (s : State) : Host.Outcome State Fault Refusal := .next (lapsedStep s check)

end Sys2Proof.Machine
end

