-- ==== Sys2Proof/Machine/Dispatch.lean ====
section
/-! DEFINITION. The meaning of every command, one arm per constructor. -/

namespace Sys2Proof.Machine

/-- The effect of a command on everything but the queue. -/
def exec (i : Instr) (s : State) : Host.Outcome State Fault Refusal :=
  match i with
  | .nop sl st => Sys2Proof.Machine.execNop sl st s
  | .endEntry sl st => Sys2Proof.Machine.execEnd sl st s
  | .base sl st => Sys2Proof.Machine.execBase sl st s
  | .stride sl st => Sys2Proof.Machine.execStride sl st s
  | .loop sl st => Sys2Proof.Machine.execLoop sl st s
  | .mode sl st => Sys2Proof.Machine.execMode sl st s
  | .mma sl st => Sys2Proof.Machine.execMma sl st s
  | .drain sl st => Sys2Proof.Machine.execDrain sl st s
  | .vop sl st => Sys2Proof.Machine.execVop sl st s
  | .vrow sl st => Sys2Proof.Machine.execVrow sl st s
  | .vcol sl st => Sys2Proof.Machine.execVcol sl st s
  | .vtrans sl st => Sys2Proof.Machine.execVtrans sl st s
  | .vld sl st => Sys2Proof.Machine.execVld sl st s
  | .vst sl st => Sys2Proof.Machine.execVst sl st s
  | .vreg sl st => Sys2Proof.Machine.execVreg sl st s
  | .vregBcast sl st => Sys2Proof.Machine.execVregBcast sl st s
  | .vregSwaph sl st => Sys2Proof.Machine.execVregSwaph sl st s
  | .post sl st => Sys2Proof.Machine.execPost sl st s
  | .vimm sl st => Sys2Proof.Machine.execVimm sl st s
  | .red sl st => Sys2Proof.Machine.execRed sl st s
  | .move sl st => Sys2Proof.Machine.execMove sl st s
  | .gather sl st => Sys2Proof.Machine.execGather sl st s
  | .scatter sl st => Sys2Proof.Machine.execScatter sl st s
  | .rsig sl st => Sys2Proof.Machine.execRsig sl st s
  | .nsend sl st => Sys2Proof.Machine.execNsend sl st s
  | .coll sl st => Sys2Proof.Machine.execColl sl st s
  | .headDue sl st => Sys2Proof.Machine.execHeadDue sl st s
  | .passEnter sl a => Sys2Proof.Machine.execPassEnter sl a s
  | .passSumAdd sl a => Sys2Proof.Machine.execPassSumAdd sl a s
  | .halfConversion sl a => Sys2Proof.Machine.execHalfConversion sl a s
  | .drainSwap sl a => Sys2Proof.Machine.execDrainSwap sl a s
  | .conversionEnd sl a => Sys2Proof.Machine.execConversionEnd sl a s
  | .entryComplete sl id => Sys2Proof.Machine.execEntryComplete sl id s
  | .remoteTokenRaise sl t count step => Sys2Proof.Machine.execRemoteTokenRaise sl t count step s
  | .slotStall sl => Sys2Proof.Machine.execSlotStall sl s
  | .stepOpen => Sys2Proof.Machine.execStepOpen s
  | .slotChange bd => Sys2Proof.Machine.execSlotChange bd s
  | .slotCopyComplete bd unreadable => Sys2Proof.Machine.execSlotCopyComplete bd unreadable s
  | .baseDieOutOfService bd => Sys2Proof.Machine.execBaseDieOutOfService bd s
  | .collCompletionReport g step => Sys2Proof.Machine.execCollCompletionReport g step s
  | .updateStart bd => Sys2Proof.Machine.execUpdateStart bd s
  | .shardWritten bd wrong => Sys2Proof.Machine.execShardWritten bd wrong s
  | .updateInterrupt bd => Sys2Proof.Machine.execUpdateInterrupt bd s
  | .shardTriggerStall sh => Sys2Proof.Machine.execShardTriggerStall sh s
  | .contributedWordTake sl id => Sys2Proof.Machine.execContributedWordTake sl id s
  | .commitRecordFormed => Sys2Proof.Machine.execCommitRecordFormed s
  | .commitStall => Sys2Proof.Machine.execCommitStall s
  | .checkpointComplete durable => Sys2Proof.Machine.execCheckpointComplete durable s
  | .digestRecord ns => Sys2Proof.Machine.execDigestRecord ns s
  | .commitRecord ns => Sys2Proof.Machine.execCommitRecord ns s
  | .recheck sh => Sys2Proof.Machine.execRecheck sh s
  | .recheckRecord ns => Sys2Proof.Machine.execRecheckRecord ns s
  | .copyTileRecord ns => Sys2Proof.Machine.execCopyTileRecord ns s
  | .copyMomentsRecord ns => Sys2Proof.Machine.execCopyMomentsRecord ns s
  | .stopRecord ns => Sys2Proof.Machine.execStopRecord ns s
  | .riffleCheckComplete check out => Sys2Proof.Machine.execRiffleCheckComplete check out s
  | .riffleArbiterComplete check out => Sys2Proof.Machine.execRiffleArbiterComplete check out s
  | .riffleLapsed check => Sys2Proof.Machine.execRiffleLapsed check s
  | .weirSample x => Sys2Proof.Machine.execWeirSample x s
  | .powerGearRise => Sys2Proof.Machine.execPowerGearRise s
  | .hardLimitPersist sensor => Sys2Proof.Machine.execHardLimitPersist sensor s
  | .coolantOutOfRange inlet => Sys2Proof.Machine.execCoolantOutOfRange inlet s
  | .supplyDip v => Sys2Proof.Machine.execSupplyDip v s
  | .supplyRecovered => Sys2Proof.Machine.execSupplyRecovered s
  | .resetLevelCrossing v => Sys2Proof.Machine.execResetLevelCrossing v s
  | .enableOpen => Sys2Proof.Machine.execEnableOpen s
  | .enableMate => Sys2Proof.Machine.execEnableMate s
  | .qualification => Sys2Proof.Machine.execQualification s
  | .panelResetRelease seed => Sys2Proof.Machine.execPanelResetRelease seed s
  | .enterFirmware => Sys2Proof.Machine.execEnterFirmware s
  | .enterPanel t => Sys2Proof.Machine.execEnterPanel t s
  | .enterMemory => Sys2Proof.Machine.execEnterMemory s
  | .enterReady => Sys2Proof.Machine.execEnterReady s
  | .watchdogExpiry => Sys2Proof.Machine.execWatchdogExpiry s
  | .trialBootTimeout => Sys2Proof.Machine.execTrialBootTimeout s
  | .fwimageWrite who offset data => Sys2Proof.Machine.execFwimageWrite who offset data s
  | .fwVerify who => Sys2Proof.Machine.execFwVerify who s
  | .fwInstall who => Sys2Proof.Machine.execFwInstall who s
  | .fwConfirm who => Sys2Proof.Machine.execFwConfirm who s
  | .fwDiscard who => Sys2Proof.Machine.execFwDiscard who s
  | .refLoss => Sys2Proof.Machine.execRefLoss s
  | .refReturn => Sys2Proof.Machine.execRefReturn s
  | .rillFlitCrcError r dir group flits => Sys2Proof.Machine.execRillFlitCrcError r dir group flits s
  | .rillErrorLimit r group => Sys2Proof.Machine.execRillErrorLimit r group s
  | .rillRetrain who r => Sys2Proof.Machine.execRillRetrain who r s
  | .partialReset bd => Sys2Proof.Machine.execPartialReset bd s
  | .rillTrainingAttempt r lower upper took => Sys2Proof.Machine.execRillTrainingAttempt r lower upper took s
  | .dieFailure p => Sys2Proof.Machine.execDieFailure p s
  | .screenStart => Sys2Proof.Machine.execScreenStart s
  | .screenEnd p res => Sys2Proof.Machine.execScreenEnd p res s
  | .blameRetirement p => Sys2Proof.Machine.execBlameRetirement p s
  | .screenRequest who p => Sys2Proof.Machine.execScreenRequest who p s
  | .fieldStateWrite => Sys2Proof.Machine.execFieldStateWrite s
  | .signatureStore => Sys2Proof.Machine.execSignatureStore s
  | .signatureAck who id => Sys2Proof.Machine.execSignatureAck who id s
  | .tiermapEntryWrite who entry => Sys2Proof.Machine.execTiermapEntryWrite who entry s
  | .stepGateWrite who step => Sys2Proof.Machine.execStepGateWrite who step s
  | .migrationComplete page => Sys2Proof.Machine.execMigrationComplete page s
  | .demandLoadComplete page => Sys2Proof.Machine.execDemandLoadComplete page s
  | .retireRequest who granule => Sys2Proof.Machine.execRetireRequest who granule s
  | .patrolScrub e => Sys2Proof.Machine.execPatrolScrub e s
  | .backingReloadComplete tile => Sys2Proof.Machine.execBackingReloadComplete tile s
  | .luWriteComplete lu => Sys2Proof.Machine.execLuWriteComplete lu s
  | .luReadComplete lu r lost => Sys2Proof.Machine.execLuReadComplete lu r lost s
  | .stripeCloseTimeout bd => Sys2Proof.Machine.execStripeCloseTimeout bd s
  | .blockRelocation bd block => Sys2Proof.Machine.execBlockRelocation bd block s
  | .programEraseFailure bd block => Sys2Proof.Machine.execProgramEraseFailure bd block s
  | .wearLevel bd => Sys2Proof.Machine.execWearLevel bd s
  | .readDisturbLimit bd block => Sys2Proof.Machine.execReadDisturbLimit bd block s
  | .flashPatrolScan bd step1 bits => Sys2Proof.Machine.execFlashPatrolScan bd step1 bits s
  | .bwEntryPersist page => Sys2Proof.Machine.execBwEntryPersist page s
  | .portLinkDown p => Sys2Proof.Machine.execPortLinkDown p s
  | .portLinkUp p => Sys2Proof.Machine.execPortLinkUp p s
  | .frameReceive f => Sys2Proof.Machine.execFrameReceive f s
  | .neighborSolicitation c src target => Sys2Proof.Machine.execNeighborSolicitation c src target s
  | .echoRequest c src dest body => Sys2Proof.Machine.execEchoRequest c src dest body s
  | .data p ce pkt => Sys2Proof.Machine.execData p ce pkt s
  | .ack p ce pkt => Sys2Proof.Machine.execAck p ce pkt s
  | .ackDelayTimer ns => Sys2Proof.Machine.execAckDelayTimer ns s
  | .sync p ce pkt => Sys2Proof.Machine.execSync p ce pkt s
  | .syncack p ce pkt => Sys2Proof.Machine.execSyncack p ce pkt s
  | .needsync p ce pkt => Sys2Proof.Machine.execNeedsync p ce pkt s
  | .syncRepeatTimer ns => Sys2Proof.Machine.execSyncRepeatTimer ns s
  | .retxTimeout ns => Sys2Proof.Machine.execRetxTimeout ns s
  | .nsendTile ns => Sys2Proof.Machine.execNsendTile ns s
  | .collContribution ns => Sys2Proof.Machine.execCollContribution ns s
  | .collResult ns => Sys2Proof.Machine.execCollResult ns s
  | .mgmt c ce ends pkt => Sys2Proof.Machine.execMgmt c ce ends pkt s
  | .ptpSync src domain seq twoStep origin correction arrival => Sys2Proof.Machine.execPtpSync src domain seq twoStep origin correction arrival s
  | .ptpFollowUp src domain seq origin correction => Sys2Proof.Machine.execPtpFollowUp src domain seq origin correction s
  | .ptpDelayReq src domain seq arrival => Sys2Proof.Machine.execPtpDelayReq src domain seq arrival s
  | .ptpDelayResp src domain seq received correction => Sys2Proof.Machine.execPtpDelayResp src domain seq received correction s
  | .ptpSyncSend => Sys2Proof.Machine.execPtpSyncSend s
  | .ptpSyncLoss => Sys2Proof.Machine.execPtpSyncLoss s
  | .queueLineReread f q sqTail cqHead => Sys2Proof.Machine.execQueueLineReread f q sqTail cqHead s
  | .commandFetch fn q bytes => Sys2Proof.Machine.execCommandFetch fn q bytes s
  | .hostNop fn q n => Sys2Proof.Machine.execHostNop fn q n s
  | .param fn q r req => Sys2Proof.Machine.execParam fn q r req s
  | .tileWriteRaw fn q n units => Sys2Proof.Machine.execTileWriteRaw fn q n units s
  | .tileWriteConvert fn q n units => Sys2Proof.Machine.execTileWriteConvert fn q n units s
  | .tileRead fn q r => Sys2Proof.Machine.execTileRead fn q r s
  | .tableLoad fn q n image => Sys2Proof.Machine.execTableLoad fn q n image s
  | .stepAbort fn q n => Sys2Proof.Machine.execStepAbort fn q n s
  | .tiermapWrite fn q n records => Sys2Proof.Machine.execTiermapWrite fn q n records s
  | .tiermapRead fn q r => Sys2Proof.Machine.execTiermapRead fn q r s
  | .stateWrite fn q n records => Sys2Proof.Machine.execStateWrite fn q n records s
  | .stateRead fn q r => Sys2Proof.Machine.execStateRead fn q r s
  | .moduleReset fn q n => Sys2Proof.Machine.execModuleReset fn q n s
  | .completionWrite f q n => Sys2Proof.Machine.execCompletionWrite f q n s
  | .queueEnable fn q sqBase cqBase line config sqTail cqHead => Sys2Proof.Machine.execQueueEnable fn q sqBase cqBase line config sqTail cqHead s
  | .queueDisable fn q => Sys2Proof.Machine.execQueueDisable fn q s
  | .functionEnable f epochLine observed => Sys2Proof.Machine.execFunctionEnable f epochLine observed s
  | .functionDisable fn c => Sys2Proof.Machine.execFunctionDisable fn c s
  | .quiesceComplete fn => Sys2Proof.Machine.execQuiesceComplete fn s
  | .hostLinkDown c => Sys2Proof.Machine.execHostLinkDown c s
  | .eventRingEnable who v head => Sys2Proof.Machine.execEventRingEnable who v head s
  | .eventRingDeliver head => Sys2Proof.Machine.execEventRingDeliver head s
  | .eventSinkSend => Sys2Proof.Machine.execEventSinkSend s
  | .snapshotTimeWrite who v => Sys2Proof.Machine.execSnapshotTimeWrite who v s
  | .snapshotStepWrite who v => Sys2Proof.Machine.execSnapshotStepWrite who v s
  | .snapshotInstant => Sys2Proof.Machine.execSnapshotInstant s
  | .snapshotComplete => Sys2Proof.Machine.execSnapshotComplete s
  | .stepFlagRaise who v => Sys2Proof.Machine.execStepFlagRaise who v s
  | .stickyClear who v => Sys2Proof.Machine.execStickyClear who v s
  | .riffleSeedWrite who v => Sys2Proof.Machine.execRiffleSeedWrite who v s
  | .riffleClear who v => Sys2Proof.Machine.execRiffleClear who v s
  | .restoreRequest who step => Sys2Proof.Machine.execRestoreRequest who step s
  | .restoreComplete => Sys2Proof.Machine.execRestoreComplete s
  | .rwsCancel who v => Sys2Proof.Machine.execRwsCancel who v s
  | .offenderLatchRearm who sl a v => Sys2Proof.Machine.execOffenderLatchRearm who sl a v s
  | .guardRecordRearm who sl v => Sys2Proof.Machine.execGuardRecordRearm who sl v s
  | .shardTableWrite who layer offset data => Sys2Proof.Machine.execShardTableWrite who layer offset data s
  | .programWrite who n data => Sys2Proof.Machine.execProgramWrite who n data s
  | .millraceTableWrite who offset data => Sys2Proof.Machine.execMillraceTableWrite who offset data s
  | .topologyWrite who sub offset data => Sys2Proof.Machine.execTopologyWrite who sub offset data s
  | .portmapWrite who offset data => Sys2Proof.Machine.execPortmapWrite who offset data s
  | .watchMapWrite who ranges offset data => Sys2Proof.Machine.execWatchMapWrite who ranges offset data s
  | .weirParameterWrite who index sub offset data => Sys2Proof.Machine.execWeirParameterWrite who index sub offset data s
  | .directoryMessage who m => Sys2Proof.Machine.execDirectoryMessage who m s
  | .read who r => Sys2Proof.Machine.execRead who r s
  | .write who r => Sys2Proof.Machine.execWrite who r s
  | .describe who r => Sys2Proof.Machine.execDescribe who r s
  | .next who r => Sys2Proof.Machine.execNext who r s
  | .setEndpointId pcie eid => Sys2Proof.Machine.execSetEndpointId pcie eid s
  | .getEndpointId pcie => Sys2Proof.Machine.execGetEndpointId pcie s
  | .getMctpVersionSupport pcie msgType => Sys2Proof.Machine.execGetMctpVersionSupport pcie msgType s
  | .getMessageTypeSupport pcie => Sys2Proof.Machine.execGetMessageTypeSupport pcie s
  | .setdasa staticAddr dynAddr => Sys2Proof.Machine.execSetdasa staticAddr dynAddr s
  | .entdaa dynAddr => Sys2Proof.Machine.execEntdaa dynAddr s
  | .getVersion pcie => Sys2Proof.Machine.execGetVersion pcie s
  | .getCapabilities pcie => Sys2Proof.Machine.execGetCapabilities pcie s
  | .negotiateAlgorithms pcie => Sys2Proof.Machine.execNegotiateAlgorithms pcie s
  | .getDigests pcie => Sys2Proof.Machine.execGetDigests pcie s
  | .getCertificate pcie slot offset length => Sys2Proof.Machine.execGetCertificate pcie slot offset length s
  | .challenge pcie slot nonce => Sys2Proof.Machine.execChallenge pcie slot nonce s
  | .getMeasurements pcie index signed nonce => Sys2Proof.Machine.execGetMeasurements pcie index signed nonce s
  | .spdmUnsupportedRequest pcie code => Sys2Proof.Machine.execSpdmUnsupportedRequest pcie code s
  | .perstAssert => Sys2Proof.Machine.execPerstAssert s
  | .hostLinkUp rate width => Sys2Proof.Machine.execHostLinkUp rate width s
  | .perstDeassert => Sys2Proof.Machine.execPerstDeassert s
  | .requestRetryStatusEnd => Sys2Proof.Machine.execRequestRetryStatusEnd s
  | .supplyHystCrossing v => Sys2Proof.Machine.execSupplyHystCrossing v s
  | .inputRisesTo38V v => Sys2Proof.Machine.execInputRisesTo38V v s
  | .fwInstallComplete ok => Sys2Proof.Machine.execFwInstallComplete ok s
  | .mgmtPortLinkChange up => Sys2Proof.Machine.execMgmtPortLinkChange up s

end Sys2Proof.Machine
end

