-- ==== Sys2Proof/Machine/Step.lean ====
section
/-! DEFINITION. A step takes the command at the front of the queue; with an empty queue one ACLK cycle passes. -/

namespace Sys2Proof.Machine

/-- One ACLK cycle passes while no command waits (DESIGN CHOICE, assumption log 1). -/
def State.idle (s : State) : State := s.reach (s.clock.now + acRoot)

/-- One step: the front command is executed with the rest of the queue. -/
def step (s : State) : Host.Outcome State Fault Refusal :=
  match s.pending with
  | [] => .next s.idle
  | c :: cs => exec c { s with pending := cs }

/-- Put the command that a table word spells at the front of the queue. -/
def State.withFetchWord (s : State) (nbits w : Nat) : State :=
  match decodeTableWord nbits w with
  | some c => { s with pending := c :: s.pending }
  | none => s

end Sys2Proof.Machine
end

