-- ==== Sys2Proof/Safety.lean ====
section
/-! DEFINITION. A safe step and a safe run: no fault, no refusal. No rule of the manual stops the module (R362), so every step
of this model is safe; the statements about it are in the obligations. -/

namespace Sys2Proof

/-- The step from `s` answers a next state. -/
def SafeStep (s : Machine.State) : Prop := ∃ t, Machine.step s = .next t

/-- Every one of the first `k` steps from `s` answers a next state. -/
def SafeRun (k : Nat) (s : Machine.State) : Prop := ∃ t, Host.Core.run core k s = .next t

end Sys2Proof
end

