-- ==== Sys2Proof/WellFormed.lean ====
section
/-! DEFINITION. What a command's operands must satisfy beyond their types for the surroundings to be able to send it: list
lengths that a sample, a queue slot, a record or a test report fixes, and values that a link or an object range bounds. -/

namespace Sys2Proof

/-- A sample holds six rails and 96 sensors (R285). -/
def WeirReadings.wellFormed (x : WeirReadings) : Bool := x.rails.length == 6 && x.temps.length == 96

/-- A power-up test reports ten rills, retires no position twice and maps out no channel twice. -/
def PanelTest.wellFormed (t : PanelTest) : Bool :=
  t.rills.length == 10 && decide t.badPositions.Nodup && decide t.badChannels.Nodup

/-- A record carries data only as a WRITE, and then as many bytes as its Length says (Table 15-5). -/
def DirRecord.wellFormed (r : DirRecord) : Bool :=
  if r.op = 2 then r.data.length == r.length.toNat else r.data.isEmpty

/-- What a command must satisfy; a command without an entry here has operands that its types bound. -/
def Instr.wellFormed : Instr → Bool
  | .weirSample x => x.wellFormed
  | .enterPanel t => t.wellFormed
  | .read _ r => r.wellFormed && r.op == 1
  | .write _ r => r.wellFormed && r.op == 2
  | .describe _ r => r.wellFormed && r.op == 3
  | .next _ r => r.wellFormed && r.op == 4
  | .commandFetch _ _ bytes => (bytes.map fun b => b.length == 128).getD true
  | .tiermapWrite _ _ _ rs => rs.all fun r => (r.map fun b => b.length == 32).getD true
  | .stateWrite _ _ _ rs => rs.all fun r => (r.map fun b => b.length == 33792).getD true
  | .weirParameterWrite _ index _ _ _ => index == 0x2000 || index == 0x2010 || index == 0x2020
  | .hostLinkUp rate width => [16, 32, 64].contains rate.toNat && [4, 8, 16].contains width.toNat
  | _ => true

end Sys2Proof
end

