-- ==== Sys2Proof/Certificates/Slice0/Obligations.lean ====
section
/-! DEFINITION. The statements about the module, each a proposition. The helpers in `Claims` only name what several of them say. -/

namespace Sys2Proof.Claims

open Sys2Proof.Machine

/-- Command `c` runs from `s` to a next state of which `P` holds. -/
def Completes (c : Instr) (s : State) (P : State → Prop) : Prop := ∃ t, exec c s = .next t ∧ P t

/-- The canonical form of the parameter store, the tiles, the tier map and the dies: an invariant of every step, stated on its
own. -/
def Canonical (s : State) : Prop :=
  Sparse.wf paramDefault s.params = true ∧ Sparse.wf tileDefault s.mem.tiles = true
    ∧ Sparse.wf pageDefault s.mem.pages = true ∧ Sparse.wf dieDefault s.seq.dies = true

/-- Every element of every parameter outside `ps` reads in `t` as in `s` (an element index has 24 bits). -/
def OnlyRegs (ps : List Nat) (s t : State) : Prop := ∀ p e, e < 2 ^ 24 → p ∉ ps → t.reg p e = s.reg p e

/-- Every tile, every page's tier map entry, the flash, and the queue of waiting commands are as they were. -/
def SameStores (s t : State) : Prop :=
  t.mem.tiles = s.mem.tiles ∧ t.mem.pages = s.mem.pages ∧ t.flash = s.flash ∧ t.pending = s.pending

/-- What the recording of an event may write: counts, sequence number, losses (R367 to R372). -/
def eventRegs : List Nat := [P.eventsRaised, P.eventsCoalesced, P.eventsLost, P.eventSeq]

/-- What an issue may count: phases (R282), entries per phase, waits for budget (R290), formats and widths (R68), unmapped
accesses (R185), digests (R69), riffle drops (R271), segments sent (R221), and the recording of an event. -/
def issueRegs : List Nat :=
  [P.phaseTimers, P.phaseEntries, P.budgetWaits, P.formatMismatches, P.widthMismatches, P.unmappedAccesses
  , P.digestErrors, P.verdicts, P.droppedReasons, P.segmentsSent, P.retransmits] ++ eventRegs

/-- Stream `st` of slot `sl`. -/
def strm (s : State) (sl st : Nat) : Stream := (s.die sl).stream st

/-- The footprint of the head `e` of a stream. -/
def headFootprint (s : State) (sl st e : Nat) : List Res × List Res := s.footprintOf (s.die sl) (strm s sl st) e

/-- R29 to R35, R290: entry `e` is the head of stream `st`, waits on nothing but time, and is what the weir selects in `u`:
the state in the first ac in which a head of the slot issues. -/
def Selected (s : State) (sl st e : Nat) (u : State) : Prop :=
  s.headEntry sl st = some e ∧ nearlyReady s (s.die sl) st (strm s sl st) e = true
    ∧ u = State.seek sl st (s.seekBound sl e) (s.atAc sl) ∧ u.selectAt sl u.ac = some st

/-- R36, R175: the operand pages of a head that a Demand load must bring before its unit starts. -/
def coldPages (s : State) (sl st e : Nat) : List Nat := s.unloaded (touchedTiles (headFootprint s sl st e).1)

/-- The head is selected, and its operand pages are loaded, so that its unit starts at issue (R36, R175). -/
def Starts (s : State) (sl st e : Nat) (u : State) : Prop := Selected s sl st e u ∧ coldPages s sl st e = []

/-- R36: `late` is the time that operands take which do not lie in the slot's tile store: none where all of them do. -/
def Arrive (s : State) (sl : Nat) (ids : List Nat) (late : Nat) : Prop := (∀ i ∈ ids, s.resident sl i = true) → late = 0

/-- The two dies agree but for how often their heads were passed over (R35). -/
def PassedOnly (d d' : Die) : Prop :=
  d' = { d with streams := d'.streams } ∧ ∀ st, st < 16 → d'.stream st = { d.stream st with passed := (d'.stream st).passed }

/-- The entry that an issue put into flight is there, with identity, index and step. -/
def EntersFlight (s t : State) (sl st e : Nat) (now : Nat) (f : Flight) : Prop :=
  f ∈ (t.die sl).flight ∧ f.id = (s.die sl).nextId ∧ f.entry = e ∧ f.stream = st ∧ f.index = (strm s sl st).head
    ∧ f.issued = now ∧ (f.reads, f.writes) = headFootprint s sl st e

/-- R29: the awaited tokens are lowered by 1 each, and no other token changes. -/
def tokensTaken (s : State) (sl e : Nat) : List Nat :=
  (enWaits e).foldl (fun ts t => ts.set t (nth ts t 0 - 1)) (s.die sl).tokens

/-- What every issue leaves alone: stores, other slots' dies but for the passing over of their heads on the same base die, the
command queue, and every register outside `issueRegs`. -/
def IssueFrame (s t : State) (sl : Nat) : Prop :=
  SameStores s t ∧ (∀ k, k ≠ sl → PassedOnly (s.die k) (t.die k)) ∧ (∀ k, k / 8 ≠ sl / 8 → t.die k = s.die k)
    ∧ OnlyRegs issueRegs s t ∧ t.held = s.held ∧ t.supply = s.supply ∧ t.fw = s.fw ∧ t.host = s.host ∧ t.upd = s.upd
    ∧ t.journal = s.journal

/-- The rational number that a finite value stands for (R51); none for NaN and the infinities. -/
def valRat : Val → Option ℚ
  | .fin neg num den e => some ((if neg then -1 else 1) * ((num : ℚ) / den) * (2 : ℚ) ^ e)
  | _ => none

/-- The rational number that a zero or finite operand stands for (R74). -/
def decRat (d : Dec) : ℚ := (if d.s then -1 else 1) * (d.m : ℚ) * (2 : ℚ) ^ d.c

end Sys2Proof.Claims

open Sys2Proof Sys2Proof.Machine Sys2Proof.Claims


namespace Sys2Proof.Claims

/-- Slot, stream, and the test of the head of a command that issues a course table entry (Table 2-3). -/
def courseHead : Instr → Option (Nat × Nat × (Nat → Bool))
  | .nop sl st => some (sl, st, fun e => enOpcode e == 0x00)
  | .endEntry sl st => some (sl, st, fun e => enOpcode e == 0x01)
  | .base sl st => some (sl, st, fun e => enOpcode e == 0x02)
  | .stride sl st => some (sl, st, fun e => enOpcode e == 0x03)
  | .loop sl st => some (sl, st, fun e => enOpcode e == 0x04)
  | .mode sl st => some (sl, st, fun e => enOpcode e == 0x08)
  | .mma sl st => some (sl, st, fun e => enOpcode e == 0x10)
  | .drain sl st => some (sl, st, fun e => enOpcode e == 0x11)
  | .vop sl st => some (sl, st, fun e => enOpcode e == 0x20)
  | .vrow sl st => some (sl, st, fun e => enOpcode e == 0x21)
  | .vcol sl st => some (sl, st, fun e => enOpcode e == 0x22)
  | .vtrans sl st => some (sl, st, fun e => enOpcode e == 0x23)
  | .vld sl st => some (sl, st, fun e => enOpcode e == 0x24)
  | .vst sl st => some (sl, st, fun e => enOpcode e == 0x25)
  | .vreg sl st => some (sl, st, fun e => enOpcode e == 0x26 && decide (enM e 0 6 < 0x30))
  | .vregBcast sl st => some (sl, st, fun e => enOpcode e == 0x26 && enM e 0 6 == 0x30)
  | .vregSwaph sl st => some (sl, st, fun e => enOpcode e == 0x26 && enM e 0 6 == 0x31)
  | .post sl st => some (sl, st, fun e => enOpcode e == 0x26 && enM e 0 6 == 0x32)
  | .vimm sl st => some (sl, st, fun e => enOpcode e == 0x27)
  | .red sl st => some (sl, st, fun e => enOpcode e == 0x28)
  | .move sl st => some (sl, st, fun e => enOpcode e == 0x30)
  | .gather sl st => some (sl, st, fun e => enOpcode e == 0x31)
  | .scatter sl st => some (sl, st, fun e => enOpcode e == 0x32)
  | .rsig sl st => some (sl, st, fun e => enOpcode e == 0x38)
  | .nsend sl st => some (sl, st, fun e => enOpcode e == 0x40)
  | .coll sl st => some (sl, st, fun e => enOpcode e == 0x41)
  | _ => none

/-- Command `c` issues entry `e` of stream `st`, selected in `u`: a next state, in which the entry is in flight as `f`, the awaited
tokens are lowered, and nothing of the frame has changed (a COLL may find messages waiting for it, which it applies: R239); and
`P f t` holds besides. -/
def Issues (c : Instr) (s : State) (sl st e : Nat) (u : State) (P : Flight → State → Prop) : Prop :=
  Completes c s fun t => ∃ f, EntersFlight s t sl st e u.clock.now f ∧ (t.die sl).tokens = tokensTaken s sl e
    ∧ ((enOpcode e = 0x41 → s.net.early = []) → IssueFrame s t sl) ∧ P f t

/-- The writer identity of an entry (R61, R64): its slot, array, opcode, step, set and index. -/
def entryWriter (s : State) (sl st e array : Nat) : Writer :=
  { source := 0, slot := sl, array := array, opcode := enOpcode e, stamp := s.step, setId := s.val P.activeSetId
    entry := (strm s sl st).head }

/-- The tile that an operand field names, with the stream's base registers (Table 2-2). -/
def opTile (s : State) (sl st field : Nat) : Nat := tileOperand (strm s sl st).x field

end Sys2Proof.Claims

/-- For every command c, queue cs and state s whose queue is c followed by cs, step s is exec c on s with the queue cs. The
queue is the model's (assumption log 1). -/
def Obligations.StepRunsTheFrontCommand : Prop :=
  ∀ (c : Instr) (cs : List Instr) (s : State), s.pending = c :: cs → step s = exec c { s with pending := cs }

/-- For every state with an empty queue, step answers the same state with root time advanced by 4 cycles of ROOT, which is one
cycle of aclk (R2). That idling takes the form of a tick is the model's own choice (assumption log 1). R2 gives the clocks;
the tick is assumption log 1. -/
def Obligations.EmptyQueueStepPassesOneAclkCycle : Prop :=
  ∀ s : State, s.pending = [] →
    step s = .next { s with clock := { s.clock with now := s.clock.now + 4 } }

/-- For each of the 26 commands that issue a course table entry: where the head of the stream is an entry of its kind and is
what the weir selects in u, the command answers a next state in which the entry is in flight with the next identity, its
index, its issue time and its footprint, its awaited tokens are lowered by 1 each, and tiles, tier map, flash, held writes,
updates, journal, host, firmware, supply, the queue, every register outside the listed counts and other slots' dies, but for
the passing over of their heads on the same base die, are unchanged. Operand pages that are not loaded are asked for, and the
entry's unit waits for them. R28, R29, R33 to R36, R175, R290. -/
def Obligations.IssuedEntryEntersFlight : Prop :=
  ∀ (c : Instr) (sl st : Nat) (ok : Nat → Bool) (s u : State) (e : Nat), sl < 64 → st < 16 →
    courseHead c = some (sl, st, ok) → ok e = true → Canonical s → Selected s sl st e u →
    Issues c s sl st e u fun f t => f.cold = coldPages s sl st e ∧ (∀ p ∈ coldPages s sl st e, p ∈ t.mem.demand)
      ∧ (coldPages s sl st e ≠ [] → enOpcode e ≠ 0x41 → f.ready = false ∧ f.effects = [])

/-- For each of the 26 issuing commands: where the head of the stream awaits a token whose count is 0, the command changes
nothing; where the head is selected, the command completes and every awaited token is lower by exactly 1 and every other token
of the die is as it was. R29. -/
def Obligations.IssueWaitsForItsTokensAndTakesOneOfEach : Prop :=
  ∀ (c : Instr) (sl st : Nat) (ok : Nat → Bool) (s : State) (e : Nat), sl < 64 → st < 16 → courseHead c = some (sl, st, ok) →
    s.headEntry sl st = some e →
    (∀ k, k ∈ enWaits e → (s.die sl).token k = 0 → exec c s = .next s)
    ∧ (∀ u : State, ok e = true → Canonical s → Selected s sl st e u → Completes c s fun t =>
        ∀ k, (t.die sl).token k = if k ∈ enWaits e then (s.die sl).token k - 1 else (s.die sl).token k)

/-- Outside a loop, each of NOP, END, BASE, STRIDE and LOOP, when selected, completes with its stream at the next entry and
otherwise unchanged but for its own effect (the end mark, one base register, one stride triple, one loop frame), is due one ac
after issue and has no other effect. loopAdvance goes to the next entry where the entry is not the last of the innermost loop,
goes back to the first with one pass fewer and the three base registers advanced by their signed strides modulo 2^40 where it
is the last and passes remain, and leaves the loop with the saved base registers where none remain. R20, R21, R22, R26, R27.
-/
def Obligations.SequencerEntriesAndLoopsMoveTheirStream : Prop :=
  (
    ∀ (s u : State) (sl : Slot) (st : StreamIx) (e : Nat), Canonical s → Selected s sl st e u → (strm s sl st).loops = [] →
      let x := strm s sl st
      let y : Stream := { x with head := x.head + 1, passed := 0, held := false }
      let after (c : Instr) (z : Stream) : Prop :=
        Issues c s sl st e u fun f t => strm t sl st = z ∧ f.due = u.clock.now + 4 ∧ f.effects = [] ∧ f.ready = true
      (enOpcode e = 0x00 → after (.nop sl st) y)
      ∧ (enOpcode e = 0x01 → after (.endEntry sl st) { y with ended := true })
      ∧ (enOpcode e = 0x02 → after (.base sl st) { y with x := x.x.set (enM e 0 2) (enB e * 2 ^ 20 + enA e) })
      ∧ (enOpcode e = 0x03 → after (.stride sl st) { y with strides :=
          ((x.strides.set (3 * enM e 0 2) (enD e)).set (3 * enM e 0 2 + 1) (enA e)).set (3 * enM e 0 2 + 2) (enB e) })
      ∧ (enOpcode e = 0x04 → after (.loop sl st) { y with loops :=
          [{ level := enM e 6 2, first := x.head + 1, last := x.head + 1 + enM e 0 6, left := enA e, saved := x.x.take 3 }] }))
  ∧ (
    ∀ (x : Stream) (f : LoopFrame) (fs : List LoopFrame) (i n : Nat), x.loops = f :: fs →
      (f.last ≠ i → loopAdvance (n + 1) x i = { x with head := i + 1 })
      ∧ (f.last = i → f.left ≠ 0 → x.x.length = 4 →
          let y := loopAdvance (n + 1) x i
          y.head = f.first ∧ y.loops = { f with left := f.left - 1 } :: fs ∧ y.x.length = 4 ∧ nth y.x 3 0 = nth x.x 3 0
          ∧ ∀ k, k < 3 → ((nth y.x k 0 : Nat) : Int) =
              (((nth x.x k 0 : Nat) : Int) + signedOf 20 (nth x.strides (3 * f.level + k) 0)) % 2 ^ 40)
      ∧ (f.last = i → f.left = 0 →
          loopAdvance (n + 1) x i = loopAdvance n { x with loops := fs, x := f.saved ++ x.x.drop 3 } i))

/-- When selected, MODE completes with the array's mode and ConvReg written, and queues a width change only where the half bit
changes; MMA completes with a job appended that holds the mode's formats, width and the two tile IDs; DRAIN completes with a
job appended that holds the captured conversion inputs and destination. Accumulator sets, and the queues the entry does not
join, are unchanged. R22, R24, R37, R38, R97. -/
def Obligations.ArrayEntriesJoinTheArrayQueue : Prop :=
  ∀ (s u : State) (sl : Slot) (st : StreamIx) (e : Nat), Canonical s → Selected s sl st e u →
    let x := s.array sl (enM e 0 1)
    (enOpcode e = 0x08 → Issues (.mode sl st) s sl st e u fun f t =>
      let y := t.array sl (enM e 0 1)
      f.due = u.clock.now + 4 ∧ f.ready = true ∧ y.mode = enMod e ∧ y.convReg = enD e % 64
      ∧ y.halves = (if bit (enMod e) 7 = bit x.mode 7 then x.halves else x.halves ++ [(x.nextOrd, bit (enMod e) 7)])
      ∧ y.mmas = x.mmas ∧ y.drains = x.drains ∧ y.set0 = x.set0 ∧ y.set1 = x.set1)
    ∧ (enOpcode e = 0x10 → Issues (.mma sl st) s sl st e u fun f t =>
      let y := t.array sl (enM e 0 1)
      f.kind = .mma (enM e 0 1) ∧ f.ready = false ∧ y.mode = x.mode ∧ y.drains = x.drains ∧ y.set0 = x.set0 ∧ y.set1 = x.set1
      ∧ ∃ j, y.mmas = x.mmas ++ [j] ∧ j.flight = f.id ∧ j.half = bit x.mode 7 ∧ j.ord = x.nextOrd
          ∧ j.idA = opTile s sl st (enA e) ∧ j.idB = opTile s sl st (enB e)
          ∧ j.fmtA = Fmt.ofCodeD (bits x.mode 1 3) ∧ j.fmtB = Fmt.ofCodeD (bits x.mode 4 3))
    ∧ (enOpcode e = 0x11 → Issues (.drain sl st) s sl st e u fun f t =>
      let y := t.array sl (enM e 0 1)
      f.kind = .drain (enM e 0 1) ∧ f.ready = false ∧ y.mode = x.mode ∧ y.mmas = x.mmas ∧ y.set0 = x.set0 ∧ y.set1 = x.set1
      ∧ ∃ j, y.drains = x.drains ++ [j] ∧ j.flight = f.id ∧ j.ord = x.nextOrd ∧ j.dest = opTile s sl st (enD e)
          ∧ j.conv = { fmtOut := Fmt.ofCodeD (bits x.mode 8 3), autoScale := bit x.mode 11, biasEn := bit x.mode 12
                       clipEn := bit x.mode 13, reg := (s.die sl).vreg x.convReg })

/-- When selected, with its operands loaded, each of VOP, VROW, VCOL and VTRANS completes with the occupancy of Table 2-6, due 16
ac after it, both later by the time that operands outside the slot's tile store take, and holds as its effects the write of
the formed tile, or of the poisoned tile where an operand that the function reads or the mask is poisoned, and the count of
16384 elements. R36, R107 to R116, R122, Table 2-6. -/
def Obligations.VectorTileEntriesFormTheirTileAtIssue : Prop :=
  ∀ (s u : State) (sl : Slot) (st : StreamIx) (e : Nat), Canonical s → Starts s sl st e u →
    let fa := Fmt.ofCodeD (enM e 6 3)
    let fo := Fmt.ofCodeD (enM e 9 3)
    let ia := opTile s sl st (enA e)
    let ib := opTile s sl st (enB e)
    let a := (s.readOperand sl ia fa).1
    let b := (s.readOperand sl ib (vopFmtB e)).1
    let d := s.die sl
    let rb := regOperand (enB e)
    let bin := funcBinary (enM e 0 6)
    let mask := (maskReg e).map d.vreg
    let mp := ((maskReg e).map d.vpoison).getD false
    let w := entryWriter s sl st e 0
    let occ := if fa.bytes = 4 then 64 else 32
    let forms (c : Instr) (ids : List Nat) (n : Nat) (poison : Bool) (r : VecResult) : Prop :=
      Issues c s sl st e u fun f t => ∃ late, Arrive s sl ids late
        ∧ f.due = u.clock.now + 4 * (n + 16) + late ∧ (t.die sl).vecBusy = u.clock.now + 4 * n + late
        ∧ .tile (opTile s sl st (enD e)) (fmtClass fo) 2 w (if poison then Tile.poison w fo.code else r.formed.tile w) ∈ f.effects
        ∧ .bump P.vecElements sl 16384 ∈ f.effects
    let op (b : VecB) := vecTileOp (enM e 0 6) a (if bin then b else .none) mask fo (enM e 15 1 == 1)
    (enOpcode e = 0x20 → forms (.vop sl st) (if bin then [ia, ib] else [ia]) occ (a.poison || (bin && b.poison) || mp) (op (.tile b)))
    ∧ (enOpcode e = 0x21 → forms (.vrow sl st) [ia] occ (a.poison || (bin && d.vpoison rb) || mp) (op (.row (d.vreg rb))))
    ∧ (enOpcode e = 0x22 → forms (.vcol sl st) [ia] occ (a.poison || (bin && d.vpoison rb) || mp) (op (.col (d.vreg rb))))
    ∧ (enOpcode e = 0x23 → forms (.vtrans sl st) [ia] (2 * occ) a.poison (vecTranspose a fo (enM e 15 1 == 1)))

/-- When selected, with its operands loaded, each of VLD, VREG (arithmetic, BCAST, SWAPH), VIMM and RED completes, due after the
time of Table 2-6, later for VLD and RED by the time that a tile outside the slot's tile store takes, and holds as an effect
the write of its destination register with the computed value and the poison mark that R122 gives. R36, R118, R120 to R122,
R124 to R127, Table 2-6. -/
def Obligations.RegisterEntriesFormTheirResultAtIssue : Prop :=
  ∀ (s u : State) (sl : Slot) (st : StreamIx) (e : Nat), Canonical s → Starts s sl st e u →
    let d := s.die sl
    let rd := regOperand (enD e)
    let ra := regOperand (enA e)
    let rb := regOperand (enB e)
    let func := enM e 0 6
    let fr := Fmt.ofCodeD (enM e 6 3)
    let ia := opTile s sl st (enA e)
    let a := (s.readOperand sl ia fr).1
    let l := (s.readOperand sl ia (Fmt.ofCodeD (enM e 11 3))).1
    let occ := if fr.bytes = 4 then 64 else 32
    let forms (c : Instr) (ids : List Nat) (n : Nat) (v : Nat) (poison : Bool) : Prop :=
      Issues c s sl st e u fun f _ => ∃ late, Arrive s sl ids late ∧ f.due = u.clock.now + 4 * n + late
        ∧ .reg rd v poison ∈ f.effects
    let fn := vregResult func (enM e 6 1 == 1) (enM e 7 8) (d.vreg ra) (d.vreg rb) (d.vreg rd)
    let fp := d.vpoison ra || (funcBinary func && d.vpoison rb) || (funcTernary func && d.vpoison rd)
    (enOpcode e = 0x24 → forms (.vld sl st) [ia] 8
      (putHalf (d.vreg rd) (enM e 10 1 == 1) ((vldElems (enM e 0 3) (enM e 3 7) l).map Prod.fst)) (d.vpoison rd || l.poison))
    ∧ (enOpcode e = 0x26 → func < 0x30 → forms (.vreg sl st) [] 8 fn.1 fp)
    ∧ (enOpcode e = 0x26 → func = 0x30 → forms (.vregBcast sl st) [] 8 fn.1 fp)
    ∧ (enOpcode e = 0x26 → func = 0x31 → forms (.vregSwaph sl st) [] 8 fn.1 fp)
    ∧ (enOpcode e = 0x27 → forms (.vimm sl st) [] 8
      (vimmResult (enM e 0 2) (enM e 2 8) (bits (enB e) 0 12 * 2 ^ 20 + enA e) (d.vreg rd)).1 (enM e 0 2 == 1 && d.vpoison rd))
    ∧ (enOpcode e = 0x28 → forms (.red sl st) [ia] (occ + 20)
      (redResult (enM e 0 4) (enM e 4 2) (enM e 10 8) a (d.vreg rb)).1 (a.poison || (enM e 10 8 != 0 && d.vpoison rb)))

/-- When selected and their tile is mapped and loaded, VST completes, due after 8 ac, and holds the write of the tile with the row,
its scale and the sidecar updated, or of the poisoned tile where its register is poisoned; MOVE completes and holds the write of
exactly the source tile, poisoned in place where DigestVerify asks for the check of a digest that does not match, and, where
the modifier names a slot and a count, the token raise for this step. R21, R22, R30, R65, R67, R69, R119, R122. -/
def Obligations.StoringEntriesFormTheirTileAtIssue : Prop :=
  ∀ (s u : State) (sl : Slot) (st : StreamIx) (e : Nat), Canonical s → Starts s sl st e u →
    let d := s.die sl
    let dest := opTile s sl st (enD e)
    let src := opTile s sl st (enA e)
    let w := entryWriter s sl st e 0
    (enOpcode e = 0x25 → ∀ i k, s.place dest = .mapped i k →
      let f := Fmt.ofCodeD (enM e 8 3)
      let ra := regOperand (enA e)
      let r := vstRow (d.vreg ra) (enM e 7 1 == 1) f (enM e 11 2) ((s.tile i).scale (enM e 0 7))
      Issues (.vst sl st) s sl st e u fun fl _ => fl.due = u.clock.now + 32
        ∧ .tile dest (fmtClass f) 2 w (if d.vpoison ra then Tile.poison w f.code else vstTile (s.tile i) w (enM e 0 7) f r)
            ∈ fl.effects)
    ∧ (enOpcode e = 0x30 → ∀ i k, s.place src = .mapped i k →
      let t := s.tile i
      let bad := bit (s.val P.digestVerify) 0 && t.computeDigest (classBytes k) != t.digest
      Issues (.move sl st) s sl st e u fun fl _ => .moveTile dest (classBytes k) (if bad then t.poisonInPlace else t) ∈ fl.effects
        ∧ (enM e 0 7 = 0x7F ∨ enM e 13 2 = 0 ∨ .raise (enM e 0 7) (enM e 7 6) (enM e 13 2) s.step ∈ fl.effects))

/-- When selected, RSIG completes with one raise appended to the fabric that names slot, token, count, step and origin, and that
arrives no earlier than 1 ac after the issue; POST completes, due after 8 ac, and either posts the two elements and the poison
mark and marks the channel as posted, or, where the channel was posted in this step, only counts the repeat. R22, R32, R128,
Table 2-6. -/
def Obligations.RsigAndPostReachTheirReceivers : Prop :=
  (
    ∀ (s u : State) (sl : Slot) (st : StreamIx) (e : Nat), Canonical s → Selected s sl st e u → enOpcode e = 0x38 →
      Issues (.rsig sl st) s sl st e u fun f t => f.ready = false ∧ t.seq.fabric = s.seq.fabric ++
        [{ slot := enM e 0 6, token := enM e 6 6, count := enM e 12 2, step := s.step, origin := some (sl.val, f.id)
           sent := u.clock.now + 4 }])
  ∧ (
    ∀ (s u : State) (sl : Slot) (st : StreamIx) (e : Nat), Canonical s → Selected s sl st e u → enOpcode e = 0x26 → enM e 0 6 = 0x32 →
      let d := s.die sl
      let k := enM e 7 8
      let ra := regOperand (enA e)
      Issues (.post sl st) s sl st e u fun f t => f.due = u.clock.now + 32 ∧
        if k ∈ d.posted then f.effects = [.bump P.postRepeats sl 1] ∧ (t.die sl).posted = d.posted
        else f.effects = [.post k (regElem (d.vreg ra) 0) (regElem (d.vreg ra) 128) (d.vpoison ra)]
          ∧ (t.die sl).posted = k :: d.posted)

/-- When selected, with their operands loaded, GATHER completes and holds the write of a tile of the descriptor's format, the
poisoned tile where its index tile is poisoned; SCATTER completes and holds only the flag word bit where the source or the
index tile is poisoned, and otherwise the write of cells that all lie inside the millrace and the count of those out of range.
R180, R181, R182. -/
def Obligations.MillraceEntriesReadTheirIndexTileAtIssue : Prop :=
  ∀ (s u : State) (sl : Slot) (st : StreamIx) (e : Nat), Canonical s → Starts s sl st e u →
    let k := enM e 1 8
    let desc := s.millDesc k
    let g := if enM e 0 1 = 0 then 32 else 64
    let w := entryWriter s sl st e 0
    let dest := opTile s sl st (enD e)
    let ia := (s.readIndex sl (opTile s sl st (enA e))).1
    (enOpcode e = 0x31 → Issues (.gather sl st) s sl st e u fun f _ =>
      ∃ tile, .tile dest (fmtClass (mrFmt desc)) 3 w tile ∈ f.effects
        ∧ (ia.poison = true → tile = Tile.poison w (mrFmt desc).code))
    ∧ (enOpcode e = 0x32 →
        let a := s.readOperand sl (opTile s sl st (enA e)) (mrFmt desc)
        let ib := (s.readIndex sl (opTile s sl st (enB e))).1
        Issues (.scatter sl st) s sl st e u fun f _ =>
          if a.1.poison || ib.poison then f.effects = [.flagWord 4] else ∃ cells out, f.effects =
            [.scatter k g cells, .bump P.millraceOutOfRange sl out]
            ∧ ∀ q ∈ cells, g * (q.1 + 1) ≤ mrSize desc)

/-- When selected, with its tile loaded, NSEND completes with its message number taken and the stream's next one higher by 1; COLL,
with no message waiting for it, completes with one collective appended that holds slot, group, kind, length, destination, size,
rank, step, instance and, where they are loaded, its source tiles, and with the group's instance number higher by 1. R22, R175,
R219, R236, R239. -/
def Obligations.NetworkEntriesStartTheirMessages : Prop :=
  ∀ (s u : State) (sl : Slot) (st : StreamIx) (e : Nat), Canonical s → Selected s sl st e u →
    (enOpcode e = 0x40 → coldPages s sl st e = [] → Issues (.nsend sl st) s sl st e u fun f t =>
      let ns := enM e 0 12
      f.kind = .nsend ns (s.tx ns).msg ∧ f.ready = false ∧ (t.tx ns).msg = (s.tx ns).msg + 1
        ∧ t.net.colls = s.net.colls)
    ∧ (enOpcode e = 0x41 → s.net.early = [] → Issues (.coll sl st) s sl st e u fun f t =>
      let g := enM e 2 12
      let ge := s.groupOf g
      f.kind = .coll s.net.nextColl ∧ f.ready = false ∧ ∃ c, t.net.colls = s.net.colls ++ [c] ∧ c.key = s.net.nextColl
        ∧ c.slot = sl.val ∧ c.flight = f.id ∧ c.group = g ∧ c.kind = enM e 0 2 ∧ c.len = enB e
        ∧ c.dest = opTile s sl st (enD e) ∧ c.size = bits ge 0 16 ∧ c.rank = geRank ge ∧ c.step = s.step
        ∧ c.inst = Sparse.get zeros s.net.instances g ∧ c.word = none
        ∧ (coldPages s sl st e = [] → c.source.length = enB e ∧ c.cold = false)
        ∧ Sparse.get zeros t.net.instances g = c.inst + 1)

namespace Sys2Proof.Claims

/-- A die other than that of slot `sl` is as it was, and so are the stores. -/
def ArrayFrame (s t : State) (sl : Nat) : Prop := SameStores s t ∧ ∀ k, k ≠ sl → t.die k = s.die k

/-- The two dies agree but for how often their heads were passed over and up to when their ac are accounted (R35, R282). -/
def Kept (d d' : Die) : Prop := PassedOnly { d with phaseAt := d'.phaseAt } d'

/-- Another entry is in flight on slot `sl` beside the one with identity `id`, so that no boundary falls. -/
def OthersInFlight (s : State) (sl id : Nat) : Prop :=
  s.absent sl = false ∧ s.seq.dead.contains sl = false ∧ ∃ g ∈ (s.die sl).flight, g.id ≠ id

end Sys2Proof.Claims

/-- passEnter of the next pass of an array completes with the pass in the tree, holding row i's 128 pass sums and the ac of
its entry, with the array's running job advanced; passSumAdd of the oldest pass completes 24 ac after its entry with the
active set replaced by the sum of R90 and the other set unchanged, and marks the MMA's entry ready when the pass is its last.
Other dies, tiles, tier map, flash and the queue are unchanged. R37, R72, R75, R79, R89, R90. -/
def Obligations.PassesEnterTheTreeAndAreAdded : Prop :=
  (
    ∀ (s : State) (sl : Slot) (a : ArrayIx) (j : MmaJob) (i t0 : Nat), Canonical s →
      let x := s.array sl a
      let at' := t0 + 4 * (if j.half then i / 2 else i)
      x.nextMma = some (j, i, t0) → (∀ p ∈ x.tree, at' ≤ p.enter + 96) →
      Completes (.passEnter sl a) s fun t =>
        let y := t.array sl a
        t.clock.now = max s.clock.now at' ∧ y.lastEnter = some at'
        ∧ y.ends = (if i = 127 then x.ends ++ [(j.ord, at')] else x.ends)
        ∧ y.running = (if i = 127 then none else some (j, i + 1, t0)) ∧ y.mmas = (if i = 0 then x.mmas.drop 1 else x.mmas)
        ∧ (∃ p, y.tree = x.tree ++ [p] ∧ p.job = j ∧ p.row = i ∧ p.enter = at' ∧ p.sums = (passRow j i).map (·.val))
        ∧ y.drains = x.drains ∧ y.set0 = x.set0 ∧ y.set1 = x.set1 ∧ y.active = x.active ∧ ArrayFrame s t sl)
  ∧ (
    ∀ (s : State) (sl : Slot) (a : ArrayIx) (p : TreePass) (rest : List TreePass), Canonical s →
      let x := s.array sl a
      x.tree = p :: rest → (∀ d ∈ x.drains, p.job.ord ≤ d.ord) → (∀ h ∈ x.halves, p.job.ord ≤ h.1) →
      Completes (.passSumAdd sl a) s fun t =>
        let y := t.array sl a
        let v := if p.first then (x.set x.active).meet p.job else x.set x.active
        t.clock.now = max s.clock.now (p.enter + 96) ∧ y.tree = rest ∧ y.set x.active = (addPass (s.val P.accumSeed) p v).1
        ∧ y.set (1 - x.active) = x.set (1 - x.active) ∧ y.active = x.active ∧ y.drains = x.drains ∧ y.mmas = x.mmas
        ∧ (p.last = true → ∀ f ∈ (s.die sl).flight, f.id = p.job.flight →
            ∃ g ∈ (t.die sl).flight, g.id = f.id ∧ g.ready = true ∧ g.due = p.enter + 96)
        ∧ ArrayFrame s t sl)

/-- For operand formats other than BF16 and FP32, every scale byte and every pair of lists: LOSS is not raised; the exponents
of two finite products of the pass differ by at most 58; and where no operand is NaN or infinite, the pass sum is the rational
number that is the sum of the products of the operands as R74 decodes them. For every operand format beside BF16 on either
side there are operands that raise LOSS. The two worked sums of R77 have the values and the LOSS that the rule gives. R77. -/
def Obligations.PassSumsWithoutBf16AreExact : Prop :=
  (∀ (fa fb : Fmt) (sa sb : Nat) (a b : List Nat), fa ≠ .bf16 → fa ≠ .fp32 → fb ≠ .bf16 → fb ≠ .fp32 →
      let ps := passPairs fa fb sa sb a b
      let used := ps.filter fun p => decide (p.2.1.k = .finite) && decide (p.2.2.k = .finite)
      (passSum fa fb sa sb a b).loss = false
      ∧ (∀ p ∈ used, ∀ r ∈ used, p.2.1.c + p.2.2.c ≤ r.2.1.c + r.2.2.c + 58)
      ∧ ((∀ p ∈ ps, p.2.1.k ≠ .nan ∧ p.2.1.k ≠ .inf ∧ p.2.2.k ≠ .nan ∧ p.2.2.k ≠ .inf) →
          valRat (passSum fa fb sa sb a b).val = some ((ps.map fun p => decRat p.2.1 * decRat p.2.2).sum)))
    ∧ (∀ fa : Fmt, fa ≠ .fp32 → (∃ a b : List Nat, (passSum fa .bf16 0x7F 0x7F a b).loss = true)
        ∧ ∃ a b : List Nat, (passSum .bf16 fa 0x7F 0x7F a b).loss = true)
    ∧ (let row (l : List Nat) : List Nat := l ++ List.replicate 125 0
       let x := passSum .e5m2 .e5m2 0x7F 0x7F (row [0x6C, 0x3C, 0xEC]) (row [0x6C, 0x3C, 0x6C])
       let y := passSum .bf16 .bf16 0x7F 0x7F (row [0x5380, 0x5380, 0x3F81]) (row [0x4980, 0xC980, 0x3E01])
       valRat x.val = some 1 ∧ x.loss = false ∧ valRat y.val = some (65 / 512) ∧ y.loss = true)

/-- halfConversion converts the active set to the new width (nothing where the width is the same) in queue order; drainSwap
makes the other set active at its time, leaves it at +0 in the width of the set drained, and records the conversion;
conversionEnd, 127 ac after the swap, clears the converted set, counts the drain, gives the entry the write of the converted
tile, the poisoned tile where the set is poisoned, and makes it due 144 ac after the swap. Everything else of the array, other
dies and the stores are unchanged. R24, R25, R38, R80, R88, R89, R95, R97 to R104. -/
def Obligations.AccumulatorSetsConvertSwapAndDrain : Prop :=
  (
    ∀ (s : State) (sl : Slot) (a : ArrayIx) (o : Nat) (h : Bool) (rest : List (Nat × Bool)), Canonical s →
      let x := s.array sl a
      x.halves = (o, h) :: rest → x.mmaBefore o = false → (∀ d ∈ x.drains, o ≤ d.ord) →
      Completes (.halfConversion sl a) s fun t =>
        let y := t.array sl a
        y.halves = rest ∧ (y.set x.active).half = h ∧ y.set x.active = ((x.set x.active).toWidth h).1
        ∧ ((x.set x.active).half = h → y.set x.active = x.set x.active)
        ∧ y.set (1 - x.active) = x.set (1 - x.active) ∧ y.active = x.active ∧ y.mmas = x.mmas ∧ y.drains = x.drains
        ∧ y.tree = x.tree ∧ t.clock = s.clock ∧ ArrayFrame s t sl)
  ∧ (
    ∀ (s : State) (sl : Slot) (a : ArrayIx) (j : DrainJob) (rest : List DrainJob), Canonical s →
      let x := s.array sl a
      x.drains = j :: rest → x.mmaBefore j.ord = false → (∀ h ∈ x.halves, j.ord ≤ h.1) →
      Completes (.drainSwap sl a) s fun t =>
        let y := t.array sl a
        t.clock.now = max s.clock.now (x.swapTime j) ∧ y.drains = rest ∧ y.active = 1 - x.active ∧ y.swaps = x.swaps + 1
        ∧ y.set (1 - x.active) = { half := (x.set x.active).half }
        ∧ y.convs.getLast? = some { job := j, swap := x.swapTime j, set := x.set x.active, freed := false }
        ∧ y.lastSwap = some (x.swapTime j) ∧ (t.die sl).flight = (s.die sl).flight
        ∧ y.mmas = x.mmas ∧ y.tree = x.tree ∧ ArrayFrame s t sl)
  ∧ (
    ∀ (s : State) (sl : Slot) (a : ArrayIx) (c : Conv) (rest : List Conv), Canonical s →
      let x := s.array sl a
      x.convs = c :: rest →
      Completes (.conversionEnd sl a) s fun t =>
        let y := t.array sl a
        t.clock.now = max s.clock.now (c.swap + 508) ∧ y.convs = rest ∧ y.active = x.active
        ∧ (c.freed = false → y.set (1 - x.active) = { half := (x.set (1 - x.active)).half })
        ∧ y.set x.active = x.set x.active
        ∧ t.reg P.drains sl = min (s.reg P.drains sl + 1) (2 ^ 64 - 1)
        ∧ (∀ f ∈ (s.die sl).flight, f.id = c.job.flight → ∃ g ∈ (t.die sl).flight, g.id = f.id ∧ g.ready = true
            ∧ g.due = c.swap + 576 ∧ g.effects = [.tile c.job.dest (fmtClass c.job.conv.fmtOut) 1 c.job.writer c.tile])
        ∧ (c.set.poison = true → c.tile = Tile.poison c.job.writer c.job.conv.fmtOut.code)
        ∧ ArrayFrame s t sl)

/-- entryComplete of an entry that is ready, with other entries in flight on the slot, completes no earlier than its due time,
removes exactly that entry from flight and raises its signal token, saturating at 255. With no effects nothing else is
written; a register effect writes that register and its poison mark and no tile; a tile effect or a moved tile of the page's
class writes exactly that tile and no register. Where a page that the entry writes is not loaded, only its load is asked for.
R28, R30, R31, R40, R175. -/
def Obligations.CompletedEntryMakesItsWritesVisible : Prop :=
  ∀ (s : State) (sl : Slot) (id : Nat) (f : Flight), Canonical s → (s.die sl).flight.find? (fun g => g.id == id) = some f →
    (s.die sl).completable f = true → (∀ k, f.kind ≠ .coll k) → OthersInFlight s sl id →
    let sig := enSignalToken f.entry
    let n := enSignalCount f.entry
    let cold := s.unloaded (touchedTiles f.writes)
    let done (P : State → Prop) : Prop := Completes (.entryComplete sl id) s fun t =>
      t.clock.now = max s.clock.now f.due ∧ (t.die sl).flight = (s.die sl).flight.filter (fun g => g.id != id)
      ∧ (t.die sl).tokens =
          (if n = 0 then (s.die sl).tokens else (s.die sl).tokens.set sig (min ((s.die sl).token sig + n) 255))
      ∧ (t.die sl).doneAt = t.clock.now ∧ (∀ k, k ≠ sl.val → Kept (s.die k) (t.die k)) ∧ t.mem.pages = s.mem.pages ∧ P t
    (cold ≠ [] → exec (.entryComplete sl id) s = .next (s.startLoads cold))
    ∧ (cold = [] →
      (f.effects = [] → done fun t => SameStores s t ∧ (t.die sl).regs = (s.die sl).regs)
      ∧ (∀ r v p, f.effects = [.reg r v p] → done fun t =>
          (t.die sl).vreg r = v ∧ (t.die sl).vpoison r = p ∧ SameStores s t)
      ∧ (∀ d cls b w tl i, f.effects = [.tile d cls b w tl] → w.source < 4 → s.place d = .mapped i cls → s.unloaded [d] = [] →
          done fun t => t.tile i = tl ∧ (t.die sl).regs = (s.die sl).regs ∧ ∀ k, k ≠ i → t.tile k = s.tile k)
      ∧ (∀ d width tl i, f.effects = [.moveTile d width tl] → s.place d = .mapped i (Nat.log2 width) → s.unloaded [d] = [] →
          done fun t => t.tile i = tl ∧ (t.die sl).regs = (s.die sl).regs ∧ ∀ k, k ≠ i → t.tile k = s.tile k))

/-- For every tile write: where the page's width class is another than the written class, the tile written is the poisoned
content in E4M3, BF16 or FP32 as the class is 8, 16 or 32 bits, with the writer's other fields, WidthFaults of the writer is
higher by 1 and no other tile changes; where the classes agree, exactly the tile is written. Through an alias, or to an
unmapped page, no tile changes and AliasWrites or UnmappedAccesses is higher by 1. R159. -/
def Obligations.AliasAndUnmappedWritesAreDiscarded : Prop :=
  ∀ (s : State) (acct d cls : Nat) (tl : Tile), Canonical s → acct < 72 →
    let r := s.storeTile acct d cls tl
    let discarded (p : Nat) : Prop := r.1 = none ∧ r.2.mem.tiles = s.mem.tiles
      ∧ r.2.reg p acct = min (s.reg p acct + 1) (2 ^ 64 - 1)
    (∀ i k, s.place d = .viaAlias i k → discarded P.aliasWrites)
    ∧ (s.place d = .hollow → discarded P.aliasWrites)
    ∧ (s.place d = .unmapped → discarded P.unmappedAccesses)
    ∧ (∀ c, c < 3 → (tl.poisonAs (classFmt c)).fmtCode = (if c = 0 then Fmt.e4m3.code else if c = 1 then Fmt.bf16.code else Fmt.fp32.code)
      ∧ (tl.poisonAs (classFmt c)).poisoned = true ∧ (tl.poisonAs (classFmt c)).rows = []
      ∧ (tl.poisonAs (classFmt c)).stamp = tl.stamp ∧ (tl.poisonAs (classFmt c)).entry = tl.entry)
    ∧ (∀ i k, s.place d = .mapped i k →
      (cls ≠ k → r.1 = some (tl.poisonAs (classFmt k)) ∧ r.2.tile i = tl.poisonAs (classFmt k)
        ∧ r.2.reg P.widthFaults acct = min (s.reg P.widthFaults acct + 1) (2 ^ 64 - 1) ∧ ∀ j, j ≠ i → r.2.tile j = s.tile j)
      ∧ (cls = k → r.1 = some tl ∧ r.2.tile i = tl ∧ r.2.params = s.params ∧ ∀ j, j ≠ i → r.2.tile j = s.tile j))

/-- remoteTokenRaise of the oldest raise of the fabric completes, no earlier than the raise may arrive, removes it, and: for the
step in progress raises the token, saturating at 255 and counting the saturation; for a later step holds the raise; for an
earlier step only counts it as stale. The RSIG that it came from can then complete. R30, R32, Table 2-6. -/
def Obligations.TokenRaiseSaturatesOrWaitsForItsStep : Prop :=
  ∀ (s : State) (sl : Slot) (k : Token) (n : Fin 4) (step : W64) (o : Option (Nat × Nat)) (t0 : Nat) (rest : List HeldRaise),
    Canonical s →
    let r : HeldRaise := { slot := sl, token := k, count := n, step := step.toNat, origin := o, sent := t0 }
    s.seq.fabric = r :: rest →
    Completes (.remoteTokenRaise sl k n step) s fun t => t.seq.fabric = rest ∧ SameStores s t ∧ t.clock.now = max s.clock.now t0
      ∧ (∀ j, j ≠ sl.val → o.map Prod.fst ≠ some j → Kept (s.die j) (t.die j))
      ∧ (o.map Prod.fst ≠ some sl.val → (t.die sl).flight = (s.die sl).flight)
      ∧ (∀ from' id, o = some (from', id) → ∀ f ∈ (s.die from').flight, f.id = id → f.kind = .remote →
          ∃ g ∈ (t.die from').flight, g.id = id ∧ g.ready = true ∧ g.effects = f.effects)
      ∧ (step.toNat = s.step →
          (t.die sl).tokens = (s.die sl).tokens.set k (min ((s.die sl).token k + n) 255) ∧ t.seq.heldRaises = s.seq.heldRaises
          ∧ (255 < (s.die sl).token k + n →
              t.reg P.tokenSaturations sl = min (s.reg P.tokenSaturations sl + 1) (2 ^ 32 - 1)))
      ∧ (s.step < step.toNat → (t.die sl).tokens = (s.die sl).tokens ∧ t.seq.heldRaises = s.seq.heldRaises ++ [r])
      ∧ (step.toNat < s.step → (t.die sl).tokens = (s.die sl).tokens ∧ t.seq.heldRaises = s.seq.heldRaises
          ∧ t.reg P.staleRaises sl = min (s.reg P.staleRaises sl + 1) (2 ^ 32 - 1))

namespace Sys2Proof.Claims

/-- A tile store copy, or a budget that no refill raises, keeps slot `sl` from every issue: what the base die's buckets and its
reserve hold together covers no head of the slot (R13, R288, R290). -/
def KeptFromIssue (s : State) (sl : Nat) : Prop :=
  (s.seq.copying.any fun c => c.1 == sl) = true
    ∨ ((∀ g, nth s.weir.rates g 0 = 0) ∧ ∀ k, k < 16 → (s.headEntry sl k).isSome = true →
        ((List.range 8).map fun i => s.bucket (8 * (sl / 8) + i)).sum + nth s.weir.reserves (sl / 8) 0 < s.charge sl k)

end Sys2Proof.Claims

/-- headDue of a ready head on a slot that a tile store copy or the budget keeps from issuing completes with the head passed over
at least 16 times; slotStall completes StallLimit microseconds after the slot's last activity, or after the step's open where
that is later, marks the slot as told, records its heads and tokens, counts the stall and raises the event; an issuing command
whose head the guard holds when it would issue only marks the head as held and, the first time, counts GuardCollisions and
leaves a valid guard record. R35, R42, R43, R46. That the quiet period runs from the step's open is assumption log 83. -/
def Obligations.HeadsAreHeldPacedAndStallsTold : Prop :=
  (
    (∀ (s : State) (sl : Slot) (st : StreamIx), Canonical s → s.readyAt sl st (ceilDiv s.clock.now 4) = true →
      KeptFromIssue s sl →
      Completes (.headDue sl st) s fun t => 16 ≤ (strm t sl st).passed
        ∧ strm t sl st = { strm s sl st with passed := (strm t sl st).passed } ∧ SameStores s t ∧ s.clock.now ≤ t.clock.now
        ∧ OnlyRegs [P.budgetWaits] s t ∧ (t.die sl).flight = (s.die sl).flight ∧ (t.die sl).tokens = (s.die sl).tokens
        ∧ ∀ k, k ≠ sl.val → Kept (s.die k) (t.die k))
    ∧ (∀ (s : State) (sl : Slot), Canonical s → s.val P.stallLimit ≠ 0 → s.slotBusy sl = true →
      (s.die sl).stallTold = false →
      Completes (.slotStall sl) s fun t => (t.die sl).stallTold = true ∧ SameStores s t
        ∧ t.clock.now = max s.clock.now (max (s.die sl).lastAct s.seq.openedAt + s.val P.stallLimit * 9000)
        ∧ t.reg P.stalls sl = min (s.reg P.stalls sl + 1) (2 ^ 32 - 1)
        ∧ t.reg P.eventsRaised 6 = min (s.reg P.eventsRaised 6 + 1) (2 ^ 64 - 1)
        ∧ (∀ k, k < 16 → t.reg P.headState (16 * sl + k) = if (strm s sl k).ended then 0xFFFFFFFF else (strm s sl k).head)
        ∧ (∀ k, k < 64 → t.reg P.tokenCounts (64 * sl + k) = (s.die sl).token k)
        ∧ Kept { s.die sl with stallTold := true } (t.die sl) ∧ ∀ k, k ≠ sl.val → Kept (s.die k) (t.die k)))
  ∧ (
    ∀ (s u : State) (c : Instr) (sl st : Nat) (ok : Nat → Bool) (e : Nat), Canonical s → sl < 64 → st < 16 →
      courseHead c = some (sl, st, ok) → s.headEntry sl st = some e → ok e = true →
      nearlyReady s (s.die sl) st (strm s sl st) e = true → u = State.seek sl st (s.seekBound sl e) (s.atAc sl) →
      u.wouldIssue sl st u.ac = true → (∀ f ∈ (s.die sl).flight, f.stream < 16) →
      Completes c s fun t => SameStores s t ∧ (t.die sl).flight = (s.die sl).flight ∧ (t.die sl).tokens = (s.die sl).tokens
        ∧ strm t sl st = { strm u sl st with held := true } ∧ t.clock = u.clock ∧ (∀ k, k ≠ sl → Kept (s.die k) (t.die k))
        ∧ ((strm s sl st).held = false →
            t.reg P.guardCollisions sl = min (s.reg P.guardCollisions sl + 1) (2 ^ 64 - 1)
            ∧ bit (t.val (P.guardRecord + sl)) 23 = true)
        ∧ ((strm s sl st).held = true → t = u))

namespace Sys2Proof.Claims

/-- A 64-bit counter of R363 after one more count. -/
def inc64 (n : Nat) : Nat := min (n + 1) (2 ^ 64 - 1)
/-- Every rank of a used group is reached over a stream number of 16 bits, as the type of MemberTable admits (Table 10-7). -/
def StreamsInRange (s : State) : Prop :=
  ∀ kv ∈ s.params, kv.1 / 2 ^ 24 = P.groupTable → ∀ q, q < bits kv.2 0 16 → s.reg P.memberTable (geFirst kv.2 + q) < 2 ^ 16
/-- A 32-bit counter of R363 after one more count. -/
def inc32 (n : Nat) : Nat := min (n + 1) (2 ^ 32 - 1)

end Sys2Proof.Claims

/-- Where the step may open, stepOpen completes at the present time with the step's books open: every die's streams at their first
entry, base registers 0, ended where the active set gives them no entry, and no entry in flight; where no held write and no
previous table stands against it, the step number is higher by 1. With a step open, the gate closed, the module not Ready, a
restore in progress or an undecided earlier step, stepOpen changes nothing. R20, R44, R45, R250. -/
def Obligations.StepOpensAtTheNextNumberWhenAllowed : Prop :=
  (
    ∀ s : State, Canonical s → s.mayOpen = true →
      Completes .stepOpen s fun t => t.seq.firstOpen = false ∧ t.seq.everOpen = true ∧ t.seq.openedAt = s.clock.now
        ∧ t.clock = s.clock ∧ t.seq.changedAt = [] ∧ t.pending = s.pending
        ∧ (s.held = [] → (∀ kv ∈ s.upd.tables, kv.1 / 2 ^ 24 ∈ groupTables) → t.step = s.step + 1)
        ∧ ∀ sl, sl < 64 → (t.die sl).flight = [] ∧ ∀ k, k < 16 → let x := strm t sl k
          x.head = 0 ∧ x.x = [0, 0, 0, 0] ∧ x.loops = []
            ∧ (x.ended = true ↔ t.absent sl = true ∨ ∀ set, t.seq.active = some set → set.lengthOf sl k = 0))
  ∧ (
    ∀ s : State,
      (s.seq.opened = true ∨ s.val P.stepGate < s.step + 1 ∨ s.boot ≠ 4 ∨ s.upd.restoring.isSome = true
        ∨ (∃ r ∈ s.upd.steps, r.step + 1 ≠ s.step + 1)) → exec .stepOpen s = .next s)

/-- At a boundary of a base die that has not changed yet, slotChange serves the first request in order: the copy of the slot's
tile store begins where the slot's die failed or a spare can take it, and a failed spare is retired; blameRetirement does the
same for a blamed position with no failure waiting on the base die. The request is gone, and memory, time and the work of the
dies, but that of a failed one, are unchanged. R12, R13, R353, R354, R361. -/
def Obligations.SlotChangeStartsTheCopyOfItsTileStore : Prop :=
  ∀ (s : State) (b : BaseDie) (p : Nat), Canonical s → s.mayChange b = true → p / 9 = b →
    let served (c : Instr) (k : Nat) (P : State → Prop) : Prop := Completes c s fun t =>
      t.seq.changeReq = removeFirst (· == (k, p)) s.seq.changeReq ∧ t.mem = s.mem ∧ t.clock = s.clock
        ∧ (∀ j, j ∉ s.seq.dead → Kept (s.die j) (t.die j)) ∧ P t
    let copies (sl : Nat) (t : State) : Prop := (sl, p) ∈ t.seq.copying ∧ b.val ∈ t.seq.changedAt ∧ sl ∉ t.seq.dead
    (∀ k rest, s.changesOf b = (k, p) :: rest →
      (∀ sl, s.slotOfPos p = some sl → (k = 0 ∨ (s.spareOf b).isSome = true) → served (.slotChange b) k (copies sl))
      ∧ (s.slotOfPos p = none → k = 0 → s.spareOf b = some p → served (.slotChange b) k fun t =>
          t.posState p = 3 ∧ t.spareOf b = none ∧ t.seq.copying = s.seq.copying))
    ∧ ((1, p) ∈ s.seq.changeReq → (∀ r ∈ s.seq.changeReq, r.1 = 0 → r.2 / 9 ≠ b) → ∀ q : Position, q.val = p →
      (∀ sl, s.slotOfPos p = some sl → served (.blameRetirement q) 1 (copies sl))
      ∧ (s.slotOfPos p = none → s.spareOf b = some p → served (.blameRetirement q) 1 fun t =>
          t.posState p = 3 ∧ t.spareOf b = none ∧ t.seq.copying = s.seq.copying))

/-- At the boundary of a base die that is cut off, baseDieOutOfService completes with the base die out of service, its spare gone
and the copy of each present slot begun; slotCopyComplete completes with the base die's copies removed, time unchanged and, where
its slots have kept a die and every tile was read, the stores unchanged. R12, R13, R344, R355. -/
def Obligations.CutOffSlotsLeaveAndCopiesEnd : Prop :=
  (
    ∀ (s : State) (b : BaseDie), Canonical s → s.atBoundary b = true → b.val ∈ s.panel.cutOff →
      Completes (.baseDieOutOfService b) s fun t => b.val ∉ t.panel.cutOff ∧ b.val ∈ t.panel.out ∧ t.mem = s.mem
        ∧ t.clock = s.clock ∧ t.spareOf b = none
        ∧ (∀ k, k < 8 → s.absent (8 * b + k) = false → t.absent (8 * b + k) = true
            ∧ (8 * b + k, 9 * b + s.slotPos (8 * b + k)) ∈ t.seq.copying)
        ∧ ∀ j, j ∉ s.seq.dead → Kept (s.die j) (t.die j))
  ∧ (
    ∀ (s : State) (b : BaseDie) (bad : List Nat), (s.seq.copying.any fun c => c.1 / 8 == b.val) = true → Canonical s →
      (∀ c ∈ s.seq.copying, c.1 < 64) →
      Completes (.slotCopyComplete b bad) s fun t => t.seq.copying = s.seq.copying.filter (fun c => c.1 / 8 != b.val)
        ∧ t.clock = s.clock
        ∧ (bad = [] → (∀ c ∈ s.seq.copying, c.1 / 8 = b → s.absent c.1 = false) → SameStores s t))

/-- updateStart on an idle base die with a queued shard completes with the shard running, its record in phase 1 with the write
step and no restarts, and updates that have arrived behind those that wait already. updateInterrupt below three restarts
completes with one restart more in the record and the counter, and the progress cleared; at three it ends the update and stops
the shard in its step. shardWritten completes with the base die idle and the record in phase 2. R136, R152, R156. -/
def Obligations.ShardUpdatesStartRestartAndComplete : Prop :=
  (
    ∀ (s : State) (b : BaseDie) (sh n : Nat) (rest : List (Nat × Nat)), Canonical s → sh < 1024 →
      nth s.upd.running b none = none → nth s.upd.queues b [] = (sh, n) :: rest →
      Completes (.updateStart b) s fun t => nth t.upd.running b none = some (sh, n) ∧ rest <+: nth t.upd.queues b []
        ∧ (∀ k, k ≠ b.val → nth t.upd.running k none = nth s.upd.running k none ∧ nth s.upd.queues k [] <+: nth t.upd.queues k [])
        ∧ (s.upd.triggered = [] → s.upd.arrived = [] → t.upd.queues = setAt [] s.upd.queues b rest)
        ∧ srPhase (t.shardRec sh) = 1 ∧ srHalf (t.shardRec sh) = srHalf (s.shardRec sh)
        ∧ srWriteStep (t.shardRec sh) = n % 2 ^ 64 ∧ srRestarts (t.shardRec sh) = 0
        ∧ srCommitted (t.shardRec sh) = srCommitted (s.shardRec sh)
        ∧ OnlyRegs [P.shardRecords] s t ∧ SameStores s t ∧ t.clock = s.clock ∧ t.seq = s.seq)
  ∧ (
    ∀ (s : State) (b : BaseDie) (sh n : Nat), Canonical s → sh < 1024 →
      nth s.upd.running b none = some (sh, n) →
      (srRestarts (s.shardRec sh) < 3 →
        Completes (.updateInterrupt b) s fun t => nth t.upd.running b none = some (sh, n)
          ∧ srRestarts (t.shardRec sh) = srRestarts (s.shardRec sh) + 1 ∧ bits (t.shardRec sh) 3 4 = 0
          ∧ srCheck (t.shardRec sh) = 0 ∧ srPhase (t.shardRec sh) = srPhase (s.shardRec sh)
          ∧ t.reg P.restarts b = inc32 (s.reg P.restarts b)
          ∧ OnlyRegs [P.shardRecords, P.restarts] s t ∧ SameStores s t ∧ t.upd = s.upd)
      ∧ (3 ≤ srRestarts (s.shardRec sh) →
        Completes (.updateInterrupt b) s fun t => nth t.upd.running b none = none ∧ t.mem = s.mem
          ∧ (∀ r ∈ s.upd.steps, r.step = n → ∃ r' ∈ t.upd.steps, r'.step = n ∧ r'.stopped = true
              ∧ ∃ x ∈ r'.shards, x.shard = sh ∧ x.stage = 5 ∧ bit x.bits 3 = true)))
  ∧ (
    ∀ (s : State) (b : BaseDie) (sh n : Nat) (wrong : List Miswrite), Canonical s → StreamsInRange s → sh < 1024 →
      nth s.upd.running b none = some (sh, n) → s.upd.kept = [] →
      let d := capReg (s.capturedOf n) P.shardTable sh
      s.unloaded (updateTiles d n) = [] →
      Completes (.shardWritten b wrong) s fun t => nth t.upd.running b none = none ∧ srPhase (t.shardRec sh) = 2
        ∧ srHalf (t.shardRec sh) = srHalf (s.shardRec sh) ∧ srWriteStep (t.shardRec sh) = srWriteStep (s.shardRec sh)
        ∧ t.mem.pages = s.mem.pages ∧ t.clock = s.clock)

/-- collCompletionReport completes with the report removed and its group's count in the step record higher by 1.
shardTriggerStall and commitStall complete StallLimit microseconds after the step's last completion or verification, mark the
stall as told, and raise the event; commitStall also counts. R133, R135, R257. -/
def Obligations.ReportsCountAndStallsAreToldOnce : Prop :=
  (
    ∀ (s : State) (g : GroupIx) (n : W64) (r : StepRec), Canonical s → (g.val, n.toNat) ∈ s.upd.reports →
      s.stepRec n.toNat = some r →
      Completes (.collCompletionReport g n) s fun t => t.upd.reports = removeFirst (· == (g.val, n.toNat)) s.upd.reports
        ∧ (∃ r' ∈ t.upd.steps, r'.step = n.toNat ∧ Sparse.get zeros r'.counts g = Sparse.get zeros r.counts g + 1)
        ∧ t.upd.running = s.upd.running ∧ SameStores s t ∧ t.seq = s.seq ∧ t.clock = s.clock)
  ∧ (
    (∀ (s : State) (sh : ShardIx) (r : StepRec), Canonical s → s.val P.stallLimit ≠ 0 →
      s.upd.steps.find? (fun r =>
        let d := capReg (s.capturedOf r.step) P.shardTable sh
        r.isFinal && sdRule d != 0xFF && !r.stallTold.contains sh.val
          && decide (Sparse.get zeros r.counts (sdTrigger d) < sdTriggerCount d)) = some r →
      Completes (.shardTriggerStall sh) s fun t =>
        t.upd.steps = s.upd.steps.map (fun k => if k.step = r.step then { r with stallTold := sh.val :: r.stallTold } else k)
        ∧ t.clock.now = max s.clock.now (r.finalAt + s.val P.stallLimit * 9000)
        ∧ t.reg P.eventsRaised 6 = inc64 (s.reg P.eventsRaised 6) ∧ OnlyRegs eventRegs s t ∧ SameStores s t ∧ t.seq = s.seq)
    ∧ (∀ (s : State) (r : StepRec) (q : Nat), Canonical s → s.val P.stallLimit ≠ 0 →
      s.upd.steps.find? (fun r => r.verifiedAt.isSome && !r.commitTold) = some r → q ∈ s.closingRanks →
      s.commitFrom r.step q = none →
      Completes .commitStall s fun t =>
        t.upd.steps = s.upd.steps.map (fun k => if k.step = r.step then { r with commitTold := true } else k)
        ∧ t.clock.now = max s.clock.now (r.verifiedAt.getD 0 + s.val P.stallLimit * 9000)
        ∧ t.reg P.commitStalls 0 = inc32 (s.reg P.commitStalls 0)
        ∧ OnlyRegs (P.commitStalls :: eventRegs) s t ∧ SameStores s t ∧ t.seq = s.seq))

/-- Each of the six replica record commands, of a message whose step has no record yet, completes with the record kept and the
step records, memory and sequencing unchanged. A STOP record of an undecided step completes with the shard stopped in the
step's record. R259, R260, R414. -/
def Obligations.ReplicaRecordsAreKeptAndStopsResolve : Prop :=
  (
    ∀ (s : State) (ns : NetIx) (typ : Nat) (k : Kept) (u : State), s.takeReplica ns typ = (some k, u) →
      u.stepRec k.step = none →
      let kept (c : Instr) : Prop := Completes c s fun t => t.upd.kept = s.upd.kept ++ [k] ∧ t.upd.steps = s.upd.steps
        ∧ k.typ = typ ∧ k.ns = ns ∧ t.mem = s.mem ∧ t.seq = s.seq ∧ t.clock = s.clock
      (typ = 0 → kept (.digestRecord ns)) ∧ (typ = 1 → kept (.commitRecord ns)) ∧ (typ = 2 → kept (.recheckRecord ns))
      ∧ (typ = 3 → kept (.copyTileRecord ns)) ∧ (typ = 4 → kept (.copyMomentsRecord ns)) ∧ (typ = 5 → kept (.stopRecord ns)))
  ∧ (
    ∀ (s : State) (ns : NetIx) (k : Kept) (u : State), s.takeReplica ns 5 = (some k, u) →
      u.undecided k.step = true →
      Completes (.stopRecord ns) s fun t => ∃ r ∈ t.upd.steps, r.step = k.step
        ∧ ∃ x ∈ r.shards, x.shard = k.shard ∧ x.stage = 5 ∧ bit x.bits 3 = true)

/-- commitRecordFormed of a verifiable step completes: with no closing group, or with every rank's COMMIT record held, with the step
decided, its record gone and its entry in StepLog, COMMITTED where the final commit word is 0 and SKIPPED otherwise; with a
rank whose COMMIT record is missing, with the verification time and own word in the record. recheck completes with one round
more and the counter higher by 1, and in the recheck stage where no recheck record of another rank is held. R254 to R257,
R261. -/
def Obligations.VerifiedStepsAreDecidedAndRechecked : Prop :=
  (
    ∀ (s : State) (r : StepRec), Canonical s → StreamsInRange s → s.upd.steps.find? (fun r => s.verifiable r) = some r →
      let word := ((s.closingRanks.map (s.commitFrom r.step)).filterMap id).foldl Nat.lor (s.ownCommitWord r)
      ((∀ q ∈ s.closingRanks, (s.commitFrom r.step q).isSome = true) → Completes .commitRecordFormed s fun t =>
        (∀ k ∈ t.upd.steps, k.step ≠ r.step) ∧ t.clock = s.clock ∧ t.mem.tiles = s.mem.tiles
          ∧ (word = 0 → t.reg P.stepLog 63 = r.step + 2 ^ 64 * 4
              ∧ t.reg P.stepsCommitted 0 = min (s.reg P.stepsCommitted 0 + 1) (2 ^ 64 - 1))
          ∧ (word ≠ 0 → ∃ i, i < 64 ∧ t.reg P.stepLog i = r.step + 2 ^ 64 * 5 + 2 ^ 72 * 2 + 2 ^ 192 * word))
      ∧ (∀ q, q ∈ s.closingRanks → s.commitFrom r.step q = none →
        Completes .commitRecordFormed s fun t =>
          t.upd.steps = s.upd.steps.map (fun k => if k.step = r.step then
            { r with verifiedAt := some s.clock.now, ownWord := s.ownCommitWord r } else k)
          ∧ SameStores s t ∧ t.clock = s.clock))
  ∧ (
    ∀ (s : State) (sh : ShardIx) (r : StepRec) (x : ShardCommit), Canonical s → StreamsInRange s →
      s.upd.steps.find? (fun r => match r.shard sh with
        | some x => x.stage == 1
        | none => false) = some r → r.shard sh = some x →
      Completes (.recheck sh) s fun t =>
        (∃ r' ∈ t.upd.steps, r'.step = r.step ∧ ∃ y ∈ r'.shards, y.shard = x.shard ∧ y.rounds = x.rounds + 1
          ∧ (s.keptOf r.step sh 2 = [] → y.stage = 2 ∧ SameStores s t ∧ t.mem = s.mem ∧ t.seq = s.seq))
        ∧ t.reg P.rechecks 0 = inc64 (s.reg P.rechecks 0) ∧ t.clock = s.clock)

/-- checkpointComplete with success, of a checkpoint whose payload header has its values, completes with the checkpoint last in the
journal of at most 256, JournalHead and the counter set and its bytes written; without, with the journal unchanged and the
event raised; before the open that gives those values it waits. restoreComplete completes with RestoreStatus 4 where the
payload read back has another PayloadCrc, and otherwise, where every section's digest matches, with the step, OptStep, the
seeds and the memory of the checkpoint. R208 to R211, R266 to R269. That the header waits for the next open is assumption
log 92. -/
def Obligations.CheckpointsAreRecordedAndRestored : Prop :=
  (
    ∀ (s : State) (ck : Checkpoint) (rest : List Checkpoint), Canonical s → s.upd.writing = ck :: rest →
      let apart (t : State) : Prop := t.mem.pages = s.mem.pages ∧ t.pending = s.pending ∧ t.clock = s.clock ∧ t.seq = s.seq
      (ck.headed = false → ∀ b, exec (.checkpointComplete b) s = .next s)
      ∧ (ck.headed = true → Completes (.checkpointComplete true) s (fun t => t.upd.writing = rest
          ∧ t.journal.complete.getLast? = some ck
          ∧ t.journal.complete.length ≤ 256 ∧ t.val P.journalHead = ck.number ∧ t.val P.journalStatus = 0
          ∧ t.reg P.checkpointsWritten 0 = inc64 (s.reg P.checkpointsWritten 0)
          ∧ OnlyRegs [P.journalHead, P.journalStatus, P.checkpointsWritten, P.luWrites, P.discardedWrites] s t ∧ apart t)
        ∧ Completes (.checkpointComplete false) s (fun t => t.upd.writing = rest ∧ t.journal = s.journal
          ∧ t.reg P.eventsRaised 7 = inc64 (s.reg P.eventsRaised 7)
          ∧ OnlyRegs ([P.luWrites, P.discardedWrites] ++ eventRegs) s t ∧ apart t)))
  ∧ (
    ∀ (s : State) (c : Checkpoint), Canonical s →
      (s.upd.restoring.bind fun k => s.journal.complete.find? fun c => c.number == k) = some c →
      let u := c.sections.foldl State.writeSection { s with upd := { s.upd with restoring := none } }
      (s.payloadGood c = false →
        Completes .restoreComplete s fun t => t.upd.restoring = none ∧ t.val P.restoreStatus = 4 ∧ t.val P.journalStatus = 3
          ∧ t.mem.pages = s.mem.pages)
      ∧ (s.payloadGood c = true →
        (∀ x ∈ c.sections, u.shardDigest (u.reg P.shardTable x.shard) 0 = x.digest) → (∀ x ∈ c.sections, x.shard < 1024) →
        Completes .restoreComplete s fun t => t.upd.restoring = none ∧ t.val P.restoreStatus = 0 ∧ t.step = c.step
          ∧ t.val P.decidedStep = c.step ∧ t.val P.optStep = c.optStep ∧ t.val P.updateSeed = c.updateSeed
          ∧ t.val P.accumSeed = c.accumSeed ∧ t.seq.firstOpen = true ∧ t.upd.kept = [] ∧ t.mem = u.mem))

/-- riffleCheckComplete without a difference ends the check with verdict 0; with one it sends the check to the arbiter;
riffleArbiterComplete ends it with verdict 2, 1 or 3 as the arbiter's results agree with the array's, agree with the checker's
in reference set and conversion, or neither, and a checker proved wrong is excluded; a capture lost to the buffer ends the
check as dropped for it; riffleLapsed ends it with verdict 5 after RiffleDeadline. The verdict's counter is higher by 1 and
the stores are unchanged. R271, R274, R275, R276, R277. -/
def Obligations.RiffleVerdictsEndTheirCheck : Prop :=
  ∀ (s : State) (id : Nat) (c : Check) (errs : ArrayErrors), Canonical s → c.slot < 64 → c.array < 2 → c.checker < 128 →
    c.position < 72 → c.checkerPos < 72 →
    let ended (v : Nat) (t : State) : Prop :=
      t.riffle.checks = s.riffle.checks.filter (fun k => k.id != c.id) ∧ t.reg P.verdicts v = inc64 (s.reg P.verdicts v)
      ∧ SameStores s t
    let lost (t : State) : Prop := ended 4 t ∧ t.reg P.droppedReasons 3 = inc64 (s.reg P.droppedReasons 3)
      ∧ OnlyRegs [P.verdicts, P.droppedReasons] s t ∧ t.clock = s.clock ∧ t.seq = s.seq
    (s.riffle.checks.find? (fun c => c.id == id && c.stage == 1) = some c →
      ((c.fails errs).isNone = true → Completes (.riffleCheckComplete id ⟨errs, false⟩) s (ended 0))
      ∧ ((c.fails errs).isNone = false →
        Completes (.riffleCheckComplete id ⟨errs, false⟩) s fun t => SameStores s t ∧ t.riffle.checks = s.riffle.checks.map
          fun k => if k.id = id then { k with stage := 2, errs := errs } else k)
      ∧ Completes (.riffleCheckComplete id ⟨errs, true⟩) s lost)
    ∧ (s.riffle.checks.find? (fun c => c.id == id && c.stage == 2) = some c →
      Completes (.riffleArbiterComplete id ⟨errs, false⟩) s (fun t =>
        ended (if (c.fails errs).isNone then 2 else if c.same errs c.errs then 1 else 3) t
        ∧ ((c.fails errs).isNone = true → c.checker ∈ t.riffle.excluded))
      ∧ Completes (.riffleArbiterComplete id ⟨errs, true⟩) s lost)
    ∧ (∀ m, s.riffle.checks.find? (fun c => c.id == id) = some c → s.metTime c.stamp = some m →
      Completes (.riffleLapsed id) s fun t => ended 5 t
        ∧ t.clock.now = max s.clock.now (m + s.val P.riffleDeadline * 9000) ∧ OnlyRegs [P.verdicts] s t)

namespace Sys2Proof.Claims

/-- Outside the parameters, the clock, the event log, the dies, the weir and the supply, nothing changes. -/
def Apart (s t : State) : Prop :=
  t.mem = s.mem ∧ t.flash = s.flash ∧ t.net = s.net ∧ t.riffle = s.riffle ∧ t.upd = s.upd ∧ t.journal = s.journal
    ∧ t.panel = s.panel ∧ t.fw = s.fw ∧ t.nor = s.nor ∧ t.host = s.host ∧ t.dir = s.dir ∧ t.held = s.held
    ∧ t.pending = s.pending

/-- R298, R383: what an orderly reset leaves: volatile state is at its reset values, flash and SPI NOR keep their content, and the
reset record names the cause, the sensor and the count. -/
def AfterReset (s t : State) (cause sensor : Nat) : Prop :=
  t.params = [] ∧ t.mem = {} ∧ t.seq = {} ∧ t.net = {} ∧ t.upd = {} ∧ t.riffle = {} ∧ t.panel = {} ∧ t.fw = {} ∧ t.held = []
    ∧ t.clock = {} ∧ t.supply.powering = false ∧ t.supply.released = false ∧ t.supply.refGood = s.supply.refGood
    ∧ t.nor.consumed = false ∧ bits t.nor.cause 0 8 = cause ∧ bits t.nor.cause 8 8 = sensor
    ∧ bits t.nor.cause 16 16 = min (bits s.nor.cause 16 16 + 1) 0xFFFF
    ∧ t.nor.field = s.nor.field ∧ t.nor.sigs = s.nor.sigs ∧ t.nor.boot0 = s.nor.boot0 ∧ t.nor.boot1 = s.nor.boot1
    ∧ t.nor.slotA = s.nor.slotA ∧ t.nor.slotB = s.nor.slotB ∧ t.journal = s.journal ∧ t.pending = s.pending

end Sys2Proof.Claims

/-- weirSample completes 100 microseconds after the last sample with every reading in its register and the hot sensors kept;
powerGearRise raises the power gear by 1 after a second of low power; coolantOutOfRange tells the start after its time and the
end; supplyDip below the warning level takes supply gear 0, empties the buckets and reserves and raises the event, and counts where
the supply gear was not 0 already;
supplyRecovered gives supply gear 7 back after the hold; supplyHystCrossing only records the level. R285, R292 to R297. -/
def Obligations.WeirReadingsAndGearsFollowTheSupply : Prop :=
  (
    ∀ (s : State) (x : WeirReadings), Canonical s → s.weirRuns = true →
      Completes (.weirSample x) s fun t => t.clock.now = max s.clock.now (s.weir.lastSample + 900000)
        ∧ t.weir.lastSample = t.clock.now ∧ t.weir.waited = false
        ∧ t.val P.inputPower = x.pIn.toNat ∧ t.val P.inputVoltage = x.vIn.toNat
        ∧ (∀ i, i < 6 → t.reg P.railPower i = (nth x.rails i 0).toNat)
        ∧ (∀ i, i < 96 → t.reg P.temperatures i = (nth x.temps i 0).toNat)
        ∧ t.reg P.coolantTemps 0 = x.inlet.toNat ∧ t.reg P.coolantTemps 1 = x.outlet.toNat
        ∧ t.weir.powerLimit = s.val P.powerLimit ∧ t.weir.gearCap = s.val P.gearCap ∧ t.weir.depth = s.val P.bucketDepth
        ∧ (∀ k, k < 96 → ((∃ since, (k, since) ∈ t.weir.hot) ↔
            fge (nth x.temps k 0).toNat (s.val (if k < 80 then P.hardLimit else P.hbmLimit)) = true))
        ∧ (coolantOutside x.inlet.toNat = false → t.weir.coolSince = none) ∧ Apart s t)
  ∧ (
    ∀ s : State, Canonical s →
      (∀ t0, s.weirRuns = true → s.weir.powerGear ≠ 7 → s.weir.lowSince = some t0 → t0 + 9000000 ≤ s.weir.lastSample →
        Completes .powerGearRise s fun t => t.weir.powerGear = s.weir.powerGear + 1 ∧ t.weir.lowSince = some s.weir.lastSample
          ∧ t.reg P.moduleGear 1 = s.weir.powerGear + 1 ∧ t.clock = s.clock ∧ Apart s t)
      ∧ (∀ (x : W32) (t0 : Nat), s.weirRuns = true → s.weir.coolOut = false → s.weir.coolSince = some t0 →
        coolantOutside x.toNat = true →
        Completes (.coolantOutOfRange x) s fun t => t.weir.coolOut = true ∧ t.clock.now = max s.clock.now (t0 + 9000000000)
          ∧ t.reg P.eventsRaised 2 = inc64 (s.reg P.eventsRaised 2) ∧ OnlyRegs eventRegs s t ∧ t.seq = s.seq ∧ Apart s t)
      ∧ (∀ x : W32, s.weirRuns = true → s.weir.coolOut = true → coolantOutside x.toNat = false →
        Completes (.coolantOutOfRange x) s fun t => t.weir.coolOut = false ∧ t.weir.coolSince = none ∧ t.clock = s.clock
          ∧ t.reg P.eventsRaised 2 = inc64 (s.reg P.eventsRaised 2) ∧ OnlyRegs eventRegs s t ∧ t.seq = s.seq ∧ Apart s t)
      ∧ (∀ v : W32, flt v.toNat (s.level 5) = true → s.supply.released = true →
        Completes (.supplyDip v) s fun t => t.weir.supplyGear = 0 ∧ (∀ k, k < 64 → t.reg P.dieGear k = 0)
          ∧ (∀ i, nth t.weir.buckets i 0 = 0 ∧ nth t.weir.reserves i 0 = 0)
          ∧ t.weir.dipAt = (if s.weir.supplyGear = 0 then s.weir.dipAt else s.clock.now)
          ∧ t.reg P.supplyDips 0 = (if s.weir.supplyGear = 0 then s.reg P.supplyDips 0 else inc32 (s.reg P.supplyDips 0)) ∧ t.reg P.eventsRaised 2 = inc64 (s.reg P.eventsRaised 2)
          ∧ t.supply = { s.supply with qualified := false } ∧ t.clock = s.clock ∧ Apart s t)
      ∧ (∀ t0, s.weir.hystSince = some t0 → s.supply.released = true → s.weir.supplyGear = 0 →
        Completes .supplyRecovered s fun t => t.weir.supplyGear = 7 ∧ t.reg P.moduleGear 0 = 7
          ∧ t.clock.now = max s.clock.now (t0 + s.level 8 * 9000)
          ∧ t.reg P.eventsRaised 2 = inc64 (s.reg P.eventsRaised 2) ∧ t.supply = s.supply ∧ Apart s t)
      ∧ (∀ v : W32, exec (.supplyHystCrossing v) s = .next { s with
          supply := { s.supply with qualified := s.recovered v.toNat }
          weir := { s.weir with
            hystSince := if s.recovered v.toNat then some (s.weir.hystSince.getD s.clock.now) else none } }))

/-- hardLimitPersist, resetLevelCrossing (both directions), enableOpen, watchdogExpiry, trialBootTimeout and the host's
MODULE_RESET complete with parameters, memory, sequencers, network, updates, riffle and panel at reset, the cause, sensor and
count in the reset record, and flash and the SPI NOR's other content kept. R294, R298, R310, R330, R347, R383. -/
def Obligations.ResetsLeaveTheirCauseAndDropVolatileState : Prop :=
  ∀ s : State,
    (∀ (k : Sensor) (h : Nat × Nat), s.weir.hot.find? (fun h => h.1 == k.val) = some h → h.2 + 9000000 ≤ s.weir.lastSample →
      Completes (.hardLimitPersist k) s fun t => AfterReset s t 3 k)
    ∧ (∀ v : W32, s.powered = true →
      (flt v.toNat (s.level 6) = true → Completes (.resetLevelCrossing v) s fun t => AfterReset s t 1 0
        ∧ t.supply.input38 = fge v.toNat 0x42180000 ∧ t.supply.closed = (s.supply.closed && fge v.toNat 0x42180000))
      ∧ (flt v.toNat (s.level 6) = false → flt (s.level 9) v.toNat = true →
        Completes (.resetLevelCrossing v) s fun t => AfterReset s t 2 0))
    ∧ (s.supply.closed = true → Completes .enableOpen s fun t => AfterReset s t 1 0 ∧ t.supply.mated = false
        ∧ t.supply.closed = false)
    ∧ (s.weirRuns = true → Completes .watchdogExpiry s fun t => AfterReset s t 5 0)
    ∧ (s.fw.trialBoot = true → s.supply.released = true → s.boot < 4 →
        Completes .trialBootTimeout s fun t => AfterReset s t 5 0)
    ∧ (∀ (q : QueueIx) (n : Nat) (c : HostCmd), s.startable 0 q n = some c → c.opcode = 0x38 → c.malformed = false →
        c.arg 0x20 4 = 0x54535752 → Completes (.moduleReset 0 q n) s fun t => AfterReset s t 4 0)

/-- enableMate and inputRisesTo38V set their part of the input; qualification completes with powering begun; panelResetRelease
completes with time 0, a topology epoch of at least 1, the identity state, the reset cause, and boot state 6 where the base
record is bad; enterFirmware, enterPanel, enterMemory and enterReady complete with the next boot state and its time, and
enterPanel with every rill's two ends on one mask, which without new faults leaves out exactly the groups whose faults exceed
their two spares. R342, R351, R382 to R385, R405. -/
def Obligations.PowerUpRunsFromQualificationToReady : Prop :=
  ∀ s : State, Canonical s →
    exec .enableMate s = .next { s with supply := { s.supply with mated := true, closed := s.supply.closed || s.supply.input38 } }
    ∧ (∀ v : W32, fge v.toNat 0x42180000 = true → exec (.inputRisesTo38V v) s = .next { s with supply := { s.supply with
        input38 := true, closed := s.supply.closed || s.supply.mated, qualified := s.recovered v.toNat } })
    ∧ (s.supply.mated = true → s.supply.closed = true → s.supply.qualified = true → s.powered = false →
      Completes .qualification s fun t => t.supply = { s.supply with powering := true } ∧ t.fw.release ≤ 12000
        ∧ t.params = s.params ∧ t.nor = s.nor ∧ t.clock = s.clock ∧ SameStores s t)
    ∧ (∀ seed : Option (BitVec 256), s.supply.powering = true → s.supply.refGood = true →
      Completes (.panelResetRelease seed) s fun t => t.supply = { s.supply with powering := false, released := true }
        ∧ t.clock.now = 0 ∧ t.panelTime = 0 ∧ 1 ≤ t.val P.topologyEpoch ∧ t.val P.identityState = (if seed.isSome then 0 else 2)
        ∧ t.val P.resetCause = (if s.nor.consumed then s.nor.cause / 2 ^ 16 * 2 ^ 16 else s.nor.cause) ∧ t.nor.consumed = true
        ∧ (Config.recordGood = false → t.boot = 6) ∧ SameStores s t)
    ∧ (let entered (c : Instr) (b : Nat) (Q : State → Prop) : Prop := Completes c s fun t => t.boot = b ∧ t.clock = s.clock
        ∧ t.reg P.bootTimes (b - 1) = min (s.clock.now / 9000 + s.fw.release) 0xFFFFFFFF ∧ t.supply = s.supply ∧ Q t
      (s.supply.released = true → s.boot = 0 → entered .enterFirmware 1 fun t => t.fw = { s.fw with retry := false }
          ∧ OnlyRegs [P.bootState, P.bootTimes] s t ∧ SameStores s t ∧ t.nor = s.nor)
      ∧ (∀ x : PanelTest, s.boot = 1 → entered (.enterPanel x) 2 fun t =>
          let f := (if x.fieldBad then s.dropField else s).fieldState
          let used (r d g : Nat) : Nat := min (Config.factoryRillRepairs r d g).toNat 2 + Sparse.get zeros f.repairs (rillKey r d g)
          (∀ p ∈ x.badPositions, t.posState p = 3) ∧ t.mem.pages = s.mem.pages ∧ t.pending = s.pending
          ∧ (x.fieldBad = true → t.nor.field = none ∧ t.nor.fieldDrops = s.nor.fieldDrops + 1 ∧ t.panel.fieldDirty = true)
          ∧ (∀ r, r < 10 → (t.rill r).shaking = false ∧ (t.rill r).lower = (t.rill r).upper)
          ∧ ((∀ y ∈ x.rills, y.faults = [] ∧ y.attempts = []) → x.bondFaults = [] → ∀ r g, r < 10 → g < 16 →
              bit (t.rill r).mask g = decide (used r 0 g ≤ 2 ∧ used r 1 g ≤ 2)))
      ∧ (s.boot = 2 → entered .enterMemory 3 fun t => SameStores s t ∧ t.nor = s.nor
          ∧ ∀ k, k < 48 → portFormed s.portMapIn k = true → t.reg P.linkState k = (if s.portFed k ∧ s.supply.refGood then 2 else 1))
      ∧ (s.boot = 3 → s.held = [] → s.mem.staged = [] → entered .enterReady 4 fun t => t.flash = s.flash ∧ t.held = []
          ∧ t.val P.journalHead = ((s.restoreEntries.checkJournal).journal.complete.getLast?.map Checkpoint.number).getD 0))

/-- panelResetRelease completes with the record consumed; ResetCause holds the record's count; its cause and sensor hold where
the record was not consumed, and read as 0 where it was. R383. -/
def Obligations.ResetRecordGivesTheResetCause : Prop :=
  ∀ (s : State) (seed : Option (BitVec 256)), Canonical s → s.supply.powering = true → s.supply.refGood = true →
    Completes (.panelResetRelease seed) s fun t => t.nor.consumed = true
      ∧ bits (t.val P.resetCause) 16 16 = bits s.nor.cause 16 16
      ∧ (s.nor.consumed = false → s.nor.cause < 2 ^ 32 → t.val P.resetCause = s.nor.cause)
      ∧ (s.nor.consumed = true → bits (t.val P.resetCause) 0 16 = 0)

/-- fieldStateWrite writes exactly the field state that is due; signatureStore stores the next signature with the next number
among at most 32 and raises the event; fwInstallComplete with a failure or a bad slot leaves FwStatus 0x14 and the NOR as it
was, and with a good slot leaves the image, a trial boot record where the identity is good, and FwStatus 0, or, from the
recovery loader, starts power-up again. R352, R379, R380, R388, R396, R398. -/
def Obligations.FieldStateFirmwareAndSignaturesReachTheNor : Prop :=
  ∀ s : State, Canonical s →
    (s.panel.fieldDirty = true → exec .fieldStateWrite s =
      .next { s with nor := { s.nor with field := some s.fieldNow }, panel := { s.panel with fieldDirty := false } })
    ∧ (∀ (src : Nat) (dat : List Byte) (rest : List (Nat × List Byte)), s.log.sigDue = (src, dat) :: rest →
      s.nor.sigs.length ≤ 32 →
      Completes .signatureStore s fun t => t.log.sigDue = rest
        ∧ t.nor.sigs.getLast? = some { id := s.nor.sigSeq + 1, acked := false, dat := dat } ∧ t.nor.sigs.length ≤ 32
        ∧ t.nor.sigSeq = s.nor.sigSeq + 1 ∧ t.reg P.eventsRaised 7 = inc64 (s.reg P.eventsRaised 7)
        ∧ OnlyRegs eventRegs s t ∧ SameStores s t ∧ t.clock = s.clock ∧ t.seq = s.seq)
    ∧ (s.fwState = 2 →
      Completes (.fwInstallComplete false) s (fun t => t.val P.fwStatus = 0x14 ∧ t.nor = s.nor ∧ OnlyRegs [P.fwStatus] s t
        ∧ SameStores s t ∧ t.clock = s.clock ∧ t.fw = s.fw)
      ∧ (let size := leField (imageBytes (Sparse.get zeros s.fw.staged) 0 1024) 0x18 8
         let elems := s.fw.staged.filter fun kv => decide (kv.1 < ceilDiv size 4096)
         let w : State := { s with nor := s.nor.setSlot s.fw.target (.image elems) }
         Completes (.fwInstallComplete true) s fun t =>
           (w.slotGood s.fw.target = false → t.val P.fwStatus = 0x14 ∧ t.nor = s.nor ∧ t.boot = s.boot)
           ∧ (w.slotGood s.fw.target = true → t.nor.slot s.fw.target = .image elems
             ∧ (s.val P.identityState = 0 → ∃ r, (t.nor.boot0 = some r ∨ t.nor.boot1 = some r) ∧ r.trial = s.fw.target
                 ∧ r.trialCount = 0 ∧ r.trialResult = 0)
             ∧ (s.boot ≠ 5 → t.val P.fwStatus = 0 ∧ OnlyRegs [P.fwStatus] s t ∧ t.clock = s.clock ∧ t.fw = s.fw ∧ SameStores s t)
             ∧ (s.boot = 5 → t.boot = 0 ∧ t.supply.powering = true ∧ t.supply.released = false))))

/-- refLoss completes with RootLock 1, the loss counted, a locked PTP client in holdover, every training or up port down and
flapping ports counted, and the host link down; refReturn completes with RootLock 0 and, from boot state 3, formed ports
training where they are fed. R235, R348. -/
def Obligations.ReferenceLossTakesLinksDownUntilItReturns : Prop :=
  ∀ s : State, Canonical s → s.supply.released = true →
    (s.supply.refGood = true → Completes .refLoss s fun t => t.supply = { s.supply with refGood := false }
      ∧ t.val P.rootLock = 1 ∧ t.reg P.refLosses 0 = inc32 (s.reg P.refLosses 0)
      ∧ (s.val P.ptpRole = 1 → s.val P.timeState = 2 → t.val P.timeState = 3)
      ∧ (∀ k, k < 48 → t.reg P.linkState k = (if s.reg P.linkState k = 2 ∨ s.reg P.linkState k = 3 then 1 else s.reg P.linkState k))
      ∧ (∀ k, k < 48 → s.reg P.linkState k = 3 → t.reg P.linkFlaps k = inc32 (s.reg P.linkFlaps k))
      ∧ t.val P.hostLinkState = 0 ∧ SameStores s t ∧ t.clock = s.clock ∧ t.seq = s.seq)
    ∧ (s.supply.refGood = false → Completes .refReturn s fun t => t.supply = { s.supply with refGood := true }
      ∧ t.val P.rootLock = 0
      ∧ (s.up 3 = true → ∀ k, k < 48 → portFormed s.portMapIn k = true → t.reg P.linkState k = (if s.portFed k then 2 else 1))
      ∧ OnlyRegs [P.rootLock, P.linkState, P.hostLinkState] s t ∧ SameStores s t ∧ t.clock = s.clock ∧ t.seq = s.seq)

/-- rillFlitCrcError completes with the replays counted and remembered; rillErrorLimit starts the handshake where the group's
replays of the last millisecond exceed the limit; in rillTrainingAttempt each end keeps the groups whose faults its spares cover;
it ends the handshake where both ends agree, narrows the agreement once, and then settles on the common groups and counts the
mapped-out ones; partialReset starts the handshake of exactly the rills
that end on the base die. R341, R342, R343. -/
def Obligations.RillReplaysHandshakesAndResets : Prop :=
  ∀ (s : State) (r : RillIx), Canonical s →
    let x := s.rill r
    let others (t : State) : Prop := (∀ k, k ≠ r.val → t.rill k = s.rill k) ∧ SameStores s t ∧ t.clock = s.clock ∧ t.seq = s.seq
    (∀ (dir : Fin 2) (g : Fin 16) (n : Nat), bit x.mask g = true → 0 < n → n ≤ 64 → s.up 2 = true →
      Completes (.rillFlitCrcError r dir g n) s fun t =>
        t.reg P.rillReplays (16 * r + g) = min (s.reg P.rillReplays (16 * r + g) + n) (2 ^ 64 - 1)
        ∧ (16 * dir.val + g.val, s.clock.now, n) ∈ (t.rill r).recent ∧ (t.rill r).mask = x.mask ∧ others t)
    ∧ (∀ g : Fin 16, x.shaking = false →
      s.val P.rillErrorLimit < ((x.recent.filter fun e => e.1 % 16 == g.val && decide (s.clock.now ≤ e.2.1 + 9000000)).map
        fun e => e.2.2).sum →
      Completes (.rillErrorLimit r g) s fun t => (t.rill r).shaking = true ∧ (t.rill r).before = x.mask ∧ (t.rill r).fails = 0
        ∧ (t.rill r).mask = x.mask ∧ t.reg P.rillRetrains r = inc32 (s.reg P.rillRetrains r) ∧ others t)
    ∧ (∀ (lower upper : List (Fin 16 × Nat)) (took : Nat), x.shaking = true →
      let fs := attemptFaults lower upper
      let a := s.trainMask r 1 x.agreed fs
      let b := s.trainMask r 0 x.agreed fs
      let attempt (P : State → Prop) : Prop := Completes (.rillTrainingAttempt r lower upper took) s fun t => P t ∧ (∀ k, k ≠ r.val → t.rill k = s.rill k)
        ∧ SameStores s t ∧ t.seq = s.seq ∧ t.clock.now = s.clock.now + min took 1800000
        ∧ t.panel.repairs = (s.steer r x.agreed fs).panel.repairs
      (∀ d g, d < 2 → g < 16 → bit (s.trainMask r d x.agreed fs) g =
        (bit x.agreed g && decide (s.rillUsed r d g + faultsIn fs d g ≤ 2)))
      ∧ (a = b → attempt fun t => (t.rill r).shaking = false ∧ (t.rill r).mask = a
        ∧ t.reg P.rillMappedOut r = min (s.reg P.rillMappedOut r) (2 ^ 32 - 1))
      ∧ (a ≠ b → x.fails = 0 → attempt fun t => (t.rill r).shaking = true
        ∧ (t.rill r).fails = 1 ∧ (t.rill r).agreed = Nat.land a b ∧ t.params = s.params)
      ∧ (a ≠ b → x.fails ≠ 0 → attempt fun t => (t.rill r).shaking = false
        ∧ (t.rill r).mask = Nat.land a b
        ∧ t.reg P.rillMappedOut r =
            min (s.reg P.rillMappedOut r + popcount16 (Nat.lor a b - Nat.land a b)) (2 ^ 32 - 1)))
    ∧ (∀ b : BaseDie, s.up 2 = true → Completes (.partialReset b) s fun t => SameStores s t ∧ t.clock = s.clock ∧ t.seq = s.seq
        ∧ (((rillEnds r).1 = b ∨ (rillEnds r).2 = b) → (t.rill r).shaking = true
            ∧ t.reg P.rillRetrains r = inc32 (s.reg P.rillRetrains r)
            ∧ ((rillEnds r).1 = b → (t.rill r).lower = 0xFFFF - x.mappedOut)
            ∧ ((rillEnds r).2 = b → (t.rill r).upper = 0xFFFF - x.mappedOut))
        ∧ ((rillEnds r).1 ≠ b → (rillEnds r).2 ≠ b → t.rill r = x))

/-- dieFailure of a slot's die completes with the slot dead and the change requested, and with nothing else changed in the stores
while the step goes on elsewhere; of a spare with its retirement requested for the boundary;
screenStart completes at its interval with the chosen position screening and, for a slot's die, the copy begun; screenEnd
completes with the result in the screen record and the position's state as the result gives. R353 to R361. -/
def Obligations.FailedAndScreenedDiesChangeTheirState : Prop :=
  ∀ (s : State) (p : Position), Canonical s →
    (s.up 2 = true → s.posState p ≠ 3 → (0, p.val) ∉ s.seq.changeReq →
      (∀ sl, s.slotOfPos p = some sl → Completes (.dieFailure p) s fun t => sl ∈ t.seq.dead ∧ (0, p.val) ∈ t.seq.changeReq
        ∧ t.clock = s.clock
        ∧ ((s.seq.opened = false ∨ ∃ k, k < 64 ∧ k ≠ sl ∧ s.seq.dead.contains k = false ∧ s.unfinished k = true) →
            SameStores s t ∧ t.panel = s.panel ∧ t.seq.opened = s.seq.opened))
      ∧ (s.slotOfPos p = none → s.spareOf (p / 9) = some p.val →
        exec (.dieFailure p) s = .next { s with seq := { s.seq with changeReq := s.seq.changeReq ++ [(0, p.val)] } }))
    ∧ (s.screenChoice = some p.val → s.val P.screenEnable = 1 → s.boot = 4 →
      s.panel.screens.length < s.val P.screenConcurrency → s.mayChange (p / 9) = true →
      (∀ q ∈ s.seq.changeReq, q.2 / 9 ≠ p / 9) → s.spareFree (p / 9) = true →
      Completes .screenStart s fun t => t.posState p = 2 ∧ (∃ x ∈ t.panel.screens, x.position = p.val ∧ x.started = t.clock.now)
        ∧ t.clock.now = max s.clock.now (s.panel.lastScreen.getD 0 + s.val P.screenInterval * 9000000000)
        ∧ t.panel.lastScreen = some t.clock.now ∧ SameStores s t
        ∧ ∀ sl, s.slotOfPos p = some sl → (sl, p.val) ∈ t.seq.copying)
    ∧ ((s.panel.screens.any fun x => x.position == p.val) = true →
      let ended (r : ScreenResult) (st res : Nat) : Prop := Completes (.screenEnd p r) s fun t => t.posState p = st
        ∧ bits (t.screenRec p) 3 3 = res ∧ (∀ x ∈ t.panel.screens, x.position ≠ p.val) ∧ SameStores s t ∧ t.clock = s.clock
        ∧ t.seq = s.seq ∧ t.reg P.eventsRaised 10 = inc64 (s.reg P.eventsRaised 10)
      (∀ n, ended (.pass n) 1 1)
      ∧ (s.seq.opened = false → (∀ k, ended (.failPart k) 3 2) ∧ ∀ h n, ended (.failReplay h n) 3 3)
      ∧ ((s.seq.changeReq.any fun q => q.2 / 9 == p / 9 && q.1 != 1) = true → ended .abandoned 1 5))

namespace Sys2Proof.Claims

/-- Outside the tiles, the parameters, the event log and the flash, nothing changes: the entries of pages other than `p`, other
pages' tiles, the clock and the sequencers are as they were. -/
def PageFrame (s t : State) (p : Nat) : Prop :=
  (∀ q, q ≠ p → t.page q = s.page q) ∧ (∀ id, id / 64 ≠ p → t.tile id = s.tile id) ∧ t.clock = s.clock ∧ t.pending = s.pending
    ∧ t.seq.dies = s.seq.dies ∧ t.upd = s.upd ∧ t.net = s.net

/-- R197: what a load gives tile `id` of a page with entry `e`: the tile of the source page, or, without one, a poisoned tile. -/
def loadedTile (s : State) (e id : Nat) : Tile :=
  match s.sourcePage (eWidth e) (eBacking e) with
  | some q => (s.tile (64 * q + id % 64)).loaded
  | none => Tile.poison (loadWriter 0) (classFmt (eWidth e))

end Sys2Proof.Claims

/-- migrationComplete completes with the page's tier and frame those of the migration, home, unit, class and backing kept, and
the migration removed and counted; writes that waited behind it follow after the move, in order. demandLoadComplete, of a page
that no write and no entry waits for, completes with the page loaded and each of its 64 tiles the source's or the poisoned
one; backingReloadComplete with exactly the one tile so. Other pages and tiles are unchanged. R173 to R175, R184, R197. -/
def Obligations.MigrationsAndLoadsCompleteOnTheirPage : Prop :=
  ∀ (s : State) (p : Nat), Canonical s →
    (∀ m : Migration, s.mem.migrations.find? (fun m => m.page == p) = some m → m.tier < 4 → m.frame < 2 ^ 32 →
      (m.next = [] → Completes (.migrationComplete p) s fun t => (∀ k ∈ t.mem.migrations, k.page ≠ p)
        ∧ eTier (t.page p) = m.tier ∧ eFrame (t.page p) = m.frame ∧ bit (t.page p) 19 = false
        ∧ eHome (t.page p) = eHome (s.page p) ∧ eUnit (t.page p) = eUnit (s.page p) ∧ eWidth (t.page p) = eWidth (s.page p)
        ∧ eBacking (t.page p) = eBacking (s.page p) ∧ (bit (s.val P.digestVerify) 2 = false → t.mem.tiles = s.mem.tiles)
        ∧ t.reg P.migrations 0 = inc64 (s.reg P.migrations 0)
        ∧ t.reg P.eventsRaised 3 = inc64 (s.reg P.eventsRaised 3) ∧ PageFrame s t p)
      ∧ (∀ u, m.next ≠ [] →
        let unhooked := s.mem.migrations.map fun k => if k.page = p then { k with next := [] } else k
        exec (.migrationComplete p) { s with mem := { s.mem with migrations := unhooked } } = .next u →
        exec (.migrationComplete p) s = .next (State.nextMove p m.next u)))
    ∧ (p ∈ s.mem.demand → eKind (s.page p) = 1 →
      (∀ q, s.sourcePage (eWidth (s.page p)) (eBacking (s.page p)) = some q → eLoaded (s.page q) = true ∨ q = p) →
      (∀ w ∈ s.mem.waiting, pageOf w.id ≠ p) → s.waitingSlots p = [] →
      Completes (.demandLoadComplete p) s fun t => p ∉ t.mem.demand ∧ eLoaded (t.page p) = true
        ∧ (∀ k, k < 64 → t.tile (64 * p + k) = loadedTile s (s.page p) (64 * p + k))
        ∧ t.reg P.demandLoads 0 = inc64 (s.reg P.demandLoads 0) ∧ PageFrame s t p)
    ∧ (∀ id, id / 64 = p → id ∈ s.mem.reloads → eKind (s.page p) = 1 →
      Completes (.backingReloadComplete id) s fun t => id ∉ t.mem.reloads ∧ t.tile id = loadedTile s (s.page p) id
        ∧ (∀ k, k ≠ id → t.tile k = s.tile k) ∧ PageFrame s t p
        ∧ ((∀ q, s.sourcePage (eWidth (s.page p)) (eBacking (s.page p)) = some q → s.bwLost (s.page q) (64 * q + id % 64) = false) →
            t.mem.pages = s.mem.pages))

/-- patrolScrub of a corrected error completes with the unit's and granule's counts higher by 1 and the stores unchanged; of an
uncorrected one with the unit's count higher by 1, an event raised, and, by the area that the device address names: the tile
poisoned, its page's count raised and its reload begun where it has a backing; the moment record or millrace granule marked;
the stream of the table set stalled; nothing for a clean line, a tier map copy or an unmapped frame. The scrub does nothing
where it is off, and unit and stack follow from the address. R166, R183, R184. -/
def Obligations.MemoryErrorsAreCountedAndPoisonTheirTile : Prop :=
  ∀ (s : State) (e : MemError), Canonical s → s.up 3 = true → s.fitsArea e = true → e.flips ≠ [] →
    let u := memUnit e.device
    let g := e.device / 2 ^ 20
    let hbm := decide (2 ^ 40 ≤ e.device)
    let ecc := eccOutcome hbm e.flips
    (e.byScrub = true → (hbm = false ∨ s.val P.scrubPeriod = 0) → exec (.patrolScrub e) s = .next s)
    ∧ (∀ n o, n < 8 → o < 2 ^ 37 → e.device = 2 ^ 40 + n * 2 ^ 37 + o → u = 2 * n + o / 256 % 2)
    ∧ ((e.byScrub = true → hbm = true ∧ s.val P.scrubPeriod ≠ 0) →
      (ecc = some true → Completes (.patrolScrub e) s fun t => t.reg P.memCorrected u = inc64 (s.reg P.memCorrected u)
        ∧ (hbm = true → Sparse.get zeros t.mem.corrected g = Sparse.get zeros s.mem.corrected g + 1)
        ∧ (hbm = false → OnlyRegs [P.memCorrected] s t ∧ t.mem = s.mem)
        ∧ SameStores s t ∧ t.clock = s.clock ∧ t.seq = s.seq)
      ∧ (ecc = some false → Completes (.patrolScrub e) s fun t => t.reg P.memUncorrected u = inc64 (s.reg P.memUncorrected u)
        ∧ t.reg P.eventsRaised 7 = inc64 (s.reg P.eventsRaised 7) ∧ t.clock = s.clock ∧ t.pending = s.pending
        ∧ t.flash = { s.flash with entryDue := t.flash.entryDue }
        ∧ match s.areaOf e.device, e.detail with
          | .tables _, .tableSet sl st => (strm t sl st).stalled = true ∧ SameStores s t
              ∧ ∀ k, k ≠ sl.val → t.die k = s.die k
          | .millrace _, .millrace k x => (k.val, x / 32) ∈ t.mem.millPoison ∧ SameStores s t
          | .moments n r, _ => (r < s.val P.momentRecords → (n, r) ∈ t.mem.momPoison) ∧ SameStores s t
          | _, _ =>
            match s.struckTile e with
            | some id => (∀ k, k ≠ id → t.tile k = s.tile k)
                ∧ (eKind (s.page (pageOf id)) = 1 → eTier (s.page (pageOf id)) ≠ 3 → (t.tile id).poisoned = true
                  ∧ (eBacking (s.page (pageOf id)) ≠ 0xFFFFFFFF → id ∈ t.mem.reloads)
                  ∧ bits (t.page (pageOf id)) 96 16 = min (bits (s.page (pageOf id)) 96 16 + 1) 0xFFFF)
            | none => SameStores s t ∧ t.seq = s.seq)
      ∧ (ecc = none → Completes (.patrolScrub e) s fun t => t.draws = s.draws + 1 ∧ t.clock = s.clock ∧ t.pending = s.pending))

/-- luWriteComplete completes for the oldest write of the base die with the unit written, in a page whose metadata match, or
poisoned and counted where no page could be programmed; a mirrored one with no room for its copy counts that. luReadComplete
completes, per ladder step that can return the unit, with the read counted, the block moved or retired and the recovery
counted, on failure with the unit poisoned, and otherwise changes nothing; bwEntryPersist writes the page's entry to flash.
R190 to R194, R196, R198 to R203. -/
def Obligations.FlashWritesReadsAndEntriesEnd : Prop :=
  ∀ (s : State) (x : Nat), Canonical s →
    (∀ (w : LuWrite) (ws : List LuWrite), s.luQueue (x % 8) = w :: ws → w.lu = x →
      let v : State := { s with flash := { s.flash with writes := removeFirst (fun k => luBase k.lu == x % 8) s.flash.writes } }
      let dat := w.over (s.luContent x)
      let good := (v.programLu x dat).1
      Completes (.luWriteComplete x) s fun t => t.flash.writes = v.flash.writes ∧ (t.lu x).written = true
        ∧ (w.mirrored = false → (t.lu x).poisoned = !good)
        ∧ (good = true → w.mirrored = false → t.mem = s.mem ∧ OnlyRegs [P.luWrites] s t
            ∧ t.reg P.luWrites (x % 8) = inc64 (s.reg P.luWrites (x % 8))
            ∧ ((nth s.flash.filled (x % 8) []).length + 1 < (s.stripeChans (x % 8)).2.length → t.luContent x = dat
                ∧ (t.flashPage (t.lu x).page).matches (x / 8) = true))
        ∧ (good = true → w.mirrored = true → (s.lu x).copy = none → s.mirrorLu x = none →
            t.reg P.mirrorShort 0 = inc64 (s.reg P.mirrorShort 0))
        ∧ (good = false → t.reg P.discardedWrites 0 = inc64 (s.reg P.discardedWrites 0))
        ∧ t.mem.pages = s.mem.pages ∧ t.clock = s.clock ∧ t.pending = s.pending ∧ t.seq = s.seq)
    ∧ (∀ (r : LadderEnd) (lost : Bool), (s.lu x).valid = false → exec (.luReadComplete x r lost) s = .next s)
    ∧ (∀ lost : Bool, s.up 2 = true → (s.lu x).valid = true →
      let k := pageBlock (s.lu x).page
      let d := x % 8
      let kept (t : State) : Prop := SameStores { s with flash := t.flash } t ∧ t.clock = s.clock ∧ t.seq = s.seq
      let recovered (i : Nat) (t : State) : Prop := t.reg P.ladderRecovered (3 * d + i) = inc64 (s.reg P.ladderRecovered (3 * d + i))
      (s.directRead x = true →
        Completes (.luReadComplete x (.step 0) lost) s (fun t => t.lu x = s.lu x ∧ kept t
          ∧ Sparse.get zeros t.flash.reads k = Sparse.get zeros s.flash.reads k + 1 ∧ (lost = false → t.params = s.params))
        ∧ Completes (.luReadComplete x (.step 1) lost) s (fun t => k ∈ t.flash.moving ∧ t.lu x = s.lu x ∧ kept t ∧ recovered 0 t))
      ∧ (s.parityRead x = true → Completes (.luReadComplete x (.step 2) lost) s fun t =>
        k ∈ t.flash.retired ∧ kept t ∧ recovered 1 t)
      ∧ (∀ m, s.copyOf x = some m → (s.directRead m || s.parityRead m) = true →
        Completes (.luReadComplete x (.step 3) lost) s fun t => k ∈ t.flash.retired ∧ kept t ∧ recovered 2 t)
      ∧ (s.directRead x = false → exec (.luReadComplete x (.step 0) false) s = .next s
          ∧ exec (.luReadComplete x (.step 1) false) s = .next s)
      ∧ (s.parityRead x = false → exec (.luReadComplete x (.step 2) false) s = .next s)
      ∧ (s.copyOf x = none → exec (.luReadComplete x (.step 3) false) s = .next s)
      ∧ Completes (.luReadComplete x .failed lost) s (fun t => k ∈ t.flash.retired ∧ (t.lu x).poisoned = true
        ∧ t.reg P.ladderFailed d = inc64 (s.reg P.ladderFailed d) ∧ t.clock = s.clock))
    ∧ ((s.flash.entryDue.any fun d => d.1 == x) = true → exec (.bwEntryPersist x) s = .next { s with flash := { s.flash with
        entries := Sparse.put pageDefault s.flash.entries x
          (if eKind (s.page x) = 1 ∧ eHome (s.page x) = 3 ∧ eTier (s.page x) = 3 then BitVec.ofNat 128 (s.page x) else pageDefault x)
        entryDue := s.flash.entryDue.filter fun d => d.1 != x } })

/-- stripeCloseTimeout completes 2 milliseconds after the last unit with the stripe closed, its pages in its record, and the next
begun; blockRelocation, wearLevel, readDisturbLimit and flashPatrolScan complete with the block moved and counted as each says, and
the scan at the next written unit, from the first again FlashScanPeriod after its last pass began; programEraseFailure completes
with the block retired and its relocation due. Pages of the tier map, time and the entries kept are unchanged, and so is every
tile where no write was discarded. R193, R199, R202 to R206. -/
def Obligations.FlashBlocksAndStripesAreMaintained : Prop :=
  ∀ (s : State) (b : BaseDie) (n : Nat), Canonical s → s.up 2 = true →
    let k := 81920 * b.val + n % 81920
    let kept (t : State) : Prop := t.mem.pages = s.mem.pages ∧ t.pending = s.pending ∧ t.seq = s.seq
      ∧ t.flash.entries = s.flash.entries ∧ t.flash.writes = s.flash.writes
      ∧ (s.reg P.discardedWrites 0 < 2 ^ 64 - 1 → t.reg P.discardedWrites 0 = s.reg P.discardedWrites 0 → t.mem = s.mem)
    let moved (k : Nat) (t : State) : Prop := k ∉ t.flash.moving ∧ t.reg P.relocations b = inc64 (s.reg P.relocations b) ∧ kept t
      ∧ OnlyRegs [P.relocations, P.discardedWrites] s t
    (nth s.flash.filled b [] ≠ [] →
      Completes (.stripeCloseTimeout b) s fun t => nth t.flash.filled b [] = []
        ∧ nth t.flash.stripes b 0 = nth s.flash.stripes b 0 + 1 ∧ t.flash.lus = s.flash.lus
        ∧ (∀ p ∈ nth s.flash.filled b [], p ∈ Sparse.get (fun _ => []) t.flash.layout (s.openStripe b))
        ∧ t.clock.now = max s.clock.now (nth s.flash.lastLu b 0 + 18000000) ∧ t.params = s.params ∧ t.mem = s.mem)
    ∧ Completes (.blockRelocation b n) s (fun t => moved k t ∧ t.clock = s.clock)
    ∧ Completes (.programEraseFailure b n) s (fun t => k ∈ t.flash.retired ∧ kept t ∧ t.mem = s.mem ∧ t.clock = s.clock
      ∧ (k ∉ s.flash.retired → k ∈ t.flash.moving ∧ t.reg P.retiredBlocks b = inc32 (s.reg P.retiredBlocks b)))
    ∧ (∀ l : Nat × LuInfo, s.val P.wearSpread < (s.eraseSpread b).2 - (s.eraseSpread b).1 →
        s.flash.lus.find? (fun l => l.2.valid && pageBlock l.2.page / 81920 == b.val
          && Sparse.get zeros s.flash.erases (pageBlock l.2.page) == (s.eraseSpread b).1) = some l →
        Completes (.wearLevel b) s fun t => moved (pageBlock l.2.page) t ∧ t.clock = s.clock)
    ∧ (s.val P.readDisturbLimit ≤ Sparse.get zeros s.flash.reads k →
        Completes (.readDisturbLimit b n) s fun t => Sparse.get zeros t.flash.reads k = 0 ∧ moved k t ∧ t.clock = s.clock)
    ∧ (∀ (l : Nat × LuInfo) (ls : List (Nat × LuInfo)), s.val P.flashScanPeriod ≠ 0 →
        let from' := nth s.flash.scan b 0
        let scans (now : Nat) : Prop :=
          (∀ n, n ≤ 60 → Completes (.flashPatrolScan b false n) s fun t => nth t.flash.scan b 0 = l.1 / 8 + 1 ∧ t.params = s.params ∧ kept t
            ∧ t.clock.now = now
            ∧ Sparse.get zeros t.flash.reads (pageBlock l.2.page) = Sparse.get zeros s.flash.reads (pageBlock l.2.page) + 1)
          ∧ (∀ step1 n, step1 = true ∨ 60 < n → Completes (.flashPatrolScan b step1 n) s fun t => nth t.flash.scan b 0 = l.1 / 8 + 1 ∧ moved (pageBlock l.2.page) t
            ∧ t.clock.now = now)
        (s.scanRest b from' = l :: ls → scans s.clock.now)
        ∧ (s.scanRest b from' = [] → s.scanRest b 0 = l :: ls →
            scans (max s.clock.now (nth s.flash.scanFrom b 0 + s.val P.flashScanPeriod * 9000000000))))

namespace Sys2Proof.Claims

/-- What the handling of a packet or of a stream's timer leaves alone. -/
def StreamFrame (s t : State) : Prop :=
  t.mem = s.mem ∧ t.flash = s.flash ∧ t.upd = s.upd ∧ t.host = s.host ∧ t.held = s.held ∧ t.pending = s.pending
    ∧ t.net.colls = s.net.colls ∧ t.net.ptp = s.net.ptp

/-- Segment `q` is accepted on a receiving direction: below Cum, or beyond it among the accepted ones (R220). -/
def Accepted (r : Rx) (q : Nat) : Prop := q < r.cum ∨ q ∈ r.got

/-- Segment `q` names one that the direction takes: below the limit, and seen for the first time (R220, R225). -/
def Takes (r : Rx) (q : Nat) : Prop := q < r.limit ∧ q ∉ r.got ∧ ∀ g ∈ r.segs, g.seq ≠ q

/-- R227: direction `y` starts `x` anew: every segment is to be sent again, those of the messages from the oldest not fully
acknowledged on among them. -/
def Resends (x y : Tx) : Prop :=
  (∀ g ∈ y.segs, g.sentAt = none ∧ g.acked = false ∧ g.lost = true)
  ∧ ∀ g, x.segs.find? (fun k => !k.acked) = some g → ∀ k ∈ x.segs, g.msg ≤ k.msg →
      ∃ j ∈ y.segs, j.seq = k.seq ∧ j.msg = k.msg ∧ j.payload = k.payload

/-- R233, R234: a Sync that the master sent at `t1` and that arrived at `t2` has set the clock: offset, servo, lock and the
Delay_Req that follows. -/
def Synced (s t : State) (t1 t2 : Int) : Prop :=
  let off := t2 - t1 - s.net.ptp.delay
  t.val P.timeOffset = offsetNs off ∧ t.net.ptp.syncPair = some (t1, t2) ∧ t.net.ptp.lastSync = s.clock.now
  ∧ (∃ sent, t.net.ptp.delayReq = some (s.net.ptp.reqSeq, sent) ∧ t.out = .ptp (s.dataLink (s.val P.ptpPort)) (s.addrOf P.moduleAddress)
      (s.addrOf P.ptpMaster) 319 (s.val P.ptpDomain) (.delayReq s.net.ptp.reqSeq sent) :: s.out)
  ∧ t.net.ptp.reqSeq = (s.net.ptp.reqSeq + 1) % 65536
  ∧ t.clock.now = s.clock.now ∧ nominalInc - servoRange ≤ t.clock.inc ∧ t.clock.inc ≤ nominalInc + servoRange
  ∧ (s.val P.timeState = 3 ∨ s.val P.timeState = 2 → t.val P.timeState = 2)
  ∧ (s.val P.timeState = 0 ∨ s.val P.timeState = 1 →
      (4000 < off ∨ off < -4000 → t.val P.timeState = 1 ∧ t.net.ptp.good = 0)
      ∧ (-80 < off → off < 80 → t.net.ptp.good = s.net.ptp.good + 1
          ∧ t.val P.timeState = if 16 ≤ s.net.ptp.good + 1 then 2 else 1))
  ∧ OnlyRegs ([P.timeOffset, P.timeState] ++ eventRegs) s t ∧ SameStores s t ∧ t.seq = s.seq

end Sys2Proof.Claims

/-- data of a received segment completes: of another epoch with only EpochResets counted; beyond the limit or accepted before with
FramesDropped counted and an acknowledgement; held already, or with no room for it, with nothing taken; otherwise accepted at once
where it is not the last of its message, and kept with the others while the head message is incomplete, a last segment unaccepted
until then. R220, R224, R225, R227, R243. -/
def Obligations.DataSegmentsAreTakenOnceInTheirEpoch : Prop :=
  ∀ (s u : State) (p : Port) (ce : Bool) (pkt : List Byte) (h : Header), Canonical s → s.receive p 0 ce pkt = (some h, u) →
    let r := s.rx h.stream
    let q := unwrap32 r.cum h.seq
    let g : RSeg := { seq := q, msg := unwrap32 r.msg h.msg, step := h.step, ix := h.ix, last := bit h.flags 1, payload := h.payload }
    let full := (u.setRx h.stream { r with ece := r.ece || ce }).noRoom h.stream g
    let after (P : State → Prop) : Prop := Completes (.data p ce pkt) s fun t => StreamFrame s t ∧ t.net.tx = s.net.tx
      ∧ t.seq = s.seq ∧ t.clock = s.clock ∧ P t
    let same (t : State) : Prop := (t.rx h.stream).got = r.got ∧ (t.rx h.stream).cum = r.cum ∧ (t.rx h.stream).segs = r.segs
      ∧ (t.rx h.stream).msg = r.msg
    (r.epoch ≠ some h.epoch → after fun t => t.net = s.net
        ∧ t.reg P.epochResets h.stream = inc32 (s.reg P.epochResets h.stream))
    ∧ (r.epoch = some h.epoch → (r.limit ≤ q ∨ q ∈ r.got) → after fun t => same t ∧ (t.rx h.stream).since = 0
        ∧ t.reg P.framesDropped p = inc64 (s.reg P.framesDropped p))
    ∧ (r.epoch = some h.epoch → (¬ Takes r q ∨ full = true) → after same)
    ∧ (r.epoch = some h.epoch → Takes r q → full = false → bit h.flags 1 = false →
        after fun t => Accepted (t.rx h.stream) q ∧ r.cum ≤ (t.rx h.stream).cum)
    ∧ (r.epoch = some h.epoch → Takes r q → full = false → Rx.headMessage { r with segs := r.segs ++ [g] } = none →
        after fun t => (t.rx h.stream).segs = r.segs ++ [g] ∧ (t.rx h.stream).msg = r.msg
          ∧ (bit h.flags 1 = true → (t.rx h.stream).got = r.got ∧ (t.rx h.stream).cum = r.cum))

/-- ack of a synchronised stream completes with Cum as the packet says and the credit limit Cum plus its credit, segments kept
from Cum on and those of messages not wholly acknowledged, and, with ECE, the window no larger than the larger of what it was
and 4; ackDelayTimer completes 4 microseconds after the first segment that waits, with the new credit limit and nothing
waiting; retxTimeout completes after the timeout with one loss more, the timeout doubled to at most 1000, window 4 and
Timeouts higher by 1, and the stream in alarm from RetxAlarm losses on. The other direction is unchanged. R220 to R223, R227.
-/
def Obligations.AcknowledgementsMoveWindowAndCredit : Prop :=
  (∀ (s u : State) (p : Port) (ce : Bool) (pkt : List Byte) (h : Header), Canonical s → s.receive p 1 ce pkt = (some h, u) →
    let x := s.tx h.stream
    let cum := unwrap32 x.cum (beField h.payload 0 4)
    (x.synced = false ∨ x.seq < cum → exec (.ack p ce pkt) s = .next u)
    ∧ (x.synced = true → cum ≤ x.seq → Completes (.ack p ce pkt) s fun t => (t.tx h.stream).cum = cum
      ∧ (t.tx h.stream).limit = cum + beField h.payload 4 4
      ∧ (t.tx h.stream).seq = x.seq ∧ (t.tx h.stream).msg = x.msg
      ∧ (∀ g ∈ (t.tx h.stream).segs, g.seq < cum → ∃ k ∈ (t.tx h.stream).segs, k.msg = g.msg ∧ k.acked = false)
      ∧ (∀ g ∈ x.segs, cum ≤ g.seq → ∃ k ∈ (t.tx h.stream).segs, k.seq = g.seq ∧ k.msg = g.msg ∧ k.payload = g.payload)
      ∧ (bit h.flags 3 = true → (t.tx h.stream).win ≤ max x.win (4 * 2 ^ 32))
      ∧ StreamFrame s t ∧ t.net.rx = s.net.rx ∧ t.clock = s.clock))
  ∧ (∀ (s : State) (ns : NetIx), Canonical s → (s.rx ns).since ≠ 0 →
    Completes (.ackDelayTimer ns) s fun t => t.clock.now = max s.clock.now ((s.rx ns).firstAt + 36000)
      ∧ t.rx ns = { s.rx ns with since := 0, ece := false, limit := max (s.rx ns).limit ((s.rx ns).cum + s.creditOf ns) }
      ∧ t.params = s.params ∧ t.net.tx = s.net.tx ∧ t.seq = s.seq ∧ StreamFrame s t)
  ∧ (∀ (s : State) (ns : NetIx) (t0 : Nat), Canonical s →
    let x := s.tx ns
    let limit := if s.reg P.streamState ns = 3 then 1000 else if x.timeout = 0 then s.val P.retxTimeout else x.timeout
    (∃ g ∈ x.segs, g.sentAt = some t0 ∧ g.sent = true ∧ g.acked = false) →
    (∀ g ∈ x.segs, ∀ t1, g.sent = true → g.acked = false → g.sentAt = some t1 → t0 ≤ t1) →
    Completes (.retxTimeout ns) s fun t => t.clock.now = max s.clock.now (t0 + limit * 9000)
      ∧ (t.tx ns).losses = x.losses + 1 ∧ (t.tx ns).timeout = max limit (min 1000 (2 * limit)) ∧ (t.tx ns).win = 4 * 2 ^ 32
      ∧ (t.tx ns).cum = x.cum ∧ (t.tx ns).limit = x.limit ∧ t.reg P.timeouts ns = inc32 (s.reg P.timeouts ns)
      ∧ (s.val P.retxAlarm ≤ x.losses + 1 → t.reg P.streamState ns = 3)
      ∧ StreamFrame s t ∧ t.net.rx = s.net.rx ∧ t.seq = s.seq)

/-- sync completes with the receiving direction new in the packet's epoch; syncack of a stream that synchronises completes
with the sending direction synchronised, window 32 within Window and no less than 4, and state 2; needsync and the repeat timer
complete with the sending direction unsynchronised, every segment of its messages from the oldest not fully acknowledged on to be
sent again, and state 1. The other direction is unchanged. R222, R227. -/
def Obligations.StreamsRestartWithSync : Prop :=
  (∀ (s u : State) (p : Port) (ce : Bool) (pkt : List Byte) (h : Header), Canonical s → s.receive p 2 ce pkt = (some h, u) →
    (syncKind h = 0 → Completes (.sync p ce pkt) s fun t =>
      t.rx h.stream = { epoch := some h.epoch, cum := h.seq, msg := h.msg, limit := h.seq + s.creditOf h.stream }
      ∧ t.reg P.epochResets h.stream = inc32 (s.reg P.epochResets h.stream) ∧ t.net.tx = s.net.tx ∧ StreamFrame s t
      ∧ t.seq = s.seq ∧ t.clock = s.clock)
    ∧ (syncKind h = 1 → (s.tx h.stream).synced = false → s.reg P.streamState h.stream = 1 → Completes (.syncack p ce pkt) s fun t =>
      (t.tx h.stream).synced = true
      ∧ (t.tx h.stream).win = max 4 (min 32 (s.val P.window)) * 2 ^ 32 ∧ (t.tx h.stream).cum = (s.tx h.stream).cum
      ∧ (t.tx h.stream).seq = (s.tx h.stream).seq ∧ t.reg P.streamState h.stream = 2 ∧ t.net.rx = s.net.rx ∧ StreamFrame s t
      ∧ t.seq = s.seq ∧ t.clock = s.clock)
    ∧ (syncKind h = 2 → Completes (.needsync p ce pkt) s fun t => (t.tx h.stream).synced = false
      ∧ Resends (s.tx h.stream) (t.tx h.stream) ∧ t.reg P.streamState h.stream = 1
      ∧ t.reg P.epochResets h.stream = inc32 (s.reg P.epochResets h.stream) ∧ t.net.rx = s.net.rx ∧ StreamFrame s t
      ∧ t.seq = s.seq ∧ t.clock = s.clock))
  ∧ (∀ (s : State) (ns : NetIx), Canonical s → s.reg P.streamState ns = 1 → seUsed (s.streamEntry ns) = true →
    Completes (.syncRepeatTimer ns) s fun t => t.clock.now = max s.clock.now (s.tx ns).syncAt ∧ (t.tx ns).synced = false
      ∧ (t.tx ns).syncAt = t.clock.now + s.val P.retxTimeout * 9000 ∧ Resends (s.tx ns) (t.tx ns)
      ∧ t.reg P.streamState ns = 1 ∧ t.net.rx = s.net.rx ∧ StreamFrame s t ∧ t.seq = s.seq)

/-- portLinkDown completes with the port down and the flap counted; portLinkUp of a formed and fed port completes with it up.
frameReceive of a frame that is too long, is MAC control or VLAN tagged, or is none of those that R217 lets through (UDP with a
good checksum to the module and to one of its ports, and two types of ICMPv6) is counted in FramesDropped only, one with a bad FCS
in FcsErrors only, and every other changes nothing. R213 to R217. The ICMPv6 numbers are assumption log 97. -/
def Obligations.PortsFollowTheirLinksAndDiscardBadFrames : Prop :=
  ∀ (s : State) (p : Port), Canonical s →
    (s.reg P.linkState p = 3 → Completes (.portLinkDown p) s fun t => t.reg P.linkState p = 1
      ∧ t.reg P.linkFlaps p = inc32 (s.reg P.linkFlaps p) ∧ (∀ k, k < 48 → k ≠ p.val → t.reg P.linkState k = s.reg P.linkState k)
      ∧ OnlyRegs [P.linkState, P.linkFlaps] s t ∧ SameStores s t ∧ t.net = s.net ∧ t.clock = s.clock)
    ∧ (portFormed s.portMapIn p = true → s.reg P.linkState p = 1 ∨ s.reg P.linkState p = 2 → s.portFed p = true →
      s.supply.refGood = true → Completes (.portLinkUp p) s fun t => t.reg P.linkState p = 3
        ∧ (∀ k, k < 48 → k ≠ p.val → t.reg P.linkState k = s.reg P.linkState k)
        ∧ OnlyRegs [P.linkState, P.segmentsSent, P.retransmits] s t ∧ StreamFrame s t ∧ t.net.rx = s.net.rx ∧ t.clock = s.clock)
    ∧ (∀ f : Frame, f.port = p → s.reg P.linkState p = 3 →
      let dropped : Prop := Completes (.frameReceive f) s fun t => t.reg P.framesDropped p = inc64 (s.reg P.framesDropped p)
        ∧ OnlyRegs [P.framesDropped] s t ∧ SameStores s t ∧ t.net = s.net ∧ t.clock = s.clock
      let ours := f.dest.toNat = s.addrOf P.moduleAddress
      let ptp := s.val P.ptpPort = p ∧ (f.destPort.toNat = 319 ∨ f.destPort.toNat = 320)
        ∧ (s.val P.ptpRole = 2 ∨ (s.val P.ptpRole = 1 ∧ f.src.toNat = s.addrOf P.ptpMaster))
      let taken := (f.nextHeader = 17 ∧ ours ∧ f.checksumOk = true ∧ (f.destPort.toNat = s.val P.streamUdpPort ∨ ptp))
        ∨ (f.nextHeader = 58 ∧ (f.icmpType = 135 ∨ (f.icmpType = 128 ∧ ours)))
      (9216 < f.bytes → dropped)
      ∧ (f.bytes ≤ 9216 → f.fcsOk = false → Completes (.frameReceive f) s fun t =>
          t.reg P.fcsErrors p = inc64 (s.reg P.fcsErrors p) ∧ OnlyRegs [P.fcsErrors] s t ∧ SameStores s t ∧ t.net = s.net
          ∧ t.clock = s.clock)
      ∧ (f.bytes ≤ 9216 → f.fcsOk = true → (f.macControl = true ∨ f.vlanTagged = true ∨ ¬ taken) → dropped)
      ∧ (f.bytes ≤ 9216 → f.fcsOk = true → f.macControl = false → f.vlanTagged = false → taken →
          exec (.frameReceive f) s = .next s))

/-- nsendTile of a complete message, its digest in order, completes with the tile written to its mapped and loaded page and no other
tile, and the token raised in its step; collContribution and collResult complete with the message counted in as arrived, or, before
their COLL, held by the unit; the message has then left its stream. contributedWordTake completes with the flag word taken, 96 ac
after issue in the closing group. R219, R225, R226, R238, R239, R246 to R248. -/
def Obligations.ReceivedMessagesReachTilesAndCollectives : Prop :=
  (∀ (s : State) (ns : NetIx) (gs : List RSeg) (bs : List Byte), Canonical s → s.applicable ns = some (gs, bs) →
    let step := (gs.head?.map (·.step)).getD 0
    let left (t : State) : Prop := (∀ g ∈ (t.rx ns).segs, ∀ x ∈ gs, g.msg ≠ x.msg) ∧ t.mem.pages = s.mem.pages ∧ t.clock = s.clock
    (messageKind bs = 0 → s.messageCold bs = [] → (bit (s.val P.digestVerify) 1 = true →
        (receivedTile bs).2.received.computeDigest (receivedTile bs).1 = (receivedTile bs).2.digest) →
      ∀ i k, s.place (tileId (beField bs 8 8)) = .mapped i k →
      k = Nat.log2 (receivedTile bs).1 → Completes (.nsendTile ns) s fun t => t.tile i = (receivedTile bs).2.received
        ∧ (∀ j, j ≠ i → t.tile j = s.tile j) ∧ left t
        ∧ t.net.tx = s.net.tx ∧ t.net.colls = s.net.colls
        ∧ let sig := beField bs 2 2
          (bits sig 12 2 = 0 → t.seq.dies = s.seq.dies)
          ∧ (bits sig 12 2 ≠ 0 → (t.die (bits sig 0 6)).tokens =
              (s.die (bits sig 0 6)).tokens.set (bits sig 6 6) (min ((s.die (bits sig 0 6)).token (bits sig 6 6) + bits sig 12 2) 255)
              ∧ ∀ k, k ≠ bits sig 0 6 → PassedOnly (s.die k) (t.die k)))
    ∧ ((messageKind bs = 1 ∨ messageKind bs = 2) → s.collOf bs step = none →
      let held (t : State) : Prop := left t ∧ t.net.colls = s.net.colls ∧ t.net.early = s.net.early
        ++ [{ ns := ns, base := s.groupBase (beField bs 4 2), step := step, bytes := bs }]
      (messageKind bs = 1 → Completes (.collContribution ns) s held) ∧ (messageKind bs = 2 → Completes (.collResult ns) s held))
    ∧ (∀ c : Coll, s.collOf bs step = some c →
      (messageKind bs = 1 → Completes (.collContribution ns) s fun t => left t
        ∧ ∃ k ∈ t.net.colls, k.key = c.key ∧ ∃ x, (beField bs 6 2, messageIndex bs, x) ∈ k.arrived1)
      ∧ (messageKind bs = 2 → Completes (.collResult ns) s fun t => left t
        ∧ ∃ k ∈ t.net.colls, k.key = c.key ∧ (beField bs 6 2, messageIndex bs) ∈ k.arrived2)))
  ∧ (∀ (s : State) (sl : Slot) (id : Nat) (c : Coll), Canonical s →
    s.net.colls.find? (fun c => c.slot == sl.val && c.flight == id && c.word.isNone && !c.cold) = some c →
    Completes (.contributedWordTake sl id) s fun t =>
      (∃ k ∈ t.net.colls, k.key = c.key ∧ k.word = some (s.val P.localFlags)) ∧ t.mem.pages = s.mem.pages
      ∧ (geClosing (s.groupOf c.group) = true → t.seq.wordTaken = true ∧ t.clock.now = max s.clock.now (c.issued + 384))
      ∧ (geClosing (s.groupOf c.group) = false → t.clock = s.clock ∧ t.seq.wordTaken = s.seq.wordTaken))

/-- As client: a two-step Sync is kept with its arrival at the port; a one-step Sync or its FollowUp completes with the
offset, the servo within its range, the lock state and a Delay_Req; DelayResp sets the delay; a message that is not the
master's is counted and has no other effect. As master: DelayReq is answered on UDP port 320 and the client kept, and Sync and
Follow_Up go to every client at their interval. ptpSyncLoss completes eight intervals after the last Sync with TimeState 3.
R217, R233, R234, R235. -/
def Obligations.PtpMessagesSteerPanelTime : Prop :=
  ∀ (s : State) (p : Port) (src : Addr6) (dom : Byte) (n : W16) (at' : Nat), Canonical s →
    let u := s.reach at'
    let link := s.dataLink (s.val P.ptpPort)
    let self := s.addrOf P.moduleAddress
    (s.fromMaster p src dom = true → ∀ o c : Int,
      exec (.ptpSync ⟨p, src⟩ dom n true o c at') s =
        .next { u with net := { s.net with ptp := { s.net.ptp with twoStep := some (n.toNat, u.stampNow - c) } } }
      ∧ Completes (.ptpSync ⟨p, src⟩ dom n false o c at') s (fun t => Synced u t (o + c) u.stampNow)
      ∧ (∀ rx, s.net.ptp.twoStep = some (n.toNat, rx) →
          Completes (.ptpFollowUp ⟨p, src⟩ dom n o c) s (fun t => Synced s t (o + c) rx ∧ t.net.ptp.twoStep = none))
      ∧ (∀ t1 t2 t3 r : Int, s.net.ptp.delayReq = some (n.toNat, t3) → s.net.ptp.syncPair = some (t1, t2) →
          exec (.ptpDelayResp ⟨p, src⟩ dom n r c) s = .next { s with net := { s.net with ptp := { s.net.ptp with
            delayReq := none, delay := ((t2 - t1) + (r - c - t3)) / 2 } } }))
    ∧ (s.fromMaster p src dom = false → s.portUp p = true → ∀ (two : Bool) (o c : Int),
      exec (.ptpSync ⟨p, src⟩ dom n two o c at') s = .next (u.bump64 P.framesDropped p 1)
      ∧ exec (.ptpFollowUp ⟨p, src⟩ dom n o c) s = .next (s.bump64 P.framesDropped p 1)
      ∧ exec (.ptpDelayResp ⟨p, src⟩ dom n o c) s = .next (s.bump64 P.framesDropped p 1))
    ∧ (s.ptpFor 2 p dom = true → Completes (.ptpDelayReq ⟨p, src⟩ dom n at') s fun t =>
        t.out = .ptp link self src.toNat 320 (s.val P.ptpDomain) (.delayResp n.toNat u.stampNow 0) :: s.out
        ∧ src ∈ t.net.ptp.clients ∧ (∀ c ∈ s.net.ptp.clients, c ∈ t.net.ptp.clients)
        ∧ t.params = s.params ∧ SameStores s t ∧ t.clock = u.clock ∧ t.seq = s.seq)
    ∧ (s.val P.ptpRole = 2 → Completes .ptpSyncSend s (fun t => t.clock.now = max s.clock.now (s.net.ptp.lastSend + s.syncInterval)
        ∧ t.net.ptp.lastSend = t.clock.now ∧ t.net.ptp.sendSeq = (s.net.ptp.sendSeq + 1) % 65536
        ∧ (∀ c ∈ s.net.ptp.clients, .ptp link self c.toNat 319 (s.val P.ptpDomain) (.sync s.net.ptp.sendSeq t.stampNow) ∈ t.out
            ∧ .ptp link self c.toNat 320 (s.val P.ptpDomain) (.followUp s.net.ptp.sendSeq t.stampNow) ∈ t.out)
        ∧ t.params = s.params ∧ SameStores s t ∧ t.seq = s.seq))
    ∧ (s.val P.ptpRole = 1 → s.val P.timeState = 2 → Completes .ptpSyncLoss s fun t => t.val P.timeState = 3
      ∧ t.clock.now = max s.clock.now (s.net.ptp.lastSync + 8 * s.syncInterval)
      ∧ t.reg P.eventsRaised 4 = inc64 (s.reg P.eventsRaised 4) ∧ OnlyRegs (P.timeState :: eventRegs) s t ∧ SameStores s t
      ∧ t.net = s.net ∧ t.seq = s.seq)

namespace Sys2Proof.Claims

/-- Function, queue, number and opcode of a host command's row (Table 14-9). -/
def hostCmd : Instr → Option (FnIx × QueueIx × Nat × Nat)
  | .hostNop fn q n => some (fn, q, n, 0x00)
  | .param fn q r _ => some (fn, q, r.n, 0x02)
  | .tileWriteRaw fn q n _ => some (fn, q, n, 0x10)
  | .tileWriteConvert fn q n _ => some (fn, q, n, 0x10)
  | .tileRead fn q r => some (fn, q, r.n, 0x11)
  | .tableLoad fn q n _ => some (fn, q, n, 0x20)
  | .stepAbort fn q n => some (fn, q, n, 0x21)
  | .tiermapWrite fn q n _ => some (fn, q, n, 0x28)
  | .tiermapRead fn q r => some (fn, q, r.n, 0x29)
  | .stateWrite fn q n _ => some (fn, q, n, 0x30)
  | .stateRead fn q r => some (fn, q, r.n, 0x31)
  | .moduleReset fn q n => some (fn, q, n, 0x38)
  | _ => none

/-- Command `n` of a queue has run with this status and result (R306, R307). -/
def Ended (t : State) (fn : FnIx) (q : QueueIx) (n st res : Nat) : Prop :=
  ∃ k ∈ (t.queue fn q).cmds, k.n = n ∧ k.done = some (st, res)

/-- Command `c`, number `n`, may start, has opcode `op`, is well formed, its class is granted, and it has not begun (R306,
R307, R320). -/
def MayRun (s : State) (fn : FnIx) (q : QueueIx) (n op : Nat) (write : Bool) (c : HostCmd) : Prop :=
  s.startable fn q n = some c ∧ c.opcode = op ∧ c.malformed = false ∧ s.permitted fn op write = true
    ∧ c.began = false ∧ c.units = 0 ∧ c.good = 0 ∧ c.lost = false

/-- R302, R315: of `n` output units, `k` are written and the status is `st`: those before the first one whose address the host
refuses to translate, with status 0x0003, or all of them where ATS is off or none is refused. -/
def OutUnits (s : State) (fn : FnIx) (n : Nat) (refused : Option Nat) (k st : Nat) : Prop :=
  ((s.hostFn fn).cfg.ats = true ∧ k < n ∧ refused = some k ∧ st = 3)
    ∨ (((s.hostFn fn).cfg.ats = false ∨ ∀ j, refused = some j → n ≤ j) ∧ k = n ∧ st = 0)

/-- R308 Mode 0: bytes of the input of each tile of a command. -/
def rawLens (s : State) (c : HostCmd) : List Nat := (s.widthsOf c).map rawLen

/-- Outside the host port nothing changes. -/
def OnlyHost (s t : State) : Prop := SameStores s t ∧ t.params = s.params ∧ t.clock = s.clock ∧ t.seq = s.seq ∧ t.mem = s.mem

/-- What a host command that touches its own objects leaves alone. -/
def CmdFrame (s t : State) : Prop :=
  t.clock = s.clock ∧ t.pending = s.pending ∧ t.supply = s.supply ∧ t.nor = s.nor ∧ t.net.rx = s.net.rx ∧ t.weir.rates = s.weir.rates

end Sys2Proof.Claims

/-- Of every command of Table 14-9: malformed it ends with status 0x0001; well formed and granted it completes with its
result: NOP nothing; PARAM the directory's answer, or 0x0004 where its request is too long; TILE_WRITE the tiles, raw or
converted; TILE_READ sidecar and data; TABLE_LOAD the pending set or the load error; STEP_ABORT the step closed or result 1;
TIERMAP_WRITE the staged entries; TIERMAP_READ the entries; STATE_WRITE and STATE_READ the moment records. Where the host
refuses to translate the address of an output unit, the units before it are written and the status is 0x0003. A STATE_WRITE of
which some records have come goes on with them written. Other state is unchanged as each clause says. R302, R306 to R310, R315,
R320; that a row brings some of the units is the model's (assumption log 101). -/
def Obligations.HostCommandsEndWithTheirStatusAndResult : Prop :=
  ∀ (s : State) (fn : FnIx) (q : QueueIx) (n : Nat) (c : HostCmd), Canonical s →
    (∀ i op, hostCmd i = some (fn, q, n, op) → s.startable fn q n = some c → c.opcode = op → c.malformed = true →
      Completes i s fun t => Ended t fn q n 0x0001 0 ∧ OnlyHost s t)
    ∧ (MayRun s fn q n 0x00 false c → Completes (.hostNop fn q n) s fun t => Ended t fn q n 0 0 ∧ OnlyHost s t ∧ t.out = s.out)
    ∧ (∀ req refused, MayRun s fn q n 0x02 (hasWrite (c.request req)) c →
      (c.tooLong = true → Completes (.param fn q ⟨n, refused⟩ req) s fun t => Ended t fn q n 0x0004 0 ∧ t.out = s.out
        ∧ t.reg P.rejected (paramSender fn q).transport = inc64 (s.reg P.rejected (paramSender fn q).transport)
        ∧ OnlyRegs [P.rejected] s t ∧ SameStores s t ∧ t.seq = s.seq)
      ∧ (∀ msg, c.tooLong = false → c.request req = some msg → (c.inline = false → msg.length = c.arg 0x28 4) →
        let r := s.message (paramSender fn q) none (min c.hostBytes 4198400) msg
        r.1.length ≤ c.hostBytes →
        ((s.hostFn fn).cfg.ats = true ∧ refused.isSome = true → Completes (.param fn q ⟨n, refused⟩ req) s fun t =>
          Ended t fn q n 0x0003 0 ∧ t.params = r.2.params ∧ t.mem = r.2.mem ∧ t.held = r.2.held)
        ∧ ((s.hostFn fn).cfg.ats = false ∨ refused = none → Completes (.param fn q ⟨n, refused⟩ req) s fun t =>
          Ended t fn q n 0 r.1.length ∧ t.out.head? = some (.hostWrite fn c.addr r.1 c.flush) ∧ t.params = r.2.params
          ∧ t.mem = r.2.mem ∧ t.held = r.2.held)))
    ∧ (∀ us : List (List Byte), MayRun s fn q n 0x10 true c → s.tileWriteCode fn c = 0 → s.unloaded c.tiles = [] → c.tiles.Nodup →
      (∀ id ∈ c.tiles, ∃ k, s.place id = .mapped id k) →
      (c.arg 0x2C 1 = 0 → bit (c.arg 0x2F 1) 1 = false → c.hostBytes = (rawLens s c).foldl (· + ·) 0 →
        fits (rawLens s c) (us.map some) = true →
        Completes (.tileWriteRaw fn q n (us.map some)) s fun t => Ended t fn q n 0 us.length ∧ CmdFrame s t
          ∧ t.mem.pages = s.mem.pages ∧ (∀ id, id ∉ c.tiles → t.tile id = s.tile id)
          ∧ ∀ x ∈ c.tiles.zip us, ∀ k, s.place x.1 = .mapped x.1 k → codeClass (rawTile (classBytes k) x.2).2.2 = k →
              t.tile x.1 = (rawTile (classBytes k) x.2).1)
      ∧ (let src := Fmt.ofCodeD (c.arg 0x2D 1)
         let dst := Fmt.ofCodeD (c.arg 0x2E 1)
         c.arg 0x2C 1 = 1 → (∀ id ∈ c.tiles, s.place id = .mapped id (fmtClass dst)) → c.hostBytes = 16384 * src.bytes * us.length →
        fits (c.tiles.map fun _ => 16384 * src.bytes) (us.map some) = true →
        Completes (.tileWriteConvert fn q n (us.map some)) s fun t => Ended t fn q n 0 us.length ∧ CmdFrame s t
          ∧ t.mem.pages = s.mem.pages ∧ (∀ id, id ∉ c.tiles → t.tile id = s.tile id)
          ∧ ∀ x ∈ c.tiles.zip us, t.tile x.1 = convertedTile src dst (bit (c.arg 0x2F 1) 0) x.2))
    ∧ (∀ id k refused u st, MayRun s fn q n 0x11 false c → c.tiles = [id] → s.inWindow fn id 1 = true → s.place id = .mapped id k →
      s.unloaded [id] = [] → c.hostBytes = 256 + 16384 * classBytes k → OutUnits s fn 1 refused u st →
      Completes (.tileRead fn q ⟨n, refused⟩) s fun t => Ended t fn q n st u ∧ OnlyHost s t ∧ (u = 0 → t.out = s.out)
        ∧ (u = 1 → t.out.head? = some
            (.hostWrite fn c.addr ((s.tile id).sidecarBytes ++ (s.tile id).dataBytes (classBytes k)) c.flush)))
    ∧ (∀ image : List Byte, MayRun s fn q n 0x20 true c → image.length = c.hostBytes →
      Completes (.tableLoad fn q n (some image)) s fun t => Ended t fn q n 0 (t.val P.loadStatus) ∧ CmdFrame s t ∧ SameStores s t
        ∧ OnlyRegs [P.loadStatus, P.pendingSetId, P.activateStep] s t ∧ t.seq.active = s.seq.active
        ∧ (bits (t.val P.loadStatus) 0 8 ≠ 0 → t.seq = s.seq)
        ∧ (bits (t.val P.loadStatus) 0 8 = 0 → t.seq.pendingSet = some (parseSet image) ∧ t.val P.activateStep = 2 ^ 64 - 1))
    ∧ (MayRun s fn q n 0x21 true c → Completes (.stepAbort fn q n) s fun t =>
      if s.seq.opened = true ∧ c.arg 0x20 8 = s.step then Ended t fn q n 0 0 ∧ t.seq.opened = false ∧ t.net.colls = []
      else Ended t fn q n 0 1 ∧ OnlyHost s t)
    ∧ (∀ rs, MayRun s fn q n 0x28 true c → c.inline = false → c.hostBytes = 32 * rs.length → rs ≠ [] →
      fits (rs.map fun _ => 32) rs = true →
      let r := State.stageRecords fn rs 0 s
      Completes (.tiermapWrite fn q n rs) s fun t => t.mem = r.2.mem ∧ t.clock = s.clock
        ∧ Ended t fn q n (r.1.getD (0, rs.length)).1 (r.1.getD (0, rs.length)).2
        ∧ ∀ b, rs = [some b] → s.gateHolds = false → t.mem.pages = s.mem.pages ∧
          if s.checkEntry (leField b 0 8) (leField b 16 16) = 0 then Ended t fn q n 0 1
            ∧ t.mem.staged = s.mem.staged ++ [(leField b 0 8, BitVec.ofNat 128 (leField b 16 16))]
          else Ended t fn q n 6 0 ∧ t.mem.staged = s.mem.staged)
    ∧ (∀ refused u st, MayRun s fn q n 0x29 false c → c.arg 0x20 8 + c.arg 0x28 4 ≤ 2 ^ 34 → c.hostBytes = 16 * c.arg 0x28 4 →
      OutUnits s fn (c.arg 0x28 4) refused u st →
      Completes (.tiermapRead fn q ⟨n, refused⟩) s fun t => Ended t fn q n st u ∧ OnlyHost s t ∧ (u = 0 → t.out = s.out)
        ∧ (u ≠ 0 → t.out.head? =
            some (.hostWrite fn c.addr ((List.range u).flatMap fun i => leBytes 16 (s.page (c.arg 0x20 8 + i))) c.flush)))
    ∧ (∀ rs : List (List Byte), MayRun s fn q n 0x30 true c → s.stateCode c = 0 → rs.length ≤ c.arg 0x28 4 →
      fits (rs.map fun _ => 33792) (rs.map some) = true →
      Completes (.stateWrite fn q n (rs.map some)) s fun t => SameStores s t ∧ t.params = s.params ∧ CmdFrame s t
        ∧ (∀ i, i < rs.length → t.moments (c.arg 0x20 1) (c.arg 0x24 4 + i) = Moments.ofBytes (nth rs i []))
        ∧ (rs.length = c.arg 0x28 4 → Ended t fn q n 0 rs.length)
        ∧ (rs.length < c.arg 0x28 4 → ∃ k ∈ (t.queue fn q).cmds, k.n = n ∧ k.done = none ∧ k.began = true ∧ k.units = rs.length))
    ∧ (∀ refused u st, MayRun s fn q n 0x31 false c → s.stateCode c = 0 → OutUnits s fn (c.arg 0x28 4) refused u st →
      Completes (.stateRead fn q ⟨n, refused⟩) s fun t => Ended t fn q n st u ∧ OnlyHost s t ∧ (u = 0 → t.out = s.out)
        ∧ (u ≠ 0 → t.out.head? = some (.hostWrite fn c.addr
            ((List.range u).flatMap fun i => (s.moments (c.arg 0x20 1) (c.arg 0x24 4 + i)).bytes) c.flush)))

/-- queueEnable completes with the queue active where its registers are in order and refused with its code where its addresses
are not aligned; queueDisable clears it; queueLineReread starts an enabled queue, takes the line or stops the queue with its code;
commandFetch takes the next command or ends it with status 3; completionWrite writes the oldest completion at the tail, with its
phase, and sends its vector or keeps it pending. R303 to R306, R311 to R315; that the commands show the PCIe configuration is the
model's (assumption log 99). -/
def Obligations.HostQueuesFollowTheirRings : Prop :=
  ∀ (s : State) (fn : FnIx) (q : QueueIx), Canonical s →
    let x := s.queue fn q
    (∀ (sq cq line : W64) (cfg tail head : W32), s.hostUp = true → x.enabled = false →
      Completes (.queueEnable fn q sq cq line cfg tail head) s fun t => OnlyHost s t
        ∧ (t.queue fn q).sqBase = sq.toNat ∧ (t.queue fn q).cqBase = cq.toNat ∧ (t.queue fn q).line = line.toNat
        ∧ (t.queue fn q).size = 2 ^ bits cfg.toNat 0 4
        ∧ ((s.hostFn fn).running = false → (t.queue fn q).enabled = true ∧ (t.queue fn q).active = false)
        ∧ ((s.hostFn fn).running = true →
            (sq.toNat % 4096 = 0 ∧ cq.toNat % 4096 = 0 ∧ line.toNat % 64 = 0 ∧ 4 ≤ bits cfg.toNat 0 4 ∧ bits cfg.toNat 0 4 ≤ 12
              ∧ tail = 0 ∧ head = 0 → (t.queue fn q).active = true ∧ (t.queue fn q).head = 0 ∧ (t.queue fn q).tail = 0
                ∧ (t.queue fn q).phase = 1 ∧ (t.queue fn q).cmds = [])
            ∧ (sq.toNat % 4096 ≠ 0 ∨ cq.toNat % 4096 ≠ 0 ∨ line.toNat % 64 ≠ 0 →
                (t.queue fn q).active = false ∧ (t.queue fn q).enabled = false ∧ bits (t.queue fn q).status 8 8 = 0x01)))
    ∧ (x.enabled = true → Completes (.queueDisable fn q) s fun t => t.queue fn q = {} ∧ SameStores s t ∧ t.clock = s.clock
        ∧ OnlyRegs [P.droppedWrites] s t ∧ t.seq = s.seq)
    ∧ (∀ (tail head : W32) (cfg : FnConfig), (s.hostFn fn).running = true → x.enabled = true → x.status = 0 →
      Completes (.queueLineReread ⟨fn, cfg⟩ q tail head) s fun t => OnlyHost s t ∧ (t.hostFn fn).cfg = cfg
        ∧ (tail = 0 ∧ head = 0 → (t.queue fn q).active = true ∧ (t.queue fn q).head = 0 ∧ (t.queue fn q).tail = 0
            ∧ (t.queue fn q).phase = 1 ∧ (t.queue fn q).cmds = [])
        ∧ (tail ≠ 0 ∨ head ≠ 0 → (t.queue fn q).active = false ∧ (t.queue fn q).enabled = false
            ∧ bits (t.queue fn q).status 8 8 = 0x03))
    ∧ (∀ (tail head : W32) (cfg : FnConfig), (s.hostFn fn).running = true → x.active = true →
      (x.lineCode tail.toNat head.toNat = 0 → Completes (.queueLineReread ⟨fn, cfg⟩ q tail head) s fun t => OnlyHost s t
        ∧ t.queue fn q = { x with sqTail := tail.toNat, cqHead := head.toNat } ∧ (t.hostFn fn).cfg = cfg)
      ∧ (x.lineCode tail.toNat head.toNat ≠ 0 → Completes (.queueLineReread ⟨fn, cfg⟩ q tail head) s fun t =>
        (t.queue fn q).active = false ∧ bits (t.queue fn q).status 8 8 = x.lineCode tail.toNat head.toNat
        ∧ t.reg P.ringErrors fn = inc32 (s.reg P.ringErrors fn) ∧ t.reg P.eventsRaised 7 = inc64 (s.reg P.eventsRaised 7)
        ∧ SameStores s t ∧ t.clock = s.clock ∧ t.seq = s.seq))
    ∧ ((s.hostFn fn).running = true → x.active = true → x.head ≠ x.sqTail → x.cmds.length < 64 → (s.hostFn fn).held < 256 →
      (∀ bs : List Byte, bs.length = 128 → Completes (.commandFetch fn q (some bs)) s fun t => OnlyHost s t
        ∧ t.queue fn q = { x with head := (x.head + 1) % x.size, next := x.next + 1, cmds := x.cmds ++
            [{ n := x.next, bytes := bs, head := (x.head + 1) % x.size, epoch := s.val P.linkEpoch }] })
      ∧ Completes (.commandFetch fn q none) s (fun t => t.reg P.hostReadErrors fn = inc64 (s.reg P.hostReadErrors fn)
        ∧ (t.queue fn q).head = (x.head + 1) % x.size ∧ Ended t fn q x.next 0x0003 0 ∧ OnlyRegs [P.hostReadErrors] s t
        ∧ SameStores s t ∧ t.clock = s.clock ∧ t.seq = s.seq))
    ∧ (∀ (n : Nat) (c : HostCmd) (st res : Nat) (cfg : FnConfig), (s.hostFn fn).running = true → x.cmds.find? (fun c => c.n == n) = some c →
      (∀ k ∈ x.cmds, k.n = n → k = c) → c.done = some (st, res) → (x.tail + 1) % x.size ≠ x.cqHead → (∀ k ∈ x.cmds, k.done.isSome = true → c.order ≤ k.order) →
      Completes (.completionWrite ⟨fn, cfg⟩ q n) s fun t =>
        .hostWrite fn (x.cqBase + 32 * x.tail) (completionBytes x q c st res s.panelTime) c.flush ∈ t.out ∧ (t.hostFn fn).cfg = cfg
        ∧ (t.queue fn q).tail = (x.tail + 1) % x.size ∧ (∀ k ∈ (t.queue fn q).cmds, k.n ≠ n)
        ∧ (t.queue fn q).phase = (if (x.tail + 1) % x.size = 0 then 1 - x.phase else x.phase)
        ∧ (bit x.config 5 = true → ((∃ v ∈ cfg.unmasked, v.val = bits x.config 6 4) ∧ cfg.msix = true →
              t.out.head? = some (.msix fn (bits x.config 6 4)))
            ∧ ((∀ v ∈ cfg.unmasked, v.val ≠ bits x.config 6 4) ∨ cfg.msix = false → bits x.config 6 4 ∈ (t.hostFn fn).irq))
        ∧ t.reg P.commandsDone fn = inc64 (s.reg P.commandsDone fn) ∧ OnlyRegs [P.commandsDone] s t ∧ SameStores s t
        ∧ t.clock = s.clock ∧ t.seq = s.seq)

/-- functionEnable completes with the function enabled and VfCount raised to it, and where it runs with the registers of its
enabled queues checked; functionDisable with its queues gone, its epoch line kept and the quiesce counted; the VF disable with
VfCount 0; quiesceComplete with it quiesced; hostLinkDown and perstAssert with every function gone, the link down, the ring
off, LinkEpoch at its next value that is not 0 and the count raised; hostLinkUp with the link's rate and width; perstDeassert
with the link training. R299 to R301, R316 to R319. -/
def Obligations.HostFunctionsAndLinkChangeState : Prop :=
  ∀ s : State, Canonical s →
    (∀ (fn : FnIx) (line : W64) (ok : Bool) (cfg : FnConfig), s.hostUp = true → (s.hostFn fn).enable = false →
      (s.hostFn fn).quiesced = true → Completes (.functionEnable ⟨fn, cfg⟩ line ok) s fun t => (t.hostFn fn).enable = true
        ∧ (t.hostFn fn).epochLine = line.toNat ∧ (t.hostFn fn).cfg = cfg
        ∧ t.val P.vfCount = max (s.val P.vfCount) fn ∧ OnlyRegs [P.vfCount] s t ∧ SameStores s t ∧ t.clock = s.clock ∧ t.seq = s.seq
        ∧ (s.up 3 = true → (t.hostFn fn).running = (ok || (s.hostFn fn).running) ∧ ((t.hostFn fn).epochFault = true ∨ ok = true)
            ∧ (∃ b, .hostWrite fn line.toNat b false ∈ t.out)
            ∧ (ok = true → ∀ q : QueueIx, (s.queue fn q).enabled = true → (s.queue fn q).formCode ≠ 0 →
                (t.queue fn q).enabled = false ∧ (t.queue fn q).active = false
                ∧ bits (t.queue fn q).status 8 8 = (s.queue fn q).formCode)))
    ∧ (∀ (fn : FnIx) (c : DisableCause), c ≠ .vfDisable → (s.hostFn fn).enable = true → Completes (.functionDisable fn c) s fun t =>
        (t.hostFn fn).enable = false ∧ (t.hostFn fn).running = false ∧ (t.hostFn fn).quiesced = false ∧ (t.hostFn fn).queues = []
        ∧ (t.hostFn fn).epochLine = (s.hostFn fn).epochLine ∧ (t.hostFn fn).cfg = (if c = .flr then {} else (s.hostFn fn).cfg)
        ∧ t.reg P.quiesces fn = inc32 (s.reg P.quiesces fn) ∧ OnlyRegs [P.quiesces, P.droppedWrites] s t ∧ SameStores s t
        ∧ t.clock = s.clock ∧ t.seq = s.seq)
    ∧ (∀ fn, Completes (.functionDisable fn .vfDisable) s fun t => t.val P.vfCount = 0
        ∧ OnlyRegs [P.quiesces, P.droppedWrites, P.vfCount] s t ∧ SameStores s t ∧ t.clock = s.clock ∧ t.seq = s.seq)
    ∧ (∀ fn : FnIx, (s.hostFn fn).quiesced = false → (s.hostFn fn).again = none → Completes (.quiesceComplete fn) s fun t =>
        (t.hostFn fn).quiesced = true ∧ (t.hostFn fn).enable = (s.hostFn fn).enable ∧ OnlyHost s t)
    ∧ (let down (t : State) : Prop := t.host.fns = [] ∧ t.val P.hostLinkState = 0 ∧ t.val P.eventRingEnable = 0
          ∧ t.val P.linkEpoch = (if (s.val P.linkEpoch + 1) % 2 ^ 32 = 0 then 1 else (s.val P.linkEpoch + 1) % 2 ^ 32)
          ∧ t.reg P.linkDowns 0 = inc32 (s.reg P.linkDowns 0) ∧ SameStores s t ∧ t.clock = s.clock ∧ t.seq = s.seq
       s.hostUp = true → (∀ c, Completes (.hostLinkDown c) s fun t => down t
          ∧ t.host.perst = (s.host.perst || decide (c = .perst))) ∧ Completes .perstAssert s fun t => down t ∧ t.host.perst = true)
    ∧ (s.hostUp = false → Completes .perstAssert s fun t => t.host = { s.host with perst := true } ∧ t.val P.hostLinkState = 0
        ∧ OnlyRegs [P.hostLinkState] s t ∧ SameStores s t ∧ t.clock = s.clock)
    ∧ (∀ rate width : Byte, s.hostPresent = true → s.hostUp = false → rate ∈ [16, 32, 64] → width ∈ [4, 8, 16] →
      Completes (.hostLinkUp rate width) s fun t => t.hostUp = true ∧ bits (t.val P.hostLinkState) 8 8 = rate.toNat
        ∧ bits (t.val P.hostLinkState) 16 8 = width.toNat ∧ OnlyRegs [P.hostLinkState] s t ∧ SameStores s t ∧ t.host = s.host
        ∧ t.clock = s.clock)
    ∧ (s.host.perst = true → Completes .perstDeassert s fun t => t.host = { s.host with perst := false }
        ∧ t.fw = { s.fw with retry := s.boot == 0 } ∧ OnlyRegs [P.hostLinkState] s t ∧ SameStores s t ∧ t.clock = s.clock
        ∧ (s.supply.released = true → s.boot ≠ 6 → s.supply.refGood = true → t.val P.hostLinkState = 1))
    ∧ exec .requestRetryStatusEnd s = .next { s with fw := { s.fw with retry := false } }

namespace Sys2Proof.Claims

/-- A message leaves as its carrier holds it (R335): over MCTP behind the enterprise number and with the request's integrity check
bit, over I3C after an in-band interrupt; nothing else has left since `rest`. -/
def Sent (t : State) (who : Requester) (ic : Bool) (out : List Byte) (rest : List Emission) : Prop :=
  t.out = .response who (viaMctp who && ic) (if viaMctp who then t.ianaPrefix ++ out else out)
    :: ((if who.transport.val = 2 then [.inBandInterrupt] else []) ++ rest)

/-- The directory answers the sender; the record's message is within the request limit of the transport, carries the data that its
Length says, and repeats no message that is still kept (R332, R334, R337). -/
def Heard (s : State) (who : Requester) (r : DirRecord) : Prop :=
  s.answers who = true ∧ (recordMessage r).length ≤ s.requestLimit who ∧ (r.op = 2 → r.data.length = r.length.toNat)
    ∧ (2 ≤ who.transport.val → s.keptAnswer who (recordMessage r) = none)

/-- The record is heard, and the sender's transport has the Write right (R336). -/
def Granted (s : State) (who : Requester) (r : DirRecord) : Prop := Heard s who r ∧ bit (s.rights who) 1 = true

/-- A record was answered with status `st`: its response has left (R332, Table 15-6). -/
def Replied (t : State) (who : Requester) (r : DirRecord) (st : Nat) : Prop :=
  ∃ (a : Answer) (rest : List Emission), a.status = st ∧ Sent t who false ([0x01, 0x01, 0x00, 0x00] ++ a.bytes r) rest

/-- What a directory write that touches its own object leaves alone. -/
def DirFrame (s t : State) : Prop :=
  t.clock = s.clock ∧ t.pending = s.pending ∧ t.mem.tiles = s.mem.tiles ∧ t.supply = s.supply ∧ t.host = s.host

/-- R326, R327, R331: a write of an RWS parameter that passes its checks is held until its time, or, where the gate holds and no
step is open, applies at once; either way it is answered with status 0. -/
def HoldsWrite (s : State) (who : Requester) (c : Instr) (p off : Nat) (data : List Byte) : Prop :=
  ∀ row, Granted s who (writeRec p off data) → rowOf p = some row → spanOk row true off data.length = true →
    s.rwsBytes + data.length ≤ s.val P.rwsLimit →
    (s.checkWrite p (putParam s.heldParams p off (maskBytes p data))).ok = true →
    (s.gateHolds = false → Completes c s fun t => Replied t who (writeRec p off data) 0 ∧ SameStores s t
      ∧ t.held = s.held ++ [{ param := p, offset := off, bytes := maskBytes p data }] ∧ t.clock = s.clock ∧ t.seq = s.seq
      ∧ OnlyRegs ([P.requests] ++ (statusOf p).toList) s t)
    ∧ (s.gateHolds = true → Completes c s fun t => Replied t who (writeRec p off data) 0 ∧ t.held = [])

end Sys2Proof.Claims

/-- READ, DESCRIBE, NEXT and refused WRITE records complete with exactly the answer of Table 15-6, kept for an identical repeat on
MCTP and Ethernet: status 2 without the right, 1 for no parameter, 3 for a read-only one, 4 for a bad span, 0 with the data or
descriptor; Requests and, for a refusal, Rejected are higher by 1 and nothing else changes. A message longer than its limit is
dropped and counted, one that does not parse is answered with no record, one of several records with one answer each in order,
after a failed one of StopOnError with status 9, and an identical repeat of a kept message with its kept answer. Over MCTP a
message goes behind the enterprise number; a body of another number has no effect. R324, R329, R331, R332, R334 to R337. -/
def Obligations.DirectoryRecordsAreCheckedAndAnswered : Prop :=
  ∀ (s : State) (who : Requester) (r : DirRecord), Canonical s → r.res0 = 0 → r.res1 = 0 → recParam r / 256 < 0xF000 →
    60 ≤ s.responseLimit who →
    let p := recParam r
    let answered (c : Instr) (op : Byte) (a : Answer) : Prop := Heard s who { r with op := op } → Completes c s fun t =>
      Sent t who false ([0x01, 0x01, 0x00, 0x00] ++ a.bytes { r with op := op }) s.out
        ∧ (2 ≤ who.transport.val → t.keptAnswer who (recordMessage { r with op := op }) =
            some ([0x01, 0x01, 0x00, 0x00] ++ a.bytes { r with op := op }))
        ∧ t.reg P.requests who.transport = inc64 (s.reg P.requests who.transport)
        ∧ (a.status ≠ 0 → t.reg P.rejected who.transport = inc64 (s.reg P.rejected who.transport))
        ∧ OnlyRegs (P.requests :: if a.status = 0 then [] else [P.rejected]) s t ∧ SameStores s t ∧ t.clock = s.clock
        ∧ t.seq = s.seq ∧ t.held = s.held
    (bit (s.rights who) 0 = false → answered (.read who r) 1 { status := 0x02 }
      ∧ (r.offset = 0 → r.length = 0 → answered (.describe who r) 3 { status := 0x02 } ∧ answered (.next who r) 4 { status := 0x02 }))
    ∧ (bit (s.rights who) 0 = true → rowOf p = none → answered (.read who r) 1 { status := 0x01 }
      ∧ (r.offset = 0 → r.length = 0 → answered (.describe who r) 3 { status := 0x01 }))
    ∧ (∀ row, bit (s.rights who) 0 = true → rowOf p = some row → s.objectThere row.index = true →
      (s.loaded row = true → spanOk row false r.offset.toNat r.length.toNat = true →
        let x := s.readParam p row r.offset.toNat r.length.toNat
        x.1.length + 28 ≤ s.responseLimit who →
        answered (.read who r) 1 { status := 0, flags := x.2.1, detail := x.2.2, data := x.1 })
      ∧ (r.offset = 0 → r.length = 0 → answered (.describe who r) 3 { status := 0, data := descriptor p row }))
    ∧ (∀ k, bit (s.rights who) 0 = true → s.boot ≤ 4 → nextParam p = some k → r.offset = 0 → r.length = 0 →
      answered (.next who r) 4 { status := 0, data := leBytes 2 (k / 256) ++ leBytes 1 (k % 256) ++ leBytes 1 0 })
    ∧ (p ≠ P.eventRingEnable →
      (bit (s.rights who) 1 = false → answered (.write who r) 2 { status := 0x02 })
      ∧ (∀ row, bit (s.rights who) 1 = true → rowOf p = some row → s.objectThere row.index = true →
          (row.access = .ro ∨ row.access = .rs → answered (.write who r) 2 { status := 0x03 })
          ∧ (row.access ≠ .ro → row.access ≠ .rs → p ≠ P.transportRights → s.loaded row = true →
              spanOk row true r.offset.toNat r.data.length = false → answered (.write who r) 2 { status := 0x04 })))
    ∧ (∀ ic msg, s.answers who = true →
      let run (Q : State → Prop) : Prop := Completes (.directoryMessage who ⟨ic, if viaMctp who then s.ianaPrefix ++ msg else msg⟩) s Q
      let same (t : State) : Prop := t.params = s.params ∧ SameStores s t ∧ t.seq = s.seq ∧ t.clock = s.clock ∧ t.held = s.held
      (s.requestLimit who < msg.length → run fun t => t = s.bump64 P.rejected who.transport 1)
      ∧ (∀ out, msg.length ≤ s.requestLimit who → 2 ≤ who.transport.val → s.keptAnswer who msg = some out →
          run fun t => Sent t who ic out s.out ∧ same t ∧ t.dir = s.dir)
      ∧ (msg.length ≤ s.requestLimit who → (2 ≤ who.transport.val → s.keptAnswer who msg = none) →
          (parseMessage msg = none → run fun t => Sent t who ic [0x01, 0x00, 0x00, 0x00] s.out ∧ same t)
          ∧ (∀ stop rs, parseMessage msg = some (stop, rs) → run fun t => ∃ (as : List Answer) (rest : List Emission),
              as.length = rs.length ∧ (∀ i j, i < j → j < rs.length → stop = true → (nth as i { status := 0 }).status ≠ 0 →
                (nth as j { status := 0 }).status = 0x09)
              ∧ Sent t who ic ([0x01, BitVec.ofNat 8 rs.length, 0x00, 0x00] ++ (as.zip rs).flatMap fun x => x.1.bytes x.2) rest)))
    ∧ (s.answers who = false → exec (.read who r) s = .next s ∧ exec (.describe who r) s = .next s ∧ exec (.next who r) s = .next s
      ∧ exec (.write who r) s = .next s ∧ ∀ ic msg, exec (.directoryMessage who ⟨ic, msg⟩) s = .next s)
    ∧ (viaMctp who = true → ∀ ic msg, msg.take 4 ≠ s.ianaPrefix → exec (.directoryMessage who ⟨ic, msg⟩) s = .next s)

/-- For the shard, layer, millrace and watch tables, programs, topology, port map and riffle seed: a write that passes its
checks completes, answered with status 0, held as the last write, with no value changed while a step is open or opens; where
the gate holds, nothing is left held. A weir parameter write completes with exactly the new elements and WeirStatus, or with
status 5 and WeirStatus and nothing else. R291, R327, R331. -/
def Obligations.TableWritesAreHeldForTheNextStep : Prop :=
  ∀ (s : State) (who : Requester) (off : W32) (data : List Byte), Canonical s → s.boot ≤ 4 →
    (∀ layer, HoldsWrite s who (.shardTableWrite who layer off data) (if layer then P.layerTable else P.shardTable) off.toNat data)
    ∧ (∀ n : Fin 8, HoldsWrite s who (.programWrite who n data) (P.program + n) 0 data)
    ∧ HoldsWrite s who (.millraceTableWrite who off data) P.millraceTable off.toNat data
    ∧ (∀ k : Fin 5, HoldsWrite s who (.topologyWrite who k off data) (P.moduleAddress + k) off.toNat data)
    ∧ HoldsWrite s who (.portmapWrite who off data) P.portMap off.toNat data
    ∧ (∀ rg, HoldsWrite s who (.watchMapWrite who rg off data) (if rg then P.layerRanges else P.watchChannelMap) off.toNat data)
    ∧ (∀ v : W64, HoldsWrite s who (.riffleSeedWrite who v) P.riffleSeed 0 (leBytes 8 v.toNat))
    ∧ (∀ (index : W16) (sub : Byte) (row : ParamRow), index = 0x2000 ∨ index = 0x2010 ∨ index = 0x2020 →
      let p := index.toNat * 256 + sub.toNat
      Granted s who (writeRec p off.toNat data) → rowOf p = some row → row.access = .rw → s.loaded row = true → spanOk row true off.toNat data.length = true →
      (row.ty = .f32 → (f32 (leNat data)).isNan = false) →
      ((checkWeir (putParam s.params p off.toNat (maskBytes p data)) p).ok = true →
        Completes (.weirParameterWrite who index sub off data) s fun t => Replied t who (writeRec p off.toNat data) 0
          ∧ (∀ i, i < data.length / row.bytes →
              t.reg p (off.toNat / row.bytes + i) = leNat (slice data (row.bytes * i) row.bytes))
          ∧ t.val P.weirStatus = 2 ^ 8 * sub.toNat ∧ OnlyRegs [p, P.weirStatus, P.requests] s t ∧ SameStores s t
          ∧ t.weir = s.weir ∧ t.held = s.held ∧ t.clock = s.clock ∧ t.seq = s.seq)
      ∧ ((checkWeir (putParam s.params p off.toNat (maskBytes p data)) p).ok = false →
        Completes (.weirParameterWrite who index sub off data) s fun t => Replied t who (writeRec p off.toNat data) 5
          ∧ bits (t.val P.weirStatus) 0 8 ≠ 0 ∧ OnlyRegs [P.weirStatus, P.requests, P.rejected] s t ∧ SameStores s t
          ∧ t.weir = s.weir ∧ t.held = s.held ∧ t.clock = s.clock ∧ t.seq = s.seq))

/-- While no install runs: fwimageWrite completes with the 4096-byte elements staged and FwState 0; fwVerify with the code of
the checks and FwState 1 where it is 0; fwInstall from FwState 1 with the install begun, and refused with 0x11 while a trial
stands; fwConfirm of the running trial with the boot record confirmed, and otherwise refused with 0x12; fwDiscard with nothing
staged. Each is answered with status 0. R387, R388, R396, R398. -/
def Obligations.FirmwareWritesFollowTheirStatus : Prop :=
  ∀ (s : State) (who : Requester), Canonical s → s.fwState ≠ 2 →
    let frame (t : State) : Prop := OnlyRegs [P.fwStatus, P.requests, P.rejected] s t ∧ SameStores s t ∧ t.clock = s.clock
      ∧ t.seq = s.seq ∧ t.boot = s.boot
    let may (n : Nat) : Prop := Granted s who (writeRec P.fwCommand 0 (leBytes 1 n))
    let command (n : Nat) (t : State) (st : Nat) : Prop := Replied t who (writeRec P.fwCommand 0 (leBytes 1 n)) st ∧ frame t
    (∀ (off : W32) (data : List Byte), Granted s who (writeRec P.fwImage off.toNat data) → data ≠ [] → off.toNat % 4096 = 0 → data.length % 4096 = 0 →
      off.toNat + data.length ≤ 4096 * 6144 → Sparse.wf zeros s.fw.staged = true →
      Completes (.fwimageWrite who off data) s fun t => Replied t who (writeRec P.fwImage off.toNat data) 0 ∧ frame t
        ∧ (∀ i, i < data.length / 4096 → Sparse.get zeros t.fw.staged (off.toNat / 4096 + i) = leNat (slice data (4096 * i) 4096))
        ∧ t.fw.stagedAny = true ∧ t.fwState = 0 ∧ t.nor = s.nor)
    ∧ (may 1 → Completes (.fwVerify who) s fun t => command 1 t 0 ∧ t.fw = s.fw ∧ t.nor = s.nor ∧
        let code := if s.fw.stagedAny then checkFw (Sparse.get zeros s.fw.staged) (s.val P.featureLevel) s.floors.1 s.floors.2 else 0x10
        t.val P.fwStatus = code + 2 ^ 8 * (if code = 0 then 1 else 0))
    ∧ (may 2 → s.fwState = 1 → s.boot ≠ 6 → (s.bootRec.map (·.trial)).getD 0xFF = 0xFF → Completes (.fwInstall who) s fun t =>
        command 2 t 0 ∧ t.val P.fwStatus = 0x200 ∧ t.fw = { s.fw with target := s.installSlot }
        ∧ t.nor = s.nor.setSlot s.installSlot (.image []))
    ∧ (may 2 → s.boot ≠ 6 → (s.bootRec.map (·.trial)).getD 0xFF ≠ 0xFF → Completes (.fwInstall who) s fun t =>
        command 2 t 0 ∧ t.val P.fwStatus = 0x11 + 2 ^ 8 * s.fwState ∧ t.fw = s.fw ∧ t.nor = s.nor)
    ∧ (∀ r, may 3 → s.bootRec = some r → r.trial = s.fw.slot → s.fw.trialBoot = true → Completes (.fwConfirm who) s fun t =>
        command 3 t 0 ∧ t.val P.fwStatus = 2 ^ 8 * s.fwState ∧ t.fw = { s.fw with trialBoot := false }
        ∧ t.nor.slotA = s.nor.slotA ∧ t.nor.slotB = s.nor.slotB
        ∧ ∃ x, (t.nor.boot0 = some x ∨ t.nor.boot1 = some x) ∧ x.preferred = s.fw.slot ∧ x.trial = 0xFF ∧ x.trialResult = 1
            ∧ r.svnFloor ≤ x.svnFloor ∧ r.keyFloor ≤ x.keyFloor)
    ∧ (may 3 → (∀ r, s.bootRec = some r → r.trial ≠ s.fw.slot ∨ s.fw.trialBoot = false) → Completes (.fwConfirm who) s fun t =>
        command 3 t 0 ∧ t.val P.fwStatus = 0x12 + 2 ^ 8 * s.fwState ∧ t.fw = s.fw ∧ t.nor = s.nor)
    ∧ (may 4 → Completes (.fwDiscard who) s fun t => command 4 t 0 ∧ t.val P.fwStatus = 0 ∧ t.nor = s.nor
        ∧ t.fw = { s.fw with staged := [], stagedAny := false })

/-- For RILLRETRAIN, SCREENREQUEST, SIGNATUREACK, TIERMAPENTRY (taken and refused), STEPGATE (both sides of the gate),
RETIREREQUEST, STEPFLAGRAISE, STICKYCLEAR, RIFFLECLEAR, RWSCANCEL, RESTOREREQUEST, OFFENDERLATCH and GUARDRECORD: the write
completes, answered with its status, with the effect the rule gives and the named registers alone changed. R43, R85, R168,
R169, R187, R245, R250, R269, R327, R342, R356, R379. -/
def Obligations.SingleDirectoryWritesHaveTheirEffect : Prop :=
  ∀ (s : State) (who : Requester), Canonical s → s.boot ≤ 4 →
    let may (p n v : Nat) : Prop := Granted s who (writeRec p 0 (leBytes n v))
    let done (c : Instr) (p n v st : Nat) (Q : State → Prop) : Prop := may p n v →
      Completes c s fun t => Replied t who (writeRec p 0 (leBytes n v)) st ∧ DirFrame s t ∧ Q t
    (∀ r : Byte, r.toNat ≤ 9 → (s.rill r.toNat).shaking = false →
      done (.rillRetrain who r) P.rillRetrain 1 r.toNat 0 fun t => (t.rill r.toNat).shaking = true ∧ (t.rill r.toNat).fails = 0
        ∧ t.reg P.rillRetrains r.toNat = inc32 (s.reg P.rillRetrains r.toNat) ∧ OnlyRegs [P.rillRetrains, P.requests] s t)
    ∧ (∀ p : Byte, p.toNat ≤ 71 → s.posState p.toNat = 0 → (s.spareOf (p.toNat / 9)).isSome = true →
      done (.screenRequest who p) P.screenRequest 1 p.toNat 0 fun t => t.panel.class2 = s.panel.class2 ++ [p.toNat]
        ∧ t.val P.screenStatus = 0 ∧ OnlyRegs [P.screenStatus, P.requests] s t)
    ∧ (∀ id : W64, done (.signatureAck who id) P.signatureAck 8 id.toNat 0 fun t => t.nor.sigs =
        (s.nor.sigs.map fun x => if x.id = id.toNat then { x with acked := true } else x) ∧ OnlyRegs [P.requests] s t)
    ∧ (∀ e : BitVec 128, s.up 3 = true → s.gateHolds = false → s.checkEntry (s.val P.tierMapCursor) e.toNat = 0 →
      done (.tiermapEntryWrite who e) P.tierMapEntry 16 e.toNat 0 fun t => t.mem.pages = s.mem.pages
        ∧ t.mem.staged = s.mem.staged ++ [(s.val P.tierMapCursor, e)])
    ∧ (∀ e : BitVec 128, s.up 3 = true → s.checkEntry (s.val P.tierMapCursor) e.toNat ≠ 0 →
      done (.tiermapEntryWrite who e) P.tierMapEntry 16 e.toNat 5 fun t => t.mem = s.mem
        ∧ bits (t.val P.tierMapStatus) 0 8 = s.checkEntry (s.val P.tierMapCursor) e.toNat)
    ∧ (∀ v : W64, s.boot ≠ 4 ∨ s.seq.opened = true ∨ s.step < v.toNat →
      done (.stepGateWrite who v) P.stepGate 8 v.toNat 0 fun t => t.val P.stepGate = v.toNat ∧ t.held = s.held ∧ t.mem = s.mem
        ∧ OnlyRegs [P.stepGate, P.requests] s t)
    ∧ (∀ v : W64, may P.stepGate 8 v.toNat → s.boot = 4 → s.seq.opened = false → v.toNat ≤ s.step →
      Completes (.stepGateWrite who v) s fun t => t.held = [] ∧ t.pending = s.pending)
    ∧ (∀ g : W32, hbBase ≤ g.toNat → g.toNat < hbBase + 2 ^ 20 → (g.toNat - hbBase) / 64 % 2048 < s.hbBlocks ((g.toNat - hbBase) / 131072) →
      s.mem.retired.length < 4096 → (∀ r ∈ s.mem.retired, r.1 ≠ g.toNat) →
      done (.retireRequest who g) P.retireRequest 4 g.toNat 0 fun t => ∃ d, (g.toNat, d) ∈ t.mem.retired
        ∧ t.val P.retireStatus = if d then 5 else 0)
    ∧ (∀ v : W64, done (.stepFlagRaise who v) P.stepFlagRaise 8 v.toNat 0 fun t => t.mem = s.mem ∧ t.seq.dies = s.seq.dies
        ∧ (s.seq.opened = true → s.seq.wordTaken = false → t.val P.localFlags = Nat.lor (s.val P.localFlags) (Nat.land v.toNat 0xFF00))
        ∧ (s.seq.opened = false ∨ s.seq.wordTaken = true → t.val P.localFlags = s.val P.localFlags
            ∧ t.seq.nextWord = Nat.lor s.seq.nextWord (Nat.land v.toNat 0xFF00)))
    ∧ done (.stickyClear who 1) P.stickyClear 1 1 0 (fun t => t.seq = { s.seq with stickyHeld := true } ∧ OnlyRegs [P.requests] s t)
    ∧ done (.riffleClear who 1) P.riffleClear 1 1 0 (fun t => t.riffle = { s.riffle with clearHeld := true }
        ∧ OnlyRegs [P.requests] s t ∧ t.seq = s.seq)
    ∧ done (.rwsCancel who 1) P.rwsCancel 1 1 0 (fun t => t.held = [] ∧ OnlyRegs [P.requests] s t ∧ t.seq = s.seq ∧ t.mem = s.mem)
    ∧ (∀ (n : W64) (c : Checkpoint), s.upd.restoring = none → s.seq.opened = false → s.checkpointOf n.toNat = some c →
      s.sectionsMatch c = true → done (.restoreRequest who n) P.restoreRequest 8 n.toNat 0 fun t =>
        t.upd.restoring = some c.number ∧ t.val P.restoreStatus = 6 ∧ t.mem.pages = s.mem.pages)
    ∧ (∀ (sl : Slot) (a : ArrayIx) (v : BitVec 256), let p := P.offenderLatch + 2 * sl.val + a.val
      let here (e : LatchEvent) : Bool := e.latch == 2 * sl.val + a.val && e.ac == s.ac
      done (.offenderLatchRearm who sl a v) p 32 v.toNat 0 fun t => OnlyRegs [p, P.offenderMissed, P.requests] s t ∧ t.mem = s.mem
        ∧ t.seq = s.seq ∧ (bit v.toNat 0 = false → t.val p = s.val p)
        ∧ (bit v.toNat 0 = true → (s.seq.latched.find? here = none → t.val p = setBits (s.val p) 0 1 0)
            ∧ ∀ e, s.seq.latched.find? here = some e → t.val p = e.word))
    ∧ (∀ (sl : Slot) (v : BitVec 128), let p := P.guardRecord + sl.val
      done (.guardRecordRearm who sl v) p 16 v.toNat 0 fun t => OnlyRegs [p, P.requests] s t ∧ t.mem = s.mem ∧ t.seq = s.seq
        ∧ t.val p = if bit v.toNat 23 then setBits (s.val p) 23 1 0 else s.val p)

/-- eventRingEnable completes with the ring off, on from its first record, or refused with its code; eventRingDeliver writes
the next event at the tail and its vector; eventSinkSend sends one datagram, or loses it beyond 2000 in a second; snapshot
writes arm the time or step, or are refused while a copy runs; snapshotInstant copies at its instant; snapshotComplete makes
the copy the shadow. R364 to R366, R371 to R373. -/
def Obligations.EventsLeaveAndSnapshotsAreTaken : Prop :=
  ∀ s : State, Canonical s →
    (∀ (who : Requester) (head : W32), s.boot ≤ 4 →
      let w (v : Byte) : DirRecord := writeRec P.eventRingEnable 0 [v]
      (Granted s who (w 0) → Completes (.eventRingEnable who 0 head) s (fun t => Replied t who (w 0) 0 ∧ t.val P.eventRingEnable = 0 ∧ SameStores s t
        ∧ OnlyRegs [P.eventRingEnable, P.requests] s t ∧ t.log = s.log ∧ t.clock = s.clock))
      ∧ (Granted s who (w 1) → s.checkRing head.toNat = 0 → Completes (.eventRingEnable who 1 head) s fun t => Replied t who (w 1) 0
        ∧ t.val P.eventRingEnable = 1 ∧ t.val P.eventRingStatus = 0 ∧ t.log.ringTail = 0 ∧ t.log.ringPhase = 1
        ∧ t.log.ringNext = s.val P.eventRingFrom ∧ t.log.events = s.log.events ∧ SameStores s t ∧ t.clock = s.clock)
      ∧ (Granted s who (w 1) → s.checkRing head.toNat ≠ 0 → Completes (.eventRingEnable who 1 head) s fun t => Replied t who (w 1) 5
        ∧ t.val P.eventRingEnable = s.val P.eventRingEnable ∧ t.val P.eventRingStatus = s.checkRing head.toNat ∧ t.log = s.log
        ∧ SameStores s t ∧ t.clock = s.clock))
    ∧ (∀ (head : W32) (e : Event), s.val P.eventRingEnable = 1 → s.hostUp = true →
      (s.log.ringTail + 1) % 2 ^ s.val P.eventRingSize ≠ head.toNat →
      (s.log.events.reverse.find? fun e => decide (s.log.ringNext ≤ e.seq)) = some e → Completes (.eventRingDeliver head) s fun t =>
        .hostWrite 0 (s.val P.eventRingBase + 64 * s.log.ringTail) (ringSlot e s.log.ringPhase) false ∈ t.out
        ∧ t.log.ringTail = (s.log.ringTail + 1) % 2 ^ s.val P.eventRingSize ∧ t.log.ringNext = e.seq + 1
        ∧ t.log.events = s.log.events ∧ t.params = s.params ∧ SameStores s t ∧ t.clock = s.clock ∧ t.seq = s.seq
        ∧ (s.val P.eventRingVector ≠ 0xFF →
            let v := s.val P.eventRingVector
            let f := s.hostFn 0
            ((∃ u ∈ f.cfg.unmasked, u.val = v) ∧ f.cfg.msix = true → t.out.head? = some (.msix 0 v))
            ∧ ((∀ u ∈ f.cfg.unmasked, u.val ≠ v) ∨ f.cfg.msix = false → v ∈ (t.hostFn 0).irq)))
    ∧ (let rs := nextDatagram s.log.sinkQueue
       let sent := if s.log.sinkSec = s.clock.now / 9000000000 then s.log.sinkSent else 0
       rs ≠ [] → s.val P.eventSinkAddress ≠ 0 → s.val P.mgmtLink = 1 → Completes .eventSinkSend s fun t =>
        t.log.sinkQueue = s.log.sinkQueue.drop rs.length ∧ SameStores s t ∧ t.clock = s.clock ∧ t.seq = s.seq
        ∧ (sent < 2000 → t.params = s.params ∧ t.out.head? = some (.udp s.mgmtLinkOut (udpPacket s.mgmtSource
            (s.addrOf P.eventSinkAddress) none (s.val P.mgmtUdpPort) (s.val P.eventSinkPort) (mgmtPacket (sinkPayload rs)))))
        ∧ (2000 ≤ sent → t.out = s.out ∧ t.reg P.eventsLost 1 = min (s.reg P.eventsLost 1 + rs.length) (2 ^ 64 - 1)))
    ∧ (∀ (who : Requester) (v : W64), s.boot ≤ 4 →
      let w (p : Nat) : DirRecord := writeRec p 0 (leBytes 8 v.toNat)
      Granted s who (w P.snapshotTime) → Granted s who (w P.snapshotStep) →
      (s.log.copying = none → Completes (.snapshotTimeWrite who v) s (fun t => Replied t who (w P.snapshotTime) 0
          ∧ t.val P.snapshotTime = v.toNat ∧ t.log.snapAt = some (if v.toNat < s.panelTime + 20000 then s.clock.now + 180000 else v.toNat)
          ∧ t.val P.snapshotStatus = (if v.toNat < s.panelTime + 20000 then 0x101 else 1) ∧ SameStores s t ∧ t.clock = s.clock)
        ∧ Completes (.snapshotStepWrite who v) s (fun t => Replied t who (w P.snapshotStep) 0 ∧ t.val P.snapshotStep = v.toNat
          ∧ t.log.snapAt = none ∧ t.val P.snapshotStatus = (if v.toNat = 2 ^ 64 - 1 then 0 else 1) ∧ SameStores s t ∧ t.clock = s.clock))
      ∧ (s.log.copying.isSome = true → Completes (.snapshotTimeWrite who v) s (fun t => Replied t who (w P.snapshotTime) 5
          ∧ bits (t.val P.snapshotStatus) 8 8 = 2 ∧ t.val P.snapshotTime = s.val P.snapshotTime ∧ t.log = s.log)
        ∧ Completes (.snapshotStepWrite who v) s (fun t => Replied t who (w P.snapshotStep) 5
          ∧ bits (t.val P.snapshotStatus) 8 8 = 2 ∧ t.val P.snapshotStep = s.val P.snapshotStep ∧ t.log = s.log)))
    ∧ (s.log.snapAt.isSome = true → Completes .snapshotInstant s fun t =>
        (∃ m, t.log.copying = some (t.panelTime, t.ac, s.val P.timeState, m)) ∧ t.log.snapAt = none
        ∧ bits (t.val P.snapshotStatus) 0 2 = 2 ∧ s.clock.now ≤ t.clock.now ∧ SameStores s t ∧ t.log.shadow = s.log.shadow)
    ∧ (∀ t0 ac st m, s.log.copying = some (t0, ac, st, m) → Completes .snapshotComplete s fun t => t.log.shadow = some m
        ∧ t.log.copying = none ∧ t.val P.snapshotTaken = t0 ∧ t.val P.snapshotAc = ac ∧ t.val P.snapshotTimeState = st
        ∧ t.reg P.snapshotCount 0 = inc64 (s.reg P.snapshotCount 0) ∧ bits (t.val P.snapshotStatus) 0 2 = 0
        ∧ OnlyRegs [P.snapshotTaken, P.snapshotAc, P.snapshotTimeState, P.snapshotCount, P.snapshotStatus] s t ∧ SameStores s t
        ∧ t.clock = s.clock ∧ t.seq = s.seq)

/-- For every event raised: where the log holds no record of the same class, code and source, or the newest such record is at
least EventHoldoff old, a record with the next number is stored; where it is younger, its Repeats is higher by 1, saturating
at 0xFFFF, its Coalesced flag is set, EventsCoalesced is higher by 1, and neither a record nor a number is added nor anything
sent. The class's EventsRaised is higher by 1 in both cases, and nothing else changes. R369. -/
def Obligations.EventsWithinTheHoldoffCoalesce : Prop :=
  ∀ (s : State) (cls code src d0 d1 : Nat), Canonical s → cls < 16 →
    let t := s.raiseEvent cls code src d0 d1
    let same (e : Event) : Prop := e.cls = cls ∧ e.code = code ∧ e.source = src
    let stored : Prop := t.log.events = { seq := s.val P.eventSeq + 1, cls := cls, code := code, flags := 0
                                          time := s.panelTime, step := s.step, source := src, repeats := 0, d0 := d0, d1 := d1 }
          :: s.log.events.take 255
        ∧ t.val P.eventSeq = s.val P.eventSeq + 1 ∧ t.reg P.eventsCoalesced 0 = s.reg P.eventsCoalesced 0
    t.reg P.eventsRaised cls = inc64 (s.reg P.eventsRaised cls) ∧ OnlyRegs eventRegs s t ∧ SameStores s t ∧ t.out = s.out
    ∧ ((∀ e ∈ s.log.events, ¬ same e) → stored)
    ∧ (∀ (newer older : List Event) (e : Event), s.log.events = newer ++ e :: older → (∀ x ∈ newer, ¬ same x) → same e →
        (e.time + s.val P.eventHoldoff * 1000 ≤ s.panelTime → stored)
        ∧ (s.panelTime < e.time + s.val P.eventHoldoff * 1000 →
            t.log.events = newer ++ { e with repeats := min (e.repeats + 1) 0xFFFF, flags := Nat.lor e.flags 1 } :: older
            ∧ t.reg P.eventsCoalesced 0 = inc64 (s.reg P.eventsCoalesced 0) ∧ t.val P.eventSeq = s.val P.eventSeq
            ∧ t.log.sinkQueue = s.log.sinkQueue ∧ t.log.ringNext = s.log.ringNext))

/-- Neighbour solicitations and echo requests to the module's address are answered and others discarded; the management link
follows its port; management datagrams to MgmtUdpPort are answered by the directory on the management port, from the port they
came to, and, where the stream and MgmtOnData allow it, on a data port; MCTP control, I3C address assignment and the SPDM
requests are answered as chapters 15 and 18 say, the secured ones with an error while the identity is not good, each after an
in-band interrupt on I3C. R216, R228, R335, R336, R394, R395. -/
def Obligations.EndpointsAnswerTheirRequests : Prop :=
  ∀ s : State, Canonical s →
    (∀ (c : Carrier) (src dest : Addr6) (body : List Byte), s.carrierUp c = true →
      (s.hasAddress c dest.toNat = true →
        exec (.neighborSolicitation c src dest) s = .next (s.emit (.neighborAdvertisement (s.linkOut c) src dest))
        ∧ exec (.echoRequest c src dest body) s = .next (s.emit (.echoReply (s.linkOut c) dest src body)))
      ∧ (s.hasAddress c dest.toNat = false →
        exec (.neighborSolicitation c src dest) s = .next (s.discard c) ∧ exec (.echoRequest c src dest body) s = .next (s.discard c)))
    ∧ (∀ up, s.up 1 = true → exec (.mgmtPortLinkChange up) s = .next (s.setVal P.mgmtLink (if up then 1 else 0)))
    ∧ (∀ (ce : Bool) (src dest : Endpoint) (pkt out : List Byte) (u : State), let h := parseHeader pkt
      s.val P.mgmtLink = 1 → s.hasAddress .mgmt dest.addr.toNat = true → h.crcOk = true → h.version = 1 → h.cls = 3 →
      (dest.port.toNat ≠ s.val P.mgmtUdpPort → exec (.mgmt .mgmt ce ⟨src, dest⟩ pkt) s = .next s)
      ∧ (dest.port.toNat = s.val P.mgmtUdpPort → s.receiveMessage (ethSender 4 src) none h.payload = (some out, u) →
        exec (.mgmt .mgmt ce ⟨src, dest⟩ pkt) s = .next (u.emit (.udp u.mgmtLinkOut (udpPacket dest.addr.toNat src.addr.toNat none
          dest.port.toNat src.port.toNat (mgmtPacket out))))))
    ∧ (∀ (p : Port) (ce : Bool) (src dest : Endpoint) (pkt : List Byte), s.portUp p = true →
      (s.hasAddress (.data p) dest.addr.toNat = false ∨ dest.port.toNat ≠ s.val P.streamUdpPort →
        exec (.mgmt (.data p) ce ⟨src, dest⟩ pkt) s = .next (s.bump64 P.framesDropped p 1))
      ∧ (s.hasAddress (.data p) dest.addr.toNat = true → dest.port.toNat = s.val P.streamUdpPort →
        ∀ (h : Header) (v : State), s.receive p 3 ce pkt = (some h, v) →
        (seMgmt (v.streamEntry h.stream) = false ∨ v.val P.mgmtOnData ≠ 1 →
          exec (.mgmt (.data p) ce ⟨src, dest⟩ pkt) s = .next (v.bump64 P.framesDropped p 1))
        ∧ (∀ out u, seMgmt (v.streamEntry h.stream) = true → v.val P.mgmtOnData = 1 →
          v.receiveMessage (ethSender 5 src) none h.payload = (some out, u) → exec (.mgmt (.data p) ce ⟨src, dest⟩ pkt) s =
            .next (u.sendPacket h.stream 0 (netPacket 3 0 (sePeer (u.streamEntry h.stream)) (u.val P.topologyEpoch) 0 0 0 0 out)))))
    ∧ (∀ pcie, s.mctpUp pcie = true → let told (t : State) : State := if pcie then t else t.emit .inBandInterrupt
      let reply (c : Instr) (r : ControlReply) : Prop := exec c s = .next ((told s).emit (.control pcie r))
      (∀ eid : Byte, exec (.setEndpointId pcie eid) s =
          .next ((told (s.setVal P.mctpEid eid.toNat)).emit (.control pcie (.setEndpointId eid.toNat))))
      ∧ reply (.getEndpointId pcie) (.endpointId (s.val P.mctpEid))
      ∧ (∀ t : Byte, reply (.getMctpVersionSupport pcie t) (.versionSupport t.toNat (decide (t.toNat ∈ [0x00, 0x05, 0x7F, 0xFF]))))
      ∧ reply (.getMessageTypeSupport pcie) (.messageTypes [0x05, 0x7F]))
    ∧ (s.mctpUp false = true → s.dir.i3cAddr = 0 → ∀ a : Byte,
      let taken : State := { s with dir := { s.dir with i3cAddr := a.toNat % 128 } }.emit (.control false (.addressSet (a.toNat % 128)))
      exec (.entdaa a) s = .next taken
      ∧ ∀ st : Byte, st.toNat = s.val P.i3cStaticAddress % 128 → exec (.setdasa st a) s = .next taken)
    ∧ (∀ pcie, s.mctpUp pcie = true → s.boot ≤ 4 → let told : List Emission := if pcie then [] else [.inBandInterrupt]
      let reply (c : Instr) (r : SpdmReply) : Prop :=
        exec c s = .next ((if pcie then s else s.emit .inBandInterrupt).emit (.spdm pcie r))
      reply (.getVersion pcie) .version ∧ reply (.getCapabilities pcie) .capabilities
      ∧ reply (.negotiateAlgorithms pcie) (.algorithms (s.val P.vendorIana))
      ∧ (∀ code, reply (.spdmUnsupportedRequest pcie code) .unsupportedRequest)
      ∧ (∀ nonce, reply (.getMeasurements pcie 0 false nonce) (.measurementCount 8)
          ∧ (∀ i : Byte, 1 ≤ i.toNat → i.toNat ≤ 8 →
              reply (.getMeasurements pcie i false nonce) (.measurements [(i.toNat, s.measurement i.toNat)] none))
          ∧ reply (.getMeasurements pcie 0xFF false nonce)
              (.measurements (([1, 2, 3, 4, 5, 6, 7, 8] : List Nat).map fun i => (i, s.measurement i)) none))
      ∧ (s.val P.identityState ≠ 0 → reply (.getDigests pcie) .unspecified
          ∧ (∀ sl o l, reply (.getCertificate pcie sl o l) .unspecified) ∧ (∀ sl n, reply (.challenge pcie sl n) .unspecified)
          ∧ ∀ i n, reply (.getMeasurements pcie i true n) .unspecified)
      ∧ (s.val P.identityState = 0 → reply (.getDigests pcie) (.digests (Config.sha384 s.chain).toNat)
          ∧ (∀ o l : W16, reply (.getCertificate pcie 0 o l) (if s.chain.length ≤ o.toNat then .invalidRequest
              else .certificate 0 (slice s.chain o.toNat l.toNat)
                (s.chain.length - o.toNat - (slice s.chain o.toNat l.toNat).length)))
          ∧ (∀ n, Completes (.challenge pcie 0 n) s fun t => (∃ nonce sig, t.out =
              .spdm pcie (.challengeAuth (Config.sha384 s.chain).toNat nonce sig) :: (told ++ s.out)) ∧ t.params = s.params ∧ SameStores s t
              ∧ t.clock = s.clock)))

namespace Sys2Proof.Claims

/-- The bounds of the event log (R370), of staged tier map writes (R169) and of the retirement list (R187). -/
def Bounded (s : State) : Prop :=
  s.log.events.length ≤ 256 ∧ s.mem.staged.length ≤ 65536 ∧ s.mem.retired.length ≤ 4096

end Sys2Proof.Claims

/-- In the reset state the queue, log, staged and held writes and retirements are empty, boot state and step are 0, every page
is unmapped with the reset entry and no tile is written, the listed parameters hold the reset values of their tables, every
token is 0, and the stores are canonical and within their bounds. R71, R158 and the parameter tables of the chapters. -/
def Obligations.ResetHoldsTheSpecifiedValues : Prop :=
  let s := State.reset
  s.pending = [] ∧ s.boot = 0 ∧ s.step = 0 ∧ s.log.events = [] ∧ s.mem.staged = [] ∧ s.mem.retired = [] ∧ s.held = []
    ∧ (∀ p, s.page p = 0x00000000FFFFFFFF0000000000000000) ∧ (∀ id, (s.tile id).written = false)
    ∧ (s.val P.powerLimit = 4000 ∧ s.val P.gearCap = 7 ∧ s.val P.bucketDepth = 4096 ∧ s.val P.supplyHold = 10000
      ∧ s.val P.warnLevel = 0x42300000 ∧ s.val P.resetLevel = 0x42200000 ∧ s.val P.stallLimit = 1000000 ∧ s.val P.linkEpoch = 1
      ∧ s.val P.riffleRate = 4096 ∧ s.val P.digestVerify = 7 ∧ s.val P.eventHoldoff = 1000 ∧ s.val P.segmentBytes = 8192
      ∧ s.val P.streamUdpPort = 47000 ∧ s.val P.journalBlocks = 16384 ∧ s.val P.rillErrorLimit = 64 ∧ s.val P.stepGate = 0)
    ∧ (∀ g, g < 8 → s.reg P.streamOrder g = 0xFEDCBA9876543210) ∧ (∀ b, b < 8 → s.reg P.llmMode b = 0x0F)
    ∧ (∀ sl t, (s.die sl).token t = 0) ∧ Canonical s ∧ Bounded s

/-- For all states s and t: where the parameter store, tiles, tier map and dies of s are in canonical form, its event log
holds at most 256 records, its staged tier map writes at most 65536 and its retirement list at most 4096, and step s answers
next t, then the same holds of t. The canonical form is the model's own (assumption log 10). R169, R187, R370; the canonical
form is the model's. -/
def Obligations.EveryStepKeepsTheStoresCanonicalAndBounded : Prop :=
  ∀ s t : State, Canonical s → Bounded s → step s = .next t → Canonical t ∧ Bounded t

/-- For every command and state, exec answers a next state with the same queue; a step with a command at the front answers a
next state with that command gone; and no step is a fault or a refusal. That no command stops is what the spec gives: each has
an effect or none (assumption log 1). The queue is the model's (assumption log 1). -/
def Obligations.EveryCommandCompletesAndLeavesTheQueue : Prop :=
  (∀ (c : Instr) (s : State), ∃ t, exec c s = .next t ∧ t.pending = s.pending)
    ∧ (∀ (c : Instr) (cs : List Instr) (s : State), s.pending = c :: cs → ∃ t, step s = .next t ∧ t.pending = cs)
    ∧ ∀ s : State, SafeStep s

namespace Sys2Proof.Claims

/-- R326, R327: a granted write of an RWS parameter that passes its checks, with a step open or to open, completes with the write
held last. -/
def HoldsLast (s : State) (who : Requester) (c : Instr) (p off : Nat) (data : List Byte) : Prop :=
  ∀ row, Granted s who (writeRec p off data) → rowOf p = some row → spanOk row true off data.length = true →
    s.rwsBytes + data.length ≤ s.val P.rwsLimit → (s.checkWrite p (putParam s.heldParams p off (maskBytes p data))).ok = true →
    s.gateHolds = false →
    Completes c s fun t => t.held = s.held ++ [{ param := p, offset := off, bytes := maskBytes p data }]

end Sys2Proof.Claims

/-- Where the conditions that the rules give for its normal execution hold of the state and the operands, each of these commands
completes with its main effect: headDue, slotStall, stepOpen, commitRecordFormed, recheck; the six commands that bring an orderly
reset; the directory's READ, WRITE, DESCRIBE, NEXT and messages; the writes that are held for the next step; the firmware commands;
and the single writes with an effect of their own, of the event ring and of the snapshots among them. R35, R43, R44, R46, R85,
R168, R187, R245, R254, R261, R269, R270, R276, R291, R294, R298, R327, R331, R332, R342, R356, R364, R371, R379, R383, R396. -/
def Obligations.CommandsCompleteWithTheirMainEffect : Prop :=
  ∀ (s : State) (who : Requester), Canonical s →
    ((∀ (sl : Slot) (st : StreamIx), s.readyAt sl st (ceilDiv s.clock.now 4) = true →
        (s.seq.copying.any fun c => c.1 == sl.val) = true →
        Completes (.headDue sl st) s fun t => 16 ≤ (strm t sl st).passed)
      ∧ (∀ sl : Slot, s.val P.stallLimit ≠ 0 → s.slotBusy sl = true → (s.die sl).stallTold = false →
        Completes (.slotStall sl) s fun t => (t.die sl).stallTold = true)
      ∧ (s.mayOpen = true → Completes .stepOpen s fun t => t.seq.everOpen = true ∧ t.seq.openedAt = s.clock.now)
      ∧ (∀ r : StepRec, s.upd.steps.find? (fun r => s.verifiable r) = some r →
        (∀ q ∈ s.closingRanks, (s.commitFrom r.step q).isSome = true) →
        Completes .commitRecordFormed s fun t => ∀ k ∈ t.upd.steps, k.step ≠ r.step)
      ∧ (∀ (sh : ShardIx) (r : StepRec) (x : ShardCommit), StreamsInRange s →
        s.upd.steps.find? (fun r => (r.shard sh).any fun x => x.stage == 1) = some r → r.shard sh = some x →
        Completes (.recheck sh) s fun t => ∃ k ∈ t.upd.steps, k.step = r.step ∧ ∃ y ∈ k.shards, y.shard = x.shard ∧ y.rounds = x.rounds + 1))
    ∧ (let off (t : State) (cause : Nat) : Prop := t.boot = 0 ∧ t.supply.released = false ∧ t.held = [] ∧ bits t.nor.cause 0 8 = cause
      (∀ (k : Sensor) (h : Nat × Nat), s.weir.hot.find? (fun h => h.1 == k.val) = some h → h.2 + 9000000 ≤ s.weir.lastSample →
        Completes (.hardLimitPersist k) s fun t => off t 3)
      ∧ (∀ v : W32, s.supply.released = true → flt v.toNat (s.level 6) = true → Completes (.resetLevelCrossing v) s fun t => off t 1)
      ∧ (s.supply.closed = true → Completes .enableOpen s fun t => off t 1 ∧ t.supply.closed = false)
      ∧ (s.weirRuns = true → Completes .watchdogExpiry s fun t => off t 5)
      ∧ (s.fw.trialBoot = true → s.supply.released = true → s.boot < 4 → Completes .trialBootTimeout s fun t => off t 5)
      ∧ (∀ (q : QueueIx) (n : Nat) (c : HostCmd), s.startable 0 q n = some c → c.opcode = 0x38 → c.malformed = false →
        c.arg 0x20 4 = 0x54535752 → Completes (.moduleReset 0 q n) s fun t => off t 4))
    ∧ (∀ r : DirRecord, let one (c : Instr) (op : Byte) : Prop := Heard s who { r with op := op } → Completes c s fun t =>
        ∃ (a : Answer) (rest : List Emission), Sent t who false ([0x01, 0x01, 0x00, 0x00] ++ a.bytes { r with op := op }) rest
      one (.read who r) 1 ∧ one (.write who r) 2 ∧ one (.describe who r) 3 ∧ one (.next who r) 4)
    ∧ (∀ ic msg, viaMctp who = false → s.answers who = true → msg.length ≤ s.requestLimit who →
      Completes (.directoryMessage who ⟨ic, msg⟩) s fun t => ∃ (out : List Byte) (rest : List Emission), Sent t who ic out rest)
    ∧ (s.boot ≤ 4 → ∀ (off : W32) (data : List Byte),
      (∀ v : W64, HoldsLast s who (.riffleSeedWrite who v) P.riffleSeed 0 (leBytes 8 v.toNat))
      ∧ (∀ layer, HoldsLast s who (.shardTableWrite who layer off data) (if layer then P.layerTable else P.shardTable) off.toNat data)
      ∧ (∀ n : Fin 8, HoldsLast s who (.programWrite who n data) (P.program + n) 0 data)
      ∧ HoldsLast s who (.millraceTableWrite who off data) P.millraceTable off.toNat data
      ∧ (∀ k : Fin 5, HoldsLast s who (.topologyWrite who k off data) (P.moduleAddress + k) off.toNat data)
      ∧ HoldsLast s who (.portmapWrite who off data) P.portMap off.toNat data
      ∧ (∀ rg, HoldsLast s who (.watchMapWrite who rg off data) (if rg then P.layerRanges else P.watchChannelMap) off.toNat data)
      ∧ (∀ v : W32, let d := leBytes 4 v.toNat
        Granted s who (writeRec P.powerLimit 0 d) → 1000 ≤ v.toNat → v.toNat ≤ 4000 →
        Completes (.weirParameterWrite who 0x2000 (BitVec.ofNat 8 P.powerLimit) 0 d) s fun t => t.val P.powerLimit = v.toNat))
    ∧ (s.fwState ≠ 2 → s.boot ≤ 4 → let may (n : Nat) : Prop := Granted s who (writeRec P.fwCommand 0 (leBytes 1 n))
      (∀ (off : W32) (data : List Byte), Granted s who (writeRec P.fwImage off.toNat data) → data ≠ [] → off.toNat % 4096 = 0 →
        data.length % 4096 = 0 → off.toNat + data.length ≤ 4096 * 6144 →
        Completes (.fwimageWrite who off data) s fun t => t.fw.stagedAny = true ∧ t.fwState = 0)
      ∧ (may 1 → Completes (.fwVerify who) s fun t => t.fw = s.fw ∧ t.nor = s.nor
        ∧ (s.fw.stagedAny = false → t.val P.fwStatus = 0x10)
        ∧ (s.fw.stagedAny = true → bits (t.val P.fwStatus) 0 8 = 0 → t.fwState = 1))
      ∧ (may 2 → s.fwState = 1 → (s.bootRec.map (·.trial)).getD 0xFF = 0xFF → Completes (.fwInstall who) s fun t => t.fwState = 2)
      ∧ (∀ r, may 3 → s.bootRec = some r → r.trial = s.fw.slot → s.fw.trialBoot = true →
        Completes (.fwConfirm who) s fun t => t.fw.trialBoot = false)
      ∧ (may 4 → Completes (.fwDiscard who) s fun t => t.fw.staged = [] ∧ t.fw.stagedAny = false))
    ∧ (s.boot ≤ 4 → let may (p n v : Nat) : Prop := Granted s who (writeRec p 0 (leBytes n v))
      (∀ r : Byte, may P.rillRetrain 1 r.toNat → r.toNat ≤ 9 → (s.rill r.toNat).shaking = false →
        Completes (.rillRetrain who r) s fun t => t.reg P.rillRetrains r.toNat = inc32 (s.reg P.rillRetrains r.toNat))
      ∧ (∀ p : Byte, may P.screenRequest 1 p.toNat → p.toNat ≤ 71 → s.posState p.toNat = 0 → (s.spareOf (p.toNat / 9)).isSome = true →
        Completes (.screenRequest who p) s fun t => t.panel.class2 = s.panel.class2 ++ [p.toNat])
      ∧ (∀ id : W64, may P.signatureAck 8 id.toNat → Completes (.signatureAck who id) s fun t =>
        t.nor.sigs.map (·.id) = s.nor.sigs.map (·.id) ∧ ∀ x ∈ t.nor.sigs, x.id = id.toNat → x.acked = true)
      ∧ (∀ e : BitVec 128, may P.tierMapEntry 16 e.toNat → s.up 3 = true → s.gateHolds = false →
        s.checkEntry (s.val P.tierMapCursor) e.toNat = 0 →
        Completes (.tiermapEntryWrite who e) s fun t => t.mem.staged = s.mem.staged ++ [(s.val P.tierMapCursor, e)])
      ∧ (∀ v : W64, may P.stepGate 8 v.toNat → s.step < v.toNat → Completes (.stepGateWrite who v) s fun t => t.val P.stepGate = v.toNat)
      ∧ (∀ g : W32, may P.retireRequest 4 g.toNat → hbBase ≤ g.toNat → g.toNat < hbBase + 2 ^ 20 →
        (g.toNat - hbBase) / 64 % 2048 < s.hbBlocks ((g.toNat - hbBase) / 131072) → s.mem.retired.length < 4096 →
        (∀ r ∈ s.mem.retired, r.1 ≠ g.toNat) →
        Completes (.retireRequest who g) s fun t => ∃ d, (g.toNat, d) ∈ t.mem.retired)
      ∧ (∀ v : W64, may P.stepFlagRaise 8 v.toNat → s.seq.opened = true → s.seq.wordTaken = false →
        Completes (.stepFlagRaise who v) s fun t => t.val P.localFlags = Nat.lor (s.val P.localFlags) (Nat.land v.toNat 0xFF00))
      ∧ (may P.stickyClear 1 1 → Completes (.stickyClear who 1) s fun t => t.seq.stickyHeld = true)
      ∧ (may P.riffleClear 1 1 → Completes (.riffleClear who 1) s fun t => t.riffle.clearHeld = true)
      ∧ (may P.rwsCancel 1 1 → Completes (.rwsCancel who 1) s fun t => t.held = [])
      ∧ (∀ (n : W64) (c : Checkpoint), may P.restoreRequest 8 n.toNat → s.upd.restoring = none → s.seq.opened = false →
        s.checkpointOf n.toNat = some c → s.sectionsMatch c = true →
        Completes (.restoreRequest who n) s fun t => t.upd.restoring = some c.number)
      ∧ (∀ (sl : Slot) (a : ArrayIx) (v : BitVec 256), let p := P.offenderLatch + 2 * sl.val + a.val
        may p 32 v.toNat → bit v.toNat 0 = true → (∀ e ∈ s.seq.latched, e.ac ≠ s.ac) →
        Completes (.offenderLatchRearm who sl a v) s fun t => bit (t.val p) 0 = false)
      ∧ (∀ (sl : Slot) (v : BitVec 128), let p := P.guardRecord + sl.val
        may p 16 v.toNat → bit v.toNat 23 = true → Completes (.guardRecordRearm who sl v) s fun t => bit (t.val p) 23 = false)
      ∧ (∀ head : W32, Granted s who (writeRec P.eventRingEnable 0 [0]) →
        Completes (.eventRingEnable who 0 head) s fun t => t.val P.eventRingEnable = 0)
      ∧ (∀ v : W64, s.log.copying = none →
        (may P.snapshotTime 8 v.toNat → Completes (.snapshotTimeWrite who v) s fun t => t.val P.snapshotTime = v.toNat
          ∧ t.log.snapAt.isSome = true)
        ∧ (may P.snapshotStep 8 v.toNat → Completes (.snapshotStepWrite who v) s fun t => t.val P.snapshotStep = v.toNat
          ∧ t.log.snapAt = none)))
end

