-- ==== Sys2Proof/Laws/Sparse.lean ====
section
/-! SUPPORT. The laws of sparse maps: a read after a write, and the canonical form that every operation on them keeps. -/

namespace Sys2Proof.Machine

@[simp] theorem nth_setAt_same {α : Type} (d : α) (xs : List α) (i : Nat) (v e : α) : nth (setAt d xs i v) i e = v := by
  unfold nth setAt
  split
  · simp [*]
  · simp [List.getElem?_append, *]

theorem nth_setAt_other {α : Type} (d : α) (xs : List α) {i j : Nat} (v : α) (h : j ≠ i) : nth (setAt d xs i v) j d = nth xs j d := by
  unfold nth setAt
  split
  · simp [Ne.symm h]
  · rename_i g
    simp only [List.getD_eq_getElem?_getD, List.append_assoc]
    by_cases k : j < xs.length
    · rw [List.getElem?_append_left k]
    · rw [List.getElem?_append_right (by omega), List.getElem?_eq_none (by omega : xs.length ≤ j)]
      by_cases m : j - xs.length < i - xs.length
      · rw [List.getElem?_append_left (by simpa using m)]
        simp [List.getElem?_replicate]
        split <;> rfl
      · rw [List.getElem?_append_right (by simp; omega), List.getElem?_eq_none (by simp; omega)]

variable {α : Type} [DecidableEq α] {d : Nat → α}

/-- Keys of a canonical map lie above its bound, so a lower bound does as well. -/
theorem Sparse.wfFrom_mono {lo lo' : Nat} {m : Sparse α} (h : lo' ≤ lo) (w : Sparse.wfFrom d lo m = true) :
    Sparse.wfFrom d lo' m = true := by
  cases m with
  | nil => rfl
  | cons e m =>
    simp only [Sparse.wfFrom, Bool.and_eq_true, decide_eq_true_eq] at w ⊢
    exact ⟨⟨by omega, w.1.2⟩, w.2⟩

/-- Below the bound of a canonical map every key reads as unlisted. -/
theorem Sparse.get_below {lo k : Nat} {m : Sparse α} (w : Sparse.wfFrom d lo m = true) (h : k < lo) :
    Sparse.get d m k = d k := by
  cases m with
  | nil => rfl
  | cons e m =>
    simp only [Sparse.wfFrom, Bool.and_eq_true, decide_eq_true_eq] at w
    simp only [Sparse.get]
    rw [if_pos (by omega)]

/-- Dropping a prefix of small keys leaves a canonical map whose keys lie above the prefix as it is. -/
theorem Sparse.dropWhile_wf {lo k : Nat} {m : Sparse α} (w : Sparse.wfFrom d lo m = true) (h : k < lo) :
    m.dropWhile (fun e => decide (e.1 ≤ k)) = m := by
  cases m with
  | nil => rfl
  | cons e m =>
    simp only [Sparse.wfFrom, Bool.and_eq_true, decide_eq_true_eq] at w
    rw [List.dropWhile_cons, if_neg (by simp only [decide_eq_true_eq]; omega)]

/-- Storing keeps the canonical form. -/
theorem Sparse.wfFrom_put {lo k : Nat} {m : Sparse α} (v : α) (w : Sparse.wfFrom d lo m = true) (h : lo ≤ k) :
    Sparse.wfFrom d lo (Sparse.put d m k v) = true := by
  induction m generalizing lo with
  | nil =>
    simp only [Sparse.put]
    split
    · rfl
    · next hv => simp only [Sparse.wfFrom, Bool.and_true, Bool.and_eq_true, decide_eq_true_eq]; exact ⟨h, hv⟩
  | cons e m ih =>
    obtain ⟨k', v'⟩ := e
    have w' := w
    simp only [Sparse.wfFrom, Bool.and_eq_true, decide_eq_true_eq] at w'
    obtain ⟨⟨h1, h2⟩, h3⟩ := w'
    simp only [Sparse.put]
    split
    · next hk =>
      split
      · exact w
      · next hv =>
        simp only [Sparse.wfFrom, Bool.and_eq_true, decide_eq_true_eq]
        exact ⟨⟨h, hv⟩, ⟨by omega, h2⟩, h3⟩
    · split
      · next hk =>
        subst hk
        split
        · rw [Sparse.dropWhile_wf h3 (Nat.lt_succ_self k)]
          exact Sparse.wfFrom_mono (by omega) h3
        · next hv =>
          simp only [Sparse.wfFrom, Bool.and_eq_true, decide_eq_true_eq]
          exact ⟨⟨h, hv⟩, h3⟩
      · simp only [Sparse.wfFrom, Bool.and_eq_true, decide_eq_true_eq]
        exact ⟨⟨h1, h2⟩, ih h3 (by omega)⟩

/-- Storing keeps the canonical form. -/
theorem Sparse.wf_put {m : Sparse α} (k : Nat) (v : α) (w : Sparse.wf d m = true) :
    Sparse.wf d (Sparse.put d m k v) = true := Sparse.wfFrom_put v w (Nat.zero_le k)

/-- A bound may rise to the first key. -/
theorem Sparse.wfFrom_filter {lo : Nat} {m : Sparse α} (p : Nat × α → Bool) (w : Sparse.wfFrom d lo m = true) :
    Sparse.wfFrom d lo (m.filter p) = true := by
  induction m generalizing lo with
  | nil => rfl
  | cons e m ih =>
    obtain ⟨k', v'⟩ := e
    have w' := w
    simp only [Sparse.wfFrom, Bool.and_eq_true, decide_eq_true_eq] at w'
    rw [List.filter_cons]
    split
    · simp only [Sparse.wfFrom, Bool.and_eq_true, decide_eq_true_eq]
      exact ⟨w'.1, ih w'.2⟩
    · exact Sparse.wfFrom_mono (by omega) (ih w'.2)

/-- Leaving entries out keeps the canonical form. -/
theorem Sparse.wf_filter {m : Sparse α} (p : Nat × α → Bool) (w : Sparse.wf d m = true) :
    Sparse.wf d (m.filter p) = true := Sparse.wfFrom_filter p w

/-- A key reads what was last stored under it. -/
theorem Sparse.get_put_same (m : Sparse α) (k : Nat) (v : α) : Sparse.get d (Sparse.put d m k v) k = v := by
  induction m with
  | nil =>
    simp only [Sparse.put]
    split
    · next h => simp [Sparse.get, h]
    · simp [Sparse.get]
  | cons e m ih =>
    obtain ⟨k', v'⟩ := e
    simp only [Sparse.put]
    split
    · next hk =>
      split
      · next hv => simp [Sparse.get, hk, hv]
      · simp [Sparse.get]
    · next hk =>
      split
      · next he =>
        subst he
        split
        · next hv =>
          subst hv
          have : ∀ m : Sparse α, Sparse.get d (m.dropWhile (fun e => decide (e.1 ≤ k))) k = d k := by
            intro m
            induction m with
            | nil => rfl
            | cons e m ih =>
              rw [List.dropWhile_cons]
              split
              · exact ih
              · next h =>
                simp only [decide_eq_true_eq, Nat.not_le] at h
                simp [Sparse.get, h]
          exact this m
        · simp [Sparse.get]
      · next hne => simp only [Sparse.get, if_neg hk, if_neg hne, ih]

/-- Storing under a key leaves every other key of a canonical map as it was. -/
theorem Sparse.get_put_other {lo : Nat} {m : Sparse α} {j k : Nat} (v : α) (w : Sparse.wfFrom d lo m = true) (h : j ≠ k) :
    Sparse.get d (Sparse.put d m k v) j = Sparse.get d m j := by
  induction m generalizing lo with
  | nil =>
    simp only [Sparse.put]
    split
    · rfl
    · simp only [Sparse.get, if_neg h]
      split <;> rfl
  | cons e m ih =>
    obtain ⟨k', v'⟩ := e
    have w' := w
    simp only [Sparse.wfFrom, Bool.and_eq_true, decide_eq_true_eq] at w'
    simp only [Sparse.put]
    split
    · next hk =>
      split
      · rfl
      · show (if j < k then d j else if j = k then v else Sparse.get d ((k', v') :: m) j) = _
        rw [if_neg h]
        split
        · rw [Sparse.get_below (Sparse.wfFrom_mono (lo' := k') (by omega) (lo := k')
            (by simp only [Sparse.wfFrom, Bool.and_eq_true, decide_eq_true_eq]; exact ⟨⟨by omega, w'.1.2⟩, w'.2⟩)) (by omega)]
        · rfl
    · split
      · next he =>
        subst he
        split
        · rw [Sparse.dropWhile_wf w'.2 (Nat.lt_succ_self k)]
          show _ = if j < k then d j else if j = k then v' else Sparse.get d m j
          rw [if_neg h]
          split
          · rw [Sparse.get_below w'.2 (by omega)]
          · rfl
        · simp only [Sparse.get, if_neg h]
      · simp only [Sparse.get]
        rw [ih w'.2]

/-- A run of stores keeps the canonical form. -/
theorem Sparse.wf_putRun {m : Sparse α} (k : Nat) (vs : List α) (w : Sparse.wf d m = true) :
    Sparse.wf d (Sparse.putRun d m k vs) = true := by
  induction vs generalizing m k with
  | nil => exact w
  | cons v vs ih => exact ih (k + 1) (Sparse.wf_put k v w)

/-- A fold of stores keeps the canonical form. -/
theorem Sparse.wf_foldl {β : Type} {f : Sparse α → β → Sparse α}
    (hf : ∀ m x, Sparse.wf d m = true → Sparse.wf d (f m x) = true) {m : Sparse α} (xs : List β)
    (w : Sparse.wf d m = true) : Sparse.wf d (xs.foldl f m) = true := by
  induction xs generalizing m with
  | nil => exact w
  | cons x xs ih => exact ih (hf m x w)

end Sys2Proof.Machine
end

