-- ==== Sys2Proof/Laws/State.lean ====
section
/-! SUPPORT. One lemma per field and update of the state: what an update leaves as it was, and what a read after a write
gives. -/

namespace Sys2Proof.Machine

@[simp] theorem State.setReg_pending (s : State) (p e v : Nat) : (s.setReg p e v).pending = s.pending := rfl
@[simp] theorem State.setReg_clock (s : State) (p e v : Nat) : (s.setReg p e v).clock = s.clock := rfl
@[simp] theorem State.setReg_log (s : State) (p e v : Nat) : (s.setReg p e v).log = s.log := rfl
@[simp] theorem State.setReg_held (s : State) (p e v : Nat) : (s.setReg p e v).held = s.held := rfl
@[simp] theorem State.setReg_seq (s : State) (p e v : Nat) : (s.setReg p e v).seq = s.seq := rfl
@[simp] theorem State.setReg_mem (s : State) (p e v : Nat) : (s.setReg p e v).mem = s.mem := rfl
@[simp] theorem State.setReg_weir (s : State) (p e v : Nat) : (s.setReg p e v).weir = s.weir := rfl
@[simp] theorem State.setReg_flash (s : State) (p e v : Nat) : (s.setReg p e v).flash = s.flash := rfl
@[simp] theorem State.setReg_net (s : State) (p e v : Nat) : (s.setReg p e v).net = s.net := rfl
@[simp] theorem State.setReg_riffle (s : State) (p e v : Nat) : (s.setReg p e v).riffle = s.riffle := rfl
@[simp] theorem State.setReg_upd (s : State) (p e v : Nat) : (s.setReg p e v).upd = s.upd := rfl
@[simp] theorem State.setReg_journal (s : State) (p e v : Nat) : (s.setReg p e v).journal = s.journal := rfl
@[simp] theorem State.setReg_panel (s : State) (p e v : Nat) : (s.setReg p e v).panel = s.panel := rfl
@[simp] theorem State.setReg_supply (s : State) (p e v : Nat) : (s.setReg p e v).supply = s.supply := rfl
@[simp] theorem State.setReg_fw (s : State) (p e v : Nat) : (s.setReg p e v).fw = s.fw := rfl
@[simp] theorem State.setReg_nor (s : State) (p e v : Nat) : (s.setReg p e v).nor = s.nor := rfl
@[simp] theorem State.setReg_host (s : State) (p e v : Nat) : (s.setReg p e v).host = s.host := rfl
@[simp] theorem State.setReg_dir (s : State) (p e v : Nat) : (s.setReg p e v).dir = s.dir := rfl
@[simp] theorem State.setReg_out (s : State) (p e v : Nat) : (s.setReg p e v).out = s.out := rfl
@[simp] theorem State.setReg_draws (s : State) (p e v : Nat) : (s.setReg p e v).draws = s.draws := rfl

@[simp] theorem State.setVal_pending (s : State) (p v : Nat) : (s.setVal p v).pending = s.pending := rfl
@[simp] theorem State.setVal_clock (s : State) (p v : Nat) : (s.setVal p v).clock = s.clock := rfl
@[simp] theorem State.setVal_log (s : State) (p v : Nat) : (s.setVal p v).log = s.log := rfl
@[simp] theorem State.setVal_held (s : State) (p v : Nat) : (s.setVal p v).held = s.held := rfl
@[simp] theorem State.setVal_seq (s : State) (p v : Nat) : (s.setVal p v).seq = s.seq := rfl
@[simp] theorem State.setVal_mem (s : State) (p v : Nat) : (s.setVal p v).mem = s.mem := rfl
@[simp] theorem State.setVal_weir (s : State) (p v : Nat) : (s.setVal p v).weir = s.weir := rfl
@[simp] theorem State.setVal_flash (s : State) (p v : Nat) : (s.setVal p v).flash = s.flash := rfl
@[simp] theorem State.setVal_net (s : State) (p v : Nat) : (s.setVal p v).net = s.net := rfl
@[simp] theorem State.setVal_riffle (s : State) (p v : Nat) : (s.setVal p v).riffle = s.riffle := rfl
@[simp] theorem State.setVal_upd (s : State) (p v : Nat) : (s.setVal p v).upd = s.upd := rfl
@[simp] theorem State.setVal_journal (s : State) (p v : Nat) : (s.setVal p v).journal = s.journal := rfl
@[simp] theorem State.setVal_panel (s : State) (p v : Nat) : (s.setVal p v).panel = s.panel := rfl
@[simp] theorem State.setVal_supply (s : State) (p v : Nat) : (s.setVal p v).supply = s.supply := rfl
@[simp] theorem State.setVal_fw (s : State) (p v : Nat) : (s.setVal p v).fw = s.fw := rfl
@[simp] theorem State.setVal_nor (s : State) (p v : Nat) : (s.setVal p v).nor = s.nor := rfl
@[simp] theorem State.setVal_host (s : State) (p v : Nat) : (s.setVal p v).host = s.host := rfl
@[simp] theorem State.setVal_dir (s : State) (p v : Nat) : (s.setVal p v).dir = s.dir := rfl
@[simp] theorem State.setVal_out (s : State) (p v : Nat) : (s.setVal p v).out = s.out := rfl
@[simp] theorem State.setVal_draws (s : State) (p v : Nat) : (s.setVal p v).draws = s.draws := rfl

@[simp] theorem State.bump_pending (s : State) (p e n b : Nat) : (s.bump p e n b).pending = s.pending := rfl
@[simp] theorem State.bump_clock (s : State) (p e n b : Nat) : (s.bump p e n b).clock = s.clock := rfl
@[simp] theorem State.bump_log (s : State) (p e n b : Nat) : (s.bump p e n b).log = s.log := rfl
@[simp] theorem State.bump_held (s : State) (p e n b : Nat) : (s.bump p e n b).held = s.held := rfl
@[simp] theorem State.bump_seq (s : State) (p e n b : Nat) : (s.bump p e n b).seq = s.seq := rfl
@[simp] theorem State.bump_mem (s : State) (p e n b : Nat) : (s.bump p e n b).mem = s.mem := rfl
@[simp] theorem State.bump_weir (s : State) (p e n b : Nat) : (s.bump p e n b).weir = s.weir := rfl
@[simp] theorem State.bump_flash (s : State) (p e n b : Nat) : (s.bump p e n b).flash = s.flash := rfl
@[simp] theorem State.bump_net (s : State) (p e n b : Nat) : (s.bump p e n b).net = s.net := rfl
@[simp] theorem State.bump_riffle (s : State) (p e n b : Nat) : (s.bump p e n b).riffle = s.riffle := rfl
@[simp] theorem State.bump_upd (s : State) (p e n b : Nat) : (s.bump p e n b).upd = s.upd := rfl
@[simp] theorem State.bump_journal (s : State) (p e n b : Nat) : (s.bump p e n b).journal = s.journal := rfl
@[simp] theorem State.bump_panel (s : State) (p e n b : Nat) : (s.bump p e n b).panel = s.panel := rfl
@[simp] theorem State.bump_supply (s : State) (p e n b : Nat) : (s.bump p e n b).supply = s.supply := rfl
@[simp] theorem State.bump_fw (s : State) (p e n b : Nat) : (s.bump p e n b).fw = s.fw := rfl
@[simp] theorem State.bump_nor (s : State) (p e n b : Nat) : (s.bump p e n b).nor = s.nor := rfl
@[simp] theorem State.bump_host (s : State) (p e n b : Nat) : (s.bump p e n b).host = s.host := rfl
@[simp] theorem State.bump_dir (s : State) (p e n b : Nat) : (s.bump p e n b).dir = s.dir := rfl
@[simp] theorem State.bump_out (s : State) (p e n b : Nat) : (s.bump p e n b).out = s.out := rfl
@[simp] theorem State.bump_draws (s : State) (p e n b : Nat) : (s.bump p e n b).draws = s.draws := rfl

@[simp] theorem State.bump64_pending (s : State) (p e n : Nat) : (s.bump64 p e n).pending = s.pending := rfl
@[simp] theorem State.bump64_clock (s : State) (p e n : Nat) : (s.bump64 p e n).clock = s.clock := rfl
@[simp] theorem State.bump64_log (s : State) (p e n : Nat) : (s.bump64 p e n).log = s.log := rfl
@[simp] theorem State.bump64_held (s : State) (p e n : Nat) : (s.bump64 p e n).held = s.held := rfl
@[simp] theorem State.bump64_seq (s : State) (p e n : Nat) : (s.bump64 p e n).seq = s.seq := rfl
@[simp] theorem State.bump64_mem (s : State) (p e n : Nat) : (s.bump64 p e n).mem = s.mem := rfl
@[simp] theorem State.bump64_weir (s : State) (p e n : Nat) : (s.bump64 p e n).weir = s.weir := rfl
@[simp] theorem State.bump64_flash (s : State) (p e n : Nat) : (s.bump64 p e n).flash = s.flash := rfl
@[simp] theorem State.bump64_net (s : State) (p e n : Nat) : (s.bump64 p e n).net = s.net := rfl
@[simp] theorem State.bump64_riffle (s : State) (p e n : Nat) : (s.bump64 p e n).riffle = s.riffle := rfl
@[simp] theorem State.bump64_upd (s : State) (p e n : Nat) : (s.bump64 p e n).upd = s.upd := rfl
@[simp] theorem State.bump64_journal (s : State) (p e n : Nat) : (s.bump64 p e n).journal = s.journal := rfl
@[simp] theorem State.bump64_panel (s : State) (p e n : Nat) : (s.bump64 p e n).panel = s.panel := rfl
@[simp] theorem State.bump64_supply (s : State) (p e n : Nat) : (s.bump64 p e n).supply = s.supply := rfl
@[simp] theorem State.bump64_fw (s : State) (p e n : Nat) : (s.bump64 p e n).fw = s.fw := rfl
@[simp] theorem State.bump64_nor (s : State) (p e n : Nat) : (s.bump64 p e n).nor = s.nor := rfl
@[simp] theorem State.bump64_host (s : State) (p e n : Nat) : (s.bump64 p e n).host = s.host := rfl
@[simp] theorem State.bump64_dir (s : State) (p e n : Nat) : (s.bump64 p e n).dir = s.dir := rfl
@[simp] theorem State.bump64_out (s : State) (p e n : Nat) : (s.bump64 p e n).out = s.out := rfl
@[simp] theorem State.bump64_draws (s : State) (p e n : Nat) : (s.bump64 p e n).draws = s.draws := rfl

@[simp] theorem State.bump32_pending (s : State) (p e n : Nat) : (s.bump32 p e n).pending = s.pending := rfl
@[simp] theorem State.bump32_clock (s : State) (p e n : Nat) : (s.bump32 p e n).clock = s.clock := rfl
@[simp] theorem State.bump32_log (s : State) (p e n : Nat) : (s.bump32 p e n).log = s.log := rfl
@[simp] theorem State.bump32_held (s : State) (p e n : Nat) : (s.bump32 p e n).held = s.held := rfl
@[simp] theorem State.bump32_seq (s : State) (p e n : Nat) : (s.bump32 p e n).seq = s.seq := rfl
@[simp] theorem State.bump32_mem (s : State) (p e n : Nat) : (s.bump32 p e n).mem = s.mem := rfl
@[simp] theorem State.bump32_weir (s : State) (p e n : Nat) : (s.bump32 p e n).weir = s.weir := rfl
@[simp] theorem State.bump32_flash (s : State) (p e n : Nat) : (s.bump32 p e n).flash = s.flash := rfl
@[simp] theorem State.bump32_net (s : State) (p e n : Nat) : (s.bump32 p e n).net = s.net := rfl
@[simp] theorem State.bump32_riffle (s : State) (p e n : Nat) : (s.bump32 p e n).riffle = s.riffle := rfl
@[simp] theorem State.bump32_upd (s : State) (p e n : Nat) : (s.bump32 p e n).upd = s.upd := rfl
@[simp] theorem State.bump32_journal (s : State) (p e n : Nat) : (s.bump32 p e n).journal = s.journal := rfl
@[simp] theorem State.bump32_panel (s : State) (p e n : Nat) : (s.bump32 p e n).panel = s.panel := rfl
@[simp] theorem State.bump32_supply (s : State) (p e n : Nat) : (s.bump32 p e n).supply = s.supply := rfl
@[simp] theorem State.bump32_fw (s : State) (p e n : Nat) : (s.bump32 p e n).fw = s.fw := rfl
@[simp] theorem State.bump32_nor (s : State) (p e n : Nat) : (s.bump32 p e n).nor = s.nor := rfl
@[simp] theorem State.bump32_host (s : State) (p e n : Nat) : (s.bump32 p e n).host = s.host := rfl
@[simp] theorem State.bump32_dir (s : State) (p e n : Nat) : (s.bump32 p e n).dir = s.dir := rfl
@[simp] theorem State.bump32_out (s : State) (p e n : Nat) : (s.bump32 p e n).out = s.out := rfl
@[simp] theorem State.bump32_draws (s : State) (p e n : Nat) : (s.bump32 p e n).draws = s.draws := rfl

@[simp] theorem State.putBytes_pending (s : State) (p off : Nat) (bs : List Byte) : (s.putBytes p off bs).pending = s.pending := rfl
@[simp] theorem State.putBytes_clock (s : State) (p off : Nat) (bs : List Byte) : (s.putBytes p off bs).clock = s.clock := rfl
@[simp] theorem State.putBytes_log (s : State) (p off : Nat) (bs : List Byte) : (s.putBytes p off bs).log = s.log := rfl
@[simp] theorem State.putBytes_held (s : State) (p off : Nat) (bs : List Byte) : (s.putBytes p off bs).held = s.held := rfl
@[simp] theorem State.putBytes_seq (s : State) (p off : Nat) (bs : List Byte) : (s.putBytes p off bs).seq = s.seq := rfl
@[simp] theorem State.putBytes_mem (s : State) (p off : Nat) (bs : List Byte) : (s.putBytes p off bs).mem = s.mem := rfl
@[simp] theorem State.putBytes_weir (s : State) (p off : Nat) (bs : List Byte) : (s.putBytes p off bs).weir = s.weir := rfl
@[simp] theorem State.putBytes_flash (s : State) (p off : Nat) (bs : List Byte) : (s.putBytes p off bs).flash = s.flash := rfl
@[simp] theorem State.putBytes_net (s : State) (p off : Nat) (bs : List Byte) : (s.putBytes p off bs).net = s.net := rfl
@[simp] theorem State.putBytes_riffle (s : State) (p off : Nat) (bs : List Byte) : (s.putBytes p off bs).riffle = s.riffle := rfl
@[simp] theorem State.putBytes_upd (s : State) (p off : Nat) (bs : List Byte) : (s.putBytes p off bs).upd = s.upd := rfl
@[simp] theorem State.putBytes_journal (s : State) (p off : Nat) (bs : List Byte) : (s.putBytes p off bs).journal = s.journal := rfl
@[simp] theorem State.putBytes_panel (s : State) (p off : Nat) (bs : List Byte) : (s.putBytes p off bs).panel = s.panel := rfl
@[simp] theorem State.putBytes_supply (s : State) (p off : Nat) (bs : List Byte) : (s.putBytes p off bs).supply = s.supply := rfl
@[simp] theorem State.putBytes_fw (s : State) (p off : Nat) (bs : List Byte) : (s.putBytes p off bs).fw = s.fw := rfl
@[simp] theorem State.putBytes_nor (s : State) (p off : Nat) (bs : List Byte) : (s.putBytes p off bs).nor = s.nor := rfl
@[simp] theorem State.putBytes_host (s : State) (p off : Nat) (bs : List Byte) : (s.putBytes p off bs).host = s.host := rfl
@[simp] theorem State.putBytes_dir (s : State) (p off : Nat) (bs : List Byte) : (s.putBytes p off bs).dir = s.dir := rfl
@[simp] theorem State.putBytes_out (s : State) (p off : Nat) (bs : List Byte) : (s.putBytes p off bs).out = s.out := rfl
@[simp] theorem State.putBytes_draws (s : State) (p off : Nat) (bs : List Byte) : (s.putBytes p off bs).draws = s.draws := rfl

@[simp] theorem State.reach_pending (s : State) (k : Nat) : (s.reach k).pending = s.pending := rfl
@[simp] theorem State.reach_params (s : State) (k : Nat) : (s.reach k).params = s.params := rfl
@[simp] theorem State.reach_log (s : State) (k : Nat) : (s.reach k).log = s.log := rfl
@[simp] theorem State.reach_held (s : State) (k : Nat) : (s.reach k).held = s.held := rfl
@[simp] theorem State.reach_seq (s : State) (k : Nat) : (s.reach k).seq = s.seq := rfl
@[simp] theorem State.reach_mem (s : State) (k : Nat) : (s.reach k).mem = s.mem := rfl
@[simp] theorem State.reach_weir (s : State) (k : Nat) : (s.reach k).weir = s.weir := rfl
@[simp] theorem State.reach_flash (s : State) (k : Nat) : (s.reach k).flash = s.flash := rfl
@[simp] theorem State.reach_net (s : State) (k : Nat) : (s.reach k).net = s.net := rfl
@[simp] theorem State.reach_riffle (s : State) (k : Nat) : (s.reach k).riffle = s.riffle := rfl
@[simp] theorem State.reach_upd (s : State) (k : Nat) : (s.reach k).upd = s.upd := rfl
@[simp] theorem State.reach_journal (s : State) (k : Nat) : (s.reach k).journal = s.journal := rfl
@[simp] theorem State.reach_panel (s : State) (k : Nat) : (s.reach k).panel = s.panel := rfl
@[simp] theorem State.reach_supply (s : State) (k : Nat) : (s.reach k).supply = s.supply := rfl
@[simp] theorem State.reach_fw (s : State) (k : Nat) : (s.reach k).fw = s.fw := rfl
@[simp] theorem State.reach_nor (s : State) (k : Nat) : (s.reach k).nor = s.nor := rfl
@[simp] theorem State.reach_host (s : State) (k : Nat) : (s.reach k).host = s.host := rfl
@[simp] theorem State.reach_dir (s : State) (k : Nat) : (s.reach k).dir = s.dir := rfl
@[simp] theorem State.reach_out (s : State) (k : Nat) : (s.reach k).out = s.out := rfl
@[simp] theorem State.reach_draws (s : State) (k : Nat) : (s.reach k).draws = s.draws := rfl

@[simp] theorem State.emit_pending (s : State) (e : Emission) : (s.emit e).pending = s.pending := rfl
@[simp] theorem State.emit_params (s : State) (e : Emission) : (s.emit e).params = s.params := rfl
@[simp] theorem State.emit_clock (s : State) (e : Emission) : (s.emit e).clock = s.clock := rfl
@[simp] theorem State.emit_log (s : State) (e : Emission) : (s.emit e).log = s.log := rfl
@[simp] theorem State.emit_held (s : State) (e : Emission) : (s.emit e).held = s.held := rfl
@[simp] theorem State.emit_seq (s : State) (e : Emission) : (s.emit e).seq = s.seq := rfl
@[simp] theorem State.emit_mem (s : State) (e : Emission) : (s.emit e).mem = s.mem := rfl
@[simp] theorem State.emit_weir (s : State) (e : Emission) : (s.emit e).weir = s.weir := rfl
@[simp] theorem State.emit_flash (s : State) (e : Emission) : (s.emit e).flash = s.flash := rfl
@[simp] theorem State.emit_net (s : State) (e : Emission) : (s.emit e).net = s.net := rfl
@[simp] theorem State.emit_riffle (s : State) (e : Emission) : (s.emit e).riffle = s.riffle := rfl
@[simp] theorem State.emit_upd (s : State) (e : Emission) : (s.emit e).upd = s.upd := rfl
@[simp] theorem State.emit_journal (s : State) (e : Emission) : (s.emit e).journal = s.journal := rfl
@[simp] theorem State.emit_panel (s : State) (e : Emission) : (s.emit e).panel = s.panel := rfl
@[simp] theorem State.emit_supply (s : State) (e : Emission) : (s.emit e).supply = s.supply := rfl
@[simp] theorem State.emit_fw (s : State) (e : Emission) : (s.emit e).fw = s.fw := rfl
@[simp] theorem State.emit_nor (s : State) (e : Emission) : (s.emit e).nor = s.nor := rfl
@[simp] theorem State.emit_host (s : State) (e : Emission) : (s.emit e).host = s.host := rfl
@[simp] theorem State.emit_dir (s : State) (e : Emission) : (s.emit e).dir = s.dir := rfl
@[simp] theorem State.emit_draws (s : State) (e : Emission) : (s.emit e).draws = s.draws := rfl

@[simp] theorem State.setDie_pending (s : State) (sl : Nat) (d : Die) : (s.setDie sl d).pending = s.pending := rfl
@[simp] theorem State.setDie_params (s : State) (sl : Nat) (d : Die) : (s.setDie sl d).params = s.params := rfl
@[simp] theorem State.setDie_clock (s : State) (sl : Nat) (d : Die) : (s.setDie sl d).clock = s.clock := rfl
@[simp] theorem State.setDie_log (s : State) (sl : Nat) (d : Die) : (s.setDie sl d).log = s.log := rfl
@[simp] theorem State.setDie_held (s : State) (sl : Nat) (d : Die) : (s.setDie sl d).held = s.held := rfl
@[simp] theorem State.setDie_mem (s : State) (sl : Nat) (d : Die) : (s.setDie sl d).mem = s.mem := rfl
@[simp] theorem State.setDie_weir (s : State) (sl : Nat) (d : Die) : (s.setDie sl d).weir = s.weir := rfl
@[simp] theorem State.setDie_flash (s : State) (sl : Nat) (d : Die) : (s.setDie sl d).flash = s.flash := rfl
@[simp] theorem State.setDie_net (s : State) (sl : Nat) (d : Die) : (s.setDie sl d).net = s.net := rfl
@[simp] theorem State.setDie_riffle (s : State) (sl : Nat) (d : Die) : (s.setDie sl d).riffle = s.riffle := rfl
@[simp] theorem State.setDie_upd (s : State) (sl : Nat) (d : Die) : (s.setDie sl d).upd = s.upd := rfl
@[simp] theorem State.setDie_journal (s : State) (sl : Nat) (d : Die) : (s.setDie sl d).journal = s.journal := rfl
@[simp] theorem State.setDie_panel (s : State) (sl : Nat) (d : Die) : (s.setDie sl d).panel = s.panel := rfl
@[simp] theorem State.setDie_supply (s : State) (sl : Nat) (d : Die) : (s.setDie sl d).supply = s.supply := rfl
@[simp] theorem State.setDie_fw (s : State) (sl : Nat) (d : Die) : (s.setDie sl d).fw = s.fw := rfl
@[simp] theorem State.setDie_nor (s : State) (sl : Nat) (d : Die) : (s.setDie sl d).nor = s.nor := rfl
@[simp] theorem State.setDie_host (s : State) (sl : Nat) (d : Die) : (s.setDie sl d).host = s.host := rfl
@[simp] theorem State.setDie_dir (s : State) (sl : Nat) (d : Die) : (s.setDie sl d).dir = s.dir := rfl
@[simp] theorem State.setDie_out (s : State) (sl : Nat) (d : Die) : (s.setDie sl d).out = s.out := rfl
@[simp] theorem State.setDie_draws (s : State) (sl : Nat) (d : Die) : (s.setDie sl d).draws = s.draws := rfl

@[simp] theorem State.setArray_pending (s : State) (sl a : Nat) (x : ArrayState) : (s.setArray sl a x).pending = s.pending := rfl
@[simp] theorem State.setArray_params (s : State) (sl a : Nat) (x : ArrayState) : (s.setArray sl a x).params = s.params := rfl
@[simp] theorem State.setArray_clock (s : State) (sl a : Nat) (x : ArrayState) : (s.setArray sl a x).clock = s.clock := rfl
@[simp] theorem State.setArray_log (s : State) (sl a : Nat) (x : ArrayState) : (s.setArray sl a x).log = s.log := rfl
@[simp] theorem State.setArray_held (s : State) (sl a : Nat) (x : ArrayState) : (s.setArray sl a x).held = s.held := rfl
@[simp] theorem State.setArray_mem (s : State) (sl a : Nat) (x : ArrayState) : (s.setArray sl a x).mem = s.mem := rfl
@[simp] theorem State.setArray_weir (s : State) (sl a : Nat) (x : ArrayState) : (s.setArray sl a x).weir = s.weir := rfl
@[simp] theorem State.setArray_flash (s : State) (sl a : Nat) (x : ArrayState) : (s.setArray sl a x).flash = s.flash := rfl
@[simp] theorem State.setArray_net (s : State) (sl a : Nat) (x : ArrayState) : (s.setArray sl a x).net = s.net := rfl
@[simp] theorem State.setArray_riffle (s : State) (sl a : Nat) (x : ArrayState) : (s.setArray sl a x).riffle = s.riffle := rfl
@[simp] theorem State.setArray_upd (s : State) (sl a : Nat) (x : ArrayState) : (s.setArray sl a x).upd = s.upd := rfl
@[simp] theorem State.setArray_journal (s : State) (sl a : Nat) (x : ArrayState) : (s.setArray sl a x).journal = s.journal := rfl
@[simp] theorem State.setArray_panel (s : State) (sl a : Nat) (x : ArrayState) : (s.setArray sl a x).panel = s.panel := rfl
@[simp] theorem State.setArray_supply (s : State) (sl a : Nat) (x : ArrayState) : (s.setArray sl a x).supply = s.supply := rfl
@[simp] theorem State.setArray_fw (s : State) (sl a : Nat) (x : ArrayState) : (s.setArray sl a x).fw = s.fw := rfl
@[simp] theorem State.setArray_nor (s : State) (sl a : Nat) (x : ArrayState) : (s.setArray sl a x).nor = s.nor := rfl
@[simp] theorem State.setArray_host (s : State) (sl a : Nat) (x : ArrayState) : (s.setArray sl a x).host = s.host := rfl
@[simp] theorem State.setArray_dir (s : State) (sl a : Nat) (x : ArrayState) : (s.setArray sl a x).dir = s.dir := rfl
@[simp] theorem State.setArray_out (s : State) (sl a : Nat) (x : ArrayState) : (s.setArray sl a x).out = s.out := rfl
@[simp] theorem State.setArray_draws (s : State) (sl a : Nat) (x : ArrayState) : (s.setArray sl a x).draws = s.draws := rfl

@[simp] theorem State.setPage_pending (s : State) (p e : Nat) : (s.setPage p e).pending = s.pending := rfl
@[simp] theorem State.setPage_params (s : State) (p e : Nat) : (s.setPage p e).params = s.params := rfl
@[simp] theorem State.setPage_clock (s : State) (p e : Nat) : (s.setPage p e).clock = s.clock := rfl
@[simp] theorem State.setPage_log (s : State) (p e : Nat) : (s.setPage p e).log = s.log := rfl
@[simp] theorem State.setPage_held (s : State) (p e : Nat) : (s.setPage p e).held = s.held := rfl
@[simp] theorem State.setPage_seq (s : State) (p e : Nat) : (s.setPage p e).seq = s.seq := rfl
@[simp] theorem State.setPage_weir (s : State) (p e : Nat) : (s.setPage p e).weir = s.weir := rfl
@[simp] theorem State.setPage_flash (s : State) (p e : Nat) : (s.setPage p e).flash = s.flash := rfl
@[simp] theorem State.setPage_net (s : State) (p e : Nat) : (s.setPage p e).net = s.net := rfl
@[simp] theorem State.setPage_riffle (s : State) (p e : Nat) : (s.setPage p e).riffle = s.riffle := rfl
@[simp] theorem State.setPage_upd (s : State) (p e : Nat) : (s.setPage p e).upd = s.upd := rfl
@[simp] theorem State.setPage_journal (s : State) (p e : Nat) : (s.setPage p e).journal = s.journal := rfl
@[simp] theorem State.setPage_panel (s : State) (p e : Nat) : (s.setPage p e).panel = s.panel := rfl
@[simp] theorem State.setPage_supply (s : State) (p e : Nat) : (s.setPage p e).supply = s.supply := rfl
@[simp] theorem State.setPage_fw (s : State) (p e : Nat) : (s.setPage p e).fw = s.fw := rfl
@[simp] theorem State.setPage_nor (s : State) (p e : Nat) : (s.setPage p e).nor = s.nor := rfl
@[simp] theorem State.setPage_host (s : State) (p e : Nat) : (s.setPage p e).host = s.host := rfl
@[simp] theorem State.setPage_dir (s : State) (p e : Nat) : (s.setPage p e).dir = s.dir := rfl
@[simp] theorem State.setPage_out (s : State) (p e : Nat) : (s.setPage p e).out = s.out := rfl
@[simp] theorem State.setPage_draws (s : State) (p e : Nat) : (s.setPage p e).draws = s.draws := rfl

@[simp] theorem State.putTile_pending (s : State) (id : Nat) (x : Tile) : (s.putTile id x).pending = s.pending := rfl
@[simp] theorem State.putTile_params (s : State) (id : Nat) (x : Tile) : (s.putTile id x).params = s.params := rfl
@[simp] theorem State.putTile_clock (s : State) (id : Nat) (x : Tile) : (s.putTile id x).clock = s.clock := rfl
@[simp] theorem State.putTile_log (s : State) (id : Nat) (x : Tile) : (s.putTile id x).log = s.log := rfl
@[simp] theorem State.putTile_held (s : State) (id : Nat) (x : Tile) : (s.putTile id x).held = s.held := rfl
@[simp] theorem State.putTile_seq (s : State) (id : Nat) (x : Tile) : (s.putTile id x).seq = s.seq := rfl
@[simp] theorem State.putTile_weir (s : State) (id : Nat) (x : Tile) : (s.putTile id x).weir = s.weir := rfl
@[simp] theorem State.putTile_flash (s : State) (id : Nat) (x : Tile) : (s.putTile id x).flash = s.flash := rfl
@[simp] theorem State.putTile_net (s : State) (id : Nat) (x : Tile) : (s.putTile id x).net = s.net := rfl
@[simp] theorem State.putTile_riffle (s : State) (id : Nat) (x : Tile) : (s.putTile id x).riffle = s.riffle := rfl
@[simp] theorem State.putTile_upd (s : State) (id : Nat) (x : Tile) : (s.putTile id x).upd = s.upd := rfl
@[simp] theorem State.putTile_journal (s : State) (id : Nat) (x : Tile) : (s.putTile id x).journal = s.journal := rfl
@[simp] theorem State.putTile_panel (s : State) (id : Nat) (x : Tile) : (s.putTile id x).panel = s.panel := rfl
@[simp] theorem State.putTile_supply (s : State) (id : Nat) (x : Tile) : (s.putTile id x).supply = s.supply := rfl
@[simp] theorem State.putTile_fw (s : State) (id : Nat) (x : Tile) : (s.putTile id x).fw = s.fw := rfl
@[simp] theorem State.putTile_nor (s : State) (id : Nat) (x : Tile) : (s.putTile id x).nor = s.nor := rfl
@[simp] theorem State.putTile_host (s : State) (id : Nat) (x : Tile) : (s.putTile id x).host = s.host := rfl
@[simp] theorem State.putTile_dir (s : State) (id : Nat) (x : Tile) : (s.putTile id x).dir = s.dir := rfl
@[simp] theorem State.putTile_out (s : State) (id : Nat) (x : Tile) : (s.putTile id x).out = s.out := rfl
@[simp] theorem State.putTile_draws (s : State) (id : Nat) (x : Tile) : (s.putTile id x).draws = s.draws := rfl

@[simp] theorem State.startLoads_pending (s : State) (ps : List Nat) : (s.startLoads ps).pending = s.pending := rfl
@[simp] theorem State.startLoads_params (s : State) (ps : List Nat) : (s.startLoads ps).params = s.params := rfl
@[simp] theorem State.startLoads_clock (s : State) (ps : List Nat) : (s.startLoads ps).clock = s.clock := rfl
@[simp] theorem State.startLoads_log (s : State) (ps : List Nat) : (s.startLoads ps).log = s.log := rfl
@[simp] theorem State.startLoads_held (s : State) (ps : List Nat) : (s.startLoads ps).held = s.held := rfl
@[simp] theorem State.startLoads_seq (s : State) (ps : List Nat) : (s.startLoads ps).seq = s.seq := rfl
@[simp] theorem State.startLoads_weir (s : State) (ps : List Nat) : (s.startLoads ps).weir = s.weir := rfl
@[simp] theorem State.startLoads_flash (s : State) (ps : List Nat) : (s.startLoads ps).flash = s.flash := rfl
@[simp] theorem State.startLoads_net (s : State) (ps : List Nat) : (s.startLoads ps).net = s.net := rfl
@[simp] theorem State.startLoads_riffle (s : State) (ps : List Nat) : (s.startLoads ps).riffle = s.riffle := rfl
@[simp] theorem State.startLoads_upd (s : State) (ps : List Nat) : (s.startLoads ps).upd = s.upd := rfl
@[simp] theorem State.startLoads_journal (s : State) (ps : List Nat) : (s.startLoads ps).journal = s.journal := rfl
@[simp] theorem State.startLoads_panel (s : State) (ps : List Nat) : (s.startLoads ps).panel = s.panel := rfl
@[simp] theorem State.startLoads_supply (s : State) (ps : List Nat) : (s.startLoads ps).supply = s.supply := rfl
@[simp] theorem State.startLoads_fw (s : State) (ps : List Nat) : (s.startLoads ps).fw = s.fw := rfl
@[simp] theorem State.startLoads_nor (s : State) (ps : List Nat) : (s.startLoads ps).nor = s.nor := rfl
@[simp] theorem State.startLoads_host (s : State) (ps : List Nat) : (s.startLoads ps).host = s.host := rfl
@[simp] theorem State.startLoads_dir (s : State) (ps : List Nat) : (s.startLoads ps).dir = s.dir := rfl
@[simp] theorem State.startLoads_out (s : State) (ps : List Nat) : (s.startLoads ps).out = s.out := rfl
@[simp] theorem State.startLoads_draws (s : State) (ps : List Nat) : (s.startLoads ps).draws = s.draws := rfl

@[simp] theorem State.refill_pending (s : State) (b : Nat) : (s.refill b).pending = s.pending := rfl
@[simp] theorem State.refill_params (s : State) (b : Nat) : (s.refill b).params = s.params := rfl
@[simp] theorem State.refill_clock (s : State) (b : Nat) : (s.refill b).clock = s.clock := rfl
@[simp] theorem State.refill_log (s : State) (b : Nat) : (s.refill b).log = s.log := rfl
@[simp] theorem State.refill_held (s : State) (b : Nat) : (s.refill b).held = s.held := rfl
@[simp] theorem State.refill_seq (s : State) (b : Nat) : (s.refill b).seq = s.seq := rfl
@[simp] theorem State.refill_mem (s : State) (b : Nat) : (s.refill b).mem = s.mem := rfl
@[simp] theorem State.refill_flash (s : State) (b : Nat) : (s.refill b).flash = s.flash := rfl
@[simp] theorem State.refill_net (s : State) (b : Nat) : (s.refill b).net = s.net := rfl
@[simp] theorem State.refill_riffle (s : State) (b : Nat) : (s.refill b).riffle = s.riffle := rfl
@[simp] theorem State.refill_upd (s : State) (b : Nat) : (s.refill b).upd = s.upd := rfl
@[simp] theorem State.refill_journal (s : State) (b : Nat) : (s.refill b).journal = s.journal := rfl
@[simp] theorem State.refill_panel (s : State) (b : Nat) : (s.refill b).panel = s.panel := rfl
@[simp] theorem State.refill_supply (s : State) (b : Nat) : (s.refill b).supply = s.supply := rfl
@[simp] theorem State.refill_fw (s : State) (b : Nat) : (s.refill b).fw = s.fw := rfl
@[simp] theorem State.refill_nor (s : State) (b : Nat) : (s.refill b).nor = s.nor := rfl
@[simp] theorem State.refill_host (s : State) (b : Nat) : (s.refill b).host = s.host := rfl
@[simp] theorem State.refill_dir (s : State) (b : Nat) : (s.refill b).dir = s.dir := rfl
@[simp] theorem State.refill_out (s : State) (b : Nat) : (s.refill b).out = s.out := rfl
@[simp] theorem State.refill_draws (s : State) (b : Nat) : (s.refill b).draws = s.draws := rfl

@[simp] theorem State.debit_pending (s : State) (sl c : Nat) : (s.debit sl c).pending = s.pending := rfl
@[simp] theorem State.debit_params (s : State) (sl c : Nat) : (s.debit sl c).params = s.params := rfl
@[simp] theorem State.debit_clock (s : State) (sl c : Nat) : (s.debit sl c).clock = s.clock := rfl
@[simp] theorem State.debit_log (s : State) (sl c : Nat) : (s.debit sl c).log = s.log := rfl
@[simp] theorem State.debit_held (s : State) (sl c : Nat) : (s.debit sl c).held = s.held := rfl
@[simp] theorem State.debit_seq (s : State) (sl c : Nat) : (s.debit sl c).seq = s.seq := rfl
@[simp] theorem State.debit_mem (s : State) (sl c : Nat) : (s.debit sl c).mem = s.mem := rfl
@[simp] theorem State.debit_flash (s : State) (sl c : Nat) : (s.debit sl c).flash = s.flash := rfl
@[simp] theorem State.debit_net (s : State) (sl c : Nat) : (s.debit sl c).net = s.net := rfl
@[simp] theorem State.debit_riffle (s : State) (sl c : Nat) : (s.debit sl c).riffle = s.riffle := rfl
@[simp] theorem State.debit_upd (s : State) (sl c : Nat) : (s.debit sl c).upd = s.upd := rfl
@[simp] theorem State.debit_journal (s : State) (sl c : Nat) : (s.debit sl c).journal = s.journal := rfl
@[simp] theorem State.debit_panel (s : State) (sl c : Nat) : (s.debit sl c).panel = s.panel := rfl
@[simp] theorem State.debit_supply (s : State) (sl c : Nat) : (s.debit sl c).supply = s.supply := rfl
@[simp] theorem State.debit_fw (s : State) (sl c : Nat) : (s.debit sl c).fw = s.fw := rfl
@[simp] theorem State.debit_nor (s : State) (sl c : Nat) : (s.debit sl c).nor = s.nor := rfl
@[simp] theorem State.debit_host (s : State) (sl c : Nat) : (s.debit sl c).host = s.host := rfl
@[simp] theorem State.debit_dir (s : State) (sl c : Nat) : (s.debit sl c).dir = s.dir := rfl
@[simp] theorem State.debit_out (s : State) (sl c : Nat) : (s.debit sl c).out = s.out := rfl
@[simp] theorem State.debit_draws (s : State) (sl c : Nat) : (s.debit sl c).draws = s.draws := rfl

@[simp] theorem State.storeEvent_pending (s : State) (e : Event) : (s.storeEvent e).pending = s.pending := by
  unfold State.storeEvent
  dsimp only
  split_ifs <;> rfl
@[simp] theorem State.storeEvent_clock (s : State) (e : Event) : (s.storeEvent e).clock = s.clock := by
  unfold State.storeEvent
  dsimp only
  split_ifs <;> rfl
@[simp] theorem State.storeEvent_held (s : State) (e : Event) : (s.storeEvent e).held = s.held := by
  unfold State.storeEvent
  dsimp only
  split_ifs <;> rfl
@[simp] theorem State.storeEvent_seq (s : State) (e : Event) : (s.storeEvent e).seq = s.seq := by
  unfold State.storeEvent
  dsimp only
  split_ifs <;> rfl
@[simp] theorem State.storeEvent_mem (s : State) (e : Event) : (s.storeEvent e).mem = s.mem := by
  unfold State.storeEvent
  dsimp only
  split_ifs <;> rfl
@[simp] theorem State.storeEvent_weir (s : State) (e : Event) : (s.storeEvent e).weir = s.weir := by
  unfold State.storeEvent
  dsimp only
  split_ifs <;> rfl
@[simp] theorem State.storeEvent_flash (s : State) (e : Event) : (s.storeEvent e).flash = s.flash := by
  unfold State.storeEvent
  dsimp only
  split_ifs <;> rfl
@[simp] theorem State.storeEvent_net (s : State) (e : Event) : (s.storeEvent e).net = s.net := by
  unfold State.storeEvent
  dsimp only
  split_ifs <;> rfl
@[simp] theorem State.storeEvent_riffle (s : State) (e : Event) : (s.storeEvent e).riffle = s.riffle := by
  unfold State.storeEvent
  dsimp only
  split_ifs <;> rfl
@[simp] theorem State.storeEvent_upd (s : State) (e : Event) : (s.storeEvent e).upd = s.upd := by
  unfold State.storeEvent
  dsimp only
  split_ifs <;> rfl
@[simp] theorem State.storeEvent_journal (s : State) (e : Event) : (s.storeEvent e).journal = s.journal := by
  unfold State.storeEvent
  dsimp only
  split_ifs <;> rfl
@[simp] theorem State.storeEvent_panel (s : State) (e : Event) : (s.storeEvent e).panel = s.panel := by
  unfold State.storeEvent
  dsimp only
  split_ifs <;> rfl
@[simp] theorem State.storeEvent_supply (s : State) (e : Event) : (s.storeEvent e).supply = s.supply := by
  unfold State.storeEvent
  dsimp only
  split_ifs <;> rfl
@[simp] theorem State.storeEvent_fw (s : State) (e : Event) : (s.storeEvent e).fw = s.fw := by
  unfold State.storeEvent
  dsimp only
  split_ifs <;> rfl
@[simp] theorem State.storeEvent_nor (s : State) (e : Event) : (s.storeEvent e).nor = s.nor := by
  unfold State.storeEvent
  dsimp only
  split_ifs <;> rfl
@[simp] theorem State.storeEvent_host (s : State) (e : Event) : (s.storeEvent e).host = s.host := by
  unfold State.storeEvent
  dsimp only
  split_ifs <;> rfl
@[simp] theorem State.storeEvent_dir (s : State) (e : Event) : (s.storeEvent e).dir = s.dir := by
  unfold State.storeEvent
  dsimp only
  split_ifs <;> rfl
@[simp] theorem State.storeEvent_out (s : State) (e : Event) : (s.storeEvent e).out = s.out := by
  unfold State.storeEvent
  dsimp only
  split_ifs <;> rfl
@[simp] theorem State.storeEvent_draws (s : State) (e : Event) : (s.storeEvent e).draws = s.draws := by
  unfold State.storeEvent
  dsimp only
  split_ifs <;> rfl

@[simp] theorem State.raiseEventOf_pending (s : State) (n a b c d e : Nat) : (s.raiseEventOf n a b c d e).pending = s.pending := by
  unfold State.raiseEventOf
  dsimp only
  split_ifs <;> simp
@[simp] theorem State.raiseEventOf_clock (s : State) (n a b c d e : Nat) : (s.raiseEventOf n a b c d e).clock = s.clock := by
  unfold State.raiseEventOf
  dsimp only
  split_ifs <;> simp
@[simp] theorem State.raiseEventOf_held (s : State) (n a b c d e : Nat) : (s.raiseEventOf n a b c d e).held = s.held := by
  unfold State.raiseEventOf
  dsimp only
  split_ifs <;> simp
@[simp] theorem State.raiseEventOf_seq (s : State) (n a b c d e : Nat) : (s.raiseEventOf n a b c d e).seq = s.seq := by
  unfold State.raiseEventOf
  dsimp only
  split_ifs <;> simp
@[simp] theorem State.raiseEventOf_mem (s : State) (n a b c d e : Nat) : (s.raiseEventOf n a b c d e).mem = s.mem := by
  unfold State.raiseEventOf
  dsimp only
  split_ifs <;> simp
@[simp] theorem State.raiseEventOf_weir (s : State) (n a b c d e : Nat) : (s.raiseEventOf n a b c d e).weir = s.weir := by
  unfold State.raiseEventOf
  dsimp only
  split_ifs <;> simp
@[simp] theorem State.raiseEventOf_flash (s : State) (n a b c d e : Nat) : (s.raiseEventOf n a b c d e).flash = s.flash := by
  unfold State.raiseEventOf
  dsimp only
  split_ifs <;> simp
@[simp] theorem State.raiseEventOf_net (s : State) (n a b c d e : Nat) : (s.raiseEventOf n a b c d e).net = s.net := by
  unfold State.raiseEventOf
  dsimp only
  split_ifs <;> simp
@[simp] theorem State.raiseEventOf_riffle (s : State) (n a b c d e : Nat) : (s.raiseEventOf n a b c d e).riffle = s.riffle := by
  unfold State.raiseEventOf
  dsimp only
  split_ifs <;> simp
@[simp] theorem State.raiseEventOf_upd (s : State) (n a b c d e : Nat) : (s.raiseEventOf n a b c d e).upd = s.upd := by
  unfold State.raiseEventOf
  dsimp only
  split_ifs <;> simp
@[simp] theorem State.raiseEventOf_journal (s : State) (n a b c d e : Nat) : (s.raiseEventOf n a b c d e).journal = s.journal := by
  unfold State.raiseEventOf
  dsimp only
  split_ifs <;> simp
@[simp] theorem State.raiseEventOf_panel (s : State) (n a b c d e : Nat) : (s.raiseEventOf n a b c d e).panel = s.panel := by
  unfold State.raiseEventOf
  dsimp only
  split_ifs <;> simp
@[simp] theorem State.raiseEventOf_supply (s : State) (n a b c d e : Nat) : (s.raiseEventOf n a b c d e).supply = s.supply := by
  unfold State.raiseEventOf
  dsimp only
  split_ifs <;> simp
@[simp] theorem State.raiseEventOf_fw (s : State) (n a b c d e : Nat) : (s.raiseEventOf n a b c d e).fw = s.fw := by
  unfold State.raiseEventOf
  dsimp only
  split_ifs <;> simp
@[simp] theorem State.raiseEventOf_nor (s : State) (n a b c d e : Nat) : (s.raiseEventOf n a b c d e).nor = s.nor := by
  unfold State.raiseEventOf
  dsimp only
  split_ifs <;> simp
@[simp] theorem State.raiseEventOf_host (s : State) (n a b c d e : Nat) : (s.raiseEventOf n a b c d e).host = s.host := by
  unfold State.raiseEventOf
  dsimp only
  split_ifs <;> simp
@[simp] theorem State.raiseEventOf_dir (s : State) (n a b c d e : Nat) : (s.raiseEventOf n a b c d e).dir = s.dir := by
  unfold State.raiseEventOf
  dsimp only
  split_ifs <;> simp
@[simp] theorem State.raiseEventOf_out (s : State) (n a b c d e : Nat) : (s.raiseEventOf n a b c d e).out = s.out := by
  unfold State.raiseEventOf
  dsimp only
  split_ifs <;> simp
@[simp] theorem State.raiseEventOf_draws (s : State) (n a b c d e : Nat) : (s.raiseEventOf n a b c d e).draws = s.draws := by
  unfold State.raiseEventOf
  dsimp only
  split_ifs <;> simp

@[simp] theorem State.raiseEvent_pending (s : State) (a b c d e : Nat) : (s.raiseEvent a b c d e).pending = s.pending :=
  State.raiseEventOf_pending ..
@[simp] theorem State.raiseEvent_clock (s : State) (a b c d e : Nat) : (s.raiseEvent a b c d e).clock = s.clock :=
  State.raiseEventOf_clock ..
@[simp] theorem State.raiseEvent_held (s : State) (a b c d e : Nat) : (s.raiseEvent a b c d e).held = s.held :=
  State.raiseEventOf_held ..
@[simp] theorem State.raiseEvent_seq (s : State) (a b c d e : Nat) : (s.raiseEvent a b c d e).seq = s.seq :=
  State.raiseEventOf_seq ..
@[simp] theorem State.raiseEvent_mem (s : State) (a b c d e : Nat) : (s.raiseEvent a b c d e).mem = s.mem :=
  State.raiseEventOf_mem ..
@[simp] theorem State.raiseEvent_weir (s : State) (a b c d e : Nat) : (s.raiseEvent a b c d e).weir = s.weir :=
  State.raiseEventOf_weir ..
@[simp] theorem State.raiseEvent_flash (s : State) (a b c d e : Nat) : (s.raiseEvent a b c d e).flash = s.flash :=
  State.raiseEventOf_flash ..
@[simp] theorem State.raiseEvent_net (s : State) (a b c d e : Nat) : (s.raiseEvent a b c d e).net = s.net :=
  State.raiseEventOf_net ..
@[simp] theorem State.raiseEvent_riffle (s : State) (a b c d e : Nat) : (s.raiseEvent a b c d e).riffle = s.riffle :=
  State.raiseEventOf_riffle ..
@[simp] theorem State.raiseEvent_upd (s : State) (a b c d e : Nat) : (s.raiseEvent a b c d e).upd = s.upd :=
  State.raiseEventOf_upd ..
@[simp] theorem State.raiseEvent_journal (s : State) (a b c d e : Nat) : (s.raiseEvent a b c d e).journal = s.journal :=
  State.raiseEventOf_journal ..
@[simp] theorem State.raiseEvent_panel (s : State) (a b c d e : Nat) : (s.raiseEvent a b c d e).panel = s.panel :=
  State.raiseEventOf_panel ..
@[simp] theorem State.raiseEvent_supply (s : State) (a b c d e : Nat) : (s.raiseEvent a b c d e).supply = s.supply :=
  State.raiseEventOf_supply ..
@[simp] theorem State.raiseEvent_fw (s : State) (a b c d e : Nat) : (s.raiseEvent a b c d e).fw = s.fw :=
  State.raiseEventOf_fw ..
@[simp] theorem State.raiseEvent_nor (s : State) (a b c d e : Nat) : (s.raiseEvent a b c d e).nor = s.nor :=
  State.raiseEventOf_nor ..
@[simp] theorem State.raiseEvent_host (s : State) (a b c d e : Nat) : (s.raiseEvent a b c d e).host = s.host :=
  State.raiseEventOf_host ..
@[simp] theorem State.raiseEvent_dir (s : State) (a b c d e : Nat) : (s.raiseEvent a b c d e).dir = s.dir :=
  State.raiseEventOf_dir ..
@[simp] theorem State.raiseEvent_out (s : State) (a b c d e : Nat) : (s.raiseEvent a b c d e).out = s.out :=
  State.raiseEventOf_out ..
@[simp] theorem State.raiseEvent_draws (s : State) (a b c d e : Nat) : (s.raiseEvent a b c d e).draws = s.draws :=
  State.raiseEventOf_draws ..

@[simp] theorem State.condition_pending (s : State) (w : Nat) : (s.condition w).pending = s.pending := by
  unfold State.condition
  dsimp only
  split_ifs <;> rfl
@[simp] theorem State.condition_clock (s : State) (w : Nat) : (s.condition w).clock = s.clock := by
  unfold State.condition
  dsimp only
  split_ifs <;> rfl
@[simp] theorem State.condition_log (s : State) (w : Nat) : (s.condition w).log = s.log := by
  unfold State.condition
  dsimp only
  split_ifs <;> rfl
@[simp] theorem State.condition_held (s : State) (w : Nat) : (s.condition w).held = s.held := by
  unfold State.condition
  dsimp only
  split_ifs <;> rfl
@[simp] theorem State.condition_mem (s : State) (w : Nat) : (s.condition w).mem = s.mem := by
  unfold State.condition
  dsimp only
  split_ifs <;> rfl
@[simp] theorem State.condition_weir (s : State) (w : Nat) : (s.condition w).weir = s.weir := by
  unfold State.condition
  dsimp only
  split_ifs <;> rfl
@[simp] theorem State.condition_flash (s : State) (w : Nat) : (s.condition w).flash = s.flash := by
  unfold State.condition
  dsimp only
  split_ifs <;> rfl
@[simp] theorem State.condition_net (s : State) (w : Nat) : (s.condition w).net = s.net := by
  unfold State.condition
  dsimp only
  split_ifs <;> rfl
@[simp] theorem State.condition_riffle (s : State) (w : Nat) : (s.condition w).riffle = s.riffle := by
  unfold State.condition
  dsimp only
  split_ifs <;> rfl
@[simp] theorem State.condition_upd (s : State) (w : Nat) : (s.condition w).upd = s.upd := by
  unfold State.condition
  dsimp only
  split_ifs <;> rfl
@[simp] theorem State.condition_journal (s : State) (w : Nat) : (s.condition w).journal = s.journal := by
  unfold State.condition
  dsimp only
  split_ifs <;> rfl
@[simp] theorem State.condition_panel (s : State) (w : Nat) : (s.condition w).panel = s.panel := by
  unfold State.condition
  dsimp only
  split_ifs <;> rfl
@[simp] theorem State.condition_supply (s : State) (w : Nat) : (s.condition w).supply = s.supply := by
  unfold State.condition
  dsimp only
  split_ifs <;> rfl
@[simp] theorem State.condition_fw (s : State) (w : Nat) : (s.condition w).fw = s.fw := by
  unfold State.condition
  dsimp only
  split_ifs <;> rfl
@[simp] theorem State.condition_nor (s : State) (w : Nat) : (s.condition w).nor = s.nor := by
  unfold State.condition
  dsimp only
  split_ifs <;> rfl
@[simp] theorem State.condition_host (s : State) (w : Nat) : (s.condition w).host = s.host := by
  unfold State.condition
  dsimp only
  split_ifs <;> rfl
@[simp] theorem State.condition_dir (s : State) (w : Nat) : (s.condition w).dir = s.dir := by
  unfold State.condition
  dsimp only
  split_ifs <;> rfl
@[simp] theorem State.condition_out (s : State) (w : Nat) : (s.condition w).out = s.out := by
  unfold State.condition
  dsimp only
  split_ifs <;> rfl
@[simp] theorem State.condition_draws (s : State) (w : Nat) : (s.condition w).draws = s.draws := by
  unfold State.condition
  dsimp only
  split_ifs <;> rfl

/-- `t` is `s` but for registers, the dies, the weir and the clock: what ac that pass can change. -/
structure PassFrame (s t : State) : Prop where
  pending : t.pending = s.pending
  log : t.log = s.log
  held : t.held = s.held
  mem : t.mem = s.mem
  flash : t.flash = s.flash
  net : t.net = s.net
  riffle : t.riffle = s.riffle
  upd : t.upd = s.upd
  journal : t.journal = s.journal
  panel : t.panel = s.panel
  supply : t.supply = s.supply
  fw : t.fw = s.fw
  nor : t.nor = s.nor
  host : t.host = s.host
  dir : t.dir = s.dir
  out : t.out = s.out
  draws : t.draws = s.draws

theorem PassFrame.refl (s : State) : PassFrame s s := ⟨rfl, rfl, rfl, rfl, rfl, rfl, rfl, rfl, rfl, rfl, rfl, rfl, rfl, rfl, rfl, rfl, rfl⟩
theorem PassFrame.trans {s t u : State} (h : PassFrame s t) (g : PassFrame t u) : PassFrame s u :=
  ⟨g.pending.trans h.pending,
    g.log.trans h.log,
    g.held.trans h.held,
    g.mem.trans h.mem,
    g.flash.trans h.flash,
    g.net.trans h.net,
    g.riffle.trans h.riffle,
    g.upd.trans h.upd,
    g.journal.trans h.journal,
    g.panel.trans h.panel,
    g.supply.trans h.supply,
    g.fw.trans h.fw,
    g.nor.trans h.nor,
    g.host.trans h.host,
    g.dir.trans h.dir,
    g.out.trans h.out,
    g.draws.trans h.draws⟩
theorem PassFrame.foldl {α : Type} {f : State → α → State} (hf : ∀ s x, PassFrame s (f s x)) (xs : List α) (s : State) :
    PassFrame s (xs.foldl f s) := by
  induction xs generalizing s with
  | nil => exact PassFrame.refl s
  | cons x xs ih => exact (hf s x).trans (ih _)

/-- A head that waits changes its die, the weir's note and a counter. -/
theorem State.passSlot_frame (s : State) (sl c : Nat) : PassFrame s (s.passSlot sl c) := by
  unfold State.passSlot
  dsimp only
  split_ifs <;> constructor <;> rfl
theorem State.passBase_frame (s : State) (b : Nat) : PassFrame s (s.passBase b) := by
  have h := PassFrame.foldl (fun (s' : State) k => State.passSlot_frame s' (8 * b + k) (nth s.weir.refilled b 0)) (List.range 8) s
  unfold State.passBase
  exact h.trans (by constructor <;> rfl)
theorem State.passAcs_frame (b n : Nat) (s : State) : PassFrame s (State.passAcs b n s) := by
  induction n generalizing s with
  | zero => exact PassFrame.refl s
  | succ n ih =>
    unfold State.passAcs
    split
    · exact (s.passBase_frame b).trans (ih _)
    · exact PassFrame.refl s
/-- A base die brought up to now. -/
theorem State.catchUp_frame (s : State) (b : Nat) : PassFrame s (s.catchUp b) :=
  (State.passAcs_frame b _ s).trans (by constructor <;> rfl)
theorem State.nextAc_frame (s : State) (sl : Nat) : PassFrame s (s.nextAc sl) :=
  PassFrame.trans (t := s.reach _) (by constructor <;> rfl) (State.catchUp_frame ..)
theorem State.atAc_frame (s : State) (sl : Nat) : PassFrame s (s.atAc sl) :=
  PassFrame.trans (t := s.reach _) (by constructor <;> rfl) (State.catchUp_frame ..)
/-- The ac that an issue waits for. -/
theorem State.seek_frame (sl st n : Nat) (s : State) : PassFrame s (State.seek sl st n s) := by
  induction n generalizing s with
  | zero => exact PassFrame.refl s
  | succ n ih =>
    unfold State.seek
    split
    · exact PassFrame.refl s
    · exact (s.nextAc_frame sl).trans (ih _)
/-- The accounting of a die's ac. -/
theorem State.account_frame (s : State) (sl : Nat) : PassFrame s (s.account sl) := by
  refine (s.catchUp_frame (sl / 8)).trans ?_
  unfold State.account
  dsimp only
  split_ifs <;> constructor <;> rfl

/-- No ac that pass move the clock, which has passed them already. -/
theorem State.catchUp_clock (s : State) (b : Nat) : (s.catchUp b).clock = s.clock := by
  have slot (s : State) (sl c : Nat) : (s.passSlot sl c).clock = s.clock := by
    unfold State.passSlot
    dsimp only
    split_ifs <;> rfl
  have fold (c : Nat) (xs : List Nat) (s : State) : (xs.foldl (fun s k => s.passSlot (8 * b + k) c) s).clock = s.clock := by
    induction xs generalizing s with
    | nil => rfl
    | cons x xs ih => exact (ih _).trans (slot ..)
  have acs (n : Nat) (s : State) : (State.passAcs b n s).clock = s.clock := by
    induction n generalizing s with
    | zero => rfl
    | succ n ih =>
      unfold State.passAcs
      split
      · exact (ih _).trans (fold ..)
      · rfl
  exact acs ..
@[simp] theorem State.account_clock (s : State) (sl : Nat) : (s.account sl).clock = s.clock := by
  refine Eq.trans ?_ (s.catchUp_clock (sl / 8))
  unfold State.account
  dsimp only
  split_ifs <;> rfl
@[simp] theorem State.account_pending (s : State) (sl : Nat) : (s.account sl).pending = s.pending := (s.account_frame sl).pending
@[simp] theorem State.account_log (s : State) (sl : Nat) : (s.account sl).log = s.log := (s.account_frame sl).log
@[simp] theorem State.account_held (s : State) (sl : Nat) : (s.account sl).held = s.held := (s.account_frame sl).held
@[simp] theorem State.account_mem (s : State) (sl : Nat) : (s.account sl).mem = s.mem := (s.account_frame sl).mem
@[simp] theorem State.account_flash (s : State) (sl : Nat) : (s.account sl).flash = s.flash := (s.account_frame sl).flash
@[simp] theorem State.account_net (s : State) (sl : Nat) : (s.account sl).net = s.net := (s.account_frame sl).net
@[simp] theorem State.account_riffle (s : State) (sl : Nat) : (s.account sl).riffle = s.riffle := (s.account_frame sl).riffle
@[simp] theorem State.account_upd (s : State) (sl : Nat) : (s.account sl).upd = s.upd := (s.account_frame sl).upd
@[simp] theorem State.account_journal (s : State) (sl : Nat) : (s.account sl).journal = s.journal := (s.account_frame sl).journal
@[simp] theorem State.account_panel (s : State) (sl : Nat) : (s.account sl).panel = s.panel := (s.account_frame sl).panel
@[simp] theorem State.account_supply (s : State) (sl : Nat) : (s.account sl).supply = s.supply := (s.account_frame sl).supply
@[simp] theorem State.account_fw (s : State) (sl : Nat) : (s.account sl).fw = s.fw := (s.account_frame sl).fw
@[simp] theorem State.account_nor (s : State) (sl : Nat) : (s.account sl).nor = s.nor := (s.account_frame sl).nor
@[simp] theorem State.account_host (s : State) (sl : Nat) : (s.account sl).host = s.host := (s.account_frame sl).host
@[simp] theorem State.account_dir (s : State) (sl : Nat) : (s.account sl).dir = s.dir := (s.account_frame sl).dir
@[simp] theorem State.account_out (s : State) (sl : Nat) : (s.account sl).out = s.out := (s.account_frame sl).out
@[simp] theorem State.account_draws (s : State) (sl : Nat) : (s.account sl).draws = s.draws := (s.account_frame sl).draws

@[simp] theorem State.addToken_pending (s : State) (sl k n : Nat) : (s.addToken sl k n).pending = s.pending := by
  unfold State.addToken
  dsimp only
  split_ifs <;> simp
@[simp] theorem State.addToken_clock (s : State) (sl k n : Nat) : (s.addToken sl k n).clock = s.clock := by
  unfold State.addToken
  dsimp only
  split_ifs <;> simp
@[simp] theorem State.addToken_log (s : State) (sl k n : Nat) : (s.addToken sl k n).log = s.log := by
  unfold State.addToken
  dsimp only
  split_ifs <;> simp
@[simp] theorem State.addToken_held (s : State) (sl k n : Nat) : (s.addToken sl k n).held = s.held := by
  unfold State.addToken
  dsimp only
  split_ifs <;> simp
@[simp] theorem State.addToken_mem (s : State) (sl k n : Nat) : (s.addToken sl k n).mem = s.mem := by
  unfold State.addToken
  dsimp only
  split_ifs <;> simp
@[simp] theorem State.addToken_flash (s : State) (sl k n : Nat) : (s.addToken sl k n).flash = s.flash := by
  unfold State.addToken
  dsimp only
  split_ifs <;> simp
@[simp] theorem State.addToken_net (s : State) (sl k n : Nat) : (s.addToken sl k n).net = s.net := by
  unfold State.addToken
  dsimp only
  split_ifs <;> simp
@[simp] theorem State.addToken_riffle (s : State) (sl k n : Nat) : (s.addToken sl k n).riffle = s.riffle := by
  unfold State.addToken
  dsimp only
  split_ifs <;> simp
@[simp] theorem State.addToken_upd (s : State) (sl k n : Nat) : (s.addToken sl k n).upd = s.upd := by
  unfold State.addToken
  dsimp only
  split_ifs <;> simp
@[simp] theorem State.addToken_journal (s : State) (sl k n : Nat) : (s.addToken sl k n).journal = s.journal := by
  unfold State.addToken
  dsimp only
  split_ifs <;> simp
@[simp] theorem State.addToken_panel (s : State) (sl k n : Nat) : (s.addToken sl k n).panel = s.panel := by
  unfold State.addToken
  dsimp only
  split_ifs <;> simp
@[simp] theorem State.addToken_supply (s : State) (sl k n : Nat) : (s.addToken sl k n).supply = s.supply := by
  unfold State.addToken
  dsimp only
  split_ifs <;> simp
@[simp] theorem State.addToken_fw (s : State) (sl k n : Nat) : (s.addToken sl k n).fw = s.fw := by
  unfold State.addToken
  dsimp only
  split_ifs <;> simp
@[simp] theorem State.addToken_nor (s : State) (sl k n : Nat) : (s.addToken sl k n).nor = s.nor := by
  unfold State.addToken
  dsimp only
  split_ifs <;> simp
@[simp] theorem State.addToken_host (s : State) (sl k n : Nat) : (s.addToken sl k n).host = s.host := by
  unfold State.addToken
  dsimp only
  split_ifs <;> simp
@[simp] theorem State.addToken_dir (s : State) (sl k n : Nat) : (s.addToken sl k n).dir = s.dir := by
  unfold State.addToken
  dsimp only
  split_ifs <;> simp
@[simp] theorem State.addToken_out (s : State) (sl k n : Nat) : (s.addToken sl k n).out = s.out := by
  unfold State.addToken
  dsimp only
  split_ifs <;> simp
@[simp] theorem State.addToken_draws (s : State) (sl k n : Nat) : (s.addToken sl k n).draws = s.draws := by
  unfold State.addToken
  dsimp only
  split_ifs <;> simp

/-- A register reads what was last written to it. -/
@[simp] theorem State.reg_setReg_same (s : State) (p e v : Nat) : (s.setReg p e v).reg p e = v :=
  Sparse.get_put_same _ _ _

/-- A scalar reads what was last written to it. -/
@[simp] theorem State.val_setVal_same (s : State) (p v : Nat) : (s.setVal p v).val p = v :=
  Sparse.get_put_same _ _ _

/-- Writing one register leaves every other as it was. -/
theorem State.reg_setReg_other (s : State) {p e p' e' : Nat} (v : Nat) (w : Sparse.wf paramDefault s.params = true)
    (h : pkey p' e' ≠ pkey p e) : (s.setReg p e v).reg p' e' = s.reg p' e' :=
  Sparse.get_put_other v w h

/-- Names of different registers have different keys. -/
theorem pkey_ne {p e p' e' : Nat} (he : e < 2 ^ 24) (he' : e' < 2 ^ 24) (h : p' ≠ p ∨ e' ≠ e) : pkey p' e' ≠ pkey p e := by
  unfold pkey
  omega

/-- R363: a counter holds its sum, or the largest value of its type. -/
@[simp] theorem State.reg_bump_same (s : State) (p e n b : Nat) :
    (s.bump p e n b).reg p e = min (s.reg p e + n) (maxOfBytes b) := State.reg_setReg_same ..

/-- Reads depend on the parameter store alone. -/
theorem State.reg_congr {s t : State} (h : t.params = s.params) (p e : Nat) : t.reg p e = s.reg p e := by
  unfold State.reg
  rw [h]

/-- A die reads as it was last left. -/
@[simp] theorem State.die_setDie_same (s : State) (sl : Nat) (d : Die) : (s.setDie sl d).die sl = d :=
  Sparse.get_put_same _ _ _

/-- Changing one die leaves every other as it was. -/
theorem State.die_setDie_other (s : State) {sl k : Nat} (d : Die) (w : Sparse.wf dieDefault s.seq.dies = true) (h : k ≠ sl) :
    (s.setDie sl d).die k = s.die k := Sparse.get_put_other d w h

/-- Dies depend on the sequencer's state alone. -/
theorem State.die_congr {s t : State} (h : t.seq = s.seq) (sl : Nat) : t.die sl = s.die sl := by
  unfold State.die
  rw [h]

/-- A tile reads as it was last stored. -/
@[simp] theorem State.tile_putTile_same (s : State) (id : Nat) (x : Tile) : (s.putTile id x).tile id = x :=
  Sparse.get_put_same _ _ _

/-- Storing one tile leaves every other as it was. -/
theorem State.tile_putTile_other (s : State) {id k : Nat} (x : Tile) (w : Sparse.wf tileDefault s.mem.tiles = true)
    (h : k ≠ id) : (s.putTile id x).tile k = s.tile k := Sparse.get_put_other x w h

/-- A page's entry reads as it was last written. -/
@[simp] theorem State.page_setPage_same (s : State) (p e : Nat) : (s.setPage p e).page p = e % 2 ^ 128 := by
  unfold State.page State.setPage
  simp only [Sparse.get_put_same, BitVec.toNat_ofNat]

/-- Writing one page's entry leaves every other as it was. -/
theorem State.page_setPage_other (s : State) {p k : Nat} (e : Nat) (w : Sparse.wf pageDefault s.mem.pages = true)
    (h : k ≠ p) : (s.setPage p e).page k = s.page k := by
  unfold State.page State.setPage
  simp only [Sparse.get_put_other _ w h]

end Sys2Proof.Machine
end

