-- ==== Sys2Proof/Laws/Issue.lean ====
section
/-! SUPPORT. What the passing of time and an issue leave unchanged: `Waits` for the search of the ac in which a head issues,
one frame lemma for each shared operation of the meanings of entries, and `issues_of`, which reduces the issue of an entry to
the frame of its own act. -/

namespace Sys2Proof.IssueLaws

open Sys2Proof Sys2Proof.Machine Sys2Proof.Claims

theorem tryIssue_sel {s u : State} {sl st e : Nat} {op act} (h : Selected s sl st e u) (ho : op e = true) :
    s.tryIssue sl st op act = u.issueNow sl st e act := by
  obtain ⟨h1, h2, rfl, h4⟩ := h
  unfold strm at h2
  simp [State.tryIssue, h1, ho, h2, h4]

theorem passed_refl (d : Die) : PassedOnly d d := ⟨rfl, fun _ _ => rfl⟩

theorem passed_trans {a b c : Die} (h : PassedOnly a b) (g : PassedOnly b c) : PassedOnly a c := by
  obtain ⟨h1, h2⟩ := h
  obtain ⟨g1, g2⟩ := g
  refine ⟨by rw [g1, h1], fun st hst => ?_⟩
  have x := h2 st hst
  have y := g2 st hst
  rw [x] at y
  exact y

/-- Heads passed over on one die (R35). -/
theorem passed_map (d : Die) (p : Nat → Bool) (n : Stream → Nat) :
    PassedOnly d { d with streams := ((List.range 16).zip d.streams).map fun (k, x) => if p k then { x with passed := n x } else x } := by
  refine ⟨rfl, fun st hst => ?_⟩
  simp only [Die.stream, nth, List.getD_eq_getElem?_getD, List.getElem?_map]
  by_cases h1 : st < d.streams.length
  · have : ((List.range 16).zip d.streams)[st]? = some (st, d.streams[st]) := by
      rw [List.getElem?_zip_eq_some]; simp [hst, h1]
    rw [this]
    simp only [Option.map_some, Option.getD_some, List.getElem?_eq_getElem h1]
    split <;> rfl
  · have : ((List.range 16).zip d.streams)[st]? = none := by simp; omega
    rw [this]
    simp [List.getElem?_eq_none (Nat.le_of_not_lt h1)]

/-- What passes while heads of base die `b` wait: nothing but the clock, the weir, the count of waits for budget and how often heads
of its slots were passed over. -/
structure Waits (b : Nat) (s t : State) : Prop where
  can : Canonical s → Canonical t
  rest : t = { s with clock := t.clock, weir := t.weir, params := t.params, seq := { s.seq with dies := t.seq.dies } }
  dies : Canonical s → ∀ k, PassedOnly (s.die k) (t.die k)
  others : Canonical s → ∀ k, k / 8 ≠ b → t.die k = s.die k
  regs : Canonical s → OnlyRegs [P.budgetWaits] s t

theorem Waits.refl (b : Nat) (s : State) : Waits b s s :=
  ⟨id, rfl, fun _ _ => passed_refl _, fun _ _ _ => rfl, fun _ _ _ _ _ => rfl⟩

theorem Waits.trans {b : Nat} {s t u : State} (h : Waits b s t) (g : Waits b t u) : Waits b s u :=
  ⟨fun c => g.can (h.can c), by rw [g.rest, h.rest], fun c k => passed_trans (h.dies c k) (g.dies (h.can c) k),
   fun c k hk => (g.others (h.can c) k hk).trans (h.others c k hk),
   fun c p e he hp => (g.regs (h.can c) p e he hp).trans (h.regs c p e he hp)⟩

/-- Only the clock and the weir change. -/
theorem Waits.idle {b : Nat} {s t : State} (h : t = { s with clock := t.clock, weir := t.weir }) : Waits b s t := by
  rw [h]
  exact ⟨id, rfl, fun _ _ => passed_refl _, fun _ _ _ => rfl, fun _ _ _ _ _ => rfl⟩

theorem pkeyne {p e q f : Nat} (he : e < 2 ^ 24) (hf : f < 2 ^ 24) (h : p ≠ q) : pkey p e ≠ pkey q f := by
  unfold pkey; omega

theorem Waits.passSlot {b sl : Nat} (hb : sl / 8 = b) (hs : sl < 64) (c : Nat) (s : State) : Waits b s (s.passSlot sl c) := by
  unfold State.passSlot
  extract_lets d xs held s1
  split
  · exact Waits.refl ..
  · have h1 : Waits b s s1 :=
      ⟨fun w => ⟨w.1, w.2.1, w.2.2.1, Sparse.wf_put _ _ w.2.2.2⟩, rfl,
       fun w k => by
         by_cases hk : k = sl
         · subst hk
           simp only [s1, State.die_setDie_same]
           exact passed_map d (fun j => s.readyAt k j c) (fun x => x.passed + 1)
         · simp only [s1, State.die_setDie_other s _ w.2.2.2 hk]; exact passed_refl _,
       fun w k hk => State.die_setDie_other _ _ w.2.2.2 (fun h => hk (h ▸ hb)), fun _ _ _ _ _ => rfl⟩
    split
    · refine h1.trans ⟨fun w => ⟨Sparse.wf_put _ _ w.1, w.2⟩, rfl, fun _ _ => passed_refl _, fun _ _ _ => rfl, fun w p e he hp => ?_⟩
      exact State.reg_setReg_other _ _ w.1 (pkeyne he (by omega) (by simpa using hp))
    · exact h1

theorem Waits.foldl {b : Nat} {α : Type} (f : State → α → State) (xs : List α) (s : State) (h : ∀ t, ∀ x ∈ xs, Waits b t (f t x)) :
    Waits b s (xs.foldl f s) := by
  induction xs generalizing s with
  | nil => exact Waits.refl ..
  | cons x xs ih => exact (h s x (by simp)).trans (ih _ fun t y hy => h t y (by simp [hy]))

theorem Waits.passBase {b : Nat} (hb : b < 8) (s : State) : Waits b s (s.passBase b) := by
  unfold State.passBase
  refine Waits.trans (Waits.foldl _ _ _ fun t k hk => ?_) (Waits.idle rfl)
  have : k < 8 := List.mem_range.1 hk
  exact Waits.passSlot (by omega) (by omega) _ _

theorem Waits.passAcs {b : Nat} (hb : b < 8) (n : Nat) (s : State) : Waits b s (State.passAcs b n s) := by
  induction n generalizing s with
  | zero => exact Waits.refl ..
  | succ n ih =>
    unfold State.passAcs
    split
    · exact (Waits.passBase hb s).trans (ih _)
    · exact Waits.refl ..

theorem Waits.catchUp {b : Nat} (hb : b < 8) (s : State) : Waits b s (s.catchUp b) :=
  (Waits.passAcs hb _ s).trans (Waits.idle rfl)

theorem Waits.nextAc {sl : Nat} (hs : sl < 64) (s : State) : Waits (sl / 8) s (s.nextAc sl) :=
  Waits.trans (t := s.reach (acRoot * (s.ac + 1))) (Waits.idle rfl) (Waits.catchUp (by omega) _)

theorem Waits.atAc {sl : Nat} (hs : sl < 64) (s : State) : Waits (sl / 8) s (s.atAc sl) :=
  Waits.trans (t := s.reach (acRoot * ceilDiv s.clock.now acRoot)) (Waits.idle rfl) (Waits.catchUp (by omega) _)

theorem Waits.seek {sl : Nat} (hs : sl < 64) (st n : Nat) (s : State) : Waits (sl / 8) s (State.seek sl st n s) := by
  induction n generalizing s with
  | zero => exact Waits.refl ..
  | succ n ih =>
    unfold State.seek
    split
    · exact Waits.refl ..
    · exact (Waits.nextAc hs s).trans (ih _)

theorem Waits.awaitDue {sl : Nat} (hs : sl < 64) (st n : Nat) (s : State) : Waits (sl / 8) s (State.awaitDue sl st n s) := by
  induction n generalizing s with
  | zero => exact Waits.refl ..
  | succ n ih =>
    unfold State.awaitDue
    split
    · exact Waits.refl ..
    · exact (Waits.nextAc hs s).trans (ih _)

theorem Waits.of {s u : State} {sl st e : Nat} (hs : sl < 64) (h : Selected s sl st e u) : Waits (sl / 8) s u := by
  rw [h.2.2.1]; exact (Waits.atAc hs s).trans (Waits.seek hs ..)

/-- What an issue on slot `sl` leaves: stores, other dies but for heads passed over, every register outside `issueRegs`, and
the state of every other unit. -/
structure Frame (sl : Nat) (s t : State) : Prop where
  can : Canonical s → Canonical t
  stores : SameStores s t
  dies : Canonical s → ∀ k, k ≠ sl → PassedOnly (s.die k) (t.die k) ∧ (k / 8 ≠ sl / 8 → t.die k = s.die k)
  regs : Canonical s → OnlyRegs issueRegs s t
  held : t.held = s.held
  supply : t.supply = s.supply
  fw : t.fw = s.fw
  host : t.host = s.host
  upd : t.upd = s.upd
  journal : t.journal = s.journal

theorem Frame.refl (sl) (s : State) : Frame sl s s :=
  ⟨id, ⟨rfl, rfl, rfl, rfl⟩, fun _ _ _ => ⟨passed_refl _, fun _ => rfl⟩, fun _ _ _ _ _ => rfl, rfl, rfl, rfl, rfl, rfl, rfl⟩

theorem Frame.trans {sl} {a b c : State} (h : Frame sl a b) (g : Frame sl b c) : Frame sl a c :=
  ⟨fun x => g.1 (h.1 x), ⟨g.2.1.trans h.2.1, g.2.2.1.trans h.2.2.1, g.2.2.2.1.trans h.2.2.2.1, g.2.2.2.2.trans h.2.2.2.2⟩,
   fun x k hk => ⟨passed_trans (h.dies x k hk).1 (g.dies (h.1 x) k hk).1, fun o => ((g.dies (h.1 x) k hk).2 o).trans ((h.dies x k hk).2 o)⟩,
   fun x p e he hp => (g.regs (h.1 x) p e he hp).trans (h.regs x p e he hp),
   g.held.trans h.held, g.supply.trans h.supply, g.fw.trans h.fw, g.host.trans h.host, g.upd.trans h.upd, g.journal.trans h.journal⟩

theorem Frame.of {sl} {s t : State} (h : Frame sl s t) (c : Canonical s) : IssueFrame s t sl :=
  ⟨h.stores, fun k hk => (h.dies c k hk).1, fun k hk => (h.dies c k (fun e => hk (e ▸ rfl))).2 hk, h.regs c, h.held, h.supply, h.fw,
   h.host, h.upd, h.journal⟩

theorem Frame.waits {sl} {s t : State} (h : Waits (sl / 8) s t) : Frame sl s t := by
  have r := h.rest
  refine ⟨h.can, ?_, fun c k _ => ⟨h.dies c k, h.others c k⟩, fun c p e he hp => h.regs c p e he ?_, ?_, ?_, ?_, ?_, ?_, ?_⟩
  · rw [r]; exact ⟨rfl, rfl, rfl, rfl⟩
  · intro q; rw [List.mem_singleton] at q; exact hp (q ▸ by decide)
  all_goals rw [r]

theorem Frame.setReg (sl) (s : State) (p e v : Nat) (he : e < 2 ^ 24) (hp : p ∈ issueRegs) : Frame sl s (s.setReg p e v) :=
  ⟨fun c => ⟨Sparse.wf_put _ _ c.1, c.2⟩, ⟨rfl, rfl, rfl, rfl⟩, fun _ _ _ => ⟨passed_refl _, fun _ => rfl⟩,
   fun c _ _ hf hq => State.reg_setReg_other _ _ c.1 (pkeyne hf he (fun h => hq (h ▸ hp))), rfl, rfl, rfl, rfl, rfl, rfl⟩

theorem Frame.setDie (sl) (s : State) (d) : Frame sl s (s.setDie sl d) :=
  ⟨fun c => ⟨c.1, c.2.1, c.2.2.1, Sparse.wf_put _ _ c.2.2.2⟩, ⟨rfl, rfl, rfl, rfl⟩,
   fun c k hk => by rw [State.die_setDie_other _ _ c.2.2.2 hk]; exact ⟨passed_refl _, fun _ => rfl⟩,
   fun _ _ _ _ _ => rfl, rfl, rfl, rfl, rfl, rfl, rfl⟩

/-- Nothing of the frame is written. -/
theorem Frame.same (sl) {s t : State} (a : t.params = s.params) (b : t.mem.tiles = s.mem.tiles) (c : t.mem.pages = s.mem.pages)
    (d : t.seq.dies = s.seq.dies) (e : t.flash = s.flash) (f : t.pending = s.pending) (g : t.held = s.held) (h : t.supply = s.supply)
    (i : t.fw = s.fw) (j : t.host = s.host) (k : t.upd = s.upd) (l : t.journal = s.journal) : Frame sl s t :=
  ⟨fun x => by unfold Canonical; rw [a, b, c, d]; exact x, ⟨b, c, e, f⟩,
   fun _ k _ => by rw [show t.die k = s.die k by simp [State.die, d]]; exact ⟨passed_refl _, fun _ => rfl⟩,
   fun _ p e _ _ => by simp [State.reg, a], g, h, i, j, k, l⟩

theorem Frame.reach (sl) (s : State) (t) : Frame sl s (s.reach t) := by apply Frame.same <;> rfl
theorem Frame.refill (sl) (s : State) (b) : Frame sl s (s.refill b) := by apply Frame.same <;> rfl
theorem Frame.debit (sl) (s : State) (a b) : Frame sl s (s.debit a b) := by apply Frame.same <;> rfl
theorem Frame.emit (sl) (s : State) (e) : Frame sl s (s.emit e) := by apply Frame.same <;> rfl
theorem Frame.bump (sl) (s : State) (p e n b) (he : e < 2^24) (hp : p ∈ issueRegs) :
    Frame sl s (s.bump p e n b) :=
  Frame.setReg _ _ _ _ _ he hp
theorem Frame.bump64 (sl) (s : State) (p e n) (he : e < 2^24) (hp : p ∈ issueRegs) :
    Frame sl s (s.bump64 p e n) :=
  Frame.setReg _ _ _ _ _ he hp
theorem Frame.bump32 (sl) (s : State) (p e n) (he : e < 2^24) (hp : p ∈ issueRegs) :
    Frame sl s (s.bump32 p e n) :=
  Frame.setReg _ _ _ _ _ he hp
theorem phaseOf_lt (s : State) (sl c) : s.phaseOf sl c < 19 := by
  unfold State.phaseOf
  dsimp only
  split
  · simp only [enPhase, bits]; omega
  · split <;> (try split) <;> omega
theorem Frame.account {sl} (hs : sl < 64) (s : State) : Frame sl s (s.account sl) := by
  unfold State.account
  extract_lets s1 d n
  refine Frame.trans (Frame.waits (Waits.catchUp (by omega) s)) ?_
  have h1 := phaseOf_lt s1 sl d.phaseAt
  have h2 := phaseOf_lt s1 sl (d.phaseAt + 1)
  split
  · exact Frame.setDie ..
  · refine Frame.trans ((Frame.bump64 _ _ _ _ _ ?_ (by decide)).trans (Frame.bump64 _ _ P.phaseTimers _ _ ?_ (by decide))) (Frame.setDie ..)
    · omega
    · omega
theorem Frame.passOver (sl st t) (s : State) : Frame sl s (s.passOver sl st t) := Frame.setDie ..
theorem Frame.storeEvent (sl) (s : State) (e) : Frame sl s (s.storeEvent e) := by
  unfold State.storeEvent
  extract_lets full oldest lost kept s1 next sink
  have h : Frame sl s s1 := by
    simp only [s1]; split
    · exact Frame.bump64 _ _ _ _ _ (by decide) (by decide)
    · exact Frame.refl ..
  refine h.trans ?_
  refine Frame.trans ?_ (Frame.setReg _ _ _ _ _ (by decide) (by decide))
  apply Frame.same <;> rfl
theorem Frame.raiseEvent (sl) (s : State) (c k r d0 d1) (hc : c < 2^24) : Frame sl s (s.raiseEvent c k r d0 d1) := by
  unfold State.raiseEvent State.raiseEventOf
  extract_lets s1 t nw w
  refine Frame.trans (b := s1) (Frame.bump64 sl s P.eventsRaised c 1 hc (by decide)) ?_
  split
  · exact Frame.trans (by apply Frame.same <;> rfl) (Frame.bump64 _ _ _ _ _ (by decide) (by decide))
  · exact Frame.storeEvent ..
theorem Frame.unmapped (sl) (s : State) (a i) (ha : a < 2^24) : Frame sl s (s.unmappedAccess a i) := by
  unfold State.unmappedAccess
  dsimp only
  refine Frame.trans (Frame.bump64 sl s P.unmappedAccesses a 1 ha (by decide)) ?_
  split
  · exact Frame.refl ..
  · exact Frame.trans (by apply Frame.same <;> rfl) (Frame.raiseEvent _ _ _ _ _ _ _ (by decide))
theorem Frame.readOperand (k) (s : State) (sl i f) (ha : sl < 2^24) : Frame k s (s.readOperand sl i f).2 := by
  unfold State.readOperand
  split
  · exact Frame.unmapped _ _ _ _ ha
  · exact Frame.unmapped _ _ _ _ ha
  all_goals
    dsimp only
    split
    · exact Frame.refl ..
    · split
      · exact Frame.bump64 _ _ _ _ _ ha (by decide)
      · dsimp only; split
        · exact Frame.refl ..
        · exact Frame.bump64 _ _ _ _ _ ha (by decide)
theorem Frame.readIndex (k) (s : State) (sl i) (ha : sl < 2^24) : Frame k s (s.readIndex sl i).2 := by
  unfold State.readIndex
  split
  · exact Frame.unmapped _ _ _ _ ha
  · exact Frame.unmapped _ _ _ _ ha
  all_goals
    dsimp only
    split
    · exact Frame.refl ..
    · split
      · exact Frame.bump64 _ _ _ _ _ ha (by decide)
      · exact Frame.refl ..
theorem Frame.readRaw (k) (s : State) (sl i w) (ha : sl < 2^24) : Frame k s (s.readRaw sl i w).2.2 := by
  unfold State.readRaw
  split
  · exact Frame.unmapped _ _ _ _ ha
  · exact Frame.unmapped _ _ _ _ ha
  all_goals exact Frame.refl ..
theorem Frame.verifyTile (k) (s : State) (a i n t v) (ha : a < 2^24) : Frame k s (s.verifyTile a i n t v).2 := by
  unfold State.verifyTile
  split
  · exact Frame.trans (Frame.bump64 _ _ _ _ _ ha (by decide)) (Frame.raiseEvent _ _ _ _ _ _ _ (by decide))
  · exact Frame.refl ..
theorem Frame.dropCheck (sl) (s : State) (r) : Frame sl s (s.dropCheck r) :=
  Frame.trans (Frame.bump64 _ _ _ _ _ (by decide) (by decide)) (Frame.bump64 _ _ _ _ _ (by omega) (by decide))
theorem Frame.sendPacket (sl) (s : State) (a b c) : Frame sl s (s.sendPacket a b c) := by
  unfold State.sendPacket; dsimp only; split
  · exact Frame.refl ..
  · exact Frame.emit ..
theorem Frame.setTx (sl) (s : State) (a b) : Frame sl s (s.setTx a b) := by apply Frame.same <;> rfl
theorem Frame.sendSeg (sl) (s : State) (ns g) (h : ns < 2^24) : Frame sl s (s.sendSeg ns g) := by
  unfold State.sendSeg
  extract_lets flags pkt s1 s2 x
  refine Frame.trans (b := s2) (Frame.trans (b := s1) ?_ ?_) (Frame.setTx ..)
  · exact (Frame.sendPacket ..).trans (Frame.bump64 _ _ P.segmentsSent ns 1 h (by decide))
  · simp only [s2]; split
    · exact Frame.bump64 _ _ _ _ _ h (by decide)
    · exact Frame.refl ..
theorem Frame.foldl {α} (sl) (f : State → α → State) (xs : List α) (s : State) (h : ∀ t x, Frame sl t (f t x)) :
    Frame sl s (xs.foldl f s) := by
  induction xs generalizing s with
  | nil => exact Frame.refl ..
  | cons x xs ih => exact (h s x).trans (ih _)
theorem Frame.pump (sl) (s : State) (ns) (h : ns < 2^24) : Frame sl s (s.pump ns) := by
  unfold State.pump; dsimp only
  split
  · exact Frame.refl ..
  · exact Frame.foldl _ _ _ _ (fun t x => Frame.sendSeg _ _ _ _ h)
theorem Frame.sendMessage (sl) (s : State) (ns st b) (h : ns < 2^24) : Frame sl s (s.sendMessage ns st b).2 := by
  unfold State.sendMessage; dsimp only
  exact (Frame.setTx ..).trans (Frame.pump _ _ _ h)
theorem Frame.collSource (k) (s : State) (sl i) (h : sl < 64) : Frame k s (s.collSource sl i).2 := by
  unfold State.collSource
  split
  · exact Frame.unmapped _ _ _ _ (by omega)
  · exact Frame.unmapped _ _ _ _ (by omega)
  all_goals
    dsimp only
    split
    · exact Frame.bump64 _ _ _ _ _ (by omega) (by decide)
    · exact Frame.refl ..
theorem Frame.collSources (k) (s : State) (sl f n) (h : sl < 64) : Frame k s (s.collSources sl f n).2 := by
  induction n with
  | zero => exact Frame.refl ..
  | succ n ih => exact ih.trans (Frame.collSource _ _ _ _ h)
theorem Frame.setArray (sl) (s : State) (a x) : Frame sl s (s.setArray sl a x) := Frame.setDie ..
theorem Frame.startCheck (k) (s : State) (sl a st i f c p) : Frame k s (s.startCheck sl a st i f c p) := by
  unfold State.startCheck
  extract_lets x cap
  split
  · exact Frame.dropCheck ..
  · split
    · exact Frame.dropCheck ..
    · apply Frame.same <;> rfl
theorem Frame.startLoads (sl) (s : State) (ps) : Frame sl s (s.startLoads ps) := by apply Frame.same <;> rfl
theorem Frame.operandDelay (sl) (s : State) (k ids) : Frame sl s (s.operandDelay k ids).2 := by
  unfold State.operandDelay; split
  · exact Frame.refl ..
  · apply Frame.same <;> rfl
theorem account_rest (u : State) (sl) (hs : sl < 64) : ∃ v, Waits (sl / 8) u v ∧ (u.account sl).die sl = { v.die sl with phaseAt := v.ac }
    ∧ (u.account sl).clock = v.clock ∧ (u.account sl).mem = v.mem
    ∧ (u.account sl).net = v.net ∧ (u.account sl).seq.fabric = v.seq.fabric := by
  refine ⟨u.catchUp (sl / 8), Waits.catchUp (by omega) u, ?_⟩
  unfold State.account
  extract_lets v d n
  split <;> exact ⟨State.die_setDie_same .., rfl, rfl, rfl, rfl⟩

theorem Frame.prep (u : State) (sl st e) (hs : sl < 64) : Frame sl u (u.prepareIssue sl st e) := by
  unfold State.prepareIssue
  extract_lets v w
  refine Frame.trans (b := w) (Frame.trans (b := v) ?_ ?_) (Frame.setDie ..)
  · exact (Frame.account hs u).trans (Frame.passOver ..)
  · refine (Frame.debit ..).trans (Frame.bump64 _ _ P.phaseEntries (sl * 16 + enPhase e) 1 ?_ (by decide))
    simp only [enPhase, bits]; omega

/-- What an issue leaves of a die before the entry's meaning: the issue taken, with heads passed over and the ac accounted. -/
theorem prep_die (u : State) (sl st e) (hst : st < 16) (hs : sl < 64) (can : Canonical u) : ∃ L ph t,
    (u.prepareIssue sl st e).die sl = ({ u.die sl with phaseAt := ph, streams := L } : Die).takeIssue st e t
    ∧ { nth L st {} with passed := 0 } = { (u.die sl).stream st with passed := 0 } := by
  obtain ⟨v, hv, hd, -⟩ := account_rest u sl hs
  have p := hv.dies can sl
  have q : PassedOnly ((u.account sl).die sl) (((u.account sl).passOver sl st u.ac).die sl) := by
    unfold State.passOver
    rw [State.die_setDie_same]
    convert passed_map ((u.account sl).die sl) (fun k => decide (k ≠ st ∧ (u.account sl).readyAt sl k u.ac = true)) (fun x => x.passed + 1)
      using 5
    simp
  refine ⟨(((u.account sl).passOver sl st u.ac).die sl).streams, v.ac, ((u.account sl).passOver sl st u.ac).clock.now, ?_, ?_⟩
  · unfold State.prepareIssue
    extract_lets a b
    rw [State.die_setDie_same]
    show (a.die sl).takeIssue st e _ = _
    rw [q.1, hd, p.1]
    rfl
  · have x := q.2 st hst
    have y := p.2 st hst
    rw [hd] at x
    show ({ (((u.account sl).passOver sl st u.ac).die sl).stream st with passed := 0 } : Stream) = _
    rw [x]
    show ({ (v.die sl).stream st with passed := 0 } : Stream) = _
    rw [y]

/-- A die with the tokens and the entries in flight of another. -/
structure KeepsDie (d d' : Die) : Prop where
  tokens : d'.tokens = d.tokens
  flight : d'.flight = d.flight

/-- An issue leaves the index and the registers of the head it issues as the search for its ac found them. -/
theorem head_stays {s u : State} {sl st : Nat} (h : PassedOnly (s.die sl) (u.die sl)) (hst : st < 16) :
    ((u.die sl).stream st).head = (strm s sl st).head ∧ ((u.die sl).stream st).x = (strm s sl st).x := by
  have x := h.2 st hst
  rw [x]
  exact ⟨rfl, rfl⟩

/-- The footprint of a head depends on its base registers, the array's conversion register and the size of a COLL group only. -/
theorem footprint_stays {s u : State} {sl st e : Nat} (h : Waits (sl / 8) s u) (can : Canonical s) (hst : st < 16) :
    u.footprintOf (u.die sl) ((u.die sl).stream st) e = headFootprint s sl st e := by
  have p := h.dies can sl
  have g : u.groupSize (enM e 2 12) = s.groupSize (enM e 2 12) := by
    unfold State.groupSize
    rw [(Frame.waits h).regs can P.groupTable (enM e 2 12) (by simp only [enM, bits]; omega) (by decide)]
  have a : ∀ k, (u.die sl).array k = (s.die sl).array k := fun k => by rw [p.1]; rfl
  unfold headFootprint State.footprintOf
  rw [g, a, (head_stays p hst).2]

/-- Issue with the meaning `act`: what remains to show is the frame of `act`, and `Q` of what it makes. -/
theorem issues_of {s u : State} {sl st e : Nat} {op : Nat → Bool} {act : State → Ctx → Issued} {c : Instr} {Q : Flight → State → Prop}
    (hst : st < 16) (hs : sl < 64) (can : Canonical s) (hsel : Selected s sl st e u) (hop : op e = true)
    (hc : exec c s = .next (s.tryIssue sl st op act))
    (hfr : ∀ v : State, Frame sl v (v.startUnit (u.issueCtx sl st e)
      ((u.prepareIssue sl st e).unloaded (touchedTiles (headFootprint s sl st e).1)) act).state)
    (hdk : ∀ v : State, KeepsDie (v.die sl) ((v.startUnit (u.issueCtx sl st e)
      ((u.prepareIssue sl st e).unloaded (touchedTiles (headFootprint s sl st e).1)) act).state.die sl))
    (hQ : let v := u.prepareIssue sl st e
          let x := u.issueCtx sl st e
          let fp := headFootprint s sl st e
          let cold := v.unloaded (touchedTiles fp.1)
          let r := v.startUnit x cold act
          let f := x.flightOf fp v.step cold r
          Q f (r.state.setDie sl ((r.state.die sl).launch st x.index f))) :
    Issues c s sl st e u Q := by
  have w := Waits.of hs hsel
  have p := w.dies can sl
  have fp := footprint_stays (e := e) w can hst
  refine ⟨_, by rw [hc, tryIssue_sel hsel hop], _, ?_, ?_, fun _ => ?_, by simpa only [State.issueNow, fp] using hQ⟩
  · refine ⟨?_, ?_, rfl, rfl, ?_, rfl, rfl⟩
    · simp only [State.issueNow, fp, State.die_setDie_same]
      simp [Die.launch]
    · show (u.die sl).nextId = _
      rw [p.1]
    · exact (head_stays p hst).1
  · simp only [State.issueNow, fp, State.die_setDie_same]
    show ((State.startUnit _ _ _ _).state.die sl).tokens = _
    rw [(hdk _).tokens]
    obtain ⟨L, ph, t, h1, -⟩ := prep_die u sl st e hst hs (w.can can)
    rw [h1]
    simp only [Die.takeIssue, tokensTaken]
    rw [p.1]
  · simp only [State.issueNow, fp]
    exact ((Frame.waits w).trans (Frame.prep u sl st e hs)).trans ((hfr _).trans (Frame.setDie _ _ _)) |>.of can

theorem KeepsDie.refl (d) : KeepsDie d d := ⟨rfl, rfl⟩
theorem KeepsDie.trans {a b c} (h : KeepsDie a b) (g : KeepsDie b c) : KeepsDie a c := ⟨g.1.trans h.1, g.2.trans h.2⟩
theorem KeepsDie.setArray (d : Die) (a x) : KeepsDie d (d.setArray a x) := by unfold Die.setArray; split <;> exact ⟨rfl,rfl⟩
/-- A frame that leaves the die of slot `sl` as well. -/
structure FrameDie (sl : Nat) (s t : State) : Prop extends Frame sl s t where
  die : t.die sl = s.die sl
theorem FrameDie.refl (sl s) : FrameDie sl s s := ⟨Frame.refl .., rfl⟩
theorem FrameDie.trans {sl a b c} (h : FrameDie sl a b) (g : FrameDie sl b c) :
    FrameDie sl a c :=
  ⟨h.toFrame.trans g.toFrame, g.die.trans h.die⟩
theorem FrameDie.seq {sl s t} (h : Frame sl s t) (g : t.seq = s.seq) : FrameDie sl s t := ⟨h, State.die_congr g _⟩

theorem seq_storeEvent (s : State) (e) : (s.storeEvent e).seq = s.seq := by
  unfold State.storeEvent; extract_lets a b c d s1 x y; show s1.seq = _; simp only [s1]; split <;> rfl
theorem seq_raise (s : State) (a b c d e) : (s.raiseEvent a b c d e).seq = s.seq := by
  unfold State.raiseEvent State.raiseEventOf; extract_lets s1 t nw w; split
  · rfl
  · rw [seq_storeEvent]; rfl
theorem seq_unmapped (s : State) (a i) : (s.unmappedAccess a i).seq = s.seq := by
  unfold State.unmappedAccess; dsimp only; split
  · rfl
  · rw [seq_raise]; rfl
theorem seq_readOperand (s : State) (sl i f) : (s.readOperand sl i f).2.seq = s.seq := by
  unfold State.readOperand
  split
  · exact seq_unmapped ..
  · exact seq_unmapped ..
  all_goals
    dsimp only
    split
    · rfl
    · split
      · rfl
      · dsimp only; split <;> rfl
theorem seq_readIndex (s : State) (sl i) : (s.readIndex sl i).2.seq = s.seq := by
  unfold State.readIndex
  split
  · exact seq_unmapped ..
  · exact seq_unmapped ..
  all_goals
    dsimp only
    split
    · rfl
    · split <;> rfl
theorem seq_readRaw (s : State) (sl i w) : (s.readRaw sl i w).2.2.seq = s.seq := by
  unfold State.readRaw
  split
  · exact seq_unmapped ..
  · exact seq_unmapped ..
  all_goals rfl
theorem seq_verify (s : State) (a i n t v) : (s.verifyTile a i n t v).2.seq = s.seq := by
  unfold State.verifyTile
  split
  · exact seq_raise ..
  · rfl
theorem seq_startCheck (s : State) (sl a st i f c p) : (s.startCheck sl a st i f c p).seq = s.seq := by
  unfold State.startCheck; dsimp only; split
  · rfl
  · split <;> rfl
theorem seq_sendPacket (s : State) (a b c) : (s.sendPacket a b c).seq = s.seq := by
  unfold State.sendPacket; dsimp only; split <;> rfl
theorem seq_sendSeg (s : State) (a b) : (s.sendSeg a b).seq = s.seq := by
  unfold State.sendSeg; dsimp only
  show State.seq (if _ then _ else _) = _
  split
  · exact seq_sendPacket ..
  · exact seq_sendPacket ..
theorem seq_foldl {α} (f : State → α → State) (xs : List α) (s : State) (h : ∀ t x, (f t x).seq = t.seq) : (xs.foldl f s).seq = s.seq := by
  induction xs generalizing s with
  | nil => rfl
  | cons x xs ih => exact (ih _).trans (h _ _)
theorem seq_pump (s : State) (a) : (s.pump a).seq = s.seq := by
  unfold State.pump; dsimp only; split
  · rfl
  · exact seq_foldl _ _ _ (fun t x => seq_sendSeg ..)
theorem seq_sendMessage (s : State) (a b c) : (s.sendMessage a b c).2.seq = s.seq := by
  unfold State.sendMessage; dsimp only; rw [seq_pump]; rfl
theorem seq_collSources (s : State) (sl f n) : (s.collSources sl f n).2.seq = s.seq := by
  induction n with
  | zero => rfl
  | succ n ih =>
    show (State.collSource _ _ _).2.seq = _
    rw [← ih]
    unfold State.collSource
    split
    · exact seq_unmapped ..
    · exact seq_unmapped ..
    all_goals dsimp only; split <;> rfl

theorem FrameDie.readOperand (sl s i f) (h : sl < 64) :
    FrameDie sl s (s.readOperand sl i f).2 :=
  FrameDie.seq (Frame.readOperand _ _ _ _ _ (by omega)) (seq_readOperand ..)
theorem FrameDie.readIndex (sl s i) (h : sl < 64) :
    FrameDie sl s (s.readIndex sl i).2 :=
  FrameDie.seq (Frame.readIndex _ _ _ _ (by omega)) (seq_readIndex ..)


end Sys2Proof.IssueLaws
end

