-- ==== Sys2Proof/Laws/Keeps.lean ====
section
/-! SUPPORT. What every operation of the module keeps: the queue of waiting commands, the canonical form of the sparse stores,
and the bounds of the event log, the staged tier map writes and the retirement list. This file: the relation and the shared
operations. -/

namespace Sys2Proof.Machine

/-- `t` is `s` after operations that leave the queue alone and spoil no canonical form and no bound. -/
structure Keeps (s t : State) : Prop where
  queue : t.pending = s.pending
  params : Sparse.wf paramDefault s.params = true → Sparse.wf paramDefault t.params = true
  tiles : Sparse.wf tileDefault s.mem.tiles = true → Sparse.wf tileDefault t.mem.tiles = true
  pages : Sparse.wf pageDefault s.mem.pages = true → Sparse.wf pageDefault t.mem.pages = true
  dies : Sparse.wf dieDefault s.seq.dies = true → Sparse.wf dieDefault t.seq.dies = true
  events : s.log.events.length ≤ 256 → t.log.events.length ≤ 256
  staged : s.mem.staged.length ≤ 65536 → t.mem.staged.length ≤ 65536
  retired : s.mem.retired.length ≤ 4096 → t.mem.retired.length ≤ 4096

/-- Doing nothing keeps everything. -/
theorem Keeps.refl (s : State) : Keeps s s := ⟨rfl, id, id, id, id, id, id, id⟩
/-- A state that differs elsewhere only. -/
theorem Keeps.mk1 {s u : State} (h : Keeps s u) (a b c d e f g h1 h2 h3 h4 h5 h6 h7 h8 h9)
   (sq : Seq) (m : Mem) (l : Log)
   (hm : m.tiles = u.mem.tiles) (hp : m.pages = u.mem.pages) (hl : l.events = u.log.events)
   (hd : sq.dies = u.seq.dies) (hs : m.staged = u.mem.staged) (hr : m.retired = u.mem.retired) :
  Keeps s (State.mk u.pending u.params a l b sq m c d e f g h1 h2 h3 h4 h5 h6 h7 h8 h9) :=
 ⟨h.queue, h.params, by simpa [hm] using h.tiles, by simpa [hp] using h.pages, by simpa [hd] using h.dies,
  by simpa [hl] using h.events, by simpa [hs] using h.staged, by simpa [hr] using h.retired⟩

/-- A state that differs in its memory. -/
theorem Keeps.mkMem {s u : State} (h : Keeps s u) (m : Mem) (ht : m.tiles = u.mem.tiles) (hp : m.pages = u.mem.pages)
    (hs : u.mem.staged.length ≤ 65536 → m.staged.length ≤ 65536)
    (hr : u.mem.retired.length ≤ 4096 → m.retired.length ≤ 4096) : Keeps s { u with mem := m } :=
  ⟨h.queue, h.params, by simpa [ht] using h.tiles, by simpa [hp] using h.pages, h.dies, h.events,
    fun w => hs (h.staged w), fun w => hr (h.retired w)⟩

/-- A state that differs in its clock and log. -/
theorem Keeps.mkLog {s u : State} (h : Keeps s u) (a : Clock) (l : Log) (hl : u.log.events.length ≤ 256 → l.events.length ≤ 256) :
    Keeps s { u with clock := a, log := l } :=
  ⟨h.queue, h.params, h.tiles, h.pages, h.dies, fun w => hl (h.events w), h.staged, h.retired⟩

/-- A state that differs in its parameter store. -/
theorem Keeps.mkParams {s u : State} (h : Keeps s u) (m : Sparse Nat) (q : Seq) (l : Log)
    (hm : Sparse.wf paramDefault u.params = true → Sparse.wf paramDefault m = true) (hl : l.events = u.log.events)
    (hd : q.dies = u.seq.dies) : Keeps s { u with params := m, seq := q, log := l } :=
  ⟨h.queue, fun w => hm (h.params w), h.tiles, h.pages, by simpa [hd] using h.dies, by simpa [hl] using h.events,
    h.staged, h.retired⟩

/-- Steps that keep everything, one after another. -/
theorem Keeps.foldl {α : Type} {s : State} {f : State → α → State} {i : State}
    (hf : ∀ t x, Keeps s t → Keeps s (f t x)) (hi : Keeps s i) (xs : List α) : Keeps s (xs.foldl f i) := by
  induction xs generalizing i with
  | nil => exact hi
  | cons x xs ih => exact ih (hf _ _ hi)

/-- The same with a result beside the state. -/
theorem Keeps.foldl_pair {α β : Type} {s : State} {f : β × State → α → β × State} {i : β × State}
    (hf : ∀ (t : β × State) x, Keeps s t.2 → Keeps s (f t x).2) (hi : Keeps s i.2) (xs : List α) :
    Keeps s (xs.foldl f i).2 := by
  induction xs generalizing i with
  | nil => exact hi
  | cons x xs ih => exact ih (hf _ _ hi)

/-- Both branches keep everything. -/
theorem Keeps.ite_snd {α : Type} {s : State} {c : Prop} [Decidable c] {x y : α × State} (hx : c → Keeps s x.2)
    (hy : ¬ c → Keeps s y.2) : Keeps s (if c then x else y).2 := by
  split
  · exact hx ‹_›
  · exact hy ‹_›

/-- The state of a pair that is known. -/
theorem Keeps.of_pair {α : Type} {s t : State} {p : α × State} {a : α} (e : p = (a, t)) (h : Keeps s p.2) : Keeps s t := by
  subst e; exact h
/-- The state of a triple that is known. -/
theorem Keeps.of_triple {α β : Type} {s t : State} {p : α × β × State} {a : α} {b : β} (e : p = (a, b, t))
    (h : Keeps s p.2.2) : Keeps s t := by subst e; exact h
/-- The state of an option that is known. -/
theorem Keeps.of_some {s t : State} {o : Option State} (e : o = some t) (h : ∀ u, o = some u → Keeps s u) : Keeps s t :=
  h t e
/-- An option of a state, or another state. -/
theorem Keeps.getD {s d : State} {o : Option State} (h : ∀ u, o = some u → Keeps s u) (hd : Keeps s d) :
    Keeps s (o.getD d) := by
  cases o with
  | none => exact hd
  | some u => exact h u rfl

/-- What a row of a host command comes to keeps everything. -/
def RanKeeps (s : State) : Ran → Prop
  | .ends _ _ _ t => Keeps s t
  | .goesOn _ t => Keeps s t
  | .nothing => True

theorem State.setReg_keeps {s₀ s : State} (h : Keeps s₀ s) (p e v : Nat) : Keeps s₀ (s.setReg p e v) :=
  ⟨h.queue, fun w => Sparse.wf_put _ _ (h.params w), h.tiles, h.pages, h.dies, h.events, h.staged, h.retired⟩

theorem State.setVal_keeps {s₀ s : State} (h : Keeps s₀ s) (p : Nat) (v : Nat) :
    Keeps s₀ (State.setVal s p v) := by
  unfold State.setVal
  try dsimp only
  refine State.setReg_keeps ?_ ..
  assumption

theorem State.bump_keeps {s₀ s : State} (h : Keeps s₀ s) (p : Nat) (e : Nat) (n : Nat) (bytes : Nat) :
    Keeps s₀ (State.bump s p e n bytes) := by
  unfold State.bump
  try dsimp only
  refine State.setReg_keeps ?_ ..
  assumption

theorem State.bump64_keeps {s₀ s : State} (h : Keeps s₀ s) (p : Nat) (e : Nat) (n : Nat) :
    Keeps s₀ (State.bump64 s p e n) := by
  unfold State.bump64
  try dsimp only
  refine State.bump_keeps ?_ ..
  assumption

theorem State.bump32_keeps {s₀ s : State} (h : Keeps s₀ s) (p : Nat) (e : Nat) (n : Nat) :
    Keeps s₀ (State.bump32 s p e n) := by
  unfold State.bump32
  try dsimp only
  refine State.bump_keeps ?_ ..
  assumption

theorem State.reach_keeps {s₀ s : State} (h : Keeps s₀ s) (t : Nat) :
    Keeps s₀ (State.reach s t) := by
  unfold State.reach
  try dsimp only
  refine Keeps.mk1 ?_ _ _ _ _ _ _ _ _ _ _ _ _ _ _ _ _ _ _ _ rfl rfl rfl rfl rfl rfl
  assumption

theorem State.emit_keeps {s₀ s : State} (h : Keeps s₀ s) (e : Emission) :
    Keeps s₀ (State.emit s e) := by
  unfold State.emit
  try dsimp only
  refine Keeps.mk1 ?_ _ _ _ _ _ _ _ _ _ _ _ _ _ _ _ _ _ _ _ rfl rfl rfl rfl rfl rfl
  assumption

theorem State.draw_keeps {s₀ s : State} (h : Keeps s₀ s) :
    Keeps s₀ (State.draw s).2 := by
  unfold State.draw
  try dsimp only
  refine Keeps.mk1 ?_ _ _ _ _ _ _ _ _ _ _ _ _ _ _ _ _ _ _ _ rfl rfl rfl rfl rfl rfl
  assumption

theorem State.storeEvent_keeps {s₀ s : State} (h : Keeps s₀ s) (e : Event) : Keeps s₀ (s.storeEvent e) := by
  have hk : ∀ (u : State) (n : Nat) (q : List (Nat × List Byte)) (es : List Event), Keeps s₀ u →
      Keeps s₀ { u with log := { u.log with events := e :: es.take 255, ringNext := n, sinkQueue := q } } :=
    fun u n q es hu => Keeps.mkLog hu _ _ fun _ => by
      simp only [List.length_cons, List.length_take]; omega
  unfold State.storeEvent
  refine State.setVal_keeps ?_ ..
  dsimp only
  refine hk _ _ _ _ ?_
  repeat' split
  all_goals first | exact h | exact State.bump64_keeps h ..

/-- Coalescing adds no record. -/
theorem coalesceIn_length (a b c : Nat) (es : List Event) : (coalesceIn a b c es).length = es.length := by
  induction es with
  | nil => rfl
  | cons e es ih =>
    unfold coalesceIn
    split
    · rfl
    · simp [ih]
theorem State.raiseEventOf_keeps {s₀ s : State} (h : Keeps s₀ s) (step cls code source d0 d1 : Nat) :
    Keeps s₀ (s.raiseEventOf step cls code source d0 d1) := by
  have h' := State.bump64_keeps h P.eventsRaised cls 1
  unfold State.raiseEventOf
  dsimp only
  split_ifs
  · refine State.bump64_keeps ?_ _ _ _
    exact Keeps.mkLog (u := s.bump64 P.eventsRaised cls 1) h' _ _ fun w => by rw [coalesceIn_length]; exact w
  · exact State.storeEvent_keeps h' _

theorem State.raiseEvent_keeps {s₀ s : State} (h : Keeps s₀ s) (cls : Nat) (code : Nat) (source : Nat) (d0 : Nat) (d1 : Nat) :
    Keeps s₀ (State.raiseEvent s cls code source d0 d1) := by
  unfold State.raiseEvent
  try dsimp only
  refine State.raiseEventOf_keeps ?_ ..
  assumption

theorem State.setDie_keeps {s₀ s : State} (h : Keeps s₀ s) (sl : Nat) (d : Die) : Keeps s₀ (s.setDie sl d) :=
  ⟨h.queue, h.params, h.tiles, h.pages, fun w => Sparse.wf_put _ _ (h.dies w), h.events, h.staged, h.retired⟩

theorem State.condition_keeps {s₀ s : State} (h : Keeps s₀ s) (w : Nat) :
    Keeps s₀ (State.condition s w) := by
  unfold State.condition
  try dsimp only
  split
  · assumption
  · split
    · split
      · refine State.bump64_keeps ?_ ..
        refine Keeps.mk1 ?_ _ _ _ _ _ _ _ _ _ _ _ _ _ _ _ _ _ _ _ rfl rfl rfl rfl rfl rfl
        assumption
      · refine Keeps.mk1 ?_ _ _ _ _ _ _ _ _ _ _ _ _ _ _ _ _ _ _ _ rfl rfl rfl rfl rfl rfl
        assumption
    · refine State.setVal_keeps ?_ ..
      assumption

theorem State.setPage_keeps {s₀ s : State} (h : Keeps s₀ s) (p e : Nat) : Keeps s₀ (s.setPage p e) :=
  ⟨h.queue, h.params, h.tiles, fun w => Sparse.wf_put _ _ (h.pages w), h.dies, h.events, h.staged, h.retired⟩

theorem State.putTile_keeps {s₀ s : State} (h : Keeps s₀ s) (id : Nat) (t : Tile) : Keeps s₀ (s.putTile id t) :=
  ⟨h.queue, h.params, fun w => Sparse.wf_put _ _ (h.tiles w), h.pages, h.dies, h.events, h.staged, h.retired⟩

theorem State.putStored_keeps {s₀ s : State} (h : Keeps s₀ s) (id : Nat) (t : Tile) :
    Keeps s₀ (State.putStored s id t) := by
  unfold State.putStored
  try dsimp only
  split
  · refine Keeps.mk1 ?_ _ _ _ _ _ _ _ _ _ _ _ _ _ _ _ _ _ _ _ rfl rfl rfl rfl rfl rfl
    refine State.putTile_keeps ?_ ..
    assumption
  · refine State.putTile_keeps ?_ ..
    assumption

theorem State.unmappedAccess_keeps {s₀ s : State} (h : Keeps s₀ s) (acct : Nat) (id : Nat) :
    Keeps s₀ (State.unmappedAccess s acct id) := by
  unfold State.unmappedAccess
  try dsimp only
  split
  · refine State.bump64_keeps ?_ ..
    assumption
  · refine State.raiseEvent_keeps ?_ ..
    refine Keeps.mk1 ?_ _ _ _ _ _ _ _ _ _ _ _ _ _ _ _ _ _ _ _ rfl rfl rfl rfl rfl rfl
    refine State.bump64_keeps ?_ ..
    assumption

theorem State.readRaw_keeps {s₀ s : State} (h : Keeps s₀ s) (acct : Nat) (id : Nat) (w : Nat) :
    Keeps s₀ (State.readRaw s acct id w).2.2 := by
  unfold State.readRaw
  try dsimp only
  split
  · dsimp only
    refine State.unmappedAccess_keeps ?_ ..
    assumption
  · dsimp only
    refine State.unmappedAccess_keeps ?_ ..
    assumption
  · assumption
  · assumption

theorem State.readOperand_keeps {s₀ s : State} (h : Keeps s₀ s) (sl : Nat) (id : Nat) (f : Fmt) :
    Keeps s₀ (State.readOperand s sl id f).2 := by
  unfold State.readOperand
  try dsimp only
  split
  · dsimp only
    refine State.unmappedAccess_keeps ?_ ..
    assumption
  · dsimp only
    refine State.unmappedAccess_keeps ?_ ..
    assumption
  · split
    · assumption
    · split
      · dsimp only
        refine State.bump64_keeps ?_ ..
        assumption
      · dsimp only
        split
        · assumption
        · refine State.bump64_keeps ?_ ..
          assumption
  · split
    · assumption
    · split
      · dsimp only
        refine State.bump64_keeps ?_ ..
        assumption
      · dsimp only
        split
        · assumption
        · refine State.bump64_keeps ?_ ..
          assumption

theorem State.countLayer_keeps {s₀ s : State} (h : Keeps s₀ s) (layer : Nat) (source : Nat) (t : Tile) :
    Keeps s₀ (State.countLayer s layer source t) := by
  unfold State.countLayer
  try dsimp only
  refine State.bump64_keeps ?_ ..
  refine State.bump64_keeps ?_ ..
  refine State.bump64_keeps ?_ ..
  refine State.bump64_keeps ?_ ..
  assumption

theorem State.countTileLayer_keeps {s₀ s : State} (h : Keeps s₀ s) (id : Nat) (source : Nat) (t : Tile) :
    Keeps s₀ (State.countTileLayer s id source t) := by
  unfold State.countTileLayer
  try dsimp only
  split
  · refine State.countLayer_keeps ?_ ..
    assumption
  · assumption

theorem State.storeTile_keeps {s₀ s : State} (h : Keeps s₀ s) (acct : Nat) (id : Nat) (cls : Nat) (t : Tile) :
    Keeps s₀ (State.storeTile s acct id cls t).2 := by
  unfold State.storeTile
  try dsimp only
  split
  · dsimp only
    refine State.unmappedAccess_keeps ?_ ..
    assumption
  · dsimp only
    refine State.raiseEvent_keeps ?_ ..
    refine State.bump64_keeps ?_ ..
    assumption
  · dsimp only
    refine State.raiseEvent_keeps ?_ ..
    refine State.bump64_keeps ?_ ..
    assumption
  · split
    · dsimp only
      refine State.putStored_keeps ?_ ..
      assumption
    · dsimp only
      refine State.bump64_keeps ?_ ..
      refine State.putStored_keeps ?_ ..
      assumption

theorem State.verifyTile_keeps {s₀ s : State} (h : Keeps s₀ s) (acct : Nat) (id : Nat) (width : Nat) (t : Tile) (verify : Bool) :
    Keeps s₀ (State.verifyTile s acct id width t verify).2 := by
  unfold State.verifyTile
  try dsimp only
  split
  · dsimp only
    refine State.raiseEvent_keeps ?_ ..
    refine State.bump64_keeps ?_ ..
    assumption
  · assumption

theorem State.operandDelay_keeps {s₀ s : State} (h : Keeps s₀ s) (sl : Nat) (ids : List Nat) :
    Keeps s₀ (State.operandDelay s sl ids).2 := by
  unfold State.operandDelay
  try dsimp only
  split
  · assumption
  · dsimp only
    refine State.draw_keeps ?_ ..
    assumption

theorem State.startLoads_keeps {s₀ s : State} (h : Keeps s₀ s) (ps : List Nat) :
    Keeps s₀ (State.startLoads s ps) := by
  unfold State.startLoads
  try dsimp only
  refine Keeps.mk1 ?_ _ _ _ _ _ _ _ _ _ _ _ _ _ _ _ _ _ _ _ rfl rfl rfl rfl rfl rfl
  assumption

theorem State.tileWrite_keeps {s₀ s : State} (h : Keeps s₀ s) (w : TileWrite) :
    Keeps s₀ (State.tileWrite s w) := by
  unfold State.tileWrite
  try dsimp only
  split
  · refine Keeps.of_pair ‹_› ?_
    refine State.storeTile_keeps ?_ ..
    assumption
  · split
    · refine State.countTileLayer_keeps ?_ ..
      refine State.condition_keeps ?_ ..
      refine Keeps.of_pair ‹_› ?_
      refine State.storeTile_keeps ?_ ..
      assumption
    · refine State.condition_keeps ?_ ..
      refine Keeps.of_pair ‹_› ?_
      refine State.storeTile_keeps ?_ ..
      assumption

theorem State.write_keeps {s₀ s : State} (h : Keeps s₀ s) (w : TileWrite) :
    Keeps s₀ (State.write s w) := by
  unfold State.write
  try dsimp only
  split
  · refine State.tileWrite_keeps ?_ ..
    assumption
  · refine Keeps.mk1 ?_ _ _ _ _ _ _ _ _ _ _ _ _ _ _ _ _ _ _ _ rfl rfl rfl rfl rfl rfl
    refine State.startLoads_keeps ?_ ..
    assumption

theorem State.releaseWrites_keeps {s₀ s : State} (h : Keeps s₀ s) (p : Nat) :
    Keeps s₀ (State.releaseWrites s p) := by
  unfold State.releaseWrites
  try dsimp only
  refine Keeps.foldl (fun t x ht => ?_) ?_ _
  · refine State.tileWrite_keeps ?_ ..
    assumption
  · refine Keeps.mk1 ?_ _ _ _ _ _ _ _ _ _ _ _ _ _ _ _ _ _ _ _ rfl rfl rfl rfl rfl rfl
    assumption

theorem State.writeTile_keeps {s₀ s : State} (h : Keeps s₀ s) (acct : Nat) (w : Writer) (ovfBit : Nat) (id : Nat) (cls : Nat) (t : Tile) :
    Keeps s₀ (State.writeTile s acct w ovfBit id cls t) := by
  unfold State.writeTile
  try dsimp only
  refine State.write_keeps ?_ ..
  assumption

theorem State.refillTo_keeps {s₀ s : State} (h : Keeps s₀ s) (b : Nat) (t : Nat) :
    Keeps s₀ (State.refillTo s b t) := by
  unfold State.refillTo
  try dsimp only
  refine Keeps.mk1 ?_ _ _ _ _ _ _ _ _ _ _ _ _ _ _ _ _ _ _ _ rfl rfl rfl rfl rfl rfl
  assumption

theorem State.refill_keeps {s₀ s : State} (h : Keeps s₀ s) (b : Nat) :
    Keeps s₀ (State.refill s b) := by
  unfold State.refill
  try dsimp only
  refine State.refillTo_keeps ?_ ..
  assumption

theorem State.accountGear_keeps {s₀ s : State} (h : Keeps s₀ s) :
    Keeps s₀ (State.accountGear s) := by
  unfold State.accountGear
  try dsimp only
  refine Keeps.mk1 ?_ _ _ _ _ _ _ _ _ _ _ _ _ _ _ _ _ _ _ _ rfl rfl rfl rfl rfl rfl
  assumption

theorem State.debit_keeps {s₀ s : State} (h : Keeps s₀ s) (sl : Nat) (charge : Nat) :
    Keeps s₀ (State.debit s sl charge) := by
  unfold State.debit
  try dsimp only
  refine Keeps.mk1 ?_ _ _ _ _ _ _ _ _ _ _ _ _ _ _ _ _ _ _ _ rfl rfl rfl rfl rfl rfl
  assumption

theorem State.passSlot_keeps {s₀ s : State} (h : Keeps s₀ s) (sl : Nat) (c : Nat) :
    Keeps s₀ (State.passSlot s sl c) := by
  unfold State.passSlot
  try dsimp only
  split
  · assumption
  · split
    · refine State.bump64_keeps ?_ ..
      refine Keeps.mk1 ?_ _ _ _ _ _ _ _ _ _ _ _ _ _ _ _ _ _ _ _ rfl rfl rfl rfl rfl rfl
      refine State.setDie_keeps ?_ ..
      assumption
    · refine State.setDie_keeps ?_ ..
      assumption

theorem State.passBase_keeps {s₀ s : State} (h : Keeps s₀ s) (b : Nat) :
    Keeps s₀ (State.passBase s b) := by
  unfold State.passBase
  try dsimp only
  refine State.refillTo_keeps ?_ ..
  refine Keeps.foldl (fun t x ht => ?_) ?_ _
  · refine State.passSlot_keeps ?_ ..
    assumption
  · assumption

theorem State.passAcs_keeps {s₀ s : State} (h : Keeps s₀ s) (b n : Nat) : Keeps s₀ (State.passAcs b n s) := by
  induction n generalizing s with
  | zero => exact h
  | succ n ih =>
    unfold State.passAcs
    split
    · exact ih (State.passBase_keeps h ..)
    · exact h

theorem State.catchUp_keeps {s₀ s : State} (h : Keeps s₀ s) (b : Nat) :
    Keeps s₀ (State.catchUp s b) := by
  unfold State.catchUp
  try dsimp only
  refine State.refill_keeps ?_ ..
  refine State.passAcs_keeps ?_ ..
  assumption

theorem State.catchUpAll_keeps {s₀ s : State} (h : Keeps s₀ s) :
    Keeps s₀ (State.catchUpAll s) := by
  unfold State.catchUpAll
  try dsimp only
  refine Keeps.foldl (fun t x ht => ?_) ?_ _
  · refine State.catchUp_keeps ?_ ..
    assumption
  · assumption

theorem State.regear_keeps {s₀ s : State} (h : Keeps s₀ s) :
    Keeps s₀ (State.regear s) := by
  unfold State.regear
  try dsimp only
  refine Keeps.foldl (fun t x ht => ?_) ?_ _
  · refine State.setReg_keeps ?_ ..
    assumption
  · refine State.setReg_keeps ?_ ..
    refine State.setReg_keeps ?_ ..
    refine Keeps.mk1 ?_ _ _ _ _ _ _ _ _ _ _ _ _ _ _ _ _ _ _ _ rfl rfl rfl rfl rfl rfl
    refine State.accountGear_keeps ?_ ..
    refine State.catchUpAll_keeps ?_ ..
    assumption

theorem State.drainBudget_keeps {s₀ s : State} (h : Keeps s₀ s) :
    Keeps s₀ (State.drainBudget s) := by
  unfold State.drainBudget
  try dsimp only
  refine Keeps.mk1 ?_ _ _ _ _ _ _ _ _ _ _ _ _ _ _ _ _ _ _ _ rfl rfl rfl rfl rfl rfl
  refine State.catchUpAll_keeps ?_ ..
  assumption

theorem State.nextAc_keeps {s₀ s : State} (h : Keeps s₀ s) (sl : Nat) :
    Keeps s₀ (State.nextAc s sl) := by
  unfold State.nextAc
  try dsimp only
  refine State.catchUp_keeps ?_ ..
  refine State.reach_keeps ?_ ..
  assumption

theorem State.atAc_keeps {s₀ s : State} (h : Keeps s₀ s) (sl : Nat) :
    Keeps s₀ (State.atAc s sl) := by
  unfold State.atAc
  try dsimp only
  refine State.catchUp_keeps ?_ ..
  refine State.reach_keeps ?_ ..
  assumption

theorem State.seek_keeps {s₀ s : State} (h : Keeps s₀ s) (sl st n : Nat) : Keeps s₀ (State.seek sl st n s) := by
  induction n generalizing s with
  | zero => exact h
  | succ n ih =>
    unfold State.seek
    split
    · exact h
    · exact ih (State.nextAc_keeps h ..)

theorem State.awaitDue_keeps {s₀ s : State} (h : Keeps s₀ s) (sl st n : Nat) : Keeps s₀ (State.awaitDue sl st n s) := by
  induction n generalizing s with
  | zero => exact h
  | succ n ih =>
    unfold State.awaitDue
    split
    · exact h
    · exact ih (State.nextAc_keeps h ..)

theorem State.account_keeps {s₀ s : State} (h : Keeps s₀ s) (sl : Nat) :
    Keeps s₀ (State.account s sl) := by
  unfold State.account
  try dsimp only
  split
  · refine State.setDie_keeps ?_ ..
    refine State.catchUp_keeps ?_ ..
    assumption
  · refine State.setDie_keeps ?_ ..
    refine State.bump64_keeps ?_ ..
    refine State.bump64_keeps ?_ ..
    refine State.catchUp_keeps ?_ ..
    assumption

theorem State.accountAll_keeps {s₀ s : State} (h : Keeps s₀ s) :
    Keeps s₀ (State.accountAll s) := by
  unfold State.accountAll
  try dsimp only
  refine Keeps.foldl (fun t x ht => ?_) ?_ _
  · refine State.account_keeps ?_ ..
    assumption
  · assumption

theorem State.recordCollision_keeps {s₀ s : State} (h : Keeps s₀ s) (sl : Nat) (st : Nat) (f : Flight) (hz : Nat) (r : Res) :
    Keeps s₀ (State.recordCollision s sl st f hz r) := by
  unfold State.recordCollision
  try dsimp only
  split
  · assumption
  · split
    · refine State.bump64_keeps ?_ ..
      refine State.setDie_keeps ?_ ..
      assumption
    · refine State.raiseEvent_keeps ?_ ..
      refine State.setVal_keeps ?_ ..
      refine State.bump64_keeps ?_ ..
      refine State.setDie_keeps ?_ ..
      assumption

theorem State.passOver_keeps {s₀ s : State} (h : Keeps s₀ s) (sl : Nat) (st : Nat) (c : Nat) :
    Keeps s₀ (State.passOver s sl st c) := by
  unfold State.passOver
  try dsimp only
  refine State.setDie_keeps ?_ ..
  assumption

theorem State.prepareIssue_keeps {s₀ s : State} (h : Keeps s₀ s) (sl : Nat) (st : Nat) (e : Nat) :
    Keeps s₀ (State.prepareIssue s sl st e) := by
  unfold State.prepareIssue
  try dsimp only
  refine State.setDie_keeps ?_ ..
  refine State.bump64_keeps ?_ ..
  refine State.debit_keeps ?_ ..
  refine State.passOver_keeps ?_ ..
  refine State.account_keeps ?_ ..
  assumption

theorem State.startUnit_keeps {s₀ s : State} (h : Keeps s₀ s) (c : Ctx) (cold : List Nat) (act : State → Ctx → Issued)
    (ha : ∀ u c, Keeps s₀ u → Keeps s₀ (act u c).state) : Keeps s₀ (s.startUnit c cold act).state := by
  have h' := State.startLoads_keeps h cold
  unfold State.startUnit
  split
  · exact ha _ _ h'
  · exact h'

theorem State.issueNow_keeps {s₀ s : State} (h : Keeps s₀ s) (sl st e : Nat) (act : State → Ctx → Issued)
    (ha : ∀ u c, Keeps s₀ u → Keeps s₀ (act u c).state) : Keeps s₀ (s.issueNow sl st e act) := by
  unfold State.issueNow
  exact State.setDie_keeps (State.startUnit_keeps (State.prepareIssue_keeps h ..) _ _ _ ha) ..

theorem State.tryIssue_keeps {s₀ s : State} (h : Keeps s₀ s) (sl st : Nat) (op : Nat → Bool)
    (act : State → Ctx → Issued) (ha : ∀ u c, Keeps s₀ u → Keeps s₀ (act u c).state) :
    Keeps s₀ (s.tryIssue sl st op act) := by
  unfold State.tryIssue
  dsimp only
  split
  · exact h
  · split
    · exact h
    · have hu := State.seek_keeps (State.atAc_keeps h sl) sl st (s.seekBound sl ‹_›)
      split
      · exact State.issueNow_keeps hu _ _ _ _ ha
      · split
        · split
          · exact State.recordCollision_keeps hu ..
          · exact h
        · exact h

theorem State.addToken_keeps {s₀ s : State} (h : Keeps s₀ s) (sl : Nat) (t : Nat) (n : Nat) :
    Keeps s₀ (State.addToken s sl t n) := by
  unfold State.addToken
  try dsimp only
  split
  · refine State.bump32_keeps ?_ ..
    refine State.setDie_keeps ?_ ..
    refine State.account_keeps ?_ ..
    assumption
  · refine State.setDie_keeps ?_ ..
    refine State.account_keeps ?_ ..
    assumption

theorem State.applyRaise_keeps {s₀ s : State} (h : Keeps s₀ s) (r : HeldRaise) :
    Keeps s₀ (State.applyRaise s r) := by
  unfold State.applyRaise
  try dsimp only
  split
  · refine State.addToken_keeps ?_ ..
    assumption
  · split
    · refine Keeps.mk1 ?_ _ _ _ _ _ _ _ _ _ _ _ _ _ _ _ _ _ _ _ rfl rfl rfl rfl rfl rfl
      assumption
    · refine State.bump32_keeps ?_ ..
      assumption

theorem State.dropCheck_keeps {s₀ s : State} (h : Keeps s₀ s) (reason : Nat) :
    Keeps s₀ (State.dropCheck s reason) := by
  unfold State.dropCheck
  try dsimp only
  refine State.bump64_keeps ?_ ..
  refine State.bump64_keeps ?_ ..
  assumption

theorem State.startCheck_keeps {s₀ s : State} (h : Keeps s₀ s) (sl : Nat) (a : Nat) (st : Nat) (index : Nat) (flight : Nat) (conv : ConvIn) (convPoi : Bool) :
    Keeps s₀ (State.startCheck s sl a st index flight conv convPoi) := by
  unfold State.startCheck
  try dsimp only
  split
  · refine State.dropCheck_keeps ?_ ..
    assumption
  · split
    · refine State.dropCheck_keeps ?_ ..
      assumption
    · refine Keeps.mk1 ?_ _ _ _ _ _ _ _ _ _ _ _ _ _ _ _ _ _ _ _ rfl rfl rfl rfl rfl rfl
      assumption

theorem State.captureSwap_keeps {s₀ s : State} (h : Keeps s₀ s) (sl : Nat) (a : Nat) (flight : Nat) (cap : RiffleCap) (set : AccSet) (fo : Fmt) :
    Keeps s₀ (State.captureSwap s sl a flight cap set fo) := by
  unfold State.captureSwap
  try dsimp only
  split
  · assumption
  · split
    · refine State.dropCheck_keeps ?_ ..
      refine Keeps.mk1 ?_ _ _ _ _ _ _ _ _ _ _ _ _ _ _ _ _ _ _ _ rfl rfl rfl rfl rfl rfl
      assumption
    · refine Keeps.mk1 ?_ _ _ _ _ _ _ _ _ _ _ _ _ _ _ _ _ _ _ _ rfl rfl rfl rfl rfl rfl
      assumption

theorem State.captureTile_keeps {s₀ s : State} (h : Keeps s₀ s) (sl : Nat) (a : Nat) (flight : Nat) (t : Tile) :
    Keeps s₀ (State.captureTile s sl a flight t) := by
  unfold State.captureTile
  try dsimp only
  refine Keeps.mk1 ?_ _ _ _ _ _ _ _ _ _ _ _ _ _ _ _ _ _ _ _ rfl rfl rfl rfl rfl rfl
  assumption

end Sys2Proof.Machine
end

