-- ==== Sys2Proof/Laws/KeepsCompute.lean ====
section
/-! SUPPORT. What the operations of the arrays, the tier map, the backwater and the move engine keep. -/

namespace Sys2Proof.Machine

theorem State.setArray_keeps {s₀ s : State} (h : Keeps s₀ s) (sl : Nat) (a : Nat) (x : ArrayState) :
    Keeps s₀ (State.setArray s sl a x) := by
  unfold State.setArray
  try dsimp only
  refine State.setDie_keeps ?_ ..
  assumption

theorem modeAct_keeps {s₀ s : State} (h : Keeps s₀ s) (c : Ctx) :
    Keeps s₀ (modeAct s c).state := by
  unfold modeAct
  try dsimp only
  refine State.setArray_keeps ?_ ..
  assumption

theorem State.fillMma_keeps {s₀ s : State} (h : Keeps s₀ s) (sl : Nat) (j : MmaJob) :
    Keeps s₀ (State.fillMma s sl j).2 := by
  unfold State.fillMma
  try dsimp only
  refine State.readOperand_keeps ?_ ..
  refine State.readOperand_keeps ?_ ..
  refine State.operandDelay_keeps ?_ ..
  assumption

theorem mmaAct_keeps {s₀ s : State} (h : Keeps s₀ s) (c : Ctx) :
    Keeps s₀ (mmaAct s c).state := by
  unfold mmaAct
  try dsimp only
  refine State.setArray_keeps ?_ ..
  split
  · assumption
  · refine State.fillMma_keeps ?_ ..
    assumption

theorem drainAct_keeps {s₀ s : State} (h : Keeps s₀ s) (c : Ctx) :
    Keeps s₀ (drainAct s c).state := by
  unfold drainAct
  try dsimp only
  refine State.setArray_keeps ?_ ..
  split
  · refine State.startCheck_keeps ?_ ..
    assumption
  · assumption

theorem State.noteLatch_keeps {s₀ s : State} (h : Keeps s₀ s) (ix : Nat) (word : Nat) (missed : Bool) :
    Keeps s₀ (State.noteLatch s ix word missed) := by
  unfold State.noteLatch
  try dsimp only
  split
  · assumption
  · refine Keeps.mk1 ?_ _ _ _ _ _ _ _ _ _ _ _ _ _ _ _ _ _ _ _ rfl rfl rfl rfl rfl rfl
    assumption

theorem State.offerLatch_keeps {s₀ s : State} (h : Keeps s₀ s) (sl : Nat) (a : Nat) (r : OffenderRec) :
    Keeps s₀ (State.offerLatch s sl a r) := by
  unfold State.offerLatch
  try dsimp only
  split
  · assumption
  · split
    · refine State.bump32_keeps ?_ ..
      refine State.noteLatch_keeps ?_ ..
      assumption
    · refine State.setVal_keeps ?_ ..
      refine State.noteLatch_keeps ?_ ..
      assumption

theorem State.rearmLatch_keeps {s₀ s : State} (h : Keeps s₀ s) (ix : Nat) :
    Keeps s₀ (State.rearmLatch s ix) := by
  unfold State.rearmLatch
  try dsimp only
  split
  · refine State.setVal_keeps ?_ ..
    assumption
  · split
    · refine State.setReg_keeps ?_ ..
      refine State.setVal_keeps ?_ ..
      assumption
    · refine State.setVal_keeps ?_ ..
      assumption

theorem State.offerPass_keeps {s₀ s : State} (h : Keeps s₀ s) (sl : Nat) (a : Nat) (j : MmaJob) (i : Nat) (ps : List PassSum) :
    Keeps s₀ (State.offerPass s sl a j i ps) := by
  unfold State.offerPass
  try dsimp only
  refine Keeps.foldl (fun t x ht => ?_) ?_ _
  · split
    · assumption
    · split
      · assumption
      · refine State.offerLatch_keeps ?_ ..
        assumption
  · assumption

theorem State.countPass_keeps {s₀ s : State} (h : Keeps s₀ s) (sl : Nat) (ps : List PassSum) :
    Keeps s₀ (State.countPass s sl ps) := by
  unfold State.countPass
  try dsimp only
  refine State.bump64_keeps ?_ ..
  refine State.bump64_keeps ?_ ..
  refine State.bump64_keeps ?_ ..
  refine State.bump64_keeps ?_ ..
  assumption

theorem passEnterStep_keeps {s₀ s : State} (h : Keeps s₀ s) (sl : Nat) (a : Nat) :
    Keeps s₀ (passEnterStep s sl a) := by
  unfold passEnterStep
  try dsimp only
  split
  · assumption
  · split
    · split
      · assumption
      · refine State.setArray_keeps ?_ ..
        refine State.offerPass_keeps ?_ ..
        refine State.countPass_keeps ?_ ..
        refine State.reach_keeps ?_ ..
        assumption
    · split
      · assumption
      · refine State.setArray_keeps ?_ ..
        refine State.offerPass_keeps ?_ ..
        refine State.countPass_keeps ?_ ..
        refine State.reach_keeps ?_ ..
        assumption

theorem State.flightReady_keeps {s₀ s : State} (h : Keeps s₀ s) (sl : Nat) (id : Nat) (t : Nat) :
    Keeps s₀ (State.flightReady s sl id t) := by
  unfold State.flightReady
  try dsimp only
  refine State.setDie_keeps ?_ ..
  assumption

theorem passSumAddStep_keeps {s₀ s : State} (h : Keeps s₀ s) (sl : Nat) (a : Nat) :
    Keeps s₀ (passSumAddStep s sl a) := by
  unfold passSumAddStep
  try dsimp only
  split
  · assumption
  · split
    · assumption
    · split
      · refine State.flightReady_keeps ?_ ..
        refine State.bump64_keeps ?_ ..
        refine State.bump64_keeps ?_ ..
        refine State.bump64_keeps ?_ ..
        split
        · split
          · refine State.bump64_keeps ?_ ..
            refine State.setArray_keeps ?_ ..
            refine State.reach_keeps ?_ ..
            assumption
          · refine State.setArray_keeps ?_ ..
            refine State.reach_keeps ?_ ..
            assumption
        · split
          · refine State.bump64_keeps ?_ ..
            refine State.setArray_keeps ?_ ..
            refine State.reach_keeps ?_ ..
            assumption
          · refine State.setArray_keeps ?_ ..
            refine State.reach_keeps ?_ ..
            assumption
      · refine State.bump64_keeps ?_ ..
        refine State.bump64_keeps ?_ ..
        refine State.bump64_keeps ?_ ..
        split
        · split
          · refine State.bump64_keeps ?_ ..
            refine State.setArray_keeps ?_ ..
            refine State.reach_keeps ?_ ..
            assumption
          · refine State.setArray_keeps ?_ ..
            refine State.reach_keeps ?_ ..
            assumption
        · split
          · refine State.bump64_keeps ?_ ..
            refine State.setArray_keeps ?_ ..
            refine State.reach_keeps ?_ ..
            assumption
          · refine State.setArray_keeps ?_ ..
            refine State.reach_keeps ?_ ..
            assumption

theorem halfConversionStep_keeps {s₀ s : State} (h : Keeps s₀ s) (sl : Nat) (a : Nat) :
    Keeps s₀ (halfConversionStep s sl a) := by
  unfold halfConversionStep
  try dsimp only
  split
  · assumption
  · split
    · assumption
    · refine State.bump64_keeps ?_ ..
      refine State.bump64_keeps ?_ ..
      refine State.setArray_keeps ?_ ..
      assumption

theorem drainSwapStep_keeps {s₀ s : State} (h : Keeps s₀ s) (sl : Nat) (a : Nat) :
    Keeps s₀ (drainSwapStep s sl a) := by
  unfold drainSwapStep
  try dsimp only
  split
  · assumption
  · split
    · assumption
    · refine State.setArray_keeps ?_ ..
      split
      · refine State.captureSwap_keeps ?_ ..
        refine State.reach_keeps ?_ ..
        assumption
      · refine State.reach_keeps ?_ ..
        assumption

theorem State.countRows_keeps {s₀ s : State} (h : Keeps s₀ s) (sl : Nat) (c : Conv) (from' : Nat) (to' : Nat) :
    Keeps s₀ (State.countRows s sl c from' to') := by
  unfold State.countRows
  try dsimp only
  split
  · assumption
  · refine State.bump64_keeps ?_ ..
    refine State.bump64_keeps ?_ ..
    refine State.bump64_keeps ?_ ..
    assumption

theorem State.countReads_keeps {s₀ s : State} (h : Keeps s₀ s) (sl : Nat) (a : Nat) :
    Keeps s₀ (State.countReads s sl a) := by
  unfold State.countReads
  try dsimp only
  refine State.setArray_keeps ?_ ..
  refine Keeps.foldl (fun t x ht => ?_) ?_ _
  · refine State.countRows_keeps ?_ ..
    assumption
  · assumption

theorem State.countAllReads_keeps {s₀ s : State} (h : Keeps s₀ s) :
    Keeps s₀ (State.countAllReads s) := by
  unfold State.countAllReads
  try dsimp only
  refine Keeps.foldl (fun t x ht => ?_) ?_ _
  · refine State.countReads_keeps ?_ ..
    refine State.countReads_keeps ?_ ..
    assumption
  · assumption

theorem conversionEndStep_keeps {s₀ s : State} (h : Keeps s₀ s) (sl : Nat) (a : Nat) :
    Keeps s₀ (conversionEndStep s sl a) := by
  unfold conversionEndStep
  try dsimp only
  split
  · assumption
  · refine State.setDie_keeps ?_ ..
    refine State.captureTile_keeps ?_ ..
    refine State.bump64_keeps ?_ ..
    refine State.countRows_keeps ?_ ..
    refine State.setArray_keeps ?_ ..
    refine State.reach_keeps ?_ ..
    assumption

theorem State.setShardRec_keeps {s₀ s : State} (h : Keeps s₀ s) (sh : Nat) (r : Nat) :
    Keeps s₀ (State.setShardRec s sh r) := by
  unfold State.setShardRec
  try dsimp only
  refine State.setReg_keeps ?_ ..
  assumption

theorem State.setLu_keeps {s₀ s : State} (h : Keeps s₀ s) (x : Nat) (v : LuInfo) :
    Keeps s₀ (State.setLu s x v) := by
  unfold State.setLu
  try dsimp only
  refine Keeps.mk1 ?_ _ _ _ _ _ _ _ _ _ _ _ _ _ _ _ _ _ _ _ rfl rfl rfl rfl rfl rfl
  assumption

theorem State.refreshLu_keeps {s₀ s : State} (h : Keeps s₀ s) (x : Nat) :
    Keeps s₀ (State.refreshLu s x) := by
  unfold State.refreshLu
  try dsimp only
  split
  · assumption
  · refine Keeps.foldl (fun t x ht => ?_) ?_ _
    · refine State.putTile_keeps ?_ ..
      assumption
    · assumption

theorem State.markPoison_keeps {s₀ s : State} (h : Keeps s₀ s) (x : Nat) :
    Keeps s₀ (State.markPoison s x) := by
  unfold State.markPoison
  try dsimp only
  refine State.refreshLu_keeps ?_ ..
  refine State.setLu_keeps ?_ ..
  assumption

theorem State.dropLus_keeps {s₀ s : State} (h : Keeps s₀ s) (mine : Nat → Bool) :
    Keeps s₀ (State.dropLus s mine) := by
  unfold State.dropLus
  try dsimp only
  refine Keeps.mk1 ?_ _ _ _ _ _ _ _ _ _ _ _ _ _ _ _ _ _ _ _ rfl rfl rfl rfl rfl rfl
  assumption

theorem State.freeCopies_keeps {s₀ s : State} (h : Keeps s₀ s) (e : Nat) :
    Keeps s₀ (State.freeCopies s e) := by
  unfold State.freeCopies
  try dsimp only
  split
  · assumption
  · refine Keeps.mk1 ?_ _ _ _ _ _ _ _ _ _ _ _ _ _ _ _ _ _ _ _ rfl rfl rfl rfl rfl rfl
    assumption

/-- Storing elements keeps the canonical form. -/
theorem putElems_wf {m : Sparse Nat} (w : Sparse.wf paramDefault m = true) (p e : Nat) (vs : List Nat) :
    Sparse.wf paramDefault (putElems m p e vs) = true := by
  induction vs generalizing m e with
  | nil => exact w
  | cons v vs ih => exact ih (Sparse.wf_put _ _ w) _
theorem State.putBytes_keeps {s₀ s : State} (h : Keeps s₀ s) (p off : Nat) (bs : List Byte) :
    Keeps s₀ (s.putBytes p off bs) :=
  ⟨h.queue, fun w => putElems_wf (h.params w) .., h.tiles, h.pages, h.dies, h.events, h.staged, h.retired⟩

theorem State.freeFrame_keeps {s₀ s : State} (h : Keeps s₀ s) (tier : Nat) (frame : Nat) (width : Nat) :
    Keeps s₀ (State.freeFrame s tier frame width) := by
  unfold State.freeFrame
  try dsimp only
  split
  · refine State.dropLus_keeps ?_ ..
    assumption
  · assumption

theorem State.countSpill_keeps {s₀ s : State} (h : Keeps s₀ s) (home : Nat) (spilled : Bool) :
    Keeps s₀ (State.countSpill s home spilled) := by
  unfold State.countSpill
  try dsimp only
  split
  · refine State.bump64_keeps ?_ ..
    assumption
  · assumption

theorem State.dropTiles_keeps {s₀ s : State} (h : Keeps s₀ s) (p : Nat) : Keeps s₀ (s.dropTiles p) :=
  ⟨h.queue, h.params, fun w => Sparse.wf_filter _ (h.tiles w), h.pages, h.dies, h.events, h.staged, h.retired⟩

theorem State.entryChanged_keeps {s₀ s : State} (h : Keeps s₀ s) (p : Nat) :
    Keeps s₀ (State.entryChanged s p) := by
  unfold State.entryChanged
  try dsimp only
  refine Keeps.mk1 ?_ _ _ _ _ _ _ _ _ _ _ _ _ _ _ _ _ _ _ _ rfl rfl rfl rfl rfl rfl
  assumption

theorem State.putPage_keeps {s₀ s : State} (h : Keeps s₀ s) (p : Nat) (e : Nat) :
    Keeps s₀ (State.putPage s p e) := by
  unfold State.putPage
  try dsimp only
  refine State.entryChanged_keeps ?_ ..
  refine State.setPage_keeps ?_ ..
  assumption

theorem State.leaveGranules_keeps {s₀ s : State} (h : Keeps s₀ s) (frame width : Nat) :
    Keeps s₀ (s.leaveGranules frame width).2 :=
  Keeps.mkMem h _ rfl rfl id fun w => by simpa using w

theorem State.unmapPage_keeps {s₀ s : State} (h : Keeps s₀ s) (p : Nat) :
    Keeps s₀ (State.unmapPage s p) := by
  unfold State.unmapPage
  try dsimp only
  split
  · refine State.putPage_keeps ?_ ..
    assumption
  · refine Keeps.foldl (fun t x ht => ?_) ?_ _
    · split
      · refine State.raiseEvent_keeps ?_ ..
        refine State.leaveGranules_keeps ?_ ..
        assumption
      · refine State.leaveGranules_keeps ?_ ..
        assumption
    · refine State.releaseWrites_keeps ?_ ..
      refine State.putPage_keeps ?_ ..
      refine State.dropTiles_keeps ?_ ..
      refine Keeps.mk1 ?_ _ _ _ _ _ _ _ _ _ _ _ _ _ _ _ _ _ _ _ rfl rfl rfl rfl rfl rfl
      refine Keeps.foldl (fun t x ht => ?_) ?_ _
      · refine State.freeFrame_keeps ?_ ..
        assumption
      · refine State.freeFrame_keeps ?_ ..
        assumption

theorem State.mapPage_keeps {s₀ s : State} (h : Keeps s₀ s) (p : Nat) (soft : Nat) (backing : Nat) (a : Nat × Nat × Bool) :
    Keeps s₀ (State.mapPage s p soft backing a) := by
  unfold State.mapPage
  try dsimp only
  refine State.countSpill_keeps ?_ ..
  refine State.putPage_keeps ?_ ..
  refine State.dropTiles_keeps ?_ ..
  refine State.freeFrame_keeps ?_ ..
  assumption

theorem State.startMigration_keeps {s₀ s : State} (h : Keeps s₀ s) (p : Nat) (next : List Nat) {u : State}
    (hu : s.startMigration p next = some u) : Keeps s₀ u := by
  revert u
  unfold State.startMigration
  dsimp only
  split
  · rintro _ ⟨⟩
  · rintro _ ⟨⟩
    refine State.setPage_keeps ?_ ..
    refine Keeps.mk1 ?_ _ _ _ _ _ _ _ _ _ _ _ _ _ _ _ _ _ _ _ rfl rfl rfl rfl rfl rfl
    refine State.freeFrame_keeps ?_ ..
    refine State.countSpill_keeps ?_ ..
    assumption

theorem State.rewriteEntry_keeps {s₀ s : State} (h : Keeps s₀ s) (p w : Nat) {u : State}
    (hu : s.rewriteEntry p w = some u) : Keeps s₀ u := by
  have clear {v : State} (hv : Keeps s₀ v) (c : Bool) (e : Nat) : Keeps s₀ (if c = true then v.freeCopies e else v) := by
    split
    · exact State.freeCopies_keeps hv ..
    · exact hv
  revert u
  unfold State.rewriteEntry
  dsimp only
  split
  · rintro _ ⟨⟩
    refine clear (State.putPage_keeps ?_ ..) _ _
    split
    · exact h
    · exact Keeps.mk1 h _ _ _ _ _ _ _ _ _ _ _ _ _ _ _ _ _ _ _ rfl rfl rfl rfl rfl rfl
  · split
    · rintro _ ⟨⟩
      exact clear (State.putPage_keeps h ..) _ _
    · exact fun hu => State.startMigration_keeps (clear (State.putPage_keeps h ..) _ _) _ _ hu

theorem State.tierStatus_keeps {s₀ s : State} (h : Keeps s₀ s) (code : Nat) (p : Nat) :
    Keeps s₀ (State.tierStatus s code p) := by
  unfold State.tierStatus
  try dsimp only
  refine State.setVal_keeps ?_ ..
  assumption

theorem State.applyFailed_keeps {s₀ s : State} (h : Keeps s₀ s) (code : Nat) (p : Nat) :
    Keeps s₀ (State.applyFailed s code p) := by
  unfold State.applyFailed
  try dsimp only
  refine State.raiseEvent_keeps ?_ ..
  refine State.tierStatus_keeps ?_ ..
  refine State.bump32_keeps ?_ ..
  assumption

theorem State.applyEntry_keeps {s₀ s : State} (h : Keeps s₀ s) (p : Nat) (w : Nat) :
    Keeps s₀ (State.applyEntry s p w) := by
  unfold State.applyEntry
  try dsimp only
  split
  · refine State.applyFailed_keeps ?_ ..
    assumption
  · split
    · refine State.tierStatus_keeps ?_ ..
      refine State.unmapPage_keeps ?_ ..
      assumption
    · split
      · split
        · refine State.applyFailed_keeps ?_ ..
          assumption
        · split
          · refine State.applyFailed_keeps ?_ ..
            assumption
          · refine State.tierStatus_keeps ?_ ..
            refine State.mapPage_keeps ?_ ..
            assumption
      · split
        · split
          · refine State.applyFailed_keeps ?_ ..
            assumption
          · refine State.tierStatus_keeps ?_ ..
            refine State.mapPage_keeps ?_ ..
            refine State.unmapPage_keeps ?_ ..
            assumption
        · split
          · refine State.applyFailed_keeps ?_ ..
            assumption
          · refine State.tierStatus_keeps ?_ ..
            exact State.rewriteEntry_keeps h _ _ ‹_›

theorem State.retryRetirements_keeps {s₀ s : State} (h : Keeps s₀ s) :
    Keeps s₀ (State.retryRetirements s) := by
  unfold State.retryRetirements
  try dsimp only
  refine Keeps.foldl (fun t x ht => ?_) ?_ _
  · split
    · assumption
    · split
      · assumption
      · split
        · assumption
        · refine Keeps.getD ?_ ?_
          · refine fun _ hu => State.startMigration_keeps (hu := hu) ?_ ..
            assumption
          · assumption
  · assumption

theorem State.applyStaged_keeps {s₀ s : State} (h : Keeps s₀ s) : Keeps s₀ s.applyStaged := by
  unfold State.applyStaged
  refine Keeps.foldl (fun t x ht => State.applyEntry_keeps ht ..) ?_ _
  exact Keeps.mkMem h _ rfl rfl (fun _ => Nat.zero_le _) id

theorem State.settleStaged_keeps {s₀ s : State} (h : Keeps s₀ s) :
    Keeps s₀ (State.settleStaged s) := by
  unfold State.settleStaged
  try dsimp only
  split
  · refine State.applyStaged_keeps ?_ ..
    assumption
  · assumption

/-- A write that passes its check finds room in staging (R169, code 0x05). -/
theorem State.checkEntry_room (s : State) (p w : Nat) (h : s.checkEntry p w = 0) : s.mem.staged.length < 65536 := by
  unfold State.checkEntry at h
  dsimp only at h
  split_ifs at h
  omega
theorem State.stageEntry_keeps {s₀ s : State} (h : Keeps s₀ s) (p w : Nat) : Keeps s₀ (s.stageEntry p w) := by
  have h' := State.tierStatus_keeps h (s.checkEntry p w) p
  unfold State.stageEntry
  dsimp only
  split
  · exact h'
  · next hc =>
    refine State.settleStaged_keeps (Keeps.mkMem h' _ rfl rfl (fun _ => ?_) id)
    have := s.checkEntry_room p w (not_not.mp hc)
    rw [List.length_append, List.length_singleton]
    exact this

theorem State.verifyPage_keeps {s₀ s : State} (h : Keeps s₀ s) (p : Nat) :
    Keeps s₀ (State.verifyPage s p) := by
  unfold State.verifyPage
  try dsimp only
  split
  · assumption
  · refine Keeps.foldl (fun t x ht => ?_) ?_ _
    · split
      · assumption
      · refine State.raiseEvent_keeps ?_ ..
        refine State.bump64_keeps ?_ ..
        refine State.putTile_keeps ?_ ..
        assumption
    · assumption

theorem State.writePageLus_keeps {s₀ s : State} (h : Keeps s₀ s) (p : Nat) :
    Keeps s₀ (State.writePageLus s p) := by
  unfold State.writePageLus
  try dsimp only
  split
  · assumption
  · refine Keeps.mk1 ?_ _ _ _ _ _ _ _ _ _ _ _ _ _ _ _ _ _ _ _ rfl rfl rfl rfl rfl rfl
    assumption

theorem State.nextMove_keeps {s₀ s : State} (h : Keeps s₀ s) (p : Nat) (ws : List Nat) :
    Keeps s₀ (State.nextMove p ws s) := by
  induction ws generalizing s with
  | nil => exact h
  | cons w ws ih =>
    unfold State.nextMove
    dsimp only
    split
    · exact ih h
    · split
      · exact State.startMigration_keeps (State.putPage_keeps h ..) _ _ ‹_›
      · exact ih (State.applyFailed_keeps h ..)

theorem migrationCompleteStep_keeps {s₀ s : State} (h : Keeps s₀ s) (p : Nat) :
    Keeps s₀ (migrationCompleteStep s p) := by
  unfold migrationCompleteStep
  try dsimp only
  split
  · assumption
  · refine State.nextMove_keeps ?_ ..
    refine State.raiseEvent_keeps ?_ ..
    refine State.leaveGranules_keeps ?_ ..
    refine State.bump64_keeps ?_ ..
    refine State.writePageLus_keeps ?_ ..
    refine State.putPage_keeps ?_ ..
    refine State.freeFrame_keeps ?_ ..
    refine Keeps.mk1 ?_ _ _ _ _ _ _ _ _ _ _ _ _ _ _ _ _ _ _ _ rfl rfl rfl rfl rfl rfl
    refine State.verifyPage_keeps ?_ ..
    assumption

theorem State.loadTile_keeps {s₀ s : State} (h : Keeps s₀ s) (p : Nat) (k : Nat) :
    Keeps s₀ (State.loadTile s p k).2 := by
  unfold State.loadTile
  try dsimp only
  split
  · dsimp only
    refine State.bump64_keeps ?_ ..
    refine State.putStored_keeps ?_ ..
    assumption
  · dsimp only
    split
    · refine State.putPage_keeps ?_ ..
      refine State.putStored_keeps ?_ ..
      assumption
    · refine State.putStored_keeps ?_ ..
      assumption

theorem backingReloadStep_keeps {s₀ s : State} (h : Keeps s₀ s) (id : Nat) :
    Keeps s₀ (backingReloadStep s id) := by
  unfold backingReloadStep
  try dsimp only
  split
  · assumption
  · split
    · refine Keeps.mk1 ?_ _ _ _ _ _ _ _ _ _ _ _ _ _ _ _ _ _ _ _ rfl rfl rfl rfl rfl rfl
      assumption
    · split
      · refine State.condition_keeps ?_ ..
        refine State.loadTile_keeps ?_ ..
        refine Keeps.mk1 ?_ _ _ _ _ _ _ _ _ _ _ _ _ _ _ _ _ _ _ _ rfl rfl rfl rfl rfl rfl
        assumption
      · refine State.loadTile_keeps ?_ ..
        refine Keeps.mk1 ?_ _ _ _ _ _ _ _ _ _ _ _ _ _ _ _ _ _ _ _ rfl rfl rfl rfl rfl rfl
        assumption

theorem State.retireGranule_keeps {s₀ s : State} (h : Keeps s₀ s) (g : Nat) : Keeps s₀ (s.retireGranule g) := by
  unfold State.retireGranule
  dsimp only
  split_ifs with h1 h2 h3 h4 h5
  · exact State.setVal_keeps h ..
  · exact State.setVal_keeps h ..
  · exact State.setVal_keeps h ..
  · exact State.setVal_keeps h ..
  all_goals
    have hl (b : Bool) : Keeps s₀ { s with mem := { s.mem with retired := s.mem.retired ++ [(g, b)] } } :=
      Keeps.mkMem h _ rfl rfl id fun _ => by rw [List.length_append, List.length_singleton]; omega
  · exact State.setVal_keeps (hl true) ..
  · split
    · exact State.setVal_keeps (hl false) ..
    · split_ifs
      · exact State.setVal_keeps (hl false) ..
      · split
        · exact State.setVal_keeps (State.startMigration_keeps (hl false) _ _ ‹_›) ..
        · exact State.setVal_keeps (hl true) ..

theorem State.logMemError_keeps {s₀ s : State} (h : Keeps s₀ s) (granule : Nat) (unit : Nat) (kind : Nat) (count : Nat) :
    Keeps s₀ (State.logMemError s granule unit kind count) := by
  unfold State.logMemError
  try dsimp only
  refine Keeps.foldl (fun t x ht => ?_) ?_ _
  · refine State.setReg_keeps ?_ ..
    assumption
  · assumption

theorem State.poisonTile_keeps {s₀ s : State} (h : Keeps s₀ s) (id : Nat) :
    Keeps s₀ (State.poisonTile s id) := by
  unfold State.poisonTile
  try dsimp only
  split
  · assumption
  · split
    · refine Keeps.mk1 ?_ _ _ _ _ _ _ _ _ _ _ _ _ _ _ _ _ _ _ _ rfl rfl rfl rfl rfl rfl
      refine State.condition_keeps ?_ ..
      refine State.putPage_keeps ?_ ..
      refine State.putTile_keeps ?_ ..
      assumption
    · refine State.raiseEvent_keeps ?_ ..
      refine State.condition_keeps ?_ ..
      refine State.putPage_keeps ?_ ..
      refine State.putTile_keeps ?_ ..
      assumption

theorem State.memErrorAt_keeps {s₀ s : State} (h : Keeps s₀ s) (e : MemError) :
    Keeps s₀ (State.memErrorAt s e) := by
  unfold State.memErrorAt
  try dsimp only
  split
  · refine State.setDie_keeps ?_ ..
    assumption
  · refine Keeps.mk1 ?_ _ _ _ _ _ _ _ _ _ _ _ _ _ _ _ _ _ _ _ rfl rfl rfl rfl rfl rfl
    assumption
  · split
    · refine Keeps.mk1 ?_ _ _ _ _ _ _ _ _ _ _ _ _ _ _ _ _ _ _ _ rfl rfl rfl rfl rfl rfl
      assumption
    · assumption
  · split
    · refine State.poisonTile_keeps ?_ ..
      assumption
    · assumption

theorem patrolScrubStep_keeps {s₀ s : State} (h : Keeps s₀ s) (e : MemError) :
    Keeps s₀ (patrolScrubStep s e) := by
  unfold patrolScrubStep
  try dsimp only
  split
  · assumption
  · split
    · split
      · refine State.bump64_keeps ?_ ..
        assumption
      · split
        · split
          · refine State.raiseEvent_keeps ?_ ..
            refine State.logMemError_keeps ?_ ..
            refine Keeps.mk1 ?_ _ _ _ _ _ _ _ _ _ _ _ _ _ _ _ _ _ _ _ rfl rfl rfl rfl rfl rfl
            refine State.bump64_keeps ?_ ..
            assumption
          · refine State.logMemError_keeps ?_ ..
            refine Keeps.mk1 ?_ _ _ _ _ _ _ _ _ _ _ _ _ _ _ _ _ _ _ _ rfl rfl rfl rfl rfl rfl
            refine State.bump64_keeps ?_ ..
            assumption
        · refine Keeps.mk1 ?_ _ _ _ _ _ _ _ _ _ _ _ _ _ _ _ _ _ _ _ rfl rfl rfl rfl rfl rfl
          refine State.bump64_keeps ?_ ..
          assumption
    · split
      · refine State.raiseEvent_keeps ?_ ..
        refine State.memErrorAt_keeps ?_ ..
        refine State.raiseEvent_keeps ?_ ..
        refine State.logMemError_keeps ?_ ..
        refine State.bump64_keeps ?_ ..
        assumption
      · refine State.memErrorAt_keeps ?_ ..
        refine State.raiseEvent_keeps ?_ ..
        refine State.logMemError_keeps ?_ ..
        refine State.bump64_keeps ?_ ..
        assumption
    · split
      · split
        · refine State.raiseEvent_keeps ?_ ..
          refine State.memErrorAt_keeps ?_ ..
          refine State.raiseEvent_keeps ?_ ..
          refine State.logMemError_keeps ?_ ..
          refine State.bump64_keeps ?_ ..
          refine State.draw_keeps ?_ ..
          assumption
        · refine State.memErrorAt_keeps ?_ ..
          refine State.raiseEvent_keeps ?_ ..
          refine State.logMemError_keeps ?_ ..
          refine State.bump64_keeps ?_ ..
          refine State.draw_keeps ?_ ..
          assumption
      · refine State.draw_keeps ?_ ..
        assumption

theorem State.respillPage_keeps {s₀ s : State} (h : Keeps s₀ s) (p : Nat) (unreadable : List Nat) :
    Keeps s₀ (State.respillPage s p unreadable) := by
  unfold State.respillPage
  try dsimp only
  split
  · assumption
  · refine State.nextMove_keeps ?_ ..
    refine State.writePageLus_keeps ?_ ..
    refine Keeps.foldl (fun t x ht => ?_) ?_ _
    · refine State.putTile_keeps ?_ ..
      assumption
    · refine State.countSpill_keeps ?_ ..
      refine State.putPage_keeps ?_ ..
      refine State.freeFrame_keeps ?_ ..
      refine Keeps.mk1 ?_ _ _ _ _ _ _ _ _ _ _ _ _ _ _ _ _ _ _ _ rfl rfl rfl rfl rfl rfl
      refine Keeps.foldl (fun t x ht => ?_) ?_ _
      · refine State.freeFrame_keeps ?_ ..
        assumption
      · refine State.freeFrame_keeps ?_ ..
        assumption

theorem State.respill_keeps {s₀ s : State} (h : Keeps s₀ s) (sl : Nat) (unreadable : List Nat) :
    Keeps s₀ (State.respill s sl unreadable) := by
  unfold State.respill
  try dsimp only
  refine Keeps.foldl (fun t x ht => ?_) ?_ _
  · refine State.respillPage_keeps ?_ ..
    assumption
  · assumption

theorem State.remapViews_keeps {s₀ s : State} (h : Keeps s₀ s) (written : Nat → Bool) :
    Keeps s₀ (State.remapViews s written) := by
  unfold State.remapViews
  try dsimp only
  refine Keeps.foldl (fun t x ht => ?_) ?_ _
  · refine State.setPage_keeps ?_ ..
    split
    · refine State.unmapPage_keeps ?_ ..
      assumption
    · assumption
  · refine Keeps.foldl (fun t x ht => ?_) ?_ _
    · refine State.unmapPage_keeps ?_ ..
      assumption
    · assumption

theorem State.eraseBlock_keeps {s₀ s : State} (h : Keeps s₀ s) (k : Nat) :
    Keeps s₀ (State.eraseBlock s k) := by
  unfold State.eraseBlock
  try dsimp only
  split
  · refine Keeps.mk1 ?_ _ _ _ _ _ _ _ _ _ _ _ _ _ _ _ _ _ _ _ rfl rfl rfl rfl rfl rfl
    assumption
  · refine Keeps.mk1 ?_ _ _ _ _ _ _ _ _ _ _ _ _ _ _ _ _ _ _ _ rfl rfl rfl rfl rfl rfl
    assumption

theorem State.takePage_keeps {s₀ s : State} (h : Keeps s₀ s) (d : Nat) (c : Nat) :
    Keeps s₀ (State.takePage s d c).2 := by
  unfold State.takePage
  try dsimp only
  split
  · dsimp only
    refine Keeps.mk1 ?_ _ _ _ _ _ _ _ _ _ _ _ _ _ _ _ _ _ _ _ rfl rfl rfl rfl rfl rfl
    assumption
  · split
    · assumption
    · dsimp only
      refine Keeps.mk1 ?_ _ _ _ _ _ _ _ _ _ _ _ _ _ _ _ _ _ _ _ rfl rfl rfl rfl rfl rfl
      refine State.eraseBlock_keeps ?_ ..
      assumption

theorem State.putFlashPage_keeps {s₀ s : State} (h : Keeps s₀ s) (d : Nat) (k : Nat) (p : FlashPage) :
    Keeps s₀ (State.putFlashPage s d k p) := by
  unfold State.putFlashPage
  try dsimp only
  refine Keeps.mk1 ?_ _ _ _ _ _ _ _ _ _ _ _ _ _ _ _ _ _ _ _ rfl rfl rfl rfl rfl rfl
  assumption

theorem State.closeStripe_keeps {s₀ s : State} (h : Keeps s₀ s) (d : Nat) :
    Keeps s₀ (State.closeStripe s d) := by
  unfold State.closeStripe
  try dsimp only
  refine Keeps.mk1 ?_ _ _ _ _ _ _ _ _ _ _ _ _ _ _ _ _ _ _ _ rfl rfl rfl rfl rfl rfl
  split
  · refine State.putFlashPage_keeps ?_ ..
    refine Keeps.of_pair ‹_› ?_
    refine State.takePage_keeps ?_ ..
    assumption
  · refine Keeps.of_pair ‹_› ?_
    refine State.takePage_keeps ?_ ..
    assumption

theorem State.programLu_keeps {s₀ s : State} (h : Keeps s₀ s) (x : Nat) (dat : Nat) :
    Keeps s₀ (State.programLu s x dat).2 := by
  unfold State.programLu
  try dsimp only
  split
  · assumption
  · split
    · dsimp only
      refine Keeps.of_pair ‹_› ?_
      refine State.takePage_keeps ?_ ..
      assumption
    · dsimp only
      split
      · refine State.closeStripe_keeps ?_ ..
        refine Keeps.mk1 ?_ _ _ _ _ _ _ _ _ _ _ _ _ _ _ _ _ _ _ _ rfl rfl rfl rfl rfl rfl
        refine State.setLu_keeps ?_ ..
        refine State.putFlashPage_keeps ?_ ..
        refine Keeps.of_pair ‹_› ?_
        refine State.takePage_keeps ?_ ..
        assumption
      · refine Keeps.mk1 ?_ _ _ _ _ _ _ _ _ _ _ _ _ _ _ _ _ _ _ _ rfl rfl rfl rfl rfl rfl
        refine State.setLu_keeps ?_ ..
        refine State.putFlashPage_keeps ?_ ..
        refine Keeps.of_pair ‹_› ?_
        refine State.takePage_keeps ?_ ..
        assumption

theorem State.writeLu_keeps {s₀ s : State} (h : Keeps s₀ s) (x : Nat) (dat : Nat) :
    Keeps s₀ (State.writeLu s x dat) := by
  unfold State.writeLu
  try dsimp only
  split
  · refine State.bump64_keeps ?_ ..
    refine Keeps.of_pair ‹_› ?_
    refine State.programLu_keeps ?_ ..
    assumption
  · refine State.bump64_keeps ?_ ..
    refine State.markPoison_keeps ?_ ..
    refine Keeps.of_pair ‹_› ?_
    refine State.programLu_keeps ?_ ..
    assumption

theorem State.writeCopy_keeps {s₀ s : State} (h : Keeps s₀ s) (x : Nat) (page : Nat) (dat : Nat) :
    Keeps s₀ (State.writeCopy s x page dat) := by
  unfold State.writeCopy
  try dsimp only
  split
  · split
    · refine State.bump64_keeps ?_ ..
      assumption
    · refine State.raiseEvent_keeps ?_ ..
      refine Keeps.mk1 ?_ _ _ _ _ _ _ _ _ _ _ _ _ _ _ _ _ _ _ _ rfl rfl rfl rfl rfl rfl
      refine State.bump64_keeps ?_ ..
      assumption
  · refine State.writeLu_keeps ?_ ..
    refine Keeps.mk1 ?_ _ _ _ _ _ _ _ _ _ _ _ _ _ _ _ _ _ _ _ rfl rfl rfl rfl rfl rfl
    refine State.setLu_keeps ?_ ..
    assumption

theorem luWriteStep_keeps {s₀ s : State} (h : Keeps s₀ s) (x : Nat) :
    Keeps s₀ (luWriteStep s x) := by
  unfold luWriteStep
  try dsimp only
  split
  · assumption
  · split
    · assumption
    · split
      · refine State.writeCopy_keeps ?_ ..
        refine State.writeLu_keeps ?_ ..
        refine Keeps.mk1 ?_ _ _ _ _ _ _ _ _ _ _ _ _ _ _ _ _ _ _ _ rfl rfl rfl rfl rfl rfl
        assumption
      · refine State.writeLu_keeps ?_ ..
        refine Keeps.mk1 ?_ _ _ _ _ _ _ _ _ _ _ _ _ _ _ _ _ _ _ _ rfl rfl rfl rfl rfl rfl
        assumption

theorem State.retireBlock_keeps {s₀ s : State} (h : Keeps s₀ s) (d : Nat) (k : Nat) :
    Keeps s₀ (State.retireBlock s d k) := by
  unfold State.retireBlock
  try dsimp only
  split
  · assumption
  · split
    · refine State.raiseEvent_keeps ?_ ..
      refine State.bump32_keeps ?_ ..
      refine Keeps.mk1 ?_ _ _ _ _ _ _ _ _ _ _ _ _ _ _ _ _ _ _ _ rfl rfl rfl rfl rfl rfl
      assumption
    · refine State.bump32_keeps ?_ ..
      refine Keeps.mk1 ?_ _ _ _ _ _ _ _ _ _ _ _ _ _ _ _ _ _ _ _ rfl rfl rfl rfl rfl rfl
      assumption

theorem State.relocateBlock_keeps {s₀ s : State} (h : Keeps s₀ s) (d : Nat) (k : Nat) :
    Keeps s₀ (State.relocateBlock s d k) := by
  unfold State.relocateBlock
  try dsimp only
  refine State.bump64_keeps ?_ ..
  refine Keeps.mk1 ?_ _ _ _ _ _ _ _ _ _ _ _ _ _ _ _ _ _ _ _ rfl rfl rfl rfl rfl rfl
  refine Keeps.foldl (fun t x ht => ?_) ?_ _
  · split
    · refine Keeps.of_pair ‹_› ?_
      refine State.programLu_keeps ?_ ..
      assumption
    · refine State.bump64_keeps ?_ ..
      refine State.markPoison_keeps ?_ ..
      refine Keeps.of_pair ‹_› ?_
      refine State.programLu_keeps ?_ ..
      assumption
  · assumption

theorem State.poisonLu_keeps {s₀ s : State} (h : Keeps s₀ s) (x : Nat) :
    Keeps s₀ (State.poisonLu s x) := by
  unfold State.poisonLu
  try dsimp only
  split
  · refine State.condition_keeps ?_ ..
    refine State.markPoison_keeps ?_ ..
    assumption
  · refine State.raiseEvent_keeps ?_ ..
    refine State.condition_keeps ?_ ..
    refine State.putPage_keeps ?_ ..
    refine State.markPoison_keeps ?_ ..
    assumption

theorem State.countRead_keeps {s₀ s : State} (h : Keeps s₀ s) (k : Nat) :
    Keeps s₀ (State.countRead s k) := by
  unfold State.countRead
  try dsimp only
  refine Keeps.mk1 ?_ _ _ _ _ _ _ _ _ _ _ _ _ _ _ _ _ _ _ _ rfl rfl rfl rfl rfl rfl
  assumption

theorem luReadStep_keeps {s₀ s : State} (h : Keeps s₀ s) (x : Nat) (r : LadderEnd) :
    Keeps s₀ (luReadStep s x r) := by
  unfold luReadStep
  try dsimp only
  split
  · assumption
  · split
    · split
      · split
        · refine State.countRead_keeps ?_ ..
          assumption
        · assumption
      · split
        · assumption
        · refine Keeps.mk1 ?_ _ _ _ _ _ _ _ _ _ _ _ _ _ _ _ _ _ _ _ rfl rfl rfl rfl rfl rfl
          refine State.bump64_keeps ?_ ..
          refine State.countRead_keeps ?_ ..
          assumption
      · split
        · assumption
        · refine State.retireBlock_keeps ?_ ..
          refine State.bump64_keeps ?_ ..
          refine Keeps.foldl (fun t x ht => ?_) ?_ _
          · refine State.countRead_keeps ?_ ..
            assumption
          · refine State.countRead_keeps ?_ ..
            assumption
      · split
        · split
          · refine State.retireBlock_keeps ?_ ..
            refine State.bump64_keeps ?_ ..
            refine State.countRead_keeps ?_ ..
            refine State.countRead_keeps ?_ ..
            assumption
          · assumption
        · assumption
    · refine State.retireBlock_keeps ?_ ..
      refine State.poisonLu_keeps ?_ ..
      refine State.bump64_keeps ?_ ..
      refine State.countRead_keeps ?_ ..
      assumption

theorem stripeCloseStep_keeps {s₀ s : State} (h : Keeps s₀ s) (d : Nat) :
    Keeps s₀ (stripeCloseStep s d) := by
  unfold stripeCloseStep
  try dsimp only
  split
  · assumption
  · refine State.closeStripe_keeps ?_ ..
    refine Keeps.foldl (fun t x ht => ?_) ?_ _
    · split
      · refine State.putFlashPage_keeps ?_ ..
        refine Keeps.of_pair ‹_› ?_
        refine State.takePage_keeps ?_ ..
        assumption
      · refine Keeps.of_pair ‹_› ?_
        refine State.takePage_keeps ?_ ..
        assumption
    · refine State.reach_keeps ?_ ..
      assumption

theorem blockRelocationStep_keeps {s₀ s : State} (h : Keeps s₀ s) (d : Nat) (k : Nat) :
    Keeps s₀ (blockRelocationStep s d k) := by
  unfold blockRelocationStep
  try dsimp only
  split
  · refine State.relocateBlock_keeps ?_ ..
    assumption
  · assumption

theorem programFailureStep_keeps {s₀ s : State} (h : Keeps s₀ s) (d : Nat) (k : Nat) :
    Keeps s₀ (programFailureStep s d k) := by
  unfold programFailureStep
  try dsimp only
  split
  · refine State.retireBlock_keeps ?_ ..
    assumption
  · assumption

theorem wearLevelStep_keeps {s₀ s : State} (h : Keeps s₀ s) (d : Nat) :
    Keeps s₀ (wearLevelStep s d) := by
  unfold wearLevelStep
  try dsimp only
  split
  · assumption
  · split
    · refine State.relocateBlock_keeps ?_ ..
      assumption
    · assumption

theorem readDisturbStep_keeps {s₀ s : State} (h : Keeps s₀ s) (d : Nat) (k : Nat) :
    Keeps s₀ (readDisturbStep s d k) := by
  unfold readDisturbStep
  try dsimp only
  split
  · assumption
  · refine Keeps.mk1 ?_ _ _ _ _ _ _ _ _ _ _ _ _ _ _ _ _ _ _ _ rfl rfl rfl rfl rfl rfl
    refine State.relocateBlock_keeps ?_ ..
    assumption

theorem flashScanStep_keeps {s₀ s : State} (h : Keeps s₀ s) (d : Nat) (weak : Bool) :
    Keeps s₀ (flashScanStep s d weak) := by
  unfold flashScanStep
  try dsimp only
  split
  · assumption
  · split
    · split
      · refine State.relocateBlock_keeps ?_ ..
        refine Keeps.mk1 ?_ _ _ _ _ _ _ _ _ _ _ _ _ _ _ _ _ _ _ _ rfl rfl rfl rfl rfl rfl
        refine State.countRead_keeps ?_ ..
        assumption
      · refine Keeps.mk1 ?_ _ _ _ _ _ _ _ _ _ _ _ _ _ _ _ _ _ _ _ rfl rfl rfl rfl rfl rfl
        refine State.countRead_keeps ?_ ..
        assumption
    · split
      · refine State.relocateBlock_keeps ?_ ..
        refine Keeps.mk1 ?_ _ _ _ _ _ _ _ _ _ _ _ _ _ _ _ _ _ _ _ rfl rfl rfl rfl rfl rfl
        refine State.countRead_keeps ?_ ..
        refine Keeps.mk1 ?_ _ _ _ _ _ _ _ _ _ _ _ _ _ _ _ _ _ _ _ rfl rfl rfl rfl rfl rfl
        refine State.reach_keeps ?_ ..
        assumption
      · refine Keeps.mk1 ?_ _ _ _ _ _ _ _ _ _ _ _ _ _ _ _ _ _ _ _ rfl rfl rfl rfl rfl rfl
        refine State.countRead_keeps ?_ ..
        refine Keeps.mk1 ?_ _ _ _ _ _ _ _ _ _ _ _ _ _ _ _ _ _ _ _ rfl rfl rfl rfl rfl rfl
        refine State.reach_keeps ?_ ..
        assumption
    · assumption

theorem State.persist_keeps {s₀ s : State} (h : Keeps s₀ s) (p : Nat) (v : BitVec 128) :
    Keeps s₀ (State.persist s p v) := by
  unfold State.persist
  try dsimp only
  refine Keeps.mk1 ?_ _ _ _ _ _ _ _ _ _ _ _ _ _ _ _ _ _ _ _ rfl rfl rfl rfl rfl rfl
  assumption

theorem bwPersistStep_keeps {s₀ s : State} (h : Keeps s₀ s) (p : Nat) :
    Keeps s₀ (bwPersistStep s p) := by
  unfold bwPersistStep
  try dsimp only
  split
  · assumption
  · refine Keeps.mk1 ?_ _ _ _ _ _ _ _ _ _ _ _ _ _ _ _ _ _ _ _ rfl rfl rfl rfl rfl rfl
    refine State.persist_keeps ?_ ..
    assumption

theorem State.rebuildStripes_keeps {s₀ s : State} (h : Keeps s₀ s) (lost : List Nat) :
    Keeps s₀ (State.rebuildStripes s lost) := by
  unfold State.rebuildStripes
  try dsimp only
  refine Keeps.foldl (fun t x ht => ?_) ?_ _
  · split
    · assumption
    · refine Keeps.foldl (fun t x ht => ?_) ?_ _
      · split
        · refine State.markPoison_keeps ?_ ..
          assumption
        · split
          · refine Keeps.of_pair ‹_› ?_
            refine State.programLu_keeps ?_ ..
            assumption
          · refine State.bump64_keeps ?_ ..
            refine State.markPoison_keeps ?_ ..
            refine Keeps.of_pair ‹_› ?_
            refine State.programLu_keeps ?_ ..
            assumption
      · refine State.closeStripe_keeps ?_ ..
        assumption
  · assumption

theorem State.restoreEntries_keeps {s₀ s : State} (h : Keeps s₀ s) :
    Keeps s₀ (State.restoreEntries s) := by
  unfold State.restoreEntries
  try dsimp only
  refine Keeps.foldl (fun t x ht => ?_) ?_ _
  · refine Keeps.foldl (fun t x ht => ?_) ?_ _
    · refine State.putTile_keeps ?_ ..
      assumption
    · refine State.setPage_keeps ?_ ..
      assumption
  · assumption

theorem State.loseWrites_keeps {s₀ s : State} (h : Keeps s₀ s) :
    Keeps s₀ (State.loseWrites s) := by
  unfold State.loseWrites
  try dsimp only
  refine Keeps.mk1 ?_ _ _ _ _ _ _ _ _ _ _ _ _ _ _ _ _ _ _ _ rfl rfl rfl rfl rfl rfl
  refine Keeps.foldl (fun t x ht => ?_) ?_ _
  · split
    · refine State.persist_keeps ?_ ..
      refine State.draw_keeps ?_ ..
      assumption
    · refine State.draw_keeps ?_ ..
      assumption
  · refine Keeps.foldl (fun t x ht => ?_) ?_ _
    · split
      · refine State.programLu_keeps ?_ ..
        refine State.draw_keeps ?_ ..
        assumption
      · refine State.draw_keeps ?_ ..
        assumption
    · assumption

theorem moveAct_keeps {s₀ s : State} (h : Keeps s₀ s) (c : Ctx) :
    Keeps s₀ (moveAct s c).state := by
  unfold moveAct
  try dsimp only
  refine State.verifyTile_keeps ?_ ..
  refine State.readRaw_keeps ?_ ..
  assumption

theorem State.millWrite_keeps {s₀ s : State} (h : Keeps s₀ s) (k : Nat) (g : Nat) (v : Nat) (x : Nat) :
    Keeps s₀ (State.millWrite s k g v x) := by
  unfold State.millWrite
  try dsimp only
  refine Keeps.mk1 ?_ _ _ _ _ _ _ _ _ _ _ _ _ _ _ _ _ _ _ _ rfl rfl rfl rfl rfl rfl
  assumption

theorem State.readIndex_keeps {s₀ s : State} (h : Keeps s₀ s) (sl : Nat) (id : Nat) :
    Keeps s₀ (State.readIndex s sl id).2 := by
  unfold State.readIndex
  try dsimp only
  split
  · dsimp only
    refine State.unmappedAccess_keeps ?_ ..
    assumption
  · dsimp only
    refine State.unmappedAccess_keeps ?_ ..
    assumption
  · split
    · assumption
    · split
      · dsimp only
        refine State.bump64_keeps ?_ ..
        assumption
      · assumption
  · split
    · assumption
    · split
      · dsimp only
        refine State.bump64_keeps ?_ ..
        assumption
      · assumption

theorem gatherAct_keeps {s₀ s : State} (h : Keeps s₀ s) (c : Ctx) :
    Keeps s₀ (gatherAct s c).state := by
  unfold gatherAct
  try dsimp only
  refine State.readIndex_keeps ?_ ..
  assumption

theorem scatterAct_keeps {s₀ s : State} (h : Keeps s₀ s) (c : Ctx) :
    Keeps s₀ (scatterAct s c).state := by
  unfold scatterAct
  try dsimp only
  split
  · dsimp only
    refine State.readIndex_keeps ?_ ..
    refine State.readOperand_keeps ?_ ..
    assumption
  · dsimp only
    refine State.readIndex_keeps ?_ ..
    refine State.readOperand_keeps ?_ ..
    assumption

theorem State.scatterCell_keeps {s₀ s : State} (h : Keeps s₀ s) (sl : Nat) (k : Nat) (g : Nat) (v : Nat) (x : Nat) :
    Keeps s₀ (State.scatterCell s sl k g v x) := by
  unfold State.scatterCell
  try dsimp only
  split
  · split
    · refine State.condition_keeps ?_ ..
      assumption
    · split
      · refine State.bump64_keeps ?_ ..
        refine State.bump64_keeps ?_ ..
        refine State.bump64_keeps ?_ ..
        refine State.millWrite_keeps ?_ ..
        assumption
      · refine State.condition_keeps ?_ ..
        refine State.bump64_keeps ?_ ..
        refine State.bump64_keeps ?_ ..
        refine State.bump64_keeps ?_ ..
        refine State.millWrite_keeps ?_ ..
        assumption
  · refine State.millWrite_keeps ?_ ..
    assumption

theorem State.applyEffect_keeps {s₀ s : State} (h : Keeps s₀ s) (sl : Nat) (a2 : Effect) :
    Keeps s₀ (State.applyEffect s sl a2) := by
  unfold State.applyEffect
  try dsimp only
  split
  · refine State.writeTile_keeps ?_ ..
    assumption
  · refine State.write_keeps ?_ ..
    assumption
  · refine State.setDie_keeps ?_ ..
    assumption
  · refine State.bump_keeps ?_ ..
    assumption
  · refine State.setReg_keeps ?_ ..
    assumption
  · refine Keeps.mk1 ?_ _ _ _ _ _ _ _ _ _ _ _ _ _ _ _ _ _ _ _ rfl rfl rfl rfl rfl rfl
    assumption
  · split
    · refine State.bump64_keeps ?_ ..
      refine Keeps.mk1 ?_ _ _ _ _ _ _ _ _ _ _ _ _ _ _ _ _ _ _ _ rfl rfl rfl rfl rfl rfl
      assumption
    · refine Keeps.mk1 ?_ _ _ _ _ _ _ _ _ _ _ _ _ _ _ _ _ _ _ _ rfl rfl rfl rfl rfl rfl
      assumption
  · refine Keeps.foldl (fun t x ht => ?_) ?_ _
    · refine State.scatterCell_keeps ?_ ..
      assumption
    · assumption
  · refine State.condition_keeps ?_ ..
    assumption

end Sys2Proof.Machine
end

