-- ==== Sys2Proof/Laws/KeepsNetwork.lean ====
section
/-! SUPPORT. What the operations of the streams and of the confluence unit keep. -/

namespace Sys2Proof.Machine

theorem State.setTx_keeps {s₀ s : State} (h : Keeps s₀ s) (ns : Nat) (t : Tx) :
    Keeps s₀ (State.setTx s ns t) := by
  unfold State.setTx
  try dsimp only
  refine Keeps.mk1 ?_ _ _ _ _ _ _ _ _ _ _ _ _ _ _ _ _ _ _ _ rfl rfl rfl rfl rfl rfl
  assumption

theorem State.setRx_keeps {s₀ s : State} (h : Keeps s₀ s) (ns : Nat) (r : Rx) :
    Keeps s₀ (State.setRx s ns r) := by
  unfold State.setRx
  try dsimp only
  refine Keeps.mk1 ?_ _ _ _ _ _ _ _ _ _ _ _ _ _ _ _ _ _ _ _ rfl rfl rfl rfl rfl rfl
  assumption

theorem State.sendPacket_keeps {s₀ s : State} (h : Keeps s₀ s) (ns : Nat) (q : Nat) (pkt : List Byte) :
    Keeps s₀ (State.sendPacket s ns q pkt) := by
  unfold State.sendPacket
  try dsimp only
  split
  · assumption
  · refine State.emit_keeps ?_ ..
    assumption

theorem State.receive_keeps {s₀ s : State} (h : Keeps s₀ s) (p : Nat) (cls : Nat) (ce : Bool) (pkt : List Byte) :
    Keeps s₀ (State.receive s p cls ce pkt).2 := by
  unfold State.receive
  try dsimp only
  split
  · assumption
  · split
    · dsimp only
      refine State.bump64_keeps ?_ ..
      assumption
    · split
      · dsimp only
        refine State.bump64_keeps ?_ ..
        assumption
      · split
        · assumption
        · split
          · dsimp only
            refine State.bump64_keeps ?_ ..
            assumption
          · split
            · dsimp only
              refine State.bump64_keeps ?_ ..
              assumption
            · split
              · split
                · dsimp only
                  refine State.bump32_keeps ?_ ..
                  refine State.bump64_keeps ?_ ..
                  assumption
                · dsimp only
                  refine State.bump64_keeps ?_ ..
                  assumption
              · split
                · dsimp only
                  refine State.bump32_keeps ?_ ..
                  assumption
                · assumption

theorem State.sendAck_keeps {s₀ s : State} (h : Keeps s₀ s) (ns : Nat) :
    Keeps s₀ (State.sendAck s ns) := by
  unfold State.sendAck
  try dsimp only
  refine State.sendPacket_keeps ?_ ..
  refine State.setRx_keeps ?_ ..
  assumption

theorem State.sendSeg_keeps {s₀ s : State} (h : Keeps s₀ s) (ns : Nat) (g : Seg) :
    Keeps s₀ (State.sendSeg s ns g) := by
  unfold State.sendSeg
  try dsimp only
  refine State.setTx_keeps ?_ ..
  split
  · refine State.bump64_keeps ?_ ..
    refine State.bump64_keeps ?_ ..
    refine State.sendPacket_keeps ?_ ..
    assumption
  · refine State.bump64_keeps ?_ ..
    refine State.sendPacket_keeps ?_ ..
    assumption

theorem State.pump_keeps {s₀ s : State} (h : Keeps s₀ s) (ns : Nat) :
    Keeps s₀ (State.pump s ns) := by
  unfold State.pump
  try dsimp only
  split
  · assumption
  · refine Keeps.foldl (fun t x ht => ?_) ?_ _
    · refine State.sendSeg_keeps ?_ ..
      assumption
    · assumption

theorem State.sendMessage_keeps {s₀ s : State} (h : Keeps s₀ s) (ns : Nat) (step : Nat) (bytes : List Byte) :
    Keeps s₀ (State.sendMessage s ns step bytes).2 := by
  unfold State.sendMessage
  try dsimp only
  refine State.pump_keeps ?_ ..
  refine State.setTx_keeps ?_ ..
  assumption

theorem State.sendSync_keeps {s₀ s : State} (h : Keeps s₀ s) (ns : Nat) :
    Keeps s₀ (State.sendSync s ns) := by
  unfold State.sendSync
  try dsimp only
  refine State.sendPacket_keeps ?_ ..
  refine State.setReg_keeps ?_ ..
  refine State.setTx_keeps ?_ ..
  assumption

theorem State.finishMessage_keeps {s₀ s : State} (h : Keeps s₀ s) (ns : Nat) (gs : List RSeg) :
    Keeps s₀ (State.finishMessage s ns gs) := by
  unfold State.finishMessage
  try dsimp only
  split
  · split
    · refine State.sendAck_keeps ?_ ..
      refine State.setRx_keeps ?_ ..
      assumption
    · refine State.setRx_keeps ?_ ..
      assumption
  · split
    · refine State.sendAck_keeps ?_ ..
      assumption
    · assumption

theorem dropStale_keeps {s₀ s : State} (h : Keeps s₀ s) (fuel ns : Nat) : Keeps s₀ (dropStale fuel ns s) := by
  induction fuel generalizing s with
  | zero => exact h
  | succ n ih =>
    unfold dropStale
    dsimp only
    split
    · assumption
    · split
      · split
        · refine ih ?_ ..
          refine State.finishMessage_keeps ?_ ..
          refine State.bump32_keeps ?_ ..
          assumption
        · assumption
      · split
        · refine ih ?_ ..
          refine State.finishMessage_keeps ?_ ..
          refine State.bump32_keeps ?_ ..
          assumption
        · assumption

theorem discardStale_keeps {s₀ s : State} (h : Keeps s₀ s) (ns : Nat) :
    Keeps s₀ (discardStale ns s) := by
  unfold discardStale
  try dsimp only
  refine dropStale_keeps ?_ ..
  assumption

theorem dataStep_keeps {s₀ s : State} (h : Keeps s₀ s) (p : Nat) (ce : Bool) (pkt : List Byte) :
    Keeps s₀ (dataStep s p ce pkt) := by
  unfold dataStep
  try dsimp only
  split
  · refine Keeps.of_pair ‹_› ?_
    refine State.receive_keeps ?_ ..
    assumption
  · split
    · refine State.sendPacket_keeps ?_ ..
      refine State.bump32_keeps ?_ ..
      refine Keeps.of_pair ‹_› ?_
      refine State.receive_keeps ?_ ..
      assumption
    · split
      · refine State.sendAck_keeps ?_ ..
        refine State.bump64_keeps ?_ ..
        refine State.setRx_keeps ?_ ..
        refine Keeps.of_pair ‹_› ?_
        refine State.receive_keeps ?_ ..
        assumption
      · split
        · split
          · refine State.sendAck_keeps ?_ ..
            refine State.setRx_keeps ?_ ..
            refine Keeps.of_pair ‹_› ?_
            refine State.receive_keeps ?_ ..
            assumption
          · refine State.setRx_keeps ?_ ..
            refine Keeps.of_pair ‹_› ?_
            refine State.receive_keeps ?_ ..
            assumption
        · split
          · split
            · refine State.sendAck_keeps ?_ ..
              refine State.setRx_keeps ?_ ..
              refine Keeps.of_pair ‹_› ?_
              refine State.receive_keeps ?_ ..
              assumption
            · refine State.setRx_keeps ?_ ..
              refine Keeps.of_pair ‹_› ?_
              refine State.receive_keeps ?_ ..
              assumption
          · split
            · split
              · refine State.sendAck_keeps ?_ ..
                refine discardStale_keeps ?_ ..
                refine State.setRx_keeps ?_ ..
                refine State.setRx_keeps ?_ ..
                refine Keeps.of_pair ‹_› ?_
                refine State.receive_keeps ?_ ..
                assumption
              · refine discardStale_keeps ?_ ..
                refine State.setRx_keeps ?_ ..
                refine State.setRx_keeps ?_ ..
                refine Keeps.of_pair ‹_› ?_
                refine State.receive_keeps ?_ ..
                assumption
            · split
              · refine State.sendAck_keeps ?_ ..
                refine discardStale_keeps ?_ ..
                refine State.setRx_keeps ?_ ..
                refine State.setRx_keeps ?_ ..
                refine Keeps.of_pair ‹_› ?_
                refine State.receive_keeps ?_ ..
                assumption
              · refine discardStale_keeps ?_ ..
                refine State.setRx_keeps ?_ ..
                refine State.setRx_keeps ?_ ..
                refine Keeps.of_pair ‹_› ?_
                refine State.receive_keeps ?_ ..
                assumption

theorem ackDelayStep_keeps {s₀ s : State} (h : Keeps s₀ s) (ns : Nat) :
    Keeps s₀ (ackDelayStep s ns) := by
  unfold ackDelayStep
  try dsimp only
  split
  · assumption
  · refine State.sendAck_keeps ?_ ..
    refine State.reach_keeps ?_ ..
    assumption

theorem State.nsendAcked_keeps {s₀ s : State} (h : Keeps s₀ s) (ns : Nat) (msg : Nat) :
    Keeps s₀ (State.nsendAcked s ns msg) := by
  unfold State.nsendAcked
  try dsimp only
  refine Keeps.foldl (fun t x ht => ?_) ?_ _
  · split
    · refine State.setDie_keeps ?_ ..
      assumption
    · assumption
  · assumption

theorem ackStep_keeps {s₀ s : State} (h : Keeps s₀ s) (p : Nat) (ce : Bool) (pkt : List Byte) :
    Keeps s₀ (ackStep s p ce pkt) := by
  unfold ackStep
  try dsimp only
  split
  · refine Keeps.of_pair ‹_› ?_
    refine State.receive_keeps ?_ ..
    assumption
  · split
    · refine Keeps.of_pair ‹_› ?_
      refine State.receive_keeps ?_ ..
      assumption
    · refine State.pump_keeps ?_ ..
      refine Keeps.foldl (fun t x ht => ?_) ?_ _
      · refine State.nsendAcked_keeps ?_ ..
        assumption
      · split
        · refine State.raiseEvent_keeps ?_ ..
          refine State.setReg_keeps ?_ ..
          refine State.setTx_keeps ?_ ..
          refine Keeps.of_pair ‹_› ?_
          refine State.receive_keeps ?_ ..
          assumption
        · refine State.setTx_keeps ?_ ..
          refine Keeps.of_pair ‹_› ?_
          refine State.receive_keeps ?_ ..
          assumption

theorem retxStep_keeps {s₀ s : State} (h : Keeps s₀ s) (ns : Nat) :
    Keeps s₀ (retxStep s ns) := by
  unfold retxStep
  try dsimp only
  split
  · assumption
  · split
    · split
      · refine State.raiseEvent_keeps ?_ ..
        refine State.setReg_keeps ?_ ..
        refine State.pump_keeps ?_ ..
        refine State.setTx_keeps ?_ ..
        refine State.bump32_keeps ?_ ..
        refine State.reach_keeps ?_ ..
        assumption
      · refine State.pump_keeps ?_ ..
        refine State.setTx_keeps ?_ ..
        refine State.bump32_keeps ?_ ..
        refine State.reach_keeps ?_ ..
        assumption
    · split
      · split
        · refine State.raiseEvent_keeps ?_ ..
          refine State.setReg_keeps ?_ ..
          refine State.pump_keeps ?_ ..
          refine State.setTx_keeps ?_ ..
          refine State.bump32_keeps ?_ ..
          refine State.reach_keeps ?_ ..
          assumption
        · refine State.pump_keeps ?_ ..
          refine State.setTx_keeps ?_ ..
          refine State.bump32_keeps ?_ ..
          refine State.reach_keeps ?_ ..
          assumption
      · split
        · refine State.raiseEvent_keeps ?_ ..
          refine State.setReg_keeps ?_ ..
          refine State.pump_keeps ?_ ..
          refine State.setTx_keeps ?_ ..
          refine State.bump32_keeps ?_ ..
          refine State.reach_keeps ?_ ..
          assumption
        · refine State.pump_keeps ?_ ..
          refine State.setTx_keeps ?_ ..
          refine State.bump32_keeps ?_ ..
          refine State.reach_keeps ?_ ..
          assumption

theorem syncStep_keeps {s₀ s : State} (h : Keeps s₀ s) (p : Nat) (ce : Bool) (pkt : List Byte) :
    Keeps s₀ (syncStep s p ce pkt) := by
  unfold syncStep
  try dsimp only
  split
  · refine Keeps.of_pair ‹_› ?_
    refine State.receive_keeps ?_ ..
    assumption
  · split
    · refine Keeps.of_pair ‹_› ?_
      refine State.receive_keeps ?_ ..
      assumption
    · refine State.sendPacket_keeps ?_ ..
      refine State.bump32_keeps ?_ ..
      refine State.setRx_keeps ?_ ..
      refine Keeps.of_pair ‹_› ?_
      refine State.receive_keeps ?_ ..
      assumption

theorem syncackStep_keeps {s₀ s : State} (h : Keeps s₀ s) (p : Nat) (ce : Bool) (pkt : List Byte) :
    Keeps s₀ (syncackStep s p ce pkt) := by
  unfold syncackStep
  try dsimp only
  split
  · refine Keeps.of_pair ‹_› ?_
    refine State.receive_keeps ?_ ..
    assumption
  · split
    · refine Keeps.of_pair ‹_› ?_
      refine State.receive_keeps ?_ ..
      assumption
    · refine State.pump_keeps ?_ ..
      refine State.setReg_keeps ?_ ..
      refine State.setTx_keeps ?_ ..
      refine Keeps.of_pair ‹_› ?_
      refine State.receive_keeps ?_ ..
      assumption

theorem needsyncStep_keeps {s₀ s : State} (h : Keeps s₀ s) (p : Nat) (ce : Bool) (pkt : List Byte) :
    Keeps s₀ (needsyncStep s p ce pkt) := by
  unfold needsyncStep
  try dsimp only
  split
  · refine Keeps.of_pair ‹_› ?_
    refine State.receive_keeps ?_ ..
    assumption
  · split
    · refine Keeps.of_pair ‹_› ?_
      refine State.receive_keeps ?_ ..
      assumption
    · refine State.sendSync_keeps ?_ ..
      refine State.bump32_keeps ?_ ..
      refine Keeps.of_pair ‹_› ?_
      refine State.receive_keeps ?_ ..
      assumption

theorem syncRepeatStep_keeps {s₀ s : State} (h : Keeps s₀ s) (ns : Nat) :
    Keeps s₀ (syncRepeatStep s ns) := by
  unfold syncRepeatStep
  try dsimp only
  split
  · assumption
  · refine State.sendSync_keeps ?_ ..
    refine State.reach_keeps ?_ ..
    assumption

theorem nsendAct_keeps {s₀ s : State} (h : Keeps s₀ s) (c : Ctx) :
    Keeps s₀ (nsendAct s c).state := by
  unfold nsendAct
  try dsimp only
  refine State.sendMessage_keeps ?_ ..
  refine State.readRaw_keeps ?_ ..
  assumption

theorem State.verifyReceived_keeps {s₀ s : State} (h : Keeps s₀ s) (acct : Nat) (id : Nat) (w : Nat) (t : Tile) :
    Keeps s₀ (State.verifyReceived s acct id w t).2 := by
  unfold State.verifyReceived
  try dsimp only
  refine State.verifyTile_keeps ?_ ..
  assumption

theorem State.applyTile_keeps {s₀ s : State} (h : Keeps s₀ s) (bs : List Byte) (step : Nat) :
    Keeps s₀ (State.applyTile s bs step) := by
  unfold State.applyTile
  try dsimp only
  split
  · split
    · refine Keeps.of_pair ‹_› ?_
      refine State.storeTile_keeps ?_ ..
      refine State.verifyReceived_keeps ?_ ..
      assumption
    · refine State.countTileLayer_keeps ?_ ..
      refine State.condition_keeps ?_ ..
      refine Keeps.of_pair ‹_› ?_
      refine State.storeTile_keeps ?_ ..
      refine State.verifyReceived_keeps ?_ ..
      assumption
  · refine State.applyRaise_keeps ?_ ..
    split
    · refine Keeps.of_pair ‹_› ?_
      refine State.storeTile_keeps ?_ ..
      refine State.verifyReceived_keeps ?_ ..
      assumption
    · refine State.countTileLayer_keeps ?_ ..
      refine State.condition_keeps ?_ ..
      refine Keeps.of_pair ‹_› ?_
      refine State.storeTile_keeps ?_ ..
      refine State.verifyReceived_keeps ?_ ..
      assumption

theorem nsendTileStep_keeps {s₀ s : State} (h : Keeps s₀ s) (ns : Nat) :
    Keeps s₀ (nsendTileStep s ns) := by
  unfold nsendTileStep
  try dsimp only
  split
  · assumption
  · split
    · assumption
    · split
      · refine State.startLoads_keeps ?_ ..
        assumption
      · refine discardStale_keeps ?_ ..
        refine State.finishMessage_keeps ?_ ..
        refine State.applyTile_keeps ?_ ..
        assumption

theorem portDownStep_keeps {s₀ s : State} (h : Keeps s₀ s) (p : Nat) :
    Keeps s₀ (portDownStep s p) := by
  unfold portDownStep
  try dsimp only
  split
  · assumption
  · refine State.bump32_keeps ?_ ..
    refine State.setReg_keeps ?_ ..
    assumption

theorem portUpStep_keeps {s₀ s : State} (h : Keeps s₀ s) (p : Nat) :
    Keeps s₀ (portUpStep s p) := by
  unfold portUpStep
  try dsimp only
  split
  · assumption
  · refine Keeps.foldl (fun t x ht => ?_) ?_ _
    · refine State.pump_keeps ?_ ..
      assumption
    · refine State.setReg_keeps ?_ ..
      assumption

theorem frameStep_keeps {s₀ s : State} (h : Keeps s₀ s) (f : Frame) :
    Keeps s₀ (frameStep s f) := by
  unfold frameStep
  try dsimp only
  split
  · assumption
  · split
    · refine State.bump64_keeps ?_ ..
      assumption
    · split
      · refine State.bump64_keeps ?_ ..
        assumption
      · split
        · refine State.bump64_keeps ?_ ..
          assumption
        · split
          · assumption
          · refine State.bump64_keeps ?_ ..
            assumption

theorem State.collSource_keeps {s₀ s : State} (h : Keeps s₀ s) (sl : Nat) (id : Nat) :
    Keeps s₀ (State.collSource s sl id).2 := by
  unfold State.collSource
  try dsimp only
  split
  · dsimp only
    refine State.unmappedAccess_keeps ?_ ..
    assumption
  · dsimp only
    refine State.unmappedAccess_keeps ?_ ..
    assumption
  · dsimp only
    split
    · refine State.bump64_keeps ?_ ..
      assumption
    · assumption
  · dsimp only
    split
    · refine State.bump64_keeps ?_ ..
      assumption
    · assumption

theorem State.collSources_keeps {s₀ s : State} (h : Keeps s₀ s) (a b n : Nat) :
    Keeps s₀ (s.collSources a b n).2 := by
  induction n with
  | zero => exact h
  | succ n ih => exact State.collSource_keeps ih ..

theorem State.setColl_keeps {s₀ s : State} (h : Keeps s₀ s) (c : Coll) :
    Keeps s₀ (State.setColl s c) := by
  unfold State.setColl
  try dsimp only
  refine Keeps.mk1 ?_ _ _ _ _ _ _ _ _ _ _ _ _ _ _ _ _ _ _ _ rfl rfl rfl rfl rfl rfl
  assumption

theorem State.sendColl_keeps {s₀ s : State} (h : Keeps s₀ s) (c : Coll) (q : Nat) (kind : Nat) (index : Nat) (t : Option CollTile) :
    Keeps s₀ (State.sendColl s c q kind index t) := by
  unfold State.sendColl
  try dsimp only
  refine State.sendMessage_keeps ?_ ..
  assumption

theorem State.writeResult_keeps {s₀ s : State} (h : Keeps s₀ s) (c : Coll) (q : Nat) (i : Nat) (t : Tile) (fl : List Nat) :
    Keeps s₀ (State.writeResult s c q i t fl) := by
  unfold State.writeResult
  try dsimp only
  refine State.bump64_keeps ?_ ..
  refine State.bump64_keeps ?_ ..
  refine State.writeTile_keeps ?_ ..
  assumption

theorem State.formResults_keeps {s₀ s : State} (h : Keeps s₀ s) (key : Nat) :
    Keeps s₀ (State.formResults s key) := by
  unfold State.formResults
  try dsimp only
  split
  · assumption
  · split
    · assumption
    · refine Keeps.foldl (fun t x ht => ?_) ?_ _
      · split
        · assumption
        · split
          · assumption
          · split
            · refine Keeps.foldl (fun t x ht => ?_) ?_ _
              · refine State.sendColl_keeps ?_ ..
                assumption
              · refine State.writeResult_keeps ?_ ..
                refine State.setColl_keeps ?_ ..
                assumption
            · refine State.writeResult_keeps ?_ ..
              refine State.setColl_keeps ?_ ..
              assumption
      · assumption

theorem State.settleColl_keeps {s₀ s : State} (h : Keeps s₀ s) (key : Nat) :
    Keeps s₀ (State.settleColl s key) := by
  unfold State.settleColl
  try dsimp only
  split
  · refine State.formResults_keeps ?_ ..
    assumption
  · split
    · refine State.flightReady_keeps ?_ ..
      refine State.formResults_keeps ?_ ..
      assumption
    · refine State.formResults_keeps ?_ ..
      assumption

theorem State.startColl_keeps {s₀ s : State} (h : Keeps s₀ s) (c : Coll) :
    Keeps s₀ (State.startColl s c) := by
  unfold State.startColl
  try dsimp only
  split
  · refine Keeps.foldl (fun t x ht => ?_) ?_ _
    · refine Keeps.foldl (fun t x ht => ?_) ?_ _
      · refine State.sendColl_keeps ?_ ..
        assumption
      · refine State.writeResult_keeps ?_ ..
        assumption
    · assumption
  · split
    · refine Keeps.foldl (fun t x ht => ?_) ?_ _
      · refine State.sendColl_keeps ?_ ..
        assumption
      · refine Keeps.foldl (fun t x ht => ?_) ?_ _
        · split
          · refine State.sendColl_keeps ?_ ..
            assumption
          · refine Keeps.foldl (fun t x ht => ?_) ?_ _
            · refine State.sendColl_keeps ?_ ..
              assumption
            · assumption
        · assumption
    · refine Keeps.foldl (fun t x ht => ?_) ?_ _
      · split
        · refine State.sendColl_keeps ?_ ..
          assumption
        · refine Keeps.foldl (fun t x ht => ?_) ?_ _
          · refine State.sendColl_keeps ?_ ..
            assumption
          · assumption
      · assumption

theorem State.applyWord_keeps {s₀ s : State} (h : Keeps s₀ s) (c : Coll) (fw : Nat) :
    Keeps s₀ (State.applyWord s c fw) := by
  unfold State.applyWord
  try dsimp only
  split
  · split
    · refine State.setColl_keeps ?_ ..
      assumption
    · refine State.condition_keeps ?_ ..
      refine State.setColl_keeps ?_ ..
      assumption
  · split
    · assumption
    · refine State.condition_keeps ?_ ..
      assumption

theorem State.applyContribution_keeps {s₀ s : State} (h : Keeps s₀ s) (c : Coll) (bs : List Byte) :
    Keeps s₀ (State.applyContribution s c bs) := by
  unfold State.applyContribution
  try dsimp only
  refine State.settleColl_keeps ?_ ..
  split
  · refine State.setColl_keeps ?_ ..
    refine State.applyWord_keeps ?_ ..
    split
    · assumption
    · dsimp only
      refine State.verifyReceived_keeps ?_ ..
      assumption
  · refine State.applyWord_keeps ?_ ..
    split
    · assumption
    · dsimp only
      refine State.verifyReceived_keeps ?_ ..
      assumption

theorem State.applyResult_keeps {s₀ s : State} (h : Keeps s₀ s) (c : Coll) (bs : List Byte) :
    Keeps s₀ (State.applyResult s c bs) := by
  unfold State.applyResult
  try dsimp only
  refine State.settleColl_keeps ?_ ..
  split
  · refine State.setColl_keeps ?_ ..
    refine State.applyWord_keeps ?_ ..
    split
    · assumption
    · refine State.writeTile_keeps ?_ ..
      refine State.verifyReceived_keeps ?_ ..
      assumption
  · refine State.applyWord_keeps ?_ ..
    split
    · assumption
    · refine State.writeTile_keeps ?_ ..
      refine State.verifyReceived_keeps ?_ ..
      assumption

theorem State.applyColl_keeps {s₀ s : State} (h : Keeps s₀ s) (c : Coll) (bs : List Byte) :
    Keeps s₀ (State.applyColl s c bs) := by
  unfold State.applyColl
  try dsimp only
  split
  · refine State.applyContribution_keeps ?_ ..
    assumption
  · refine State.applyResult_keeps ?_ ..
    assumption

theorem State.toUnit_keeps {s₀ s : State} (h : Keeps s₀ s) (ns : Nat) (step : Nat) (bs : List Byte) :
    Keeps s₀ (State.toUnit s ns step bs) := by
  unfold State.toUnit
  try dsimp only
  split
  · refine State.applyColl_keeps ?_ ..
    assumption
  · refine Keeps.mk1 ?_ _ _ _ _ _ _ _ _ _ _ _ _ _ _ _ _ _ _ _ rfl rfl rfl rfl rfl rfl
    assumption

theorem State.feedColl_keeps {s₀ s : State} (h : Keeps s₀ s) (key : Nat) :
    Keeps s₀ (State.feedColl s key) := by
  unfold State.feedColl
  try dsimp only
  split
  · assumption
  · refine Keeps.foldl (fun t x ht => ?_) ?_ _
    · refine State.applyColl_keeps ?_ ..
      assumption
    · refine Keeps.mk1 ?_ _ _ _ _ _ _ _ _ _ _ _ _ _ _ _ _ _ _ _ rfl rfl rfl rfl rfl rfl
      assumption

theorem State.dropEarly_keeps {s₀ s : State} (h : Keeps s₀ s) :
    Keeps s₀ (State.dropEarly s) := by
  unfold State.dropEarly
  try dsimp only
  refine Keeps.mk1 ?_ _ _ _ _ _ _ _ _ _ _ _ _ _ _ _ _ _ _ _ rfl rfl rfl rfl rfl rfl
  refine Keeps.foldl (fun t x ht => ?_) ?_ _
  · refine State.bump32_keeps ?_ ..
    assumption
  · assumption

theorem wordTakeStep_keeps {s₀ s : State} (h : Keeps s₀ s) (sl : Nat) (id : Nat) :
    Keeps s₀ (wordTakeStep s sl id) := by
  unfold wordTakeStep
  try dsimp only
  split
  · assumption
  · refine State.settleColl_keeps ?_ ..
    refine State.startColl_keeps ?_ ..
    split
    · refine Keeps.mk1 ?_ _ _ _ _ _ _ _ _ _ _ _ _ _ _ _ _ _ _ _ rfl rfl rfl rfl rfl rfl
      refine State.setColl_keeps ?_ ..
      refine State.reach_keeps ?_ ..
      assumption
    · refine State.setColl_keeps ?_ ..
      assumption

theorem collAct_keeps {s₀ s : State} (h : Keeps s₀ s) (c : Ctx) :
    Keeps s₀ (collAct s c).state := by
  unfold collAct
  try dsimp only
  refine State.feedColl_keeps ?_ ..
  refine Keeps.mk1 ?_ _ _ _ _ _ _ _ _ _ _ _ _ _ _ _ _ _ _ _ rfl rfl rfl rfl rfl rfl
  split
  · assumption
  · refine State.collSources_keeps ?_ ..
    assumption

theorem collMessageStep_keeps {s₀ s : State} (h : Keeps s₀ s) (ns : Nat) (kind : Nat) :
    Keeps s₀ (collMessageStep s ns kind) := by
  unfold collMessageStep
  try dsimp only
  split
  · assumption
  · split
    · assumption
    · refine discardStale_keeps ?_ ..
      refine State.finishMessage_keeps ?_ ..
      refine State.toUnit_keeps ?_ ..
      assumption

end Sys2Proof.Machine
end

