-- ==== Sys2Proof/Laws/KeepsCommit.lean ====
section
/-! SUPPORT. What the operations of the update engine, of step commit, of PTP and of held writes keep. -/

namespace Sys2Proof.Machine

theorem State.raiseOn_keeps {s₀ s : State} (h : Keeps s₀ s) (slots : Nat) (token : Nat) (count : Nat) (step : Nat) :
    Keeps s₀ (State.raiseOn s slots token count step) := by
  unfold State.raiseOn
  try dsimp only
  split
  · assumption
  · refine Keeps.foldl (fun t x ht => ?_) ?_ _
    · refine State.applyRaise_keeps ?_ ..
      assumption
    · assumption

theorem State.raiseDone_keeps {s₀ s : State} (h : Keeps s₀ s) (c : Sparse Nat) (layer : Nat) (n : Nat) :
    Keeps s₀ (State.raiseDone s c layer n) := by
  unfold State.raiseDone
  try dsimp only
  refine State.raiseOn_keeps ?_ ..
  assumption

theorem State.raiseFree_keeps {s₀ s : State} (h : Keeps s₀ s) (c : Sparse Nat) (n : Nat) :
    Keeps s₀ (State.raiseFree s c n) := by
  unfold State.raiseFree
  try dsimp only
  refine Keeps.foldl (fun t x ht => ?_) ?_ _
  · refine State.raiseOn_keeps ?_ ..
    assumption
  · assumption

theorem State.setStepRec_keeps {s₀ s : State} (h : Keeps s₀ s) (r : StepRec) :
    Keeps s₀ (State.setStepRec s r) := by
  unfold State.setStepRec
  try dsimp only
  refine Keeps.mk1 ?_ _ _ _ _ _ _ _ _ _ _ _ _ _ _ _ _ _ _ _ rfl rfl rfl rfl rfl rfl
  assumption

theorem State.modStep_keeps {s₀ s : State} (h : Keeps s₀ s) (n : Nat) (f : StepRec → StepRec) :
    Keeps s₀ (State.modStep s n f) := by
  unfold State.modStep
  try dsimp only
  refine Keeps.mk1 ?_ _ _ _ _ _ _ _ _ _ _ _ _ _ _ _ _ _ _ _ rfl rfl rfl rfl rfl rfl
  assumption

theorem State.logStep_keeps {s₀ s : State} (h : Keeps s₀ s) (n : Nat) (state : Nat) (cause : Nat) (flag : Nat) (commit : Nat) :
    Keeps s₀ (State.logStep s n state cause flag commit) := by
  unfold State.logStep
  try dsimp only
  refine State.setVal_keeps ?_ ..
  refine Keeps.foldl (fun t x ht => ?_) ?_ _
  · refine State.setReg_keeps ?_ ..
    assumption
  · assumption

theorem State.applyResets_keeps {s₀ s : State} (h : Keeps s₀ s) :
    Keeps s₀ (State.applyResets s) := by
  unfold State.applyResets
  try dsimp only
  refine Keeps.mk1 ?_ _ _ _ _ _ _ _ _ _ _ _ _ _ _ _ _ _ _ _ rfl rfl rfl rfl rfl rfl
  refine Keeps.foldl (fun t x ht => ?_) ?_ _
  · refine State.setShardRec_keeps ?_ ..
    assumption
  · assumption

theorem State.arriveUpdates_keeps {s₀ s : State} (h : Keeps s₀ s) :
    Keeps s₀ (State.arriveUpdates s) := by
  unfold State.arriveUpdates
  try dsimp only
  refine Keeps.foldl (fun t x ht => ?_) ?_ _
  · split
    · assumption
    · refine Keeps.mk1 ?_ _ _ _ _ _ _ _ _ _ _ _ _ _ _ _ _ _ _ _ rfl rfl rfl rfl rfl rfl
      assumption
  · assumption

theorem State.requeue_keeps {s₀ s : State} (h : Keeps s₀ s) :
    Keeps s₀ (State.requeue s) := by
  unfold State.requeue
  try dsimp only
  refine Keeps.foldl (fun t x ht => ?_) ?_ _
  · split
    · assumption
    · refine Keeps.mk1 ?_ _ _ _ _ _ _ _ _ _ _ _ _ _ _ _ _ _ _ _ rfl rfl rfl rfl rfl rfl
      assumption
  · refine State.arriveUpdates_keeps ?_ ..
    assumption

theorem State.discardUpdates_keeps {s₀ s : State} (h : Keeps s₀ s) (n : Nat) :
    Keeps s₀ (State.discardUpdates s n) := by
  unfold State.discardUpdates
  try dsimp only
  refine Keeps.mk1 ?_ _ _ _ _ _ _ _ _ _ _ _ _ _ _ _ _ _ _ _ rfl rfl rfl rfl rfl rfl
  assumption

theorem State.modPhases_keeps {s₀ s : State} (h : Keeps s₀ s) (n : Nat) (f : Nat → Nat) :
    Keeps s₀ (State.modPhases s n f) := by
  unfold State.modPhases
  try dsimp only
  refine Keeps.foldl (fun t x ht => ?_) ?_ _
  · refine State.setShardRec_keeps ?_ ..
    assumption
  · assumption

theorem State.forget_keeps {s₀ s : State} (h : Keeps s₀ s) (n : Nat) :
    Keeps s₀ (State.forget s n) := by
  unfold State.forget
  try dsimp only
  refine Keeps.mk1 ?_ _ _ _ _ _ _ _ _ _ _ _ _ _ _ _ _ _ _ _ rfl rfl rfl rfl rfl rfl
  assumption

theorem State.skipStep_keeps {s₀ s : State} (h : Keeps s₀ s) (n : Nat) (cause : Nat) (commit : Nat) :
    Keeps s₀ (State.skipStep s n cause commit) := by
  unfold State.skipStep
  try dsimp only
  split
  · assumption
  · refine State.requeue_keeps ?_ ..
    refine State.applyResets_keeps ?_ ..
    refine State.forget_keeps ?_ ..
    refine State.bump64_keeps ?_ ..
    refine State.logStep_keeps ?_ ..
    refine State.raiseFree_keeps ?_ ..
    refine Keeps.foldl (fun t x ht => ?_) ?_ _
    · refine State.raiseDone_keeps ?_ ..
      assumption
    · refine State.modPhases_keeps ?_ ..
      refine State.discardUpdates_keeps ?_ ..
      assumption

theorem State.requestReplay_keeps {s₀ s : State} (h : Keeps s₀ s) (n : Nat) :
    Keeps s₀ (State.requestReplay s n) := by
  unfold State.requestReplay
  try dsimp only
  split
  · refine State.raiseEventOf_keeps ?_ ..
    refine State.bump64_keeps ?_ ..
    assumption
  · split
    · refine State.raiseEventOf_keeps ?_ ..
      refine State.bump64_keeps ?_ ..
      assumption
    · refine Keeps.mk1 ?_ _ _ _ _ _ _ _ _ _ _ _ _ _ _ _ _ _ _ _ rfl rfl rfl rfl rfl rfl
      refine State.raiseEventOf_keeps ?_ ..
      refine State.bump64_keeps ?_ ..
      assumption

theorem State.putMoments_keeps {s₀ s : State} (h : Keeps s₀ s) (bd : Nat) (r : Nat) (m : Moments) :
    Keeps s₀ (State.putMoments s bd r m) := by
  unfold State.putMoments
  try dsimp only
  refine Keeps.mk1 ?_ _ _ _ _ _ _ _ _ _ _ _ _ _ _ _ _ _ _ _ rfl rfl rfl rfl rfl rfl
  assumption

theorem State.journalError_keeps {s₀ s : State} (h : Keeps s₀ s) (code : Nat) :
    Keeps s₀ (State.journalError s code) := by
  unfold State.journalError
  try dsimp only
  refine State.raiseEvent_keeps ?_ ..
  refine State.setVal_keeps ?_ ..
  assumption

theorem State.startCheckpoint_keeps {s₀ s : State} (h : Keeps s₀ s) (n : Nat) :
    Keeps s₀ (State.startCheckpoint s n) := by
  have h' := State.setVal_keeps h P.checkpointStep (2 ^ 64 - 1)
  unfold State.startCheckpoint
  generalize s.setVal P.checkpointStep (2 ^ 64 - 1) = u at h' ⊢
  dsimp only
  split_ifs
  all_goals first
    | exact State.journalError_keeps h' ..
    | refine Keeps.foldl (fun t x ht => State.raiseEvent_keeps ht ..) ?_ _
      exact ⟨h'.queue, h'.params, h'.tiles, h'.pages, h'.dies, h'.events, h'.staged, h'.retired⟩

theorem State.headCheckpoints_keeps {s₀ s : State} (h : Keeps s₀ s) (n : Nat) :
    Keeps s₀ (State.headCheckpoints s n) := by
  unfold State.headCheckpoints
  try dsimp only
  refine Keeps.mk1 ?_ _ _ _ _ _ _ _ _ _ _ _ _ _ _ _ _ _ _ _ rfl rfl rfl rfl rfl rfl
  assumption

theorem State.nonZeroField_keeps {s₀ s : State} (h : Keeps s₀ s) (v : Option ℤ) :
    Keeps s₀ (State.nonZeroField s v).2 := by
  unfold State.nonZeroField
  try dsimp only
  split
  · split
    · assumption
    · dsimp only
      refine State.draw_keeps ?_ ..
      assumption
  · dsimp only
    refine State.draw_keeps ?_ ..
    assumption

theorem State.silence_keeps {s₀ s : State} (h : Keeps s₀ s) (n : Nat) (k : Nat) (layer : Nat) :
    Keeps s₀ (State.silence s n k layer) := by
  unfold State.silence
  try dsimp only
  split
  · assumption
  · split
    · split
      · refine State.raiseEvent_keeps ?_ ..
        refine State.setReg_keeps ?_ ..
        refine Keeps.mk1 ?_ _ _ _ _ _ _ _ _ _ _ _ _ _ _ _ _ _ _ _ rfl rfl rfl rfl rfl rfl
        refine State.nonZeroField_keeps ?_ ..
        assumption
      · split
        · refine State.raiseEvent_keeps ?_ ..
          refine State.setReg_keeps ?_ ..
          refine Keeps.mk1 ?_ _ _ _ _ _ _ _ _ _ _ _ _ _ _ _ _ _ _ _ rfl rfl rfl rfl rfl rfl
          refine State.nonZeroField_keeps ?_ ..
          assumption
        · refine State.setReg_keeps ?_ ..
          refine Keeps.mk1 ?_ _ _ _ _ _ _ _ _ _ _ _ _ _ _ _ _ _ _ _ rfl rfl rfl rfl rfl rfl
          refine State.nonZeroField_keeps ?_ ..
          assumption
    · split
      · refine State.raiseEvent_keeps ?_ ..
        refine State.setReg_keeps ?_ ..
        refine Keeps.mk1 ?_ _ _ _ _ _ _ _ _ _ _ _ _ _ _ _ _ _ _ _ rfl rfl rfl rfl rfl rfl
        refine State.nonZeroField_keeps ?_ ..
        assumption
      · split
        · refine State.raiseEvent_keeps ?_ ..
          refine State.setReg_keeps ?_ ..
          refine Keeps.mk1 ?_ _ _ _ _ _ _ _ _ _ _ _ _ _ _ _ _ _ _ _ rfl rfl rfl rfl rfl rfl
          refine State.nonZeroField_keeps ?_ ..
          assumption
        · refine State.setReg_keeps ?_ ..
          refine Keeps.mk1 ?_ _ _ _ _ _ _ _ _ _ _ _ _ _ _ _ _ _ _ _ rfl rfl rfl rfl rfl rfl
          refine State.nonZeroField_keeps ?_ ..
          assumption

theorem State.silenceAll_keeps {s₀ s : State} (h : Keeps s₀ s) (n : Nat) :
    Keeps s₀ (State.silenceAll s n) := by
  unfold State.silenceAll
  try dsimp only
  refine Keeps.foldl (fun t x ht => ?_) ?_ _
  · refine State.silence_keeps ?_ ..
    assumption
  · assumption

theorem State.commitStep_keeps {s₀ s : State} (h : Keeps s₀ s) (n : Nat) :
    Keeps s₀ (State.commitStep s n) := by
  unfold State.commitStep
  try dsimp only
  refine State.requeue_keeps ?_ ..
  refine State.applyResets_keeps ?_ ..
  refine State.forget_keeps ?_ ..
  split
  · refine State.startCheckpoint_keeps ?_ ..
    refine State.silenceAll_keeps ?_ ..
    refine State.bump64_keeps ?_ ..
    refine State.logStep_keeps ?_ ..
    refine State.raiseFree_keeps ?_ ..
    refine State.modPhases_keeps ?_ ..
    assumption
  · refine State.silenceAll_keeps ?_ ..
    refine State.bump64_keeps ?_ ..
    refine State.logStep_keeps ?_ ..
    refine State.raiseFree_keeps ?_ ..
    refine State.modPhases_keeps ?_ ..
    assumption

theorem State.orphanNext_keeps {s₀ s : State} (h : Keeps s₀ s) (n : Nat) :
    Keeps s₀ (State.orphanNext s n) := by
  unfold State.orphanNext
  try dsimp only
  split
  · refine State.skipStep_keeps ?_ ..
    assumption
  · refine Keeps.mk1 ?_ _ _ _ _ _ _ _ _ _ _ _ _ _ _ _ _ _ _ _ rfl rfl rfl rfl rfl rfl
    assumption

theorem State.decideStep_keeps {s₀ s : State} (h : Keeps s₀ s) (n : Nat) (word : Nat) :
    Keeps s₀ (State.decideStep s n word) := by
  unfold State.decideStep
  try dsimp only
  split
  · refine State.commitStep_keeps ?_ ..
    assumption
  · split
    · refine State.requestReplay_keeps ?_ ..
      split
      · refine Keeps.mk1 ?_ _ _ _ _ _ _ _ _ _ _ _ _ _ _ _ _ _ _ _ rfl rfl rfl rfl rfl rfl
        refine State.orphanNext_keeps ?_ ..
        refine State.skipStep_keeps ?_ ..
        assumption
      · refine State.orphanNext_keeps ?_ ..
        refine State.skipStep_keeps ?_ ..
        assumption
    · split
      · refine Keeps.mk1 ?_ _ _ _ _ _ _ _ _ _ _ _ _ _ _ _ _ _ _ _ rfl rfl rfl rfl rfl rfl
        refine State.orphanNext_keeps ?_ ..
        refine State.skipStep_keeps ?_ ..
        assumption
      · refine State.orphanNext_keeps ?_ ..
        refine State.skipStep_keeps ?_ ..
        assumption

theorem State.sendReplica_keeps {s₀ s : State} (h : Keeps s₀ s) (g : Nat) (q : Nat) (step : Nat) (payload : List Byte) :
    Keeps s₀ (State.sendReplica s g q step payload) := by
  unfold State.sendReplica
  try dsimp only
  refine State.sendMessage_keeps ?_ ..
  assumption

theorem State.sendReplicaAll_keeps {s₀ s : State} (h : Keeps s₀ s) (g : Nat) (step : Nat) (payload : List Byte) :
    Keeps s₀ (State.sendReplicaAll s g step payload) := by
  unfold State.sendReplicaAll
  try dsimp only
  refine Keeps.foldl (fun t x ht => ?_) ?_ _
  · refine State.sendReplica_keeps ?_ ..
    assumption
  · assumption

theorem State.stopShard_keeps {s₀ s : State} (h : Keeps s₀ s) (n : Nat) (sh : Nat) :
    Keeps s₀ (State.stopShard s n sh) := by
  unfold State.stopShard
  try dsimp only
  refine State.modStep_keeps ?_ ..
  assumption

theorem collReportStep_keeps {s₀ s : State} (h : Keeps s₀ s) (g : Nat) (n : Nat) :
    Keeps s₀ (collReportStep s g n) := by
  unfold collReportStep
  try dsimp only
  split
  · assumption
  · split
    · refine Keeps.mk1 ?_ _ _ _ _ _ _ _ _ _ _ _ _ _ _ _ _ _ _ _ rfl rfl rfl rfl rfl rfl
      assumption
    · refine State.requeue_keeps ?_ ..
      refine Keeps.mk1 ?_ _ _ _ _ _ _ _ _ _ _ _ _ _ _ _ _ _ _ _ rfl rfl rfl rfl rfl rfl
      refine Keeps.foldl (fun t x ht => ?_) ?_ _
      · refine State.bump32_keeps ?_ ..
        assumption
      · refine State.setStepRec_keeps ?_ ..
        refine Keeps.mk1 ?_ _ _ _ _ _ _ _ _ _ _ _ _ _ _ _ _ _ _ _ rfl rfl rfl rfl rfl rfl
        assumption

theorem updateStartStep_keeps {s₀ s : State} (h : Keeps s₀ s) (b : Nat) :
    Keeps s₀ (updateStartStep s b) := by
  unfold updateStartStep
  try dsimp only
  split
  · refine State.requeue_keeps ?_ ..
    refine State.setShardRec_keeps ?_ ..
    refine Keeps.mk1 ?_ _ _ _ _ _ _ _ _ _ _ _ _ _ _ _ _ _ _ _ rfl rfl rfl rfl rfl rfl
    assumption
  · assumption

theorem State.engineRead_keeps {s₀ s : State} (h : Keeps s₀ s) (b : Nat) (id : Nat) (width : Nat) :
    Keeps s₀ (State.engineRead s b id width).2.2 := by
  unfold State.engineRead
  try dsimp only
  refine State.readRaw_keeps ?_ ..
  assumption

theorem State.formTile_keeps {s₀ s : State} (h : Keeps s₀ s) (c : Sparse Nat) (d : Nat) (n : Nat) (k : Nat) (half : Nat) :
    Keeps s₀ (State.formTile s c d n k half).2 := by
  unfold State.formTile
  try dsimp only
  split
  · dsimp only
    refine State.engineRead_keeps ?_ ..
    refine State.engineRead_keeps ?_ ..
    refine State.engineRead_keeps ?_ ..
    assumption
  · dsimp only
    refine State.engineRead_keeps ?_ ..
    refine State.engineRead_keeps ?_ ..
    refine State.engineRead_keeps ?_ ..
    assumption

theorem State.countUpdate_keeps {s₀ s : State} (h : Keeps s₀ s) (b : Nat) (w : Tile) (u : TileUpdate) :
    Keeps s₀ (State.countUpdate s b w u) := by
  unfold State.countUpdate
  try dsimp only
  refine State.bump64_keeps ?_ ..
  refine State.bump64_keeps ?_ ..
  refine State.bump64_keeps ?_ ..
  refine State.bump64_keeps ?_ ..
  refine State.bump64_keeps ?_ ..
  refine State.bump64_keeps ?_ ..
  refine State.bump64_keeps ?_ ..
  refine State.bump64_keeps ?_ ..
  refine State.bump64_keeps ?_ ..
  assumption

theorem State.writeUpdate_keeps {s₀ s : State} (h : Keeps s₀ s) (sh : Nat) (d : Nat) (k : Nat) (half : Nat) (x : TileResult) (wrong : List Miswrite) :
    Keeps s₀ (State.writeUpdate s sh d k half x wrong) := by
  unfold State.writeUpdate
  try dsimp only
  refine State.setShardRec_keeps ?_ ..
  split
  · refine State.countUpdate_keeps ?_ ..
    refine State.putMoments_keeps ?_ ..
    split
    · refine State.countLayer_keeps ?_ ..
      refine State.storeTile_keeps ?_ ..
      split
      · refine State.countLayer_keeps ?_ ..
        refine State.storeTile_keeps ?_ ..
        assumption
      · refine State.storeTile_keeps ?_ ..
        assumption
    · refine State.storeTile_keeps ?_ ..
      split
      · refine State.countLayer_keeps ?_ ..
        refine State.storeTile_keeps ?_ ..
        assumption
      · refine State.storeTile_keeps ?_ ..
        assumption
  · refine State.bump64_keeps ?_ ..
    refine State.putMoments_keeps ?_ ..
    split
    · refine State.countLayer_keeps ?_ ..
      refine State.storeTile_keeps ?_ ..
      split
      · refine State.countLayer_keeps ?_ ..
        refine State.storeTile_keeps ?_ ..
        assumption
      · refine State.storeTile_keeps ?_ ..
        assumption
    · refine State.storeTile_keeps ?_ ..
      split
      · refine State.countLayer_keeps ?_ ..
        refine State.storeTile_keeps ?_ ..
        assumption
      · refine State.storeTile_keeps ?_ ..
        assumption

theorem State.noteMet_keeps {s₀ s : State} (h : Keeps s₀ s) (n : Nat) :
    Keeps s₀ (State.noteMet s n) := by
  unfold State.noteMet
  try dsimp only
  split
  · split
    · refine State.setStepRec_keeps ?_ ..
      assumption
    · assumption
  · assumption

theorem State.layerDone_keeps {s₀ s : State} (h : Keeps s₀ s) (n : Nat) (layer : Nat) :
    Keeps s₀ (State.layerDone s n layer) := by
  unfold State.layerDone
  try dsimp only
  split
  · split
    · assumption
    · refine State.raiseDone_keeps ?_ ..
      refine State.setStepRec_keeps ?_ ..
      assumption
  · assumption

theorem State.offerDigest_keeps {s₀ s : State} (h : Keeps s₀ s) (n : Nat) (sh : Nat) :
    Keeps s₀ (State.offerDigest s n sh) := by
  unfold State.offerDigest
  try dsimp only
  split
  · assumption
  · split
    · refine State.sendReplicaAll_keeps ?_ ..
      assumption
    · split
      · refine State.setStepRec_keeps ?_ ..
        assumption
      · refine State.sendReplicaAll_keeps ?_ ..
        refine State.setStepRec_keeps ?_ ..
        assumption

theorem State.writeShard_keeps {s₀ s : State} (h : Keeps s₀ s) (b : Nat) (wrong : List Miswrite) :
    Keeps s₀ (State.writeShard s b wrong) := by
  unfold State.writeShard
  try dsimp only
  split
  · assumption
  · split
    · refine State.startLoads_keeps ?_ ..
      assumption
    · refine State.requeue_keeps ?_ ..
      refine State.noteMet_keeps ?_ ..
      refine State.offerDigest_keeps ?_ ..
      refine State.layerDone_keeps ?_ ..
      refine State.setShardRec_keeps ?_ ..
      refine Keeps.mk1 ?_ _ _ _ _ _ _ _ _ _ _ _ _ _ _ _ _ _ _ _ rfl rfl rfl rfl rfl rfl
      refine Keeps.foldl_pair (fun t x ht => ?_) ?_ _
      · dsimp only
        refine State.writeUpdate_keeps ?_ ..
        refine State.formTile_keeps ?_ ..
        assumption
      · assumption

theorem updateInterruptStep_keeps {s₀ s : State} (h : Keeps s₀ s) (b : Nat) :
    Keeps s₀ (updateInterruptStep s b) := by
  unfold updateInterruptStep
  try dsimp only
  split
  · assumption
  · split
    · refine State.requeue_keeps ?_ ..
      refine State.noteMet_keeps ?_ ..
      refine State.modStep_keeps ?_ ..
      refine State.stopShard_keeps ?_ ..
      refine State.sendReplicaAll_keeps ?_ ..
      refine State.raiseEvent_keeps ?_ ..
      refine Keeps.mk1 ?_ _ _ _ _ _ _ _ _ _ _ _ _ _ _ _ _ _ _ _ rfl rfl rfl rfl rfl rfl
      assumption
    · refine State.bump32_keeps ?_ ..
      refine State.setShardRec_keeps ?_ ..
      assumption

theorem triggerStallStep_keeps {s₀ s : State} (h : Keeps s₀ s) (sh : Nat) :
    Keeps s₀ (triggerStallStep s sh) := by
  unfold triggerStallStep
  try dsimp only
  split
  · assumption
  · split
    · assumption
    · refine State.raiseEvent_keeps ?_ ..
      refine State.setStepRec_keeps ?_ ..
      refine State.reach_keeps ?_ ..
      assumption

theorem State.writeJournal_keeps {s₀ s : State} (h : Keeps s₀ s) (c : Checkpoint) (n : Nat) :
    Keeps s₀ (State.writeJournal s c n) := by
  unfold State.writeJournal
  try dsimp only
  refine Keeps.foldl (fun t x ht => ?_) ?_ _
  · refine State.writeLu_keeps ?_ ..
    refine State.writeLu_keeps ?_ ..
    assumption
  · assumption

theorem State.abandonJournal_keeps {s₀ s : State} (h : Keeps s₀ s) (c : Checkpoint) :
    Keeps s₀ (State.abandonJournal s c) := by
  unfold State.abandonJournal
  try dsimp only
  refine State.writeJournal_keeps ?_ ..
  refine State.draw_keeps ?_ ..
  assumption

theorem State.checkJournal_keeps {s₀ s : State} (h : Keeps s₀ s) :
    Keeps s₀ (State.checkJournal s) := by
  unfold State.checkJournal
  try dsimp only
  refine State.setVal_keeps ?_ ..
  refine Keeps.mk1 ?_ _ _ _ _ _ _ _ _ _ _ _ _ _ _ _ _ _ _ _ rfl rfl rfl rfl rfl rfl
  assumption

theorem State.loseCheckpoints_keeps {s₀ s : State} (h : Keeps s₀ s) :
    Keeps s₀ (State.loseCheckpoints s) := by
  unfold State.loseCheckpoints
  try dsimp only
  refine Keeps.foldl (fun t x ht => ?_) ?_ _
  · refine State.abandonJournal_keeps ?_ ..
    assumption
  · refine Keeps.mk1 ?_ _ _ _ _ _ _ _ _ _ _ _ _ _ _ _ _ _ _ _ rfl rfl rfl rfl rfl rfl
    assumption

theorem State.takeReplica_keeps {s₀ s : State} (h : Keeps s₀ s) (ns : Nat) (typ : Nat) :
    Keeps s₀ (State.takeReplica s ns typ).2 := by
  unfold State.takeReplica
  try dsimp only
  split
  · assumption
  · split
    · assumption
    · split
      · dsimp only
        refine State.startLoads_keeps ?_ ..
        assumption
      · split
        · dsimp only
          refine Keeps.mk1 ?_ _ _ _ _ _ _ _ _ _ _ _ _ _ _ _ _ _ _ _ rfl rfl rfl rfl rfl rfl
          refine discardStale_keeps ?_ ..
          refine State.finishMessage_keeps ?_ ..
          assumption
        · dsimp only
          refine State.bump32_keeps ?_ ..
          refine discardStale_keeps ?_ ..
          refine State.finishMessage_keeps ?_ ..
          assumption

theorem State.dropKept_keeps {s₀ s : State} (h : Keeps s₀ s) (k : Kept) :
    Keeps s₀ (State.dropKept s k) := by
  unfold State.dropKept
  try dsimp only
  refine Keeps.mk1 ?_ _ _ _ _ _ _ _ _ _ _ _ _ _ _ _ _ _ _ _ rfl rfl rfl rfl rfl rfl
  assumption

theorem State.sendCopy_keeps {s₀ s : State} (h : Keeps s₀ s) (g : Nat) (q : Nat) (n : Nat) (sh : Nat) (d : Nat) :
    Keeps s₀ (State.sendCopy s g q n sh d) := by
  unfold State.sendCopy
  try dsimp only
  refine Keeps.foldl (fun t x ht => ?_) ?_ _
  · refine State.sendReplica_keeps ?_ ..
    refine State.sendReplica_keeps ?_ ..
    refine State.sendReplica_keeps ?_ ..
    assumption
  · assumption

theorem State.putShard_keeps {s₀ s : State} (h : Keeps s₀ s) (n : Nat) (x : ShardCommit) :
    Keeps s₀ (State.putShard s n x) := by
  unfold State.putShard
  try dsimp only
  refine State.modStep_keeps ?_ ..
  assumption

theorem State.actOnRechecks_keeps {s₀ s : State} (h : Keeps s₀ s) (g : Nat) (n : Nat) (d : Nat) (x : ShardCommit) :
    Keeps s₀ (State.actOnRechecks s g n d x) := by
  unfold State.actOnRechecks
  try dsimp only
  split
  · refine State.putShard_keeps ?_ ..
    assumption
  · refine State.putShard_keeps ?_ ..
    assumption
  · split
    · refine State.putShard_keeps ?_ ..
      assumption
    · refine State.putShard_keeps ?_ ..
      assumption
  · split
    · refine Keeps.foldl (fun t x ht => ?_) ?_ _
      · refine State.sendCopy_keeps ?_ ..
        assumption
      · refine State.putShard_keeps ?_ ..
        assumption
    · refine State.putShard_keeps ?_ ..
      assumption

theorem State.judgeCopy_keeps {s₀ s : State} (h : Keeps s₀ s) (g : Nat) (n : Nat) (d : Nat) (q : Nat) (x : ShardCommit) (pair : Nat × Nat) :
    Keeps s₀ (State.judgeCopy s g n d q x pair) := by
  unfold State.judgeCopy
  try dsimp only
  split
  · refine State.putShard_keeps ?_ ..
    assumption
  · split
    · refine State.putShard_keeps ?_ ..
      assumption
    · split
      · refine State.sendCopy_keeps ?_ ..
        refine State.putShard_keeps ?_ ..
        assumption
      · refine State.putShard_keeps ?_ ..
        assumption

theorem State.applyCopy_keeps {s₀ s : State} (h : Keeps s₀ s) (g : Nat) (n : Nat) (d : Nat) (x : ShardCommit) (k : Kept) :
    Keeps s₀ (State.applyCopy s g n d x k) := by
  unfold State.applyCopy
  try dsimp only
  split
  · split
    · refine State.countLayer_keeps ?_ ..
      refine Keeps.of_pair ‹_› ?_
      refine State.storeTile_keeps ?_ ..
      refine State.verifyReceived_keeps ?_ ..
      assumption
    · refine Keeps.of_pair ‹_› ?_
      refine State.storeTile_keeps ?_ ..
      refine State.verifyReceived_keeps ?_ ..
      assumption
  · split
    · refine State.putMoments_keeps ?_ ..
      assumption
    · refine State.judgeCopy_keeps ?_ ..
      refine State.sendReplicaAll_keeps ?_ ..
      refine State.bump64_keeps ?_ ..
      refine State.setShardRec_keeps ?_ ..
      refine State.putMoments_keeps ?_ ..
      assumption

theorem State.settleOnce_keeps {s₀ s : State} (h : Keeps s₀ s) (n : Nat) (sh : Nat) :
    Keeps s₀ (State.settleOnce s n sh).2 := by
  unfold State.settleOnce
  try dsimp only
  split
  · assumption
  · split
    · assumption
    · split
      · split
        · assumption
        · split
          · dsimp only
            refine State.putShard_keeps ?_ ..
            refine State.bump64_keeps ?_ ..
            refine State.dropKept_keeps ?_ ..
            assumption
          · split
            · dsimp only
              refine State.putShard_keeps ?_ ..
              refine State.dropKept_keeps ?_ ..
              assumption
            · dsimp only
              refine State.putShard_keeps ?_ ..
              refine State.dropKept_keeps ?_ ..
              assumption
      · split
        · assumption
        · split
          · dsimp only
            refine State.actOnRechecks_keeps ?_ ..
            refine Keeps.foldl (fun t x ht => ?_) ?_ _
            · refine State.dropKept_keeps ?_ ..
              assumption
            · refine State.dropKept_keeps ?_ ..
              assumption
          · dsimp only
            refine State.putShard_keeps ?_ ..
            refine State.dropKept_keeps ?_ ..
            assumption
      · split
        · assumption
        · split
          · dsimp only
            refine State.judgeCopy_keeps ?_ ..
            refine State.dropKept_keeps ?_ ..
            assumption
          · dsimp only
            refine State.applyCopy_keeps ?_ ..
            refine State.dropKept_keeps ?_ ..
            assumption
      · assumption

theorem settleShard_keeps {s₀ s : State} (h : Keeps s₀ s) (fuel n sh : Nat) : Keeps s₀ (settleShard fuel n sh s) := by
  induction fuel generalizing s with
  | zero => exact h
  | succ k ih =>
    unfold settleShard
    split
    · refine ih ?_ ..
      refine Keeps.of_pair ‹_› ?_
      refine State.settleOnce_keeps ?_ ..
      assumption
    · refine Keeps.of_pair ‹_› ?_
      refine State.settleOnce_keeps ?_ ..
      assumption

theorem State.settle_keeps {s₀ s : State} (h : Keeps s₀ s) (n : Nat) (sh : Nat) :
    Keeps s₀ (State.settle s n sh) := by
  unfold State.settle
  try dsimp only
  refine settleShard_keeps ?_ ..
  assumption

theorem shardWrittenStep_keeps {s₀ s : State} (h : Keeps s₀ s) (b : Nat) (wrong : List Miswrite) :
    Keeps s₀ (shardWrittenStep s b wrong) := by
  unfold shardWrittenStep
  try dsimp only
  split
  · refine State.settle_keeps ?_ ..
    refine State.writeShard_keeps ?_ ..
    assumption
  · assumption

theorem State.settleStops_keeps {s₀ s : State} (h : Keeps s₀ s) (n : Nat) :
    Keeps s₀ (State.settleStops s n) := by
  unfold State.settleStops
  try dsimp only
  refine Keeps.foldl (fun t x ht => ?_) ?_ _
  · refine State.stopShard_keeps ?_ ..
    refine State.dropKept_keeps ?_ ..
    assumption
  · assumption

theorem digestRecordStep_keeps {s₀ s : State} (h : Keeps s₀ s) (ns : Nat) :
    Keeps s₀ (digestRecordStep s ns) := by
  unfold digestRecordStep
  try dsimp only
  split
  · refine State.settle_keeps ?_ ..
    refine Keeps.of_pair ‹_› ?_
    refine State.takeReplica_keeps ?_ ..
    assumption
  · refine Keeps.of_pair ‹_› ?_
    refine State.takeReplica_keeps ?_ ..
    assumption

theorem recheckRecordStep_keeps {s₀ s : State} (h : Keeps s₀ s) (ns : Nat) :
    Keeps s₀ (recheckRecordStep s ns) := by
  unfold recheckRecordStep
  try dsimp only
  split
  · refine State.settle_keeps ?_ ..
    refine Keeps.of_pair ‹_› ?_
    refine State.takeReplica_keeps ?_ ..
    assumption
  · refine Keeps.of_pair ‹_› ?_
    refine State.takeReplica_keeps ?_ ..
    assumption

theorem copyTileStep_keeps {s₀ s : State} (h : Keeps s₀ s) (ns : Nat) :
    Keeps s₀ (copyTileStep s ns) := by
  unfold copyTileStep
  try dsimp only
  split
  · refine State.settle_keeps ?_ ..
    refine Keeps.of_pair ‹_› ?_
    refine State.takeReplica_keeps ?_ ..
    assumption
  · refine Keeps.of_pair ‹_› ?_
    refine State.takeReplica_keeps ?_ ..
    assumption

theorem copyMomentsStep_keeps {s₀ s : State} (h : Keeps s₀ s) (ns : Nat) :
    Keeps s₀ (copyMomentsStep s ns) := by
  unfold copyMomentsStep
  try dsimp only
  split
  · refine State.settle_keeps ?_ ..
    refine Keeps.of_pair ‹_› ?_
    refine State.takeReplica_keeps ?_ ..
    assumption
  · refine Keeps.of_pair ‹_› ?_
    refine State.takeReplica_keeps ?_ ..
    assumption

theorem stopRecordStep_keeps {s₀ s : State} (h : Keeps s₀ s) (ns : Nat) :
    Keeps s₀ (stopRecordStep s ns) := by
  unfold stopRecordStep
  try dsimp only
  split
  · split
    · refine State.settleStops_keeps ?_ ..
      refine Keeps.of_pair ‹_› ?_
      refine State.takeReplica_keeps ?_ ..
      assumption
    · refine Keeps.of_pair ‹_› ?_
      refine State.takeReplica_keeps ?_ ..
      assumption
  · refine Keeps.of_pair ‹_› ?_
    refine State.takeReplica_keeps ?_ ..
    assumption

theorem recheckStep_keeps {s₀ s : State} (h : Keeps s₀ s) (sh : Nat) :
    Keeps s₀ (recheckStep s sh) := by
  unfold recheckStep
  try dsimp only
  split
  · assumption
  · split
    · assumption
    · refine State.settle_keeps ?_ ..
      refine State.putShard_keeps ?_ ..
      refine State.sendReplicaAll_keeps ?_ ..
      refine State.bump64_keeps ?_ ..
      assumption

theorem State.tryDecide_keeps {s₀ s : State} (h : Keeps s₀ s) (n : Nat) :
    Keeps s₀ (State.tryDecide s n) := by
  unfold State.tryDecide
  try dsimp only
  split
  · split
    · refine State.decideStep_keeps ?_ ..
      assumption
    · assumption
  · assumption

theorem commitFormedStep_keeps {s₀ s : State} (h : Keeps s₀ s) :
    Keeps s₀ (commitFormedStep s) := by
  unfold commitFormedStep
  try dsimp only
  split
  · assumption
  · refine State.tryDecide_keeps ?_ ..
    split
    · refine State.sendReplicaAll_keeps ?_ ..
      refine State.setStepRec_keeps ?_ ..
      assumption
    · refine State.setStepRec_keeps ?_ ..
      assumption

theorem commitRecordStep_keeps {s₀ s : State} (h : Keeps s₀ s) (ns : Nat) :
    Keeps s₀ (commitRecordStep s ns) := by
  unfold commitRecordStep
  try dsimp only
  split
  · refine State.tryDecide_keeps ?_ ..
    refine Keeps.of_pair ‹_› ?_
    refine State.takeReplica_keeps ?_ ..
    assumption
  · refine Keeps.of_pair ‹_› ?_
    refine State.takeReplica_keeps ?_ ..
    assumption

theorem commitStallStep_keeps {s₀ s : State} (h : Keeps s₀ s) :
    Keeps s₀ (commitStallStep s) := by
  unfold commitStallStep
  try dsimp only
  split
  · assumption
  · split
    · assumption
    · split
      · assumption
      · refine State.raiseEvent_keeps ?_ ..
        refine State.bump32_keeps ?_ ..
        refine State.setStepRec_keeps ?_ ..
        refine State.reach_keeps ?_ ..
        assumption

theorem checkpointStepDone_keeps {s₀ s : State} (h : Keeps s₀ s) (durable : Bool) :
    Keeps s₀ (checkpointStepDone s durable) := by
  unfold checkpointStepDone
  try dsimp only
  split
  · assumption
  · split
    · assumption
    · split
      · refine State.bump64_keeps ?_ ..
        refine State.setVal_keeps ?_ ..
        refine State.setVal_keeps ?_ ..
        refine Keeps.mk1 ?_ _ _ _ _ _ _ _ _ _ _ _ _ _ _ _ _ _ _ _ rfl rfl rfl rfl rfl rfl
        refine State.writeJournal_keeps ?_ ..
        refine Keeps.mk1 ?_ _ _ _ _ _ _ _ _ _ _ _ _ _ _ _ _ _ _ _ rfl rfl rfl rfl rfl rfl
        assumption
      · refine State.raiseEvent_keeps ?_ ..
        refine State.abandonJournal_keeps ?_ ..
        refine Keeps.mk1 ?_ _ _ _ _ _ _ _ _ _ _ _ _ _ _ _ _ _ _ _ rfl rfl rfl rfl rfl rfl
        assumption

theorem State.beginRestore_keeps {s₀ s : State} (h : Keeps s₀ s) (n : Nat) :
    Keeps s₀ (State.beginRestore s n) := by
  unfold State.beginRestore
  try dsimp only
  split
  · refine State.setVal_keeps ?_ ..
    assumption
  · split
    · refine State.setVal_keeps ?_ ..
      assumption
    · split
      · refine State.setVal_keeps ?_ ..
        assumption
      · refine State.setVal_keeps ?_ ..
        refine Keeps.mk1 ?_ _ _ _ _ _ _ _ _ _ _ _ _ _ _ _ _ _ _ _ rfl rfl rfl rfl rfl rfl
        refine Keeps.foldl (fun t x ht => ?_) ?_ _
        · refine State.skipStep_keeps ?_ ..
          assumption
        · assumption

theorem State.writeSection_keeps {s₀ s : State} (h : Keeps s₀ s) (x : CkSection) :
    Keeps s₀ (State.writeSection s x) := by
  unfold State.writeSection
  try dsimp only
  refine Keeps.foldl (fun t x ht => ?_) ?_ _
  · refine State.putMoments_keeps ?_ ..
    refine State.write_keeps ?_ ..
    refine State.write_keeps ?_ ..
    assumption
  · assumption

theorem State.scramble_keeps {s₀ s : State} (h : Keeps s₀ s) :
    Keeps s₀ (State.scramble s) := by
  unfold State.scramble
  try dsimp only
  refine Keeps.foldl (fun t x ht => ?_) ?_ _
  · refine Keeps.foldl (fun t x ht => ?_) ?_ _
    · refine Keeps.foldl (fun t x ht => ?_) ?_ _
      · refine State.putMoments_keeps ?_ ..
        split
        · split
          · refine State.putStored_keeps ?_ ..
            refine State.putStored_keeps ?_ ..
            assumption
          · refine State.putStored_keeps ?_ ..
            assumption
        · split
          · refine State.putStored_keeps ?_ ..
            assumption
          · assumption
      · assumption
    · assumption
  · refine State.draw_keeps ?_ ..
    assumption

theorem restoreCompleteStep_keeps {s₀ s : State} (h : Keeps s₀ s) :
    Keeps s₀ (restoreCompleteStep s) := by
  unfold restoreCompleteStep
  try dsimp only
  split
  · assumption
  · split
    · refine State.scramble_keeps ?_ ..
      refine State.setVal_keeps ?_ ..
      refine State.setVal_keeps ?_ ..
      refine Keeps.mk1 ?_ _ _ _ _ _ _ _ _ _ _ _ _ _ _ _ _ _ _ _ rfl rfl rfl rfl rfl rfl
      assumption
    · split
      · refine State.scramble_keeps ?_ ..
        refine State.setVal_keeps ?_ ..
        refine Keeps.foldl (fun t x ht => ?_) ?_ _
        · refine State.writeSection_keeps ?_ ..
          assumption
        · refine Keeps.mk1 ?_ _ _ _ _ _ _ _ _ _ _ _ _ _ _ _ _ _ _ _ rfl rfl rfl rfl rfl rfl
          assumption
      · refine State.setVal_keeps ?_ ..
        refine Keeps.mk1 ?_ _ _ _ _ _ _ _ _ _ _ _ _ _ _ _ _ _ _ _ rfl rfl rfl rfl rfl rfl
        refine State.setVal_keeps ?_ ..
        refine State.setVal_keeps ?_ ..
        refine State.setVal_keeps ?_ ..
        refine State.setVal_keeps ?_ ..
        refine State.setVal_keeps ?_ ..
        refine State.setVal_keeps ?_ ..
        refine Keeps.foldl (fun t x ht => ?_) ?_ _
        · refine State.setShardRec_keeps ?_ ..
          assumption
        · refine Keeps.foldl (fun t x ht => ?_) ?_ _
          · refine State.writeSection_keeps ?_ ..
            assumption
          · refine Keeps.mk1 ?_ _ _ _ _ _ _ _ _ _ _ _ _ _ _ _ _ _ _ _ rfl rfl rfl rfl rfl rfl
            assumption

theorem State.setTimeState_keeps {s₀ s : State} (h : Keeps s₀ s) (v : Nat) :
    Keeps s₀ (State.setTimeState s v) := by
  unfold State.setTimeState
  try dsimp only
  split
  · assumption
  · refine State.raiseEvent_keeps ?_ ..
    refine State.setVal_keeps ?_ ..
    assumption

theorem State.applyPtpRole_keeps {s₀ s : State} (h : Keeps s₀ s) (old : Nat) (new : Nat) :
    Keeps s₀ (State.applyPtpRole s old new) := by
  unfold State.applyPtpRole
  try dsimp only
  split
  · assumption
  · split
    · refine State.setTimeState_keeps ?_ ..
      refine Keeps.mk1 ?_ _ _ _ _ _ _ _ _ _ _ _ _ _ _ _ _ _ _ _ rfl rfl rfl rfl rfl rfl
      assumption
    · split
      · refine State.setTimeState_keeps ?_ ..
        refine Keeps.mk1 ?_ _ _ _ _ _ _ _ _ _ _ _ _ _ _ _ _ _ _ _ rfl rfl rfl rfl rfl rfl
        assumption
      · refine Keeps.mk1 ?_ _ _ _ _ _ _ _ _ _ _ _ _ _ _ _ _ _ _ _ rfl rfl rfl rfl rfl rfl
        assumption

theorem State.ptpDiscard_keeps {s₀ s : State} (h : Keeps s₀ s) (p : Nat) :
    Keeps s₀ (State.ptpDiscard s p) := by
  unfold State.ptpDiscard
  try dsimp only
  split
  · refine State.bump64_keeps ?_ ..
    assumption
  · assumption

theorem State.sendPtp_keeps {s₀ s : State} (h : Keeps s₀ s) (dest : Nat) (m : PtpMessage) :
    Keeps s₀ (State.sendPtp s dest m) := by
  unfold State.sendPtp
  try dsimp only
  refine State.emit_keeps ?_ ..
  assumption

theorem State.servo_keeps {s₀ s : State} (h : Keeps s₀ s) :
    Keeps s₀ (State.servo s) := by
  unfold State.servo
  try dsimp only
  refine Keeps.mk1 ?_ _ _ _ _ _ _ _ _ _ _ _ _ _ _ _ _ _ _ _ rfl rfl rfl rfl rfl rfl
  refine State.draw_keeps ?_ ..
  assumption

theorem State.stepTime_keeps {s₀ s : State} (h : Keeps s₀ s) (d : ℤ) :
    Keeps s₀ (State.stepTime s d) := by
  unfold State.stepTime
  try dsimp only
  refine Keeps.mk1 ?_ _ _ _ _ _ _ _ _ _ _ _ _ _ _ _ _ _ _ _ rfl rfl rfl rfl rfl rfl
  assumption

theorem State.syncDone_keeps {s₀ s : State} (h : Keeps s₀ s) (t1 : ℤ) (t2 : ℤ) :
    Keeps s₀ (State.syncDone s t1 t2) := by
  unfold State.syncDone
  try dsimp only
  refine State.sendPtp_keeps ?_ ..
  refine Keeps.mk1 ?_ _ _ _ _ _ _ _ _ _ _ _ _ _ _ _ _ _ _ _ rfl rfl rfl rfl rfl rfl
  refine State.servo_keeps ?_ ..
  split
  · split
    · split
      · dsimp only
        refine State.stepTime_keeps ?_ ..
        refine State.setTimeState_keeps ?_ ..
        refine State.setVal_keeps ?_ ..
        assumption
      · dsimp only
        split
        · split
          · refine State.setTimeState_keeps ?_ ..
            refine State.setTimeState_keeps ?_ ..
            refine State.setVal_keeps ?_ ..
            assumption
          · refine State.setTimeState_keeps ?_ ..
            refine State.setVal_keeps ?_ ..
            assumption
        · split
          · refine State.setTimeState_keeps ?_ ..
            refine State.setTimeState_keeps ?_ ..
            refine State.setVal_keeps ?_ ..
            assumption
          · refine State.setTimeState_keeps ?_ ..
            refine State.setVal_keeps ?_ ..
            assumption
    · dsimp only
      refine State.setTimeState_keeps ?_ ..
      refine State.setVal_keeps ?_ ..
      assumption
  · split
    · split
      · split
        · dsimp only
          refine State.stepTime_keeps ?_ ..
          refine State.setTimeState_keeps ?_ ..
          refine State.setVal_keeps ?_ ..
          assumption
        · dsimp only
          split
          · split
            · refine State.setTimeState_keeps ?_ ..
              refine State.setTimeState_keeps ?_ ..
              refine State.setVal_keeps ?_ ..
              assumption
            · refine State.setTimeState_keeps ?_ ..
              refine State.setVal_keeps ?_ ..
              assumption
          · split
            · refine State.setTimeState_keeps ?_ ..
              refine State.setTimeState_keeps ?_ ..
              refine State.setVal_keeps ?_ ..
              assumption
            · refine State.setTimeState_keeps ?_ ..
              refine State.setVal_keeps ?_ ..
              assumption
      · dsimp only
        refine State.setTimeState_keeps ?_ ..
        refine State.setVal_keeps ?_ ..
        assumption
    · split
      · split
        · dsimp only
          refine State.stepTime_keeps ?_ ..
          refine State.setVal_keeps ?_ ..
          assumption
        · dsimp only
          split
          · split
            · refine State.setTimeState_keeps ?_ ..
              refine State.setVal_keeps ?_ ..
              assumption
            · refine State.setVal_keeps ?_ ..
              assumption
          · split
            · refine State.setTimeState_keeps ?_ ..
              refine State.setVal_keeps ?_ ..
              assumption
            · refine State.setVal_keeps ?_ ..
              assumption
      · dsimp only
        refine State.setVal_keeps ?_ ..
        assumption

theorem ptpSyncStep_keeps {s₀ s : State} (h : Keeps s₀ s) (p : Nat) (src : Addr6) (domain : Byte) (seq : W16) (twoStep : Bool) (origin : ℤ) (correction : ℤ) (arrival : Nat) :
    Keeps s₀ (ptpSyncStep s p src domain seq twoStep origin correction arrival) := by
  unfold ptpSyncStep
  try dsimp only
  split
  · refine State.ptpDiscard_keeps ?_ ..
    refine State.reach_keeps ?_ ..
    assumption
  · split
    · refine Keeps.mk1 ?_ _ _ _ _ _ _ _ _ _ _ _ _ _ _ _ _ _ _ _ rfl rfl rfl rfl rfl rfl
      refine State.reach_keeps ?_ ..
      assumption
    · refine State.syncDone_keeps ?_ ..
      refine State.reach_keeps ?_ ..
      assumption

theorem ptpFollowStep_keeps {s₀ s : State} (h : Keeps s₀ s) (p : Nat) (src : Addr6) (domain : Byte) (seq : W16) (origin : ℤ) (correction : ℤ) :
    Keeps s₀ (ptpFollowStep s p src domain seq origin correction) := by
  unfold ptpFollowStep
  try dsimp only
  split
  · refine State.ptpDiscard_keeps ?_ ..
    assumption
  · split
    · split
      · refine State.syncDone_keeps ?_ ..
        assumption
      · assumption
    · assumption

theorem ptpDelayReqStep_keeps {s₀ s : State} (h : Keeps s₀ s) (p : Nat) (src : Addr6) (domain : Byte) (seq : W16) (arrival : Nat) :
    Keeps s₀ (ptpDelayReqStep s p src domain seq arrival) := by
  unfold ptpDelayReqStep
  try dsimp only
  split
  · refine State.ptpDiscard_keeps ?_ ..
    refine State.reach_keeps ?_ ..
    assumption
  · refine State.sendPtp_keeps ?_ ..
    refine Keeps.mk1 ?_ _ _ _ _ _ _ _ _ _ _ _ _ _ _ _ _ _ _ _ rfl rfl rfl rfl rfl rfl
    refine State.reach_keeps ?_ ..
    assumption

theorem ptpDelayRespStep_keeps {s₀ s : State} (h : Keeps s₀ s) (p : Nat) (src : Addr6) (domain : Byte) (seq : W16) (received : ℤ) (correction : ℤ) :
    Keeps s₀ (ptpDelayRespStep s p src domain seq received correction) := by
  unfold ptpDelayRespStep
  try dsimp only
  split
  · refine State.ptpDiscard_keeps ?_ ..
    assumption
  · split
    · split
      · refine Keeps.mk1 ?_ _ _ _ _ _ _ _ _ _ _ _ _ _ _ _ _ _ _ _ rfl rfl rfl rfl rfl rfl
        assumption
      · assumption
    · assumption

theorem ptpSyncSendStep_keeps {s₀ s : State} (h : Keeps s₀ s) :
    Keeps s₀ (ptpSyncSendStep s) := by
  unfold ptpSyncSendStep
  try dsimp only
  split
  · assumption
  · refine Keeps.foldl (fun t x ht => ?_) ?_ _
    · refine State.sendPtp_keeps ?_ ..
      refine State.sendPtp_keeps ?_ ..
      assumption
    · refine Keeps.mk1 ?_ _ _ _ _ _ _ _ _ _ _ _ _ _ _ _ _ _ _ _ rfl rfl rfl rfl rfl rfl
      refine State.reach_keeps ?_ ..
      assumption

theorem ptpSyncLossStep_keeps {s₀ s : State} (h : Keeps s₀ s) :
    Keeps s₀ (ptpSyncLossStep s) := by
  unfold ptpSyncLossStep
  try dsimp only
  split
  · assumption
  · refine State.setTimeState_keeps ?_ ..
    refine State.reach_keeps ?_ ..
    assumption

theorem State.storeHeld_keeps {s₀ s : State} (h : Keeps s₀ s) (h : HeldWrite) :
    Keeps s₀ (State.storeHeld s h) := by
  unfold State.storeHeld
  try dsimp only
  refine State.putBytes_keeps ?_ ..
  assumption

theorem State.applyLlm_keeps {s₀ s : State} (h : Keeps s₀ s) (n : Nat) (m : Nat) :
    Keeps s₀ (State.applyLlm s n m) := by
  unfold State.applyLlm
  try dsimp only
  split
  · refine State.raiseEvent_keeps ?_ ..
    refine State.setReg_keeps ?_ ..
    assumption
  · refine Keeps.mk1 ?_ _ _ _ _ _ _ _ _ _ _ _ _ _ _ _ _ _ _ _ rfl rfl rfl rfl rfl rfl
    assumption

theorem State.clearRegions_keeps {s₀ s : State} (h : Keeps s₀ s) (old : Nat → Nat) :
    Keeps s₀ (State.clearRegions s old) := by
  unfold State.clearRegions
  try dsimp only
  refine Keeps.mk1 ?_ _ _ _ _ _ _ _ _ _ _ _ _ _ _ _ _ _ _ _ rfl rfl rfl rfl rfl rfl
  assumption

theorem State.applyPorts_keeps {s₀ s : State} (h : Keeps s₀ s) (old : Nat → Nat) :
    Keeps s₀ (State.applyPorts s old) := by
  unfold State.applyPorts
  try dsimp only
  refine Keeps.foldl (fun t x ht => ?_) ?_ _
  · split
    · assumption
    · refine State.setReg_keeps ?_ ..
      split
      · refine State.bump32_keeps ?_ ..
        assumption
      · assumption
  · assumption

theorem State.restartStream_keeps {s₀ s : State} (h : Keeps s₀ s) (ns : Nat) :
    Keeps s₀ (State.restartStream s ns) := by
  unfold State.restartStream
  try dsimp only
  split
  · refine State.sendSync_keeps ?_ ..
    assumption
  · refine State.setReg_keeps ?_ ..
    refine Keeps.mk1 ?_ _ _ _ _ _ _ _ _ _ _ _ _ _ _ _ _ _ _ _ rfl rfl rfl rfl rfl rfl
    assumption

theorem State.resetRiffle_keeps {s₀ s : State} (h : Keeps s₀ s) :
    Keeps s₀ (State.resetRiffle s) := by
  unfold State.resetRiffle
  try dsimp only
  refine Keeps.mk1 ?_ _ _ _ _ _ _ _ _ _ _ _ _ _ _ _ _ _ _ _ rfl rfl rfl rfl rfl rfl
  refine Keeps.foldl (fun t x ht => ?_) ?_ _
  · refine State.setDie_keeps ?_ ..
    assumption
  · assumption

theorem State.resetRecord_keeps {s₀ s : State} (h : Keeps s₀ s) (sh : Nat) :
    Keeps s₀ (State.resetRecord s sh) := by
  unfold State.resetRecord
  try dsimp only
  split
  · refine State.setShardRec_keeps ?_ ..
    assumption
  · refine Keeps.mk1 ?_ _ _ _ _ _ _ _ _ _ _ _ _ _ _ _ _ _ _ _ rfl rfl rfl rfl rfl rfl
    assumption

theorem State.applyWrite_keeps {s₀ s : State} (h : Keeps s₀ s) (h : HeldWrite) :
    Keeps s₀ (State.applyWrite s h) := by
  unfold State.applyWrite
  try dsimp only
  split
  · refine Keeps.foldl (fun t x ht => ?_) ?_ _
    · refine State.applyLlm_keeps ?_ ..
      assumption
    · refine State.storeHeld_keeps ?_ ..
      assumption
  · split
    · split
      · refine State.tierStatus_keeps ?_ ..
        assumption
      · refine Keeps.mk1 ?_ _ _ _ _ _ _ _ _ _ _ _ _ _ _ _ _ _ _ _ rfl rfl rfl rfl rfl rfl
        refine State.draw_keeps ?_ ..
        refine State.storeHeld_keeps ?_ ..
        assumption
    · split
      · split
        · refine State.tierStatus_keeps ?_ ..
          assumption
        · refine State.clearRegions_keeps ?_ ..
          refine State.storeHeld_keeps ?_ ..
          assumption
      · split
        · split
          · refine State.setVal_keeps ?_ ..
            assumption
          · split
            · refine Keeps.mk1 ?_ _ _ _ _ _ _ _ _ _ _ _ _ _ _ _ _ _ _ _ rfl rfl rfl rfl rfl rfl
              refine State.setVal_keeps ?_ ..
              refine State.storeHeld_keeps ?_ ..
              assumption
            · refine State.setVal_keeps ?_ ..
              refine State.storeHeld_keeps ?_ ..
              assumption
        · split
          · refine State.applyPorts_keeps ?_ ..
            refine State.storeHeld_keeps ?_ ..
            assumption
          · split
            · refine Keeps.foldl (fun t x ht => ?_) ?_ _
              · refine State.restartStream_keeps ?_ ..
                assumption
              · refine State.storeHeld_keeps ?_ ..
                assumption
            · split
              · refine State.resetRiffle_keeps ?_ ..
                refine State.storeHeld_keeps ?_ ..
                assumption
              · split
                · refine Keeps.foldl (fun t x ht => ?_) ?_ _
                  · refine State.resetRecord_keeps ?_ ..
                    assumption
                  · refine State.storeHeld_keeps ?_ ..
                    assumption
                · split
                  · refine State.applyPtpRole_keeps ?_ ..
                    refine State.storeHeld_keeps ?_ ..
                    assumption
                  · refine State.storeHeld_keeps ?_ ..
                    assumption

theorem State.applyHeldAll_keeps {s₀ s : State} (h : Keeps s₀ s) :
    Keeps s₀ (State.applyHeldAll s) := by
  unfold State.applyHeldAll
  try dsimp only
  refine Keeps.foldl (fun t x ht => ?_) ?_ _
  · refine State.applyWrite_keeps ?_ ..
    assumption
  · refine Keeps.mk1 ?_ _ _ _ _ _ _ _ _ _ _ _ _ _ _ _ _ _ _ _ rfl rfl rfl rfl rfl rfl
    assumption

theorem State.settleHeld_keeps {s₀ s : State} (h : Keeps s₀ s) :
    Keeps s₀ (State.settleHeld s) := by
  unfold State.settleHeld
  try dsimp only
  split
  · refine State.applyHeldAll_keeps ?_ ..
    assumption
  · assumption

end Sys2Proof.Machine
end

