-- ==== Sys2Proof/Laws/KeepsPanel.lean ====
section
/-! SUPPORT. What the operations of the weir, the slot map, the rills, the flash channels and bring-up keep. -/

namespace Sys2Proof.Machine

theorem State.takeWeirParams_keeps {s₀ s : State} (h : Keeps s₀ s) :
    Keeps s₀ (State.takeWeirParams s) := by
  unfold State.takeWeirParams
  try dsimp only
  refine Keeps.mk1 ?_ _ _ _ _ _ _ _ _ _ _ _ _ _ _ _ _ _ _ _ rfl rfl rfl rfl rfl rfl
  assumption

theorem State.storeSample_keeps {s₀ s : State} (h : Keeps s₀ s) (x : WeirReadings) :
    Keeps s₀ (State.storeSample s x) := by
  unfold State.storeSample
  try dsimp only
  refine State.setReg_keeps ?_ ..
  refine State.setReg_keeps ?_ ..
  refine Keeps.foldl (fun t x ht => ?_) ?_ _
  · refine State.setReg_keeps ?_ ..
    assumption
  · refine Keeps.foldl (fun t x ht => ?_) ?_ _
    · refine State.setReg_keeps ?_ ..
      assumption
    · refine State.setVal_keeps ?_ ..
      refine State.setVal_keeps ?_ ..
      assumption

theorem State.correct_keeps {s₀ s : State} (h : Keeps s₀ s) (a : Val) (pComp : Nat) :
    Keeps s₀ (State.correct s a pComp) := by
  unfold State.correct
  try dsimp only
  split
  · assumption
  · split
    · split
      · refine State.bump32_keeps ?_ ..
        refine State.setVal_keeps ?_ ..
        dsimp only
        refine State.draw_keeps ?_ ..
        assumption
      · refine State.setVal_keeps ?_ ..
        dsimp only
        refine State.draw_keeps ?_ ..
        assumption
    · split
      · refine State.bump32_keeps ?_ ..
        refine State.setVal_keeps ?_ ..
        assumption
      · refine State.setVal_keeps ?_ ..
        assumption

theorem State.stepPowerGear_keeps {s₀ s : State} (h : Keeps s₀ s) (p : Nat) :
    Keeps s₀ (State.stepPowerGear s p) := by
  unfold State.stepPowerGear
  try dsimp only
  split
  · refine State.bump32_keeps ?_ ..
    refine Keeps.mk1 ?_ _ _ _ _ _ _ _ _ _ _ _ _ _ _ _ _ _ _ _ rfl rfl rfl rfl rfl rfl
    assumption
  · refine Keeps.mk1 ?_ _ _ _ _ _ _ _ _ _ _ _ _ _ _ _ _ _ _ _ rfl rfl rfl rfl rfl rfl
    assumption

theorem State.stepThermal_keeps {s₀ s : State} (h : Keeps s₀ s) (k : Nat) (t : Nat) :
    Keeps s₀ (State.stepThermal s k t) := by
  unfold State.stepThermal
  try dsimp only
  split
  · split
    · split
      · assumption
      · split
        · refine State.raiseEvent_keeps ?_ ..
          refine State.bump32_keeps ?_ ..
          refine Keeps.mk1 ?_ _ _ _ _ _ _ _ _ _ _ _ _ _ _ _ _ _ _ _ rfl rfl rfl rfl rfl rfl
          assumption
        · refine State.bump32_keeps ?_ ..
          refine Keeps.mk1 ?_ _ _ _ _ _ _ _ _ _ _ _ _ _ _ _ _ _ _ _ rfl rfl rfl rfl rfl rfl
          assumption
    · split
      · split
        · assumption
        · refine Keeps.mk1 ?_ _ _ _ _ _ _ _ _ _ _ _ _ _ _ _ _ _ _ _ rfl rfl rfl rfl rfl rfl
          assumption
      · assumption
  · split
    · split
      · assumption
      · split
        · refine State.raiseEvent_keeps ?_ ..
          refine State.bump32_keeps ?_ ..
          refine Keeps.mk1 ?_ _ _ _ _ _ _ _ _ _ _ _ _ _ _ _ _ _ _ _ rfl rfl rfl rfl rfl rfl
          assumption
        · refine State.bump32_keeps ?_ ..
          refine Keeps.mk1 ?_ _ _ _ _ _ _ _ _ _ _ _ _ _ _ _ _ _ _ _ rfl rfl rfl rfl rfl rfl
          assumption
    · split
      · split
        · assumption
        · refine Keeps.mk1 ?_ _ _ _ _ _ _ _ _ _ _ _ _ _ _ _ _ _ _ _ rfl rfl rfl rfl rfl rfl
          assumption
      · assumption

theorem State.stepHardLimit_keeps {s₀ s : State} (h : Keeps s₀ s) (temps : List Nat) :
    Keeps s₀ (State.stepHardLimit s temps) := by
  unfold State.stepHardLimit
  try dsimp only
  split
  · refine Keeps.foldl (fun t x ht => ?_) ?_ _
    · refine State.raiseEvent_keeps ?_ ..
      assumption
    · refine Keeps.mk1 ?_ _ _ _ _ _ _ _ _ _ _ _ _ _ _ _ _ _ _ _ rfl rfl rfl rfl rfl rfl
      assumption
  · refine State.drainBudget_keeps ?_ ..
    refine Keeps.foldl (fun t x ht => ?_) ?_ _
    · refine State.raiseEvent_keeps ?_ ..
      assumption
    · refine Keeps.mk1 ?_ _ _ _ _ _ _ _ _ _ _ _ _ _ _ _ _ _ _ _ rfl rfl rfl rfl rfl rfl
      assumption

theorem weirSampleStep_keeps {s₀ s : State} (h : Keeps s₀ s) (x : WeirReadings) :
    Keeps s₀ (weirSampleStep s x) := by
  unfold weirSampleStep
  try dsimp only
  split
  · assumption
  · refine State.regear_keeps ?_ ..
    refine Keeps.mk1 ?_ _ _ _ _ _ _ _ _ _ _ _ _ _ _ _ _ _ _ _ rfl rfl rfl rfl rfl rfl
    refine State.stepHardLimit_keeps ?_ ..
    refine Keeps.foldl (fun t x ht => ?_) ?_ _
    · refine State.stepThermal_keeps ?_ ..
      assumption
    · refine State.stepPowerGear_keeps ?_ ..
      refine Keeps.mk1 ?_ _ _ _ _ _ _ _ _ _ _ _ _ _ _ _ _ _ _ _ rfl rfl rfl rfl rfl rfl
      refine State.correct_keeps ?_ ..
      refine State.takeWeirParams_keeps ?_ ..
      refine State.storeSample_keeps ?_ ..
      refine State.accountAll_keeps ?_ ..
      refine State.reach_keeps ?_ ..
      assumption

theorem powerRiseStep_keeps {s₀ s : State} (h : Keeps s₀ s) :
    Keeps s₀ (powerRiseStep s) := by
  unfold powerRiseStep
  try dsimp only
  split
  · assumption
  · split
    · assumption
    · refine State.regear_keeps ?_ ..
      refine Keeps.mk1 ?_ _ _ _ _ _ _ _ _ _ _ _ _ _ _ _ _ _ _ _ rfl rfl rfl rfl rfl rfl
      refine State.accountAll_keeps ?_ ..
      assumption

theorem coolantStep_keeps {s₀ s : State} (h : Keeps s₀ s) (inlet : Nat) :
    Keeps s₀ (coolantStep s inlet) := by
  unfold coolantStep
  try dsimp only
  split
  · assumption
  · split
    · split
      · assumption
      · refine State.raiseEvent_keeps ?_ ..
        refine Keeps.mk1 ?_ _ _ _ _ _ _ _ _ _ _ _ _ _ _ _ _ _ _ _ rfl rfl rfl rfl rfl rfl
        assumption
    · split
      · assumption
      · split
        · assumption
        · refine State.raiseEvent_keeps ?_ ..
          refine Keeps.mk1 ?_ _ _ _ _ _ _ _ _ _ _ _ _ _ _ _ _ _ _ _ rfl rfl rfl rfl rfl rfl
          refine State.reach_keeps ?_ ..
          assumption

theorem State.orderlyReset_keeps {s₀ s : State} (h : Keeps s₀ s) (a b : Nat) : Keeps s₀ (s.orderlyReset a b) := by
  have h' := State.loseWrites_keeps (State.loseCheckpoints_keeps h)
  exact ⟨h'.queue, fun _ => rfl, fun _ => rfl, fun _ => rfl, fun _ => rfl, fun _ => Nat.zero_le _, fun _ => Nat.zero_le _, fun _ => Nat.zero_le _⟩

theorem hardPersistStep_keeps {s₀ s : State} (h : Keeps s₀ s) (k : Nat) :
    Keeps s₀ (hardPersistStep s k) := by
  unfold hardPersistStep
  try dsimp only
  split
  · assumption
  · split
    · assumption
    · refine State.orderlyReset_keeps ?_ ..
      assumption

theorem supplyDipStep_keeps {s₀ s : State} (h : Keeps s₀ s) (v : Nat) :
    Keeps s₀ (supplyDipStep s v) := by
  unfold supplyDipStep
  try dsimp only
  split
  · assumption
  · split
    · refine Keeps.mk1 ?_ _ _ _ _ _ _ _ _ _ _ _ _ _ _ _ _ _ _ _ rfl rfl rfl rfl rfl rfl
      assumption
    · refine State.raiseEvent_keeps ?_ ..
      split
      · refine State.bump32_keeps ?_ ..
        refine State.regear_keeps ?_ ..
        refine Keeps.mk1 ?_ _ _ _ _ _ _ _ _ _ _ _ _ _ _ _ _ _ _ _ rfl rfl rfl rfl rfl rfl
        refine State.drainBudget_keeps ?_ ..
        refine State.accountAll_keeps ?_ ..
        refine Keeps.mk1 ?_ _ _ _ _ _ _ _ _ _ _ _ _ _ _ _ _ _ _ _ rfl rfl rfl rfl rfl rfl
        assumption
      · refine State.regear_keeps ?_ ..
        refine Keeps.mk1 ?_ _ _ _ _ _ _ _ _ _ _ _ _ _ _ _ _ _ _ _ rfl rfl rfl rfl rfl rfl
        refine State.drainBudget_keeps ?_ ..
        refine State.accountAll_keeps ?_ ..
        refine Keeps.mk1 ?_ _ _ _ _ _ _ _ _ _ _ _ _ _ _ _ _ _ _ _ rfl rfl rfl rfl rfl rfl
        assumption

theorem hystStep_keeps {s₀ s : State} (h : Keeps s₀ s) (v : Nat) :
    Keeps s₀ (hystStep s v) := by
  unfold hystStep
  try dsimp only
  refine Keeps.mk1 ?_ _ _ _ _ _ _ _ _ _ _ _ _ _ _ _ _ _ _ _ rfl rfl rfl rfl rfl rfl
  assumption

theorem recoveredStep_keeps {s₀ s : State} (h : Keeps s₀ s) :
    Keeps s₀ (recoveredStep s) := by
  unfold recoveredStep
  try dsimp only
  split
  · assumption
  · split
    · assumption
    · refine State.raiseEvent_keeps ?_ ..
      refine State.regear_keeps ?_ ..
      refine Keeps.mk1 ?_ _ _ _ _ _ _ _ _ _ _ _ _ _ _ _ _ _ _ _ rfl rfl rfl rfl rfl rfl
      refine State.accountAll_keeps ?_ ..
      refine State.reach_keeps ?_ ..
      assumption

theorem State.hotSwap_keeps {s₀ s : State} (h : Keeps s₀ s) :
    Keeps s₀ (State.hotSwap s) := by
  unfold State.hotSwap
  try dsimp only
  refine Keeps.mk1 ?_ _ _ _ _ _ _ _ _ _ _ _ _ _ _ _ _ _ _ _ rfl rfl rfl rfl rfl rfl
  assumption

theorem State.seeInput_keeps {s₀ s : State} (h : Keeps s₀ s) (v : Nat) :
    Keeps s₀ (State.seeInput s v) := by
  unfold State.seeInput
  try dsimp only
  refine Keeps.mk1 ?_ _ _ _ _ _ _ _ _ _ _ _ _ _ _ _ _ _ _ _ rfl rfl rfl rfl rfl rfl
  assumption

theorem resetLevelStep_keeps {s₀ s : State} (h : Keeps s₀ s) (v : Nat) :
    Keeps s₀ (resetLevelStep s v) := by
  unfold resetLevelStep
  try dsimp only
  split
  · assumption
  · split
    · refine State.seeInput_keeps ?_ ..
      refine State.orderlyReset_keeps ?_ ..
      assumption
    · refine State.seeInput_keeps ?_ ..
      assumption

theorem enableOpenStep_keeps {s₀ s : State} (h : Keeps s₀ s) :
    Keeps s₀ (enableOpenStep s) := by
  unfold enableOpenStep
  try dsimp only
  refine Keeps.mk1 ?_ _ _ _ _ _ _ _ _ _ _ _ _ _ _ _ _ _ _ _ rfl rfl rfl rfl rfl rfl
  split
  · refine State.orderlyReset_keeps ?_ ..
    assumption
  · assumption

theorem enableMateStep_keeps {s₀ s : State} (h : Keeps s₀ s) :
    Keeps s₀ (enableMateStep s) := by
  unfold enableMateStep
  try dsimp only
  refine State.hotSwap_keeps ?_ ..
  refine Keeps.mk1 ?_ _ _ _ _ _ _ _ _ _ _ _ _ _ _ _ _ _ _ _ rfl rfl rfl rfl rfl rfl
  assumption

theorem input38Step_keeps {s₀ s : State} (h : Keeps s₀ s) (v : Nat) :
    Keeps s₀ (input38Step s v) := by
  unfold input38Step
  try dsimp only
  split
  · refine State.hotSwap_keeps ?_ ..
    refine State.seeInput_keeps ?_ ..
    assumption
  · assumption

theorem State.setScreenRec_keeps {s₀ s : State} (h : Keeps s₀ s) (p : Nat) (v : Nat) :
    Keeps s₀ (State.setScreenRec s p v) := by
  unfold State.setScreenRec
  try dsimp only
  refine Keeps.mk1 ?_ _ _ _ _ _ _ _ _ _ _ _ _ _ _ _ _ _ _ _ rfl rfl rfl rfl rfl rfl
  refine State.setVal_keeps ?_ ..
  assumption

theorem State.setPosState_keeps {s₀ s : State} (h : Keeps s₀ s) (p : Nat) (v : Nat) :
    Keeps s₀ (State.setPosState s p v) := by
  unfold State.setPosState
  try dsimp only
  refine State.setScreenRec_keeps ?_ ..
  assumption

theorem State.setLastResult_keeps {s₀ s : State} (h : Keeps s₀ s) (p : Nat) (v : Nat) :
    Keeps s₀ (State.setLastResult s p v) := by
  unfold State.setLastResult
  try dsimp only
  refine State.setScreenRec_keeps ?_ ..
  assumption

theorem State.setSlotEntry_keeps {s₀ s : State} (h : Keeps s₀ s) (b : Nat) (v : Nat) :
    Keeps s₀ (State.setSlotEntry s b v) := by
  unfold State.setSlotEntry
  try dsimp only
  refine State.setVal_keeps ?_ ..
  assumption

theorem State.bindSlot_keeps {s₀ s : State} (h : Keeps s₀ s) (sl : Nat) (v : Nat) :
    Keeps s₀ (State.bindSlot s sl v) := by
  unfold State.bindSlot
  try dsimp only
  split
  · refine State.regear_keeps ?_ ..
    refine State.setSlotEntry_keeps ?_ ..
    refine State.accountGear_keeps ?_ ..
    refine State.account_keeps ?_ ..
    assumption
  · refine Keeps.mk1 ?_ _ _ _ _ _ _ _ _ _ _ _ _ _ _ _ _ _ _ _ rfl rfl rfl rfl rfl rfl
    refine State.regear_keeps ?_ ..
    refine State.setSlotEntry_keeps ?_ ..
    refine State.accountGear_keeps ?_ ..
    refine State.account_keeps ?_ ..
    assumption

theorem State.setSpare_keeps {s₀ s : State} (h : Keeps s₀ s) (b : Nat) (v : Nat) :
    Keeps s₀ (State.setSpare s b v) := by
  unfold State.setSpare
  try dsimp only
  refine Keeps.mk1 ?_ _ _ _ _ _ _ _ _ _ _ _ _ _ _ _ _ _ _ _ rfl rfl rfl rfl rfl rfl
  refine State.setSlotEntry_keeps ?_ ..
  assumption

theorem State.addRetired_keeps {s₀ s : State} (h : Keeps s₀ s) (b : Nat) :
    Keeps s₀ (State.addRetired s b) := by
  unfold State.addRetired
  try dsimp only
  refine State.setSlotEntry_keeps ?_ ..
  assumption

theorem State.reportCapacity_keeps {s₀ s : State} (h : Keeps s₀ s) (b : Nat) :
    Keeps s₀ (State.reportCapacity s b) := by
  unfold State.reportCapacity
  try dsimp only
  split
  · refine State.raiseEvent_keeps ?_ ..
    refine Keeps.mk1 ?_ _ _ _ _ _ _ _ _ _ _ _ _ _ _ _ _ _ _ _ rfl rfl rfl rfl rfl rfl
    refine State.setReg_keeps ?_ ..
    assumption
  · refine State.setReg_keeps ?_ ..
    assumption

theorem State.dueSignature_keeps {s₀ s : State} (h : Keeps s₀ s) (x : SigInfo) :
    Keeps s₀ (State.dueSignature s x) := by
  unfold State.dueSignature
  try dsimp only
  refine Keeps.mk1 ?_ _ _ _ _ _ _ _ _ _ _ _ _ _ _ _ _ _ _ _ rfl rfl rfl rfl rfl rfl
  assumption

theorem State.endScreen_keeps {s₀ s : State} (h : Keeps s₀ s) (p : Nat) (result : Nat) :
    Keeps s₀ (State.endScreen s p result) := by
  unfold State.endScreen
  try dsimp only
  refine State.raiseEvent_keeps ?_ ..
  refine State.setScreenRec_keeps ?_ ..
  refine Keeps.mk1 ?_ _ _ _ _ _ _ _ _ _ _ _ _ _ _ _ _ _ _ _ rfl rfl rfl rfl rfl rfl
  assumption

theorem State.claimSpare_keeps {s₀ s : State} (h : Keeps s₀ s) (b : Nat) :
    Keeps s₀ (State.claimSpare s b).2 := by
  unfold State.claimSpare
  try dsimp only
  split
  · assumption
  · split
    · dsimp only
      refine State.endScreen_keeps ?_ ..
      assumption
    · assumption

theorem State.startCopy_keeps {s₀ s : State} (h : Keeps s₀ s) (sl : Nat) (old : Nat) :
    Keeps s₀ (State.startCopy s sl old) := by
  unfold State.startCopy
  try dsimp only
  refine Keeps.mk1 ?_ _ _ _ _ _ _ _ _ _ _ _ _ _ _ _ _ _ _ _ rfl rfl rfl rfl rfl rfl
  split
  · refine State.setDie_keeps ?_ ..
    assumption
  · assumption

theorem State.retirePos_keeps {s₀ s : State} (h : Keeps s₀ s) (p : Nat) (result : Nat) :
    Keeps s₀ (State.retirePos s p result) := by
  unfold State.retirePos
  try dsimp only
  refine State.addRetired_keeps ?_ ..
  refine State.setLastResult_keeps ?_ ..
  refine State.setPosState_keeps ?_ ..
  assumption

theorem State.retireSlot_keeps {s₀ s : State} (h : Keeps s₀ s) (sl : Nat) (p : Nat) (result : Nat) (cause : Nat) :
    Keeps s₀ (State.retireSlot s sl p result cause) := by
  unfold State.retireSlot
  try dsimp only
  refine State.dueSignature_keeps ?_ ..
  refine State.reportCapacity_keeps ?_ ..
  split
  · refine State.raiseEvent_keeps ?_ ..
    refine State.retirePos_keeps ?_ ..
    split
    · refine State.startCopy_keeps ?_ ..
      refine State.setPosState_keeps ?_ ..
      refine State.setSpare_keeps ?_ ..
      refine State.bindSlot_keeps ?_ ..
      refine State.claimSpare_keeps ?_ ..
      assumption
    · refine State.startCopy_keeps ?_ ..
      refine State.bindSlot_keeps ?_ ..
      refine State.claimSpare_keeps ?_ ..
      assumption
  · refine State.retirePos_keeps ?_ ..
    split
    · refine State.startCopy_keeps ?_ ..
      refine State.setPosState_keeps ?_ ..
      refine State.setSpare_keeps ?_ ..
      refine State.bindSlot_keeps ?_ ..
      refine State.claimSpare_keeps ?_ ..
      assumption
    · refine State.startCopy_keeps ?_ ..
      refine State.bindSlot_keeps ?_ ..
      refine State.claimSpare_keeps ?_ ..
      assumption

theorem State.retireSpare_keeps {s₀ s : State} (h : Keeps s₀ s) (p : Nat) (result : Nat) (cause : Nat) (part : Nat) :
    Keeps s₀ (State.retireSpare s p result cause part) := by
  unfold State.retireSpare
  try dsimp only
  refine State.dueSignature_keeps ?_ ..
  refine State.reportCapacity_keeps ?_ ..
  refine State.retirePos_keeps ?_ ..
  refine State.setSpare_keeps ?_ ..
  refine Keeps.mk1 ?_ _ _ _ _ _ _ _ _ _ _ _ _ _ _ _ _ _ _ _ rfl rfl rfl rfl rfl rfl
  assumption

theorem State.swapSpare_keeps {s₀ s : State} (h : Keeps s₀ s) (sl : Nat) (p : Nat) {u : State} (hu : State.swapSpare s sl p = some u) :
    Keeps s₀ u := by
  revert u
  unfold State.swapSpare
  try dsimp only
  split
  · rintro _ ⟨⟩
  · rintro _ ⟨⟩
    refine State.startCopy_keeps ?_ ..
    refine State.setPosState_keeps ?_ ..
    refine State.setPosState_keeps ?_ ..
    refine State.setSpare_keeps ?_ ..
    refine State.bindSlot_keeps ?_ ..
    refine Keeps.of_pair ‹_› ?_
    refine State.claimSpare_keeps ?_ ..
    assumption

theorem slotChangeStep_keeps {s₀ s : State} (h : Keeps s₀ s) (b : Nat) :
    Keeps s₀ (slotChangeStep s b) := by
  unfold slotChangeStep
  try dsimp only
  split
  · assumption
  · split
    · assumption
    · split
      · split
        · refine State.retireSpare_keeps ?_ ..
          refine Keeps.mk1 ?_ _ _ _ _ _ _ _ _ _ _ _ _ _ _ _ _ _ _ _ rfl rfl rfl rfl rfl rfl
          assumption
        · refine Keeps.mk1 ?_ _ _ _ _ _ _ _ _ _ _ _ _ _ _ _ _ _ _ _ rfl rfl rfl rfl rfl rfl
          assumption
      · split
        · refine State.retireSlot_keeps ?_ ..
          refine Keeps.mk1 ?_ _ _ _ _ _ _ _ _ _ _ _ _ _ _ _ _ _ _ _ rfl rfl rfl rfl rfl rfl
          assumption
        · refine Keeps.getD ?_ ?_
          · refine fun _ hu => State.swapSpare_keeps (hu := hu) ?_ ..
            refine Keeps.mk1 ?_ _ _ _ _ _ _ _ _ _ _ _ _ _ _ _ _ _ _ _ rfl rfl rfl rfl rfl rfl
            assumption
          · refine Keeps.mk1 ?_ _ _ _ _ _ _ _ _ _ _ _ _ _ _ _ _ _ _ _ rfl rfl rfl rfl rfl rfl
            assumption

theorem blameRetireStep_keeps {s₀ s : State} (h : Keeps s₀ s) (p : Nat) :
    Keeps s₀ (blameRetireStep s p) := by
  unfold blameRetireStep
  try dsimp only
  split
  · assumption
  · split
    · refine State.retireSlot_keeps ?_ ..
      refine Keeps.mk1 ?_ _ _ _ _ _ _ _ _ _ _ _ _ _ _ _ _ _ _ _ rfl rfl rfl rfl rfl rfl
      assumption
    · split
      · refine State.retireSpare_keeps ?_ ..
        refine Keeps.mk1 ?_ _ _ _ _ _ _ _ _ _ _ _ _ _ _ _ _ _ _ _ rfl rfl rfl rfl rfl rfl
        assumption
      · refine Keeps.mk1 ?_ _ _ _ _ _ _ _ _ _ _ _ _ _ _ _ _ _ _ _ rfl rfl rfl rfl rfl rfl
        assumption

theorem State.poisonUnread_keeps {s₀ s : State} (h : Keeps s₀ s) (sl : Nat) (id : Nat) :
    Keeps s₀ (State.poisonUnread s sl id) := by
  unfold State.poisonUnread
  try dsimp only
  split
  · refine State.putTile_keeps ?_ ..
    assumption
  · assumption

theorem slotCopyStep_keeps {s₀ s : State} (h : Keeps s₀ s) (b : Nat) (unreadable : List Nat) :
    Keeps s₀ (slotCopyStep s b unreadable) := by
  unfold slotCopyStep
  try dsimp only
  split
  · assumption
  · split
    · refine Keeps.foldl (fun t x ht => ?_) ?_ _
      · split
        · refine State.respill_keeps ?_ ..
          assumption
        · refine Keeps.foldl (fun t x ht => ?_) ?_ _
          · refine State.poisonUnread_keeps ?_ ..
            assumption
          · assumption
      · refine Keeps.mk1 ?_ _ _ _ _ _ _ _ _ _ _ _ _ _ _ _ _ _ _ _ rfl rfl rfl rfl rfl rfl
        refine Keeps.foldl (fun t x ht => ?_) ?_ _
        · refine State.account_keeps ?_ ..
          assumption
        · assumption
    · refine State.condition_keeps ?_ ..
      refine Keeps.foldl (fun t x ht => ?_) ?_ _
      · split
        · refine State.respill_keeps ?_ ..
          assumption
        · refine Keeps.foldl (fun t x ht => ?_) ?_ _
          · refine State.poisonUnread_keeps ?_ ..
            assumption
          · assumption
      · refine Keeps.mk1 ?_ _ _ _ _ _ _ _ _ _ _ _ _ _ _ _ _ _ _ _ rfl rfl rfl rfl rfl rfl
        refine Keeps.foldl (fun t x ht => ?_) ?_ _
        · refine State.account_keeps ?_ ..
          assumption
        · assumption

theorem baseDieOutStep_keeps {s₀ s : State} (h : Keeps s₀ s) (b : Nat) :
    Keeps s₀ (baseDieOutStep s b) := by
  unfold baseDieOutStep
  try dsimp only
  split
  · assumption
  · refine State.reportCapacity_keeps ?_ ..
    refine State.setSpare_keeps ?_ ..
    refine Keeps.foldl (fun t x ht => ?_) ?_ _
    · split
      · assumption
      · refine State.raiseEvent_keeps ?_ ..
        refine State.startCopy_keeps ?_ ..
        refine State.bindSlot_keeps ?_ ..
        assumption
    · refine Keeps.mk1 ?_ _ _ _ _ _ _ _ _ _ _ _ _ _ _ _ _ _ _ _ rfl rfl rfl rfl rfl rfl
      assumption

theorem State.setRill_keeps {s₀ s : State} (h : Keeps s₀ s) (r : Nat) (x : Rill) :
    Keeps s₀ (State.setRill s r x) := by
  unfold State.setRill
  try dsimp only
  refine Keeps.mk1 ?_ _ _ _ _ _ _ _ _ _ _ _ _ _ _ _ _ _ _ _ rfl rfl rfl rfl rfl rfl
  assumption

theorem State.routes_keeps {s₀ s : State} (h : Keeps s₀ s) :
    Keeps s₀ (State.routes s) := by
  unfold State.routes
  try dsimp only
  refine Keeps.mk1 ?_ _ _ _ _ _ _ _ _ _ _ _ _ _ _ _ _ _ _ _ rfl rfl rfl rfl rfl rfl
  assumption

theorem State.feedPorts_keeps {s₀ s : State} (h : Keeps s₀ s) :
    Keeps s₀ (State.feedPorts s) := by
  unfold State.feedPorts
  try dsimp only
  refine Keeps.foldl (fun t x ht => ?_) ?_ _
  · split
    · assumption
    · split
      · split
        · split
          · refine State.bump32_keeps ?_ ..
            assumption
          · refine State.setReg_keeps ?_ ..
            refine State.bump32_keeps ?_ ..
            assumption
        · split
          · assumption
          · refine State.setReg_keeps ?_ ..
            assumption
      · split
        · refine State.setReg_keeps ?_ ..
          assumption
        · assumption
  · assumption

theorem State.startHandshake_keeps {s₀ s : State} (h : Keeps s₀ s) (r : Nat) :
    Keeps s₀ (State.startHandshake s r) := by
  unfold State.startHandshake
  try dsimp only
  split
  · assumption
  · refine State.bump32_keeps ?_ ..
    refine State.setRill_keeps ?_ ..
    assumption

theorem flitErrorStep_keeps {s₀ s : State} (h : Keeps s₀ s) (r : Nat) (dir : Nat) (g : Nat) (flits : Nat) :
    Keeps s₀ (flitErrorStep s r dir g flits) := by
  unfold flitErrorStep
  try dsimp only
  split
  · assumption
  · refine State.setRill_keeps ?_ ..
    refine State.bump64_keeps ?_ ..
    assumption

theorem errorLimitStep_keeps {s₀ s : State} (h : Keeps s₀ s) (r : Nat) (g : Nat) :
    Keeps s₀ (errorLimitStep s r g) := by
  unfold errorLimitStep
  try dsimp only
  split
  · refine State.startHandshake_keeps ?_ ..
    assumption
  · assumption

theorem State.addRepair_keeps {s₀ s : State} (h : Keeps s₀ s) (k : Nat) (n : Nat) :
    Keeps s₀ (State.addRepair s k n) := by
  unfold State.addRepair
  try dsimp only
  refine Keeps.mk1 ?_ _ _ _ _ _ _ _ _ _ _ _ _ _ _ _ _ _ _ _ rfl rfl rfl rfl rfl rfl
  assumption

theorem State.steer_keeps {s₀ s : State} (h : Keeps s₀ s) (r : Nat) (m : Nat) (fs : List RillFault) :
    Keeps s₀ (State.steer s r m fs) := by
  unfold State.steer
  try dsimp only
  refine Keeps.foldl (fun t x ht => ?_) ?_ _
  · split
    · assumption
    · refine State.addRepair_keeps ?_ ..
      refine State.addRepair_keeps ?_ ..
      assumption
  · assumption

theorem State.endHandshake_keeps {s₀ s : State} (h : Keeps s₀ s) (r : Nat) (final : Nat) (out : Nat) :
    Keeps s₀ (State.endHandshake s r final out) := by
  unfold State.endHandshake
  try dsimp only
  refine State.feedPorts_keeps ?_ ..
  refine State.routes_keeps ?_ ..
  split
  · refine Keeps.foldl (fun t x ht => ?_) ?_ _
    · refine State.raiseEvent_keeps ?_ ..
      assumption
    · refine State.bump32_keeps ?_ ..
      refine State.setRill_keeps ?_ ..
      assumption
  · refine State.dueSignature_keeps ?_ ..
    refine Keeps.foldl (fun t x ht => ?_) ?_ _
    · refine State.raiseEvent_keeps ?_ ..
      assumption
    · refine State.bump32_keeps ?_ ..
      refine State.setRill_keeps ?_ ..
      assumption

theorem trainingStep_keeps {s₀ s : State} (h : Keeps s₀ s) (r : Nat) (fs : List RillFault) :
    Keeps s₀ (trainingStep s r fs) := by
  unfold trainingStep
  try dsimp only
  split
  · assumption
  · split
    · refine State.endHandshake_keeps ?_ ..
      refine State.steer_keeps ?_ ..
      assumption
    · split
      · refine State.setRill_keeps ?_ ..
        refine State.steer_keeps ?_ ..
        assumption
      · refine State.endHandshake_keeps ?_ ..
        refine State.steer_keeps ?_ ..
        assumption

theorem State.trainRill_keeps {s₀ s : State} (h : Keeps s₀ s) (r : Nat) (t : RillTest) :
    Keeps s₀ (State.trainRill s r t) := by
  unfold State.trainRill
  try dsimp only
  split
  · refine Keeps.foldl (fun t x ht => ?_) ?_ _
    · refine trainingStep_keeps ?_ ..
      assumption
    · refine State.bump32_keeps ?_ ..
      refine State.setRill_keeps ?_ ..
      refine State.steer_keeps ?_ ..
      assumption
  · refine State.dueSignature_keeps ?_ ..
    refine Keeps.foldl (fun t x ht => ?_) ?_ _
    · refine trainingStep_keeps ?_ ..
      assumption
    · refine State.bump32_keeps ?_ ..
      refine State.setRill_keeps ?_ ..
      refine State.steer_keeps ?_ ..
      assumption

theorem partialResetStep_keeps {s₀ s : State} (h : Keeps s₀ s) (b : Nat) :
    Keeps s₀ (partialResetStep s b) := by
  unfold partialResetStep
  try dsimp only
  split
  · assumption
  · refine Keeps.foldl (fun t x ht => ?_) ?_ _
    · split
      · assumption
      · refine State.startHandshake_keeps ?_ ..
        refine State.setRill_keeps ?_ ..
        assumption
    · assumption

theorem State.mapOutChannel_keeps {s₀ s : State} (h : Keeps s₀ s) (ch : Nat) (cause : Nat) :
    Keeps s₀ (State.mapOutChannel s ch cause) := by
  unfold State.mapOutChannel
  try dsimp only
  split
  · assumption
  · refine State.dueSignature_keeps ?_ ..
    refine State.raiseEvent_keeps ?_ ..
    refine Keeps.mk1 ?_ _ _ _ _ _ _ _ _ _ _ _ _ _ _ _ _ _ _ _ rfl rfl rfl rfl rfl rfl
    assumption

theorem luReadDone_keeps {s₀ s : State} (h : Keeps s₀ s) (x : Nat) (r : LadderEnd) (lost : Bool) :
    Keeps s₀ (luReadDone s x r lost) := by
  unfold luReadDone
  try dsimp only
  split
  · assumption
  · split
    · refine State.mapOutChannel_keeps ?_ ..
      refine luReadStep_keeps ?_ ..
      assumption
    · refine luReadStep_keeps ?_ ..
      assumption

theorem State.loadRecord_keeps {s₀ s : State} (h : Keeps s₀ s) :
    Keeps s₀ (State.loadRecord s) := by
  unfold State.loadRecord
  try dsimp only
  refine Keeps.foldl (fun t x ht => ?_) ?_ _
  · refine State.setVal_keeps ?_ ..
    assumption
  · refine Keeps.foldl (fun t x ht => ?_) ?_ _
    · refine State.setReg_keeps ?_ ..
      assumption
    · assumption

theorem State.readResetRecord_keeps {s₀ s : State} (h : Keeps s₀ s) :
    Keeps s₀ (State.readResetRecord s) := by
  unfold State.readResetRecord
  try dsimp only
  refine Keeps.mk1 ?_ _ _ _ _ _ _ _ _ _ _ _ _ _ _ _ _ _ _ _ rfl rfl rfl rfl rfl rfl
  refine State.setVal_keeps ?_ ..
  assumption

theorem State.bootRom_keeps {s₀ s : State} (h : Keeps s₀ s) :
    Keeps s₀ (State.bootRom s) := by
  unfold State.bootRom
  try dsimp only
  split
  · refine State.setVal_keeps ?_ ..
    refine Keeps.mk1 ?_ _ _ _ _ _ _ _ _ _ _ _ _ _ _ _ _ _ _ _ rfl rfl rfl rfl rfl rfl
    refine State.setVal_keeps ?_ ..
    assumption
  · refine Keeps.mk1 ?_ _ _ _ _ _ _ _ _ _ _ _ _ _ _ _ _ _ _ _ rfl rfl rfl rfl rfl rfl
    split
    · refine State.setVal_keeps ?_ ..
      refine State.setVal_keeps ?_ ..
      refine State.setVal_keeps ?_ ..
      refine State.setVal_keeps ?_ ..
      refine State.draw_keeps ?_ ..
      refine Keeps.mk1 ?_ _ _ _ _ _ _ _ _ _ _ _ _ _ _ _ _ _ _ _ rfl rfl rfl rfl rfl rfl
      refine State.setVal_keeps ?_ ..
      assumption
    · refine State.setVal_keeps ?_ ..
      refine State.setVal_keeps ?_ ..
      refine State.setVal_keeps ?_ ..
      refine State.draw_keeps ?_ ..
      refine Keeps.mk1 ?_ _ _ _ _ _ _ _ _ _ _ _ _ _ _ _ _ _ _ _ rfl rfl rfl rfl rfl rfl
      refine State.setVal_keeps ?_ ..
      assumption

theorem qualificationStep_keeps {s₀ s : State} (h : Keeps s₀ s) :
    Keeps s₀ (qualificationStep s) := by
  unfold qualificationStep
  try dsimp only
  split
  · assumption
  · refine Keeps.mk1 ?_ _ _ _ _ _ _ _ _ _ _ _ _ _ _ _ _ _ _ _ rfl rfl rfl rfl rfl rfl
    refine State.draw_keeps ?_ ..
    assumption

theorem panelReleaseStep_keeps {s₀ s : State} (h : Keeps s₀ s) (seed : Option (BitVec 256)) :
    Keeps s₀ (panelReleaseStep s seed) := by
  unfold panelReleaseStep
  try dsimp only
  split
  · assumption
  · split
    · refine State.bootRom_keeps ?_ ..
      split
      · split
        · refine State.setVal_keeps ?_ ..
          refine State.setVal_keeps ?_ ..
          refine State.draw_keeps ?_ ..
          refine State.setVal_keeps ?_ ..
          refine State.readResetRecord_keeps ?_ ..
          refine State.loadRecord_keeps ?_ ..
          refine Keeps.mk1 ?_ _ _ _ _ _ _ _ _ _ _ _ _ _ _ _ _ _ _ _ rfl rfl rfl rfl rfl rfl
          assumption
        · refine State.setVal_keeps ?_ ..
          refine State.draw_keeps ?_ ..
          refine State.setVal_keeps ?_ ..
          refine State.readResetRecord_keeps ?_ ..
          refine State.loadRecord_keeps ?_ ..
          refine Keeps.mk1 ?_ _ _ _ _ _ _ _ _ _ _ _ _ _ _ _ _ _ _ _ rfl rfl rfl rfl rfl rfl
          assumption
      · split
        · refine State.setVal_keeps ?_ ..
          refine State.setVal_keeps ?_ ..
          refine State.draw_keeps ?_ ..
          refine State.setVal_keeps ?_ ..
          refine State.readResetRecord_keeps ?_ ..
          refine State.loadRecord_keeps ?_ ..
          refine Keeps.mk1 ?_ _ _ _ _ _ _ _ _ _ _ _ _ _ _ _ _ _ _ _ rfl rfl rfl rfl rfl rfl
          assumption
        · refine State.setVal_keeps ?_ ..
          refine State.draw_keeps ?_ ..
          refine State.setVal_keeps ?_ ..
          refine State.readResetRecord_keeps ?_ ..
          refine State.loadRecord_keeps ?_ ..
          refine Keeps.mk1 ?_ _ _ _ _ _ _ _ _ _ _ _ _ _ _ _ _ _ _ _ rfl rfl rfl rfl rfl rfl
          assumption
    · refine State.setVal_keeps ?_ ..
      split
      · split
        · refine State.setVal_keeps ?_ ..
          refine State.setVal_keeps ?_ ..
          refine State.draw_keeps ?_ ..
          refine State.setVal_keeps ?_ ..
          refine State.readResetRecord_keeps ?_ ..
          refine State.loadRecord_keeps ?_ ..
          refine Keeps.mk1 ?_ _ _ _ _ _ _ _ _ _ _ _ _ _ _ _ _ _ _ _ rfl rfl rfl rfl rfl rfl
          assumption
        · refine State.setVal_keeps ?_ ..
          refine State.draw_keeps ?_ ..
          refine State.setVal_keeps ?_ ..
          refine State.readResetRecord_keeps ?_ ..
          refine State.loadRecord_keeps ?_ ..
          refine Keeps.mk1 ?_ _ _ _ _ _ _ _ _ _ _ _ _ _ _ _ _ _ _ _ rfl rfl rfl rfl rfl rfl
          assumption
      · split
        · refine State.setVal_keeps ?_ ..
          refine State.setVal_keeps ?_ ..
          refine State.draw_keeps ?_ ..
          refine State.setVal_keeps ?_ ..
          refine State.readResetRecord_keeps ?_ ..
          refine State.loadRecord_keeps ?_ ..
          refine Keeps.mk1 ?_ _ _ _ _ _ _ _ _ _ _ _ _ _ _ _ _ _ _ _ rfl rfl rfl rfl rfl rfl
          assumption
        · refine State.setVal_keeps ?_ ..
          refine State.draw_keeps ?_ ..
          refine State.setVal_keeps ?_ ..
          refine State.readResetRecord_keeps ?_ ..
          refine State.loadRecord_keeps ?_ ..
          refine Keeps.mk1 ?_ _ _ _ _ _ _ _ _ _ _ _ _ _ _ _ _ _ _ _ rfl rfl rfl rfl rfl rfl
          assumption

theorem State.enterBoot_keeps {s₀ s : State} (h : Keeps s₀ s) (b : Nat) :
    Keeps s₀ (State.enterBoot s b) := by
  unfold State.enterBoot
  try dsimp only
  refine State.setReg_keeps ?_ ..
  refine State.setVal_keeps ?_ ..
  assumption

theorem enterFirmwareStep_keeps {s₀ s : State} (h : Keeps s₀ s) :
    Keeps s₀ (enterFirmwareStep s) := by
  unfold enterFirmwareStep
  try dsimp only
  split
  · assumption
  · refine Keeps.mk1 ?_ _ _ _ _ _ _ _ _ _ _ _ _ _ _ _ _ _ _ _ rfl rfl rfl rfl rfl rfl
    refine State.enterBoot_keeps ?_ ..
    assumption

theorem State.loadMaps_keeps {s₀ s : State} (h : Keeps s₀ s) (f : FieldState) (bad : List Nat) :
    Keeps s₀ (State.loadMaps s f bad) := by
  unfold State.loadMaps
  try dsimp only
  refine Keeps.foldl (fun t x ht => ?_) ?_ _
  · refine Keeps.foldl (fun t x ht => ?_) ?_ _
    · refine State.dueSignature_keeps ?_ ..
      assumption
    · refine State.reportCapacity_keeps ?_ ..
      refine Keeps.foldl (fun t x ht => ?_) ?_ _
      · refine State.raiseEvent_keeps ?_ ..
        assumption
      · assumption
  · refine Keeps.foldl (fun t x ht => ?_) ?_ _
    · refine State.setReg_keeps ?_ ..
      assumption
    · refine State.regear_keeps ?_ ..
      refine Keeps.mk1 ?_ _ _ _ _ _ _ _ _ _ _ _ _ _ _ _ _ _ _ _ rfl rfl rfl rfl rfl rfl
      refine Keeps.foldl (fun t x ht => ?_) ?_ _
      · refine State.setVal_keeps ?_ ..
        assumption
      · refine Keeps.foldl (fun t x ht => ?_) ?_ _
        · refine State.setVal_keeps ?_ ..
          assumption
        · assumption

theorem State.steerBonds_keeps {s₀ s : State} (h : Keeps s₀ s) (fs : List (Nat × Nat)) (count : Nat → Nat → Nat) :
    Keeps s₀ (State.steerBonds s fs count) := by
  unfold State.steerBonds
  try dsimp only
  refine Keeps.foldl (fun t x ht => ?_) ?_ _
  · split
    · refine State.addRepair_keeps ?_ ..
      refine State.addRepair_keeps ?_ ..
      assumption
    · assumption
  · assumption

theorem State.dropField_keeps {s₀ s : State} (h : Keeps s₀ s) :
    Keeps s₀ (State.dropField s) := by
  unfold State.dropField
  try dsimp only
  refine Keeps.mk1 ?_ _ _ _ _ _ _ _ _ _ _ _ _ _ _ _ _ _ _ _ rfl rfl rfl rfl rfl rfl
  assumption

theorem enterPanelStep_keeps {s₀ s : State} (h : Keeps s₀ s) (t : PanelTest) :
    Keeps s₀ (enterPanelStep s t) := by
  unfold enterPanelStep
  try dsimp only
  split
  · assumption
  · refine State.rebuildStripes_keeps ?_ ..
    refine Keeps.foldl (fun t x ht => ?_) ?_ _
    · refine State.mapOutChannel_keeps ?_ ..
      assumption
    · refine Keeps.mk1 ?_ _ _ _ _ _ _ _ _ _ _ _ _ _ _ _ _ _ _ _ rfl rfl rfl rfl rfl rfl
      refine State.routes_keeps ?_ ..
      refine Keeps.foldl (fun t x ht => ?_) ?_ _
      · refine State.trainRill_keeps ?_ ..
        assumption
      · refine State.loadMaps_keeps ?_ ..
        refine State.steerBonds_keeps ?_ ..
        refine Keeps.mk1 ?_ _ _ _ _ _ _ _ _ _ _ _ _ _ _ _ _ _ _ _ rfl rfl rfl rfl rfl rfl
        split
        · refine State.dropField_keeps ?_ ..
          refine State.enterBoot_keeps ?_ ..
          assumption
        · refine State.enterBoot_keeps ?_ ..
          assumption

theorem State.trainPorts_keeps {s₀ s : State} (h : Keeps s₀ s) :
    Keeps s₀ (State.trainPorts s) := by
  unfold State.trainPorts
  try dsimp only
  refine Keeps.foldl (fun t x ht => ?_) ?_ _
  · split
    · refine State.setReg_keeps ?_ ..
      assumption
    · assumption
  · assumption

theorem State.serviceWrite_keeps {s₀ s : State} (h : Keeps s₀ s) (r : BootRec) :
    Keeps s₀ (State.serviceWrite s r) := by
  unfold State.serviceWrite
  try dsimp only
  split
  · assumption
  · split
    · assumption
    · refine Keeps.mk1 ?_ _ _ _ _ _ _ _ _ _ _ _ _ _ _ _ _ _ _ _ rfl rfl rfl rfl rfl rfl
      assumption

theorem State.fwDone_keeps {s₀ s : State} (h : Keeps s₀ s) (code : Nat) (st : Nat) :
    Keeps s₀ (State.fwDone s code st) := by
  unfold State.fwDone
  try dsimp only
  refine State.setVal_keeps ?_ ..
  assumption

theorem State.confirm_keeps {s₀ s : State} (h : Keeps s₀ s) :
    Keeps s₀ (State.confirm s) := by
  unfold State.confirm
  try dsimp only
  split
  · refine State.fwDone_keeps ?_ ..
    assumption
  · split
    · refine State.fwDone_keeps ?_ ..
      assumption
    · refine State.fwDone_keeps ?_ ..
      refine Keeps.mk1 ?_ _ _ _ _ _ _ _ _ _ _ _ _ _ _ _ _ _ _ _ rfl rfl rfl rfl rfl rfl
      refine State.serviceWrite_keeps ?_ ..
      assumption

theorem enterReadyStep_keeps {s₀ s : State} (h : Keeps s₀ s) :
    Keeps s₀ (enterReadyStep s) := by
  unfold enterReadyStep
  try dsimp only
  split
  · assumption
  · split
    · refine State.confirm_keeps ?_ ..
      refine State.settleStaged_keeps ?_ ..
      refine State.applyHeldAll_keeps ?_ ..
      refine State.enterBoot_keeps ?_ ..
      refine State.checkJournal_keeps ?_ ..
      refine State.restoreEntries_keeps ?_ ..
      assumption
    · refine State.settleStaged_keeps ?_ ..
      refine State.applyHeldAll_keeps ?_ ..
      refine State.enterBoot_keeps ?_ ..
      refine State.checkJournal_keeps ?_ ..
      refine State.restoreEntries_keeps ?_ ..
      assumption

theorem watchdogStep_keeps {s₀ s : State} (h : Keeps s₀ s) :
    Keeps s₀ (watchdogStep s) := by
  unfold watchdogStep
  try dsimp only
  split
  · refine State.orderlyReset_keeps ?_ ..
    assumption
  · assumption

theorem trialTimeoutStep_keeps {s₀ s : State} (h : Keeps s₀ s) :
    Keeps s₀ (trialTimeoutStep s) := by
  unfold trialTimeoutStep
  try dsimp only
  split
  · refine State.orderlyReset_keeps ?_ ..
    assumption
  · assumption

theorem State.panelReset_keeps {s₀ s : State} (h : Keeps s₀ s) : Keeps s₀ s.panelReset := by
  have h' := State.loseWrites_keeps (State.loseCheckpoints_keeps h)
  exact ⟨h'.queue, fun _ => rfl, fun _ => rfl, fun _ => rfl, fun _ => rfl, fun _ => Nat.zero_le _, fun _ => Nat.zero_le _, fun _ => Nat.zero_le _⟩

theorem State.stage_keeps {s₀ s : State} (h : Keeps s₀ s) (e : Nat) (v : Nat) :
    Keeps s₀ (State.stage s e v) := by
  unfold State.stage
  try dsimp only
  refine State.fwDone_keeps ?_ ..
  refine Keeps.mk1 ?_ _ _ _ _ _ _ _ _ _ _ _ _ _ _ _ _ _ _ _ rfl rfl rfl rfl rfl rfl
  assumption

theorem State.fwCommand_keeps {s₀ s : State} (h : Keeps s₀ s) (c : Nat) :
    Keeps s₀ (State.fwCommand s c).2 := by
  unfold State.fwCommand
  try dsimp only
  split
  · dsimp only
    refine State.fwDone_keeps ?_ ..
    assumption
  · split
    · split
      · dsimp only
        refine State.fwDone_keeps ?_ ..
        assumption
      · dsimp only
        refine State.fwDone_keeps ?_ ..
        assumption
    · split
      · dsimp only
        refine State.fwDone_keeps ?_ ..
        assumption
      · split
        · dsimp only
          refine State.fwDone_keeps ?_ ..
          assumption
        · dsimp only
          refine State.fwDone_keeps ?_ ..
          refine Keeps.mk1 ?_ _ _ _ _ _ _ _ _ _ _ _ _ _ _ _ _ _ _ _ rfl rfl rfl rfl rfl rfl
          assumption
    · dsimp only
      refine State.confirm_keeps ?_ ..
      assumption
    · dsimp only
      refine State.fwDone_keeps ?_ ..
      refine Keeps.mk1 ?_ _ _ _ _ _ _ _ _ _ _ _ _ _ _ _ _ _ _ _ rfl rfl rfl rfl rfl rfl
      assumption
    · assumption

theorem installDoneStep_keeps {s₀ s : State} (h : Keeps s₀ s) (ok : Bool) :
    Keeps s₀ (installDoneStep s ok) := by
  unfold installDoneStep
  try dsimp only
  split
  · assumption
  · split
    · refine State.fwDone_keeps ?_ ..
      assumption
    · split
      · split
        · refine State.panelReset_keeps ?_ ..
          refine State.fwDone_keeps ?_ ..
          refine Keeps.mk1 ?_ _ _ _ _ _ _ _ _ _ _ _ _ _ _ _ _ _ _ _ rfl rfl rfl rfl rfl rfl
          assumption
        · refine State.fwDone_keeps ?_ ..
          refine Keeps.mk1 ?_ _ _ _ _ _ _ _ _ _ _ _ _ _ _ _ _ _ _ _ rfl rfl rfl rfl rfl rfl
          assumption
      · split
        · refine State.panelReset_keeps ?_ ..
          refine State.fwDone_keeps ?_ ..
          refine Keeps.mk1 ?_ _ _ _ _ _ _ _ _ _ _ _ _ _ _ _ _ _ _ _ rfl rfl rfl rfl rfl rfl
          assumption
        · refine State.fwDone_keeps ?_ ..
          refine Keeps.mk1 ?_ _ _ _ _ _ _ _ _ _ _ _ _ _ _ _ _ _ _ _ rfl rfl rfl rfl rfl rfl
          assumption

end Sys2Proof.Machine
end

