-- ==== Sys2Proof/Laws/KeepsSteps.lean ====
section
/-! SUPPORT. What the operations of the course of a step, of snapshots and of screening keep. -/

namespace Sys2Proof.Machine

theorem plainAct_keeps {s₀ s : State} (h : Keeps s₀ s) (c : Ctx) :
    Keeps s₀ (plainAct s c).state := by
  unfold plainAct
  try dsimp only
  assumption

theorem State.modStream_keeps {s₀ s : State} (h : Keeps s₀ s) (c : Ctx) (f : Stream → Stream) :
    Keeps s₀ (State.modStream s c f) := by
  unfold State.modStream
  try dsimp only
  refine State.setDie_keeps ?_ ..
  assumption

theorem baseAct_keeps {s₀ s : State} (h : Keeps s₀ s) (c : Ctx) :
    Keeps s₀ (baseAct s c).state := by
  unfold baseAct
  try dsimp only
  refine plainAct_keeps ?_ ..
  refine State.modStream_keeps ?_ ..
  assumption

theorem strideAct_keeps {s₀ s : State} (h : Keeps s₀ s) (c : Ctx) :
    Keeps s₀ (strideAct s c).state := by
  unfold strideAct
  try dsimp only
  refine plainAct_keeps ?_ ..
  refine State.modStream_keeps ?_ ..
  assumption

theorem loopAct_keeps {s₀ s : State} (h : Keeps s₀ s) (c : Ctx) :
    Keeps s₀ (loopAct s c).state := by
  unfold loopAct
  try dsimp only
  refine plainAct_keeps ?_ ..
  refine State.modStream_keeps ?_ ..
  assumption

theorem endAct_keeps {s₀ s : State} (h : Keeps s₀ s) (c : Ctx) :
    Keeps s₀ (endAct s c).state := by
  unfold endAct
  try dsimp only
  refine plainAct_keeps ?_ ..
  refine State.modStream_keeps ?_ ..
  assumption

theorem rsigAct_keeps {s₀ s : State} (h : Keeps s₀ s) (c : Ctx) :
    Keeps s₀ (rsigAct s c).state := by
  unfold rsigAct
  try dsimp only
  refine Keeps.mk1 ?_ _ _ _ _ _ _ _ _ _ _ _ _ _ _ _ _ _ _ _ rfl rfl rfl rfl rfl rfl
  assumption

theorem headDueStep_keeps {s₀ s : State} (h : Keeps s₀ s) (sl : Nat) (st : Nat) :
    Keeps s₀ (headDueStep s sl st) := by
  unfold headDueStep
  try dsimp only
  split
  · assumption
  · split
    · assumption
    · split
      · refine State.awaitDue_keeps ?_ ..
        refine State.atAc_keeps ?_ ..
        assumption
      · assumption

theorem State.raiseArrived_keeps {s₀ s : State} (h : Keeps s₀ s) (o : Option (Nat × Nat)) :
    Keeps s₀ (State.raiseArrived s o) := by
  unfold State.raiseArrived
  try dsimp only
  split
  · assumption
  · refine State.setDie_keeps ?_ ..
    assumption

theorem remoteRaiseStep_keeps {s₀ s : State} (h : Keeps s₀ s) (sl : Nat) (t : Nat) (count : Nat) (step : Nat) :
    Keeps s₀ (remoteRaiseStep s sl t count step) := by
  unfold remoteRaiseStep
  try dsimp only
  split
  · assumption
  · refine State.raiseArrived_keeps ?_ ..
    refine State.applyRaise_keeps ?_ ..
    refine Keeps.mk1 ?_ _ _ _ _ _ _ _ _ _ _ _ _ _ _ _ _ _ _ _ rfl rfl rfl rfl rfl rfl
    refine State.reach_keeps ?_ ..
    assumption

/-- The stall record keeps the canonical form. -/
theorem State.headStates_wf (s : State) (sl : Nat) {m : Sparse Nat} (w : Sparse.wf paramDefault m = true) :
    Sparse.wf paramDefault (s.headStates sl m) = true :=
  Sparse.wf_foldl (fun _ _ w => Sparse.wf_put _ _ w) _ (Sparse.wf_foldl (fun _ _ w => Sparse.wf_put _ _ w) _ w)
theorem State.recordStall_keeps {s₀ s : State} (h : Keeps s₀ s) (sl : Nat) : Keeps s₀ (s.recordStall sl) :=
  Keeps.mkParams h _ _ _ (s.headStates_wf sl) rfl rfl

theorem slotStallStep_keeps {s₀ s : State} (h : Keeps s₀ s) (sl : Nat) :
    Keeps s₀ (slotStallStep s sl) := by
  unfold slotStallStep
  try dsimp only
  split
  · assumption
  · refine State.raiseEvent_keeps ?_ ..
    refine State.recordStall_keeps ?_ ..
    refine State.bump32_keeps ?_ ..
    refine State.setDie_keeps ?_ ..
    refine State.reach_keeps ?_ ..
    refine State.account_keeps ?_ ..
    assumption

theorem State.snapState_keeps {s₀ s : State} (h : Keeps s₀ s) (st : Nat) :
    Keeps s₀ (State.snapState s st) := by
  unfold State.snapState
  try dsimp only
  refine State.setVal_keeps ?_ ..
  assumption

theorem State.takeSnapshot_keeps {s₀ s : State} (h : Keeps s₀ s) : Keeps s₀ s.takeSnapshot := by
  have h' := State.countAllReads_keeps (State.accountAll_keeps h)
  unfold State.takeSnapshot
  generalize s.accountAll.countAllReads = u at h' ⊢
  refine State.snapState_keeps ?_ ..
  exact ⟨h'.queue, h'.params, h'.tiles, h'.pages, h'.dies, h'.events, h'.staged, h'.retired⟩

theorem State.armTime_keeps {s₀ s : State} (h : Keeps s₀ s) (t : Nat) :
    Keeps s₀ (State.armTime s t) := by
  unfold State.armTime
  try dsimp only
  refine State.setVal_keeps ?_ ..
  refine Keeps.mk1 ?_ _ _ _ _ _ _ _ _ _ _ _ _ _ _ _ _ _ _ _ rfl rfl rfl rfl rfl rfl
  refine State.setVal_keeps ?_ ..
  assumption

theorem State.armStep_keeps {s₀ s : State} (h : Keeps s₀ s) (n : Nat) :
    Keeps s₀ (State.armStep s n) := by
  unfold State.armStep
  try dsimp only
  refine State.setVal_keeps ?_ ..
  refine Keeps.mk1 ?_ _ _ _ _ _ _ _ _ _ _ _ _ _ _ _ _ _ _ _ rfl rfl rfl rfl rfl rfl
  refine State.setVal_keeps ?_ ..
  assumption

theorem State.rejectSnapshot_keeps {s₀ s : State} (h : Keeps s₀ s) :
    Keeps s₀ (State.rejectSnapshot s) := by
  unfold State.rejectSnapshot
  try dsimp only
  refine State.setVal_keeps ?_ ..
  assumption

theorem snapshotInstantStep_keeps {s₀ s : State} (h : Keeps s₀ s) :
    Keeps s₀ (snapshotInstantStep s) := by
  unfold snapshotInstantStep
  try dsimp only
  split
  · assumption
  · refine State.takeSnapshot_keeps ?_ ..
    refine State.reach_keeps ?_ ..
    assumption

theorem snapshotCompleteStep_keeps {s₀ s : State} (h : Keeps s₀ s) :
    Keeps s₀ (snapshotCompleteStep s) := by
  unfold snapshotCompleteStep
  try dsimp only
  split
  · assumption
  · refine State.snapState_keeps ?_ ..
    refine State.bump64_keeps ?_ ..
    refine State.setVal_keeps ?_ ..
    refine State.setVal_keeps ?_ ..
    refine State.setVal_keeps ?_ ..
    refine Keeps.mk1 ?_ _ _ _ _ _ _ _ _ _ _ _ _ _ _ _ _ _ _ _ rfl rfl rfl rfl rfl rfl
    assumption

theorem State.loadSet_keeps {s₀ s : State} (h : Keeps s₀ s) (bs : List Byte) :
    Keeps s₀ (State.loadSet s bs) := by
  unfold State.loadSet
  try dsimp only
  split
  · refine State.setVal_keeps ?_ ..
    assumption
  · refine State.setVal_keeps ?_ ..
    refine State.setVal_keeps ?_ ..
    refine Keeps.mk1 ?_ _ _ _ _ _ _ _ _ _ _ _ _ _ _ _ _ _ _ _ rfl rfl rfl rfl rfl rfl
    refine State.setVal_keeps ?_ ..
    assumption

theorem State.activateSet_keeps {s₀ s : State} (h : Keeps s₀ s) (n : Nat) :
    Keeps s₀ (State.activateSet s n) := by
  unfold State.activateSet
  try dsimp only
  split
  · assumption
  · split
    · assumption
    · split
      · refine State.raiseEvent_keeps ?_ ..
        refine State.setVal_keeps ?_ ..
        refine State.setVal_keeps ?_ ..
        refine Keeps.mk1 ?_ _ _ _ _ _ _ _ _ _ _ _ _ _ _ _ _ _ _ _ rfl rfl rfl rfl rfl rfl
        assumption
      · refine State.setVal_keeps ?_ ..
        refine Keeps.mk1 ?_ _ _ _ _ _ _ _ _ _ _ _ _ _ _ _ _ _ _ _ rfl rfl rfl rfl rfl rfl
        refine State.setVal_keeps ?_ ..
        refine Keeps.mk1 ?_ _ _ _ _ _ _ _ _ _ _ _ _ _ _ _ _ _ _ _ rfl rfl rfl rfl rfl rfl
        assumption

theorem State.busyVector_keeps {s₀ s : State} (h : Keeps s₀ s) (c : Ctx) (n : Nat) (late : Nat) :
    Keeps s₀ (State.busyVector s c n late) := by
  unfold State.busyVector
  try dsimp only
  refine State.setDie_keeps ?_ ..
  assumption

theorem State.busyReducer_keeps {s₀ s : State} (h : Keeps s₀ s) (c : Ctx) (n : Nat) (late : Nat) :
    Keeps s₀ (State.busyReducer s c n late) := by
  unfold State.busyReducer
  try dsimp only
  refine State.setDie_keeps ?_ ..
  assumption

theorem vecTileAct_keeps {s₀ s : State} (h : Keeps s₀ s) (form : Nat) (c : Ctx) :
    Keeps s₀ (vecTileAct form s c).state := by
  unfold vecTileAct
  try dsimp only
  refine State.busyVector_keeps ?_ ..
  split
  · dsimp only
    refine State.readOperand_keeps ?_ ..
    refine State.operandDelay_keeps ?_ ..
    assumption
  · split
    · dsimp only
      refine State.readOperand_keeps ?_ ..
      refine State.readOperand_keeps ?_ ..
      refine State.operandDelay_keeps ?_ ..
      assumption
    · dsimp only
      refine State.readOperand_keeps ?_ ..
      refine State.operandDelay_keeps ?_ ..
      assumption
    · dsimp only
      refine State.readOperand_keeps ?_ ..
      refine State.operandDelay_keeps ?_ ..
      assumption

theorem vtransAct_keeps {s₀ s : State} (h : Keeps s₀ s) (c : Ctx) :
    Keeps s₀ (vtransAct s c).state := by
  unfold vtransAct
  try dsimp only
  refine State.busyVector_keeps ?_ ..
  refine State.readOperand_keeps ?_ ..
  refine State.operandDelay_keeps ?_ ..
  assumption

theorem vldAct_keeps {s₀ s : State} (h : Keeps s₀ s) (c : Ctx) :
    Keeps s₀ (vldAct s c).state := by
  unfold vldAct
  try dsimp only
  refine State.busyVector_keeps ?_ ..
  refine State.readOperand_keeps ?_ ..
  refine State.operandDelay_keeps ?_ ..
  assumption

theorem vstAct_keeps {s₀ s : State} (h : Keeps s₀ s) (c : Ctx) :
    Keeps s₀ (vstAct s c).state := by
  unfold vstAct
  try dsimp only
  refine State.busyVector_keeps ?_ ..
  split
  · split
    · assumption
    · split
      · refine State.bump64_keeps ?_ ..
        assumption
      · refine State.bump64_keeps ?_ ..
        assumption
  · split
    · assumption
    · split
      · refine State.bump64_keeps ?_ ..
        assumption
      · refine State.bump64_keeps ?_ ..
        assumption
  · split
    · assumption
    · split
      · refine State.bump64_keeps ?_ ..
        assumption
      · refine State.bump64_keeps ?_ ..
        assumption
  · split
    · assumption
    · split
      · refine State.bump64_keeps ?_ ..
        assumption
      · refine State.bump64_keeps ?_ ..
        assumption

theorem vregAct_keeps {s₀ s : State} (h : Keeps s₀ s) (c : Ctx) :
    Keeps s₀ (vregAct s c).state := by
  unfold vregAct
  try dsimp only
  refine State.busyVector_keeps ?_ ..
  assumption

theorem postAct_keeps {s₀ s : State} (h : Keeps s₀ s) (c : Ctx) :
    Keeps s₀ (postAct s c).state := by
  unfold postAct
  try dsimp only
  split
  · dsimp only
    refine State.busyVector_keeps ?_ ..
    assumption
  · dsimp only
    refine State.setDie_keeps ?_ ..
    refine State.busyVector_keeps ?_ ..
    assumption

theorem vimmAct_keeps {s₀ s : State} (h : Keeps s₀ s) (c : Ctx) :
    Keeps s₀ (vimmAct s c).state := by
  unfold vimmAct
  try dsimp only
  refine State.busyVector_keeps ?_ ..
  assumption

theorem redAct_keeps {s₀ s : State} (h : Keeps s₀ s) (c : Ctx) :
    Keeps s₀ (redAct s c).state := by
  unfold redAct
  try dsimp only
  refine State.busyReducer_keeps ?_ ..
  refine State.readOperand_keeps ?_ ..
  refine State.operandDelay_keeps ?_ ..
  assumption

theorem State.finalWord_keeps {s₀ s : State} (h : Keeps s₀ s) (n : Nat) (w : Nat) :
    Keeps s₀ (State.finalWord s n w) := by
  unfold State.finalWord
  try dsimp only
  split
  · refine State.noteMet_keeps ?_ ..
    refine State.modStep_keeps ?_ ..
    refine Keeps.mk1 ?_ _ _ _ _ _ _ _ _ _ _ _ _ _ _ _ _ _ _ _ rfl rfl rfl rfl rfl rfl
    refine State.setVal_keeps ?_ ..
    refine State.setVal_keeps ?_ ..
    assumption
  · split
    · refine State.requestReplay_keeps ?_ ..
      refine State.skipStep_keeps ?_ ..
      refine State.noteMet_keeps ?_ ..
      refine State.modStep_keeps ?_ ..
      refine Keeps.mk1 ?_ _ _ _ _ _ _ _ _ _ _ _ _ _ _ _ _ _ _ _ rfl rfl rfl rfl rfl rfl
      refine State.setVal_keeps ?_ ..
      refine State.setVal_keeps ?_ ..
      assumption
    · refine State.skipStep_keeps ?_ ..
      refine State.noteMet_keeps ?_ ..
      refine State.modStep_keeps ?_ ..
      refine Keeps.mk1 ?_ _ _ _ _ _ _ _ _ _ _ _ _ _ _ _ _ _ _ _ rfl rfl rfl rfl rfl rfl
      refine State.setVal_keeps ?_ ..
      refine State.setVal_keeps ?_ ..
      assumption

theorem State.soloFinal_keeps {s₀ s : State} (h : Keeps s₀ s) :
    Keeps s₀ (State.soloFinal s) := by
  unfold State.soloFinal
  try dsimp only
  split
  · refine State.finalWord_keeps ?_ ..
    assumption
  · assumption

theorem State.settleWrites_keeps {s₀ s : State} (h : Keeps s₀ s) :
    Keeps s₀ (State.settleWrites s) := by
  unfold State.settleWrites
  try dsimp only
  refine State.settleStaged_keeps ?_ ..
  refine State.settleHeld_keeps ?_ ..
  assumption

theorem State.boundary_keeps {s₀ s : State} (h : Keeps s₀ s) : Keeps s₀ s.boundary := by
  have h1 := State.soloFinal_keeps h
  have h2 := State.accountAll_keeps h1
  unfold State.boundary
  generalize s.soloFinal = u at h1 h2 ⊢
  dsimp only
  split
  · refine State.settleWrites_keeps ?_
    generalize u.accountAll = v at h2 ⊢
    exact ⟨h2.queue, h2.params, h2.tiles, h2.pages, h2.dies, h2.events, h2.staged, h2.retired⟩
  · exact h1

theorem State.collDone_keeps {s₀ s : State} (h : Keeps s₀ s) (key : Nat) :
    Keeps s₀ (State.collDone s key) := by
  unfold State.collDone
  try dsimp only
  split
  · assumption
  · split
    · refine State.finalWord_keeps ?_ ..
      refine Keeps.mk1 ?_ _ _ _ _ _ _ _ _ _ _ _ _ _ _ _ _ _ _ _ rfl rfl rfl rfl rfl rfl
      assumption
    · refine Keeps.mk1 ?_ _ _ _ _ _ _ _ _ _ _ _ _ _ _ _ _ _ _ _ rfl rfl rfl rfl rfl rfl
      assumption

theorem entryCompleteStep_keeps {s₀ s : State} (h : Keeps s₀ s) (sl : Nat) (id : Nat) :
    Keeps s₀ (entryCompleteStep s sl id) := by
  unfold entryCompleteStep
  try dsimp only
  split
  · assumption
  · split
    · assumption
    · split
      · refine State.startLoads_keeps ?_ ..
        assumption
      · refine State.boundary_keeps ?_ ..
        split
        · refine State.collDone_keeps ?_ ..
          refine State.setDie_keeps ?_ ..
          split
          · refine Keeps.foldl (fun t x ht => ?_) ?_ _
            · refine State.applyEffect_keeps ?_ ..
              assumption
            · refine State.account_keeps ?_ ..
              refine State.reach_keeps ?_ ..
              assumption
          · refine State.addToken_keeps ?_ ..
            refine Keeps.foldl (fun t x ht => ?_) ?_ _
            · refine State.applyEffect_keeps ?_ ..
              assumption
            · refine State.account_keeps ?_ ..
              refine State.reach_keeps ?_ ..
              assumption
        · refine State.setDie_keeps ?_ ..
          split
          · refine Keeps.foldl (fun t x ht => ?_) ?_ _
            · refine State.applyEffect_keeps ?_ ..
              assumption
            · refine State.account_keeps ?_ ..
              refine State.reach_keeps ?_ ..
              assumption
          · refine State.addToken_keeps ?_ ..
            refine Keeps.foldl (fun t x ht => ?_) ?_ _
            · refine State.applyEffect_keeps ?_ ..
              assumption
            · refine State.account_keeps ?_ ..
              refine State.reach_keeps ?_ ..
              assumption

theorem State.checkTriggers_keeps {s₀ s : State} (h : Keeps s₀ s) : Keeps s₀ s.checkTriggers := by
  unfold State.checkTriggers
  refine Keeps.mk1 (u := _) ?_ _ _ _ _ _ _ _ _ _ _ _ _ _ _ _ _ _ _ _ rfl rfl rfl rfl rfl rfl
  split
  · exact h
  · refine State.raiseEvent_keeps (State.setVal_keeps ?_ ..) ..
    exact Keeps.mkParams h _ _ _ (fun w => Sparse.wf_foldl (fun _ _ w => Sparse.wf_put _ _ w) _ (Sparse.wf_filter _ w)) rfl rfl

theorem State.openDie_keeps {s₀ s : State} (h : Keeps s₀ s) (sl : Nat) (fresh : Bool) :
    Keeps s₀ (State.openDie s sl fresh) := by
  unfold State.openDie
  try dsimp only
  split
  · split
    · refine State.addToken_keeps ?_ ..
      refine State.setDie_keeps ?_ ..
      assumption
    · refine State.setDie_keeps ?_ ..
      assumption
  · refine State.setDie_keeps ?_ ..
    assumption

theorem State.applyRaises_keeps {s₀ s : State} (h : Keeps s₀ s) (n : Nat) :
    Keeps s₀ (State.applyRaises s n) := by
  unfold State.applyRaises
  try dsimp only
  refine Keeps.foldl (fun t x ht => ?_) ?_ _
  · refine State.applyRaise_keeps ?_ ..
    assumption
  · refine Keeps.mk1 ?_ _ _ _ _ _ _ _ _ _ _ _ _ _ _ _ _ _ _ _ rfl rfl rfl rfl rfl rfl
    assumption

theorem State.showTokens_keeps {s₀ s : State} (h : Keeps s₀ s) :
    Keeps s₀ (State.showTokens s) := by
  unfold State.showTokens
  try dsimp only
  refine Keeps.foldl (fun t x ht => ?_) ?_ _
  · refine State.setDie_keeps ?_ ..
    assumption
  · assumption

theorem applyHeld_keeps {s₀ s : State} (h : Keeps s₀ s) (fuel ns : Nat) : Keeps s₀ (applyHeld fuel ns s) := by
  induction fuel generalizing s with
  | zero => exact h
  | succ n ih =>
    have h' := discardStale_keeps h ns
    unfold applyHeld
    dsimp only
    split
    · exact h'
    · split
      · split
        · exact State.startLoads_keeps h' ..
        · exact ih (State.finishMessage_keeps (State.applyTile_keeps h' ..) ..)
      · split
        · exact ih (State.finishMessage_keeps (State.toUnit_keeps h' ..) ..)
        · exact h'

theorem State.applyHeldMessages_keeps {s₀ s : State} (h : Keeps s₀ s) :
    Keeps s₀ (State.applyHeldMessages s) := by
  unfold State.applyHeldMessages
  try dsimp only
  refine Keeps.foldl (fun t x ht => ?_) ?_ _
  · refine applyHeld_keeps ?_ ..
    assumption
  · refine State.dropEarly_keeps ?_ ..
    assumption

theorem State.writePhases_keeps {s₀ s : State} (h : Keeps s₀ s) (recs : List (List Nat)) :
    Keeps s₀ (State.writePhases s recs) := by
  unfold State.writePhases
  try dsimp only
  split
  · refine Keeps.foldl (fun t x ht => ?_) ?_ _
    · refine Keeps.foldl (fun t x ht => ?_) ?_ _
      · refine State.setReg_keeps ?_ ..
        assumption
      · assumption
    · assumption
  · refine State.write_keeps ?_ ..
    refine Keeps.foldl (fun t x ht => ?_) ?_ _
    · refine Keeps.foldl (fun t x ht => ?_) ?_ _
      · refine State.setReg_keeps ?_ ..
        assumption
      · assumption
    · assumption

theorem State.openTables_keeps {s₀ s : State} (h : Keeps s₀ s) (n : Nat) :
    Keeps s₀ (State.openTables s n) := by
  unfold State.openTables
  try dsimp only
  refine State.remapViews_keeps ?_ ..
  refine State.retryRetirements_keeps ?_ ..
  refine State.applyStaged_keeps ?_ ..
  refine Keeps.mk1 ?_ _ _ _ _ _ _ _ _ _ _ _ _ _ _ _ _ _ _ _ rfl rfl rfl rfl rfl rfl
  refine State.checkTriggers_keeps ?_ ..
  refine State.activateSet_keeps ?_ ..
  split
  · refine State.setVal_keeps ?_ ..
    refine State.applyHeldAll_keeps ?_ ..
    refine State.setVal_keeps ?_ ..
    assumption
  · refine State.applyHeldAll_keeps ?_ ..
    refine State.setVal_keeps ?_ ..
    assumption

theorem State.clearSticky_keeps {s₀ s : State} (h : Keeps s₀ s) : Keeps s₀ s.clearSticky := by
  unfold State.clearSticky
  split
  · exact Keeps.mkParams h _ _ _ (Sparse.wf_filter _) rfl rfl
  · exact h

theorem State.openBooks_keeps {s₀ s : State} (h : Keeps s₀ s) (n : Nat) :
    Keeps s₀ (State.openBooks s n) := by
  unfold State.openBooks
  try dsimp only
  refine State.headCheckpoints_keeps ?_ ..
  refine State.setVal_keeps ?_ ..
  refine Keeps.mk1 ?_ _ _ _ _ _ _ _ _ _ _ _ _ _ _ _ _ _ _ _ rfl rfl rfl rfl rfl rfl
  assumption

theorem stepOpenStep_keeps {s₀ s : State} (h : Keeps s₀ s) :
    Keeps s₀ (stepOpenStep s) := by
  unfold stepOpenStep
  try dsimp only
  split
  · assumption
  · refine State.boundary_keeps ?_ ..
    split
    · split
      · split
        · refine State.takeSnapshot_keeps ?_ ..
          refine State.writePhases_keeps ?_ ..
          refine State.applyHeldMessages_keeps ?_ ..
          refine State.settleStops_keeps ?_ ..
          refine State.skipStep_keeps ?_ ..
          refine Keeps.mk1 ?_ _ _ _ _ _ _ _ _ _ _ _ _ _ _ _ _ _ _ _ rfl rfl rfl rfl rfl rfl
          refine State.showTokens_keeps ?_ ..
          refine State.applyRaises_keeps ?_ ..
          refine Keeps.foldl (fun t x ht => ?_) ?_ _
          · refine State.openDie_keeps ?_ ..
            assumption
          · refine State.clearSticky_keeps ?_ ..
            refine State.openBooks_keeps ?_ ..
            refine State.openTables_keeps ?_ ..
            refine State.accountAll_keeps ?_ ..
            assumption
        · refine State.writePhases_keeps ?_ ..
          refine State.applyHeldMessages_keeps ?_ ..
          refine State.settleStops_keeps ?_ ..
          refine State.skipStep_keeps ?_ ..
          refine Keeps.mk1 ?_ _ _ _ _ _ _ _ _ _ _ _ _ _ _ _ _ _ _ _ rfl rfl rfl rfl rfl rfl
          refine State.showTokens_keeps ?_ ..
          refine State.applyRaises_keeps ?_ ..
          refine Keeps.foldl (fun t x ht => ?_) ?_ _
          · refine State.openDie_keeps ?_ ..
            assumption
          · refine State.clearSticky_keeps ?_ ..
            refine State.openBooks_keeps ?_ ..
            refine State.openTables_keeps ?_ ..
            refine State.accountAll_keeps ?_ ..
            assumption
      · split
        · refine State.takeSnapshot_keeps ?_ ..
          refine State.writePhases_keeps ?_ ..
          refine State.applyHeldMessages_keeps ?_ ..
          refine State.settleStops_keeps ?_ ..
          refine State.showTokens_keeps ?_ ..
          refine State.applyRaises_keeps ?_ ..
          refine Keeps.foldl (fun t x ht => ?_) ?_ _
          · refine State.openDie_keeps ?_ ..
            assumption
          · refine State.clearSticky_keeps ?_ ..
            refine State.openBooks_keeps ?_ ..
            refine State.openTables_keeps ?_ ..
            refine State.accountAll_keeps ?_ ..
            assumption
        · refine State.writePhases_keeps ?_ ..
          refine State.applyHeldMessages_keeps ?_ ..
          refine State.settleStops_keeps ?_ ..
          refine State.showTokens_keeps ?_ ..
          refine State.applyRaises_keeps ?_ ..
          refine Keeps.foldl (fun t x ht => ?_) ?_ _
          · refine State.openDie_keeps ?_ ..
            assumption
          · refine State.clearSticky_keeps ?_ ..
            refine State.openBooks_keeps ?_ ..
            refine State.openTables_keeps ?_ ..
            refine State.accountAll_keeps ?_ ..
            assumption
    · split
      · split
        · refine State.takeSnapshot_keeps ?_ ..
          refine State.applyHeldMessages_keeps ?_ ..
          refine State.settleStops_keeps ?_ ..
          refine State.skipStep_keeps ?_ ..
          refine Keeps.mk1 ?_ _ _ _ _ _ _ _ _ _ _ _ _ _ _ _ _ _ _ _ rfl rfl rfl rfl rfl rfl
          refine State.showTokens_keeps ?_ ..
          refine State.applyRaises_keeps ?_ ..
          refine Keeps.foldl (fun t x ht => ?_) ?_ _
          · refine State.openDie_keeps ?_ ..
            assumption
          · refine State.clearSticky_keeps ?_ ..
            refine State.openBooks_keeps ?_ ..
            refine State.openTables_keeps ?_ ..
            refine State.accountAll_keeps ?_ ..
            assumption
        · refine State.applyHeldMessages_keeps ?_ ..
          refine State.settleStops_keeps ?_ ..
          refine State.skipStep_keeps ?_ ..
          refine Keeps.mk1 ?_ _ _ _ _ _ _ _ _ _ _ _ _ _ _ _ _ _ _ _ rfl rfl rfl rfl rfl rfl
          refine State.showTokens_keeps ?_ ..
          refine State.applyRaises_keeps ?_ ..
          refine Keeps.foldl (fun t x ht => ?_) ?_ _
          · refine State.openDie_keeps ?_ ..
            assumption
          · refine State.clearSticky_keeps ?_ ..
            refine State.openBooks_keeps ?_ ..
            refine State.openTables_keeps ?_ ..
            refine State.accountAll_keeps ?_ ..
            assumption
      · split
        · refine State.takeSnapshot_keeps ?_ ..
          refine State.applyHeldMessages_keeps ?_ ..
          refine State.settleStops_keeps ?_ ..
          refine State.showTokens_keeps ?_ ..
          refine State.applyRaises_keeps ?_ ..
          refine Keeps.foldl (fun t x ht => ?_) ?_ _
          · refine State.openDie_keeps ?_ ..
            assumption
          · refine State.clearSticky_keeps ?_ ..
            refine State.openBooks_keeps ?_ ..
            refine State.openTables_keeps ?_ ..
            refine State.accountAll_keeps ?_ ..
            assumption
        · refine State.applyHeldMessages_keeps ?_ ..
          refine State.settleStops_keeps ?_ ..
          refine State.showTokens_keeps ?_ ..
          refine State.applyRaises_keeps ?_ ..
          refine Keeps.foldl (fun t x ht => ?_) ?_ _
          · refine State.openDie_keeps ?_ ..
            assumption
          · refine State.clearSticky_keeps ?_ ..
            refine State.openBooks_keeps ?_ ..
            refine State.openTables_keeps ?_ ..
            refine State.accountAll_keeps ?_ ..
            assumption

theorem State.abortFlight_keeps {s₀ s : State} (h : Keeps s₀ s) (sl : Nat) (f : Flight) :
    Keeps s₀ (State.abortFlight s sl f) := by
  unfold State.abortFlight
  try dsimp only
  split
  · refine Keeps.foldl (fun t x ht => ?_) ?_ _
    · refine State.applyEffect_keeps ?_ ..
      assumption
    · refine State.draw_keeps ?_ ..
      assumption
  · refine State.draw_keeps ?_ ..
    assumption

theorem State.abortDie_keeps {s₀ s : State} (h : Keeps s₀ s) (sl : Nat) :
    Keeps s₀ (State.abortDie s sl) := by
  unfold State.abortDie
  try dsimp only
  refine State.setDie_keeps ?_ ..
  refine Keeps.foldl (fun t x ht => ?_) ?_ _
  · refine State.abortFlight_keeps ?_ ..
    assumption
  · assumption

theorem State.abortOpen_keeps {s₀ s : State} (h : Keeps s₀ s) : Keeps s₀ s.abortOpen := by
  have h2 : Keeps s₀ ((List.range 64).foldl State.abortDie s.accountAll) :=
    Keeps.foldl (fun t x ht => State.abortDie_keeps ht ..) (State.accountAll_keeps h) _
  unfold State.abortOpen
  refine State.settleWrites_keeps (State.skipStep_keeps ?_ ..)
  dsimp only
  generalize List.foldl _ s.accountAll (List.range 64) = v at h2 ⊢
  exact ⟨h2.queue, h2.params, h2.tiles, h2.pages, h2.dies, h2.events, h2.staged, h2.retired⟩

theorem dieFailureStep_keeps {s₀ s : State} (h : Keeps s₀ s) (p : Nat) :
    Keeps s₀ (dieFailureStep s p) := by
  unfold dieFailureStep
  try dsimp only
  split
  · assumption
  · split
    · refine State.boundary_keeps ?_ ..
      refine Keeps.mk1 ?_ _ _ _ _ _ _ _ _ _ _ _ _ _ _ _ _ _ _ _ rfl rfl rfl rfl rfl rfl
      refine State.account_keeps ?_ ..
      assumption
    · split
      · refine Keeps.mk1 ?_ _ _ _ _ _ _ _ _ _ _ _ _ _ _ _ _ _ _ _ rfl rfl rfl rfl rfl rfl
        assumption
      · assumption

theorem screenStartStep_keeps {s₀ s : State} (h : Keeps s₀ s) :
    Keeps s₀ (screenStartStep s) := by
  unfold screenStartStep
  try dsimp only
  split
  · assumption
  · split
    · assumption
    · refine Keeps.mk1 ?_ _ _ _ _ _ _ _ _ _ _ _ _ _ _ _ _ _ _ _ rfl rfl rfl rfl rfl rfl
      refine State.setPosState_keeps ?_ ..
      split
      · refine Keeps.getD ?_ ?_
        · refine fun _ hu => State.swapSpare_keeps (hu := hu) ?_ ..
          refine State.reach_keeps ?_ ..
          assumption
        · refine State.reach_keeps ?_ ..
          assumption
      · refine State.reach_keeps ?_ ..
        assumption

theorem State.setReplay_keeps {s₀ s : State} (h : Keeps s₀ s) (p : Nat) (checks : Nat) (hash : Nat) :
    Keeps s₀ (State.setReplay s p checks hash) := by
  unfold State.setReplay
  try dsimp only
  refine State.setScreenRec_keeps ?_ ..
  assumption

theorem screenEndStep_keeps {s₀ s : State} (h : Keeps s₀ s) (p : Nat) (r : ScreenResult) :
    Keeps s₀ (screenEndStep s p r) := by
  unfold screenEndStep
  try dsimp only
  split
  · assumption
  · split
    · refine Keeps.mk1 ?_ _ _ _ _ _ _ _ _ _ _ _ _ _ _ _ _ _ _ _ rfl rfl rfl rfl rfl rfl
      refine State.setPosState_keeps ?_ ..
      refine State.endScreen_keeps ?_ ..
      refine State.setReplay_keeps ?_ ..
      assumption
    · split
      · assumption
      · refine State.retireSpare_keeps ?_ ..
        refine State.endScreen_keeps ?_ ..
        refine State.setReplay_keeps ?_ ..
        assumption
    · split
      · assumption
      · refine State.retireSpare_keeps ?_ ..
        refine State.endScreen_keeps ?_ ..
        refine State.setReplay_keeps ?_ ..
        assumption
    · split
      · refine State.setPosState_keeps ?_ ..
        refine State.endScreen_keeps ?_ ..
        assumption
      · assumption

theorem State.requestScreen_keeps {s₀ s : State} (h : Keeps s₀ s) (p : Nat) :
    Keeps s₀ (State.requestScreen s p).2 := by
  unfold State.requestScreen
  try dsimp only
  split
  · split
    · refine Keeps.mk1 ?_ _ _ _ _ _ _ _ _ _ _ _ _ _ _ _ _ _ _ _ rfl rfl rfl rfl rfl rfl
      refine State.setVal_keeps ?_ ..
      assumption
    · refine State.setVal_keeps ?_ ..
      assumption
  · split
    · split
      · refine Keeps.mk1 ?_ _ _ _ _ _ _ _ _ _ _ _ _ _ _ _ _ _ _ _ rfl rfl rfl rfl rfl rfl
        refine State.setVal_keeps ?_ ..
        assumption
      · refine State.setVal_keeps ?_ ..
        assumption
    · split
      · split
        · refine Keeps.mk1 ?_ _ _ _ _ _ _ _ _ _ _ _ _ _ _ _ _ _ _ _ rfl rfl rfl rfl rfl rfl
          refine State.setVal_keeps ?_ ..
          assumption
        · refine State.setVal_keeps ?_ ..
          assumption
      · split
        · refine Keeps.mk1 ?_ _ _ _ _ _ _ _ _ _ _ _ _ _ _ _ _ _ _ _ rfl rfl rfl rfl rfl rfl
          refine State.setVal_keeps ?_ ..
          assumption
        · refine State.setVal_keeps ?_ ..
          assumption

theorem fieldWriteStep_keeps {s₀ s : State} (h : Keeps s₀ s) :
    Keeps s₀ (fieldWriteStep s) := by
  unfold fieldWriteStep
  try dsimp only
  split
  · assumption
  · refine Keeps.mk1 ?_ _ _ _ _ _ _ _ _ _ _ _ _ _ _ _ _ _ _ _ rfl rfl rfl rfl rfl rfl
    assumption

theorem signatureStoreStep_keeps {s₀ s : State} (h : Keeps s₀ s) :
    Keeps s₀ (signatureStoreStep s) := by
  unfold signatureStoreStep
  try dsimp only
  split
  · assumption
  · split
    · refine Keeps.mk1 ?_ _ _ _ _ _ _ _ _ _ _ _ _ _ _ _ _ _ _ _ rfl rfl rfl rfl rfl rfl
      refine State.raiseEvent_keeps ?_ ..
      refine Keeps.mk1 ?_ _ _ _ _ _ _ _ _ _ _ _ _ _ _ _ _ _ _ _ rfl rfl rfl rfl rfl rfl
      assumption
    · refine State.raiseEvent_keeps ?_ ..
      refine Keeps.mk1 ?_ _ _ _ _ _ _ _ _ _ _ _ _ _ _ _ _ _ _ _ rfl rfl rfl rfl rfl rfl
      assumption

theorem State.ackSignature_keeps {s₀ s : State} (h : Keeps s₀ s) (id : Nat) :
    Keeps s₀ (State.ackSignature s id) := by
  unfold State.ackSignature
  try dsimp only
  refine Keeps.mk1 ?_ _ _ _ _ _ _ _ _ _ _ _ _ _ _ _ _ _ _ _ rfl rfl rfl rfl rfl rfl
  assumption

end Sys2Proof.Machine
end

