-- ==== Sys2Proof/Laws/KeepsHost.lean ====
section
/-! SUPPORT. What the operations of the directory, the host port, the endpoints and the riffle checker keep. -/

namespace Sys2Proof.Machine

theorem State.report_keeps {s₀ s : State} (h : Keeps s₀ s) (v : Verdict) :
    Keeps s₀ (State.report s v) := by
  unfold State.report
  try dsimp only
  split
  · refine State.setVal_keeps ?_ ..
    assumption
  · assumption

theorem State.writeHeld_keeps {s₀ s : State} (h : Keeps s₀ s) (p : Nat) (off : Nat) (bytes : List Byte) :
    Keeps s₀ (State.writeHeld s p off bytes).2 := by
  unfold State.writeHeld
  try dsimp only
  split
  · assumption
  · split
    · dsimp only
      refine State.report_keeps ?_ ..
      assumption
    · split
      · dsimp only
        refine State.settleHeld_keeps ?_ ..
        refine Keeps.mk1 ?_ _ _ _ _ _ _ _ _ _ _ _ _ _ _ _ _ _ _ _ rfl rfl rfl rfl rfl rfl
        refine State.report_keeps ?_ ..
        assumption
      · dsimp only
        refine State.settleHeld_keeps ?_ ..
        refine Keeps.mk1 ?_ _ _ _ _ _ _ _ _ _ _ _ _ _ _ _ _ _ _ _ rfl rfl rfl rfl rfl rfl
        refine State.report_keeps ?_ ..
        assumption

theorem State.enableRing_keeps {s₀ s : State} (h : Keeps s₀ s) (v : Nat) (head : Nat) :
    Keeps s₀ (State.enableRing s v head).2 := by
  unfold State.enableRing
  try dsimp only
  split
  · dsimp only
    refine State.setVal_keeps ?_ ..
    assumption
  · split
    · dsimp only
      refine State.setVal_keeps ?_ ..
      assumption
    · dsimp only
      refine State.setVal_keeps ?_ ..
      refine Keeps.mk1 ?_ _ _ _ _ _ _ _ _ _ _ _ _ _ _ _ _ _ _ _ rfl rfl rfl rfl rfl rfl
      refine State.setVal_keeps ?_ ..
      assumption

theorem State.afterWrite_keeps {s₀ s : State} (h : Keeps s₀ s) (p : Nat) :
    Keeps s₀ (State.afterWrite s p) := by
  unfold State.afterWrite
  try dsimp only
  split
  · refine State.settleStaged_keeps ?_ ..
    refine State.settleHeld_keeps ?_ ..
    assumption
  · split
    · refine Keeps.mk1 ?_ _ _ _ _ _ _ _ _ _ _ _ _ _ _ _ _ _ _ _ rfl rfl rfl rfl rfl rfl
      assumption
    · assumption

theorem State.writeRw_keeps {s₀ s : State} (h : Keeps s₀ s) (p : Nat) (off : Nat) (head : Nat) (bytes : List Byte) :
    Keeps s₀ (State.writeRw s p off head bytes).2 := by
  unfold State.writeRw
  try dsimp only
  split
  · dsimp only
    refine State.report_keeps ?_ ..
    assumption
  · split
    · split
      · dsimp only
        refine State.report_keeps ?_ ..
        assumption
      · dsimp only
        refine State.putBytes_keeps ?_ ..
        refine State.report_keeps ?_ ..
        assumption
    · split
      · split
        · dsimp only
          refine State.stageEntry_keeps ?_ ..
          refine State.report_keeps ?_ ..
          assumption
        · dsimp only
          refine State.stageEntry_keeps ?_ ..
          refine State.report_keeps ?_ ..
          assumption
      · split
        · split
          · dsimp only
            refine State.enableRing_keeps ?_ ..
            refine State.report_keeps ?_ ..
            assumption
          · dsimp only
            refine State.enableRing_keeps ?_ ..
            refine State.report_keeps ?_ ..
            assumption
        · split
          · split
            · dsimp only
              refine State.rejectSnapshot_keeps ?_ ..
              refine State.report_keeps ?_ ..
              assumption
            · dsimp only
              split
              · refine State.armTime_keeps ?_ ..
                refine State.report_keeps ?_ ..
                assumption
              · refine State.armStep_keeps ?_ ..
                refine State.report_keeps ?_ ..
                assumption
          · split
            · dsimp only
              split
              · refine State.setVal_keeps ?_ ..
                refine State.report_keeps ?_ ..
                assumption
              · refine State.report_keeps ?_ ..
                assumption
            · split
              · dsimp only
                split
                · refine State.rearmLatch_keeps ?_ ..
                  refine State.report_keeps ?_ ..
                  assumption
                · refine State.report_keeps ?_ ..
                  assumption
              · dsimp only
                refine State.afterWrite_keeps ?_ ..
                refine State.putBytes_keeps ?_ ..
                refine State.report_keeps ?_ ..
                assumption

theorem State.writeWo_keeps {s₀ s : State} (h : Keeps s₀ s) (p off : Nat) (bs : List Byte) :
    Keeps s₀ (s.writeWo p off bs).2 := by
  unfold State.writeWo
  dsimp only
  refine Keeps.ite_snd (fun _ => ?_) fun _ => Keeps.ite_snd (fun _ => ?_) fun _ => Keeps.ite_snd (fun _ => ?_) fun _ =>
    Keeps.ite_snd (fun _ => ?_) fun _ => Keeps.ite_snd (fun _ => ?_) fun _ => Keeps.ite_snd (fun _ => ?_) fun _ =>
    Keeps.ite_snd (fun _ => ?_) fun _ => Keeps.ite_snd (fun _ => ?_) fun _ => Keeps.ite_snd (fun _ => ?_) fun _ =>
    Keeps.ite_snd (fun _ => ?_) fun _ => Keeps.ite_snd (fun _ => ?_) fun _ => h
  · dsimp only
    split
    · refine Keeps.mk1 ?_ _ _ _ _ _ _ _ _ _ _ _ _ _ _ _ _ _ _ _ rfl rfl rfl rfl rfl rfl
      assumption
    · assumption
  · dsimp only
    refine State.retireGranule_keeps ?_ ..
    assumption
  · dsimp only
    refine State.condition_keeps ?_ ..
    assumption
  · dsimp only
    split
    · refine Keeps.mk1 ?_ _ _ _ _ _ _ _ _ _ _ _ _ _ _ _ _ _ _ _ rfl rfl rfl rfl rfl rfl
      assumption
    · assumption
  · dsimp only
    split
    · refine Keeps.mk1 ?_ _ _ _ _ _ _ _ _ _ _ _ _ _ _ _ _ _ _ _ rfl rfl rfl rfl rfl rfl
      assumption
    · assumption
  · split
    · dsimp only
      assumption
    · split
      · dsimp only
        refine State.beginRestore_keeps ?_ ..
        assumption
      · dsimp only
        refine State.beginRestore_keeps ?_ ..
        assumption
  · dsimp only
    refine State.ackSignature_keeps ?_ ..
    assumption
  · split
    · dsimp only
      assumption
    · dsimp only
      refine Keeps.foldl (fun t x ht => ?_) ?_ _
      · refine State.stage_keeps ?_ ..
        assumption
      · assumption
  · dsimp only
    refine State.fwCommand_keeps ?_ ..
    assumption
  · dsimp only
    refine State.requestScreen_keeps ?_ ..
    assumption
  · split
    · dsimp only
      assumption
    · dsimp only
      refine State.startHandshake_keeps ?_ ..
      assumption

theorem State.writeParam_keeps {s₀ s : State} (h : Keeps s₀ s) (who : Requester) (p : Nat) (off : Nat) (head : Nat) (bytes : List Byte) :
    Keeps s₀ (State.writeParam s who p off head bytes).2 := by
  unfold State.writeParam
  try dsimp only
  split
  · assumption
  · split
    · assumption
    · split
      · assumption
      · split
        · assumption
        · assumption
        · split
          · assumption
          · split
            · assumption
            · split
              · assumption
              · split
                · assumption
                · split
                  · refine State.writeHeld_keeps ?_ ..
                    assumption
                  · dsimp only
                    refine State.writeWo_keeps ?_ ..
                    assumption
                  · refine State.writeRw_keeps ?_ ..
                    assumption

theorem State.vendorRecord_keeps {s₀ s : State} (h : Keeps s₀ s) (who : Requester) (op : Nat) (p : Nat) :
    Keeps s₀ (State.vendorRecord s who op p).2 := by
  unfold State.vendorRecord
  try dsimp only
  split
  · assumption
  · dsimp only
    refine State.draw_keeps ?_ ..
    assumption

theorem State.record_keeps {s₀ s : State} (h : Keeps s₀ s) (who : Requester) (head : Nat) (r : DirRecord) :
    Keeps s₀ (State.record s who head r).2 := by
  unfold State.record
  try dsimp only
  split
  · assumption
  · split
    · refine State.writeParam_keeps ?_ ..
      assumption
    · split
      · refine State.vendorRecord_keeps ?_ ..
        assumption
      · split
        · assumption
        · split
          · assumption
          · assumption

theorem State.countRecord_keeps {s₀ s : State} (h : Keeps s₀ s) (who : Requester) (a : Answer) :
    Keeps s₀ (State.countRecord s who a) := by
  unfold State.countRecord
  try dsimp only
  split
  · refine State.bump64_keeps ?_ ..
    assumption
  · refine State.bump64_keeps ?_ ..
    refine State.bump64_keeps ?_ ..
    assumption

theorem State.recordHead_keeps {s₀ s : State} (h : Keeps s₀ s) (head : Option Nat) (r : DirRecord) :
    Keeps s₀ (State.recordHead s head r).2 := by
  unfold State.recordHead
  try dsimp only
  split
  · assumption
  · split
    · dsimp only
      refine State.draw_keeps ?_ ..
      assumption
    · assumption

theorem State.runRecords_keeps {s₀ s : State} (h : Keeps s₀ s) (who : Requester) (head : Option Nat) (stop : Bool)
    (rs : List DirRecord) (skip : Bool) (room : Nat) : Keeps s₀ (State.runRecords who head stop rs skip room s).2 := by
  induction rs generalizing s skip room with
  | nil => exact h
  | cons r rs ih =>
    refine ih (State.countRecord_keeps ?_ ..) _ _
    cases skip with
    | true => exact h
    | false => exact State.record_keeps (State.recordHead_keeps h _ _) ..

theorem State.message_keeps {s₀ s : State} (h : Keeps s₀ s) (who : Requester) (head : Option Nat) (limit : Nat) (msg : List Byte) :
    Keeps s₀ (State.message s who head limit msg).2 := by
  unfold State.message
  try dsimp only
  split
  · assumption
  · dsimp only
    refine State.runRecords_keeps ?_ ..
    assumption

theorem State.keepAnswer_keeps {s₀ s : State} (h : Keeps s₀ s) (who : Requester) (msg : List Byte) (out : List Byte) :
    Keeps s₀ (State.keepAnswer s who msg out) := by
  unfold State.keepAnswer
  try dsimp only
  refine Keeps.mk1 ?_ _ _ _ _ _ _ _ _ _ _ _ _ _ _ _ _ _ _ _ rfl rfl rfl rfl rfl rfl
  assumption

theorem State.receiveMessage_keeps {s₀ s : State} (h : Keeps s₀ s) (who : Requester) (head : Option Nat) (msg : List Byte) :
    Keeps s₀ (State.receiveMessage s who head msg).2 := by
  unfold State.receiveMessage
  try dsimp only
  split
  · assumption
  · split
    · dsimp only
      refine State.bump64_keeps ?_ ..
      assumption
    · split
      · dsimp only
        refine State.message_keeps ?_ ..
        assumption
      · split
        · assumption
        · dsimp only
          refine State.keepAnswer_keeps ?_ ..
          refine State.message_keeps ?_ ..
          assumption

theorem State.signal_keeps {s₀ s : State} (h : Keeps s₀ s) (i3c : Bool) :
    Keeps s₀ (State.signal s i3c) := by
  unfold State.signal
  try dsimp only
  split
  · refine State.emit_keeps ?_ ..
    assumption
  · assumption

theorem State.respond_keeps {s₀ s : State} (h : Keeps s₀ s) (who : Requester) (ic : Bool) (out : List Byte) :
    Keeps s₀ (State.respond s who ic out) := by
  unfold State.respond
  try dsimp only
  refine State.emit_keeps ?_ ..
  refine State.signal_keeps ?_ ..
  assumption

theorem State.answerMessage_keeps {s₀ s : State} (h : Keeps s₀ s) (who : Requester) (ic : Bool) (head : Option Nat) (msg : List Byte) :
    Keeps s₀ (State.answerMessage s who ic head msg) := by
  unfold State.answerMessage
  try dsimp only
  split
  · refine State.respond_keeps ?_ ..
    refine Keeps.of_pair ‹_› ?_
    refine State.receiveMessage_keeps ?_ ..
    assumption
  · refine Keeps.of_pair ‹_› ?_
    refine State.receiveMessage_keeps ?_ ..
    assumption

theorem directoryMessageStep_keeps {s₀ s : State} (h : Keeps s₀ s) (who : Requester) (ic : Bool) (msg : List Byte) :
    Keeps s₀ (directoryMessageStep s who ic msg) := by
  unfold directoryMessageStep
  try dsimp only
  split
  · refine State.answerMessage_keeps ?_ ..
    assumption
  · split
    · assumption
    · refine State.answerMessage_keeps ?_ ..
      assumption

theorem State.single_keeps {s₀ s : State} (h : Keeps s₀ s) (who : Requester) (head : Option Nat) (r : DirRecord) :
    Keeps s₀ (State.single s who head r) := by
  unfold State.single
  try dsimp only
  refine State.answerMessage_keeps ?_ ..
  assumption

theorem State.writeOf_keeps {s₀ s : State} (h : Keeps s₀ s) (who : Requester) (p : Nat) (n : Nat) (v : Nat) :
    Keeps s₀ (State.writeOf s who p n v) := by
  unfold State.writeOf
  try dsimp only
  refine State.single_keeps ?_ ..
  assumption

theorem State.writeAt_keeps {s₀ s : State} (h : Keeps s₀ s) (who : Requester) (p : Nat) (off : Nat) (data : List Byte) :
    Keeps s₀ (State.writeAt s who p off data) := by
  unfold State.writeAt
  try dsimp only
  refine State.single_keeps ?_ ..
  assumption

theorem State.setFn_keeps {s₀ s : State} (h : Keeps s₀ s) (fn : Nat) (f : HostFn) :
    Keeps s₀ (State.setFn s fn f) := by
  unfold State.setFn
  try dsimp only
  refine Keeps.mk1 ?_ _ _ _ _ _ _ _ _ _ _ _ _ _ _ _ _ _ _ _ rfl rfl rfl rfl rfl rfl
  assumption

theorem State.setQueue_keeps {s₀ s : State} (h : Keeps s₀ s) (fn : Nat) (q : Nat) (x : HostQueue) :
    Keeps s₀ (State.setQueue s fn q x) := by
  unfold State.setQueue
  try dsimp only
  refine State.setFn_keeps ?_ ..
  assumption

theorem queueEnableStep_keeps {s₀ s : State} (h : Keeps s₀ s) (fn : Nat) (q : Nat) (sqTail : Nat) (cqHead : Nat) (x : HostQueue) :
    Keeps s₀ (queueEnableStep s fn q sqTail cqHead x) := by
  unfold queueEnableStep
  try dsimp only
  split
  · assumption
  · refine State.setQueue_keeps ?_ ..
    assumption

theorem State.sendMsix_keeps {s₀ s : State} (h : Keeps s₀ s) (fn : Nat) (v : Nat) :
    Keeps s₀ (State.sendMsix s fn v) := by
  unfold State.sendMsix
  try dsimp only
  split
  · refine State.emit_keeps ?_ ..
    assumption
  · split
    · assumption
    · refine State.setFn_keeps ?_ ..
      assumption

theorem State.configure_keeps {s₀ s : State} (h : Keeps s₀ s) (fn : Nat) (cfg : FnConfig) :
    Keeps s₀ (State.configure s fn cfg) := by
  unfold State.configure
  try dsimp only
  refine Keeps.foldl (fun t x ht => ?_) ?_ _
  · refine State.sendMsix_keeps ?_ ..
    assumption
  · refine State.setFn_keeps ?_ ..
    assumption

theorem queueRereadStep_keeps {s₀ s : State} (h : Keeps s₀ s) (fn : Nat) (q : Nat) (sqTail : Nat) (cqHead : Nat) (cfg : FnConfig) :
    Keeps s₀ (queueRereadStep s fn q sqTail cqHead cfg) := by
  unfold queueRereadStep
  try dsimp only
  split
  · assumption
  · split
    · refine State.setQueue_keeps ?_ ..
      refine State.configure_keeps ?_ ..
      assumption
    · split
      · refine State.configure_keeps ?_ ..
        assumption
      · split
        · refine State.setQueue_keeps ?_ ..
          refine State.configure_keeps ?_ ..
          assumption
        · refine State.raiseEvent_keeps ?_ ..
          refine State.bump32_keeps ?_ ..
          refine State.setQueue_keeps ?_ ..
          refine State.configure_keeps ?_ ..
          assumption

theorem commandFetchStep_keeps {s₀ s : State} (h : Keeps s₀ s) (fn : Nat) (q : Nat) (bytes : Option (List Byte)) :
    Keeps s₀ (commandFetchStep s fn q bytes) := by
  unfold commandFetchStep
  try dsimp only
  split
  · assumption
  · split
    · refine State.setQueue_keeps ?_ ..
      refine State.bump64_keeps ?_ ..
      refine State.draw_keeps ?_ ..
      assumption
    · split
      · assumption
      · refine State.setQueue_keeps ?_ ..
        assumption

theorem State.commandDone_keeps {s₀ s : State} (h : Keeps s₀ s) (fn : Nat) (q : Nat) (c : HostCmd) (status : Nat) (result : Nat) (dat : List Byte) :
    Keeps s₀ (State.commandDone s fn q c status result dat) := by
  unfold State.commandDone
  try dsimp only
  split
  · refine State.setQueue_keeps ?_ ..
    assumption
  · refine State.emit_keeps ?_ ..
    refine State.setQueue_keeps ?_ ..
    assumption

theorem State.endReserved_keeps {s₀ s : State} (h : Keeps s₀ s) (fn : Nat) (q : Nat) (n : Nat) :
    Keeps s₀ (State.endReserved s fn q n) := by
  unfold State.endReserved
  try dsimp only
  split
  · assumption
  · split
    · assumption
    · refine State.commandDone_keeps ?_ ..
      assumption

theorem completionStep_keeps {s₀ s : State} (h : Keeps s₀ s) (fn : Nat) (q : Nat) (n : Nat) (cfg : FnConfig) :
    Keeps s₀ (completionStep s fn q n cfg) := by
  unfold completionStep
  try dsimp only
  split
  · assumption
  · split
    · refine State.endReserved_keeps ?_ ..
      refine State.configure_keeps ?_ ..
      assumption
    · split
      · refine State.endReserved_keeps ?_ ..
        refine State.configure_keeps ?_ ..
        assumption
      · split
        · refine State.endReserved_keeps ?_ ..
          refine State.configure_keeps ?_ ..
          assumption
        · split
          · refine State.sendMsix_keeps ?_ ..
            refine State.bump64_keeps ?_ ..
            refine State.setQueue_keeps ?_ ..
            refine State.emit_keeps ?_ ..
            refine State.endReserved_keeps ?_ ..
            refine State.configure_keeps ?_ ..
            assumption
          · refine State.bump64_keeps ?_ ..
            refine State.setQueue_keeps ?_ ..
            refine State.emit_keeps ?_ ..
            refine State.endReserved_keeps ?_ ..
            refine State.configure_keeps ?_ ..
            assumption

theorem State.dropWrites_keeps {s₀ s : State} (h : Keeps s₀ s) (fn : Nat) (q : Nat) :
    Keeps s₀ (State.dropWrites s fn q) := by
  unfold State.dropWrites
  try dsimp only
  split
  · assumption
  · refine State.bump64_keeps ?_ ..
    refine State.draw_keeps ?_ ..
    assumption

theorem State.stopQueue_keeps {s₀ s : State} (h : Keeps s₀ s) (fn : Nat) (q : Nat) :
    Keeps s₀ (State.stopQueue s fn q) := by
  unfold State.stopQueue
  try dsimp only
  refine State.setQueue_keeps ?_ ..
  refine State.dropWrites_keeps ?_ ..
  assumption

theorem queueDisableStep_keeps {s₀ s : State} (h : Keeps s₀ s) (fn : Nat) (q : Nat) :
    Keeps s₀ (queueDisableStep s fn q) := by
  unfold queueDisableStep
  try dsimp only
  split
  · refine State.stopQueue_keeps ?_ ..
    assumption
  · assumption

theorem State.runFunction_keeps {s₀ s : State} (h : Keeps s₀ s) (fn : Nat) (observed : Bool) :
    Keeps s₀ (State.runFunction s fn observed) := by
  unfold State.runFunction
  try dsimp only
  split
  · refine State.setFn_keeps ?_ ..
    refine State.emit_keeps ?_ ..
    assumption
  · refine State.setFn_keeps ?_ ..
    refine State.emit_keeps ?_ ..
    assumption

theorem State.enableFunction_keeps {s₀ s : State} (h : Keeps s₀ s) (fn : Nat) (epochLine : Nat) (observed : Bool) :
    Keeps s₀ (State.enableFunction s fn epochLine observed) := by
  unfold State.enableFunction
  try dsimp only
  split
  · refine State.setFn_keeps ?_ ..
    assumption
  · split
    · refine State.runFunction_keeps ?_ ..
      refine State.setFn_keeps ?_ ..
      refine State.setVal_keeps ?_ ..
      assumption
    · refine State.setFn_keeps ?_ ..
      refine State.setVal_keeps ?_ ..
      assumption

theorem functionEnableStep_keeps {s₀ s : State} (h : Keeps s₀ s) (fn : Nat) (epochLine : Nat) (observed : Bool) (cfg : FnConfig) :
    Keeps s₀ (functionEnableStep s fn epochLine observed cfg) := by
  unfold functionEnableStep
  try dsimp only
  split
  · assumption
  · refine State.enableFunction_keeps ?_ ..
    refine State.configure_keeps ?_ ..
    assumption

theorem State.disableFunction_keeps {s₀ s : State} (h : Keeps s₀ s) (fn : Nat) :
    Keeps s₀ (State.disableFunction s fn) := by
  unfold State.disableFunction
  try dsimp only
  split
  · refine State.bump32_keeps ?_ ..
    refine State.setFn_keeps ?_ ..
    refine Keeps.foldl (fun t x ht => ?_) ?_ _
    · refine State.dropWrites_keeps ?_ ..
      assumption
    · assumption
  · refine State.setFn_keeps ?_ ..
    refine Keeps.foldl (fun t x ht => ?_) ?_ _
    · refine State.dropWrites_keeps ?_ ..
      assumption
    · assumption

theorem functionDisableStep_keeps {s₀ s : State} (h : Keeps s₀ s) (fn : Nat) (c : DisableCause) :
    Keeps s₀ (functionDisableStep s fn c) := by
  unfold functionDisableStep
  try dsimp only
  split
  · refine State.setFn_keeps ?_ ..
    refine State.disableFunction_keeps ?_ ..
    assumption
  · refine State.setVal_keeps ?_ ..
    refine Keeps.foldl (fun t x ht => ?_) ?_ _
    · refine State.disableFunction_keeps ?_ ..
      assumption
    · assumption
  · refine State.disableFunction_keeps ?_ ..
    assumption

theorem quiesceStep_keeps {s₀ s : State} (h : Keeps s₀ s) (fn : Nat) :
    Keeps s₀ (quiesceStep s fn) := by
  unfold quiesceStep
  try dsimp only
  split
  · assumption
  · split
    · refine State.enableFunction_keeps ?_ ..
      refine State.setFn_keeps ?_ ..
      assumption
    · refine State.setFn_keeps ?_ ..
      assumption

theorem State.linkDown_keeps {s₀ s : State} (h : Keeps s₀ s) :
    Keeps s₀ (State.linkDown s) := by
  unfold State.linkDown
  try dsimp only
  refine State.setVal_keeps ?_ ..
  refine State.setVal_keeps ?_ ..
  refine State.setVal_keeps ?_ ..
  refine Keeps.mk1 ?_ _ _ _ _ _ _ _ _ _ _ _ _ _ _ _ _ _ _ _ rfl rfl rfl rfl rfl rfl
  refine State.bump32_keeps ?_ ..
  refine State.setVal_keeps ?_ ..
  refine Keeps.foldl (fun t x ht => ?_) ?_ _
  · refine Keeps.foldl (fun t x ht => ?_) ?_ _
    · refine State.dropWrites_keeps ?_ ..
      assumption
    · assumption
  · assumption

theorem State.loseHostLink_keeps {s₀ s : State} (h : Keeps s₀ s) :
    Keeps s₀ (State.loseHostLink s) := by
  unfold State.loseHostLink
  try dsimp only
  split
  · refine State.linkDown_keeps ?_ ..
    assumption
  · refine State.setVal_keeps ?_ ..
    assumption

theorem hostLinkDownStep_keeps {s₀ s : State} (h : Keeps s₀ s) (c : LinkDownCause) :
    Keeps s₀ (hostLinkDownStep s c) := by
  unfold hostLinkDownStep
  try dsimp only
  split
  · split
    · refine State.linkDown_keeps ?_ ..
      refine Keeps.mk1 ?_ _ _ _ _ _ _ _ _ _ _ _ _ _ _ _ _ _ _ _ rfl rfl rfl rfl rfl rfl
      assumption
    · refine Keeps.mk1 ?_ _ _ _ _ _ _ _ _ _ _ _ _ _ _ _ _ _ _ _ rfl rfl rfl rfl rfl rfl
      assumption
  · split
    · refine State.linkDown_keeps ?_ ..
      assumption
    · assumption

theorem hostLinkUpStep_keeps {s₀ s : State} (h : Keeps s₀ s) (rate : Nat) (width : Nat) :
    Keeps s₀ (hostLinkUpStep s rate width) := by
  unfold hostLinkUpStep
  try dsimp only
  split
  · assumption
  · refine State.setVal_keeps ?_ ..
    assumption

theorem perstAssertStep_keeps {s₀ s : State} (h : Keeps s₀ s) :
    Keeps s₀ (perstAssertStep s) := by
  unfold perstAssertStep
  try dsimp only
  refine State.loseHostLink_keeps ?_ ..
  refine Keeps.mk1 ?_ _ _ _ _ _ _ _ _ _ _ _ _ _ _ _ _ _ _ _ rfl rfl rfl rfl rfl rfl
  assumption

theorem perstDeassertStep_keeps {s₀ s : State} (h : Keeps s₀ s) :
    Keeps s₀ (perstDeassertStep s) := by
  unfold perstDeassertStep
  try dsimp only
  split
  · assumption
  · split
    · refine State.setVal_keeps ?_ ..
      refine Keeps.mk1 ?_ _ _ _ _ _ _ _ _ _ _ _ _ _ _ _ _ _ _ _ rfl rfl rfl rfl rfl rfl
      assumption
    · refine Keeps.mk1 ?_ _ _ _ _ _ _ _ _ _ _ _ _ _ _ _ _ _ _ _ rfl rfl rfl rfl rfl rfl
      assumption

theorem retryEndStep_keeps {s₀ s : State} (h : Keeps s₀ s) :
    Keeps s₀ (retryEndStep s) := by
  unfold retryEndStep
  try dsimp only
  refine Keeps.mk1 ?_ _ _ _ _ _ _ _ _ _ _ _ _ _ _ _ _ _ _ _ rfl rfl rfl rfl rfl rfl
  assumption

theorem enterMemoryStep_keeps {s₀ s : State} (h : Keeps s₀ s) :
    Keeps s₀ (enterMemoryStep s) := by
  unfold enterMemoryStep
  try dsimp only
  split
  · assumption
  · refine Keeps.foldl (fun t x ht => ?_) ?_ _
    · split
      · refine State.runFunction_keeps ?_ ..
        assumption
      · assumption
    · refine State.trainPorts_keeps ?_ ..
      refine State.enterBoot_keeps ?_ ..
      assumption

theorem refLossStep_keeps {s₀ s : State} (h : Keeps s₀ s) :
    Keeps s₀ (refLossStep s) := by
  unfold refLossStep
  try dsimp only
  split
  · assumption
  · split
    · refine Keeps.mk1 ?_ _ _ _ _ _ _ _ _ _ _ _ _ _ _ _ _ _ _ _ rfl rfl rfl rfl rfl rfl
      assumption
    · refine State.loseHostLink_keeps ?_ ..
      refine Keeps.foldl (fun t x ht => ?_) ?_ _
      · split
        · refine State.setReg_keeps ?_ ..
          refine State.bump32_keeps ?_ ..
          assumption
        · split
          · refine State.setReg_keeps ?_ ..
            assumption
          · assumption
      · split
        · refine State.setTimeState_keeps ?_ ..
          refine State.raiseEvent_keeps ?_ ..
          refine State.bump32_keeps ?_ ..
          refine State.setVal_keeps ?_ ..
          refine Keeps.mk1 ?_ _ _ _ _ _ _ _ _ _ _ _ _ _ _ _ _ _ _ _ rfl rfl rfl rfl rfl rfl
          assumption
        · refine State.raiseEvent_keeps ?_ ..
          refine State.bump32_keeps ?_ ..
          refine State.setVal_keeps ?_ ..
          refine Keeps.mk1 ?_ _ _ _ _ _ _ _ _ _ _ _ _ _ _ _ _ _ _ _ rfl rfl rfl rfl rfl rfl
          assumption

theorem refReturnStep_keeps {s₀ s : State} (h : Keeps s₀ s) :
    Keeps s₀ (refReturnStep s) := by
  unfold refReturnStep
  try dsimp only
  split
  · assumption
  · split
    · refine Keeps.mk1 ?_ _ _ _ _ _ _ _ _ _ _ _ _ _ _ _ _ _ _ _ rfl rfl rfl rfl rfl rfl
      assumption
    · split
      · split
        · refine State.setVal_keeps ?_ ..
          refine State.trainPorts_keeps ?_ ..
          refine State.setVal_keeps ?_ ..
          refine Keeps.mk1 ?_ _ _ _ _ _ _ _ _ _ _ _ _ _ _ _ _ _ _ _ rfl rfl rfl rfl rfl rfl
          assumption
        · refine State.trainPorts_keeps ?_ ..
          refine State.setVal_keeps ?_ ..
          refine Keeps.mk1 ?_ _ _ _ _ _ _ _ _ _ _ _ _ _ _ _ _ _ _ _ rfl rfl rfl rfl rfl rfl
          assumption
      · split
        · refine State.setVal_keeps ?_ ..
          refine State.setVal_keeps ?_ ..
          refine Keeps.mk1 ?_ _ _ _ _ _ _ _ _ _ _ _ _ _ _ _ _ _ _ _ rfl rfl rfl rfl rfl rfl
          assumption
        · refine State.setVal_keeps ?_ ..
          refine Keeps.mk1 ?_ _ _ _ _ _ _ _ _ _ _ _ _ _ _ _ _ _ _ _ rfl rfl rfl rfl rfl rfl
          assumption

theorem ringDeliverStep_keeps {s₀ s : State} (h : Keeps s₀ s) (head : Nat) :
    Keeps s₀ (ringDeliverStep s head) := by
  unfold ringDeliverStep
  try dsimp only
  split
  · assumption
  · split
    · refine Keeps.mk1 ?_ _ _ _ _ _ _ _ _ _ _ _ _ _ _ _ _ _ _ _ rfl rfl rfl rfl rfl rfl
      assumption
    · split
      · refine Keeps.mk1 ?_ _ _ _ _ _ _ _ _ _ _ _ _ _ _ _ _ _ _ _ rfl rfl rfl rfl rfl rfl
        assumption
      · split
        · split
          · refine Keeps.mk1 ?_ _ _ _ _ _ _ _ _ _ _ _ _ _ _ _ _ _ _ _ rfl rfl rfl rfl rfl rfl
            refine State.emit_keeps ?_ ..
            refine Keeps.mk1 ?_ _ _ _ _ _ _ _ _ _ _ _ _ _ _ _ _ _ _ _ rfl rfl rfl rfl rfl rfl
            assumption
          · refine State.sendMsix_keeps ?_ ..
            refine Keeps.mk1 ?_ _ _ _ _ _ _ _ _ _ _ _ _ _ _ _ _ _ _ _ rfl rfl rfl rfl rfl rfl
            refine State.emit_keeps ?_ ..
            refine Keeps.mk1 ?_ _ _ _ _ _ _ _ _ _ _ _ _ _ _ _ _ _ _ _ rfl rfl rfl rfl rfl rfl
            assumption
        · split
          · refine Keeps.mk1 ?_ _ _ _ _ _ _ _ _ _ _ _ _ _ _ _ _ _ _ _ rfl rfl rfl rfl rfl rfl
            refine State.emit_keeps ?_ ..
            refine Keeps.mk1 ?_ _ _ _ _ _ _ _ _ _ _ _ _ _ _ _ _ _ _ _ rfl rfl rfl rfl rfl rfl
            assumption
          · refine State.sendMsix_keeps ?_ ..
            refine Keeps.mk1 ?_ _ _ _ _ _ _ _ _ _ _ _ _ _ _ _ _ _ _ _ rfl rfl rfl rfl rfl rfl
            refine State.emit_keeps ?_ ..
            refine Keeps.mk1 ?_ _ _ _ _ _ _ _ _ _ _ _ _ _ _ _ _ _ _ _ rfl rfl rfl rfl rfl rfl
            assumption

theorem State.discard_keeps {s₀ s : State} (h : Keeps s₀ s) (c : Carrier) :
    Keeps s₀ (State.discard s c) := by
  unfold State.discard
  try dsimp only
  split
  · refine State.bump64_keeps ?_ ..
    assumption
  · assumption

theorem solicitationStep_keeps {s₀ s : State} (h : Keeps s₀ s) (c : Carrier) (src : Addr6) (target : Addr6) :
    Keeps s₀ (solicitationStep s c src target) := by
  unfold solicitationStep
  try dsimp only
  split
  · assumption
  · split
    · refine State.emit_keeps ?_ ..
      assumption
    · refine State.discard_keeps ?_ ..
      assumption

theorem echoStep_keeps {s₀ s : State} (h : Keeps s₀ s) (c : Carrier) (src : Addr6) (dest : Addr6) (body : List Byte) :
    Keeps s₀ (echoStep s c src dest body) := by
  unfold echoStep
  try dsimp only
  split
  · assumption
  · split
    · refine State.emit_keeps ?_ ..
      assumption
    · refine State.discard_keeps ?_ ..
      assumption

theorem mgmtLinkStep_keeps {s₀ s : State} (h : Keeps s₀ s) (up : Bool) :
    Keeps s₀ (mgmtLinkStep s up) := by
  unfold mgmtLinkStep
  try dsimp only
  split
  · refine State.setVal_keeps ?_ ..
    assumption
  · assumption

theorem State.mgmtDatagram_keeps {s₀ s : State} (h : Keeps s₀ s) (src : Nat) (srcPort : Nat) (dest : Nat) (destPort : Nat) (payload : List Byte) :
    Keeps s₀ (State.mgmtDatagram s src srcPort dest destPort payload) := by
  unfold State.mgmtDatagram
  try dsimp only
  refine State.emit_keeps ?_ ..
  assumption

theorem mgmtPortStep_keeps {s₀ s : State} (h : Keeps s₀ s) (src : Endpoint) (dest : Endpoint) (pkt : List Byte) :
    Keeps s₀ (mgmtPortStep s src dest pkt) := by
  unfold mgmtPortStep
  try dsimp only
  split
  · assumption
  · split
    · refine Keeps.of_pair ‹_› ?_
      refine State.receiveMessage_keeps ?_ ..
      assumption
    · refine State.mgmtDatagram_keeps ?_ ..
      refine Keeps.of_pair ‹_› ?_
      refine State.receiveMessage_keeps ?_ ..
      assumption

theorem mgmtDataStep_keeps {s₀ s : State} (h : Keeps s₀ s) (p : Port) (ce : Bool) (src : Endpoint) (dest : Endpoint) (pkt : List Byte) :
    Keeps s₀ (mgmtDataStep s p ce src dest pkt) := by
  unfold mgmtDataStep
  try dsimp only
  split
  · assumption
  · split
    · refine State.bump64_keeps ?_ ..
      assumption
    · split
      · refine Keeps.of_pair ‹_› ?_
        refine State.receive_keeps ?_ ..
        assumption
      · split
        · refine State.bump64_keeps ?_ ..
          refine Keeps.of_pair ‹_› ?_
          refine State.receive_keeps ?_ ..
          assumption
        · split
          · refine Keeps.of_pair ‹_› ?_
            refine State.receiveMessage_keeps ?_ ..
            refine Keeps.of_pair ‹_› ?_
            refine State.receive_keeps ?_ ..
            assumption
          · refine State.sendPacket_keeps ?_ ..
            refine Keeps.of_pair ‹_› ?_
            refine State.receiveMessage_keeps ?_ ..
            refine Keeps.of_pair ‹_› ?_
            refine State.receive_keeps ?_ ..
            assumption

theorem mgmtStep_keeps {s₀ s : State} (h : Keeps s₀ s) (c : Carrier) (ce : Bool) (src : Endpoint) (dest : Endpoint) (pkt : List Byte) :
    Keeps s₀ (mgmtStep s c ce src dest pkt) := by
  unfold mgmtStep
  try dsimp only
  split
  · refine mgmtPortStep_keeps ?_ ..
    assumption
  · refine mgmtDataStep_keeps ?_ ..
    assumption

theorem sinkSendStep_keeps {s₀ s : State} (h : Keeps s₀ s) :
    Keeps s₀ (sinkSendStep s) := by
  unfold sinkSendStep
  try dsimp only
  split
  · assumption
  · split
    · split
      · refine State.bump64_keeps ?_ ..
        refine Keeps.mk1 ?_ _ _ _ _ _ _ _ _ _ _ _ _ _ _ _ _ _ _ _ rfl rfl rfl rfl rfl rfl
        assumption
      · refine State.mgmtDatagram_keeps ?_ ..
        refine Keeps.mk1 ?_ _ _ _ _ _ _ _ _ _ _ _ _ _ _ _ _ _ _ _ rfl rfl rfl rfl rfl rfl
        assumption
    · split
      · refine State.bump64_keeps ?_ ..
        refine Keeps.mk1 ?_ _ _ _ _ _ _ _ _ _ _ _ _ _ _ _ _ _ _ _ rfl rfl rfl rfl rfl rfl
        assumption
      · refine State.mgmtDatagram_keeps ?_ ..
        refine Keeps.mk1 ?_ _ _ _ _ _ _ _ _ _ _ _ _ _ _ _ _ _ _ _ rfl rfl rfl rfl rfl rfl
        assumption

theorem State.control_keeps {s₀ s : State} (h : Keeps s₀ s) (pcie : Bool) (r : ControlReply) :
    Keeps s₀ (State.control s pcie r) := by
  unfold State.control
  try dsimp only
  split
  · refine State.emit_keeps ?_ ..
    refine State.signal_keeps ?_ ..
    assumption
  · assumption

theorem setEidStep_keeps {s₀ s : State} (h : Keeps s₀ s) (pcie : Bool) (eid : Nat) :
    Keeps s₀ (setEidStep s pcie eid) := by
  unfold setEidStep
  try dsimp only
  split
  · refine State.control_keeps ?_ ..
    refine State.setVal_keeps ?_ ..
    assumption
  · assumption

theorem State.takeAddress_keeps {s₀ s : State} (h : Keeps s₀ s) (a : Nat) :
    Keeps s₀ (State.takeAddress s a) := by
  unfold State.takeAddress
  try dsimp only
  split
  · refine State.emit_keeps ?_ ..
    refine Keeps.mk1 ?_ _ _ _ _ _ _ _ _ _ _ _ _ _ _ _ _ _ _ _ rfl rfl rfl rfl rfl rfl
    assumption
  · assumption

theorem setdasaStep_keeps {s₀ s : State} (h : Keeps s₀ s) (st : Nat) (dyn : Nat) :
    Keeps s₀ (setdasaStep s st dyn) := by
  unfold setdasaStep
  try dsimp only
  split
  · refine State.takeAddress_keeps ?_ ..
    assumption
  · assumption

theorem State.spdm_keeps {s₀ s : State} (h : Keeps s₀ s) (pcie : Bool) (r : SpdmReply) :
    Keeps s₀ (State.spdm s pcie r) := by
  unfold State.spdm
  try dsimp only
  split
  · refine State.emit_keeps ?_ ..
    refine State.signal_keeps ?_ ..
    assumption
  · assumption

theorem challengeStep_keeps {s₀ s : State} (h : Keeps s₀ s) (pcie : Bool) (slot : Nat) :
    Keeps s₀ (challengeStep s pcie slot) := by
  unfold challengeStep
  try dsimp only
  split
  · refine State.spdm_keeps ?_ ..
    assumption
  · split
    · refine State.spdm_keeps ?_ ..
      assumption
    · refine State.spdm_keeps ?_ ..
      refine State.draw_keeps ?_ ..
      assumption

theorem measurementsStep_keeps {s₀ s : State} (h : Keeps s₀ s) (pcie : Bool) (index : Nat) (signed : Bool) :
    Keeps s₀ (measurementsStep s pcie index signed) := by
  unfold measurementsStep
  try dsimp only
  split
  · refine State.spdm_keeps ?_ ..
    assumption
  · split
    · refine State.spdm_keeps ?_ ..
      assumption
    · split
      · refine State.spdm_keeps ?_ ..
        split
        · refine State.draw_keeps ?_ ..
          assumption
        · assumption
      · refine State.spdm_keeps ?_ ..
        split
        · refine State.draw_keeps ?_ ..
          assumption
        · assumption

theorem State.runCommand_keeps {s₀ s : State} (h : Keeps s₀ s) (fn q n op : Nat) (write : HostCmd → Bool)
    (f : HostCmd → State → Ran) (hf : ∀ c, RanKeeps s₀ (f c s)) : Keeps s₀ (s.runCommand fn q n op write f) := by
  unfold State.runCommand
  split
  · exact h
  · next c _ =>
    split_ifs
    · exact h
    · exact State.commandDone_keeps h ..
    · exact State.commandDone_keeps h ..
    · have hr := hf c
      split
      · exact h
      · next e => rw [e] at hr; exact State.setQueue_keeps hr ..
      · next e => rw [e] at hr; exact State.commandDone_keeps hr ..

theorem endWith_keeps {s₀ s : State} (h : Keeps s₀ s) (status : Nat) :
    RanKeeps s₀ (endWith s status) := by
  unfold endWith
  try dsimp only
  refine (?_ : Keeps _ _)
  assumption

theorem hostNopRun_keeps {s₀ s : State} (h : Keeps s₀ s) (a0 : HostCmd) :
    RanKeeps s₀ (hostNopRun a0 s) := by
  unfold hostNopRun
  try dsimp only
  refine endWith_keeps ?_ ..
  assumption

theorem paramRun_keeps {s₀ s : State} (h : Keeps s₀ s) (fn : FnIx) (q : Nat) (req : Option (List Byte)) (refused : Bool) (c : HostCmd) :
    RanKeeps s₀ (paramRun fn q req refused c s) := by
  unfold paramRun
  try dsimp only
  split
  · refine (?_ : Keeps _ _)
    refine State.bump64_keeps ?_ ..
    assumption
  · split
    · refine (?_ : Keeps _ _)
      refine State.bump64_keeps ?_ ..
      assumption
    · split
      · exact True.intro
      · split
        · refine endWith_keeps ?_ ..
          refine State.message_keeps ?_ ..
          assumption
        · split
          · refine endWith_keeps ?_ ..
            refine State.message_keeps ?_ ..
            assumption
          · refine (?_ : Keeps _ _)
            refine State.message_keeps ?_ ..
            assumption

theorem State.hostStore_keeps {s₀ s : State} (h : Keeps s₀ s) (id : Nat) (cls : Nat) (t : Tile) :
    Keeps s₀ (State.hostStore s id cls t).2 := by
  unfold State.hostStore
  try dsimp only
  split
  · dsimp only
    refine Keeps.of_pair ‹_› ?_
    refine State.storeTile_keeps ?_ ..
    assumption
  · dsimp only
    refine Keeps.of_pair ‹_› ?_
    refine State.storeTile_keeps ?_ ..
    assumption

theorem State.writeRawTile_keeps {s₀ s : State} (h : Keeps s₀ s) (verify : Bool) (cls : Nat) (id : Nat) (input : List Byte) :
    Keeps s₀ (State.writeRawTile s verify cls id input).2 := by
  unfold State.writeRawTile
  try dsimp only
  split
  · refine State.hostStore_keeps ?_ ..
    refine State.bump64_keeps ?_ ..
    assumption
  · refine State.hostStore_keeps ?_ ..
    assumption

theorem State.writeLostTile_keeps {s₀ s : State} (h : Keeps s₀ s) (fn : Nat) (id : Nat) (k : Nat) :
    Keeps s₀ (State.writeLostTile s fn id k) := by
  unfold State.writeLostTile
  try dsimp only
  refine State.storeTile_keeps ?_ ..
  refine State.bump64_keeps ?_ ..
  assumption

theorem State.tileSignal_keeps {s₀ s : State} (h : Keeps s₀ s) (c : HostCmd) :
    Keeps s₀ (State.tileSignal s c) := by
  unfold State.tileSignal
  try dsimp only
  split
  · assumption
  · refine State.applyRaise_keeps ?_ ..
    assumption

theorem State.writeUnits_keeps {s₀ s : State} (h : Keeps s₀ s) (fn : Nat) (f : State → Nat → Nat)
    (one : State → Nat → Nat → List Byte → Bool × State) (h1 : ∀ u i id bs, Keeps s₀ u → Keeps s₀ (one u i id bs).2)
    (todo : List (Nat × Nat)) (us : List (Option (List Byte))) : Keeps s₀ (s.writeUnits fn f one todo us).2 := by
  unfold State.writeUnits
  refine Keeps.foldl_pair (fun t x ht => ?_) ?_ _
  · obtain ⟨k, u⟩ := t
    obtain ⟨⟨i, id⟩, o⟩ := x
    cases o with
    | none => exact State.writeLostTile_keeps ht ..
    | some bs => exact h1 _ _ _ _ ht
  · exact h

theorem State.endTileWrite_keeps {s₀ s : State} (h : Keeps s₀ s) (c : HostCmd) :
    RanKeeps s₀ (State.endTileWrite s c) := by
  unfold State.endTileWrite
  try dsimp only
  refine (?_ : Keeps _ _)
  refine State.tileSignal_keeps ?_ ..
  assumption

theorem State.tileWriteNext_keeps {s₀ s : State} (h : Keeps s₀ s) (fn : Nat) (len : Nat → Nat) (f : State → Nat → Nat)
    (one : State → Nat → Nat → List Byte → Bool × State) (units : List (Option (List Byte))) (c : HostCmd)
    (h1 : ∀ u i id bs, Keeps s₀ u → Keeps s₀ (one u i id bs).2) :
    RanKeeps s₀ (s.tileWriteNext fn len f one units c) := by
  unfold State.tileWriteNext
  dsimp only
  have hw := fun todo => State.writeUnits_keeps h fn f one h1 todo units
  split
  · exact True.intro
  · split
    · exact State.startLoads_keeps h _
    · split
      · exact hw _
      · exact State.endTileWrite_keeps (hw _) _

theorem tileWriteRawRun_keeps {s₀ s : State} (h : Keeps s₀ s) (fn : Nat) (units : List (Option (List Byte))) (c : HostCmd) :
    RanKeeps s₀ (tileWriteRawRun fn units c s) := by
  have go := fun len f v (w : Nat → Nat) c' => State.tileWriteNext_keeps h fn len f (fun s i => s.writeRawTile v (w i)) units c'
    fun u i id bs hu => State.writeRawTile_keeps hu ..
  unfold tileWriteRawRun
  dsimp only
  split
  · exact True.intro
  · split
    · exact go _ _ _ _ _
    · split
      · exact h
      · split
        · exact h
        · exact go _ _ _ _ _

theorem tileWriteConvertRun_keeps {s₀ s : State} (h : Keeps s₀ s) (fn : Nat) (units : List (Option (List Byte))) (c : HostCmd) :
    RanKeeps s₀ (tileWriteConvertRun fn units c s) := by
  have go := fun len f src dst auto c' => State.tileWriteNext_keeps h fn len f
    (fun s _ id bs => s.hostStore id (fmtClass dst) (convertedTile src dst auto bs)) units c'
    fun u i id bs hu => State.hostStore_keeps hu ..
  unfold tileWriteConvertRun
  dsimp only
  split
  · exact True.intro
  · split
    · exact go _ _ _ _ _ _
    · split
      · exact h
      · split
        · exact h
        · exact go _ _ _ _ _ _

theorem State.readTileBytes_keeps {s₀ s : State} (h : Keeps s₀ s) (id : Nat) :
    Keeps s₀ (State.readTileBytes s id).2 := by
  unfold State.readTileBytes
  try dsimp only
  refine State.readRaw_keeps ?_ ..
  assumption

theorem tileReadRun_keeps {s₀ s : State} (h : Keeps s₀ s) (fn : Nat) (refused : Option Nat) (c : HostCmd) :
    RanKeeps s₀ (tileReadRun fn refused c s) := by
  unfold tileReadRun
  try dsimp only
  split
  · refine endWith_keeps ?_ ..
    assumption
  · split
    · refine endWith_keeps ?_ ..
      assumption
    · split
      · refine (?_ : Keeps _ _)
        refine State.startLoads_keeps ?_ ..
        assumption
      · refine (?_ : Keeps _ _)
        refine Keeps.foldl_pair (fun t x ht => ?_) ?_ _
        · dsimp only
          refine State.readTileBytes_keeps ?_ ..
          assumption
        · assumption

theorem tableLoadRun_keeps {s₀ s : State} (h : Keeps s₀ s) (fn : Nat) (image : Option (List Byte)) (c : HostCmd) :
    RanKeeps s₀ (tableLoadRun fn image c s) := by
  unfold tableLoadRun
  try dsimp only
  split
  · refine (?_ : Keeps _ _)
    refine State.bump64_keeps ?_ ..
    assumption
  · split
    · exact True.intro
    · split
      · refine (?_ : Keeps _ _)
        refine State.setVal_keeps ?_ ..
        assumption
      · split
        · exact True.intro
        · refine (?_ : Keeps _ _)
          refine State.loadSet_keeps ?_ ..
          assumption

theorem stepAbortRun_keeps {s₀ s : State} (h : Keeps s₀ s) (c : HostCmd) :
    RanKeeps s₀ (stepAbortRun c s) := by
  unfold stepAbortRun
  try dsimp only
  split
  · refine (?_ : Keeps _ _)
    refine State.abortOpen_keeps ?_ ..
    assumption
  · refine (?_ : Keeps _ _)
    assumption

theorem HostCmd.advance_keeps {s₀ s : State} (h : Keeps s₀ s) (c : HostCmd) (k : Nat) (n : Nat) :
    RanKeeps s₀ (HostCmd.advance c k n s) := by
  unfold HostCmd.advance
  try dsimp only
  split
  · refine (?_ : Keeps _ _)
    assumption
  · refine (?_ : Keeps _ _)
    assumption

theorem State.stageRecords_keeps {s₀ s : State} (h : Keeps s₀ s) (n k : Nat) (xs : List (Option (List Byte))) :
    Keeps s₀ (State.stageRecords n xs k s).2 := by
  induction xs generalizing s k with
  | nil => exact h
  | cons x xs ih =>
    cases x with
    | none => exact State.bump64_keeps h ..
    | some bs =>
      have h' := State.stageEntry_keeps h (leField bs 0 8) (leField bs 16 16)
      unfold State.stageRecords
      dsimp only
      split
      · exact h'
      · exact ih h' _

theorem tiermapWriteRun_keeps {s₀ s : State} (h : Keeps s₀ s) (fn : Nat) (records : List (Option (List Byte))) (c : HostCmd) :
    RanKeeps s₀ (tiermapWriteRun fn records c s) := by
  unfold tiermapWriteRun
  try dsimp only
  split
  · split
    · refine endWith_keeps ?_ ..
      assumption
    · split
      · exact True.intro
      · split
        · refine (?_ : Keeps _ _)
          refine Keeps.of_pair ‹_› ?_
          refine State.stageRecords_keeps ?_ ..
          assumption
        · refine HostCmd.advance_keeps ?_ ..
          refine Keeps.of_pair ‹_› ?_
          refine State.stageRecords_keeps ?_ ..
          assumption
  · split
    · refine endWith_keeps ?_ ..
      assumption
    · split
      · exact True.intro
      · split
        · refine (?_ : Keeps _ _)
          refine Keeps.of_pair ‹_› ?_
          refine State.stageRecords_keeps ?_ ..
          assumption
        · refine HostCmd.advance_keeps ?_ ..
          refine Keeps.of_pair ‹_› ?_
          refine State.stageRecords_keeps ?_ ..
          assumption

theorem tiermapReadRun_keeps {s₀ s : State} (h : Keeps s₀ s) (fn : Nat) (refused : Option Nat) (c : HostCmd) :
    RanKeeps s₀ (tiermapReadRun fn refused c s) := by
  unfold tiermapReadRun
  try dsimp only
  split
  · refine endWith_keeps ?_ ..
    assumption
  · refine (?_ : Keeps _ _)
    assumption

theorem State.writeRecords_keeps {s₀ s : State} (h : Keeps s₀ s) (fn bd first k : Nat) (xs : List (Option (List Byte))) :
    Keeps s₀ (State.writeRecords fn bd first xs k s).2 := by
  induction xs generalizing s k with
  | nil => exact h
  | cons x xs ih =>
    cases x with
    | none => exact State.bump64_keeps h ..
    | some bs => exact ih (State.putMoments_keeps h ..) _

theorem stateWriteRun_keeps {s₀ s : State} (h : Keeps s₀ s) (fn : Nat) (records : List (Option (List Byte))) (c : HostCmd) :
    RanKeeps s₀ (stateWriteRun fn records c s) := by
  unfold stateWriteRun
  try dsimp only
  split
  · refine endWith_keeps ?_ ..
    assumption
  · split
    · exact True.intro
    · split
      · refine (?_ : Keeps _ _)
        refine Keeps.of_pair ‹_› ?_
        refine State.writeRecords_keeps ?_ ..
        assumption
      · refine HostCmd.advance_keeps ?_ ..
        refine Keeps.of_pair ‹_› ?_
        refine State.writeRecords_keeps ?_ ..
        assumption

theorem stateReadRun_keeps {s₀ s : State} (h : Keeps s₀ s) (fn : Nat) (refused : Option Nat) (c : HostCmd) :
    RanKeeps s₀ (stateReadRun fn refused c s) := by
  unfold stateReadRun
  try dsimp only
  split
  · refine endWith_keeps ?_ ..
    assumption
  · refine (?_ : Keeps _ _)
    assumption

theorem moduleResetStep_keeps {s₀ s : State} (h : Keeps s₀ s) (fn : Nat) (q : Nat) (n : Nat) :
    Keeps s₀ (moduleResetStep s fn q n) := by
  unfold moduleResetStep
  try dsimp only
  split
  · assumption
  · split
    · assumption
    · split
      · refine State.commandDone_keeps ?_ ..
        assumption
      · split
        · refine State.commandDone_keeps ?_ ..
          assumption
        · split
          · refine State.commandDone_keeps ?_ ..
            assumption
          · refine State.orderlyReset_keeps ?_ ..
            assumption

theorem unitAct_keeps {s₀ s : State} (h : Keeps s₀ s) (e : Nat) (c : Ctx) : Keeps s₀ (unitAct e s c).state := by
  have key : ∀ f, unitAct e = f → Keeps s₀ (f s c).state := by
    intro f hf
    unfold unitAct at hf
    split at hf <;> subst hf
    · exact vecTileAct_keeps h ..
    · exact vecTileAct_keeps h ..
    · exact vecTileAct_keeps h ..
    · exact vtransAct_keeps h ..
    · exact vldAct_keeps h ..
    · exact vstAct_keeps h ..
    · exact redAct_keeps h ..
    · exact moveAct_keeps h ..
    · exact gatherAct_keeps h ..
    · exact scatterAct_keeps h ..
    · exact nsendAct_keeps h ..
    · exact plainAct_keeps h ..
  exact key _ rfl

theorem State.startFlight_keeps {s₀ s : State} (h : Keeps s₀ s) (sl : Nat) (f : Flight) :
    Keeps s₀ (State.startFlight s sl f) := by
  unfold State.startFlight
  try dsimp only
  split
  · split
    · assumption
    · refine State.setArray_keeps ?_ ..
      refine State.fillMma_keeps ?_ ..
      assumption
  · split
    · split
      · assumption
      · refine State.feedColl_keeps ?_ ..
        refine State.setColl_keeps ?_ ..
        refine State.collSources_keeps ?_ ..
        assumption
    · refine State.setDie_keeps ?_ ..
      refine unitAct_keeps ?_ ..
      assumption

theorem State.flightsLoaded_keeps {s₀ s : State} (h : Keeps s₀ s) (p : Nat) (sl : Nat) :
    Keeps s₀ (State.flightsLoaded s p sl) := by
  unfold State.flightsLoaded
  try dsimp only
  refine Keeps.foldl (fun t x ht => ?_) ?_ _
  · split
    · refine State.startFlight_keeps ?_ ..
      assumption
    · assumption
  · refine State.setDie_keeps ?_ ..
    assumption

theorem State.pageLoaded_keeps {s₀ s : State} (h : Keeps s₀ s) (p : Nat) :
    Keeps s₀ (State.pageLoaded s p) := by
  unfold State.pageLoaded
  try dsimp only
  refine Keeps.foldl (fun t x ht => ?_) ?_ _
  · refine State.flightsLoaded_keeps ?_ ..
    assumption
  · refine State.releaseWrites_keeps ?_ ..
    assumption

theorem demandLoadStep_keeps {s₀ s : State} (h : Keeps s₀ s) (p : Nat) :
    Keeps s₀ (demandLoadStep s p) := by
  unfold demandLoadStep
  try dsimp only
  split
  · assumption
  · split
    · refine State.startLoads_keeps ?_ ..
      assumption
    · refine State.pageLoaded_keeps ?_ ..
      refine State.bump64_keeps ?_ ..
      refine State.putPage_keeps ?_ ..
      refine Keeps.mk1 ?_ _ _ _ _ _ _ _ _ _ _ _ _ _ _ _ _ _ _ _ rfl rfl rfl rfl rfl rfl
      split
      · refine State.condition_keeps ?_ ..
        refine Keeps.foldl_pair (fun t x ht => ?_) ?_ _
        · dsimp only
          refine State.loadTile_keeps ?_ ..
          assumption
        · assumption
      · refine Keeps.foldl_pair (fun t x ht => ?_) ?_ _
        · dsimp only
          refine State.loadTile_keeps ?_ ..
          assumption
        · assumption

theorem State.endCheck_keeps {s₀ s : State} (h : Keeps s₀ s) (c : Check) (verdict : Nat) :
    Keeps s₀ (State.endCheck s c verdict) := by
  unfold State.endCheck
  try dsimp only
  refine State.bump64_keeps ?_ ..
  refine Keeps.mk1 ?_ _ _ _ _ _ _ _ _ _ _ _ _ _ _ _ _ _ _ _ rfl rfl rfl rfl rfl rfl
  assumption

theorem State.poolAdd_keeps {s₀ s : State} (h : Keeps s₀ s) (c : Check) :
    Keeps s₀ (State.poolAdd s c) := by
  unfold State.poolAdd
  try dsimp only
  split
  · assumption
  · refine Keeps.mk1 ?_ _ _ _ _ _ _ _ _ _ _ _ _ _ _ _ _ _ _ _ rfl rfl rfl rfl rfl rfl
    assumption

theorem State.offerBlame_keeps {s₀ s : State} (h : Keeps s₀ s) (c : Check) (ix : Nat) (pos : Nat) (product : Nat) (i : Nat) (l : Nat) :
    Keeps s₀ (State.offerBlame s c ix pos product i l) := by
  unfold State.offerBlame
  try dsimp only
  refine State.offerLatch_keeps ?_ ..
  assumption

theorem State.blame_keeps {s₀ s : State} (h : Keeps s₀ s) (p : Nat) :
    Keeps s₀ (State.blame s p) := by
  unfold State.blame
  try dsimp only
  split
  · refine Keeps.mk1 ?_ _ _ _ _ _ _ _ _ _ _ _ _ _ _ _ _ _ _ _ rfl rfl rfl rfl rfl rfl
    refine State.setScreenRec_keeps ?_ ..
    assumption
  · refine Keeps.mk1 ?_ _ _ _ _ _ _ _ _ _ _ _ _ _ _ _ _ _ _ _ rfl rfl rfl rfl rfl rfl
    refine State.setScreenRec_keeps ?_ ..
    assumption

theorem State.suspect_keeps {s₀ s : State} (h : Keeps s₀ s) (n : Nat) :
    Keeps s₀ (State.suspect s n) := by
  unfold State.suspect
  try dsimp only
  split
  · refine State.condition_keeps ?_ ..
    assumption
  · split
    · split
      · refine State.bump64_keeps ?_ ..
        refine State.condition_keeps ?_ ..
        refine State.modStep_keeps ?_ ..
        assumption
      · refine State.condition_keeps ?_ ..
        refine State.modStep_keeps ?_ ..
        assumption
    · assumption

theorem State.verdictEvent_keeps {s₀ s : State} (h : Keeps s₀ s) (c : Check) (pos : Nat) (verdict : Nat) :
    Keeps s₀ (State.verdictEvent s c pos verdict) := by
  unfold State.verdictEvent
  try dsimp only
  refine State.raiseEvent_keeps ?_ ..
  assumption

theorem State.loseCapture_keeps {s₀ s : State} (h : Keeps s₀ s) (c : Check) :
    Keeps s₀ (State.loseCapture s c) := by
  unfold State.loseCapture
  try dsimp only
  refine State.bump64_keeps ?_ ..
  refine State.endCheck_keeps ?_ ..
  assumption

theorem checkCompleteStep_keeps {s₀ s : State} (h : Keeps s₀ s) (id : Nat) (errs : ArrayErrors) (lost : Bool) :
    Keeps s₀ (checkCompleteStep s id errs lost) := by
  unfold checkCompleteStep
  try dsimp only
  split
  · assumption
  · split
    · refine State.loseCapture_keeps ?_ ..
      assumption
    · split
      · refine State.poolAdd_keeps ?_ ..
        refine State.endCheck_keeps ?_ ..
        refine State.bump64_keeps ?_ ..
        assumption
      · refine Keeps.mk1 ?_ _ _ _ _ _ _ _ _ _ _ _ _ _ _ _ _ _ _ _ rfl rfl rfl rfl rfl rfl
        refine State.bump64_keeps ?_ ..
        assumption

theorem arbiterStep_keeps {s₀ s : State} (h : Keeps s₀ s) (id : Nat) (errs : ArrayErrors) (lost : Bool) :
    Keeps s₀ (arbiterStep s id errs lost) := by
  unfold arbiterStep
  try dsimp only
  split
  · assumption
  · split
    · refine State.loseCapture_keeps ?_ ..
      assumption
    · split
      · refine State.verdictEvent_keeps ?_ ..
        refine State.blame_keeps ?_ ..
        refine Keeps.mk1 ?_ _ _ _ _ _ _ _ _ _ _ _ _ _ _ _ _ _ _ _ rfl rfl rfl rfl rfl rfl
        refine State.offerBlame_keeps ?_ ..
        refine State.bump32_keeps ?_ ..
        refine State.endCheck_keeps ?_ ..
        assumption
      · refine State.verdictEvent_keeps ?_ ..
        refine State.suspect_keeps ?_ ..
        refine State.blame_keeps ?_ ..
        refine Keeps.mk1 ?_ _ _ _ _ _ _ _ _ _ _ _ _ _ _ _ _ _ _ _ rfl rfl rfl rfl rfl rfl
        refine State.offerBlame_keeps ?_ ..
        refine State.bump32_keeps ?_ ..
        refine State.endCheck_keeps ?_ ..
        assumption
      · refine State.verdictEvent_keeps ?_ ..
        refine State.suspect_keeps ?_ ..
        refine Keeps.mk1 ?_ _ _ _ _ _ _ _ _ _ _ _ _ _ _ _ _ _ _ _ rfl rfl rfl rfl rfl rfl
        refine State.bump64_keeps ?_ ..
        refine State.endCheck_keeps ?_ ..
        assumption

theorem lapsedStep_keeps {s₀ s : State} (h : Keeps s₀ s) (id : Nat) :
    Keeps s₀ (lapsedStep s id) := by
  unfold lapsedStep
  try dsimp only
  split
  · assumption
  · split
    · assumption
    · refine State.endCheck_keeps ?_ ..
      refine State.reach_keeps ?_ ..
      assumption

theorem State.idle_keeps {s₀ s : State} (h : Keeps s₀ s) :
    Keeps s₀ (State.idle s) := by
  unfold State.idle
  try dsimp only
  refine State.reach_keeps ?_ ..
  assumption

end Sys2Proof.Machine
end

