-- ==== Sys2Proof/Machine/Pins.lean ====
section
/-! DEFINITION. The pins outside service (R385, R401 to R403, R405): what each group of Table 19-3 does in the module's present
condition. -/

namespace Sys2Proof.Machine

/-- The groups of pins of Table 19-3, for a module that is inserted: the hot-swap switch of J1; the host link's transmitters out of
electrical idle and its receivers presented; PRSNT_N grounded; for each port its Ethernet transmitters out of squelch; Ethernet
receivers terminated by powered circuits; the I3C pads in use; STATUS_N and FAIL_N pulled low; the management PHY powered. -/
structure Pins where
  switchClosed  : Bool
  hostTx        : Bool
  hostRx        : Bool
  prsntGrounded : Bool
  ethTx         : List Bool
  ethRx         : Bool
  i3c           : Bool
  statusLow     : Bool
  failLow       : Bool
  mgmtPhy       : Bool
  deriving DecidableEq, Repr

/-- R403: host receivers appear at release, and never in FAILED (R390); the host transmitters serve a link only with PERST#
deasserted and REF good; Ethernet transmitters leave squelch when their port trains, from BootState 3; the management PHY is
powered from BootState 1 (DEDUCED, assumption log 102). -/
def State.pins (s : State) : Pins :=
  { switchClosed := s.supply.closed
    hostTx := s.hostPresent
    hostRx := s.supply.released && s.boot != 6
    prsntGrounded := true
    ethTx := (List.range 48).map fun k => s.up 3 && decide (2 ≤ s.reg P.linkState k)
    ethRx := s.supply.released
    i3c := s.supply.released
    statusLow := s.statusLow
    failLow := s.failLow
    mgmtPhy := s.up 1 }

/-- R385: whether the host port answers a configuration request with Request Retry Status. -/
def State.configRetry (s : State) : Bool := s.hostPresent && s.fw.retry

end Sys2Proof.Machine
end

