-- ==== Sys2Proof/Tests/Slice0.lean ====
section
/-! SUPPORT. The model's own tests: for the statements with hypotheses, small states and operands that meet them (each clause's
hypotheses together); for every check of an operand, one that it refuses; and the spec's worked values. -/

namespace Sys2Proof.Tests

open Sys2Proof Sys2Proof.Machine Sys2Proof.Claims

set_option Elab.async false

/-! States that the tests share. -/

/-- Ready, in step 7, with slot map of base die B0 in place. -/
def base : State := ((State.reset.setVal P.bootState 4).setVal P.currentStep 7).setVal P.slotMap 0x76543210

/-- An open step in which stream 0 of slot 0 is to run the entries `es`. -/
def issuing (es : List Nat) : State :=
  let t : TableSet := { setId := 1, flagToken := 0, slotMask := 1, directory := [(0, es.length * 2 ^ 32)], tokens := []
                        entries := (List.range es.length).zip es, entryCount := es.length }
  let streams : List Stream := ({ ended := false } : Stream) :: List.replicate 15 {}
  { base with seq := { base.seq with active := some t, opened := true, dies := Sparse.put dieDefault [] 0 { streams := streams } } }

/-- An entry from opcode, modifier and operand fields (Table 2-1). -/
def entryOf (op mod d a b : Nat) : Nat := op + mod * 2 ^ 50 + d * 2 ^ 68 + a * 2 ^ 88 + b * 2 ^ 108

/-- The state at the first ac in which a head of the slot issues. -/
def atIssue (s : State) (sl st e : Nat) : State := State.seek sl st (s.seekBound sl e) (s.atAc sl)

/-- Page `p` mapped and loaded, with width class `w`. -/
def mapped (s : State) (p w : Nat) : State := s.setPage p (1 + w * 4 + 2 ^ 20 + 0xFFFFFFFF * 2 ^ 64)

/-- The state that a command leaves. -/
def after (c : Instr) (s : State) : State :=
  match exec c s with
  | .next t => t
  | _ => s

/-- A flight with nothing in it. -/
def noFlight : Flight :=
  { id := 0, stream := 0, index := 0, entry := 0, issued := 0, due := 0, step := 0, reads := [], writes := [], effects := []
    kind := .timed, ready := true }

/-- The hypotheses that the statements about issue share: canonical stores, and the entry selected with its operands loaded. -/
def Selects (s : State) (sl st e : Nat) : Prop := Canonical s ∧ Starts s sl st e (atIssue s sl st e)

/-! Witnesses of the hypotheses of the statements about issue. -/

/-- Pages 1, 2 and 3 mapped, of 8, 32 and 16 bits. -/
def paged (s : State) : State := mapped (mapped (mapped s 1 0) 2 2) 3 1

/-- NOP awaiting tokens 16 and 31, and the state in which both are raised. -/
def waiter : Nat := 2 ^ 24 + (1 + 2 ^ 15) * 2 ^ 26
def waiting : State := issuing [waiter]
def granted : State :=
  waiting.setDie 0 { waiting.die 0 with tokens := ((waiting.die 0).tokens.set 16 3).set 31 1 }

theorem test_hyp_IssuedEntryEntersFlight :
    courseHead (.nop 0 0) = some (0, 0, fun e => enOpcode e == 0x00) ∧ (enOpcode waiter == 0x00) = true
      ∧ Selects granted 0 0 waiter := by
  refine ⟨rfl, ?_⟩; unfold Selects Canonical Starts Selected; decide +kernel

theorem test_hyp_IssueWaits : waiting.headEntry 0 0 = some waiter ∧ 16 ∈ enWaits waiter ∧ (waiting.die 0).token 16 = 0 := by
  decide +kernel

theorem test_hyp_IssueTakesOne : granted.headEntry 0 0 = some waiter ∧ 31 ∈ enWaits waiter ∧ (granted.die 0).token 31 = 1 := by
  decide +kernel

/-- The hypotheses of the clause for the entry `e` of opcode `op`, at slot 0, stream 0. -/
def ClauseOf (s : State) (e op : Nat) : Prop := Selects s 0 0 e ∧ enOpcode e = op

def eNop := entryOf 0x00 0 0 0 0
def eEnd := entryOf 0x01 0 0 0 0
def eBase := entryOf 0x02 3 0 0xFFFFF 0xFFFFF
def eStride := entryOf 0x03 2 9 8 0xFFFFF
def eLoop := entryOf 0x04 (3 + 64) 0 9 0

theorem test_hyp_SequencerEntries :
    (∀ x ∈ [(eNop, 0x00), (eEnd, 0x01), (eBase, 0x02), (eStride, 0x03), (eLoop, 0x04)],
      ClauseOf (issuing [x.1]) x.1 x.2 ∧ (strm (issuing [x.1]) 0 0).loops = []) := by
  unfold ClauseOf Selects Canonical Starts Selected; decide +kernel

/-- A stream in a loop of entries 1 to 2 with `left` passes to come. -/
def looping (left : Nat) : Stream :=
  { loops := [{ level := 2, first := 1, last := 2, left := left, saved := [5, 6, 7] }], x := [1, 2, 2 ^ 40 - 1, 9] }

theorem test_hyp_Loops :
    (looping 0).x.length = 4
      ∧ (∀ left ∈ [0, 1], ∃ f fs, (looping left).loops = f :: fs ∧ f.last = 2 ∧ f.left = left) :=
  ⟨rfl, fun _ _ => ⟨_, [], rfl, rfl, rfl⟩⟩

def eMode := entryOf 0x08 (1 + 3 * 2 ^ 4 + 2 ^ 7 + 3 * 2 ^ 8) 63 0 0
def eMma := entryOf 0x10 1 0 64 65
def eDrain := entryOf 0x11 1 66 0 0

theorem test_hyp_ArrayEntries :
    ClauseOf (issuing [eMode]) eMode 0x08 ∧ ClauseOf (mapped (issuing [eMma]) 1 0) eMma 0x10
      ∧ ClauseOf (mapped (issuing [eDrain]) 1 0) eDrain 0x11 := by
  unfold ClauseOf Selects Canonical Starts Selected; decide +kernel

def eVop := entryOf 0x20 0x01 66 64 65
def eVrow := entryOf 0x21 (0x04 + 5 * 2 ^ 6 + 5 * 2 ^ 9) 130 128 3
def eVcol := entryOf 0x22 (0x1B + 5 * 2 ^ 6 + 5 * 2 ^ 9 + 7 * 2 ^ 12) 191 128 63
def eVtrans := entryOf 0x23 (5 * 2 ^ 6 + 5 * 2 ^ 9) 130 128 0

theorem test_hyp_VectorTileEntries :
    ∀ x ∈ [(eVop, 0x20), (eVrow, 0x21), (eVcol, 0x22), (eVtrans, 0x23)], ClauseOf (paged (issuing [x.1])) x.1 x.2 := by
  unfold ClauseOf Selects Canonical Starts Selected; decide +kernel

def eVld := entryOf 0x24 (0x01 + 127 * 2 ^ 3 + 2 ^ 10) 63 64 65
def eVreg := entryOf 0x26 0x04 5 6 7
def eBcast := entryOf 0x26 (0x30 + 255 * 2 ^ 7) 5 6 7
def eSwaph := entryOf 0x26 0x31 5 6 7
def eVimm := entryOf 0x27 (1 + 255 * 2 ^ 2) 5 0x12345 7
def eRed := entryOf 0x28 (0x05 + 2 * 2 ^ 4 + 2 ^ 10) 5 64 7

theorem test_hyp_RegisterEntries :
    (∀ x ∈ [(eVld, 0x24), (eVreg, 0x26), (eBcast, 0x26), (eSwaph, 0x26), (eVimm, 0x27), (eRed, 0x28)],
      ClauseOf (paged (issuing [x.1])) x.1 x.2)
      ∧ enM eVreg 0 6 < 0x30 ∧ enM eBcast 0 6 = 0x30 ∧ enM eSwaph 0 6 = 0x31 := by
  unfold ClauseOf Selects Canonical Starts Selected; decide +kernel

def eVst := entryOf 0x25 0x7F 64 5 0
def eMove := entryOf 0x30 (3 + 7 * 2 ^ 7 + 2 * 2 ^ 13) 66 64 0
/-- A tile with one row, whose digest is right. -/
def unsealed : Tile := { rows := [(0, 0x3C3C)], status := 8 }
def sealed : Tile := { unsealed with digest := unsealed.computeDigest 1 }

theorem scaleList_digest (t : Tile) (x : Nat) : ({ t with digest := x } : Tile).scaleList = t.scaleList := rfl

theorem digest_self (t : Tile) (w : Nat) :
    ({ t with digest := t.computeDigest w } : Tile).computeDigest w = ({ t with digest := t.computeDigest w } : Tile).digest := by
  simp only [Tile.computeDigest, Tile.dataBytes, Tile.headBytes, Tile.row, scaleList_digest]

def moving : State := (paged (issuing [eMove])).putTile 64 sealed

theorem test_hyp_VstEntry :
    let s := paged (issuing [eVst])
    ClauseOf s eVst 0x25 ∧ s.place (opTile s 0 0 (enD eVst)) = .mapped 64 0 := by
  unfold ClauseOf Selects Canonical Starts Selected; decide +kernel

theorem test_hyp_MoveEntry :
    ClauseOf moving eMove 0x30 ∧ moving.place (opTile moving 0 0 (enA eMove)) = .mapped 64 0
      ∧ (moving.tile 64).computeDigest (classBytes 0) = (moving.tile 64).digest := by
  have h : moving.tile 64 = sealed := rfl
  unfold ClauseOf Selects Starts Selected Canonical
  refine ⟨⟨⟨by decide +kernel, ?_, by decide +kernel⟩, by decide +kernel⟩, by decide +kernel, h ▸ digest_self unsealed 1⟩
  exact ⟨by decide +kernel, by decide +kernel, rfl, by decide +kernel⟩

def eRsig := entryOf 0x38 (63 + 63 * 2 ^ 6 + 3 * 2 ^ 12) 0 0 0
def ePost := entryOf 0x26 (0x32 + 255 * 2 ^ 7) 0 6 0

theorem test_hyp_RsigAndPost :
    ClauseOf (issuing [eRsig]) eRsig 0x38 ∧ ClauseOf (issuing [ePost]) ePost 0x26 ∧ enM ePost 0 6 = 0x32 := by
  unfold ClauseOf Selects Canonical Starts Selected; decide +kernel

def eGather := entryOf 0x31 (3 * 2) 66 128 0
def eScatter := entryOf 0x32 (1 + 255 * 2) 0 64 128

theorem test_hyp_MillraceEntries :
    ClauseOf (paged (issuing [eGather])) eGather 0x31 ∧ ClauseOf (paged (issuing [eScatter])) eScatter 0x32 := by
  unfold ClauseOf Selects Canonical Starts Selected; decide +kernel

def eNsend := entryOf 0x40 4095 0 64 128
def eColl := entryOf 0x41 (2 + 3 * 4) 192 64 1
def collective : State := (paged (issuing [eColl])).setReg P.groupTable 3 1

theorem test_hyp_NetworkEntries :
    ClauseOf (paged (issuing [eNsend])) eNsend 0x40 ∧ ClauseOf collective eColl 0x41 := by
  unfold ClauseOf Selects Canonical Starts Selected; decide +kernel

/-! Witnesses: arrays, completion, tokens, steps, updates and commits. -/

/-- An MMA of array 1 of slot 0, number 6 in its queue. -/
def job (half : Bool) : MmaJob :=
  { flight := 3, ord := 6, issued := 0, stream := 0, index := 0, step := 7, fmtA := .e4m3, fmtB := .bf16, half := half
    idA := 64, idB := 65, a := [], sa := [], b := [], sb := [], poison := false, mism := false }
def drainJob : DrainJob :=
  { flight := 3, ord := 6, issued := 0, dest := 66, conv := ⟨.e4m3, false, false, false, 0⟩, convPoi := false, writer := { source := 0 } }
def pass : TreePass := { job := job false, row := 127, enter := 400, first := false, last := true, sums := [], invs := [], losses := [] }
/-- Array 1 of slot 0 in the state `x`, with the entry that a job names in flight. -/
def withArray (x : ArrayState) : State :=
  let s := issuing []
  let s := s.setDie 0 { s.die 0 with flight := [{ noFlight with id := 3 }] }
  s.setArray 0 1 x

theorem test_hyp_PassEnter :
    let x := (withArray { running := some (job true, 127, 100), tree := [pass] }).array 0 1
    Canonical (withArray { running := some (job true, 127, 100), tree := [pass] }) ∧ x.nextMma = some (job true, 127, 100)
      ∧ ∀ p ∈ x.tree, 100 + 4 * (127 / 2) ≤ p.enter + 96 := by
  unfold Canonical; decide +kernel

theorem test_hyp_PassSumAdd :
    let s := withArray { tree := [pass], drains := [drainJob], halves := [(6, true)] }
    let x := s.array 0 1
    Canonical s ∧ x.tree = pass :: [] ∧ (∀ d ∈ x.drains, pass.job.ord ≤ d.ord) ∧ (∀ h ∈ x.halves, pass.job.ord ≤ h.1)
      ∧ pass.last = true ∧ ∃ f ∈ (s.die 0).flight, f.id = pass.job.flight := by
  unfold Canonical; decide +kernel

theorem test_hyp_PassSums :
    let a := List.replicate 128 0x7BFF
    ∀ p ∈ passPairs .fp16 .int8 0x7F 0xFE a (List.replicate 128 0x80), p.2.1.k ≠ .nan ∧ p.2.1.k ≠ .inf ∧ p.2.2.k ≠ .nan ∧ p.2.2.k ≠ .inf := by
  decide +kernel

theorem test_hyp_HalfConversion :
    let s := withArray { halves := [(6, true)], drains := [drainJob] }
    let x := s.array 0 1
    Canonical s ∧ x.halves = (6, true) :: [] ∧ x.mmaBefore 6 = false ∧ (∀ d ∈ x.drains, 6 ≤ d.ord) ∧ (x.set x.active).half = false := by
  unfold Canonical; decide +kernel

theorem test_hyp_HalfConversionSame :
    let s := withArray { halves := [(6, false)] }
    Canonical s ∧ (s.array 0 1).mmaBefore 6 = false ∧ ((s.array 0 1).set (s.array 0 1).active).half = false := by
  unfold Canonical; decide +kernel

theorem test_hyp_DrainSwap :
    let s := withArray { halves := [(6, false)], drains := [drainJob] }
    let x := s.array 0 1
    Canonical s ∧ x.drains = drainJob :: [] ∧ x.mmaBefore drainJob.ord = false ∧ (∀ h ∈ x.halves, drainJob.ord ≤ h.1)
      ∧ ∃ f ∈ (s.die 0).flight, f.id = drainJob.flight := by
  unfold Canonical; decide +kernel

def conversion (poison : Bool) : Conv := { job := drainJob, swap := 400, set := { poison := poison }, freed := false }

theorem test_hyp_ConversionEnd :
    let s := withArray { convs := [conversion true] }
    Canonical s ∧ (s.array 0 1).convs = conversion true :: [] ∧ (conversion true).freed = false ∧ (conversion true).set.poison = true
      ∧ ∃ f ∈ (s.die 0).flight, f.id = (conversion true).job.flight := by
  unfold Canonical; decide +kernel

/-- An entry that signals token 63 by 3, with two entries in flight. -/
def signals : Nat := 63 * 2 ^ 42 + 3 * 2 ^ 48
def finishing (effs : List Effect) : Flight := { noFlight with id := 3, entry := signals, due := 44, effects := effs }
def completing (effs : List Effect) : State :=
  let s := paged (issuing [])
  s.setDie 0 { s.die 0 with flight := [finishing effs, { noFlight with id := 4 }], tokens := (s.die 0).tokens.set 63 254 }
def someTile : Tile := { rows := [(127, 1)], status := 8 }

theorem test_hyp_Completed :
    ∀ effs ∈ ([[], [.reg 63 77 true], [.tile 64 0 2 { source := 0 } someTile], [.moveTile 64 1 someTile]] : List (List Effect)),
      let s := completing effs
      let f := finishing effs
      Canonical s ∧ (s.die 0).flight.find? (fun g => g.id == 3) = some f ∧ (s.die 0).completable f = true
        ∧ f.kind = .timed ∧ OthersInFlight s 0 3 ∧ s.place 64 = .mapped 64 0 ∧ Nat.log2 1 = 0 ∧ enSignalCount f.entry = 3 := by
  unfold Canonical OthersInFlight; decide +kernel

/-- Page 9 an alias of page 1. -/
def aliased : State := (paged (issuing [])).setPage 9 (2 + 2 ^ 64)

theorem test_hyp_TileWrites :
    Canonical aliased ∧ aliased.place (9 * 64 + 63) = .viaAlias 127 0 ∧ aliased.place (10 * 64) = .unmapped
      ∧ aliased.place 127 = .mapped 127 0 := by
  unfold Canonical; decide +kernel

def raising (n : Nat) : State :=
  let s := completing []
  { s with seq := { s.seq with fabric := [{ slot := 0, token := 63, count := 3, step := n }] } }

theorem test_hyp_TokenRaise :
    (∀ n ∈ [6, 7, 8], Canonical (raising n) ∧ (raising n).seq.fabric = { slot := 0, token := 63, count := 3, step := n } :: [])
      ∧ (raising 7).step = 7 ∧ 255 < ((raising 7).die 0).token 63 + 3 := by
  unfold Canonical; decide +kernel

/-- A ready NOP on slot 0, whose tile store is being copied. -/
def paced : State :=
  let s := issuing [eNop]
  { s with seq := { s.seq with copying := [(0, 1)] } }
/-- A NOP that charges more than a slot with no budget will ever hold. -/
def costly : Nat := eNop + 2 ^ 15
def unpaid : State :=
  let s := issuing [costly]
  { s with weir := { s.weir with buckets := List.replicate 64 0, reserves := List.replicate 8 0 } }

theorem nth_zeros (n g : Nat) : nth (List.replicate n 0) g 0 = 0 := by
  simp [nth, List.getElem?_replicate]; split <;> rfl

theorem test_hyp_HeadDue :
    (∀ s ∈ [paced, unpaid], Canonical s ∧ s.readyAt 0 0 (ceilDiv s.clock.now 4) = true ∧ KeptFromIssue s 0)
      ∧ (unpaid.seq.copying.any fun c => c.1 == 0) = false := by
  have c : ∀ s ∈ [paced, unpaid], Canonical s ∧ s.readyAt 0 0 (ceilDiv s.clock.now 4) = true := by
    unfold Canonical; decide +kernel
  refine ⟨?_, by decide +kernel⟩
  simp only [List.mem_cons, List.not_mem_nil, or_false, forall_eq_or_imp, forall_eq] at c ⊢
  exact ⟨⟨c.1.1, c.1.2, .inl (by decide +kernel)⟩, ⟨c.2.1, c.2.2, .inr ⟨nth_zeros 8, by decide +kernel⟩⟩⟩

def hazard : Flight := { noFlight with stream := 15, writes := [.reg 5] }
def colliding (held : Bool) : State :=
  let s := issuing [eVimm]
  s.setDie 0 { s.die 0 with flight := [hazard], streams := (s.die 0).streams.set 0 { ended := false, held := held } }

theorem test_hyp_SlotStall :
    paced.val P.stallLimit ≠ 0 ∧ paced.slotBusy 0 = true ∧ (paced.die 0).stallTold = false := by decide +kernel

theorem test_hyp_GuardCollision : ∀ held : Bool,
    let s := colliding held
    let u := atIssue s 0 0 eVimm
    Canonical s ∧ courseHead (.vimm 0 0) = some (0, 0, fun e => enOpcode e == 0x27) ∧ s.headEntry 0 0 = some eVimm
      ∧ (enOpcode eVimm == 0x27) = true ∧ nearlyReady s (s.die 0) 0 (strm s 0 0) eVimm = true ∧ u.wouldIssue 0 0 u.ac = true
      ∧ (∀ f ∈ (s.die 0).flight, f.stream < 16) ∧ (strm s 0 0).held = held := by
  intro held
  refine ⟨?_, rfl, ?_⟩ <;> revert held <;> (try unfold Canonical) <;> decide +kernel

/-- Between steps, with a table set and the gate open to step 8. -/
def closed : State := ({ base with seq := { base.seq with active := (issuing [eNop]).seq.active } }).setVal P.stepGate 8

theorem test_hyp_StepOpen :
    Canonical closed ∧ closed.mayOpen = true ∧ closed.held = [] ∧ ∀ kv ∈ closed.upd.tables, kv.1 / 2 ^ 24 ∈ groupTables := by
  unfold Canonical; decide +kernel

theorem test_hyp_StepRefused :
    (issuing [eNop]).seq.opened = true ∧ (closed.setVal P.stepGate 7).val P.stepGate < closed.step + 1
      ∧ (closed.setVal P.bootState 3).boot ≠ 4 ∧ ({ closed with upd := { closed.upd with restoring := some 1 } } : State).upd.restoring.isSome = true
      ∧ ∃ r ∈ ({ closed with upd := { closed.upd with steps := [{ step := 6 }] } } : State).upd.steps, r.step + 1 ≠ closed.step + 1 := by
  decide +kernel

/-- A change wanted at position `p`, of kind `k`, with position 8 as the spare. -/
def changing (k p : Nat) : State :=
  let s := closed.setVal P.slotMap 0x876543210
  { s with seq := { s.seq with changeReq := [(k, p)] } }

theorem test_hyp_SlotChange :
    (∀ k ∈ [0, 2], (changing k 2).changesOf 0 = (k, 2) :: [] ∧ (k = 0 ∨ ((changing k 2).spareOf 0).isSome = true))
      ∧ (∀ k ∈ [0, 1, 2], Canonical (changing k 2) ∧ (changing k 2).mayChange 0 = true ∧ (changing k 2).slotOfPos 2 = some 2)
      ∧ (∀ k ∈ [0, 1], (changing k 8).mayChange 0 = true ∧ (changing k 8).slotOfPos 8 = none ∧ (changing k 8).spareOf 0 = some 8)
      ∧ (changing 0 8).changesOf 0 = (0, 8) :: [] := by
  unfold Canonical; decide +kernel

theorem test_hyp_BlameRetirement : ∀ p ∈ [2, 8],
    (1, p) ∈ (changing 1 p).seq.changeReq ∧ ∀ r ∈ (changing 1 p).seq.changeReq, r.1 = 0 → r.2 / 9 ≠ 0 := by decide +kernel

def cutOff : State := { closed with panel := { closed.panel with cutOff := [7] } }
def copying : State := (({ closed with seq := { closed.seq with copying := [(2, 1), (9, 3)] } }) : State).setVal (P.slotMap + 1) 0

theorem test_hyp_CutOffAndCopies :
    Canonical cutOff ∧ cutOff.atBoundary 7 = true ∧ 7 ∈ cutOff.panel.cutOff ∧ (∃ k, k < 8 ∧ cutOff.absent (8 * 7 + k) = false)
      ∧ Canonical copying ∧ (copying.seq.copying.any fun c => c.1 / 8 == 0) = true
      ∧ (∀ c ∈ copying.seq.copying, c.1 < 64) ∧ ∀ c ∈ copying.seq.copying, c.1 / 8 = 0 → copying.absent c.1 = false := by
  unfold Canonical; decide +kernel

def queued : State := { closed with upd := { closed.upd with queues := List.replicate 7 [] ++ [[(1023, 7), (6, 7)]] } }

theorem test_hyp_UpdateStart :
    Canonical queued ∧ nth queued.upd.running 7 none = none
      ∧ nth queued.upd.queues 7 [] = (1023, 7) :: [(6, 7)] := by
  unfold Canonical; decide +kernel

/-- Shard 5 running in step 7 on B0, with `n` restarts behind it. -/
def running (n : Nat) : State :=
  let s := closed.setReg P.shardRecords 5 (1 + n * 2 ^ 8)
  { s with upd := { s.upd with running := some (5, 7) :: List.replicate 7 none, steps := [{ step := 7 }] } }

theorem test_hyp_UpdateInterrupt :
    ∃ lo hi : Nat, Canonical (running lo) ∧ nth (running lo).upd.running 0 none = some (5, 7)
      ∧ srRestarts ((running lo).shardRec 5) = 2 ∧ Canonical (running hi) ∧ nth (running hi).upd.running 0 none = some (5, 7)
      ∧ srRestarts ((running hi).shardRec 5) = 3 := by
  unfold Canonical; exact ⟨2, 3, by decide +kernel⟩

theorem test_hyp_ShardWritten :
    let s := running 0
    Canonical s ∧ StreamsInRange s ∧ s.upd.kept = [] ∧ s.unloaded (updateTiles (capReg (s.capturedOf 7) P.shardTable 5) 7) = [] := by
  unfold Canonical StreamsInRange; decide +kernel

/-! Witnesses: commits, checkpoints, riffle, weir, resets, power-up, panel. -/

def withSteps (rs : List StepRec) : State := { closed with upd := { closed.upd with steps := rs } }

theorem test_hyp_Report :
    let s : State := { withSteps [{ step := 7 }] with upd := { (withSteps [{ step := 7 }]).upd with reports := [(4, 7), (4095, 7)] } }
    Canonical s ∧ (4095, 7) ∈ s.upd.reports ∧ s.stepRec 7 = some { step := 7 } := by
  unfold Canonical; decide +kernel

/-- A used shard descriptor with rule 2 and one tile, triggered by group 3 once (Table 7-1). -/
def shardDesc : Nat := 3 + 2 * 2 ^ 24 + 2 ^ 48 + 5 * 2 ^ 64 + 16384 * 2 ^ 96 + 2 ^ 128 + 64 * 2 ^ 256 + 128 * 2 ^ 320 + 192 * 2 ^ 384
  + 256 * 2 ^ 448 + 320 * 2 ^ 512 + 384 * 2 ^ 576 + 448 * 2 ^ 640
def finalStep : StepRec := { step := 7, isFinal := true, finalAt := 1000, metAt := some 1500 }
def captured (r : StepRec) : State :=
  let s := (withSteps [r]).setReg P.shardTable 5 shardDesc
  { s with upd := { s.upd with captured := [{ step := 7, params := s.params }] } }
/-- A closing group of two ranks, in which the module has rank 0. -/
def closing (r : StepRec) : State :=
  let s := (closed.setReg P.groupTable 2 (2 + 2 ^ 32 + 2 ^ 73)).setReg P.memberTable 2 9
  { s with upd := { s.upd with steps := [r] } }
def verified : StepRec := { finalStep with verifiedAt := some 2000 }

theorem test_hyp_TriggerStall :
    let s := captured finalStep
    Canonical s ∧ s.val P.stallLimit ≠ 0 ∧ (s.upd.steps.find? (fun r =>
      let d := capReg (s.capturedOf r.step) P.shardTable 5
      r.isFinal && sdRule d != 0xFF && !r.stallTold.contains 5
        && decide (Sparse.get zeros r.counts (sdTrigger d) < sdTriggerCount d))) = some finalStep := by
  unfold Canonical; decide +kernel

theorem test_hyp_CommitStall :
    let s := closing verified
    Canonical s ∧ s.val P.stallLimit ≠ 0 ∧ s.upd.steps.find? (fun r => r.verifiedAt.isSome && !r.commitTold) = some verified
      ∧ 1 ∈ s.closingRanks ∧ s.commitFrom 7 1 = none := by
  unfold Canonical; decide +kernel

/-- A complete replica message of type `typ` for shard 5 and the given step, on stream 4095. -/
def replica (typ step : Nat) : State :=
  let seg : RSeg := ⟨0, 0, step, 0, true, msgDescriptor 3 0 0 0 step 0 0 0 ++ replicaBytes typ 0 5 0 step [] []⟩
  (withSteps [{ step := 7 }]).setRx 4095 { epoch := some 1, cum := 0, limit := 100, segs := [seg] }

theorem test_hyp_ReplicaKept : ∀ typ ∈ [0, 1, 2, 3, 4, 5], ∃ k u, (replica typ 8).takeReplica 4095 typ = (some k, u) ∧ u.stepRec k.step = none := by
  have h : ∀ typ ∈ [0, 1, 2, 3, 4, 5], ((replica typ 8).takeReplica 4095 typ).1.isSome = true
      ∧ ((replica typ 8).takeReplica 4095 typ).2.stepRec ((((replica typ 8).takeReplica 4095 typ).1.map (·.step)).getD 0) = none := by
    decide +kernel
  intro typ ht
  obtain ⟨h1, h2⟩ := h typ ht
  obtain ⟨k, hk⟩ := Option.isSome_iff_exists.1 h1
  exact ⟨k, _, Prod.ext hk rfl, by simpa [hk] using h2⟩

theorem test_hyp_StopResolved : ∃ k u, (replica 5 7).takeReplica 4095 5 = (some k, u) ∧ u.undecided k.step = true := by
  have h : ((replica 5 7).takeReplica 4095 5).1.isSome = true
      ∧ ((replica 5 7).takeReplica 4095 5).2.undecided ((((replica 5 7).takeReplica 4095 5).1.map (·.step)).getD 0) = true := by
    decide +kernel
  obtain ⟨k, hk⟩ := Option.isSome_iff_exists.1 h.1
  exact ⟨k, _, Prod.ext hk rfl, by simpa [hk] using h.2⟩

theorem test_hyp_Verified :
    (let s := withSteps [finalStep]
     Canonical s ∧ StreamsInRange s ∧ s.upd.steps.find? (fun r => s.verifiable r) = some finalStep ∧ s.closingGroup = none)
    ∧ (let s := closing finalStep
       Canonical s ∧ StreamsInRange s ∧ s.upd.steps.find? (fun r => s.verifiable r) = some finalStep ∧ 1 ∈ s.closingRanks
        ∧ s.commitFrom 7 1 = none) := by
  unfold Canonical StreamsInRange; decide +kernel

def rechecked : StepRec := { step := 7, isFinal := true, shards := [{ shard := 5, stage := 1 }] }

theorem test_hyp_Recheck :
    let s := captured rechecked
    Canonical s ∧ StreamsInRange s ∧ s.upd.kept = [] ∧ rechecked.shard 5 = some { shard := 5, stage := 1 }
      ∧ (s.upd.steps.find? (fun r => match r.shard 5 with
        | some x => x.stage == 1
        | none => false)) = some rechecked := by
  unfold Canonical StreamsInRange; decide +kernel

def checkpoint : Checkpoint :=
  { number := 3, step := 7, first := 0, granules := 1, bytes := 100, optStep := 2, updateSeed := 5, accumSeed := 6, sections := [] }
/-- The journal's last unit of a checkpoint, with the PayloadCrc field `crc` in its trailer. -/
def restoring (crc : Nat) : State :=
  let s : State := { base with upd := { base.upd with restoring := some 3 }, journal := { base.journal with complete := [checkpoint] } }
  { s with flash := { s.flash with
      lus := [((262144 - 16384) * 4096 + 63, { written := true })]
      pages := [(0, { dat := crc * 256 ^ 16168 })] } }

theorem drop_leBytes (n x k m : Nat) (h : k + m ≤ n) : ((leBytes n x).drop k).take m = leBytes m (x / 256 ^ k) := by
  induction k generalizing n x with
  | zero =>
    induction m generalizing n x with
    | zero => rfl
    | succ m ih => obtain _ | n := n <;> [omega; simpa [leBytes] using ih n (x / 256) (by omega)]
  | succ k ih =>
    obtain _ | n := n
    · omega
    · rw [leBytes, List.drop_succ_cons, ih n _ (by omega), pow_succ', Nat.div_div_eq_div_mul]

theorem test_hyp_Checkpoints :
    (∀ b : Bool, Canonical base
        ∧ ({ base with upd := { base.upd with writing := [{ checkpoint with headed := b }] } } : State).upd.writing = { checkpoint with headed := b } :: [])
      ∧ (∀ crc, ((restoring crc).upd.restoring.bind fun k => (restoring crc).journal.complete.find? fun c => c.number == k) = some checkpoint)
      ∧ Canonical (restoring 0) ∧ Canonical (restoring 1) ∧ (restoring 0).payloadGood checkpoint = true
      ∧ (restoring 1).payloadGood checkpoint = false := by
  have g : ∀ crc < 2, (restoring crc).payloadGood checkpoint
      = (leField (leBytes 256 ((restoring crc).journalRead checkpoint 63 / 256 ^ 16128)) 0x28 8
          == crc64 (leBytes 100 ((restoring crc).journalRead checkpoint 0 / 256 ^ 4096))) := by
    intro crc _
    simp only [State.payloadGood, slice, checkpoint, ceilDiv]
    rw [drop_leBytes _ _ _ _ (by norm_num)]
    simp [List.range_succ, drop_leBytes]
  refine ⟨fun b => ⟨by unfold Canonical; decide +kernel, rfl⟩, fun _ => rfl, ?_, ?_, ?_, ?_⟩
  · unfold Canonical; decide +kernel
  · unfold Canonical; decide +kernel
  · rw [g 0 (by norm_num)]; decide +kernel
  · rw [g 1 (by norm_num)]; decide +kernel

/-- A check of slot 63 in stage `stage`; with `ok`, every lane is exempt, and otherwise element (0, 0) differs. -/
def check (stage : Nat) (ok : Bool) : Check :=
  { id := 3, slot := 63, array := 1, stream := 0, entry := 0, flight := 0, stamp := 7, checker := 127, arbiter := 9, stage := stage
    mmas := [], conv := ⟨.e4m3, false, false, false, 0⟩, tile := none
    set := if ok then { lanes := (List.range 128).map fun l => (l, 2) } else { acc := [(0, 0x3F800000)] }
    bytes := 10, errs := {}, checkerPos := 71, position := 71, accumSeed := 1, convPoi := false }
def riffling (c : Check) : State :=
  { base with riffle := { base.riffle with checks := [c] }, upd := { base.upd with steps := [{ step := 7, metAt := some 100 }] } }

theorem test_hyp_Riffle :
    (∀ stage ∈ [1, 2], ∀ ok : Bool, Canonical (riffling (check stage ok))
        ∧ (riffling (check stage ok)).riffle.checks.find? (fun c => c.id == 3 && c.stage == stage) = some (check stage ok))
      ∧ ((check 1 true).fails {}).isNone = true ∧ ((check 1 false).fails {}).isNone = false
      ∧ (riffling (check 1 true)).riffle.checks.find? (fun c => c.id == 3) = some (check 1 true)
      ∧ (riffling (check 1 true)).metTime 7 = some 100
      ∧ ({ riffling (check 1 true) with upd := {}, riffle := { (riffling (check 1 true)).riffle with met := [(7, 50)] } } : State).metTime 7
        = some 50 := by
  unfold Canonical; decide +kernel

def supplied : Supply :=
  { base.supply with released := true, powering := false, refGood := true, mated := true, closed := true, qualified := true, input38 := true }
def warm : State := { base with supply := supplied }
def weirWith (w : Weir) : State := { warm with weir := w }

theorem test_hyp_Weir :
    Canonical warm ∧ warm.weirRuns = true
      ∧ (weirWith { warm.weir with powerGear := 6, lowSince := some 5, lastSample := 9000005 }).weirRuns = true
      ∧ coolantOutside 0x42C80000 = true ∧ coolantOutside 0x41C80000 = false
      ∧ (weirWith { warm.weir with coolSince := some 5 }).weir.coolOut = false
      ∧ flt 0x422FFFFF (warm.level 5) = true ∧ warm.supply.released = true ∧ warm.weir.supplyGear ≠ 0 := by
  unfold Canonical; decide +kernel

theorem test_hyp_Resets :
    let hot := weirWith { warm.weir with hot := [(95, 0)], lastSample := 9000000 }
    (hot.weir.hot.find? (fun h => h.1 == 95) = some (95, 0) ∧ 0 + 9000000 ≤ hot.weir.lastSample)
      ∧ warm.powered = true ∧ flt 0x421FFFFF (warm.level 6) = true
      ∧ flt 0x42700000 (warm.level 6) = false ∧ flt (warm.level 9) 0x42700000 = true
      ∧ warm.supply.closed = true ∧ warm.weirRuns = true
      ∧ ({ warm.setVal P.bootState 3 with fw := { warm.fw with trialBoot := true } } : State).boot < 4 := by
  decide +kernel

/-- Table 19-3: in an orderly reset FAIL_N is as before and STATUS_N released; a module with its switch open releases both. -/
theorem test_pins_outside_service :
    let failed : State := warm.setVal P.bootState 5
    warm.pins.statusLow = true ∧ warm.pins.failLow = false ∧ failed.pins.statusLow = false ∧ failed.pins.failLow = true
      ∧ (warm.orderlyReset 2 0).pins.statusLow = false ∧ (warm.orderlyReset 2 0).pins.failLow = false
      ∧ (failed.orderlyReset 2 0).pins.failLow = true ∧ (failed.orderlyReset 2 0).pins.hostRx = false
      ∧ (enableOpenStep failed).pins.failLow = false ∧ State.reset.pins.mgmtPhy = false := by
  decide +kernel

def cold : State := { base with supply := { supplied with released := false } }
def powering : State := { base with supply := { supplied with released := false, powering := true } }
def booting (b : Nat) : State := { base.setVal P.bootState b with supply := supplied }

theorem test_hyp_PowerUp :
    fge 0x42180000 0x42180000 = true ∧ Canonical cold ∧ cold.supply.mated = true ∧ cold.supply.closed = true ∧ cold.supply.qualified = true
      ∧ cold.powered = false ∧ powering.supply.powering = true ∧ powering.supply.refGood = true
      ∧ (∀ b ∈ [0, 1, 2, 3], Canonical (booting b) ∧ (booting b).boot = b ∧ (booting b).supply.released = true)
      ∧ (booting 3).held = [] ∧ (booting 3).mem.staged = [] := by
  unfold Canonical; decide +kernel

theorem test_hyp_FieldState :
    let s : State := { base with panel := { base.panel with fieldDirty := true }, log := { base.log with sigDue := [(3, [1, 2])] } }
    Canonical s ∧ s.panel.fieldDirty = true ∧ s.log.sigDue = (3, [1, 2]) :: [] ∧ s.nor.sigs.length ≤ 32
      ∧ (warm.setVal P.fwStatus 0x200).fwState = 2 := by
  unfold Canonical; decide +kernel

theorem test_hyp_Reference :
    warm.supply.released = true ∧ warm.supply.refGood = true
      ∧ ({ warm with supply := { supplied with refGood := false } } : State).supply.refGood = false
      ∧ (warm.setReg P.linkState 47 3).reg P.linkState 47 = 3 := by decide +kernel

def rilled (x : Rill) : State := base.setRill 9 x
def manyReplays : Rill := { base.rill 9 with recent := [(31, 0, 64), (15, 0, 1)] }
def shaking (fails : Nat) : Rill := { base.rill 9 with shaking := true, agreed := 0xFF0F, fails := fails }

theorem test_hyp_Rills :
    Canonical base ∧ bit (base.rill 9).mask 15 = true ∧ base.up 2 = true
      ∧ (rilled manyReplays).val P.rillErrorLimit < (((rilled manyReplays).rill 9).recent.filter fun e =>
          e.1 % 16 == 15 && decide ((rilled manyReplays).clock.now ≤ e.2.1 + 9000000)).foldl (fun n e => n + e.2.2) 0
      ∧ (∀ n ∈ [0, 1], ((rilled (shaking n)).rill 9).shaking = true ∧ ((rilled (shaking n)).rill 9).fails = n)
      ∧ Nat.land 0xFFFF (shaking 0).agreed ≠ Nat.land 0xFFFC (shaking 0).agreed := by
  unfold Canonical; decide +kernel

def dies : State := ((base.setVal P.slotMap 0x876543210).setVal P.screenEnable 1).setPosState 8 1
def screenable : State :=
  { dies with panel := { dies.panel with class2 := [2] }, seq := { dies.seq with active := closed.seq.active } }
def screening (req : List (Nat × Nat)) : State :=
  let s := after .screenStart screenable
  { s with seq := { s.seq with changeReq := req } }

theorem test_hyp_Dies :
    Canonical dies ∧ dies.up 2 = true ∧ dies.posState 2 ≠ 3 ∧ (0, 2) ∉ dies.seq.changeReq ∧ dies.slotOfPos 2 = some 2
      ∧ dies.slotOfPos 8 = none ∧ dies.spareOf 0 = some 8 ∧ dies.posState 8 ≠ 3 := by
  unfold Canonical; decide +kernel

theorem test_hyp_Screens :
    screenable.screenChoice = some 2 ∧ screenable.val P.screenEnable = 1 ∧ screenable.boot = 4
      ∧ screenable.panel.screens.length < screenable.val P.screenConcurrency ∧ screenable.mayChange 0 = true
      ∧ (∀ q ∈ screenable.seq.changeReq, q.2 / 9 ≠ 0) ∧ screenable.spareFree 0 = true
      ∧ ((screening []).panel.screens.any fun x => x.position == 2) = true ∧ (screening []).seq.opened = false
      ∧ ((screening [(0, 5)]).seq.changeReq.any fun q => q.2 / 9 == 0 && q.1 != 1) = true := by decide +kernel

/-! Witnesses: memory, flash, streams, ports, messages, PTP. -/

def memory : State := paged base
def migrating (next : List Nat) : State :=
  { memory with mem := { memory.mem with migrations := [{ page := 1, tier := 2, frame := 2 ^ 32 - 1, next := next }] } }
/-- Page 3 not yet loaded, with page 1 as its backing or none, wanted by a demand load and a reload of its last tile. -/
def loading (backing : Nat) : State :=
  let s := memory.setPage 3 (1 + backing * 2 ^ 64)
  { s with mem := { s.mem with demand := [3], reloads := [255] } }

theorem test_hyp_Migrations :
    (∀ next ∈ [[], [1 + 2 ^ 20]], Canonical (migrating next)
        ∧ (migrating next).mem.migrations.find? (fun m => m.page == 1) = some { page := 1, tier := 2, frame := 2 ^ 32 - 1, next := next })
      ∧ ∀ backing ∈ [1, 0xFFFFFFFF], Canonical (loading backing) ∧ 3 ∈ (loading backing).mem.demand ∧ 255 ∈ (loading backing).mem.reloads
          ∧ eKind ((loading backing).page 3) = 1 ∧ (loading backing).waitingSlots 3 = []
          ∧ (∀ w ∈ (loading backing).mem.waiting, pageOf w.id ≠ 3)
          ∧ (((loading backing).sourcePage (eWidth ((loading backing).page 3)) (eBacking ((loading backing).page 3))).all fun q =>
              eLoaded ((loading backing).page q) || q == 3) = true := by
  unfold Canonical; decide +kernel

theorem test_hyp_QueuedRewrite :
    let s := migrating [1 + 2 ^ 20]
    let unhooked := s.mem.migrations.map fun k => if k.page = 1 then { k with next := [] } else k
    ∃ u, exec (.migrationComplete 1) { s with mem := { s.mem with migrations := unhooked } } = .next u := ⟨_, rfl⟩

/-- An error in two symbols or bits of the unit at a device address. -/
def errorAt (a : Nat) (byScrub : Bool) (d : MemDetail) : MemError := { device := a, flips := [0, 17], byScrub := byScrub, detail := d }
/-- A memory with a page in the tile store of die 0, a moment area of one block in every HBM and one byte of millrace on base
die 0. -/
def struck : State :=
  ((memory.setPage 1 (1 + 2 ^ 20 + 3 * 2 ^ 64)).setVal P.momentRecords 8).setReg P.millraceTable 255 (1 + 2 ^ 16 + 2 ^ 32)
theorem test_hyp_MemoryErrors :
    Canonical struck ∧ struck.up 3 = true ∧ struck.val P.scrubPeriod ≠ 0
      ∧ (∀ e ∈ [errorAt 0 false .none, errorAt (2 ^ 41 - 1) true (.tableSet 63 15), errorAt (2 ^ 40 + 1978 * 2 ^ 26) true .none
            , errorAt (2 ^ 40 + 1978 * 2 ^ 26 - 1) true (.millrace 255 (2 ^ 26 - 1)), errorAt (2 ^ 33 - 1) false (.dirtyLine (2 ^ 41 - 1))
            , errorAt (2 ^ 40 + 2043 * 2 ^ 26) true .none], struck.fitsArea e = true ∧ e.flips ≠ [] ∧ eccOutcome (decide (2 ^ 40 ≤ e.device)) e.flips = some false)
      ∧ struck.struckTile (errorAt 0 false .none) = some 64 ∧ eKind (struck.page 1) = 1 ∧ eTier (struck.page 1) ≠ 3
      ∧ eBacking (struck.page 1) ≠ 0xFFFFFFFF
      ∧ eccOutcome true [3, 15] = some true ∧ eccOutcome false [3] = some true ∧ eccOutcome true [3, 16, 32] = none := by
  unfold Canonical; decide +kernel

def luWrite (m : Bool) : LuWrite := { lu := 9, slot := 64, dat := 77, page := 1, mirrored := m }
def writing (m : Bool) : State := { memory with flash := { memory.flash with writes := [luWrite m] } }.setVal P.mirrorBlocks 0
/-- Unit 9 of base die B1 written in page `k`, with a second copy where `c` names one. -/
def written (k : Nat) (c : Option Nat) : State :=
  let s := memory.setLu 9 { written := true, page := k, stripe := 9, copy := c }
  { s with flash := { s.flash with layout := [(9, [k, k + 2048])] } }
def heldPage : FlashPage := { unit := 1, seq := 0, crc := flashCrc 1 0 77, dat := 77 }
/-- The same with the page and its one neighbour in the stripe programmed. -/
def readable : State :=
  let s := written 0 (some 17)
  let s := s.setLu 17 { written := true, page := 4096, stripe := 9 }
  { s with flash := { s.flash with pages := [(0, heldPage), (2048, heldPage), (4096, { heldPage with unit := 2, crc := flashCrc 2 0 77 })] } }

theorem page_matches (u n dat : Nat) : FlashPage.matches { unit := u, seq := n, crc := flashCrc u n dat, dat := dat } u = true := by
  simp [FlashPage.matches]

theorem xor_page (u n dat : Nat) :
    (xorPages [{ unit := u, seq := n, crc := flashCrc u n dat, dat := dat }]).matches u = true := by
  simp [xorPages, FlashPage.matches]

theorem test_hyp_Flash_reads :
    readable.directRead 9 = true ∧ readable.parityRead 9 = true ∧ readable.directRead 17 = true := by
  refine ⟨?_, ?_, ?_⟩
  · rw [State.directRead, show readable.flashPage (readable.lu 9).page = heldPage from rfl, show (9 : Nat) / 8 = 1 from rfl, heldPage,
      page_matches]; decide +kernel
  · rw [State.parityRead, show readable.rebuildPages 9 = some [2048] by decide +kernel]
    show ((readable.lu 9).valid && (xorPages [heldPage]).matches 1) = true
    rw [heldPage, xor_page]; decide +kernel
  · rw [State.directRead, show readable.flashPage (readable.lu 17).page = { heldPage with unit := 2, crc := flashCrc 2 0 77 } from rfl,
      show (17 : Nat) / 8 = 2 from rfl]
    show (_ && FlashPage.matches { unit := 2, seq := 0, crc := flashCrc 2 0 77, dat := 77 } 2) = true
    rw [page_matches]; decide +kernel

theorem test_hyp_Flash :
    (∀ m : Bool, Canonical (writing m) ∧ (writing m).luQueue 1 = luWrite m :: [] ∧ (luWrite m).lu = 9
        ∧ ((writing m).lu 9).copy = none)
      ∧ (writing true).mirrorLu 9 = none
      ∧ (nth (writing false).flash.filled 1 []).length + 1 < ((writing false).stripeChans 1).2.length
      ∧ (readable.lu 9).valid = true ∧ (memory.lu 9).valid = false ∧ readable.copyOf 9 = some 17 ∧ readable.up 2 = true
      ∧ ((written 0 none).lu 9).valid = true ∧ (written 0 none).directRead 9 = false ∧ (written 0 none).parityRead 9 = false
      ∧ (written 0 none).copyOf 9 = none
      ∧ (({ memory with flash := { memory.flash with entryDue := [(9, 5, 0)] } } : State).flash.entryDue.any fun d => d.1 == 9) = true := by
  unfold Canonical; decide +kernel

theorem test_hyp_Flash_canonical : Canonical readable := by unfold Canonical; decide +kernel

def worn : State :=
  let s := (readable.setVal P.wearSpread 2).setVal P.flashScanPeriod 5
  { s with flash := { s.flash with erases := [(8, 100)], reads := [(81919, 100000)], filled := [[7], [], [], [], [], [], [], []] } }

theorem test_hyp_FlashBlocks :
    Canonical worn ∧ worn.up 2 = true ∧ nth worn.flash.filled 0 [] ≠ []
      ∧ (81919 ∉ worn.flash.retired) ∧ worn.val P.wearSpread < (worn.eraseSpread 0).2 - (worn.eraseSpread 0).1
      ∧ (worn.flash.lus.find? (fun l => l.2.valid && pageBlock l.2.page / 81920 == 0
          && Sparse.get zeros worn.flash.erases (pageBlock l.2.page) == (worn.eraseSpread 0).1)).isSome = true
      ∧ (worn.setVal P.readDisturbLimit 100000).val P.readDisturbLimit ≤ Sparse.get zeros worn.flash.reads 81919
      ∧ worn.val P.flashScanPeriod ≠ 0 ∧ (worn.scanRest 1 0).length = 2 ∧ worn.scanRest 1 3 = [] := by
  unfold Canonical; decide +kernel

/-- Port 3 up, and stream 9 used, operational, to the address 77. -/
def network : State := ((base.setReg P.linkState 3 3).setReg P.streamTable 9 (1 + 77 * 2 ^ 16 + 8 * 2 ^ 64)).setReg P.streamState 9 2
def receiving (r : Rx) : State := network.setRx 9 r
def packet (cls flags epoch seq msg ix : Nat) (pl : List Byte) : List Byte := netPacket cls flags 9 epoch seq msg 7 ix pl
def fresh : Rx := { epoch := some 5, cum := 0, limit := 20 }

/-- The header of a packet as a receiver reads it. -/
def hdr (pkt : List Byte) : Header := parseHeader pkt
/-- How the receiver sees a DATA packet of its step: whether it is of its epoch, is to be taken, is the last segment, and completes
the head message. -/
def dataSeen (s : State) (pkt : List Byte) : Option (Bool × Bool × Bool × Bool) :=
  ((s.receive 3 0 false pkt).1.filter fun h => decide (h.step ≤ s.step)).map fun h =>
    let r := s.rx h.stream
    let q := unwrap32 r.cum h.seq
    let g : RSeg := { seq := q, msg := unwrap32 r.msg h.msg, step := h.step, ix := h.ix, last := bit h.flags 1, payload := h.payload }
    (decide (r.epoch = some h.epoch), decide (q < r.limit) && !r.got.contains q && r.segs.all (fun g => g.seq != q), bit h.flags 1
    , (Rx.headMessage { r with segs := r.segs ++ [g] }).isSome)

theorem test_hyp_Data :
    Canonical (receiving fresh) ∧ dataSeen (receiving fresh) (packet 0 2 6 0 0 0 [1, 2, 3]) = some (false, true, true, true)
      ∧ dataSeen (receiving fresh) (packet 0 2 5 20 0 0 [1, 2, 3]) = some (true, false, true, true)
      ∧ dataSeen (receiving fresh) (packet 0 0 5 19 0 0 [1, 2, 3]) = some (true, true, false, false)
      ∧ dataSeen (receiving fresh) (packet 0 2 5 19 0 1 [1, 2, 3]) = some (true, true, true, false) := by
  unfold Canonical; decide +kernel

def segment (q : Nat) (sent : Option Nat) : Seg :=
  { seq := q, msg := 1, step := 7, ix := 0, first := true, last := true, payload := [9], sentAt := sent, sent := sent.isSome }
def sending (losses : Nat) : Tx :=
  { txDefault 9 with seq := 6, msg := 2, cum := 2, limit := 10, synced := true, win := 8 * 2 ^ 32, losses := losses
                     segs := [segment 2 (some 100), segment 3 (some 110), segment 5 none] }
def acked (losses : Nat) : State := (receiving { epoch := some 5, limit := 20, since := 3, firstAt := 50, ece := true }).setTx 9 (sending losses)
def ackPacket (flags : Nat) : List Byte := packet 1 flags 5 0 0 0 (beBytes 4 6 ++ beBytes 4 9 ++ beBytes 68 0)

theorem test_hyp_Ack : ∀ flags ∈ [0, 8],
    let s := acked 0
    let h := hdr (ackPacket flags)
    Canonical s ∧ (s.receive 3 1 false (ackPacket flags)).1 = some h ∧ (s.rx h.stream).epoch = some h.epoch
      ∧ (s.tx h.stream).synced = true ∧ unwrap32 (s.tx h.stream).cum (beField h.payload 0 4) ≤ (s.tx h.stream).seq ∧ bit h.flags 3 = (flags == 8) := by
  unfold Canonical; decide +kernel

theorem test_hyp_Timers :
    ((acked 0).rx 9).since ≠ 0
      ∧ (∃ g ∈ ((acked 15).tx 9).segs, g.sentAt = some 100 ∧ g.sent = true ∧ g.acked = false)
      ∧ (((acked 15).tx 9).segs.all fun g => !g.sent || g.acked || (g.sentAt.all fun t => decide (100 ≤ t))) = true
      ∧ ((acked 15).tx 9).losses + 1 = (acked 15).val P.retxAlarm := by decide +kernel

def unsynced : State := ((acked 0).setReg P.streamState 9 1).setTx 9 { sending 0 with synced := false, syncAt := 500 }
def syncPacket (kind : Nat) : List Byte := packet 2 0 5 3 2 0 [BitVec.ofNat 8 kind]

theorem test_hyp_Sync :
    (∀ kind ∈ [0, 1, 2], (unsynced.receive 3 2 false (syncPacket kind)).1 = some (hdr (syncPacket kind)) ∧ syncKind (hdr (syncPacket kind)) = kind)
      ∧ Canonical unsynced ∧ (unsynced.tx 9).synced = false ∧ unsynced.reg P.streamState 9 = 1 ∧ seUsed (unsynced.streamEntry 9) = true := by
  unfold Canonical; decide +kernel

def ports : State := { network.setReg P.linkState 4 2 with supply := supplied }
def frame : Frame :=
  { port := 3, bytes := 9216, fcsOk := true, macControl := false, vlanTagged := false, src := 5, dest := 0, nextHeader := 17, icmpType := 0
    checksumOk := true, destPort := 47000 }
def isOurs (s : State) (f : Frame) : Prop := f.dest.toNat = s.addrOf P.moduleAddress

theorem test_hyp_Ports :
    Canonical ports ∧ ports.reg P.linkState 3 = 3 ∧ portFormed ports.portMapIn 4 = true ∧ ports.reg P.linkState 4 = 2 ∧ ports.portFed 4 = true
      ∧ ports.supply.refGood = true ∧ 9216 < ({ frame with bytes := 9217 } : Frame).bytes ∧ frame.bytes ≤ 9216 ∧ isOurs ports frame
      ∧ ¬ isOurs ports { frame with dest := 1 } ∧ frame.destPort.toNat = ports.val P.streamUdpPort
      ∧ (46999 : Nat) ≠ ports.val P.streamUdpPort ∧ ports.val P.ptpRole = 0 := by
  unfold Canonical isOurs; decide +kernel

/-- Stream 9 holds one complete message of step 7. -/
def message (s : State) (bs : List Byte) : State := s.setRx 9 { epoch := some 1, cum := 0, limit := 100, segs := [⟨0, 0, 7, 0, true, bs⟩] }
def tileMessage : List Byte := msgDescriptor 0 (3 + 63 * 2 ^ 6 + 3 * 2 ^ 12) 0 0 127 0 0 0 ++ leBytes 256 0 ++ leBytes 16384 5
def tileArrived : State := message ((mapped base 1 0).setVal P.digestVerify 0) tileMessage

theorem test_hyp_NsendTile :
    let bs := ((tileArrived.applicable 9).map Prod.snd).getD []
    Canonical tileArrived ∧ (tileArrived.applicable 9).isSome = true ∧ messageKind bs = 0 ∧ tileArrived.messageCold bs = [] ∧ bit (tileArrived.val P.digestVerify) 1 = false
      ∧ tileArrived.place (tileId (beField bs 8 8)) = .mapped 127 0 ∧ Nat.log2 (receivedTile bs).1 = 0 ∧ bits (beField bs 2 2) 12 2 ≠ 0
      ∧ (((tileArrived.applicable 9).map Prod.fst).getD []).head?.map (·.step) = some tileArrived.step := by
  unfold Canonical; decide +kernel

def coll : Coll :=
  { key := 4, slot := 0, flight := 3, group := 3, step := 7, inst := 2, kind := 2, len := 1, dest := 70, size := 2, rank := 0, source := [⟨4, {}⟩]
    issued := 100 }
def collMessage (kind : Nat) : State :=
  let s := message (mapped base 1 0) (msgDescriptor kind 0 3 1 0 2 0xFFFFFFFF 5)
  { s with net := { s.net with colls := [coll] } }

theorem test_hyp_Collectives : ∀ kind ∈ [1, 2],
    let s := collMessage kind
    let x := (s.applicable 9).getD ([], [])
    Canonical s ∧ (s.applicable 9).isSome = true ∧ messageKind x.2 = kind ∧ s.collOf x.2 ((x.1.head?.map (·.step)).getD 0) = some coll
      ∧ ({ s with net := { s.net with colls := [] } } : State).collOf x.2 ((x.1.head?.map (·.step)).getD 0) = none := by
  unfold Canonical; decide +kernel

theorem test_hyp_WordTake :
    let s := collMessage 1
    s.net.colls.find? (fun c => c.slot == 0 && c.flight == 3 && c.word.isNone && !c.cold) = some coll ∧ geClosing (s.groupOf 3) = false
      ∧ geClosing ((s.setReg P.groupTable 3 (2 + 2 ^ 73)).groupOf 3) = true := by decide +kernel

def ptp (role state : Nat) : State :=
  let s := ((((base.setVal P.ptpRole role).setVal P.ptpDomain 3).setVal P.timeState state).setReg P.linkState 3 3).setVal P.ptpPort 3
  { s with net := { s.net with ptp := { s.net.ptp with twoStep := some (4, 100), delayReq := some (4, 50), syncPair := some (10, 20), good := 15
                                                       clients := [3] } } }

theorem test_hyp_Ptp :
    (∀ st ∈ [0, 1, 2, 3], (ptp 1 st).fromMaster 3 0 3 = true ∧ (ptp 1 st).val P.timeState = st ∧ Canonical (ptp 1 st))
      ∧ (ptp 1 0).fromMaster 3 1 3 = false ∧ (ptp 1 0).portUp 3 = true
      ∧ (ptp 1 0).net.ptp.twoStep = some (4, 100) ∧ (ptp 1 0).net.ptp.delayReq = some (4, 50) ∧ (ptp 1 0).net.ptp.syncPair = some (10, 20)
      ∧ (ptp 2 0).val P.ptpRole = 2 ∧ (ptp 2 0).ptpFor 2 3 3 = true
      ∧ (-80 : Int) < 100 - (30 + 0) - (ptp 1 0).net.ptp.delay ∧ 100 - (30 + 0) - (ptp 1 0).net.ptp.delay < 80
      ∧ (4000 : Int) < 100 - (-3901) - (ptp 1 0).net.ptp.delay := by
  unfold Canonical; decide +kernel

/-! Witnesses: the host port. -/

def padTo (k : Nat) (l : List Byte) : List Byte := l ++ List.replicate (k - l.length) 0
/-- The 128 bytes of a command (Table 14-7). -/
def cmdBytes (op flags inl addr hb : Nat) (args : List Byte) : List Byte :=
  padTo 128 (leBytes 1 op ++ leBytes 1 flags ++ leBytes 2 77 ++ leBytes 2 inl ++ leBytes 2 0 ++ leBytes 8 0 ++ leBytes 8 addr ++ leBytes 8 hb ++ args)
/-- Queue 3 of function 0 active, with command 5 fetched. -/
def hosting (s : State) (bs : List Byte) : State :=
  let q : HostQueue :=
    { config := 4 + 16, status := 1, sqTail := 1, head := 1, next := 6, cmds := [{ n := 5, bytes := bs, head := 1, epoch := 3 }] }
  (((s.setVal P.hostLinkState 2).setFn 0 { enable := true, running := true }).setQueue 0 3 q)
def fetched (s : State) : HostCmd := (s.startable 0 3 5).getD { n := 0, bytes := [], head := 0, epoch := 0 }
/-- The command may run: the hypothesis of every clause about a well-formed command. -/
def Runs (s : State) (op : Nat) (write : Bool) : Prop := Canonical s ∧ MayRun s 0 3 5 op write (fetched s)

def hostMemory : State := mapped base 1 0
def nopCmd : State := hosting base (cmdBytes 0 0 0 0 0 [])
def badCmd : State := hosting base (cmdBytes 0 0x10 0 0 0 [])
def paramCmd : State := hosting base (cmdBytes 2 0 0 0x1000 4096 (leBytes 8 0x2000 ++ leBytes 4 1))

theorem test_hyp_HostMalformed :
    badCmd.startable 0 3 5 = some (fetched badCmd) ∧ (fetched badCmd).opcode = 0 ∧ (fetched badCmd).malformed = true := by decide +kernel

theorem test_hyp_HostNop : Runs nopCmd 0x00 false := by unfold Runs MayRun Canonical; decide +kernel

theorem test_hyp_Param :
    let c := fetched paramCmd
    Runs paramCmd 0x02 (hasWrite (c.request (some [0]))) ∧ c.tooLong = false ∧ c.inline = false ∧ c.request (some [0]) = some [0] ∧ ([0] : List Byte).length = c.arg 0x28 4
      ∧ (paramCmd.message (paramSender 0 3) none (min c.hostBytes 4198400) [0]).1.length ≤ c.hostBytes := by
  unfold Runs MayRun Canonical; decide +kernel

def tileArgs (n mode src dst : Nat) : List Byte :=
  leBytes 8 127 ++ leBytes 4 n ++ leBytes 1 mode ++ leBytes 1 src ++ leBytes 1 dst ++ leBytes 1 0 ++ leBytes 4 0x1041 ++ leBytes 4 0 ++ leBytes 8 7
def rawUnit : List Byte := leBytes 16640 0
def rawCmd : State := hosting hostMemory (cmdBytes 0x10 0 0 0x1000 16640 (tileArgs 1 0 0 0))
def convertCmd : State := hosting hostMemory (cmdBytes 0x10 0 0 0x1000 32768 (tileArgs 1 1 3 0))

theorem test_hyp_TileWriteRaw :
    let c := fetched rawCmd
    Runs rawCmd 0x10 true ∧ rawCmd.tileWriteCode 0 c = 0 ∧ rawCmd.unloaded c.tiles = [] ∧ c.tiles = [127]
      ∧ rawCmd.place 127 = .mapped 127 0 ∧ c.arg 0x2C 1 = 0 ∧ bit (c.arg 0x2F 1) 1 = false
      ∧ c.hostBytes = (rawLens rawCmd c).foldl (· + ·) 0 ∧ fits (rawLens rawCmd c) ([rawUnit].map some) = true := by
  unfold Runs MayRun Canonical; decide +kernel

theorem test_hyp_TileWriteConvert :
    let c := fetched convertCmd
    Runs convertCmd 0x10 true ∧ convertCmd.tileWriteCode 0 c = 0 ∧ convertCmd.unloaded c.tiles = [] ∧ c.tiles = [127] ∧ c.arg 0x2C 1 = 1
      ∧ convertCmd.place 127 = .mapped 127 (fmtClass (Fmt.ofCodeD (c.arg 0x2E 1)))
      ∧ c.hostBytes = 16384 * (Fmt.ofCodeD (c.arg 0x2D 1)).bytes ∧ fits [32768] [some (leBytes 32768 0)] = true := by
  unfold Runs MayRun Canonical; decide +kernel

def readCmd : State := hosting hostMemory (cmdBytes 0x11 0 0 0x1000 16640 (leBytes 8 127 ++ leBytes 4 1))
theorem test_hyp_TileRead :
    Runs readCmd 0x11 false ∧ (fetched readCmd).tiles = [127] ∧ readCmd.inWindow 0 127 1 = true ∧ readCmd.place 127 = .mapped 127 0
      ∧ readCmd.unloaded [127] = [] ∧ (fetched readCmd).hostBytes = 256 + 16384 * classBytes 0 := by
  unfold Runs MayRun Canonical; decide +kernel

def loadCmd : State := hosting base (cmdBytes 0x20 0 0 0x1000 64 [])
def abortCmd (opened : Bool) : State := hosting (if opened then issuing [eNop] else base) (cmdBytes 0x21 0 0 0 0 (leBytes 8 7))
theorem test_hyp_TableLoadAndAbort :
    (Runs loadCmd 0x20 true ∧ (leBytes 64 1).length = (fetched loadCmd).hostBytes)
      ∧ (∀ o : Bool, Runs (abortCmd o) 0x21 true ∧ (abortCmd o).seq.opened = o) ∧ (fetched (abortCmd true)).arg 0x20 8 = (abortCmd true).step := by
  unfold Runs MayRun Canonical; decide +kernel

def tiermapCmd : State := hosting (hostMemory.setVal P.stepGate 8) (cmdBytes 0x28 0 0 0 32 [])
/-- A record for page `p`: mapped in HBM (taken), or with a reserved kind (refused). -/
def tierRecord (p w : Nat) : List Byte := leBytes 8 p ++ leBytes 8 0 ++ leBytes 16 w
def goodEntry : Nat := 1 + 2 ^ 20 + 0xFFFFFFFF * 2 ^ 64
theorem test_hyp_TiermapWrite :
    Runs tiermapCmd 0x28 true ∧ (fetched tiermapCmd).inline = false ∧ (fetched tiermapCmd).hostBytes = 32
      ∧ fits [32] [some (tierRecord 0 goodEntry)] = true ∧ tiermapCmd.gateHolds = false ∧ tiermapCmd.checkEntry 0 goodEntry = 0
      ∧ tiermapCmd.checkEntry 3 15 ≠ 0 := by
  unfold Runs MayRun Canonical; decide +kernel

def tierReadCmd : State := hosting hostMemory (cmdBytes 0x29 0 0 0x4000 32 (leBytes 8 (2 ^ 34 - 2) ++ leBytes 4 2))
def stateCmd (op : Nat) : State := hosting (hostMemory.setVal P.momentRecords 4) (cmdBytes op 0 0 0x4000 33792 (leBytes 4 0 ++ leBytes 4 3 ++ leBytes 4 1))
theorem test_hyp_TiermapReadAndState :
    (Runs tierReadCmd 0x29 false ∧ (fetched tierReadCmd).arg 0x28 4 ≠ 0 ∧ (fetched tierReadCmd).arg 0x20 8 + (fetched tierReadCmd).arg 0x28 4 ≤ 2 ^ 34
        ∧ (fetched tierReadCmd).hostBytes = 16 * (fetched tierReadCmd).arg 0x28 4)
      ∧ Runs (stateCmd 0x30) 0x30 true ∧ (stateCmd 0x30).stateCode (fetched (stateCmd 0x30)) = 0
      ∧ fits (List.replicate ((fetched (stateCmd 0x30)).arg 0x28 4) 33792) [some (leBytes 33792 3)] = true
      ∧ Runs (stateCmd 0x31) 0x31 false ∧ (stateCmd 0x31).stateCode (fetched (stateCmd 0x31)) = 0 ∧ (fetched (stateCmd 0x31)).arg 0x28 4 ≠ 0 := by
  unfold Runs MayRun Canonical; decide +kernel

/-- A PARAM whose inline request is longer than 96 bytes, one whose request does not fit, and a STATE_WRITE with no record yet. -/
def longInline : State := hosting base (cmdBytes 2 2 97 0x1000 4096 [])
def longRequest : State := hosting base (cmdBytes 2 0 0 0x1000 4096 (leBytes 8 0x2000 ++ leBytes 4 4198401))
/-- The host has switched ATS on for function 0. -/
def translated (s : State) : State := s.setFn 0 { s.hostFn 0 with cfg := { ats := true } }
theorem test_hyp_HostEdges :
    (∀ s ∈ [longInline, longRequest], Runs s 0x02 (hasWrite ((fetched s).request none)) ∧ (fetched s).tooLong = true)
      ∧ Runs (translated readCmd) 0x11 false ∧ ((translated readCmd).hostFn 0).cfg.ats = true ∧ (readCmd.hostFn 0).cfg.ats = false
      ∧ OutUnits (translated readCmd) 0 1 (some 0) 0 3 ∧ OutUnits readCmd 0 1 (some 0) 1 0
      ∧ (0 : Nat) < (fetched (stateCmd 0x30)).arg 0x28 4 ∧ fits [] [] = true := by
  unfold Runs MayRun OutUnits Canonical; decide +kernel

def linked : State := base.setVal P.hostLinkState 2
def enabled : State := linked.setFn 8 { enable := true, running := true }
theorem test_hyp_QueueEnable :
    Canonical linked ∧ linked.hostUp = true ∧ (linked.queue 8 3).enabled = false ∧ (linked.hostFn 8).running = false
      ∧ (enabled.hostFn 8).running = true ∧ 0x1000 % 4096 = 0 ∧ (0x1010 : Nat) % 4096 ≠ 0 ∧ bits 12 0 4 ≤ 12 := by
  unfold Canonical; decide +kernel

def doneCmd : HostCmd := { n := 5, bytes := cmdBytes 0 0 0 0 0 [], head := 1, epoch := 3, done := some (0, 0) }
def rings (tail : Nat) : State := nopCmd.setQueue 0 3 { nopCmd.queue 0 3 with sqTail := 3, tail := tail, cqHead := 5, cmds := [doneCmd] }
/-- Queue 3 of function 8 enabled before the function ran. -/
def awaiting : State := enabled.setQueue 8 3 { config := 4 + 16, sqBase := 0x1000 }
theorem test_hyp_QueueStart :
    Canonical awaiting ∧ (awaiting.hostFn 8).running = true ∧ (awaiting.queue 8 3).enabled = true ∧ (awaiting.queue 8 3).status = 0 := by
  unfold Canonical; decide +kernel
theorem test_hyp_Queues :
    let x := (rings 15).queue 0 3
    Canonical (rings 15) ∧ x.enabled = true ∧ x.active = true ∧ ((rings 15).hostFn 0).running = true ∧ x.lineCode 15 5 = 0 ∧ x.lineCode 16 5 ≠ 0
      ∧ x.head ≠ x.sqTail ∧ x.cmds.length < 64 ∧ ((rings 15).hostFn 0).held < 256 ∧ x.cmds.find? (fun c => c.n == 5) = some doneCmd
      ∧ (∀ k ∈ x.cmds, k.n = 5 → k = doneCmd) ∧ (x.tail + 1) % x.size ≠ x.cqHead ∧ (∀ k ∈ x.cmds, k.done.isSome = true → doneCmd.order ≤ k.order) := by
  unfold Canonical; decide +kernel

def quiesced : State := (rings 0).setFn 0 { (rings 0).hostFn 0 with quiesced := false, again := none }
def unlinked (perst : Bool) : State := { base with host := { base.host with perst := perst }, supply := supplied }
theorem test_hyp_HostFunctions :
    (linked.hostFn 8).enable = false ∧ (linked.hostFn 8).quiesced = true ∧ linked.up 3 = true ∧ ((rings 0).hostFn 0).enable = true
      ∧ (quiesced.hostFn 0).quiesced = false ∧ (quiesced.hostFn 0).again = none ∧ (unlinked false).hostUp = false
      ∧ (unlinked false).hostPresent = true ∧ (unlinked true).host.perst = true ∧ (unlinked true).boot ≠ 6 := by decide +kernel

def resetCmd : State := { hosting base (cmdBytes 0x38 0 0 0 0 (leBytes 4 0x54535752)) with supply := supplied }
theorem test_hyp_ModuleReset :
    resetCmd.startable 0 3 5 = some (fetched resetCmd) ∧ (fetched resetCmd).opcode = 0x38 ∧ (fetched resetCmd).malformed = false
      ∧ (fetched resetCmd).arg 0x20 4 = 0x54535752 := by decide +kernel

/-! Witnesses: directory, firmware, events, snapshots, endpoints. -/

def byMctp : Requester := { transport := 2, fn := 0, source := 9 }
def byHost : Requester := { transport := 1, fn := 1, source := 0 }
def directory : State := base.setReg P.transportRights 2 3
def recordOf (op : Byte) (p off len : Nat) (d : List Byte) : DirRecord :=
  { op, res0 := 0, tag := 5, index := BitVec.ofNat 16 (p / 256), sub := BitVec.ofNat 8 p, res1 := 0, offset := BitVec.ofNat 32 off
    length := BitVec.ofNat 32 len, data := d }
/-- The row of a parameter, where it has one. -/
def rowB (p : Nat) (f : ParamRow → Bool) : Bool :=
  match rowOf p with
  | some r => f r
  | none => false

theorem test_hyp_Directory :
    Canonical directory ∧ directory.answers byMctp = true ∧ directory.answers byHost = true
      ∧ (∀ w ∈ [byMctp, byHost], 60 ≤ directory.responseLimit w ∧ ∀ op ∈ [(1 : Byte), 2, 3, 4],
          Heard directory w (recordOf op P.bootState 0 1 [7])) ∧ (State.reset.answers byMctp = false) ∧ bit (directory.rights byHost) 0 = false
      ∧ bit (directory.rights byHost) 1 = false ∧ bit (directory.rights byMctp) 0 = true ∧ bit (directory.rights byMctp) 1 = true
      ∧ rowOf 0x123456 = none ∧ directory.boot ≤ 4 ∧ (nextParam P.bootState).isSome = true
      ∧ rowB P.bootState (fun r => directory.objectThere r.index && directory.loaded r && spanOk r false 0 1
          && decide (r.access = .ro ∨ r.access = .rs)
          && decide ((directory.readParam P.bootState r 0 1).1.length + 28 ≤ directory.responseLimit byMctp)) = true
      ∧ rowB P.stepGate (fun r => directory.objectThere r.index && directory.loaded r && decide (r.access ≠ .ro ∧ r.access ≠ .rs)
          && !spanOk r true 1 1) = true := by
  unfold Canonical Heard; decide +kernel

def readMessage : List Byte := [1, 1, 0, 0] ++ leBytes 1 1 ++ [0] ++ leBytes 2 5 ++ leBytes 2 (P.bootState / 256) ++ leBytes 1 P.bootState ++ [0]
  ++ leBytes 4 0 ++ leBytes 4 1
/-- A message over MCTP whose answer is still kept. -/
def repeated : State := (directory.receiveMessage byMctp none readMessage).2
theorem test_hyp_Messages :
    parseMessage [0] = none ∧ parseMessage readMessage = some (false, [recordOf 1 P.bootState 0 1 []])
      ∧ (repeated.keptAnswer byMctp readMessage).isSome = true ∧ directory.keptAnswer byMctp readMessage = none
      ∧ readMessage.length ≤ directory.requestLimit byMctp ∧ viaMctp byMctp = true ∧ viaMctp byHost = false
      ∧ directory.requestLimit byMctp < 4097 ∧ [(1 : Byte), 2, 3, 4].take 4 ≠ directory.ianaPrefix := by decide +kernel

/-- A write of `d` to parameter `p` passes its checks and is to be held. -/
def holdable (s : State) (p : Nat) (d : List Byte) : Bool :=
  rowB p fun r => spanOk r true 0 d.length && decide (s.rwsBytes + d.length ≤ s.val P.rwsLimit)
    && (s.checkWrite p (putParam s.heldParams p 0 (maskBytes p d))).ok
/-- Booting, with a module address and room for moment records: tables may be written, and take effect at once. -/
def tabled : State :=
  ((((base.setReg P.transportRights 2 3).setVal P.bootState 1).setVal P.moduleAddress (leNat (beBytes 16 77))).setVal P.momentRecords 16).setReg P.layerTable 3 (0xFF + 0xFF * 2 ^ 16)
def gated : State := tabled.setVal P.stepGate 1000
/-- One row for each table: a used shard, an unused layer, a program of one RET and 31 NOPs, an unused millrace descriptor, an
address, a free member, an unused port group, an unused channel, an unused range and a seed. -/
def rowsHeld : List (Nat × List Byte) :=
  [(P.shardTable, leBytes 128 (shardDesc + 2 ^ 192)), (P.layerTable, leBytes 16 (0xFF + 0xFF * 2 ^ 16)), (P.program, leBytes 128 0x1F)
  , (P.program + 7, leBytes 128 0x1F), (P.millraceTable, leBytes 32 0), (P.moduleAddress, beBytes 16 78), (P.moduleAddress + 4, leBytes 2 0)
  , (P.portMap, [0]), (P.watchChannelMap, leBytes 2 0), (P.layerRanges, leBytes 16 0), (P.riffleSeed, leBytes 8 5)]
/-- The write of `d` to parameter `p` over MCTP is granted (R332, R334, R336). -/
def GrantedOf (s : State) (p : Nat) (d : List Byte) : Prop := Granted s byMctp (writeRec p 0 d)
theorem test_hyp_TableWrites :
    Canonical gated ∧ gated.boot ≤ 4 ∧ gated.gateHolds = false
      ∧ ∀ x ∈ rowsHeld, GrantedOf gated x.1 x.2 ∧ holdable gated x.1 x.2 = true := by
  unfold GrantedOf Granted Heard Canonical; decide +kernel
theorem test_hyp_TableWrites_gate :
    GrantedOf directory P.riffleSeed (leBytes 8 5) ∧ directory.boot ≤ 4 ∧ directory.gateHolds = true
      ∧ holdable directory P.riffleSeed (leBytes 8 5) = true := by
  unfold GrantedOf Granted Heard; decide +kernel
def weirAccepts (s : State) (p v : Nat) : Bool := (checkWeir (putParam s.params p 0 (maskBytes p (leBytes 4 v))) p).ok
theorem test_hyp_WeirParameterWrites :
    Canonical tabled ∧ GrantedOf tabled P.powerLimit (leBytes 4 3000) ∧ GrantedOf tabled P.powerLimit (leBytes 4 9999999) ∧ P.powerLimit / 256 = 0x2000 ∧ rowB P.powerLimit (fun r => decide (r.access = .rw) && tabled.loaded r
      && spanOk r true 0 4 && decide (r.ty ≠ .f32)) = true
      ∧ weirAccepts tabled P.powerLimit 3000 = true ∧ weirAccepts tabled P.powerLimit 9999999 = false := by
  unfold GrantedOf Granted Heard Canonical; decide +kernel

/-! Firmware. -/

def bootRecord (tr : Nat) : BootRec := { seq := 5, preferred := 0, trial := tr, svnFloor := 3, keyFloor := 2 }
def trying (tr sl : Nat) (tb : Bool) : State :=
  { tabled with nor := { tabled.nor with boot0 := some (bootRecord tr) }
                fw := { tabled.fw with slot := sl, trialBoot := tb, staged := [(3, 5)], stagedAny := true } }
theorem test_hyp_Firmware :
    Canonical tabled ∧ (∀ n ∈ [1, 2, 3, 4], GrantedOf tabled P.fwCommand (leBytes 1 n)) ∧ tabled.fwState ≠ 2
      ∧ Sparse.wf zeros tabled.fw.staged = true ∧ Canonical (tabled.setVal P.fwStatus 0x100) ∧ (tabled.setVal P.fwStatus 0x100).fwState = 1
      ∧ GrantedOf (tabled.setVal P.fwStatus 0x100) P.fwCommand (leBytes 1 2)
      ∧ ((tabled.setVal P.fwStatus 0x100).bootRec.map (·.trial)).getD 0xFF = 0xFF ∧ tabled.boot ≠ 6
      ∧ (∀ n ∈ [2, 3], ∀ tb : Bool, GrantedOf (trying 1 1 tb) P.fwCommand (leBytes 1 n)) ∧ (trying 1 1 true).fwState ≠ 2
      ∧ (trying 1 1 true).bootRec = some (bootRecord 1)
      ∧ ((trying 1 1 true).bootRec.map (·.trial)).getD 0xFF ≠ 0xFF ∧ (trying 1 1 true).boot ≠ 6
      ∧ (bootRecord 1).trial = (trying 1 1 true).fw.slot ∧ (bootRecord 1).trial ≠ (trying 1 0 true).fw.slot
      ∧ (trying 1 1 false).bootRec = some (bootRecord 1) ∧ (trying 1 1 false).fw.trialBoot = false := by
  unfold GrantedOf Granted Heard Canonical; decide +kernel
theorem length_leBytes (n x : Nat) : (leBytes n x).length = n := by
  induction n generalizing x with
  | zero => rfl
  | succ n ih => simp [leBytes, ih]
theorem test_hyp_FirmwareImage : ∃ (who : Requester) (data : List Byte), Granted tabled who (writeRec P.fwImage (8192 : W32).toNat data)
    ∧ data ≠ [] ∧ (8192 : W32).toNat % 4096 = 0 ∧ data.length % 4096 = 0 ∧ (8192 : W32).toNat + data.length ≤ 4096 * 6144 := by
  have h : ∃ data : List Byte, data.length = 8192 := ⟨List.replicate 8192 7, List.length_replicate⟩
  obtain ⟨data, h⟩ := h
  have e : (8192 : W32).toNat = 8192 := by decide
  refine ⟨{ transport := 0, fn := 0, source := 0 }, data, ⟨⟨by decide +kernel, ?_, ?_, ?_⟩, by decide +kernel⟩, ?_, ?_, ?_, ?_⟩
  · simp [recordMessage, writeRec, length_leBytes, h, State.requestLimit, State.responseLimit]
  · simp [writeRec, h]
  · simp
  · rintro rfl; simp at h
  · omega
  · omega
  · omega

/-! Single writes. -/

/-- A mapped entry of bank 0. -/
def entryGood : BitVec 128 := BitVec.ofNat 128 (1 + 2 ^ 20 + 0xFFFFFFFF * 2 ^ 64)
/-- Ready, with the gate ahead. -/
def ahead : State := directory.setVal P.stepGate 1000
def checkpoint3 : Checkpoint :=
  { number := 3, step := 6, first := 0, granules := 1, bytes := 0, optStep := 0, updateSeed := 0, accumSeed := 0, sections := [] }
def journalled : State := { gated with journal := { gated.journal with complete := [checkpoint3] } }
/-- A granule of the first block of HBM B0. -/
def granule : Nat := hbBase + 64
theorem test_hyp_SingleWrites :
    Canonical gated ∧ gated.boot ≤ 4 ∧ (gated.rill 9).shaking = false
      ∧ (∀ x ∈ [(P.rillRetrain, 1, 9), (P.screenRequest, 1, 0), (P.screenRequest, 1, 71), (P.signatureAck, 8, 3), (P.stepGate, 8, 9)
          , (P.retireRequest, 4, granule), (P.stepFlagRaise, 8, 0x300), (P.stickyClear, 1, 1), (P.riffleClear, 1, 1), (P.rwsCancel, 1, 1)
          , (P.offenderLatch + 127, 32, 1), (P.guardRecord + 63, 16, 2 ^ 23)], GrantedOf gated x.1 (leBytes x.2.1 x.2.2))
      ∧ gated.posState 0 = 0 ∧ (gated.spareOf 0).isSome = true ∧ gated.posState 71 = 0 ∧ (gated.spareOf 7).isSome = true
      ∧ (granule - hbBase) / 64 % 2048 < gated.hbBlocks 0 ∧ gated.mem.retired = [] ∧ gated.seq.opened = false ∧ gated.upd.restoring = none
      ∧ gated.seq.latched = [] ∧ (gated.step < 9 ∨ gated.boot ≠ 4) := by
  unfold GrantedOf Granted Heard Canonical; decide +kernel
theorem test_hyp_SingleWrites_ready :
    Canonical ahead ∧ ahead.boot ≤ 4 ∧ ahead.up 3 = true ∧ ahead.gateHolds = false
      ∧ (∀ e ∈ [entryGood.toNat, 15], GrantedOf ahead P.tierMapEntry (leBytes 16 e))
      ∧ ahead.checkEntry (ahead.val P.tierMapCursor) entryGood.toNat = 0 ∧ ahead.checkEntry (ahead.val P.tierMapCursor) 15 ≠ 0 ∧ gated.boot ≠ 4
      ∧ Canonical directory ∧ GrantedOf directory P.stepGate (leBytes 8 7) ∧ directory.boot = 4 ∧ directory.seq.opened = false
      ∧ 7 ≤ directory.step := by
  unfold GrantedOf Granted Heard Canonical; decide +kernel
def flagging : State := (issuing [0]).setReg P.transportRights 2 3
theorem test_hyp_SingleWrites_open :
    Canonical flagging ∧ GrantedOf flagging P.stepFlagRaise (leBytes 8 0x300) ∧ flagging.boot ≤ 4
      ∧ flagging.seq.opened = true ∧ flagging.seq.wordTaken = false := by
  unfold GrantedOf Granted Heard Canonical; decide +kernel
/-- Array 1 of die 63 has latched an offender in the present ac. -/
def latching : State := { gated with seq := { gated.seq with latched := [{ latch := 127, ac := gated.ac, word := 3, missed := false }] } }
theorem test_hyp_LatchedNow : Canonical latching ∧ GrantedOf latching (P.offenderLatch + 127) (leBytes 32 1)
    ∧ (latching.seq.latched.find? fun e => e.latch == 2 * 63 + 1 && e.ac == latching.ac).isSome = true := by
  unfold GrantedOf Granted Heard Canonical; decide +kernel
theorem test_hyp_Restore :
    Canonical journalled ∧ GrantedOf journalled P.restoreRequest (leBytes 8 6) ∧ journalled.boot ≤ 4 ∧ journalled.upd.restoring = none
      ∧ journalled.seq.opened = false ∧ journalled.checkpointOf 6 = some checkpoint3 ∧ journalled.sectionsMatch checkpoint3 = true := by
  unfold GrantedOf Granted Heard Canonical; decide +kernel

/-! Events and snapshots. -/

def event (n t : Nat) : Event :=
  { seq := n, cls := 7, code := 1, flags := 0, time := t, step := 3, source := 4, repeats := 0, d0 := 1, d1 := 2 }
def ring : State := ((directory.setVal P.eventRingBase 0x10000).setVal P.eventRingSize 6).setVal P.eventRingLine 64
def ringing : State :=
  { ((ring.setVal P.hostLinkState 2).setVal P.eventRingEnable 1) with
    log := { ring.log with events := [event 4 5, event 3 5, event 2 5], ringNext := 3, ringTail := 63, ringPhase := 1
                           sinkQueue := [(0x81, (event 4 5).bytes)] } }
def sinking (n : Nat) : State :=
  { ((ringing.setVal P.eventSinkAddress 5).setVal P.mgmtLink 1) with log := { ringing.log with sinkSent := n, sinkSec := 0 } }
def shadowing : State := { directory with log := { directory.log with copying := some (7, 8, 1, []) } }
theorem test_hyp_EventRing :
    Canonical ring ∧ (∀ v ∈ [0, 1], GrantedOf ring P.eventRingEnable [v]) ∧ ring.boot ≤ 4 ∧ ring.checkRing 0 = 0 ∧ ring.checkRing 64 ≠ 0
      ∧ Canonical ringing ∧ ringing.val P.eventRingEnable = 1 ∧ ringing.hostUp = true
      ∧ (ringing.log.ringTail + 1) % 2 ^ ringing.val P.eventRingSize = 0
      ∧ (ringing.log.events.reverse.find? fun e => decide (ringing.log.ringNext ≤ e.seq)) = some (event 3 5) := by
  unfold GrantedOf Granted Heard Canonical; decide +kernel
theorem test_hyp_EventSink :
    Canonical (sinking 0) ∧ nextDatagram (sinking 0).log.sinkQueue ≠ [] ∧ (sinking 0).val P.eventSinkAddress ≠ 0
      ∧ (sinking 0).val P.mgmtLink = 1 ∧ (sinking 0).log.sinkSec = (sinking 0).clock.now / 9000000000
      ∧ (sinking 1999).log.sinkSent < 2000 ∧ 2000 ≤ (sinking 2000).log.sinkSent := by
  unfold Canonical; decide +kernel
theorem test_hyp_Snapshots :
    (∀ s ∈ [directory, shadowing], Canonical s ∧ s.boot ≤ 4 ∧ ∀ p ∈ [P.snapshotTime, P.snapshotStep], GrantedOf s p (leBytes 8 900))
      ∧ directory.log.copying = none ∧ (19999 < directory.panelTime + 20000 ∧ ¬ 20000 < directory.panelTime + 20000)
      ∧ shadowing.log.copying = some (7, 8, 1, [])
      ∧ Canonical { directory with log := { directory.log with snapAt := some 900 } } := by
  unfold GrantedOf Granted Heard Canonical; decide +kernel

/-- Two records of one event at time 0, and the panel's clock at `now` cycles of ROOT. -/
def logged (now : Nat) : State :=
  { base with log := { base.log with events := [event 3 0, event 2 0] }, clock := { base.clock with now := now } }
theorem test_hyp_Events :
    Canonical (logged 5000) ∧ (logged 5000).panelTime < 0 + (logged 5000).val P.eventHoldoff * 1000
      ∧ 0 + (logged 5000).val P.eventHoldoff * 1000 ≤ (logged 2000000000).panelTime
      ∧ (logged 5000).log.events = [] ++ event 3 0 :: [event 2 0]
      ∧ (∀ e ∈ (logged 5000).log.events, ¬ (e.cls = 7 ∧ e.code = 2 ∧ e.source = 4)) := by
  unfold Canonical; decide +kernel

/-! Endpoints. -/

def netUp : State := (((directory.setReg P.linkState 3 3).setVal P.mgmtLink 1).setVal P.moduleAddress (leNat (beBytes 16 77))).setVal P.hostLinkState 2
def managed : State := { (netUp.setReg P.transportRights 4 3).setReg P.transportRights 5 3 with supply := { netUp.supply with released := true } }
def manager : Endpoint := { addr := 9, port := 700 }
/-- Stream 9 is allocated; `m` sets the bit that admits management. -/
def streamFor (m : Nat) : State := ((managed.setReg P.streamTable 9 (1 + 77 * 2 ^ 16 + m * 2 ^ 256 + 8 * 2 ^ 64)).setReg P.streamState 9 2).setVal P.mgmtOnData 1
theorem test_hyp_Endpoints :
    Canonical managed ∧ managed.carrierUp (.data 3) = true ∧ managed.hasAddress (.data 3) 77 = true ∧ managed.hasAddress (.data 3) 78 = false
      ∧ managed.supply.released = true ∧ managed.up 1 = true ∧ managed.mctpUp true = true ∧ managed.mctpUp false = true ∧ managed.dir.i3cAddr = 0
      ∧ managed.boot ≤ 4 ∧ managed.val P.identityState = 0 ∧ (managed.setVal P.identityState 1).val P.identityState ≠ 0
      ∧ managed.val P.mgmtLink = 1 ∧ managed.hasAddress .mgmt (linkLocal (managed.val P.mgmtMac)) = true
      ∧ managed.portUp 3 = true ∧ seMgmt ((streamFor 0).streamEntry 9) = false ∧ seMgmt ((streamFor 1).streamEntry 9) = true
      ∧ (streamFor 1).val P.mgmtOnData = 1 ∧ Canonical (streamFor 1) := by
  unfold Canonical; decide +kernel
theorem test_hyp_MgmtDatagram :
    let h := parseHeader (mgmtPacket readMessage)
    h.crcOk = true ∧ h.version = 1 ∧ h.cls = 3 ∧ ((managed.receiveMessage (ethSender 4 manager) none h.payload).1).isSome = true := by
  decide +kernel
theorem test_hyp_MgmtOnData :
    let pkt := netPacket 3 0 9 5 0 0 0 0 readMessage
    let s := streamFor 1
    (s.receive 3 3 false pkt).1.isSome = true ∧ (s.receive 3 3 false pkt).2 = s
      ∧ ((s.receiveMessage (ethSender 5 manager) none (parseHeader pkt).payload).1).isSome = true := by
  decide +kernel

/-! Witnesses of the statement of completion that no other statement's witness shows. -/

theorem test_hyp_Completion :
    warm.supply.released = true ∧ flt 0x421FFFFF (warm.level 6) = true
      ∧ (captured rechecked).upd.steps.find? (fun r => (r.shard 5).any fun x => x.stage == 1) = some rechecked
      ∧ (∀ q ∈ (withSteps [finalStep]).closingRanks, ((withSteps [finalStep]).commitFrom 7 q).isSome = true)
      ∧ viaMctp byHost = false ∧ directory.answers byHost = true ∧ readMessage.length ≤ directory.requestLimit byHost
      ∧ (∀ e ∈ gated.seq.latched, e.ac ≠ gated.ac) ∧ bit 1 0 = true := by
  refine ⟨by decide +kernel, by decide +kernel, by decide +kernel, ?_⟩
  decide +kernel

/-! Witnesses: the step, the reset record, the invariant of every step; and the operands that are not well formed. -/

def stepping : State := { State.reset with pending := [.powerGearRise, .enableOpen] }
theorem test_hyp_Step : stepping.pending = .powerGearRise :: [.enableOpen] ∧ State.reset.pending = [] ∧ Canonical stepping ∧ Bounded stepping
    ∧ (match step stepping with
       | .next t => decide (t.pending = [.enableOpen])
       | _ => false) = true := by
  unfold Canonical Bounded; decide +kernel
theorem test_hyp_ResetRecord : ∀ used : Bool,
    let s : State := { powering with nor := { powering.nor with cause := 3 + 2 ^ 8 * 95 + 2 ^ 16, consumed := used } }
    Canonical s ∧ s.supply.powering = true ∧ s.supply.refGood = true ∧ s.nor.cause < 2 ^ 32 ∧ s.nor.consumed = used := by
  unfold Canonical; decide +kernel

def sample : WeirReadings := { pIn := 0, rails := List.replicate 6 0, temps := List.replicate 96 0, inlet := 0, outlet := 0, vIn := 0 }
def panelTest : PanelTest :=
  { fieldBad := false, badPositions := [5], bondFaults := [], rills := List.replicate 10 { faults := [], attempts := [] }, badChannels := [1]
    lostUnits := [] }
theorem test_wf_samples :
    (Instr.weirSample sample).wellFormed = true ∧ (Instr.weirSample { sample with rails := [] }).wellFormed = false
      ∧ (Instr.weirSample { sample with temps := [] }).wellFormed = false ∧ (Instr.enterPanel panelTest).wellFormed = true
      ∧ (Instr.enterPanel { panelTest with rills := [] }).wellFormed = false
      ∧ (Instr.enterPanel { panelTest with badPositions := [5, 5] }).wellFormed = false
      ∧ (Instr.enterPanel { panelTest with badChannels := [1, 1] }).wellFormed = false := by decide +kernel
theorem test_wf_records :
    (Instr.read byMctp (recordOf 1 P.bootState 0 1 [])).wellFormed = true ∧ (Instr.read byMctp (recordOf 2 P.bootState 0 0 [])).wellFormed = false
      ∧ (Instr.read byMctp (recordOf 1 P.bootState 0 1 [0])).wellFormed = false ∧ (Instr.write byMctp (recordOf 2 P.stepGate 0 1 [0])).wellFormed = true
      ∧ (Instr.write byMctp (recordOf 2 P.stepGate 0 2 [0])).wellFormed = false
      ∧ (Instr.write byMctp (recordOf 1 P.stepGate 0 0 [])).wellFormed = false
      ∧ (Instr.describe byMctp (recordOf 4 P.stepGate 0 0 [])).wellFormed = false
      ∧ (Instr.next byMctp (recordOf 3 P.stepGate 0 0 [])).wellFormed = false
      ∧ (Instr.weirParameterWrite byMctp 0x2030 0 0 []).wellFormed = false
      ∧ (Instr.weirParameterWrite byMctp 0x2020 0 0 []).wellFormed = true := by decide +kernel
theorem test_wf_host :
    (Instr.commandFetch 0 0 (some [])).wellFormed = false ∧ (Instr.commandFetch 0 0 none).wellFormed = true
      ∧ (Instr.tiermapWrite 0 0 0 [some [0]]).wellFormed = false ∧ (Instr.tiermapWrite 0 0 0 [none]).wellFormed = true
      ∧ (Instr.stateWrite 0 0 0 [some [0]]).wellFormed = false ∧ (Instr.stateWrite 0 0 0 [none]).wellFormed = true
      ∧ (Instr.hostLinkUp 33 8).wellFormed = false ∧ (Instr.hostLinkUp 32 2).wellFormed = false
      ∧ (Instr.hostLinkUp 64 16).wellFormed = true := by decide +kernel

/-! The spec's own worked values. -/

/-- R63: the check value over "123456789". -/
theorem test_crc64 : crc64 [0x31, 0x32, 0x33, 0x34, 0x35, 0x36, 0x37, 0x38, 0x39] = 0x6C40DF5F0B497347 := by decide +kernel
/-- Table 3-4, the rows of 500.0, 2^-10 and minus infinity. -/
theorem test_convert :
    let big := f32 0x43FA0000
    let small := f32 0x3A800000
    let minf := f32 0xFF800000
    convert big .e4m3 .sat = (0x7E, flagOVF) ∧ convert big .e5m2 .sat = (0x60, 0) ∧ convert big .int8 .sat = (0x7F, flagOVF)
      ∧ convert big .fp16 .sat = (0x5FD0, 0) ∧ convert small .e4m3 .sat = (0x00, flagUNF) ∧ convert small .e5m2 .sat = (0x14, 0)
      ∧ convert minf .e5m2 .sat = (0xFB, flagOVF) ∧ convert minf .e5m2 .ieee = (0xFC, 0) ∧ convert minf .bf16 .sat = (0xFF7F, flagOVF)
      ∧ convert (f32 0x7FC00001) .int8 .sat = (0x00, flagINV) := by decide +kernel
/-- R77: the exact cancellation of E5M2, and the truncation of BF16. -/
theorem test_passSum :
    let row (xs : List Nat) : List Nat := xs ++ List.replicate 125 0
    let x := passSum .e5m2 .e5m2 0x7F 0x7F (row [0x6C, 0x3C, 0xEC]) (row [0x6C, 0x3C, 0x6C])
    let y := passSum .bf16 .bf16 0x7F 0x7F (row [0x5380, 0x5380, 0x3F81]) (row [0x4980, 0xC980, 0x3E01])
    convert x.val .fp32 .ieee = (0x3F800000, 0) ∧ x.loss = false ∧ convert y.val .fp32 .ieee = (0x3E020000, 0) ∧ y.loss = true := by
  decide +kernel
/-- R91: the half-width addition worked in chapter 5, for its two random values. -/
theorem test_srBf16 :
    let v : Val := .fin false 1539 1 (-9)
    srBf16 v 0xC35A = (0x4041, 0) ∧ srBf16 v 0x1F00 = (0x4040, 0) := by decide +kernel

end Sys2Proof.Tests
end

/-! PROOF. The tokens of an issue (R29). `KeepsTokens` for what leaves every token count alone, one lemma for each shared
operation of the meanings of entries and one for each meaning; `exec_eq_tryIssue`, which names the meaning that each of the
26 commands issues with; and what an issue takes from the awaited tokens. -/

namespace Sys2Proof.TokenLaws

open Sys2Proof.Machine Sys2Proof.Claims Sys2Proof.IssueLaws

/-! What an issue takes. -/

/-- An entry awaits no token twice. -/
theorem enWaits_nodup (e : Nat) : (enWaits e).Nodup :=
  ((List.nodup_range (n := 16)).filter _).map fun _ _ h => Nat.add_left_cancel h

/-- One token less; a token beyond the list reads 0 before and after. -/
theorem nth_set_pred (ts : List Nat) (j k : Nat) :
    nth (ts.set j (nth ts j 0 - 1)) k 0 = if k = j then nth ts k 0 - 1 else nth ts k 0 := by
  simp only [nth, List.getD_eq_getElem?_getD, List.getElem?_set]
  by_cases hkj : k = j
  · subst hkj
    by_cases hk : k < ts.length
    · simp [hk]
    · simp [hk]
  · simp [hkj, Ne.symm hkj]

/-- Tokens that are listed once are each lowered by 1. -/
theorem nth_foldl_set_pred {ks : List Nat} (hks : ks.Nodup) (ts : List Nat) (k : Nat) :
    nth (ks.foldl (fun ts j => ts.set j (nth ts j 0 - 1)) ts) k 0 = if k ∈ ks then nth ts k 0 - 1 else nth ts k 0 := by
  induction ks generalizing ts with
  | nil => rfl
  | cons j ks ih =>
    obtain ⟨hj, hks⟩ := List.nodup_cons.1 hks
    rw [List.foldl_cons, ih hks, nth_set_pred]
    by_cases hkj : k = j
    · subst hkj
      simp [hj]
    · simp [hkj]

/-- R29: each awaited token is lowered by 1, and no other. -/
theorem nth_tokensTaken (s : State) (sl e k : Nat) :
    nth (tokensTaken s sl e) k 0 = if k ∈ enWaits e then (s.die sl).token k - 1 else (s.die sl).token k :=
  nth_foldl_set_pred (enWaits_nodup e) _ k

/-! What leaves the token counts alone. -/

/-- Every die holds the token counts it held (in a canonical list of dies, which stays one). -/
structure KeepsTokens (s t : State) : Prop where
  wf : Sparse.wf dieDefault s.seq.dies = true → Sparse.wf dieDefault t.seq.dies = true
  tokens : Sparse.wf dieDefault s.seq.dies = true → ∀ sl, (t.die sl).tokens = (s.die sl).tokens

namespace KeepsTokens

theorem refl (s : State) : KeepsTokens s s := ⟨id, fun _ _ => rfl⟩

theorem trans {s t u : State} (h : KeepsTokens s t) (g : KeepsTokens t u) : KeepsTokens s u :=
  ⟨fun w => g.wf (h.wf w), fun w sl => (g.tokens (h.wf w) sl).trans (h.tokens w sl)⟩

theorem of_dies {s t : State} (h : t.seq.dies = s.seq.dies) : KeepsTokens s t :=
  ⟨fun w => h ▸ w, fun _ sl => by simp only [State.die, h]⟩

theorem of_seq {s t : State} (h : t.seq = s.seq) : KeepsTokens s t := of_dies (congrArg Seq.dies h)

theorem setDie (s : State) (sl : Nat) {d : Die} (h : d.tokens = (s.die sl).tokens) : KeepsTokens s (s.setDie sl d) :=
  ⟨Sparse.wf_put sl d, fun w k => by
    by_cases hk : k = sl
    · rw [hk, State.die_setDie_same, h]
    · rw [State.die_setDie_other s d w hk]⟩

theorem foldl {α : Type} {f : State → α → State} (hf : ∀ t x, KeepsTokens t (f t x)) (xs : List α) (s : State) :
    KeepsTokens s (xs.foldl f s) := by
  induction xs generalizing s with
  | nil => exact refl s
  | cons x xs ih => exact (hf s x).trans (ih _)

/-! The unit of an entry. -/

theorem setArray (s : State) (sl a : Nat) (x : ArrayState) : KeepsTokens s (s.setArray sl a x) :=
  setDie s sl (KeepsDie.setArray _ a x).tokens

theorem modStream (s : State) (c : Ctx) (f : Stream → Stream) : KeepsTokens s (s.modStream c f) := setDie s _ rfl

theorem busyVector (s : State) (c : Ctx) (n late : Nat) : KeepsTokens s (s.busyVector c n late) := setDie s _ rfl

theorem busyReducer (s : State) (c : Ctx) (n late : Nat) : KeepsTokens s (s.busyReducer c n late) := setDie s _ rfl

theorem flightReady (s : State) (sl id t : Nat) : KeepsTokens s (s.flightReady sl id t) := setDie s _ rfl

/-! Operands. -/

theorem readOperand (s : State) (sl id : Nat) (f : Fmt) : KeepsTokens s (s.readOperand sl id f).2 :=
  of_seq (seq_readOperand s sl id f)

theorem readIndex (s : State) (sl id : Nat) : KeepsTokens s (s.readIndex sl id).2 := of_seq (seq_readIndex s sl id)

theorem readRaw (s : State) (sl id w : Nat) : KeepsTokens s (s.readRaw sl id w).2.2 := of_seq (seq_readRaw s sl id w)

theorem verifyTile (s : State) (acct id w : Nat) (t : Tile) (v : Bool) : KeepsTokens s (s.verifyTile acct id w t v).2 :=
  of_seq (seq_verify s acct id w t v)

theorem sendMessage (s : State) (ns step : Nat) (bs : List Byte) : KeepsTokens s (s.sendMessage ns step bs).2 :=
  of_seq (seq_sendMessage s ns step bs)

theorem operandDelay (s : State) (sl : Nat) (ids : List Nat) : KeepsTokens s (s.operandDelay sl ids).2 := by
  unfold State.operandDelay
  split
  · exact refl s
  · exact of_seq rfl

/-- An operand that is read once it has arrived (R36). -/
theorem delayedOperand (s : State) (sl : Nat) (ids : List Nat) (id : Nat) (f : Fmt) :
    KeepsTokens s ((s.operandDelay sl ids).2.readOperand sl id f).2 :=
  (operandDelay s sl ids).trans (readOperand _ sl id f)

theorem fillMma (s : State) (sl : Nat) (j : MmaJob) : KeepsTokens s (s.fillMma sl j).2 :=
  (delayedOperand s sl _ _ _).trans (readOperand _ sl _ _)

/-! Writes of tiles, and the messages of collectives (R239). -/

theorem condition (s : State) (w : Nat) : KeepsTokens s (s.condition w) := by
  apply of_dies
  unfold State.condition
  dsimp only
  split_ifs <;> rfl

theorem putStored (s : State) (id : Nat) (t : Tile) : KeepsTokens s (s.putStored id t) := by
  unfold State.putStored
  dsimp only
  split <;> exact of_seq rfl

theorem storeTile (s : State) (acct id cls : Nat) (t : Tile) : KeepsTokens s (s.storeTile acct id cls t).2 := by
  unfold State.storeTile
  split
  · exact of_seq (seq_unmapped ..)
  · exact of_seq (by rw [seq_raise]; rfl)
  · exact of_seq (by rw [seq_raise]; rfl)
  · dsimp only
    split
    · exact putStored ..
    · exact (putStored ..).trans (of_seq rfl)

theorem countTileLayer (s : State) (id source : Nat) (t : Tile) : KeepsTokens s (s.countTileLayer id source t) := by
  unfold State.countTileLayer
  split <;> exact of_seq rfl

theorem tileWrite (s : State) (w : TileWrite) : KeepsTokens s (s.tileWrite w) := by
  have stored := storeTile s w.acct w.id w.cls w.tile
  unfold State.tileWrite
  split
  · next h => rwa [h] at stored
  · next h =>
    rw [h] at stored
    have flagged := fun word => stored.trans (condition _ word)
    dsimp only
    split
    · exact (flagged _).trans (countTileLayer ..)
    · exact flagged _

theorem writeTile (s : State) (acct : Nat) (w : Writer) (b id cls : Nat) (t : Tile) :
    KeepsTokens s (s.writeTile acct w b id cls t) := by
  unfold State.writeTile State.write
  dsimp only
  split
  · exact tileWrite ..
  · exact of_seq rfl

theorem setColl (s : State) (c : Coll) : KeepsTokens s (s.setColl c) := of_seq rfl

theorem sendColl (s : State) (c : Coll) (q kind index : Nat) (t : Option CollTile) :
    KeepsTokens s (s.sendColl c q kind index t) := sendMessage ..

theorem writeResult (s : State) (c : Coll) (q i : Nat) (t : Tile) (fl : List Nat) :
    KeepsTokens s (s.writeResult c q i t fl) := (writeTile s ..).trans (of_seq rfl)

theorem formResults (s : State) (key : Nat) : KeepsTokens s (s.formResults key) := by
  unfold State.formResults
  split
  · exact refl s
  split
  · exact refl s
  refine foldl (fun t i => ?_) _ s
  split
  · exact refl t
  dsimp only
  split
  · exact refl t
  have written := fun c d x fl => (setColl t c).trans (writeResult _ d d.rank i x fl)
  split
  · exact (written ..).trans (foldl (fun u q => sendColl u _ q 2 i _) _ _)
  · exact written ..

theorem settleColl (s : State) (key : Nat) : KeepsTokens s (s.settleColl key) := by
  have formed := formResults s key
  unfold State.settleColl
  dsimp only
  split
  · exact formed
  split
  · exact formed.trans (flightReady ..)
  · exact formed

/-- A change of the COLL with a key, if there is one. -/
theorem updateColl (s : State) (key : Nat) (f : Coll → Coll) :
    KeepsTokens s (match s.coll key with | some k => s.setColl (f k) | none => s) := by
  split
  · exact setColl ..
  · exact refl s

theorem applyWord (s : State) (c : Coll) (fw : Nat) : KeepsTokens s (s.applyWord c fw) := by
  unfold State.applyWord
  extract_lets noted
  refine .trans (t := noted) (updateColl s c.key _) ?_
  split
  · exact refl noted
  · exact condition ..

theorem applyContribution (s : State) (c : Coll) (bs : List Byte) : KeepsTokens s (s.applyContribution c bs) := by
  unfold State.applyContribution
  dsimp only
  refine .trans (.trans (.trans ?_ (applyWord _ c _)) (updateColl _ c.key _)) (settleColl _ c.key)
  split
  · exact refl s
  · exact verifyTile ..

theorem applyResult (s : State) (c : Coll) (bs : List Byte) : KeepsTokens s (s.applyResult c bs) := by
  unfold State.applyResult
  dsimp only
  refine .trans (.trans (.trans ?_ (applyWord _ c _)) (updateColl _ c.key _)) (settleColl _ c.key)
  split
  · exact refl s
  · exact (verifyTile ..).trans (writeTile ..)

theorem applyColl (s : State) (c : Coll) (bs : List Byte) : KeepsTokens s (s.applyColl c bs) := by
  unfold State.applyColl
  split
  · exact applyContribution ..
  · exact applyResult ..

theorem feedColl (s : State) (key : Nat) : KeepsTokens s (s.feedColl key) := by
  unfold State.feedColl
  split
  · exact refl s
  · dsimp only
    refine .trans ?_ (foldl (fun t x => applyColl t _ _) _ _)
    exact of_seq rfl

/-! The meanings of entries. -/

theorem plainAct (s : State) (c : Ctx) : KeepsTokens s (Machine.plainAct s c).state := refl s

theorem plainAct_modStream (s : State) (c : Ctx) (f : Stream → Stream) :
    KeepsTokens s (Machine.plainAct (s.modStream c f) c).state := modStream s c f

theorem endAct (s : State) (c : Ctx) : KeepsTokens s (Machine.endAct s c).state := plainAct_modStream s c _

theorem baseAct (s : State) (c : Ctx) : KeepsTokens s (Machine.baseAct s c).state := plainAct_modStream s c _

theorem strideAct (s : State) (c : Ctx) : KeepsTokens s (Machine.strideAct s c).state := plainAct_modStream s c _

theorem loopAct (s : State) (c : Ctx) : KeepsTokens s (Machine.loopAct s c).state := plainAct_modStream s c _

theorem rsigAct (s : State) (c : Ctx) : KeepsTokens s (Machine.rsigAct s c).state := of_dies rfl

theorem modeAct (s : State) (c : Ctx) : KeepsTokens s (Machine.modeAct s c).state := setArray s ..

theorem mmaAct (s : State) (c : Ctx) : KeepsTokens s (Machine.mmaAct s c).state := by
  unfold Machine.mmaAct
  dsimp only
  refine .trans ?_ (setArray ..)
  split
  · exact refl s
  · exact fillMma ..

theorem drainAct (s : State) (c : Ctx) : KeepsTokens s (Machine.drainAct s c).state := by
  unfold Machine.drainAct
  dsimp only
  refine .trans ?_ (setArray ..)
  split
  · exact of_seq (seq_startCheck ..)
  · exact refl s

theorem vecTileAct (form : Nat) (s : State) (c : Ctx) : KeepsTokens s (Machine.vecTileAct form s c).state := by
  have first := delayedOperand s c.sl
  unfold Machine.vecTileAct
  dsimp only
  refine .trans ?_ (busyVector ..)
  split
  · exact first ..
  split
  · exact (first ..).trans (readOperand ..)
  · exact first ..
  · exact first ..

theorem vtransAct (s : State) (c : Ctx) : KeepsTokens s (Machine.vtransAct s c).state :=
  (delayedOperand s c.sl ..).trans (busyVector ..)

theorem vldAct (s : State) (c : Ctx) : KeepsTokens s (Machine.vldAct s c).state :=
  (delayedOperand s c.sl ..).trans (busyVector ..)

theorem vstAct (s : State) (c : Ctx) : KeepsTokens s (Machine.vstAct s c).state := by
  unfold Machine.vstAct
  dsimp only
  refine .trans (of_seq ?_) (busyVector ..)
  split_ifs <;> rfl

theorem vregAct (s : State) (c : Ctx) : KeepsTokens s (Machine.vregAct s c).state := busyVector s ..

theorem postAct (s : State) (c : Ctx) : KeepsTokens s (Machine.postAct s c).state := by
  have busy := busyVector s c 1 0
  unfold Machine.postAct
  dsimp only
  split
  · exact busy
  · exact busy.trans (setDie _ _ rfl)

theorem vimmAct (s : State) (c : Ctx) : KeepsTokens s (Machine.vimmAct s c).state := busyVector s ..

theorem redAct (s : State) (c : Ctx) : KeepsTokens s (Machine.redAct s c).state :=
  (delayedOperand s c.sl ..).trans (busyReducer ..)

theorem moveAct (s : State) (c : Ctx) : KeepsTokens s (Machine.moveAct s c).state :=
  (readRaw s c.sl ..).trans (verifyTile ..)

theorem gatherAct (s : State) (c : Ctx) : KeepsTokens s (Machine.gatherAct s c).state := readIndex s c.sl _

theorem scatterAct (s : State) (c : Ctx) : KeepsTokens s (Machine.scatterAct s c).state := by
  have read := fun ia f ib => (readOperand s c.sl ia f).trans (readIndex _ c.sl ib)
  unfold Machine.scatterAct
  dsimp only
  split <;> exact read ..

theorem nsendAct (s : State) (c : Ctx) : KeepsTokens s (Machine.nsendAct s c).state :=
  (readRaw s c.sl ..).trans (sendMessage ..)

theorem collAct (s : State) (c : Ctx) : KeepsTokens s (Machine.collAct s c).state := by
  unfold Machine.collAct
  dsimp only
  refine .trans ?_ (feedColl ..)
  split
  · exact of_seq rfl
  · exact .of_seq (seq_collSources ..)

/-- R36, R175: the unit starts, or the loads that it waits for begin. -/
theorem startUnit {act : State → Ctx → Issued} (hact : ∀ v x, KeepsTokens v (act v x).state) (s : State) (c : Ctx)
    (cold : List Nat) : KeepsTokens s (s.startUnit c cold act).state := by
  have loads : KeepsTokens s (s.startLoads cold) := of_seq rfl
  unfold State.startUnit
  split
  · exact loads.trans (hact _ c)
  · exact loads

end KeepsTokens

/-! The 26 commands, each with its meaning. -/

/-- The meaning with which a command issues its entry (Table 2-3). -/
def courseAct : Instr → State → Ctx → Issued
  | .endEntry _ _ => endAct
  | .base _ _ => baseAct
  | .stride _ _ => strideAct
  | .loop _ _ => loopAct
  | .mode _ _ => modeAct
  | .mma _ _ => mmaAct
  | .drain _ _ => drainAct
  | .vop _ _ => vecTileAct 0
  | .vrow _ _ => vecTileAct 1
  | .vcol _ _ => vecTileAct 2
  | .vtrans _ _ => vtransAct
  | .vld _ _ => vldAct
  | .vst _ _ => vstAct
  | .vreg _ _ | .vregBcast _ _ | .vregSwaph _ _ => vregAct
  | .post _ _ => postAct
  | .vimm _ _ => vimmAct
  | .red _ _ => redAct
  | .move _ _ => moveAct
  | .gather _ _ => gatherAct
  | .scatter _ _ => scatterAct
  | .rsig _ _ => rsigAct
  | .nsend _ _ => nsendAct
  | .coll _ _ => collAct
  | _ => plainAct

/-- Each of the 26 commands issues the head that its test accepts, with its meaning. -/
theorem exec_eq_tryIssue {c : Instr} {sl st : Nat} {ok : Nat → Bool} (h : courseHead c = some (sl, st, ok)) (s : State) :
    exec c s = .next (s.tryIssue sl st ok (courseAct c)) := by
  unfold courseHead at h
  split at h <;> cases h <;> rfl

/-- No meaning changes a token: tokens are raised at completion, and by raises that arrive (R30, R32). -/
theorem courseAct_keepsTokens (c : Instr) (s : State) (x : Ctx) : KeepsTokens s (courseAct c s x).state := by
  unfold courseAct
  split
  · exact .endAct s x
  · exact .baseAct s x
  · exact .strideAct s x
  · exact .loopAct s x
  · exact .modeAct s x
  · exact .mmaAct s x
  · exact .drainAct s x
  · exact .vecTileAct 0 s x
  · exact .vecTileAct 1 s x
  · exact .vecTileAct 2 s x
  · exact .vtransAct s x
  · exact .vldAct s x
  · exact .vstAct s x
  · exact .vregAct s x
  · exact .vregAct s x
  · exact .vregAct s x
  · exact .postAct s x
  · exact .vimmAct s x
  · exact .redAct s x
  · exact .moveAct s x
  · exact .gatherAct s x
  · exact .scatterAct s x
  · exact .rsigAct s x
  · exact .nsendAct s x
  · exact .collAct s x
  · exact .plainAct s x

/-! Waiting, and issue. -/

/-- R29: a head that awaits a token whose count is 0 does not issue, and no time passes. -/
theorem tryIssue_of_token_zero {s : State} {sl st e k : Nat} (he : s.headEntry sl st = some e) (hk : k ∈ enWaits e)
    (h0 : (s.die sl).token k = 0) (op : Nat → Bool) (act : State → Ctx → Issued) : s.tryIssue sl st op act = s := by
  have notMet : waitsHeld (s.die sl) e = false := List.all_eq_false.2 ⟨k, hk, by simp [h0]⟩
  simp [State.tryIssue, he, nearlyReady, notMet]

/-- What an issue does before the entry's meaning takes the awaited tokens. -/
theorem prepareIssue_tokens {u : State} {sl st : Nat} (e : Nat) (hsl : sl < 64) (hst : st < 16) (can : Canonical u) :
    ((u.prepareIssue sl st e).die sl).tokens = tokensTaken u sl e := by
  obtain ⟨L, ph, t, hdie, -⟩ := prep_die u sl st e hst hsl can
  rw [hdie]
  rfl

/-- R29: an issue with a meaning that leaves tokens alone takes the awaited tokens. -/
theorem issueNow_tokens {u : State} {sl st : Nat} (e : Nat) {act : State → Ctx → Issued} (hsl : sl < 64) (hst : st < 16)
    (can : Canonical u) (hact : ∀ v x, KeepsTokens v (act v x).state) :
    ((u.issueNow sl st e act).die sl).tokens = tokensTaken u sl e := by
  obtain ⟨-, -, -, dies⟩ := (Frame.prep u sl st e hsl).can can
  unfold State.issueNow
  dsimp only
  rw [State.die_setDie_same]
  exact ((KeepsTokens.startUnit hact _ _ _).tokens dies sl).trans (prepareIssue_tokens e hsl hst can)

/-- The search for the ac of an issue leaves the tokens as they are. -/
theorem tokensTaken_selected {s u : State} {sl st e : Nat} (hsl : sl < 64) (can : Canonical s) (h : Selected s sl st e u) :
    tokensTaken u sl e = tokensTaken s sl e := by
  unfold tokensTaken
  rw [((Waits.of hsl h).dies can sl).1]

end Sys2Proof.TokenLaws

namespace Sys2Proof.Claims

open Sys2Proof.Machine Sys2Proof.IssueLaws Sys2Proof.TokenLaws

/-- Settles O4: a head that awaits an empty token is not nearly ready, and what an issue takes from the tokens before the
entry's meaning runs is all that changes them. -/
theorem issueWaitsForItsTokensAndTakesOneOfEach : Obligations.IssueWaitsForItsTokensAndTakesOneOfEach := by
  intro c sl st ok s e hsl hst hc he
  have hexec := exec_eq_tryIssue hc s
  refine ⟨fun k hk h0 => ?_, fun u hok can hsel => ?_⟩
  · rw [hexec, tryIssue_of_token_zero he hk h0]
  · refine ⟨u.issueNow sl st e (courseAct c), by rw [hexec, tryIssue_sel hsel hok], fun k => ?_⟩
    have hcan : Canonical u := (Waits.of hsl hsel).can can
    have taken : ((u.issueNow sl st e (courseAct c)).die sl).tokens = tokensTaken s sl e :=
      (issueNow_tokens e hsl hst hcan (courseAct_keepsTokens c)).trans (tokensTaken_selected hsl can hsel)
    rw [Die.token, taken, nth_tokensTaken]

end Sys2Proof.Claims

/-! PROOF. The pass sum (R74, R75, R77). What decoding an operand gives; the pass sum as its three outcomes; and its window,
which discards nothing and keeps the whole sum where every product lies within 61 orders of the largest. -/

namespace Sys2Proof.PassSumLaws

open Sys2Proof.Machine Sys2Proof.Claims

/-! Operands. -/

/-- The least exponent of a finite operand that R74 decodes: that of the subnormal numbers, and 0 for INT8. -/
def expFloor (f : Fmt) : Int := if f = .int8 then 0 else 1 - (f.bias : Int) - f.man

/-- Table 4-3: the exponents of the finite values of a format other than BF16 and FP32 span at most 29 orders. -/
theorem decodeElem_exp {f : Fmt} (hbf : f ≠ .bf16) (hfp : f ≠ .fp32) {x n d : Nat} {s : Bool} {e : Int}
    (h : decodeElem f x = .fin s n d e) : expFloor f ≤ e ∧ e ≤ expFloor f + 29 := by
  have field : bits x f.man f.expBits < 2 ^ f.expBits := Nat.mod_lt _ (Nat.two_pow_pos _)
  cases f with
  | int8 =>
    simp only [decodeElem, Val.ofInt, Val.fin.injEq] at h
    simp [expFloor, ← h.2.2.2]
  | bf16 => exact absurd rfl hbf
  | fp32 => exact absurd rfl hfp
  | e4m3 | e5m2 | fp16 =>
    -- The exponent field is at most 30: with infinities the field 31 holds no number, and E4M3 has four bits.
    simp only [decodeElem, Fmt.man, Fmt.expBits, Fmt.bias, Fmt.hasInf] at h field
    simp only [expFloor, Fmt.bias, Fmt.man]
    grind

/-- What R74 decodes from an operand: a NaN, an infinity, a zero, or a finite number of the format's exponents. -/
inductive Decoded (f : Fmt) : Dec → Prop
  | nan : Decoded f ⟨.nan, false, 0, 0⟩
  | inf (s : Bool) : Decoded f ⟨.inf, s, 0, 0⟩
  | zero (s : Bool) : Decoded f ⟨.zero, s, 0, 0⟩
  | finite (s : Bool) (m : Nat) (c : Int) (exp : expFloor f ≤ c ∧ c ≤ expFloor f + 29) : Decoded f ⟨.finite, s, m, c⟩

theorem decodeOperand_decoded {f : Fmt} (hbf : f ≠ .bf16) (hfp : f ≠ .fp32) (scale x : Nat) :
    Decoded f (decodeOperand f scale x) := by
  unfold decodeOperand
  split
  · exact .nan
  · split
    case h_1 => exact .nan
    case h_2 s _ => exact .inf s
    case h_3 s n d e value =>
      split
      · exact .zero s
      · exact .finite s n e (decodeElem_exp hbf hfp value)

/-- An operand that is NaN or an infinity. -/
def Special (d : Dec) : Prop := d.k = .nan ∨ d.k = .inf

/-- A finite operand's exponent is one of its format's. -/
theorem Decoded.exp_of_finite {f : Fmt} {d : Dec} (h : Decoded f d) (hk : d.k = .finite) :
    expFloor f ≤ d.c ∧ d.c ≤ expFloor f + 29 := by
  cases h with
  | finite s m c exp => exact exp
  | nan | inf | zero => cases hk

/-- An operand that is neither special nor finite is a zero. -/
theorem Decoded.decRat_eq_zero {f : Fmt} {d : Dec} (h : Decoded f d) (hs : ¬ Special d) (hk : d.k ≠ .finite) : decRat d = 0 := by
  cases h with
  | zero s => simp [decRat]
  | nan => exact absurd (.inl rfl) hs
  | inf s => exact absurd (.inr rfl) hs
  | finite => exact absurd rfl hk

/-- Both operands of a pair of the pass are decoded in their formats. -/
theorem passPairs_decoded {fa fb : Fmt} (ha : fa ≠ .bf16) (ha' : fa ≠ .fp32) (hb : fb ≠ .bf16) (hb' : fb ≠ .fp32)
    {sa sb : Nat} {a b : List Nat} {p : Nat × Dec × Dec} (hp : p ∈ passPairs fa fb sa sb a b) :
    Decoded fa p.2.1 ∧ Decoded fb p.2.2 := by
  obtain ⟨k, x, y⟩ := p
  obtain ⟨-, hxy⟩ := List.of_mem_zip hp
  obtain ⟨hx, hy⟩ := List.of_mem_zip hxy
  obtain ⟨u, -, rfl⟩ := List.mem_map.1 hx
  obtain ⟨v, -, rfl⟩ := List.mem_map.1 hy
  exact ⟨decodeOperand_decoded ha ha' sa u, decodeOperand_decoded hb hb' sb v⟩

/-! Products. -/

/-- The pairs of a pass whose product is finite and not zero. -/
def finitePairs (ps : List (Nat × Dec × Dec)) : List (Nat × Dec × Dec) :=
  ps.filter fun p => decide (p.2.1.k = .finite) && decide (p.2.2.k = .finite)

/-- The product of a pair (R75). -/
def pairProduct (p : Nat × Dec × Dec) : Product := ⟨p.1, p.2.1.s != p.2.2.s, p.2.1.m * p.2.2.m, p.2.1.c + p.2.2.c⟩

/-- The rational number that a product stands for. -/
def prodRat (p : Product) : ℚ := (if p.s then -1 else 1) * p.m * 2 ^ p.q

theorem mem_finitePairs {ps : List (Nat × Dec × Dec)} {p : Nat × Dec × Dec} :
    p ∈ finitePairs ps ↔ p ∈ ps ∧ p.2.1.k = .finite ∧ p.2.2.k = .finite := by
  simp [finitePairs]

/-- R77: the exponents of two products without BF16 differ by at most 29 + 29 = 58. -/
theorem finitePairs_exp_le {fa fb : Fmt} {ps : List (Nat × Dec × Dec)}
    (dec : ∀ p ∈ ps, Decoded fa p.2.1 ∧ Decoded fb p.2.2) :
    ∀ p ∈ finitePairs ps, ∀ r ∈ finitePairs ps, p.2.1.c + p.2.2.c ≤ r.2.1.c + r.2.2.c + 58 := by
  intro p hp r hr
  obtain ⟨hp, pk, pk'⟩ := mem_finitePairs.1 hp
  obtain ⟨hr, rk, rk'⟩ := mem_finitePairs.1 hr
  have := (dec p hp).1.exp_of_finite pk
  have := (dec p hp).2.exp_of_finite pk'
  have := (dec r hr).1.exp_of_finite rk
  have := (dec r hr).2.exp_of_finite rk'
  omega

theorem prodRat_pairProduct (p : Nat × Dec × Dec) : prodRat (pairProduct p) = decRat p.2.1 * decRat p.2.2 := by
  obtain ⟨k, ⟨_, s, m, c⟩, ⟨_, s', m', c'⟩⟩ := p
  have value : (m : ℚ) * m' * 2 ^ (c + c') = m * 2 ^ c * (m' * 2 ^ c') := by
    rw [zpow_add₀ two_ne_zero]
    ring
  simp only [prodRat, pairProduct, decRat]
  cases s <;> cases s' <;> simp <;> linear_combination value

/-- Where no operand is special, the products of the other pairs are zero. -/
theorem sum_pairs_eq_sum_products {fa fb : Fmt} {ps : List (Nat × Dec × Dec)}
    (dec : ∀ p ∈ ps, Decoded fa p.2.1 ∧ Decoded fb p.2.2) (hs : ∀ p ∈ ps, ¬ Special p.2.1 ∧ ¬ Special p.2.2) :
    (ps.map fun p => decRat p.2.1 * decRat p.2.2).sum = (((finitePairs ps).map pairProduct).map prodRat).sum := by
  induction ps with
  | nil => rfl
  | cons p ps ih =>
    obtain ⟨hp, dec⟩ := List.forall_mem_cons.1 dec
    obtain ⟨sp, hs⟩ := List.forall_mem_cons.1 hs
    rw [List.map_cons, List.sum_cons, ih dec hs]
    by_cases used : p.2.1.k = .finite ∧ p.2.2.k = .finite
    · simp [finitePairs, used, prodRat_pairProduct]
    · have zero : decRat p.2.1 * decRat p.2.2 = 0 := by
        rcases not_and_or.1 used with hk | hk
        · rw [hp.1.decRat_eq_zero sp.1 hk, zero_mul]
        · rw [hp.2.decRat_eq_zero sp.2 hk, mul_zero]
      have skip : finitePairs (p :: ps) = finitePairs ps := List.filter_cons_of_neg (by simpa using used)
      rw [zero, zero_add, skip]

/-! The window. -/

/-- The lowest bit of the window: 61 orders below the largest exponent of a product (R75). -/
def windowLow (p : Product) (rest : List Product) : Int := rest.foldl (fun q p => max q p.q) p.q - 61

/-- The adder of R75 at `t`, after one more product. -/
def addProduct (L t : Int) (p : Product) : Int := if p.s then t - (alignProduct L p).1 else t + (alignProduct L p).1

/-- The adder of R75 at `t`, after the products of a list. -/
def windowTotal (L t : Int) (prods : List Product) : Int := prods.foldl (addProduct L) t

/-- The value that an adder's number in the window stands for. -/
def windowVal (L t : Int) : Val := if t = 0 then .zero false else .fin (decide (t < 0)) t.natAbs 1 L

/-- R75 over the products of a pass: its value and its LOSS. -/
def windowSum (p : Product) (rest : List Product) : PassSum :=
  let L := windowLow p rest
  let lost := (p :: rest).find? fun p => (alignProduct L p).2
  ⟨windowVal L (windowTotal L 0 (p :: rest)), 0, 0xFF, lost.isSome, (lost.map (·.k)).getD 0xFF⟩

/-- The largest exponent is a product's, so what bounds them all bounds it. -/
theorem windowLow_le {p : Product} {rest : List Product} {r : Int} (h : ∀ x ∈ p :: rest, x.q ≤ r + 61) :
    windowLow p rest ≤ r := by
  obtain ⟨hp, hrest⟩ := List.forall_mem_cons.1 h
  have : rest.foldl (fun q p => max q p.q) p.q ≤ r + 61 :=
    List.foldlRecOn (motive := (· ≤ r + 61)) rest _ hp fun _ hq x hx => max_le hq (hrest x hx)
  unfold windowLow
  omega

/-- A product at or above the window's lowest bit is only shifted to the left. -/
theorem alignProduct_of_le {L : Int} {p : Product} (h : L ≤ p.q) : alignProduct L p = (p.m * 2 ^ (p.q - L).toNat, false) :=
  if_pos h

theorem alignProduct_value {L : Int} {p : Product} (h : L ≤ p.q) : ((alignProduct L p).1 : ℚ) * 2 ^ L = p.m * 2 ^ p.q := by
  have shift : (2 : ℚ) ^ (p.q - L).toNat * 2 ^ L = 2 ^ p.q := by
    rw [← zpow_natCast, Int.toNat_of_nonneg (by omega), ← zpow_add₀ two_ne_zero, sub_add_cancel]
  rw [alignProduct_of_le h, Nat.cast_mul, Nat.cast_pow, Nat.cast_ofNat, mul_assoc, shift]

theorem addProduct_value {L : Int} {p : Product} (h : L ≤ p.q) (t : Int) :
    (addProduct L t p : ℚ) * 2 ^ L = t * 2 ^ L + prodRat p := by
  have value := alignProduct_value h
  unfold addProduct prodRat
  split
  · push_cast
    linear_combination -value
  · push_cast
    linear_combination value

/-- Where no product reaches below the window, the adder holds the exact sum. -/
theorem windowTotal_value {L : Int} {prods : List Product} (h : ∀ p ∈ prods, L ≤ p.q) (t : Int) :
    (windowTotal L t prods : ℚ) * 2 ^ L = t * 2 ^ L + (prods.map prodRat).sum := by
  induction prods generalizing t with
  | nil => simp [windowTotal]
  | cons p ps ih =>
    obtain ⟨hp, hps⟩ := List.forall_mem_cons.1 h
    calc (windowTotal L (addProduct L t p) ps : ℚ) * 2 ^ L
        = addProduct L t p * 2 ^ L + (ps.map prodRat).sum := ih hps _
      _ = t * 2 ^ L + ((p :: ps).map prodRat).sum := by
        rw [addProduct_value hp, List.map_cons, List.sum_cons, add_assoc]

theorem valRat_windowVal (L t : Int) : valRat (windowVal L t) = some ((t : ℚ) * 2 ^ L) := by
  unfold windowVal
  rcases lt_trichotomy t 0 with neg | zero | pos
  · simp [valRat, neg, neg.ne, abs_of_neg]
  · simp [valRat, Val.zero, zero]
  · simp [valRat, pos.ne', pos.not_gt, abs_of_pos, pos]

/-- Products within 61 orders of each other lose nothing. -/
theorem windowSum_exact {p : Product} {rest : List Product} (h : ∀ x ∈ p :: rest, ∀ y ∈ p :: rest, x.q ≤ y.q + 61) :
    (windowSum p rest).loss = false ∧ valRat (windowSum p rest).val = some (((p :: rest).map prodRat).sum) := by
  have above : ∀ x ∈ p :: rest, windowLow p rest ≤ x.q := fun x hx => windowLow_le fun y hy => h y hy x hx
  constructor
  · rw [windowSum, Option.isSome_eq_false_iff, Option.isNone_iff_eq_none, List.find?_eq_none]
    intro x hx
    simp [alignProduct_of_le (above x hx)]
  · rw [windowSum, valRat_windowVal, windowTotal_value above, Int.cast_zero, zero_mul, zero_add]

/-! The pass sum. -/

/-- Kinds 1 and 2 of R78 need a special operand. -/
theorem special_of_badKind {x y : Dec} (h : badKind x y ≠ 0) : Special x ∨ Special y := by
  unfold badKind at h
  split at h
  case isTrue nan => exact nan.imp .inl .inl
  split at h
  case isTrue zeroInf => exact zeroInf.imp (fun xInf => .inr xInf.1) (fun yInf => .inr yInf.2)
  case isFalse => exact absurd rfl h

/-- R75, R78: a pass sum is fixed by special operands, or is zero for want of products, or is what the window holds; only the
last can raise LOSS. -/
theorem passSum_cases (fa fb : Fmt) (sa sb : Nat) (a b : List Nat) :
    ((∃ p ∈ passPairs fa fb sa sb a b, Special p.2.1 ∨ Special p.2.2) ∧ (passSum fa fb sa sb a b).loss = false)
    ∨ (finitePairs (passPairs fa fb sa sb a b) = [] ∧ (passSum fa fb sa sb a b).loss = false
        ∧ ∃ neg, (passSum fa fb sa sb a b).val = .zero neg)
    ∨ ∃ p rest, (finitePairs (passPairs fa fb sa sb a b)).map pairProduct = p :: rest
        ∧ passSum fa fb sa sb a b = windowSum p rest := by
  unfold passSum passSumIn
  generalize passPairs fa fb sa sb a b = ps
  dsimp only
  split
  case h_1 k x y found =>
    have bad : badKind x y ≠ 0 := by simpa using List.find?_some found
    refine .inl ⟨⟨_, List.mem_of_find?_eq_some found, special_of_badKind bad⟩, ?_⟩
    split <;> rfl
  case h_2 =>
    have special (sel : Nat × Dec × Dec → Bool)
        (h : (ps.filter fun p => decide (p.2.1.k = .inf) || decide (p.2.2.k = .inf)).any sel = true) :
        ∃ p ∈ ps, Special p.2.1 ∨ Special p.2.2 := by
      obtain ⟨p, hp, -⟩ := List.any_eq_true.1 h
      obtain ⟨mem, inf⟩ := List.mem_filter.1 hp
      refine ⟨p, mem, ?_⟩
      simpa [Special] using (show p.2.1.k = .inf ∨ p.2.2.k = .inf by simpa using inf).imp .inr .inr
    split
    case isTrue both => exact .inl ⟨special _ both.1, rfl⟩
    split
    case isTrue pos => exact .inl ⟨special _ pos, rfl⟩
    split
    case isTrue neg => exact .inl ⟨special _ neg, rfl⟩
    split
    case h_1 none => exact .inr (.inl ⟨List.map_eq_nil_iff.1 none, rfl, _, rfl⟩)
    case h_2 p rest prods =>
      refine .inr (.inr ⟨p, rest, prods, ?_⟩)
      rw [prods]
      rfl

/-- R77: the pass sum of decoded operands whose products lie within 58 orders raises no LOSS, and is exact where no operand is
special. -/
theorem passSum_exact {fa fb : Fmt} {sa sb : Nat} {a b : List Nat}
    (dec : ∀ p ∈ passPairs fa fb sa sb a b, Decoded fa p.2.1 ∧ Decoded fb p.2.2) :
    (passSum fa fb sa sb a b).loss = false
    ∧ ((∀ p ∈ passPairs fa fb sa sb a b, ¬ Special p.2.1 ∧ ¬ Special p.2.2) →
        valRat (passSum fa fb sa sb a b).val
          = some ((passPairs fa fb sa sb a b).map fun p => decRat p.2.1 * decRat p.2.2).sum) := by
  rcases passSum_cases fa fb sa sb a b with ⟨⟨p, hp, special⟩, loss⟩ | ⟨none, loss, neg, val⟩ | ⟨p, rest, prods, sum⟩
  · exact ⟨loss, fun plain => absurd special (not_or.2 (plain p hp))⟩
  · refine ⟨loss, fun plain => ?_⟩
    rw [sum_pairs_eq_sum_products dec plain, none, val]
    simp [valRat, Val.zero]
  · have near : ∀ x ∈ p :: rest, ∀ y ∈ p :: rest, x.q ≤ y.q + 61 := by
      rw [← prods]
      simp only [List.forall_mem_map]
      intro x hx y hy
      exact (finitePairs_exp_le dec x hx y hy).trans (by simp [pairProduct])
    obtain ⟨loss, val⟩ := windowSum_exact near
    rw [sum]
    exact ⟨loss, fun plain => by rw [sum_pairs_eq_sum_products dec plain, prods, val]⟩

/-! With BF16. -/

/-- Encoding 1 is the least positive number of every format, and 0x7F00 of BF16 is 2^127: beside the product of 2^127 with a
least number, the product of two least numbers lies below the window. -/
theorem passSum_bf16_loss {f : Fmt} (hf : f ≠ .fp32) :
    (passSum f .bf16 0x7F 0x7F [1, 1] [0x7F00, 1]).loss = true ∧ (passSum .bf16 f 0x7F 0x7F [0x7F00, 1] [1, 1]).loss = true := by
  cases f with
  | fp32 => exact absurd rfl hf
  | e4m3 | e5m2 | int8 | bf16 | fp16 => decide +kernel

end Sys2Proof.PassSumLaws

namespace Sys2Proof.Claims

open Sys2Proof.Machine Sys2Proof.PassSumLaws

/-- Settles O14: without BF16 every product lies in the window of its pass; with it, the smallest products can lie below. -/
theorem passSumsWithoutBf16AreExact : Obligations.PassSumsWithoutBf16AreExact := by
  refine ⟨fun fa fb sa sb a b ha ha' hb hb' => ?_, fun fa hfa => ?_, ?_⟩
  · have dec : ∀ p ∈ passPairs fa fb sa sb a b, Decoded fa p.2.1 ∧ Decoded fb p.2.2 :=
      fun p hp => passPairs_decoded ha ha' hb hb' hp
    obtain ⟨loss, exact_sum⟩ := passSum_exact dec
    refine ⟨loss, finitePairs_exp_le dec, fun plain => exact_sum fun p hp => ?_⟩
    obtain ⟨xnan, xinf, ynan, yinf⟩ := plain p hp
    exact ⟨not_or.2 ⟨xnan, xinf⟩, not_or.2 ⟨ynan, yinf⟩⟩
  · obtain ⟨right, left⟩ := passSum_bf16_loss hfa
    exact ⟨⟨_, _, right⟩, _, _, left⟩
  · intro row x y
    have exact_sum : x.val = .fin false (2 ^ 41) 1 (-41) ∧ x.loss = false := by decide +kernel
    have truncated : y.val = .fin false 4160 1 (-15) ∧ y.loss = true := by decide +kernel
    rw [exact_sum.1, truncated.1]
    refine ⟨?_, exact_sum.2, ?_, truncated.2⟩ <;> norm_num [valRat]

end Sys2Proof.Claims

/-! PROOF. Writes of tiles (R159, R176, R185). `WritesOnly` for what leaves all but some registers as they were, and the
recording of an event with it; the poisoned content in another format; and `storeTile` as its three outcomes. -/

namespace Sys2Proof.StoreTileLaws

open Sys2Proof.Machine Sys2Proof.Claims Sys2Proof.IssueLaws

/-! What writes some registers only. -/

/-- Every register outside `ps` reads as before (in a canonical parameter store, which stays one). -/
structure WritesOnly (ps : List Nat) (s t : State) : Prop where
  wf : Sparse.wf paramDefault s.params = true → Sparse.wf paramDefault t.params = true
  regs : Sparse.wf paramDefault s.params = true → OnlyRegs ps s t

namespace WritesOnly

theorem of_params (ps : List Nat) {s t : State} (h : t.params = s.params) : WritesOnly ps s t :=
  ⟨fun w => h ▸ w, fun _ p e _ _ => State.reg_congr h p e⟩

theorem trans {ps : List Nat} {s t u : State} (h : WritesOnly ps s t) (g : WritesOnly ps t u) : WritesOnly ps s u :=
  ⟨fun w => g.wf (h.wf w), fun w p e he hp => (g.regs (h.wf w) p e he hp).trans (h.regs w p e he hp)⟩

theorem setReg {ps : List Nat} {p e : Nat} (hp : p ∈ ps) (he : e < 2 ^ 24) (s : State) (v : Nat) :
    WritesOnly ps s (s.setReg p e v) :=
  ⟨Sparse.wf_put _ _, fun w _ _ he' hp' =>
    State.reg_setReg_other s v w (pkey_ne he he' (.inl (ne_of_mem_of_not_mem hp hp').symm))⟩

theorem bump64 {ps : List Nat} {p e : Nat} (hp : p ∈ ps) (he : e < 2 ^ 24) (s : State) (n : Nat) :
    WritesOnly ps s (s.bump64 p e n) := setReg hp he s _

/-- R370, R372: storing a record writes the sequence number and the count of losses alone. -/
theorem storeEvent (s : State) (x : Event) : WritesOnly eventRegs s (s.storeEvent x) := by
  unfold State.storeEvent
  extract_lets full oldest lost kept s1 next sink
  have counted : WritesOnly eventRegs s s1 := by
    simp only [s1]
    split
    · exact bump64 (by decide) (by decide) s 1
    · exact of_params _ rfl
  refine (counted.trans (of_params _ ?_)).trans (setReg (p := P.eventSeq) (by decide) (by decide : 0 < 2 ^ 24) _ _)
  rfl

/-- R369: raising an event writes the registers of the event log alone. -/
theorem raiseEventOf {cls : Nat} (hcls : cls < 2 ^ 24) (s : State) (step code source d0 d1 : Nat) :
    WritesOnly eventRegs s (s.raiseEventOf step cls code source d0 d1) := by
  unfold State.raiseEventOf
  extract_lets s1 now newest within
  have counted : WritesOnly eventRegs s s1 := bump64 (by decide) hcls s 1
  split
  · refine (counted.trans (of_params _ ?_)).trans (bump64 (p := P.eventsCoalesced) (by decide) (by decide : 0 < 2 ^ 24) _ 1)
    rfl
  · exact counted.trans (storeEvent s1 _)

end WritesOnly

/-- A counter that no event writes keeps its value when an event is raised after it is counted. -/
theorem reg_raiseEvent_bump64 {s : State} (w : Sparse.wf paramDefault s.params = true) {p e cls : Nat} (hp : p ∉ eventRegs)
    (he : e < 2 ^ 24) (hcls : cls < 2 ^ 24) (n code source d0 d1 : Nat) :
    ((s.bump64 p e n).raiseEvent cls code source d0 d1).reg p e = (s.bump64 p e n).reg p e :=
  (WritesOnly.raiseEventOf hcls _ _ code source d0 d1).regs (Sparse.wf_put _ _ w) p e he hp

/-- R363: a U64 counter holds its sum, or 2^64 - 1. -/
theorem reg_bump64_same (s : State) (p e n : Nat) : (s.bump64 p e n).reg p e = min (s.reg p e + n) (2 ^ 64 - 1) :=
  State.reg_bump_same s p e n 8

/-! The poisoned content in another format. -/

/-- A field reads as the value last put there. -/
theorem bits_setBits_same (x lo n v : Nat) : bits (setBits x lo n v) lo n = v % 2 ^ n := by
  have shape : setBits x lo n v = x % 2 ^ lo + 2 ^ lo * (v % 2 ^ n + 2 ^ n * (x >>> (lo + n))) := by
    rw [setBits, Nat.pow_add]
    ring
  rw [bits, shape, Nat.shiftRight_eq_div_pow, Nat.add_mul_div_left _ _ (Nat.two_pow_pos lo),
    Nat.div_eq_of_lt (Nat.mod_lt _ (Nat.two_pow_pos lo)), Nat.zero_add, Nat.add_mul_mod_self_left, Nat.mod_mod]

theorem poisonAs_fmtCode (t : Tile) (fmt : Nat) : (t.poisonAs fmt).fmtCode = fmt % 8 := bits_setBits_same _ 0 3 fmt

theorem poisonAs_poisoned (t : Tile) (fmt : Nat) : (t.poisonAs fmt).poisoned = true :=
  show bit flagPOISON 4 = true by decide

/-- R159: the formats of poisoned content. -/
theorem classFmt_eq_code {c : Nat} (hc : c < 3) :
    classFmt c % 8 = if c = 0 then Fmt.e4m3.code else if c = 1 then Fmt.bf16.code else Fmt.fp32.code := by
  match c with
  | 0 | 1 | 2 => rfl

/-! The tiles that a write leaves. -/

/-- Tiles depend on the stored tiles alone. -/
theorem tile_congr {s t : State} (h : t.mem.tiles = s.mem.tiles) (id : Nat) : t.tile id = s.tile id := by
  rw [State.tile, State.tile, h]

/-- R194: the writes of logical units leave the memory as the tile's write leaves it. -/
theorem putStored_mem (s : State) (id : Nat) (t : Tile) : (s.putStored id t).mem = (s.putTile id t).mem := by
  unfold State.putStored
  dsimp only
  split <;> rfl

theorem putStored_params (s : State) (id : Nat) (t : Tile) : (s.putStored id t).params = s.params := by
  unfold State.putStored
  dsimp only
  split <;> rfl

theorem tile_putStored_same (s : State) (id : Nat) (t : Tile) : (s.putStored id t).tile id = t := by
  rw [tile_congr (congrArg Mem.tiles (putStored_mem s id t)), State.tile_putTile_same]

theorem tile_putStored_other {s : State} (w : Sparse.wf tileDefault s.mem.tiles = true) (t : Tile) {id k : Nat} (h : k ≠ id) :
    (s.putStored id t).tile k = s.tile k := by
  rw [tile_congr (congrArg Mem.tiles (putStored_mem s id t)), State.tile_putTile_other s t w h]

/-! R185: the access to an unmapped page. -/

theorem unmappedAccess_tiles {acct : Nat} (h : acct < 2 ^ 24) (s : State) (id : Nat) :
    (s.unmappedAccess acct id).mem.tiles = s.mem.tiles := (Frame.unmapped 0 s acct id h).stores.1

theorem reg_unmappedAccess {s : State} (w : Sparse.wf paramDefault s.params = true) {acct : Nat} (h : acct < 2 ^ 24) (id : Nat) :
    (s.unmappedAccess acct id).reg P.unmappedAccesses acct = (s.bump64 P.unmappedAccesses acct 1).reg P.unmappedAccesses acct := by
  unfold State.unmappedAccess
  extract_lets s1
  split
  · rfl
  · have raised := WritesOnly.trans (WritesOnly.of_params eventRegs rfl)
      (WritesOnly.raiseEventOf (cls := 7) (by decide) { s1 with mem := { s1.mem with unmapTold := acct :: s1.mem.unmapTold } }
        s1.step 0x08 (acctSrc acct) id 0)
    exact raised.regs (Sparse.wf_put _ _ w) _ _ h (by decide)

/-! The write of a tile. -/

/-- A write that stores nothing: every tile stays, and counter `p` of `acct` is higher by 1. -/
def Discarded (p acct : Nat) (s : State) (r : Option Tile × State) : Prop :=
  r.1 = none ∧ r.2.mem.tiles = s.mem.tiles ∧ r.2.reg p acct = min (s.reg p acct + 1) (2 ^ 64 - 1)

/-- R185. -/
theorem storeTile_unmapped {s : State} (can : Canonical s) {acct : Nat} (hacct : acct < 2 ^ 24) {d : Nat} (cls : Nat) (tl : Tile)
    (h : s.place d = .unmapped) : Discarded P.unmappedAccesses acct s (s.storeTile acct d cls tl) := by
  obtain ⟨params, -⟩ := can
  simp only [State.storeTile, h]
  exact ⟨rfl, unmappedAccess_tiles hacct s d, (reg_unmappedAccess params hacct d).trans (reg_bump64_same ..)⟩

/-- R176: a write through an aliased page, whether its target is mapped or not. -/
theorem storeTile_aliased {s : State} (can : Canonical s) {acct : Nat} (hacct : acct < 2 ^ 24) {d : Nat} (cls : Nat) (tl : Tile)
    (h : (∃ i k, s.place d = .viaAlias i k) ∨ s.place d = .hollow) :
    Discarded P.aliasWrites acct s (s.storeTile acct d cls tl) := by
  obtain ⟨params, -⟩ := can
  have refused : s.storeTile acct d cls tl
      = (none, (s.bump64 P.aliasWrites acct 1).raiseEvent 7 0x09 (acctSrc acct) d 0) := by
    rcases h with ⟨i, k, h⟩ | h <;> simp only [State.storeTile, h]
  rw [refused]
  refine ⟨rfl, ?_, ?_⟩
  · rw [State.raiseEvent_mem]
    rfl
  · rw [reg_raiseEvent_bump64 params (by decide) hacct (by decide), reg_bump64_same]

/-- A write of the page's own width class stores the tile. -/
theorem storeTile_same_class {s : State} (acct : Nat) {d i k : Nat} (tl : Tile) (h : s.place d = .mapped i k) :
    s.storeTile acct d k tl = (some tl, s.putStored i tl) := by
  simp only [State.storeTile, h, if_true]

/-- R159: a write of another width class stores the poisoned content and counts a width fault. -/
theorem storeTile_other_class {s : State} (acct : Nat) {d cls i k : Nat} (tl : Tile) (h : s.place d = .mapped i k)
    (hcls : cls ≠ k) :
    s.storeTile acct d cls tl
      = (some (tl.poisonAs (classFmt k)), (s.putStored i (tl.poisonAs (classFmt k))).bump64 P.widthFaults acct 1) := by
  simp only [State.storeTile, h, if_neg hcls]

end Sys2Proof.StoreTileLaws

namespace Sys2Proof.Claims

open Sys2Proof.Machine Sys2Proof.StoreTileLaws

/-- Settles O17, from the three outcomes of a write: no page of its own, a page of its class, a page of another class. -/
theorem aliasAndUnmappedWritesAreDiscarded : Obligations.AliasAndUnmappedWritesAreDiscarded := by
  intro s acct d cls tl can hacct r discarded
  have hacct' : acct < 2 ^ 24 := by omega
  have ⟨_, tiles, _⟩ := can
  refine ⟨fun i k h => storeTile_aliased can hacct' cls tl (.inl ⟨i, k, h⟩),
    fun h => storeTile_aliased can hacct' cls tl (.inr h),
    storeTile_unmapped can hacct' cls tl, fun c hc => ?_, fun i k h => ⟨fun hcls => ?_, fun hcls => ?_⟩⟩
  · exact ⟨(poisonAs_fmtCode tl _).trans (classFmt_eq_code hc), poisonAs_poisoned tl _, rfl, rfl, rfl⟩
  · have stored : r = _ := storeTile_other_class acct tl h hcls
    rw [stored]
    refine ⟨rfl, tile_putStored_same s i _, ?_, fun j hj => tile_putStored_other tiles _ hj⟩
    rw [reg_bump64_same, State.reg_congr (putStored_params s i _)]
  · subst hcls
    have stored : r = _ := storeTile_same_class acct tl h
    rw [stored]
    exact ⟨rfl, tile_putStored_same s i tl, putStored_params s i tl, fun j hj => tile_putStored_other tiles tl hj⟩

end Sys2Proof.Claims

/-! PROOF. The event log (R369). What `storeEvent` leaves; the newest record like an event, and where `coalesceIn` counts; and
`raiseEvent` as its two outcomes. -/

namespace Sys2Proof.EventLaws

open Sys2Proof.Machine Sys2Proof.Claims Sys2Proof.StoreTileLaws

/-! The storing of a record. -/

theorem storeEvent_events (s : State) (x : Event) : (s.storeEvent x).log.events = x :: s.log.events.take 255 := rfl

theorem val_storeEvent_eventSeq (s : State) (x : Event) : (s.storeEvent x).val P.eventSeq = x.seq :=
  State.val_setVal_same _ _ _

/-- R370, R372: `WritesOnly.storeEvent` without the counts of occurrences, which a stored record leaves as they are. -/
theorem storeEvent_writesOnly (s : State) (x : Event) : WritesOnly [P.eventsLost, P.eventSeq] s (s.storeEvent x) := by
  unfold State.storeEvent
  extract_lets full oldest lost kept s1 next sink
  have counted : WritesOnly [P.eventsLost, P.eventSeq] s s1 := by
    simp only [s1]
    split
    · exact .bump64 (by decide) (by decide) s 1
    · exact .of_params _ rfl
  refine (counted.trans (.of_params _ ?_)).trans (.setReg (p := P.eventSeq) (by decide) (by decide : 0 < 2 ^ 24) _ _)
  rfl

/-! The newest record like an event. -/

/-- R369: the record has the event's class, code and source. -/
def like (cls code source : Nat) (e : Event) : Bool := e.cls == cls && e.code == code && e.source == source

theorem like_iff {cls code source : Nat} {e : Event} :
    like cls code source e = true ↔ e.cls = cls ∧ e.code = code ∧ e.source = source := by
  simp [like, and_assoc]

/-- R369: the record after one more occurrence. -/
def counted (e : Event) : Event := { e with repeats := min (e.repeats + 1) 0xFFFF, flags := Nat.lor e.flags 1 }

/-- R369: the occurrence counts in the newest like record, and every other record stays. -/
theorem coalesceIn_append {cls code source : Nat} {e : Event} (he : like cls code source e = true) (older : List Event) :
    ∀ newer : List Event, (∀ x ∈ newer, ¬ like cls code source x = true) →
      coalesceIn cls code source (newer ++ e :: older) = newer ++ counted e :: older
  | [], _ => if_pos (like_iff.mp he)
  | x :: newer, h => by
    have hx : ¬ (x.cls = cls ∧ x.code = code ∧ x.source = source) := fun k => h x List.mem_cons_self (like_iff.mpr k)
    rw [List.cons_append, coalesceIn, if_neg hx,
      coalesceIn_append he older newer fun y hy => h y (List.mem_cons_of_mem x hy), List.cons_append]

/-! The two outcomes of an event. -/

/-- The record of an event raised now (R367, R369). -/
def recordOf (s : State) (cls code source d0 d1 : Nat) : Event :=
  { seq := s.val P.eventSeq + 1, cls := cls, code := code, flags := 0, time := s.panelTime, step := s.step
    source := source, repeats := 0, d0 := d0, d1 := d1 }

/-- The state after an event is stored. -/
def stored (s : State) (cls code source d0 d1 : Nat) : State :=
  (s.bump64 P.eventsRaised cls 1).storeEvent (recordOf s cls code source d0 d1)

/-- The state after an event is coalesced. -/
def coalesced (s : State) (cls code source : Nat) : State :=
  { s.bump64 P.eventsRaised cls 1 with log := { s.log with events := coalesceIn cls code source s.log.events } }.bump64
    P.eventsCoalesced 0 1

theorem coalesced_writesOnly (s : State) (cls code source : Nat) :
    WritesOnly [P.eventsCoalesced] (s.bump64 P.eventsRaised cls 1) (coalesced s cls code source) := by
  refine (WritesOnly.of_params _ ?_).trans (.bump64 (p := P.eventsCoalesced) (by decide) (by decide : 0 < 2 ^ 24) _ 1)
  rfl

/-- R369: record `e` is younger than EventHoldoff. -/
def Young (s : State) (e : Event) : Prop := s.panelTime < e.time + s.val P.eventHoldoff * 1000

section
variable {s : State} (w : Sparse.wf paramDefault s.params = true) {cls : Nat} (hcls : cls < 2 ^ 24) (code source d0 d1 : Nat)
include w hcls

/-- The count of an event leaves the scalar registers as they were. -/
theorem val_bump64_eventsRaised {p : Nat} (hp : p ≠ P.eventsRaised) : (s.bump64 P.eventsRaised cls 1).val p = s.val p :=
  (WritesOnly.bump64 (ps := [P.eventsRaised]) (by decide) hcls s 1).regs w p 0 (by decide) (by simpa using hp)

/-- R369: without a like record younger than EventHoldoff, the event is stored. -/
theorem raiseEvent_eq_stored (old : ∀ e, s.log.events.find? (like cls code source) = some e → ¬ Young s e) :
    s.raiseEvent cls code source d0 d1 = stored s cls code source d0 d1 := by
  have seq := val_bump64_eventsRaised w hcls (p := P.eventSeq) (by decide)
  have holdoff := val_bump64_eventsRaised w hcls (p := P.eventHoldoff) (by decide)
  unfold State.raiseEvent State.raiseEventOf stored recordOf
  extract_lets s1 now newest within
  have outside : within = false := by
    simp only [within]
    cases found : newest with
    | none => rfl
    | some e => exact decide_eq_false (holdoff ▸ old e found)
  rw [outside, ← seq]
  rfl

/-- R369: with a newest like record younger than EventHoldoff, the event is coalesced. -/
theorem raiseEvent_eq_coalesced {e : Event} (found : s.log.events.find? (like cls code source) = some e) (young : Young s e) :
    s.raiseEvent cls code source d0 d1 = coalesced s cls code source := by
  have holdoff := val_bump64_eventsRaised w hcls (p := P.eventHoldoff) (by decide)
  unfold State.raiseEvent State.raiseEventOf coalesced
  extract_lets s1 now newest within
  have inside : within = true := by
    have hnewest : newest = some e := found
    simp only [within, hnewest]
    exact decide_eq_true (holdoff ▸ young)
  rw [inside]
  rfl

/-- R369: where the event is stored, it takes the next number and adds to no coalesced count. -/
theorem raiseEvent_stores (old : ∀ e, s.log.events.find? (like cls code source) = some e → ¬ Young s e) :
    (s.raiseEvent cls code source d0 d1).log.events = recordOf s cls code source d0 d1 :: s.log.events.take 255
      ∧ (s.raiseEvent cls code source d0 d1).val P.eventSeq = s.val P.eventSeq + 1
      ∧ (s.raiseEvent cls code source d0 d1).reg P.eventsCoalesced 0 = s.reg P.eventsCoalesced 0 := by
  rw [raiseEvent_eq_stored w hcls code source d0 d1 old]
  have storing := storeEvent_writesOnly (s.bump64 P.eventsRaised cls 1) (recordOf s cls code source d0 d1)
  exact ⟨storeEvent_events _ _, val_storeEvent_eventSeq _ _,
    (storing.regs (Sparse.wf_put _ _ w) P.eventsCoalesced 0 (by decide) (by decide)).trans
      (val_bump64_eventsRaised w hcls (by decide))⟩

/-- R369: where the event is coalesced, its newest like record and EventsCoalesced count it, and it takes no number. -/
theorem raiseEvent_coalesces {newer older : List Event} {e : Event} (parts : s.log.events = newer ++ e :: older)
    (found : s.log.events.find? (like cls code source) = some e) (newest : ∀ x ∈ newer, ¬ like cls code source x = true)
    (young : Young s e) :
    (s.raiseEvent cls code source d0 d1).log = { s.log with events := newer ++ counted e :: older }
      ∧ (s.raiseEvent cls code source d0 d1).reg P.eventsCoalesced 0 = inc64 (s.reg P.eventsCoalesced 0)
      ∧ (s.raiseEvent cls code source d0 d1).val P.eventSeq = s.val P.eventSeq := by
  rw [raiseEvent_eq_coalesced w hcls code source d0 d1 found young]
  refine ⟨?_, ?_, ?_⟩
  · rw [← coalesceIn_append (List.find?_some found) older newer newest, ← parts]
    rfl
  · exact (reg_bump64_same ..).trans
      (congrArg (fun n => min (n + 1) (2 ^ 64 - 1)) (val_bump64_eventsRaised w hcls (by decide)))
  · exact ((coalesced_writesOnly s cls code source).regs (Sparse.wf_put _ _ w) P.eventSeq 0 (by decide) (by decide)).trans
      (val_bump64_eventsRaised w hcls (by decide))

/-- R369: the class counts every event raised, stored or coalesced. -/
theorem reg_raiseEvent_eventsRaised :
    (s.raiseEvent cls code source d0 d1).reg P.eventsRaised cls = inc64 (s.reg P.eventsRaised cls) := by
  have kept : (s.raiseEvent cls code source d0 d1).reg P.eventsRaised cls
      = (s.bump64 P.eventsRaised cls 1).reg P.eventsRaised cls := by
    by_cases coalesces : ∃ e, s.log.events.find? (like cls code source) = some e ∧ Young s e
    · obtain ⟨e, found, young⟩ := coalesces
      rw [raiseEvent_eq_coalesced w hcls code source d0 d1 found young]
      exact (coalesced_writesOnly s cls code source).regs (Sparse.wf_put _ _ w) _ _ hcls (by decide)
    · rw [raiseEvent_eq_stored w hcls code source d0 d1 fun e found young => coalesces ⟨e, found, young⟩]
      exact (storeEvent_writesOnly _ _).regs (Sparse.wf_put _ _ w) _ _ hcls (by decide)
  exact kept.trans (reg_bump64_same ..)

end

theorem sameStores_raiseEvent (s : State) (cls code source d0 d1 : Nat) : SameStores s (s.raiseEvent cls code source d0 d1) := by
  simp [SameStores]

end Sys2Proof.EventLaws

namespace Sys2Proof.Claims

open Sys2Proof.Machine Sys2Proof.StoreTileLaws Sys2Proof.EventLaws

/-- Settles O55, from the two outcomes of an event: none or an old like record lets it be stored, a young one counts it. -/
theorem eventsWithinTheHoldoffCoalesce : Obligations.EventsWithinTheHoldoffCoalesce := by
  intro s cls code src d0 d1 ⟨params, _⟩ hcls t same stored
  have hcls : cls < 2 ^ 24 := by omega
  refine ⟨reg_raiseEvent_eventsRaised params hcls code src d0 d1, (WritesOnly.raiseEventOf hcls s _ code src d0 d1).regs params,
    sameStores_raiseEvent .., State.raiseEvent_out .., fun unlike => ?_, fun newer older e parts newest he => ?_⟩
  · exact raiseEvent_stores params hcls code src d0 d1 fun e found _ =>
      unlike e (List.mem_of_find?_eq_some found) (like_iff.mp (List.find?_some found))
  · have newest' : ∀ x ∈ newer, ¬ like cls code src x = true := fun x hx k => newest x hx (like_iff.mp k)
    have found : s.log.events.find? (like cls code src) = some e :=
      List.find?_eq_some_iff_append.mpr ⟨like_iff.mpr he, newer, older, parts, fun x hx => by simpa using newest' x hx⟩
    refine ⟨fun old => raiseEvent_stores params hcls code src d0 d1 fun x hx => ?_, fun young => ?_⟩
    · cases found.symm.trans hx
      exact Nat.not_lt.mpr old
    · obtain ⟨log, count, number⟩ := raiseEvent_coalesces params hcls code src d0 d1 parts found newest' young
      have log : t.log = _ := log
      rw [log]
      exact ⟨rfl, count, number, rfl, rfl⟩

end Sys2Proof.Claims

/-! PROOF. The step: every command answers, and keeps the queue, the canonical forms and the bounds (assumption logs 1 to 3). -/

namespace Sys2Proof.Machine

/-- Every command answers a next state, with the queue, the canonical forms and the bounds kept: one arm, one lemma. -/
theorem exec_keeps (c : Instr) (s : State) : ∃ t, exec c s = .next t ∧ Keeps s t := by
  cases c with
  | nop => exact ⟨_, rfl, State.tryIssue_keeps (.refl s) _ _ _ _ fun _ _ h => plainAct_keeps h ..⟩
  | endEntry => exact ⟨_, rfl, State.tryIssue_keeps (.refl s) _ _ _ _ fun _ _ h => endAct_keeps h ..⟩
  | base => exact ⟨_, rfl, State.tryIssue_keeps (.refl s) _ _ _ _ fun _ _ h => baseAct_keeps h ..⟩
  | stride => exact ⟨_, rfl, State.tryIssue_keeps (.refl s) _ _ _ _ fun _ _ h => strideAct_keeps h ..⟩
  | loop => exact ⟨_, rfl, State.tryIssue_keeps (.refl s) _ _ _ _ fun _ _ h => loopAct_keeps h ..⟩
  | mode => exact ⟨_, rfl, State.tryIssue_keeps (.refl s) _ _ _ _ fun _ _ h => modeAct_keeps h ..⟩
  | mma => exact ⟨_, rfl, State.tryIssue_keeps (.refl s) _ _ _ _ fun _ _ h => mmaAct_keeps h ..⟩
  | drain => exact ⟨_, rfl, State.tryIssue_keeps (.refl s) _ _ _ _ fun _ _ h => drainAct_keeps h ..⟩
  | vop => exact ⟨_, rfl, State.tryIssue_keeps (.refl s) _ _ _ _ fun _ _ h => vecTileAct_keeps h ..⟩
  | vrow => exact ⟨_, rfl, State.tryIssue_keeps (.refl s) _ _ _ _ fun _ _ h => vecTileAct_keeps h ..⟩
  | vcol => exact ⟨_, rfl, State.tryIssue_keeps (.refl s) _ _ _ _ fun _ _ h => vecTileAct_keeps h ..⟩
  | vtrans => exact ⟨_, rfl, State.tryIssue_keeps (.refl s) _ _ _ _ fun _ _ h => vtransAct_keeps h ..⟩
  | vld => exact ⟨_, rfl, State.tryIssue_keeps (.refl s) _ _ _ _ fun _ _ h => vldAct_keeps h ..⟩
  | vst => exact ⟨_, rfl, State.tryIssue_keeps (.refl s) _ _ _ _ fun _ _ h => vstAct_keeps h ..⟩
  | vreg => exact ⟨_, rfl, State.tryIssue_keeps (.refl s) _ _ _ _ fun _ _ h => vregAct_keeps h ..⟩
  | vregBcast => exact ⟨_, rfl, State.tryIssue_keeps (.refl s) _ _ _ _ fun _ _ h => vregAct_keeps h ..⟩
  | vregSwaph => exact ⟨_, rfl, State.tryIssue_keeps (.refl s) _ _ _ _ fun _ _ h => vregAct_keeps h ..⟩
  | post => exact ⟨_, rfl, State.tryIssue_keeps (.refl s) _ _ _ _ fun _ _ h => postAct_keeps h ..⟩
  | vimm => exact ⟨_, rfl, State.tryIssue_keeps (.refl s) _ _ _ _ fun _ _ h => vimmAct_keeps h ..⟩
  | red => exact ⟨_, rfl, State.tryIssue_keeps (.refl s) _ _ _ _ fun _ _ h => redAct_keeps h ..⟩
  | move => exact ⟨_, rfl, State.tryIssue_keeps (.refl s) _ _ _ _ fun _ _ h => moveAct_keeps h ..⟩
  | gather => exact ⟨_, rfl, State.tryIssue_keeps (.refl s) _ _ _ _ fun _ _ h => gatherAct_keeps h ..⟩
  | scatter => exact ⟨_, rfl, State.tryIssue_keeps (.refl s) _ _ _ _ fun _ _ h => scatterAct_keeps h ..⟩
  | rsig => exact ⟨_, rfl, State.tryIssue_keeps (.refl s) _ _ _ _ fun _ _ h => rsigAct_keeps h ..⟩
  | nsend => exact ⟨_, rfl, State.tryIssue_keeps (.refl s) _ _ _ _ fun _ _ h => nsendAct_keeps h ..⟩
  | coll => exact ⟨_, rfl, State.tryIssue_keeps (.refl s) _ _ _ _ fun _ _ h => collAct_keeps h ..⟩
  | headDue => exact ⟨_, rfl, headDueStep_keeps (.refl s) ..⟩
  | passEnter => exact ⟨_, rfl, passEnterStep_keeps (.refl s) ..⟩
  | passSumAdd => exact ⟨_, rfl, passSumAddStep_keeps (.refl s) ..⟩
  | halfConversion => exact ⟨_, rfl, halfConversionStep_keeps (.refl s) ..⟩
  | drainSwap => exact ⟨_, rfl, drainSwapStep_keeps (.refl s) ..⟩
  | conversionEnd => exact ⟨_, rfl, conversionEndStep_keeps (.refl s) ..⟩
  | entryComplete => exact ⟨_, rfl, entryCompleteStep_keeps (.refl s) ..⟩
  | remoteTokenRaise => exact ⟨_, rfl, remoteRaiseStep_keeps (.refl s) ..⟩
  | slotStall => exact ⟨_, rfl, slotStallStep_keeps (.refl s) ..⟩
  | stepOpen => exact ⟨_, rfl, stepOpenStep_keeps (.refl s) ..⟩
  | slotChange => exact ⟨_, rfl, slotChangeStep_keeps (.refl s) ..⟩
  | slotCopyComplete => exact ⟨_, rfl, slotCopyStep_keeps (.refl s) ..⟩
  | baseDieOutOfService => exact ⟨_, rfl, baseDieOutStep_keeps (.refl s) ..⟩
  | collCompletionReport => exact ⟨_, rfl, collReportStep_keeps (.refl s) ..⟩
  | updateStart => exact ⟨_, rfl, updateStartStep_keeps (.refl s) ..⟩
  | shardWritten => exact ⟨_, rfl, shardWrittenStep_keeps (.refl s) ..⟩
  | updateInterrupt => exact ⟨_, rfl, updateInterruptStep_keeps (.refl s) ..⟩
  | shardTriggerStall => exact ⟨_, rfl, triggerStallStep_keeps (.refl s) ..⟩
  | contributedWordTake => exact ⟨_, rfl, wordTakeStep_keeps (.refl s) ..⟩
  | commitRecordFormed => exact ⟨_, rfl, commitFormedStep_keeps (.refl s) ..⟩
  | commitStall => exact ⟨_, rfl, commitStallStep_keeps (.refl s) ..⟩
  | checkpointComplete => exact ⟨_, rfl, checkpointStepDone_keeps (.refl s) ..⟩
  | digestRecord => exact ⟨_, rfl, digestRecordStep_keeps (.refl s) ..⟩
  | commitRecord => exact ⟨_, rfl, commitRecordStep_keeps (.refl s) ..⟩
  | recheck => exact ⟨_, rfl, recheckStep_keeps (.refl s) ..⟩
  | recheckRecord => exact ⟨_, rfl, recheckRecordStep_keeps (.refl s) ..⟩
  | copyTileRecord => exact ⟨_, rfl, copyTileStep_keeps (.refl s) ..⟩
  | copyMomentsRecord => exact ⟨_, rfl, copyMomentsStep_keeps (.refl s) ..⟩
  | stopRecord => exact ⟨_, rfl, stopRecordStep_keeps (.refl s) ..⟩
  | riffleCheckComplete => exact ⟨_, rfl, checkCompleteStep_keeps (.refl s) ..⟩
  | riffleArbiterComplete => exact ⟨_, rfl, arbiterStep_keeps (.refl s) ..⟩
  | riffleLapsed => exact ⟨_, rfl, lapsedStep_keeps (.refl s) ..⟩
  | weirSample => exact ⟨_, rfl, weirSampleStep_keeps (.refl s) ..⟩
  | powerGearRise => exact ⟨_, rfl, powerRiseStep_keeps (.refl s) ..⟩
  | hardLimitPersist => exact ⟨_, rfl, hardPersistStep_keeps (.refl s) ..⟩
  | coolantOutOfRange => exact ⟨_, rfl, coolantStep_keeps (.refl s) ..⟩
  | supplyDip => exact ⟨_, rfl, supplyDipStep_keeps (.refl s) ..⟩
  | supplyRecovered => exact ⟨_, rfl, recoveredStep_keeps (.refl s) ..⟩
  | resetLevelCrossing => exact ⟨_, rfl, resetLevelStep_keeps (.refl s) ..⟩
  | enableOpen => exact ⟨_, rfl, enableOpenStep_keeps (.refl s) ..⟩
  | enableMate => exact ⟨_, rfl, enableMateStep_keeps (.refl s) ..⟩
  | qualification => exact ⟨_, rfl, qualificationStep_keeps (.refl s) ..⟩
  | panelResetRelease => exact ⟨_, rfl, panelReleaseStep_keeps (.refl s) ..⟩
  | enterFirmware => exact ⟨_, rfl, enterFirmwareStep_keeps (.refl s) ..⟩
  | enterPanel => exact ⟨_, rfl, enterPanelStep_keeps (.refl s) ..⟩
  | enterMemory => exact ⟨_, rfl, enterMemoryStep_keeps (.refl s) ..⟩
  | enterReady => exact ⟨_, rfl, enterReadyStep_keeps (.refl s) ..⟩
  | watchdogExpiry => exact ⟨_, rfl, watchdogStep_keeps (.refl s) ..⟩
  | trialBootTimeout => exact ⟨_, rfl, trialTimeoutStep_keeps (.refl s) ..⟩
  | fwimageWrite => exact ⟨_, rfl, State.writeAt_keeps (.refl s) ..⟩
  | fwVerify => exact ⟨_, rfl, State.writeOf_keeps (.refl s) ..⟩
  | fwInstall => exact ⟨_, rfl, State.writeOf_keeps (.refl s) ..⟩
  | fwConfirm => exact ⟨_, rfl, State.writeOf_keeps (.refl s) ..⟩
  | fwDiscard => exact ⟨_, rfl, State.writeOf_keeps (.refl s) ..⟩
  | refLoss => exact ⟨_, rfl, refLossStep_keeps (.refl s) ..⟩
  | refReturn => exact ⟨_, rfl, refReturnStep_keeps (.refl s) ..⟩
  | rillFlitCrcError => exact ⟨_, rfl, flitErrorStep_keeps (.refl s) ..⟩
  | rillErrorLimit => exact ⟨_, rfl, errorLimitStep_keeps (.refl s) ..⟩
  | rillRetrain => exact ⟨_, rfl, State.writeOf_keeps (.refl s) ..⟩
  | partialReset => exact ⟨_, rfl, partialResetStep_keeps (.refl s) ..⟩
  | rillTrainingAttempt => exact ⟨_, rfl, trainingStep_keeps (State.reach_keeps (.refl s) _) ..⟩
  | dieFailure => exact ⟨_, rfl, dieFailureStep_keeps (.refl s) ..⟩
  | screenStart => exact ⟨_, rfl, screenStartStep_keeps (.refl s) ..⟩
  | screenEnd => exact ⟨_, rfl, screenEndStep_keeps (.refl s) ..⟩
  | blameRetirement => exact ⟨_, rfl, blameRetireStep_keeps (.refl s) ..⟩
  | screenRequest => exact ⟨_, rfl, State.writeOf_keeps (.refl s) ..⟩
  | fieldStateWrite => exact ⟨_, rfl, fieldWriteStep_keeps (.refl s) ..⟩
  | signatureStore => exact ⟨_, rfl, signatureStoreStep_keeps (.refl s) ..⟩
  | signatureAck => exact ⟨_, rfl, State.writeOf_keeps (.refl s) ..⟩
  | tiermapEntryWrite => exact ⟨_, rfl, State.writeOf_keeps (.refl s) ..⟩
  | stepGateWrite => exact ⟨_, rfl, State.writeOf_keeps (.refl s) ..⟩
  | migrationComplete => exact ⟨_, rfl, migrationCompleteStep_keeps (.refl s) ..⟩
  | demandLoadComplete => exact ⟨_, rfl, demandLoadStep_keeps (.refl s) ..⟩
  | retireRequest => exact ⟨_, rfl, State.writeOf_keeps (.refl s) ..⟩
  | patrolScrub => exact ⟨_, rfl, patrolScrubStep_keeps (.refl s) ..⟩
  | backingReloadComplete => exact ⟨_, rfl, backingReloadStep_keeps (.refl s) ..⟩
  | luWriteComplete => exact ⟨_, rfl, luWriteStep_keeps (.refl s) ..⟩
  | luReadComplete => exact ⟨_, rfl, luReadDone_keeps (.refl s) ..⟩
  | stripeCloseTimeout => exact ⟨_, rfl, stripeCloseStep_keeps (.refl s) ..⟩
  | blockRelocation => exact ⟨_, rfl, blockRelocationStep_keeps (.refl s) ..⟩
  | programEraseFailure => exact ⟨_, rfl, programFailureStep_keeps (.refl s) ..⟩
  | wearLevel => exact ⟨_, rfl, wearLevelStep_keeps (.refl s) ..⟩
  | readDisturbLimit => exact ⟨_, rfl, readDisturbStep_keeps (.refl s) ..⟩
  | flashPatrolScan => exact ⟨_, rfl, flashScanStep_keeps (.refl s) ..⟩
  | bwEntryPersist => exact ⟨_, rfl, bwPersistStep_keeps (.refl s) ..⟩
  | portLinkDown => exact ⟨_, rfl, portDownStep_keeps (.refl s) ..⟩
  | portLinkUp => exact ⟨_, rfl, portUpStep_keeps (.refl s) ..⟩
  | frameReceive => exact ⟨_, rfl, frameStep_keeps (.refl s) ..⟩
  | neighborSolicitation => exact ⟨_, rfl, solicitationStep_keeps (.refl s) ..⟩
  | echoRequest => exact ⟨_, rfl, echoStep_keeps (.refl s) ..⟩
  | data => exact ⟨_, rfl, dataStep_keeps (.refl s) ..⟩
  | ack => exact ⟨_, rfl, ackStep_keeps (.refl s) ..⟩
  | ackDelayTimer => exact ⟨_, rfl, ackDelayStep_keeps (.refl s) ..⟩
  | sync => exact ⟨_, rfl, syncStep_keeps (.refl s) ..⟩
  | syncack => exact ⟨_, rfl, syncackStep_keeps (.refl s) ..⟩
  | needsync => exact ⟨_, rfl, needsyncStep_keeps (.refl s) ..⟩
  | syncRepeatTimer => exact ⟨_, rfl, syncRepeatStep_keeps (.refl s) ..⟩
  | retxTimeout => exact ⟨_, rfl, retxStep_keeps (.refl s) ..⟩
  | nsendTile => exact ⟨_, rfl, nsendTileStep_keeps (.refl s) ..⟩
  | collContribution => exact ⟨_, rfl, collMessageStep_keeps (.refl s) ..⟩
  | collResult => exact ⟨_, rfl, collMessageStep_keeps (.refl s) ..⟩
  | mgmt => exact ⟨_, rfl, mgmtStep_keeps (.refl s) ..⟩
  | ptpSync => exact ⟨_, rfl, ptpSyncStep_keeps (.refl s) ..⟩
  | ptpFollowUp => exact ⟨_, rfl, ptpFollowStep_keeps (.refl s) ..⟩
  | ptpDelayReq => exact ⟨_, rfl, ptpDelayReqStep_keeps (.refl s) ..⟩
  | ptpDelayResp => exact ⟨_, rfl, ptpDelayRespStep_keeps (.refl s) ..⟩
  | ptpSyncSend => exact ⟨_, rfl, ptpSyncSendStep_keeps (.refl s) ..⟩
  | ptpSyncLoss => exact ⟨_, rfl, ptpSyncLossStep_keeps (.refl s) ..⟩
  | queueLineReread => exact ⟨_, rfl, queueRereadStep_keeps (.refl s) ..⟩
  | commandFetch => exact ⟨_, rfl, commandFetchStep_keeps (.refl s) ..⟩
  | hostNop => exact ⟨_, rfl, State.runCommand_keeps (.refl s) _ _ _ _ _ _ fun _ => hostNopRun_keeps (.refl s) ..⟩
  | param => exact ⟨_, rfl, State.runCommand_keeps (.refl s) _ _ _ _ _ _ fun _ => paramRun_keeps (.refl s) ..⟩
  | tileWriteRaw => exact ⟨_, rfl, State.runCommand_keeps (.refl s) _ _ _ _ _ _ fun _ => tileWriteRawRun_keeps (.refl s) ..⟩
  | tileWriteConvert => exact ⟨_, rfl, State.runCommand_keeps (.refl s) _ _ _ _ _ _ fun _ => tileWriteConvertRun_keeps (.refl s) ..⟩
  | tileRead => exact ⟨_, rfl, State.runCommand_keeps (.refl s) _ _ _ _ _ _ fun _ => tileReadRun_keeps (.refl s) ..⟩
  | tableLoad => exact ⟨_, rfl, State.runCommand_keeps (.refl s) _ _ _ _ _ _ fun _ => tableLoadRun_keeps (.refl s) ..⟩
  | stepAbort => exact ⟨_, rfl, State.runCommand_keeps (.refl s) _ _ _ _ _ _ fun _ => stepAbortRun_keeps (.refl s) ..⟩
  | tiermapWrite => exact ⟨_, rfl, State.runCommand_keeps (.refl s) _ _ _ _ _ _ fun _ => tiermapWriteRun_keeps (.refl s) ..⟩
  | tiermapRead => exact ⟨_, rfl, State.runCommand_keeps (.refl s) _ _ _ _ _ _ fun _ => tiermapReadRun_keeps (.refl s) ..⟩
  | stateWrite => exact ⟨_, rfl, State.runCommand_keeps (.refl s) _ _ _ _ _ _ fun _ => stateWriteRun_keeps (.refl s) ..⟩
  | stateRead => exact ⟨_, rfl, State.runCommand_keeps (.refl s) _ _ _ _ _ _ fun _ => stateReadRun_keeps (.refl s) ..⟩
  | moduleReset => exact ⟨_, rfl, moduleResetStep_keeps (.refl s) ..⟩
  | completionWrite => exact ⟨_, rfl, completionStep_keeps (.refl s) ..⟩
  | queueEnable => exact ⟨_, rfl, queueEnableStep_keeps (.refl s) ..⟩
  | queueDisable => exact ⟨_, rfl, queueDisableStep_keeps (.refl s) ..⟩
  | functionEnable => exact ⟨_, rfl, functionEnableStep_keeps (.refl s) ..⟩
  | functionDisable => exact ⟨_, rfl, functionDisableStep_keeps (.refl s) ..⟩
  | quiesceComplete => exact ⟨_, rfl, quiesceStep_keeps (.refl s) ..⟩
  | hostLinkDown => exact ⟨_, rfl, hostLinkDownStep_keeps (.refl s) ..⟩
  | eventRingEnable => exact ⟨_, rfl, State.single_keeps (.refl s) ..⟩
  | eventRingDeliver => exact ⟨_, rfl, ringDeliverStep_keeps (.refl s) ..⟩
  | eventSinkSend => exact ⟨_, rfl, sinkSendStep_keeps (.refl s) ..⟩
  | snapshotTimeWrite => exact ⟨_, rfl, State.writeOf_keeps (.refl s) ..⟩
  | snapshotStepWrite => exact ⟨_, rfl, State.writeOf_keeps (.refl s) ..⟩
  | snapshotInstant => exact ⟨_, rfl, snapshotInstantStep_keeps (.refl s) ..⟩
  | snapshotComplete => exact ⟨_, rfl, snapshotCompleteStep_keeps (.refl s) ..⟩
  | stepFlagRaise => exact ⟨_, rfl, State.writeOf_keeps (.refl s) ..⟩
  | stickyClear => exact ⟨_, rfl, State.writeOf_keeps (.refl s) ..⟩
  | riffleSeedWrite => exact ⟨_, rfl, State.writeOf_keeps (.refl s) ..⟩
  | riffleClear => exact ⟨_, rfl, State.writeOf_keeps (.refl s) ..⟩
  | restoreRequest => exact ⟨_, rfl, State.writeOf_keeps (.refl s) ..⟩
  | restoreComplete => exact ⟨_, rfl, restoreCompleteStep_keeps (.refl s) ..⟩
  | rwsCancel => exact ⟨_, rfl, State.writeOf_keeps (.refl s) ..⟩
  | offenderLatchRearm => exact ⟨_, rfl, State.writeOf_keeps (.refl s) ..⟩
  | guardRecordRearm => exact ⟨_, rfl, State.writeOf_keeps (.refl s) ..⟩
  | shardTableWrite => exact ⟨_, rfl, State.writeAt_keeps (.refl s) ..⟩
  | programWrite => exact ⟨_, rfl, State.writeAt_keeps (.refl s) ..⟩
  | millraceTableWrite => exact ⟨_, rfl, State.writeAt_keeps (.refl s) ..⟩
  | topologyWrite => exact ⟨_, rfl, State.writeAt_keeps (.refl s) ..⟩
  | portmapWrite => exact ⟨_, rfl, State.writeAt_keeps (.refl s) ..⟩
  | watchMapWrite => exact ⟨_, rfl, State.writeAt_keeps (.refl s) ..⟩
  | directoryMessage => exact ⟨_, rfl, directoryMessageStep_keeps (.refl s) ..⟩
  | read => exact ⟨_, rfl, State.single_keeps (.refl s) ..⟩
  | write => exact ⟨_, rfl, State.single_keeps (.refl s) ..⟩
  | describe => exact ⟨_, rfl, State.single_keeps (.refl s) ..⟩
  | next => exact ⟨_, rfl, State.single_keeps (.refl s) ..⟩
  | setEndpointId => exact ⟨_, rfl, setEidStep_keeps (.refl s) ..⟩
  | getEndpointId => exact ⟨_, rfl, State.control_keeps (.refl s) ..⟩
  | getMctpVersionSupport => exact ⟨_, rfl, State.control_keeps (.refl s) ..⟩
  | getMessageTypeSupport => exact ⟨_, rfl, State.control_keeps (.refl s) ..⟩
  | setdasa => exact ⟨_, rfl, setdasaStep_keeps (.refl s) ..⟩
  | entdaa => exact ⟨_, rfl, State.takeAddress_keeps (.refl s) ..⟩
  | getVersion => exact ⟨_, rfl, State.spdm_keeps (.refl s) ..⟩
  | getCapabilities => exact ⟨_, rfl, State.spdm_keeps (.refl s) ..⟩
  | negotiateAlgorithms => exact ⟨_, rfl, State.spdm_keeps (.refl s) ..⟩
  | getDigests => exact ⟨_, rfl, State.spdm_keeps (.refl s) ..⟩
  | getCertificate => exact ⟨_, rfl, State.spdm_keeps (.refl s) ..⟩
  | challenge => exact ⟨_, rfl, challengeStep_keeps (.refl s) ..⟩
  | getMeasurements => exact ⟨_, rfl, measurementsStep_keeps (.refl s) ..⟩
  | spdmUnsupportedRequest => exact ⟨_, rfl, State.spdm_keeps (.refl s) ..⟩
  | perstAssert => exact ⟨_, rfl, perstAssertStep_keeps (.refl s) ..⟩
  | hostLinkUp => exact ⟨_, rfl, hostLinkUpStep_keeps (.refl s) ..⟩
  | perstDeassert => exact ⟨_, rfl, perstDeassertStep_keeps (.refl s) ..⟩
  | requestRetryStatusEnd => exact ⟨_, rfl, retryEndStep_keeps (.refl s) ..⟩
  | supplyHystCrossing => exact ⟨_, rfl, hystStep_keeps (.refl s) ..⟩
  | inputRisesTo38V => exact ⟨_, rfl, input38Step_keeps (.refl s) ..⟩
  | fwInstallComplete => exact ⟨_, rfl, installDoneStep_keeps (.refl s) ..⟩
  | mgmtPortLinkChange => exact ⟨_, rfl, mgmtLinkStep_keeps (.refl s) ..⟩
  | weirParameterWrite =>
    refine ⟨_, rfl, ?_⟩
    split
    · exact State.writeAt_keeps (.refl s) ..
    · exact .refl s
end Sys2Proof.Machine

namespace Sys2Proof.Claims

open Sys2Proof.Machine

/-- What every command keeps, an invariant of the step needs: the canonical forms and the bounds. -/
theorem keeps_canonical_bounded {s t : State} (k : Keeps s t) (can : Canonical s) (bounded : Bounded s) : Canonical t ∧ Bounded t := by
  obtain ⟨params, tiles, pages, dies⟩ := can
  obtain ⟨events, staged, retired⟩ := bounded
  exact ⟨⟨k.params params, k.tiles tiles, k.pages pages, k.dies dies⟩, k.events events, k.staged staged, k.retired retired⟩

/-- Settles O1, from the definition of a step. -/
theorem stepRunsTheFrontCommand : Obligations.StepRunsTheFrontCommand := by
  intro c cs s front
  rw [step, front]

/-- Settles O2: an idle step reaches the next cycle of aclk, which lies ahead. -/
theorem emptyQueueStepPassesOneAclkCycle : Obligations.EmptyQueueStepPassesOneAclkCycle := by
  intro s empty
  have ahead : max s.clock.now (s.clock.now + acRoot) = s.clock.now + 4 := max_eq_right (Nat.le_add_right ..)
  rw [step, empty]
  simp only [State.idle, State.reach, ahead, empty]

/-- Settles O58: a step is one command, with what it keeps, or an idle cycle. -/
theorem everyStepKeepsTheStoresCanonicalAndBounded : Obligations.EveryStepKeepsTheStoresCanonicalAndBounded := by
  intro s t can bounded stepped
  unfold step at stepped
  split at stepped
  · cases stepped
    exact keeps_canonical_bounded (State.idle_keeps (.refl s)) can bounded
  · next c cs _ =>
    obtain ⟨u, answered, kept⟩ := exec_keeps c { s with pending := cs }
    cases answered.symm.trans stepped
    exact keeps_canonical_bounded kept can bounded

/-- Settles O59: each command answers a next state with the same queue, and a step hands it the rest of the queue. -/
theorem everyCommandCompletesAndLeavesTheQueue : Obligations.EveryCommandCompletesAndLeavesTheQueue := by
  have completes (c : Instr) (s : State) : ∃ t, exec c s = .next t ∧ t.pending = s.pending := by
    obtain ⟨t, answered, kept⟩ := exec_keeps c s
    exact ⟨t, answered, kept.queue⟩
  have steps {c : Instr} {cs : List Instr} {s : State} (front : s.pending = c :: cs) : ∃ t, step s = .next t ∧ t.pending = cs := by
    rw [stepRunsTheFrontCommand c cs s front]
    exact completes c { s with pending := cs }
  refine ⟨completes, fun c cs s => steps, fun s => ?_⟩
  cases queue : s.pending with
  | nil => exact ⟨_, emptyQueueStepPassesOneAclkCycle s queue⟩
  | cons c cs =>
    obtain ⟨t, answered, -⟩ := steps queue
    exact ⟨t, answered⟩

/-- Settles O57, by evaluation of the reset state: its stores are empty, so every page, tile and die reads as its default. -/
theorem resetHoldsTheSpecifiedValues : Obligations.ResetHoldsTheSpecifiedValues := by
  have tokens (sl t : Nat) : (State.reset.die sl).token t = 0 := by
    change nth (List.replicate 64 0) t 0 = 0
    simp only [nth, List.getD_eq_getElem?_getD, List.getElem?_replicate]
    split <;> rfl
  have unwritten : Tile.written {} = false := by decide
  refine ⟨rfl, rfl, rfl, rfl, rfl, rfl, rfl, fun _ => rfl, fun _ => unwritten, ?_, ?_, ?_, tokens, ⟨rfl, rfl, rfl, rfl⟩, ?_⟩
  · decide +kernel
  · decide +kernel
  · decide +kernel
  · unfold Bounded
    decide

end Sys2Proof.Claims

/-! PROOF. The frame of an issue (R28, R29, R33 to R36, R42, R175, R282, R290). `AtIssue` for the state in which the meaning of an
entry runs, `UnitFrame` for what a meaning leaves, one lemma for each meaning; and `issues_starting`, the shape of every proof
about one of the 26 commands. -/

namespace Sys2Proof.IssueLaws

open Sys2Proof.Machine Sys2Proof.Claims Sys2Proof.TokenLaws

/-! The state in which the meaning runs. -/

/-- The state `w` in which the meaning of entry `e` runs: the issue is taken, the ac accounted and passed over, and loads may
have been asked for. -/
structure AtIssue (s : State) (sl st e : Nat) (w : State) : Prop where
  frame : Frame sl s w
  net : w.net = s.net
  fabric : w.seq.fabric = s.seq.fabric
  die : w.die sl = { s.die sl with
    streams := (w.die sl).streams, phaseAt := (w.die sl).phaseAt, tokens := tokensTaken s sl e, nextId := (s.die sl).nextId + 1
    lastIssue := (w.die sl).lastIssue, lastAct := (w.die sl).lastAct, stallTold := false }
  stream : strm w sl st = { strm s sl st with passed := 0, held := false }

/-- What the meaning of entry `e`, selected at ROOT cycle `now`, sees of its issue. -/
def ctxAt (s : State) (sl st e now : Nat) : Ctx :=
  { sl := sl, st := st, index := (strm s sl st).head, entry := e, x := (strm s sl st).x, flight := (s.die sl).nextId, now := now }

theorem prepareIssue_net (u : State) (sl st e : Nat) : (u.prepareIssue sl st e).net = (u.account sl).net := by
  generalize h : u.account sl = v
  simp only [State.prepareIssue, h]
  rfl

theorem prepareIssue_fabric (u : State) (sl st e : Nat) : (u.prepareIssue sl st e).seq.fabric = (u.account sl).seq.fabric := by
  generalize h : u.account sl = v
  simp only [State.prepareIssue, h]
  rfl

section

variable {s u : State} {sl st e : Nat} (hsl : sl < 64) (hst : st < 16) (can : Canonical s) (sel : Selected s sl st e u)

include hsl hst can sel

theorem issueCtx_selected : u.issueCtx sl st e = ctxAt s sl st e u.clock.now := by
  have passed := (Waits.of hsl sel).dies can sl
  obtain ⟨head, x⟩ := head_stays passed hst
  have next : (u.die sl).nextId = (s.die sl).nextId := by rw [passed.1]
  simp only [State.issueCtx, ctxAt, head, x, next]

/-- The preparation of an issue leads to the state in which the meaning runs. -/
theorem atIssue_prepare : AtIssue s sl st e (u.prepareIssue sl st e) := by
  have waits := Waits.of hsl sel
  have passed := waits.dies can sl
  obtain ⟨L, ph, t, die, stream⟩ := prep_die u sl st e hst hsl (waits.can can)
  obtain ⟨v, vWaits, -, -, -, vNet, vFabric⟩ := account_rest u sl hsl
  refine ⟨(Frame.waits waits).trans (Frame.prep u sl st e hsl), ?_, ?_, ?_, ?_⟩
  · rw [prepareIssue_net, vNet, vWaits.rest, waits.rest]
  · rw [prepareIssue_fabric, vFabric, vWaits.rest, waits.rest]
  · rw [die, passed.1]
    rfl
  · have same : ({ (u.die sl).stream st with passed := 0 } : Stream) = { strm s sl st with passed := 0 } := by rw [passed.2 st hst]; rfl
    have out : strm (u.prepareIssue sl st e) sl st = { nth L st {} with passed := 0, held := false } := by
      rw [strm, die]
      exact nth_setAt_same ..
    rw [out, show ({ nth L st {} with passed := 0, held := false } : Stream) = { ({ nth L st {} with passed := 0 } : Stream) with held := false }
      from rfl, stream, same]

end

namespace AtIssue

variable {s w : State} {sl st e : Nat} (at' : AtIssue s sl st e w)

include at'

theorem tiles : w.mem.tiles = s.mem.tiles := at'.frame.stores.1
theorem pages : w.mem.pages = s.mem.pages := at'.frame.stores.2.1

/-- Loads that are asked for change nothing that the meaning sees. -/
theorem startLoads (ps : List Nat) : AtIssue s sl st e (w.startLoads ps) :=
  ⟨at'.frame.trans (Frame.startLoads ..), at'.net, at'.fabric, at'.die, at'.stream⟩

theorem reg (can : Canonical s) {p i : Nat} (hp : p ∉ issueRegs) (hi : i < 2 ^ 24) : w.reg p i = s.reg p i :=
  at'.frame.regs can p i hi hp

theorem val (can : Canonical s) {p : Nat} (hp : p ∉ issueRegs) : w.val p = s.val p := at'.reg can hp (by decide)

theorem step (can : Canonical s) : w.step = s.step := at'.val can (by decide)

end AtIssue

/-! What operands depend on. -/

theorem page_congr {s t : State} (h : t.mem.pages = s.mem.pages) (p : Nat) : t.page p = s.page p := by
  simp only [State.page, h]

theorem tile_congr {s t : State} (h : t.mem.tiles = s.mem.tiles) (i : Nat) : t.tile i = s.tile i := by simp only [State.tile, h]

theorem place_congr {s t : State} (h : t.mem.pages = s.mem.pages) (i : Nat) : t.place i = s.place i := by
  simp only [State.place, page_congr h]

theorem resident_congr {s t : State} (h : t.mem.pages = s.mem.pages) (sl i : Nat) : t.resident sl i = s.resident sl i := by
  simp only [State.resident, page_congr h]

theorem unloaded_congr {s t : State} (h : t.mem.pages = s.mem.pages) (ids : List Nat) : t.unloaded ids = s.unloaded ids := by
  simp only [State.unloaded, page_congr h]

/-- What a tile operand gives depends on the tiles and the tier map only (R68). -/
theorem readOperand_congr {s t : State} (ht : t.mem.tiles = s.mem.tiles) (hp : t.mem.pages = s.mem.pages) (sl i : Nat) (f : Fmt) :
    (t.readOperand sl i f).1 = (s.readOperand sl i f).1 := by
  unfold State.readOperand
  rw [place_congr hp]
  split
  · rfl
  · rfl
  all_goals
    dsimp only
    rw [tile_congr ht]
    split_ifs <;> rfl

/-! What the meanings leave. -/

/-- What a meaning leaves: the frame of an issue, and the tokens and entries in flight of its own die. -/
structure UnitFrame (sl : Nat) (s t : State) : Prop where
  frame : Frame sl s t
  die : KeepsDie (s.die sl) (t.die sl)

namespace UnitFrame

theorem refl (sl : Nat) (s : State) : UnitFrame sl s s := ⟨Frame.refl .., KeepsDie.refl _⟩

theorem trans {sl : Nat} {a b c : State} (h : UnitFrame sl a b) (g : UnitFrame sl b c) : UnitFrame sl a c :=
  ⟨h.frame.trans g.frame, h.die.trans g.die⟩

theorem of_seq {sl : Nat} {s t : State} (h : Frame sl s t) (g : t.seq = s.seq) : UnitFrame sl s t :=
  ⟨h, by rw [State.die_congr g]; exact KeepsDie.refl _⟩

theorem setDie (s : State) {sl : Nat} {d : Die} (h : KeepsDie (s.die sl) d) : UnitFrame sl s (s.setDie sl d) :=
  ⟨Frame.setDie .., by rw [State.die_setDie_same]; exact h⟩

theorem setArray (s : State) (sl a : Nat) (x : ArrayState) : UnitFrame sl s (s.setArray sl a x) := setDie s (KeepsDie.setArray ..)

theorem modStream (s : State) (c : Ctx) (f : Stream → Stream) : UnitFrame c.sl s (s.modStream c f) := setDie s ⟨rfl, rfl⟩

theorem busyVector (s : State) (c : Ctx) (n late : Nat) : UnitFrame c.sl s (s.busyVector c n late) := setDie s ⟨rfl, rfl⟩

theorem busyReducer (s : State) (c : Ctx) (n late : Nat) : UnitFrame c.sl s (s.busyReducer c n late) := setDie s ⟨rfl, rfl⟩

theorem seq_operandDelay (s : State) (sl : Nat) (ids : List Nat) : (s.operandDelay sl ids).2.seq = s.seq := by
  unfold State.operandDelay
  split <;> rfl

theorem operandDelay (k : Nat) (s : State) (sl : Nat) (ids : List Nat) : UnitFrame k s (s.operandDelay sl ids).2 :=
  of_seq (Frame.operandDelay ..) (seq_operandDelay ..)

section

variable {sl : Nat} (hsl : sl < 64) (k : Nat) (s : State)

include hsl

theorem readOperand (i : Nat) (f : Fmt) : UnitFrame k s (s.readOperand sl i f).2 :=
  of_seq (Frame.readOperand _ _ _ _ _ (by omega)) (seq_readOperand ..)

theorem readIndex (i : Nat) : UnitFrame k s (s.readIndex sl i).2 := of_seq (Frame.readIndex _ _ _ _ (by omega)) (seq_readIndex ..)

theorem readRaw (i w : Nat) : UnitFrame k s (s.readRaw sl i w).2.2 := of_seq (Frame.readRaw _ _ _ _ _ (by omega)) (seq_readRaw ..)

theorem verifyTile (i w : Nat) (t : Tile) (v : Bool) : UnitFrame k s (s.verifyTile sl i w t v).2 :=
  of_seq (Frame.verifyTile _ _ _ _ _ _ _ (by omega)) (seq_verify ..)

theorem bump64 {p : Nat} (hp : p ∈ issueRegs) (n : Nat) : UnitFrame k s (s.bump64 p sl n) :=
  of_seq (Frame.bump64 _ _ _ _ _ (by omega) hp) rfl

theorem delayedOperand (ids : List Nat) (i : Nat) (f : Fmt) :
    UnitFrame k s ((s.operandDelay sl ids).2.readOperand sl i f).2 :=
  (operandDelay k s sl ids).trans (readOperand hsl k _ i f)

theorem fillMma (j : MmaJob) : UnitFrame k s (s.fillMma sl j).2 :=
  (delayedOperand hsl k s _ _ _).trans (readOperand hsl k _ _ _)

end

section

variable (s : State) {c : Ctx} (hc : c.sl < 64)

theorem plainAct_modStream (f : Stream → Stream) : UnitFrame c.sl s (Machine.plainAct (s.modStream c f) c).state := modStream ..

theorem rsigAct : UnitFrame c.sl s (Machine.rsigAct s c).state :=
  ⟨by apply Frame.same <;> rfl, KeepsDie.refl _⟩

theorem modeAct : UnitFrame c.sl s (Machine.modeAct s c).state := setArray ..

theorem drainAct : UnitFrame c.sl s (Machine.drainAct s c).state := by
  refine .trans ?_ (setArray ..)
  split
  · exact of_seq (Frame.startCheck ..) (seq_startCheck ..)
  · exact refl ..

theorem postAct : UnitFrame c.sl s (Machine.postAct s c).state := by
  unfold Machine.postAct
  dsimp only
  split
  · exact busyVector ..
  · exact (busyVector ..).trans (setDie _ ⟨rfl, rfl⟩)

include hc

theorem mmaAct : UnitFrame c.sl s (Machine.mmaAct s c).state := by
  unfold Machine.mmaAct
  dsimp only
  refine .trans ?_ (setArray ..)
  split
  · exact refl ..
  · exact fillMma hc ..

theorem vecTileAct (form : Nat) : UnitFrame c.sl s (Machine.vecTileAct form s c).state := by
  unfold Machine.vecTileAct
  dsimp only
  refine .trans ?_ (busyVector ..)
  have a := delayedOperand hc c.sl s
  split
  · exact a ..
  · split
    · exact (a ..).trans (readOperand hc ..)
    · exact a ..
    · exact a ..

theorem vtransAct : UnitFrame c.sl s (Machine.vtransAct s c).state := (delayedOperand hc ..).trans (busyVector ..)

theorem vldAct : UnitFrame c.sl s (Machine.vldAct s c).state := (delayedOperand hc ..).trans (busyVector ..)

theorem redAct : UnitFrame c.sl s (Machine.redAct s c).state := (delayedOperand hc ..).trans (busyReducer ..)

theorem vstAct : UnitFrame c.sl s (Machine.vstAct s c).state := by
  unfold Machine.vstAct
  dsimp only
  refine .trans ?_ (busyVector ..)
  split_ifs
  · exact bump64 hc _ _ (p := P.formatMismatches) (by decide) _
  · exact bump64 hc _ _ (p := P.widthMismatches) (by decide) _
  · exact refl ..

theorem moveAct : UnitFrame c.sl s (Machine.moveAct s c).state := (readRaw hc ..).trans (verifyTile hc ..)

theorem gatherAct : UnitFrame c.sl s (Machine.gatherAct s c).state := readIndex hc ..

theorem scatterAct : UnitFrame c.sl s (Machine.scatterAct s c).state := by
  have reads := fun i f j => (readOperand hc c.sl s i f).trans (readIndex hc c.sl _ j)
  unfold Machine.scatterAct
  dsimp only
  split <;> exact reads ..

theorem nsendAct : UnitFrame c.sl s (Machine.nsendAct s c).state :=
  (readRaw hc ..).trans (of_seq (Frame.sendMessage _ _ _ _ _ (by simp only [enM, bits]; omega)) (seq_sendMessage ..))

end

end UnitFrame

@[simp] theorem unmappedAccess_net (s : State) (acct i : Nat) : (s.unmappedAccess acct i).net = s.net := by
  unfold State.unmappedAccess
  dsimp only
  split
  · rfl
  · rw [State.raiseEvent_net]
    rfl

@[simp] theorem collSource_net (s : State) (sl i : Nat) : (s.collSource sl i).2.net = s.net := by
  unfold State.collSource
  split
  · exact unmappedAccess_net ..
  · exact unmappedAccess_net ..
  all_goals
    dsimp only
    split <;> rfl

@[simp] theorem collSources_net (s : State) (sl first n : Nat) : (s.collSources sl first n).2.net = s.net := by
  induction n with
  | zero => rfl
  | succ n ih => exact (collSource_net ..).trans ih

/-- A COLL for which no message waits is fed nothing (R239). -/
theorem feedColl_of_none_early {s : State} (none : s.net.early = []) (key : Nat) :
    s.feedColl key = { s with net := (s.feedColl key).net } := by
  unfold State.feedColl
  split
  · rfl
  · simp [none]

/-- A COLL for which no message waits leaves what every meaning leaves (R239). -/
theorem UnitFrame.collAct (s : State) {c : Ctx} (hc : c.sl < 64) (none : s.net.early = []) :
    UnitFrame c.sl s (Machine.collAct s c).state := by
  have numbered (t : State) (net : Net) (k : Nat) (h : UnitFrame c.sl s t) (hn : net.early = []) :
      UnitFrame c.sl s (({ t with net := net } : State).feedColl k) := by
    rw [feedColl_of_none_early hn]
    exact h.trans ⟨by apply Frame.same <;> rfl, KeepsDie.refl _⟩
  unfold Machine.collAct
  dsimp only
  split
  · exact numbered _ _ _ (refl ..) none
  · refine numbered _ _ _ (of_seq (Frame.collSources _ _ _ _ _ hc) (seq_collSources ..)) ?_
    rwa [collSources_net]

/-! The 26 commands. -/

theorem courseAct_unitFrame (i : Instr) (s : State) {c : Ctx} (hc : c.sl < 64)
    (coll : ∀ sl st, i = .coll sl st → s.net.early = []) : UnitFrame c.sl s (courseAct i s c).state := by
  unfold courseAct
  split
  · exact .plainAct_modStream ..
  · exact .plainAct_modStream ..
  · exact .plainAct_modStream ..
  · exact .plainAct_modStream ..
  · exact .modeAct ..
  · exact .mmaAct s hc
  · exact .drainAct ..
  · exact .vecTileAct s hc 0
  · exact .vecTileAct s hc 1
  · exact .vecTileAct s hc 2
  · exact .vtransAct s hc
  · exact .vldAct s hc
  · exact .vstAct s hc
  · exact .busyVector ..
  · exact .busyVector ..
  · exact .busyVector ..
  · exact .postAct ..
  · exact .busyVector ..
  · exact .redAct s hc
  · exact .moveAct s hc
  · exact .gatherAct s hc
  · exact .scatterAct s hc
  · exact .rsigAct s
  · exact .nsendAct s hc
  · exact .collAct s hc (coll _ _ rfl)
  · exact .refl ..

/-! The issue. -/

/-- What the unit of entry `e` makes of its issue, from the state `v` that the preparation leaves: the meaning's result, with
the loads that operands need. -/
def unitOf (c : Instr) (s v : State) (sl st e now : Nat) : Issued :=
  v.startUnit (ctxAt s sl st e now) (coldPages s sl st e) (courseAct c)

/-- The entry in flight of an issue whose unit made `r`. -/
def flightOf (s : State) (sl st e now : Nat) (r : Issued) : Flight :=
  (ctxAt s sl st e now).flightOf (headFootprint s sl st e) s.step (coldPages s sl st e) r

/-- The state after an issue whose unit made `r`. -/
def issued (s : State) (sl st e now : Nat) (r : Issued) : State :=
  r.state.setDie sl ((r.state.die sl).launch st (strm s sl st).head (flightOf s sl st e now r))

section

variable {c : Instr} {s u : State} {sl st e : Nat} {ok : Nat → Bool} (hsl : sl < 64) (hst : st < 16)
  (hc : courseHead c = some (sl, st, ok)) (hok : ok e = true) (can : Canonical s) (sel : Selected s sl st e u)

include hsl hst hc hok can sel

theorem exec_issued : exec c s = .next (issued s sl st e u.clock.now (unitOf c s (u.prepareIssue sl st e) sl st e u.clock.now)) := by
  have waits := Waits.of hsl sel
  have prepared := atIssue_prepare hsl hst can sel
  rw [exec_eq_tryIssue hc, tryIssue_sel sel hok]
  have fp : u.footprintOf (u.die sl) ((u.die sl).stream st) e = headFootprint s sl st e := footprint_stays waits can hst
  have ctx := issueCtx_selected hsl hst can sel
  simp only [State.issueNow, fp, ctx, unloaded_congr prepared.pages, prepared.step can]
  rfl

omit hsl hst can sel in
theorem opcode_coll {i : Slot} {k : StreamIx} (h : c = .coll i k) : enOpcode e = 0x41 := by
  subst h
  cases hc
  exact beq_iff_eq.mp hok

/-- R28, R29, R33 to R36: a selected head issues, and what its command makes besides is what its meaning makes. -/
theorem issues_of_unit {Q : Flight → State → Prop}
    (hQ : ∀ v, AtIssue s sl st e v → let r := unitOf c s v sl st e u.clock.now
      Q (flightOf s sl st e u.clock.now r) (issued s sl st e u.clock.now r)) :
    Issues c s sl st e u Q := by
  have prepared := atIssue_prepare hsl hst can sel
  generalize hv : u.prepareIssue sl st e = v at prepared
  have tokens : KeepsTokens v (unitOf c s v sl st e u.clock.now).state := .startUnit (courseAct_keepsTokens c) ..
  refine ⟨_, hv ▸ exec_issued hsl hst hc hok can sel, flightOf s sl st e u.clock.now (unitOf c s v sl st e u.clock.now), ?_, ?_, fun early => ?_, hQ v prepared⟩
  · refine ⟨?_, rfl, rfl, rfl, rfl, rfl, rfl⟩
    rw [issued, State.die_setDie_same]
    exact List.mem_append_right _ (List.mem_singleton_self _)
  · rw [issued, State.die_setDie_same]
    calc ((unitOf c s v sl st e u.clock.now).state.die sl).tokens = (v.die sl).tokens := tokens.tokens (prepared.frame.can can).2.2.2 sl
      _ = tokensTaken s sl e := by rw [prepared.die]
  · refine ((prepared.frame.trans ?_).trans (Frame.setDie ..)).of can
    unfold unitOf State.startUnit
    split
    · refine (Frame.startLoads sl v _).trans (courseAct_unitFrame c _ (c := ctxAt s sl st e _) hsl fun i k h => ?_).frame
      exact (congrArg Net.early prepared.net).trans (early (opcode_coll hc hok h))
    · exact Frame.startLoads ..

end

end Sys2Proof.IssueLaws

/-! PROOF. The loads that an issue asks for (R36, R175). `KeepsDemand` for what forgets no load that was asked for, for the two
meanings that run before their operands are loaded: MMA, and COLL with the messages that waited for it. -/

namespace Sys2Proof.IssueLaws

open Sys2Proof.Machine Sys2Proof.Claims Sys2Proof.TokenLaws

/-- Every load that was asked for is still asked for. -/
def KeepsDemand (s t : State) : Prop := s.mem.demand ⊆ t.mem.demand

namespace KeepsDemand

theorem refl (s : State) : KeepsDemand s s := fun _ => id

theorem trans {s t u : State} (h : KeepsDemand s t) (g : KeepsDemand t u) : KeepsDemand s u := fun _ x => g (h x)

theorem of_mem {s t : State} (h : t.mem = s.mem) : KeepsDemand s t := fun _ x => h ▸ x

theorem foldl {α : Type} {f : State → α → State} (hf : ∀ t x, KeepsDemand t (f t x)) (xs : List α) (s : State) :
    KeepsDemand s (xs.foldl f s) := by
  induction xs generalizing s with
  | nil => exact refl s
  | cons x xs ih => exact (hf s x).trans (ih _)

theorem startLoads (s : State) (ps : List Nat) : KeepsDemand s (s.startLoads ps) := fun _ => List.mem_append_left _

/-! Operands. -/

theorem unmappedAccess (s : State) (acct i : Nat) : KeepsDemand s (s.unmappedAccess acct i) := by
  unfold State.unmappedAccess
  dsimp only
  split
  · exact refl s
  · unfold KeepsDemand
    rw [State.raiseEvent_mem]
    exact fun _ => id

theorem readOperand (s : State) (sl i : Nat) (f : Fmt) : KeepsDemand s (s.readOperand sl i f).2 := by
  unfold State.readOperand
  split
  · exact unmappedAccess ..
  · exact unmappedAccess ..
  all_goals
    dsimp only
    split_ifs <;> exact refl s

theorem operandDelay (s : State) (sl : Nat) (ids : List Nat) : KeepsDemand s (s.operandDelay sl ids).2 := by
  unfold State.operandDelay
  split <;> exact refl s

theorem fillMma (s : State) (sl : Nat) (j : MmaJob) : KeepsDemand s (s.fillMma sl j).2 :=
  ((operandDelay s sl _).trans (readOperand _ sl _ _)).trans (readOperand _ sl _ _)

theorem collSource (s : State) (sl i : Nat) : KeepsDemand s (s.collSource sl i).2 := by
  unfold State.collSource
  split
  · exact unmappedAccess ..
  · exact unmappedAccess ..
  all_goals
    dsimp only
    split <;> exact refl s

theorem collSources (s : State) (sl first n : Nat) : KeepsDemand s (s.collSources sl first n).2 := by
  induction n with
  | zero => exact refl s
  | succ n ih => exact ih.trans (collSource ..)

/-! Writes of tiles. -/

theorem storeTile (s : State) (acct i cls : Nat) (t : Tile) : KeepsDemand s (s.storeTile acct i cls t).2 := by
  have stored (i : Nat) (t : Tile) : KeepsDemand s (s.putStored i t) := by
    unfold State.putStored
    dsimp only
    split <;> exact fun _ => id
  unfold State.storeTile
  split
  · exact unmappedAccess ..
  · exact of_mem (State.raiseEvent_mem ..)
  · exact of_mem (State.raiseEvent_mem ..)
  · dsimp only
    split <;> exact stored ..

theorem tileWrite (s : State) (w : TileWrite) : KeepsDemand s (s.tileWrite w) := by
  have stored := storeTile s w.acct w.id w.cls w.tile
  unfold State.tileWrite
  split
  · next h => rwa [h] at stored
  · next h =>
    rw [h] at stored
    refine stored.trans (of_mem ?_)
    dsimp only
    split
    · unfold State.countTileLayer
      split <;> exact State.condition_mem ..
    · exact State.condition_mem ..

theorem writeTile (s : State) (acct : Nat) (w : Writer) (b i cls : Nat) (t : Tile) : KeepsDemand s (s.writeTile acct w b i cls t) := by
  unfold State.writeTile State.write
  dsimp only
  split
  · exact tileWrite ..
  · exact startLoads ..

/-! The messages of collectives (R239). -/

theorem sendMessage_mem (s : State) (ns step : Nat) (bs : List Byte) : (s.sendMessage ns step bs).2.mem = s.mem := by
  have packet (t : State) (a b : Nat) (c : List Byte) : (t.sendPacket a b c).mem = t.mem := by
    unfold State.sendPacket
    dsimp only
    split <;> rfl
  have segment (t : State) (g : Seg) : (t.sendSeg ns g).mem = t.mem := by
    unfold State.sendSeg
    dsimp only
    split <;> exact packet ..
  have segments (gs : List Seg) (t : State) : (gs.foldl (fun t g => t.sendSeg ns g) t).mem = t.mem := by
    induction gs generalizing t with
    | nil => rfl
    | cons g gs ih => exact (ih _).trans (segment ..)
  unfold State.sendMessage State.pump
  dsimp only
  split
  · rfl
  · exact segments _ _

theorem sendColl (s : State) (c : Coll) (q kind index : Nat) (t : Option CollTile) : KeepsDemand s (s.sendColl c q kind index t) :=
  of_mem (sendMessage_mem ..)

theorem writeResult (s : State) (c : Coll) (q i : Nat) (t : Tile) (fl : List Nat) : KeepsDemand s (s.writeResult c q i t fl) :=
  writeTile s ..

theorem formResults (s : State) (key : Nat) : KeepsDemand s (s.formResults key) := by
  unfold State.formResults
  split
  · exact refl s
  split
  · exact refl s
  refine foldl (fun t i => ?_) _ s
  split
  · exact refl t
  dsimp only
  split
  · exact refl t
  have written (c d : Coll) (x : Tile) (fl : List Nat) : KeepsDemand t ((t.setColl c).writeResult d d.rank i x fl) :=
    writeResult (t.setColl c) d d.rank i x fl
  split
  · exact (written ..).trans (foldl (fun u q => sendColl u _ q 2 i _) _ _)
  · exact written ..

theorem settleColl (s : State) (key : Nat) : KeepsDemand s (s.settleColl key) := by
  have formed := formResults s key
  unfold State.settleColl
  dsimp only
  split
  · exact formed
  · split <;> exact formed

theorem updateColl (s : State) (key : Nat) (f : Coll → Coll) :
    KeepsDemand s (match s.coll key with | some k => s.setColl (f k) | none => s) := by
  split <;> exact refl s

theorem applyWord (s : State) (c : Coll) (fw : Nat) : KeepsDemand s (s.applyWord c fw) := by
  unfold State.applyWord
  extract_lets noted
  refine .trans (t := noted) (updateColl s c.key _) ?_
  split
  · exact refl noted
  · exact of_mem (State.condition_mem ..)

theorem verifyReceived (s : State) (acct i w : Nat) (t : Tile) : KeepsDemand s (s.verifyReceived acct i w t).2 := by
  unfold State.verifyReceived State.verifyTile
  split
  · exact of_mem (State.raiseEvent_mem ..)
  · exact refl s

theorem applyColl (s : State) (c : Coll) (bs : List Byte) : KeepsDemand s (s.applyColl c bs) := by
  unfold State.applyColl
  split
  · unfold State.applyContribution
    dsimp only
    refine .trans (.trans (.trans ?_ (applyWord _ c _)) (updateColl _ c.key _)) (settleColl _ c.key)
    split
    · exact refl s
    · exact verifyReceived ..
  · unfold State.applyResult
    dsimp only
    refine .trans (.trans (.trans ?_ (applyWord _ c _)) (updateColl _ c.key _)) (settleColl _ c.key)
    split
    · exact refl s
    · exact (verifyReceived ..).trans (writeTile ..)

theorem feedColl (s : State) (key : Nat) : KeepsDemand s (s.feedColl key) := by
  unfold State.feedColl
  split
  · exact refl s
  · dsimp only
    refine .trans ?_ (foldl (fun t x => applyColl t _ _) _ _)
    exact of_mem rfl

/-! The two meanings. -/

theorem mmaAct (s : State) (c : Ctx) : KeepsDemand s (Machine.mmaAct s c).state := by
  unfold Machine.mmaAct
  dsimp only
  refine .trans ?_ (of_mem (State.setArray_mem ..))
  split
  · exact refl s
  · exact fillMma ..

theorem collAct (s : State) (c : Ctx) : KeepsDemand s (Machine.collAct s c).state := by
  have numbered (t : State) (net : Net) (k : Nat) (h : KeepsDemand s t) : KeepsDemand s (({ t with net := net } : State).feedColl k) :=
    h.trans (feedColl ({ t with net := net } : State) k)
  unfold Machine.collAct
  dsimp only
  split
  · exact numbered _ _ _ (refl s)
  · exact numbered _ _ _ (collSources ..)

end KeepsDemand

theorem mem_startLoads {s : State} {ps : List Nat} {p : Nat} (h : p ∈ ps) : p ∈ (s.startLoads ps).mem.demand := by
  by_cases asked : p ∈ s.mem.demand
  · exact KeepsDemand.startLoads s ps asked
  · exact List.mem_append_right _ (List.mem_filter.2 ⟨List.mem_eraseDups.2 h, by simp [asked]⟩)

/-- Of the 26 commands, MMA and COLL alone issue entries that take their place before their operands are loaded. -/
theorem courseAct_of_queuesCold {c : Instr} {sl st e : Nat} {ok : Nat → Bool} (hc : courseHead c = some (sl, st, ok)) (hok : ok e = true)
    (queues : queuesCold e = true) :
    (enOpcode e = 0x10 ∧ courseAct c = mmaAct) ∨ (enOpcode e = 0x41 ∧ courseAct c = collAct) := by
  have opcode : enOpcode e = 0x10 ∨ enOpcode e = 0x41 := by simpa [queuesCold] using queues
  unfold courseHead at hc
  split at hc <;> cases hc <;> simp_all [courseAct]

/-- R36, R175: an issue asks for every load that its operands need. -/
theorem mem_demand_issued {c : Instr} {s v : State} {sl st e p : Nat} {ok : Nat → Bool} (hc : courseHead c = some (sl, st, ok))
    (hok : ok e = true) (now : Nat) (hp : p ∈ coldPages s sl st e) : p ∈ (issued s sl st e now (unitOf c s v sl st e now)).mem.demand := by
  have asked : p ∈ (v.startLoads (coldPages s sl st e)).mem.demand := mem_startLoads hp
  show p ∈ (unitOf c s v sl st e now).state.mem.demand
  unfold unitOf State.startUnit
  split
  next starts =>
    have queues : queuesCold e = true := starts.resolve_left (List.ne_nil_of_mem hp)
    obtain ⟨-, act⟩ | ⟨-, act⟩ := courseAct_of_queuesCold hc hok queues
    · exact act ▸ KeepsDemand.mmaAct _ _ asked
    · exact act ▸ KeepsDemand.collAct _ _ asked
  · exact asked

/-- R36, R175: an entry, but for a COLL, whose operands are not all loaded has formed nothing at its issue. -/
theorem flightOf_cold {c : Instr} {s v : State} {sl st e : Nat} {ok : Nat → Bool} (hc : courseHead c = some (sl, st, ok))
    (hok : ok e = true) (now : Nat) (cold : coldPages s sl st e ≠ []) (notColl : enOpcode e ≠ 0x41) :
    let r := unitOf c s v sl st e now
    r.ready = false ∧ r.effects = [] := by
  show (unitOf c s v sl st e now).ready = false ∧ (unitOf c s v sl st e now).effects = []
  unfold unitOf State.startUnit
  split
  next starts =>
    obtain ⟨-, act⟩ | ⟨coll, -⟩ := courseAct_of_queuesCold hc hok (starts.resolve_left cold)
    · rw [act]
      exact ⟨rfl, rfl⟩
    · exact absurd coll notColl
  · exact ⟨rfl, rfl⟩

end Sys2Proof.IssueLaws

namespace Sys2Proof.Claims

open Sys2Proof.Machine Sys2Proof.IssueLaws

/-- Settles O3: the frame of every meaning, and the loads that the issue asks for. -/
theorem issuedEntryEntersFlight : Obligations.IssuedEntryEntersFlight := by
  intro c sl st ok s u e hsl hst hc hok can sel
  exact issues_of_unit hsl hst hc hok can sel fun v _ =>
    ⟨rfl, fun p hp => mem_demand_issued hc hok _ hp, fun cold notColl => flightOf_cold hc hok _ cold notColl⟩

end Sys2Proof.Claims

/-! PROOF. What the entries of the sequencer and of the arrays make (R20 to R27, R32, R37, R38, R97, R128). `issues_starting` for an
entry whose unit starts at issue, and what the issue leaves of its stream and of its die. -/

namespace Sys2Proof.IssueLaws

open Sys2Proof.Machine Sys2Proof.Claims Sys2Proof.TokenLaws

/-! An entry whose unit starts at issue. -/

/-- R36: where the unit starts at issue, the meaning runs in a state that the issue has prepared. -/
theorem issues_starting {c : Instr} {s u : State} {sl st e : Nat} {ok : Nat → Bool} {act : State → Ctx → Issued}
    {Q : Flight → State → Prop} (hsl : sl < 64) (hst : st < 16) (hc : courseHead c = some (sl, st, ok)) (hact : courseAct c = act) (hok : ok e = true) (can : Canonical s) (sel : Selected s sl st e u)
    (starts : coldPages s sl st e = [] ∨ queuesCold e = true)
    (hQ : ∀ w, AtIssue s sl st e w → let r := act w (ctxAt s sl st e u.clock.now)
      Q (flightOf s sl st e u.clock.now r) (issued s sl st e u.clock.now r)) :
    Issues c s sl st e u Q := by
  refine issues_of_unit hsl hst hc hok can sel fun v prepared => ?_
  have unit : unitOf c s v sl st e u.clock.now = act (v.startLoads (coldPages s sl st e)) (ctxAt s sl st e u.clock.now) :=
    hact ▸ if_pos starts
  rw [unit]
  exact hQ _ (prepared.startLoads _)

/-- An entry that reads no tile waits for no load. -/
theorem coldPages_of_no_tiles {s : State} {sl st e : Nat} (h : touchedTiles (headFootprint s sl st e).1 = []) :
    coldPages s sl st e = [] := by
  rw [coldPages, h]
  rfl

/-! What an issue leaves of its die. -/

section

variable (s : State) (sl st e now : Nat) (r : Issued)

theorem die_issued : (issued s sl st e now r).die sl = (r.state.die sl).launch st (strm s sl st).head (flightOf s sl st e now r) :=
  State.die_setDie_same ..

theorem array_issued (a : Nat) : (issued s sl st e now r).array sl a = r.state.array sl a := by
  rw [State.array, die_issued]
  rfl

theorem posted_issued : ((issued s sl st e now r).die sl).posted = (r.state.die sl).posted := by
  rw [die_issued]
  rfl

theorem vecBusy_issued : ((issued s sl st e now r).die sl).vecBusy = (r.state.die sl).vecBusy := by
  rw [die_issued]
  rfl

theorem stream_launch (d : Die) (st index : Nat) (f : Flight) : (d.launch st index f).stream st =
    if enOpcode f.entry = 0x04 then { d.stream st with head := index + 1 } else loopAdvance 8 (d.stream st) index :=
  nth_setAt_same ..

theorem strm_issued : strm (issued s sl st e now r) sl st =
    if enOpcode e = 0x04 then { strm r.state sl st with head := (strm s sl st).head + 1 }
    else loopAdvance 8 (strm r.state sl st) (strm s sl st).head := by
  rw [strm, die_issued]
  exact stream_launch ..

end

/-- R27: outside a loop the head moves to the next entry. -/
theorem loopAdvance_of_no_loops {x : Stream} (h : x.loops = []) (n i : Nat) : loopAdvance n x i = { x with head := i + 1 } := by
  cases n with
  | zero => rfl
  | succ n => simp only [loopAdvance, h]

theorem strm_modStream (w : State) (c : Ctx) (f : Stream → Stream) : strm (w.modStream c f) c.sl c.st = f (strm w c.sl c.st) := by
  rw [strm, State.modStream, State.die_setDie_same]
  exact nth_setAt_same ..

/-- R20 to R22, R26: the issue of an entry that only leaves `z` of its stream outside a loop (or, for a LOOP, in its first), and is
due one ac later. -/
theorem issues_sequencer {c : Instr} {s u : State} {sl st e : Nat} {ok : Nat → Bool} {z : Stream} (hsl : sl < 64) (hst : st < 16)
    (hc : courseHead c = some (sl, st, ok)) (hok : ok e = true) (can : Canonical s) (sel : Selected s sl st e u)
    (noTiles : touchedTiles (headFootprint s sl st e).1 = []) (stays : enOpcode e = 0x04 ∨ z.loops = [])
    (made : ∀ w, AtIssue s sl st e w → let x := ctxAt s sl st e u.clock.now
      ∃ v, courseAct c w x = plainAct v x ∧ strm v sl st = z) :
    Issues c s sl st e u fun f t => strm t sl st = { z with head := (strm s sl st).head + 1 } ∧ f.due = u.clock.now + 4
      ∧ f.effects = [] ∧ f.ready = true := by
  refine issues_starting hsl hst hc rfl hok can sel (.inl (coldPages_of_no_tiles noTiles)) fun w at' => ?_
  obtain ⟨v, act, stream⟩ := made w at'
  rw [act]
  refine ⟨?_, rfl, rfl, rfl⟩
  rw [strm_issued]
  show (if _ then { strm v sl st with head := _ } else loopAdvance 8 (strm v sl st) _) = _
  rw [stream]
  split
  · rfl
  · next notLoop => exact loopAdvance_of_no_loops (stays.resolve_left notLoop) ..

/-! Loops (R27). -/

/-- A base register after one pass of a loop: advanced by its signed stride, modulo 2^40. -/
def stridden (x : Stream) (f : LoopFrame) (k : Nat) : Nat :=
  wrapInt 40 (((nth x.x k 0 : Nat) : Int) + signedOf 20 (nth x.strides (3 * f.level + k) 0))

theorem stridden_int (x : Stream) (f : LoopFrame) (k : Nat) :
    ((stridden x f k : Nat) : Int) = (((nth x.x k 0 : Nat) : Int) + signedOf 20 (nth x.strides (3 * f.level + k) 0)) % 2 ^ 40 := by
  unfold stridden wrapInt
  push_cast
  exact Int.toNat_of_nonneg (Int.emod_nonneg _ (by decide))

section

variable {x : Stream} {f : LoopFrame} {fs : List LoopFrame} {i : Nat} (loops : x.loops = f :: fs) (n : Nat)

include loops

theorem loopAdvance_inside (notLast : f.last ≠ i) : loopAdvance (n + 1) x i = { x with head := i + 1 } := by
  simp only [loopAdvance, loops, if_pos notLast]

theorem loopAdvance_again (last : f.last = i) (passes : f.left ≠ 0) : loopAdvance (n + 1) x i =
    { x with head := f.first, x := (List.range 3).map (stridden x f) ++ x.x.drop 3, loops := { f with left := f.left - 1 } :: fs } := by
  simp only [loopAdvance, loops, if_neg (not_not_intro last), if_neg passes]
  rfl

theorem loopAdvance_leave (last : f.last = i) (done : f.left = 0) :
    loopAdvance (n + 1) x i = loopAdvance n { x with loops := fs, x := f.saved ++ x.x.drop 3 } i := by
  simp only [loopAdvance, loops, if_neg (not_not_intro last), if_pos done]

end

/-- The base registers after one pass: the first three stridden, the fourth as it was. -/
theorem nth_stridden {x : Stream} (f : LoopFrame) (four : x.x.length = 4) :
    let xs := (List.range 3).map (stridden x f) ++ x.x.drop 3
    xs.length = 4 ∧ nth xs 3 0 = nth x.x 3 0 ∧ ∀ k, k < 3 → nth xs k 0 = stridden x f k := by
  obtain ⟨a, b, c, d, parts⟩ : ∃ a b c d, x.x = [a, b, c, d] := by
    match h : x.x, four with
    | [a, b, c, d], _ => exact ⟨a, b, c, d, rfl⟩
  refine ⟨by simp [four], by simp [parts, nth], fun k hk => ?_⟩
  have front : k < ((List.range 3).map (stridden x f)).length := by simpa using hk
  simp [nth, List.getElem?_append_left front, hk]

end Sys2Proof.IssueLaws

namespace Sys2Proof.Claims

open Sys2Proof.Machine Sys2Proof.IssueLaws

/-- Settles O5: each of the five leaves its stream as its meaning has written it, at the next entry; and the three cases of the
advance in a loop. -/
theorem sequencerEntriesAndLoopsMoveTheirStream : Obligations.SequencerEntriesAndLoopsMoveTheirStream := by
  refine ⟨fun s u sl st e can sel noLoops => ?_, fun x f fs i n loops => ⟨loopAdvance_inside loops n, fun last passes four => ?_,
    loopAdvance_leave loops n⟩⟩
  · intro x y after
    have noTiles (h : enOpcode e ∈ [0x00, 0x01, 0x02, 0x03, 0x04]) : touchedTiles (headFootprint s sl st e).1 = [] := by
      simp only [List.mem_cons, List.not_mem_nil, or_false] at h
      obtain h | h | h | h | h := h <;> simp [headFootprint, State.footprintOf, footprint, h, touchedTiles]
    have issues (c : Instr) {ok : Nat → Bool} (f : Stream → Stream) := issues_sequencer (c := c) (ok := ok)
      (z := f { strm s sl st with passed := 0, held := false }) sl.2 st.2 (e := e) (s := s) (u := u)
    have written (f : Stream → Stream) (w : State) (at' : AtIssue s sl st e w) :
        strm (w.modStream (ctxAt s sl st e u.clock.now) f) sl st = f { strm s sl st with passed := 0, held := false } :=
      (strm_modStream w (ctxAt s sl st e u.clock.now) f).trans (congrArg f at'.stream)
    refine ⟨fun h => ?_, fun h => ?_, fun h => ?_, fun h => ?_, fun h => ?_⟩
    · exact issues (.nop sl st) id rfl (beq_iff_eq.2 h) can sel (noTiles (by simp [h])) (.inr noLoops) fun w at' => ⟨w, rfl, at'.stream⟩
    · exact issues (.endEntry sl st) (fun x => { x with ended := true }) rfl (beq_iff_eq.2 h) can sel (noTiles (by simp [h])) (.inr noLoops) fun w at' => ⟨_, rfl, written _ w at'⟩
    · exact issues (.base sl st) (fun x => { x with x := x.x.set (enM e 0 2) (enB e * 2 ^ 20 + enA e) }) rfl (beq_iff_eq.2 h) can sel (noTiles (by simp [h])) (.inr noLoops) fun w at' => ⟨_, rfl, written _ w at'⟩
    · exact issues (.stride sl st) (fun x => { x with strides :=
        ((x.strides.set (3 * enM e 0 2) (enD e)).set (3 * enM e 0 2 + 1) (enA e)).set (3 * enM e 0 2 + 2) (enB e) }) rfl (beq_iff_eq.2 h) can sel (noTiles (by simp [h])) (.inr noLoops) fun w at' => ⟨_, rfl, written _ w at'⟩
    · let frame : LoopFrame := { level := enM e 6 2, first := (strm s sl st).head + 1, last := (strm s sl st).head + 1 + enM e 0 6,
                                 left := enA e, saved := (strm s sl st).x.take 3 }
      have looped (w : State) (at' : AtIssue s sl st e w) : strm (loopAct w (ctxAt s sl st e u.clock.now)).state sl st =
          { strm s sl st with passed := 0, held := false, loops := [frame] } :=
        (written _ w at').trans (by rw [noLoops]; rfl)
      exact issues (.loop sl st) (fun x => { x with loops := [frame] }) rfl (beq_iff_eq.2 h) can sel (noTiles (by simp [h])) (.inl h) fun w at' => ⟨_, rfl, looped w at'⟩
  · rw [loopAdvance_again loops n last passes]
    obtain ⟨length, fourth, others⟩ := nth_stridden f four
    exact ⟨rfl, rfl, length, fourth, fun k hk => (congrArg Nat.cast (others k hk)).trans (stridden_int x f k)⟩

end Sys2Proof.Claims

/-! PROOF. What the entries of the arrays, of the fabric and of the network make (R22, R24, R32, R37, R38, R97, R128, R219, R236,
R239). -/

namespace Sys2Proof.IssueLaws

open Sys2Proof.Machine Sys2Proof.Claims Sys2Proof.TokenLaws

/-! The die in which the meaning runs. -/

theorem Die.array_setArray_same (d : Die) (a : Nat) (x : ArrayState) : (d.setArray a x).array a = x := by
  unfold Die.setArray Die.array
  split <;> rfl

theorem State.array_setArray_same (s : State) (sl a : Nat) (x : ArrayState) : (s.setArray sl a x).array sl a = x := by
  rw [State.array, State.setArray, State.die_setDie_same, Die.array_setArray_same]

theorem State.array_congr {s t : State} (h : t.seq = s.seq) (sl a : Nat) : t.array sl a = s.array sl a := by
  rw [State.array, State.die_congr h, State.array]

namespace AtIssue

variable {s w : State} {sl st e : Nat} (at' : AtIssue s sl st e w)

include at'

theorem array (a : Nat) : w.array sl a = s.array sl a := by
  rw [State.array, at'.die]
  rfl

theorem vreg (r : Nat) : (w.die sl).vreg r = (s.die sl).vreg r := by
  rw [at'.die]
  rfl

theorem vpoison (r : Nat) : (w.die sl).vpoison r = (s.die sl).vpoison r := by
  rw [at'.die]
  rfl

theorem posted : (w.die sl).posted = (s.die sl).posted := by rw [at'.die]

end AtIssue

/-! The arrays. -/

theorem seq_fillMma (s : State) (sl : Nat) (j : MmaJob) : (s.fillMma sl j).2.seq = s.seq :=
  (seq_readOperand ..).trans ((seq_readOperand ..).trans (UnitFrame.seq_operandDelay ..))

theorem modeAct_due (w : State) (x : Ctx) : (modeAct w x).due = x.now + 4 := rfl

/-- R24: what an MMA queues: its job, with the mode of the array as it stands. -/
theorem mmaAct_eq (w : State) (x : Ctx) : ∃ (v : State) (j : MmaJob), v.seq = w.seq ∧
    let a := enM x.entry 0 1
    let y := w.array x.sl a
    (mmaAct w x).state = v.setArray x.sl a { y with mmas := y.mmas ++ [j], nextOrd := y.nextOrd + 1 }
      ∧ j.flight = x.flight ∧ j.half = modeHalf y.mode ∧ j.ord = y.nextOrd ∧ j.idA = tileOperand x.x (enA x.entry)
      ∧ j.idB = tileOperand x.x (enB x.entry) ∧ j.fmtA = Fmt.ofCodeD (bits y.mode 1 3) ∧ j.fmtB = Fmt.ofCodeD (bits y.mode 4 3) := by
  unfold mmaAct
  dsimp only
  split
  · exact ⟨_, _, rfl, rfl, rfl, rfl, rfl, rfl, rfl, rfl, rfl⟩
  · have seq := fun j => seq_fillMma w x.sl j
    exact ⟨_, _, seq _, by rw [State.array_congr (seq _)], rfl, rfl, rfl, rfl, rfl, rfl, rfl⟩

/-- R97: what a DRAIN queues: its job, with the conversion inputs as they stand. -/
theorem drainAct_eq (w : State) (x : Ctx) : ∃ (v : State) (j : DrainJob),
    let a := enM x.entry 0 1
    let y := w.array x.sl a
    (drainAct w x).state = v.setArray x.sl a { y with drains := y.drains ++ [j], nextOrd := y.nextOrd + 1 }
      ∧ j.flight = x.flight ∧ j.ord = y.nextOrd ∧ j.dest = tileOperand x.x (enD x.entry)
      ∧ j.conv = { fmtOut := Fmt.ofCodeD (bits y.mode 8 3), autoScale := bit y.mode 11, biasEn := bit y.mode 12
                   clipEn := bit y.mode 13, reg := (w.die x.sl).vreg y.convReg } :=
  ⟨_, _, rfl, rfl, rfl, rfl, rfl⟩

/-! POST (R128). -/

/-- A channel that was posted in this step counts the repeat. -/
theorem postAct_repeats {w : State} {x : Ctx} (h : enM x.entry 7 8 ∈ (w.die x.sl).posted) :
    postAct w x = { state := w.busyVector x 1, due := x.after 8, effects := [.bump P.postRepeats x.sl 1] } :=
  if_pos (List.contains_iff_mem.2 h)

/-- Another is posted. -/
theorem postAct_posts {w : State} {x : Ctx} (h : enM x.entry 7 8 ∉ (w.die x.sl).posted) :
    let v := (w.busyVector x 1).die x.sl
    let ra := regOperand (enA x.entry)
    postAct w x = { state := (w.busyVector x 1).setDie x.sl { v with posted := enM x.entry 7 8 :: v.posted }, due := x.after 8
                    effects := [.post (enM x.entry 7 8) (regElem (v.vreg ra) 0) (regElem (v.vreg ra) 128) (v.vpoison ra)] } :=
  if_neg (mt List.contains_iff_mem.1 h)

theorem die_busyVector (w : State) (x : Ctx) (n late : Nat) :
    (w.busyVector x n late).die x.sl = { w.die x.sl with vecBusy := x.after n + late } :=
  State.die_setDie_same ..

end Sys2Proof.IssueLaws

namespace Sys2Proof.Claims

open Sys2Proof.Machine Sys2Proof.IssueLaws

/-- Settles O6: an array reads after the issue as the meaning has written it. -/
theorem arrayEntriesJoinTheArrayQueue : Obligations.ArrayEntriesJoinTheArrayQueue := by
  intro s u sl st e can sel x
  have noTiles (h : enOpcode e = 0x08 ∨ enOpcode e = 0x11) : coldPages s sl st e = [] := by
    refine coldPages_of_no_tiles ?_
    obtain h | h := h <;> simp [headFootprint, State.footprintOf, footprint, h, touchedTiles]
  have issues (c : Instr) (act : State → Ctx → Issued) {ok : Nat → Bool} {Q : Flight → State → Prop} :=
    issues_starting (c := c) (ok := ok) (act := act) (Q := Q) (s := s) (u := u) (e := e) sl.2 st.2
  refine ⟨fun h => ?_, fun h => ?_, fun h => ?_⟩
  · refine issues (.mode sl st) modeAct rfl rfl (beq_iff_eq.2 h) can sel (.inl (noTiles (.inl h))) fun w at' => ?_
    have array : w.array sl (enM e 0 1) = x := at'.array (enM e 0 1)
    have written : (issued s sl st e u.clock.now (modeAct w (ctxAt s sl st e u.clock.now))).array sl (enM e 0 1) =
        { x with mode := enMod e, convReg := regOperand (enD e), nextOrd := x.nextOrd + 1
                 halves := if bit (enMod e) 7 = bit x.mode 7 then x.halves else x.halves ++ [(x.nextOrd, bit (enMod e) 7)] } := by
      rw [array_issued]
      refine (State.array_setArray_same ..).trans ?_
      simp only [ctxAt, modeHalf, array]
    refine ⟨modeAct_due w (ctxAt s sl st e u.clock.now), rfl, ?_⟩
    rw [written]
    exact ⟨rfl, by simp [regOperand, bits], rfl, rfl, rfl, rfl, rfl⟩
  · refine issues (.mma sl st) mmaAct rfl rfl (beq_iff_eq.2 h) can sel (.inr (by simp [queuesCold, h])) fun w at' => ?_
    obtain ⟨v, j, -, queued, job⟩ := mmaAct_eq w (ctxAt s sl st e u.clock.now)
    have array : w.array sl (enM e 0 1) = x := at'.array (enM e 0 1)
    simp only [ctxAt, array] at queued job
    have written : (issued s sl st e u.clock.now (mmaAct w (ctxAt s sl st e u.clock.now))).array sl (enM e 0 1) =
        { x with mmas := x.mmas ++ [j], nextOrd := x.nextOrd + 1 } := by
      rw [array_issued, ctxAt, queued, State.array_setArray_same]
    refine ⟨rfl, rfl, ?_⟩
    rw [written]
    obtain ⟨flight, half, ord, idA, idB, fmtA, fmtB⟩ := job
    exact ⟨rfl, rfl, rfl, rfl, j, rfl, flight, half, ord, idA, idB, fmtA, fmtB⟩
  · refine issues (.drain sl st) drainAct rfl rfl (beq_iff_eq.2 h) can sel (.inl (noTiles (.inr h))) fun w at' => ?_
    obtain ⟨v, j, queued, flight, ord, dest, conv⟩ := drainAct_eq w (ctxAt s sl st e u.clock.now)
    have array : w.array sl (enM e 0 1) = x := at'.array (enM e 0 1)
    simp only [ctxAt, array, at'.vreg] at queued flight ord dest conv
    have written : (issued s sl st e u.clock.now (drainAct w (ctxAt s sl st e u.clock.now))).array sl (enM e 0 1) =
        { x with drains := x.drains ++ [j], nextOrd := x.nextOrd + 1 } := by
      rw [array_issued, ctxAt, queued, State.array_setArray_same]
    refine ⟨rfl, rfl, ?_⟩
    rw [written]
    exact ⟨rfl, rfl, rfl, rfl, j, rfl, flight, ord, dest, conv⟩

/-- Settles O10: a raise joins the fabric, and a POST finds its channel posted or not. -/
theorem rsigAndPostReachTheirReceivers : Obligations.RsigAndPostReachTheirReceivers := by
  refine ⟨fun s u sl st e can sel h => ?_, fun s u sl st e can sel h func => ?_⟩
  · have noTiles : touchedTiles (headFootprint s sl st e).1 = [] := by
      simp [headFootprint, State.footprintOf, footprint, h, touchedTiles]
    refine issues_starting (c := .rsig sl st) (act := rsigAct) sl.2 st.2 rfl rfl (beq_iff_eq.2 h) can sel
      (.inl (coldPages_of_no_tiles noTiles)) fun w at' => ⟨rfl, ?_⟩
    show w.seq.fabric ++ [_] = _
    rw [at'.fabric, at'.step can]
    rfl
  · intro d k ra
    have noTiles : touchedTiles (headFootprint s sl st e).1 = [] := by
      simp [headFootprint, State.footprintOf, footprint, h, func, touchedTiles]
    refine issues_starting (c := .post sl st) (act := postAct) sl.2 st.2 rfl rfl (by simp [h, func]) can sel
      (.inl (coldPages_of_no_tiles noTiles)) fun w at' => ?_
    have posted : (w.die sl).posted = d.posted := at'.posted
    split
    next repeats =>
      have acts := postAct_repeats (w := w) (x := ctxAt s sl st e u.clock.now) (by rwa [← posted] at repeats)
      rw [acts]
      refine ⟨rfl, rfl, ?_⟩
      rw [posted_issued]
      exact (congrArg Die.posted (die_busyVector w (ctxAt s sl st e u.clock.now) 1 0)).trans posted
    next fresh =>
      have acts := postAct_posts (w := w) (x := ctxAt s sl st e u.clock.now) (by rwa [← posted] at fresh)
      rw [acts]
      have die := die_busyVector w (ctxAt s sl st e u.clock.now) 1 0
      refine ⟨rfl, ?_, ?_⟩
      · show [Effect.post _ _ _ _] = _
        rw [die]
        show [Effect.post k (regElem ((w.die sl).vreg ra) 0) (regElem ((w.die sl).vreg ra) 128) ((w.die sl).vpoison ra)] = _
        rw [at'.vreg, at'.vpoison]
      · rw [posted_issued]
        refine (congrArg Die.posted (State.die_setDie_same ..)).trans ?_
        show k :: _ = _
        rw [die]
        exact congrArg (k :: ·) posted

end Sys2Proof.Claims

/-! PROOF. What the entries of the network make (R219, R236, R239). -/

namespace Sys2Proof.IssueLaws

open Sys2Proof.Machine Sys2Proof.Claims Sys2Proof.TokenLaws

/-! A message of a stream (R219). -/

theorem tx_setTx_same (s : State) (ns : Nat) (t : Tx) : (s.setTx ns t).tx ns = t := Sparse.get_put_same ..

theorem tx_congr {s t : State} (h : t.net = s.net) (ns : Nat) : t.tx ns = s.tx ns := by rw [State.tx, h, State.tx]

theorem sendPacket_net (s : State) (ns ix : Nat) (pkt : List Byte) : (s.sendPacket ns ix pkt).net = s.net := by
  unfold State.sendPacket
  dsimp only
  split <;> rfl

/-- What sending leaves of the network: collectives, their running numbers, and the next message number of its stream. -/
structure SendKeeps (ns : Nat) (s t : State) : Prop where
  colls : t.net.colls = s.net.colls
  msg : (t.tx ns).msg = (s.tx ns).msg

theorem SendKeeps.sendSeg (s : State) (ns : Nat) (g : Seg) : SendKeeps ns s (s.sendSeg ns g) := by
  unfold State.sendSeg
  extract_lets flags pkt counted again t
  have net : again.net = s.net := by
    have first : counted.net = s.net := sendPacket_net ..
    simp only [again]
    split <;> exact first
  refine ⟨?_, ?_⟩
  · show again.net.colls = _
    rw [net]
  · rw [tx_setTx_same]
    show (again.tx ns).msg = _
    rw [tx_congr net]

theorem SendKeeps.foldl (ns : Nat) (gs : List Seg) (s : State) : SendKeeps ns s (gs.foldl (fun s g => s.sendSeg ns g) s) := by
  induction gs generalizing s with
  | nil => exact ⟨rfl, rfl⟩
  | cons g gs ih =>
    have first := sendSeg s ns g
    have rest := ih (s.sendSeg ns g)
    exact ⟨rest.colls.trans first.colls, rest.msg.trans first.msg⟩

theorem SendKeeps.pump (s : State) (ns : Nat) : SendKeeps ns s (s.pump ns) := by
  unfold State.pump
  dsimp only
  split
  · exact ⟨rfl, rfl⟩
  · exact foldl ..

theorem sendMessage_takes_number (s : State) (ns step : Nat) (bs : List Byte) :
    (s.sendMessage ns step bs).1 = (s.tx ns).msg ∧ (s.sendMessage ns step bs).2.net.colls = s.net.colls
      ∧ ((s.sendMessage ns step bs).2.tx ns).msg = (s.tx ns).msg + 1 := by
  unfold State.sendMessage
  dsimp only
  refine ⟨rfl, (SendKeeps.pump _ ns).colls, ?_⟩
  rw [(SendKeeps.pump _ ns).msg, tx_setTx_same]

theorem readRaw_net (s : State) (sl i w : Nat) : (s.readRaw sl i w).2.2.net = s.net := by
  unfold State.readRaw
  split
  · exact unmappedAccess_net ..
  · exact unmappedAccess_net ..
  · rfl
  · rfl

/-- R219: an NSEND sends one message, with the tile as it stands. -/
theorem nsendAct_eq (w : State) (x : Ctx) : ∃ (v : State) (bs : List Byte), v.net = w.net ∧
    let m := v.sendMessage (enM x.entry 0 12) v.step bs
    nsendAct w x = { state := m.2, due := x.after 1, kind := .nsend (enM x.entry 0 12) m.1, ready := false } :=
  ⟨_, _, readRaw_net w x.sl (tileOperand x.x (enA x.entry)) 0, rfl⟩

/-! A collective (R236, R239). -/

theorem length_collSources (s : State) (sl first n : Nat) : (s.collSources sl first n).1.length = n := by
  induction n with
  | zero => rfl
  | succ n ih => simp [State.collSources, ih]

theorem feedColl_net {s : State} (none : s.net.early = []) (key : Nat) :
    (s.feedColl key).net.colls = s.net.colls ∧ (s.feedColl key).net.instances = s.net.instances := by
  unfold State.feedColl
  split
  · exact ⟨rfl, rfl⟩
  · simp [none]

/-- R236, R239: the collective that a COLL starts. -/
def collOf (w : State) (x : Ctx) (source : List CollTile) (cold : Bool) : Coll :=
  let g := enM x.entry 2 12
  { key := w.net.nextColl, slot := x.sl, flight := x.flight, group := g, step := w.step, inst := Sparse.get zeros w.net.instances g
    kind := enM x.entry 0 2, len := enB x.entry, dest := tileOperand x.x (enD x.entry), size := bits (w.groupOf g) 0 16
    rank := geRank (w.groupOf g), source := source, issued := x.now, cold := cold }

/-- The network with one collective more, and the next number of its group. -/
def collNet (n : Net) (c : Coll) : Net :=
  { n with colls := n.colls ++ [c], nextColl := n.nextColl + 1, instances := Sparse.put zeros n.instances c.group (c.inst + 1) }

/-- The pages that a COLL's sources wait for. -/
def collCold (w : State) (x : Ctx) : List Nat := w.unloaded (touchedTiles [.tiles (tileOperand x.x (enA x.entry)) (enB x.entry)])

theorem collAct_eq {w : State} {x : Ctx} (hx : x.sl < 64) (can : Canonical w) : ∃ (v : State) (source : List CollTile),
    v.net = w.net ∧ (collCold w x = [] → source.length = enB x.entry)
      ∧ collAct w x = { state := ({ v with net := collNet w.net (collOf w x source (!(collCold w x).isEmpty)) } : State).feedColl w.net.nextColl
                        due := x.after 1, kind := .coll w.net.nextColl, ready := false } := by
  cases cold : (collCold w x).isEmpty with
  | false =>
    refine ⟨w, [], rfl, fun warm => by simp [warm] at cold, ?_⟩
    unfold collCold at cold
    simp only [collAct, cold, Bool.not_false, if_true]
    rfl
  | true =>
    generalize hv : w.collSources x.sl (tileOperand x.x (enA x.entry)) (enB x.entry) = p
    have net : p.2.net = w.net := hv ▸ collSources_net ..
    have step : p.2.step = w.step := hv ▸ (Frame.collSources x.sl w x.sl _ _ hx).regs can P.currentStep 0 (by decide) (by decide)
    refine ⟨p.2, p.1, net, fun _ => hv ▸ length_collSources .., ?_⟩
    unfold collCold at cold
    simp only [collAct, cold, hv, Bool.not_true, Bool.false_eq_true, if_false, net, step]
    rfl

end Sys2Proof.IssueLaws

namespace Sys2Proof.Claims

open Sys2Proof.Machine Sys2Proof.IssueLaws

/-- Settles O12: the message takes the stream's number, and the collective is the one that the meaning appends. -/
theorem networkEntriesStartTheirMessages : Obligations.NetworkEntriesStartTheirMessages := by
  intro s u sl st e can sel
  refine ⟨fun h warm => ?_, fun h none => ?_⟩
  · refine issues_starting (c := .nsend sl st) (act := nsendAct) sl.2 st.2 rfl rfl (beq_iff_eq.2 h) can sel (.inl warm) fun w at' => ?_
    obtain ⟨v, bs, net, act⟩ := nsendAct_eq w (ctxAt s sl st e u.clock.now)
    replace net := net.trans at'.net
    obtain ⟨number, colls, next⟩ := sendMessage_takes_number v (enM e 0 12) v.step bs
    rw [tx_congr net] at number next
    rw [act]
    exact ⟨congrArg (FlightKind.nsend (enM e 0 12)) number, rfl, next, colls.trans (congrArg Net.colls net)⟩
  · have reads : (headFootprint s sl st e).1 = [.tiles (tileOperand (strm s sl st).x (enA e)) (enB e)] := by
      simp [headFootprint, State.footprintOf, footprint, h]
    refine issues_starting (c := .coll sl st) (act := collAct) sl.2 st.2 rfl rfl (beq_iff_eq.2 h) can sel
      (.inr (by simp [queuesCold, h])) fun w at' => ?_
    obtain ⟨v, source, net, whole, act⟩ := collAct_eq (w := w) (x := ctxAt s sl st e u.clock.now) sl.2 (at'.frame.can can)
    have cold : collCold w (ctxAt s sl st e u.clock.now) = coldPages s sl st e := by
      unfold collCold coldPages
      rw [unloaded_congr at'.pages, reads]
      rfl
    have group : w.groupOf (enM e 2 12) = s.groupOf (enM e 2 12) :=
      at'.reg can (by decide) (by simp only [enM, bits]; omega)
    rw [cold] at whole act
    generalize hc : collOf w (ctxAt s sl st e u.clock.now) source (!(coldPages s sl st e).isEmpty) = c at act
    have first : c = collOf s (ctxAt s sl st e u.clock.now) source (!(coldPages s sl st e).isEmpty) := by
      rw [← hc]
      simp only [collOf, at'.net, at'.step can, ctxAt, group]
    rw [at'.net] at act
    obtain ⟨colls, instances⟩ := feedColl_net (s := { v with net := collNet s.net c }) none s.net.nextColl
    rw [act]
    refine ⟨rfl, rfl, c, colls, ?_⟩
    subst first
    exact ⟨rfl, rfl, rfl, rfl, rfl, rfl, rfl, rfl, rfl, rfl, rfl, rfl, fun warm => ⟨whole warm, by simp [collOf, warm]⟩,
      (congrArg (fun m => Sparse.get zeros m (enM e 2 12)) instances).trans (Sparse.get_put_same ..)⟩

end Sys2Proof.Claims

/-! PROOF. What the entries of the vector engine, of the reduction unit and MOVE make (R36, R65, R67, R69, R107 to R127). -/

namespace Sys2Proof.IssueLaws

open Sys2Proof.Machine Sys2Proof.Claims Sys2Proof.TokenLaws

/-! What a meaning finds while it reads its operands. -/

/-- The state `v` while the meaning of entry `e` runs, from the state `w` that the issue prepared: operands were read. -/
structure Reading (s : State) (sl st e : Nat) (w v : State) : Prop where
  at' : AtIssue s sl st e w
  frame : Frame sl w v
  seq : v.seq = w.seq

namespace Reading

variable {s w v : State} {sl st e : Nat}

theorem start (at' : AtIssue s sl st e w) : Reading s sl st e w w := ⟨at', Frame.refl .., rfl⟩

variable (r : Reading s sl st e w v)

include r

theorem operandDelay (ids : List Nat) : Reading s sl st e w (v.operandDelay sl ids).2 :=
  ⟨r.at', r.frame.trans (Frame.operandDelay ..), (UnitFrame.seq_operandDelay ..).trans r.seq⟩

theorem readOperand (hsl : sl < 64) (i : Nat) (f : Fmt) : Reading s sl st e w (v.readOperand sl i f).2 :=
  ⟨r.at', r.frame.trans (Frame.readOperand _ _ _ _ _ (by omega)), (seq_readOperand ..).trans r.seq⟩

theorem tiles : v.mem.tiles = s.mem.tiles := r.frame.stores.1.trans r.at'.tiles

theorem pages : v.mem.pages = s.mem.pages := r.frame.stores.2.1.trans r.at'.pages

theorem operand (i : Nat) (f : Fmt) : (v.readOperand sl i f).1 = (s.readOperand sl i f).1 := readOperand_congr r.tiles r.pages ..

theorem vreg (k : Nat) : (v.die sl).vreg k = (s.die sl).vreg k := by rw [State.die_congr r.seq, r.at'.vreg]

theorem vpoison (k : Nat) : (v.die sl).vpoison k = (s.die sl).vpoison k := by rw [State.die_congr r.seq, r.at'.vpoison]

theorem writer (can : Canonical s) (now array : Nat) : (ctxAt s sl st e now).writer v array = entryWriter s sl st e array := by
  have regs := (r.at'.frame.trans r.frame).regs can
  have step : v.step = s.step := regs P.currentStep 0 (by decide) (by decide)
  have set : v.val P.activeSetId = s.val P.activeSetId := regs P.activeSetId 0 (by decide) (by decide)
  simp only [Ctx.writer, entryWriter, step, set]
  rfl

/-- R36: operands that all lie in the slot's tile store take no time. -/
theorem arrive (ids : List Nat) : Arrive s sl ids (v.operandDelay sl ids).1 := fun here => by
  have all : ids.all (v.resident sl) = true := List.all_eq_true.2 fun i hi => (resident_congr r.pages sl i).trans (here i hi)
  rw [State.operandDelay, if_pos all]

end Reading

/-! Entries that write a whole tile. -/

/-- Operand B of a VOP, a VROW or a VCOL (`form` 0, 1 or 2), and its poison mark. -/
def operandB (s : State) (sl st e form : Nat) : VecB × Bool :=
  match form with
  | 0 => let b := (s.readOperand sl (opTile s sl st (enB e)) (vopFmtB e)).1
         (.tile b, b.poison)
  | 1 => (.row ((s.die sl).vreg (regOperand (enB e))), (s.die sl).vpoison (regOperand (enB e)))
  | _ => (.col ((s.die sl).vreg (regOperand (enB e))), (s.die sl).vpoison (regOperand (enB e)))

/-- The tiles that such an entry reads. -/
def operandIds (s : State) (sl st e form : Nat) : List Nat :=
  opTile s sl st (enA e) :: if form = 0 ∧ funcBinary (enM e 0 6) then [opTile s sl st (enB e)] else []

/-- What an entry that writes a whole tile makes: `n` ac of its unit, and tile `t` at its destination. -/
def FormsTile (s : State) (sl st e now : Nat) (ids : List Nat) (n : Nat) (t : Tile) (r : Issued) : Prop :=
  ∃ late, Arrive s sl ids late ∧ r.due = now + 4 * (n + 16) + late ∧ (r.state.die sl).vecBusy = now + 4 * n + late
    ∧ .tile (opTile s sl st (enD e)) (fmtClass (Fmt.ofCodeD (enM e 9 3))) 2 (entryWriter s sl st e 0) t ∈ r.effects
    ∧ .bump P.vecElements sl 16384 ∈ r.effects

/-- A meaning that ends with the vector engine taken and the effects of a whole tile forms that tile. -/
theorem FormsTile.of_effects {s v : State} {sl st e now n late : Nat} {ids : List Nat} {poison : Bool} {r : VecResult}
    (arrive : Arrive s sl ids late) :
    let x := ctxAt s sl st e now
    let fo := Fmt.ofCodeD (enM e 9 3)
    let wr := entryWriter s sl st e 0
    FormsTile s sl st e now ids n (if poison then Tile.poison wr fo.code else r.formed.tile wr)
      { state := v.busyVector x n late, due := x.after (n + 16) + late
        effects := vecTileEffects x wr (tileOperand x.x (enD e)) fo poison r } :=
  ⟨late, arrive, rfl, congrArg Die.vecBusy (die_busyVector v (ctxAt s sl st e now) n late), List.mem_cons_self ..,
    List.mem_cons_of_mem _ (List.mem_append_left _ (List.mem_cons_self ..))⟩

/-- The second operand as the meaning reads it in `v`: a tile, a register by rows or by columns, or none. -/
def secondOperand (form : Nat) (v : State) (x : Ctx) : VecB × Bool × State :=
  let d := v.die x.sl
  let reg := regOperand (enB x.entry)
  if ¬ funcBinary (enM x.entry 0 6) then (.none, false, v)
  else match form with
    | 0 =>
      let (t, u) := v.readOperand x.sl (tileOperand x.x (enB x.entry)) (vopFmtB x.entry)
      (.tile t, t.poison, u)
    | 1 => (.row (d.vreg reg), d.vpoison reg, v)
    | _ => (.col (d.vreg reg), d.vpoison reg, v)

theorem secondOperand_reads {s w v : State} {sl st e : Nat} (hsl : sl < 64) (r : Reading s sl st e w v) (form now : Nat) :
    let p := secondOperand form v (ctxAt s sl st e now)
    let bin := funcBinary (enM e 0 6)
    p.1 = (if bin then (operandB s sl st e form).1 else .none) ∧ p.2.1 = (bin && (operandB s sl st e form).2)
      ∧ Reading s sl st e w p.2.2 := by
  by_cases bin : funcBinary (enM e 0 6) = true
  · simp only [secondOperand, ctxAt, bin, not_true, if_false, if_true, Bool.true_and]
    match form with
    | 0 => exact ⟨congrArg VecB.tile (r.operand ..), congrArg TileIn.poison (r.operand ..), r.readOperand hsl ..⟩
    | 1 => exact ⟨congrArg VecB.row (r.vreg _), r.vpoison _, r⟩
    | n + 2 => exact ⟨congrArg VecB.col (r.vreg _), r.vpoison _, r⟩
  · simp only [secondOperand, ctxAt, bin]
    exact ⟨rfl, rfl, r⟩

theorem vecTileAct_eq (form : Nat) (w : State) (x : Ctx) :
    let e := x.entry
    let fa := Fmt.ofCodeD (enM e 6 3)
    let fo := Fmt.ofCodeD (enM e 9 3)
    let ids := tileOperand x.x (enA e) :: (if form = 0 ∧ funcBinary (enM e 0 6) then [tileOperand x.x (enB e)] else [])
    let late := (w.operandDelay x.sl ids).1
    let a := (w.operandDelay x.sl ids).2.readOperand x.sl (tileOperand x.x (enA e)) fa
    let p := secondOperand form a.2 x
    let mp := match maskReg e with
      | some m => (a.2.die x.sl).vpoison m
      | none => false
    vecTileAct form w x =
      { state := p.2.2.busyVector x (tileOccupancy fa) late, due := x.after (tileOccupancy fa + 16) + late
        effects := vecTileEffects x (x.writer p.2.2 0) (tileOperand x.x (enD e)) fo (a.1.poison || p.2.1 || mp)
          (vecTileOp (enM e 0 6) a.1 p.1 ((maskReg e).map (a.2.die x.sl).vreg) fo (enM e 15 1 == 1)) } := by
  intros
  rfl

theorem vecTileAct_forms {s w : State} {sl st e : Nat} (hsl : sl < 64) (can : Canonical s) (at' : AtIssue s sl st e w) (now form : Nat) :
    let fo := Fmt.ofCodeD (enM e 9 3)
    let a := (s.readOperand sl (opTile s sl st (enA e)) (Fmt.ofCodeD (enM e 6 3))).1
    let bin := funcBinary (enM e 0 6)
    let b := operandB s sl st e form
    let mp := ((maskReg e).map (s.die sl).vpoison).getD false
    let wr := entryWriter s sl st e 0
    FormsTile s sl st e now (operandIds s sl st e form) (tileOccupancy (Fmt.ofCodeD (enM e 6 3)))
      (if a.poison || (bin && b.2) || mp then Tile.poison wr fo.code else
        (vecTileOp (enM e 0 6) a (if bin then b.1 else .none) ((maskReg e).map (s.die sl).vreg) fo (enM e 15 1 == 1)).formed.tile wr)
      (vecTileAct form w (ctxAt s sl st e now)) := by
  intro fo a bin b mp wr
  have asked := (Reading.start at').operandDelay (operandIds s sl st e form)
  have first := asked.readOperand hsl (opTile s sl st (enA e)) (Fmt.ofCodeD (enM e 6 3))
  have operand := asked.operand (opTile s sl st (enA e)) (Fmt.ofCodeD (enM e 6 3))
  generalize hv : ((w.operandDelay sl (operandIds s sl st e form)).2.readOperand sl (opTile s sl st (enA e)) (Fmt.ofCodeD (enM e 6 3))) = v
    at first operand
  obtain ⟨value, poison, read⟩ := secondOperand_reads hsl first form now
  have mask : (match maskReg e with | some m => (v.2.die sl).vpoison m | none => false) = mp := by
    simp only [mp]
    cases maskReg e
    · rfl
    · exact first.vpoison _
  have vregs : (v.2.die sl).vreg = (s.die sl).vreg := funext first.vreg
  have made : vecTileAct form w (ctxAt s sl st e now) =
      let x := ctxAt s sl st e now
      let p := secondOperand form v.2 x
      let n := tileOccupancy (Fmt.ofCodeD (enM e 6 3))
      let late := (w.operandDelay sl (operandIds s sl st e form)).1
      { state := p.2.2.busyVector x n late, due := x.after (n + 16) + late
        effects := vecTileEffects x (x.writer p.2.2 0) (opTile s sl st (enD e)) fo
          (v.1.poison || p.2.1 || (match maskReg e with | some m => (v.2.die sl).vpoison m | none => false))
          (vecTileOp (enM e 0 6) v.1 p.1 ((maskReg e).map (v.2.die sl).vreg) fo (enM e 15 1 == 1)) } := by
    rw [← hv]
    exact vecTileAct_eq form w (ctxAt s sl st e now)
  rw [made]
  dsimp only
  rw [mask, vregs, operand, value, poison, read.writer can]
  exact FormsTile.of_effects ((Reading.start at').arrive _)

theorem vtransAct_forms {s w : State} {sl st e : Nat} (hsl : sl < 64) (can : Canonical s) (at' : AtIssue s sl st e w) (now : Nat) :
    let fo := Fmt.ofCodeD (enM e 9 3)
    let a := (s.readOperand sl (opTile s sl st (enA e)) (Fmt.ofCodeD (enM e 6 3))).1
    let wr := entryWriter s sl st e 0
    FormsTile s sl st e now [opTile s sl st (enA e)] (2 * tileOccupancy (Fmt.ofCodeD (enM e 6 3)))
      (if a.poison then Tile.poison wr fo.code else (vecTranspose a fo (enM e 15 1 == 1)).formed.tile wr)
      (vtransAct w (ctxAt s sl st e now)) := by
  have asked := (Reading.start at').operandDelay [opTile s sl st (enA e)]
  have first := asked.readOperand hsl (opTile s sl st (enA e)) (Fmt.ofCodeD (enM e 6 3))
  have operand := asked.operand (opTile s sl st (enA e)) (Fmt.ofCodeD (enM e 6 3))
  have writer := first.writer can now 0
  generalize hv : ((w.operandDelay sl [opTile s sl st (enA e)]).2.readOperand sl (opTile s sl st (enA e)) (Fmt.ofCodeD (enM e 6 3))) = v
    at first operand writer
  have made : vtransAct w (ctxAt s sl st e now) =
      let x := ctxAt s sl st e now
      let fo := Fmt.ofCodeD (enM e 9 3)
      let n := 2 * tileOccupancy (Fmt.ofCodeD (enM e 6 3))
      let late := (w.operandDelay sl [opTile s sl st (enA e)]).1
      { state := v.2.busyVector x n late, due := x.after (n + 16) + late
        effects := vecTileEffects x (x.writer v.2 0) (opTile s sl st (enD e)) fo v.1.poison (vecTranspose v.1 fo (enM e 15 1 == 1)) } := by
    rw [← hv]
    rfl
  rw [made]
  dsimp only
  rw [operand, writer]
  exact FormsTile.of_effects ((Reading.start at').arrive _)

end Sys2Proof.IssueLaws

namespace Sys2Proof.Claims

open Sys2Proof.Machine Sys2Proof.IssueLaws

/-- Settles O7: the four forms of a tile at issue. -/
theorem vectorTileEntriesFormTheirTileAtIssue : Obligations.VectorTileEntriesFormTheirTileAtIssue := by
  intro s u sl st e can starts fa fo ia ib a b d rb bin mask mp w occ forms op
  obtain ⟨sel, warm⟩ := starts
  have issues (c : Instr) (act : State → Ctx → Issued) {ok : Nat → Bool} {ids : List Nat} {n : Nat} {poison : Bool} {r : VecResult}
      (hc : courseHead c = some (sl.val, st.val, ok)) (hact : TokenLaws.courseAct c = act) (hok : ok e = true)
      (makes : ∀ w', AtIssue s sl st e w' → FormsTile s sl st e u.clock.now ids n (if poison then Tile.poison w fo.code else r.formed.tile w)
        (act w' (ctxAt s sl st e u.clock.now))) : forms c ids n poison r := by
    refine issues_starting sl.2 st.2 hc hact hok can sel (.inl warm) fun w' at' => ?_
    obtain ⟨late, arrive, due, busy, tile, count⟩ := makes w' at'
    exact ⟨late, arrive, due, (vecBusy_issued ..).trans busy, tile, count⟩
  refine ⟨fun h => ?_, fun h => ?_, fun h => ?_, fun h => ?_⟩
  · refine issues (.vop sl st) (vecTileAct 0) rfl rfl (beq_iff_eq.2 h) fun w' at' => ?_
    have ids : operandIds s sl st e 0 = if bin then [ia, ib] else [ia] := by
      by_cases both : bin = true
      · simp [operandIds, show funcBinary (enM e 0 6) = true from both, both, ia, ib]
      · simp [operandIds, show ¬ funcBinary (enM e 0 6) = true from both, both, ia]
    exact ids ▸ vecTileAct_forms sl.2 can at' u.clock.now 0
  · exact issues (.vrow sl st) (vecTileAct 1) rfl rfl (beq_iff_eq.2 h) fun w' at' => vecTileAct_forms sl.2 can at' u.clock.now 1
  · exact issues (.vcol sl st) (vecTileAct 2) rfl rfl (beq_iff_eq.2 h) fun w' at' => vecTileAct_forms sl.2 can at' u.clock.now 2
  · exact issues (.vtrans sl st) vtransAct rfl rfl (beq_iff_eq.2 h) fun w' at' => vtransAct_forms sl.2 can at' u.clock.now

end Sys2Proof.Claims

/-! PROOF. The results that entries hold in registers, and the tiles that VST and MOVE store (R21, R36, R65, R67, R69, R118 to R127). -/

namespace Sys2Proof.IssueLaws

open Sys2Proof.Machine Sys2Proof.Claims Sys2Proof.TokenLaws

/-- What an entry that writes a register makes: value `v` with its poison mark, `n` ac after its issue and its operands. -/
def FormsReg (sl now : Nat) (s : State) (ids : List Nat) (n rd v : Nat) (poison : Bool) (r : Issued) : Prop :=
  ∃ late, Arrive s sl ids late ∧ r.due = now + 4 * n + late ∧ .reg rd v poison ∈ r.effects

section

variable {s w : State} {sl st e : Nat} (can : Canonical s) (at' : AtIssue s sl st e w) (now : Nat)

include at'

theorem vregAct_forms : let d := s.die sl
    let rd := regOperand (enD e)
    let ra := regOperand (enA e)
    let rb := regOperand (enB e)
    let func := enM e 0 6
    FormsReg sl now s [] 8 rd (vregResult func (enM e 6 1 == 1) (enM e 7 8) (d.vreg ra) (d.vreg rb) (d.vreg rd)).1
      (d.vpoison ra || (funcBinary func && d.vpoison rb) || (funcTernary func && d.vpoison rd)) (vregAct w (ctxAt s sl st e now)) := by
  intro d rd ra rb func
  refine ⟨0, fun _ => rfl, rfl, ?_⟩
  simp only [d, ← at'.vreg, ← at'.vpoison]
  exact List.mem_cons_self ..

theorem vimmAct_forms : let d := s.die sl
    let rd := regOperand (enD e)
    FormsReg sl now s [] 8 rd (vimmResult (enM e 0 2) (enM e 2 8) (bits (enB e) 0 12 * 2 ^ 20 + enA e) (d.vreg rd)).1
      (enM e 0 2 == 1 && d.vpoison rd) (vimmAct w (ctxAt s sl st e now)) := by
  intro d rd
  refine ⟨0, fun _ => rfl, rfl, ?_⟩
  simp only [d, ← at'.vreg, ← at'.vpoison]
  exact List.mem_cons_self ..

variable (hsl : sl < 64)

include hsl

theorem vldAct_forms : let d := s.die sl
    let rd := regOperand (enD e)
    let l := (s.readOperand sl (opTile s sl st (enA e)) (Fmt.ofCodeD (enM e 11 3))).1
    FormsReg sl now s [opTile s sl st (enA e)] 8 rd
      (putHalf (d.vreg rd) (enM e 10 1 == 1) ((vldElems (enM e 0 3) (enM e 3 7) l).map Prod.fst)) (d.vpoison rd || l.poison)
      (vldAct w (ctxAt s sl st e now)) := by
  intro d rd l
  have asked := (Reading.start at').operandDelay [opTile s sl st (enA e)]
  have first := asked.readOperand hsl (opTile s sl st (enA e)) (Fmt.ofCodeD (enM e 11 3))
  refine ⟨_, (Reading.start at').arrive [opTile s sl st (enA e)], rfl, ?_⟩
  simp only [d, l, ← first.vreg, ← first.vpoison, ← asked.operand]
  exact List.mem_cons_self ..

theorem redAct_forms : let d := s.die sl
    let f := Fmt.ofCodeD (enM e 6 3)
    let rb := regOperand (enB e)
    let a := (s.readOperand sl (opTile s sl st (enA e)) f).1
    FormsReg sl now s [opTile s sl st (enA e)] (tileOccupancy f + 20) (regOperand (enD e))
      (redResult (enM e 0 4) (enM e 4 2) (enM e 10 8) a (d.vreg rb)).1 (a.poison || (enM e 10 8 != 0 && d.vpoison rb))
      (redAct w (ctxAt s sl st e now)) := by
  intro d f rb a
  have asked := (Reading.start at').operandDelay [opTile s sl st (enA e)]
  have first := asked.readOperand hsl (opTile s sl st (enA e)) (Fmt.ofCodeD (enM e 6 3))
  refine ⟨_, (Reading.start at').arrive [opTile s sl st (enA e)], rfl, ?_⟩
  simp only [d, a, f, ← first.vreg, ← first.vpoison, ← asked.operand]
  exact List.mem_cons_self ..

end

/-! Tiles stored. -/

section

variable {s w : State} {sl st e : Nat} (can : Canonical s) (at' : AtIssue s sl st e w) (now : Nat)

include can at'

/-- R119: VST replaces one row of the tile at its destination. -/
theorem vstAct_forms {i k : Nat} (h : s.place (opTile s sl st (enD e)) = .mapped i k) :
    let f := Fmt.ofCodeD (enM e 8 3)
    let ra := regOperand (enA e)
    let wr := entryWriter s sl st e 0
    let r := vstRow ((s.die sl).vreg ra) (enM e 7 1 == 1) f (enM e 11 2) ((s.tile i).scale (enM e 0 7))
    (vstAct w (ctxAt s sl st e now)).due = now + 32 ∧ .tile (opTile s sl st (enD e)) (fmtClass f) 2 wr
      (if (s.die sl).vpoison ra then Tile.poison wr f.code else vstTile (s.tile i) wr (enM e 0 7) f r)
      ∈ (vstAct w (ctxAt s sl st e now)).effects := by
  intro f ra wr r
  refine ⟨rfl, ?_⟩
  have place : w.place (tileOperand (strm s sl st).x (enD e)) = .mapped i k := (place_congr at'.pages _).trans h
  simp only [r, wr, ra, ← at'.vreg, ← at'.vpoison, ← tile_congr at'.tiles, ← (Reading.start at').writer can now 0]
  unfold vstAct
  dsimp only [ctxAt]
  rw [place]
  exact List.mem_cons_self ..

/-- R65, R69: MOVE carries its source tile. -/
theorem moveAct_forms (hsl : sl < 64) {i k : Nat} (h : s.place (opTile s sl st (enA e)) = .mapped i k) :
    let t := s.tile i
    let bad := bit (s.val P.digestVerify) 0 && t.computeDigest (classBytes k) != t.digest
    (moveAct w (ctxAt s sl st e now)).effects =
      .moveTile (opTile s sl st (enD e)) (classBytes k) (if bad then t.poisonInPlace else t) :: moveSignal e s.step := by
  intro t bad
  have place : w.place (tileOperand (strm s sl st).x (enA e)) = .mapped i k := (place_congr at'.pages _).trans h
  have verify : w.val P.digestVerify = s.val P.digestVerify := at'.val can (by decide)
  have step : (w.verifyTile sl (opTile s sl st (enD e)) (classBytes k) (w.tile i) (bit (w.val P.digestVerify) 0)).2.step = s.step :=
    ((Frame.verifyTile sl w sl _ _ _ _ (hsl.trans (by decide))).regs (at'.frame.can can) P.currentStep 0 (by decide) (by decide)).trans (at'.step can)
  unfold moveAct State.readRaw
  dsimp only [ctxAt]
  rw [place]
  dsimp only
  rw [show (tileOperand (strm s sl st).x (enD e)) = opTile s sl st (enD e) from rfl, step, verify, tile_congr at'.tiles]
  simp only [State.verifyTile, bad, t]
  split <;> rfl

end

end Sys2Proof.IssueLaws

namespace Sys2Proof.Claims

open Sys2Proof.Machine Sys2Proof.IssueLaws

/-- Settles O8: each meaning holds the write of the register that the operands at issue give. -/
theorem registerEntriesFormTheirResultAtIssue : Obligations.RegisterEntriesFormTheirResultAtIssue := by
  intro s u sl st e can starts d rd ra rb func fr ia a l occ forms fn fp
  obtain ⟨sel, warm⟩ := starts
  have issues (c : Instr) (act : State → Ctx → Issued) {ok : Nat → Bool} {ids : List Nat} {n v : Nat} {poison : Bool}
      (hc : courseHead c = some (sl.val, st.val, ok)) (hact : TokenLaws.courseAct c = act) (hok : ok e = true)
      (makes : ∀ w', AtIssue s sl st e w' → FormsReg sl u.clock.now s ids n rd v poison (act w' (ctxAt s sl st e u.clock.now))) :
      forms c ids n v poison :=
    issues_starting sl.2 st.2 hc hact hok can sel (.inl warm) fun w' at' => makes w' at'
  have vreg : ∀ w', AtIssue s sl st e w' → FormsReg sl u.clock.now s [] 8 rd fn.1 fp (vregAct w' (ctxAt s sl st e u.clock.now)) :=
    fun _ at' => vregAct_forms at' u.clock.now
  refine ⟨fun h => ?_, fun h low => ?_, fun h bcast => ?_, fun h swaph => ?_, fun h => ?_, fun h => ?_⟩
  · exact issues (.vld sl st) vldAct rfl rfl (beq_iff_eq.2 h) fun _ at' => vldAct_forms at' u.clock.now sl.2
  · exact issues (.vreg sl st) vregAct rfl rfl (Bool.and_eq_true_iff.2 ⟨beq_iff_eq.2 h, decide_eq_true low⟩) vreg
  · exact issues (.vregBcast sl st) vregAct rfl rfl (Bool.and_eq_true_iff.2 ⟨beq_iff_eq.2 h, beq_iff_eq.2 bcast⟩) vreg
  · exact issues (.vregSwaph sl st) vregAct rfl rfl (Bool.and_eq_true_iff.2 ⟨beq_iff_eq.2 h, beq_iff_eq.2 swaph⟩) vreg
  · exact issues (.vimm sl st) vimmAct rfl rfl (beq_iff_eq.2 h) fun _ at' => vimmAct_forms at' u.clock.now
  · exact issues (.red sl st) redAct rfl rfl (beq_iff_eq.2 h) fun _ at' => redAct_forms at' u.clock.now sl.2

/-- Settles O9: the tile that each meaning holds, and MOVE's signal. -/
theorem storingEntriesFormTheirTileAtIssue : Obligations.StoringEntriesFormTheirTileAtIssue := by
  intro s u sl st e can starts d dest src w
  obtain ⟨sel, warm⟩ := starts
  refine ⟨fun h i k place => ?_, fun h i k place => ?_⟩
  · exact issues_starting (c := .vst sl st) (act := vstAct) sl.2 st.2 rfl rfl (beq_iff_eq.2 h) can sel (.inl warm)
      fun w' at' => vstAct_forms can at' u.clock.now place
  · refine issues_starting (c := .move sl st) (act := moveAct) sl.2 st.2 rfl rfl (beq_iff_eq.2 h) can sel (.inl warm) fun w' at' => ?_
    have effects : (flightOf s sl st e u.clock.now (moveAct w' (ctxAt s sl st e u.clock.now))).effects = _ :=
      moveAct_forms can at' u.clock.now sl.2 place
    dsimp only
    rw [effects]
    refine ⟨List.mem_cons_self .., ?_⟩
    by_cases quiet : enM e 0 7 = 0x7F ∨ enM e 13 2 = 0
    · exact quiet.imp_right .inl
    · exact .inr (.inr (by simp [moveSignal, quiet]))

end Sys2Proof.Claims

/-! PROOF. What is recorded on the way: operations that write registers and the event log and leave all else as it was. -/

namespace Sys2Proof.RecordLaws

open Sys2Proof.Machine Sys2Proof.Claims Sys2Proof.StoreTileLaws

theorem WritesOnly.mono {ps qs : List Nat} {s t : State} (h : ps ⊆ qs) (w : WritesOnly ps s t) : WritesOnly qs s t :=
  ⟨w.wf, fun wf p e he hp => w.regs wf p e he (fun x => hp (h x))⟩

/-- `t` is `s` but for registers among `ps` and the event log. -/
structure Records (ps : List Nat) (s t : State) : Prop where
  rest : t = { s with params := t.params, log := t.log }
  only : WritesOnly ps s t

namespace Records

variable {ps : List Nat} {s t u : State}

theorem refl (ps : List Nat) (s : State) : Records ps s s := ⟨rfl, .of_params _ rfl⟩

theorem trans (h : Records ps s t) (g : Records ps t u) : Records ps s u := by
  refine ⟨?_, h.only.trans g.only⟩
  rw [g.rest, h.rest]

theorem mono {qs : List Nat} (hs : ps ⊆ qs) (h : Records ps s t) : Records qs s t := ⟨h.rest, WritesOnly.mono hs h.only⟩

theorem setReg {p e : Nat} (hp : p ∈ ps) (he : e < 2 ^ 24) (s : State) (v : Nat) : Records ps s (s.setReg p e v) :=
  ⟨rfl, .setReg hp he s v⟩

theorem setVal {p : Nat} (hp : p ∈ ps) (s : State) (v : Nat) : Records ps s (s.setVal p v) := setReg hp (by decide) s v

theorem bump64 {p e : Nat} (hp : p ∈ ps) (he : e < 2 ^ 24) (s : State) (n : Nat) : Records ps s (s.bump64 p e n) := setReg hp he s _

theorem bump32 {p e : Nat} (hp : p ∈ ps) (he : e < 2 ^ 24) (s : State) (n : Nat) : Records ps s (s.bump32 p e n) := setReg hp he s _

theorem ite {c : Prop} [Decidable c] {a b : State} (h : Records ps s a) (g : Records ps s b) : Records ps s (if c then a else b) := by
  split <;> assumption

theorem foldl {α : Type} {f : State → α → State} {xs : List α} (hf : ∀ x ∈ xs, ∀ v, Records ps v (f v x)) (s : State) :
    Records ps s (xs.foldl f s) := by
  induction xs generalizing s with
  | nil => exact refl ps s
  | cons x xs ih => exact (hf x (List.mem_cons_self ..) s).trans (ih (fun y hy => hf y (List.mem_cons_of_mem _ hy)) _)

theorem storeEvent (s : State) (x : Event) : Records eventRegs s (s.storeEvent x) := by
  refine ⟨?_, WritesOnly.storeEvent s x⟩
  unfold State.storeEvent
  extract_lets full oldest lost kept s1 next sink
  have counted : s1 = { s with params := s1.params, log := s1.log } := by
    simp only [s1]
    split <;> rfl
  show ({ s1 with log := _ } : State).setVal _ _ = _
  rw [counted]
  rfl

theorem raiseEventOf {cls : Nat} (h : cls < 2 ^ 24) (s : State) (step code source d0 d1 : Nat) :
    Records eventRegs s (s.raiseEventOf step cls code source d0 d1) := by
  refine ⟨?_, WritesOnly.raiseEventOf h s step code source d0 d1⟩
  unfold State.raiseEventOf
  extract_lets s1 now newest within
  split
  · rfl
  · exact (storeEvent s1 _).rest

/-- R369: an event writes the log and its own registers. -/
theorem raiseEvent {cls : Nat} (hs : eventRegs ⊆ ps) (h : cls < 2 ^ 24) (s : State) (code source d0 d1 : Nat) :
    Records ps s (s.raiseEvent cls code source d0 d1) := (raiseEventOf h s s.step code source d0 d1).mono hs

section

variable (r : Records ps s t)

include r

theorem pending : t.pending = s.pending := (congrArg State.pending r.rest :)
theorem clock : t.clock = s.clock := (congrArg State.clock r.rest :)
theorem held : t.held = s.held := (congrArg State.held r.rest :)
theorem seq : t.seq = s.seq := (congrArg State.seq r.rest :)
theorem mem : t.mem = s.mem := (congrArg State.mem r.rest :)
theorem weir : t.weir = s.weir := (congrArg State.weir r.rest :)
theorem flash : t.flash = s.flash := (congrArg State.flash r.rest :)
theorem net : t.net = s.net := (congrArg State.net r.rest :)
theorem riffle : t.riffle = s.riffle := (congrArg State.riffle r.rest :)
theorem upd : t.upd = s.upd := (congrArg State.upd r.rest :)
theorem journal : t.journal = s.journal := (congrArg State.journal r.rest :)
theorem panel : t.panel = s.panel := (congrArg State.panel r.rest :)
theorem supply : t.supply = s.supply := (congrArg State.supply r.rest :)
theorem fw : t.fw = s.fw := (congrArg State.fw r.rest :)
theorem nor : t.nor = s.nor := (congrArg State.nor r.rest :)
theorem host : t.host = s.host := (congrArg State.host r.rest :)
theorem dir : t.dir = s.dir := (congrArg State.dir r.rest :)
theorem out : t.out = s.out := (congrArg State.out r.rest :)
theorem draws : t.draws = s.draws := (congrArg State.draws r.rest :)

theorem die (k : Nat) : t.die k = s.die k := State.die_congr r.seq k

theorem stores : SameStores s t := ⟨congrArg Mem.tiles r.mem, congrArg Mem.pages r.mem, r.flash, r.pending⟩

theorem can (c : Canonical s) : Canonical t := by
  obtain ⟨params, tiles, pages, dies⟩ := c
  exact ⟨r.only.wf params, r.mem ▸ tiles, r.mem ▸ pages, r.seq ▸ dies⟩

theorem regs (c : Canonical s) : OnlyRegs ps s t := r.only.regs c.1

theorem reg (c : Canonical s) {p e : Nat} (hp : p ∉ ps) (he : e < 2 ^ 24) : t.reg p e = s.reg p e := r.regs c p e he hp

theorem val (c : Canonical s) {p : Nat} (hp : p ∉ ps) : t.val p = s.val p := r.reg c hp (by decide)

end

end Records

/-- Tiles, tier map, flash, queue, dies and time are as they were: what the arrays' own counting and latching leaves. -/
structure KeepsWork (s t : State) : Prop where
  stores : SameStores s t
  dies : t.seq.dies = s.seq.dies
  clock : t.clock = s.clock
  wf : Sparse.wf paramDefault s.params = true → Sparse.wf paramDefault t.params = true

namespace KeepsWork

variable {s t u : State}

theorem refl (s : State) : KeepsWork s s := ⟨⟨rfl, rfl, rfl, rfl⟩, rfl, rfl, id⟩

theorem trans (h : KeepsWork s t) (g : KeepsWork t u) : KeepsWork s u := by
  obtain ⟨tiles, pages, flash, pending⟩ := h.stores
  obtain ⟨tiles', pages', flash', pending'⟩ := g.stores
  exact ⟨⟨tiles'.trans tiles, pages'.trans pages, flash'.trans flash, pending'.trans pending⟩, g.dies.trans h.dies,
    g.clock.trans h.clock, fun w => g.wf (h.wf w)⟩

theorem of_records {ps : List Nat} (r : Records ps s t) : KeepsWork s t := ⟨r.stores, congrArg Seq.dies r.seq, r.clock, r.only.wf⟩

theorem foldl {α : Type} {f : State → α → State} (hf : ∀ v x, KeepsWork v (f v x)) (xs : List α) (s : State) :
    KeepsWork s (xs.foldl f s) := by
  induction xs generalizing s with
  | nil => exact refl s
  | cons x xs ih => exact (hf s x).trans (ih _)

theorem die (h : KeepsWork s t) (k : Nat) : t.die k = s.die k := by rw [State.die, h.dies, State.die]

end KeepsWork

end Sys2Proof.RecordLaws

/-! PROOF. The matrix arrays between issue and completion (R37, R38, R79 to R104). -/

namespace Sys2Proof.ArrayLaws

open Sys2Proof.Machine Sys2Proof.Claims Sys2Proof.RecordLaws

/-! What counting and latching leave. -/

theorem keepsWork_setReg (s : State) (p e v : Nat) : KeepsWork s (s.setReg p e v) := ⟨⟨rfl, rfl, rfl, rfl⟩, rfl, rfl, Sparse.wf_put _ _⟩

theorem keepsWork_bump64 (s : State) (p e n : Nat) : KeepsWork s (s.bump64 p e n) := keepsWork_setReg ..

theorem keepsWork_ite {c : Prop} [Decidable c] {s t : State} (h : KeepsWork s t) : KeepsWork s (if c then t else s) := by
  split
  · exact h
  · exact KeepsWork.refl s

theorem keepsWork_noteLatch (s : State) (ix word : Nat) (missed : Bool) : KeepsWork s (s.noteLatch ix word missed) := by
  unfold State.noteLatch
  dsimp only
  split
  · exact KeepsWork.refl s
  · exact ⟨⟨rfl, rfl, rfl, rfl⟩, rfl, rfl, id⟩

theorem keepsWork_offerLatch (s : State) (sl a : Nat) (r : OffenderRec) : KeepsWork s (s.offerLatch sl a r) := by
  unfold State.offerLatch
  extract_lets ix full noted
  have first : KeepsWork s noted := keepsWork_noteLatch ..
  split
  · exact KeepsWork.refl s
  · refine first.trans ?_
    split <;> exact keepsWork_setReg ..

theorem keepsWork_offerPass (s : State) (sl a : Nat) (j : MmaJob) (i : Nat) (ps : List PassSum) : KeepsWork s (s.offerPass sl a j i ps) := by
  unfold State.offerPass
  refine KeepsWork.foldl (fun v x => ?_) _ s
  dsimp only
  split
  · exact KeepsWork.refl v
  · split
    · exact KeepsWork.refl v
    · exact keepsWork_offerLatch ..

theorem keepsWork_countPass (s : State) (sl : Nat) (ps : List PassSum) : KeepsWork s (s.countPass sl ps) :=
  (((keepsWork_bump64 ..).trans (keepsWork_bump64 ..)).trans (keepsWork_bump64 ..)).trans (keepsWork_bump64 ..)

theorem keepsWork_setRiffle (s : State) (r : Riffle) : KeepsWork s { s with riffle := r } := ⟨⟨rfl, rfl, rfl, rfl⟩, rfl, rfl, id⟩

theorem keepsWork_dropCheck (s : State) (reason : Nat) : KeepsWork s (s.dropCheck reason) := (keepsWork_bump64 ..).trans (keepsWork_bump64 ..)

theorem keepsWork_captureSwap (s : State) (sl a flight : Nat) (cap : RiffleCap) (set : AccSet) (fo : Fmt) :
    KeepsWork s (s.captureSwap sl a flight cap set fo) := by
  unfold State.captureSwap
  split
  · exact KeepsWork.refl s
  · dsimp only
    split
    · exact (keepsWork_setRiffle s _).trans (keepsWork_dropCheck ..)
    · exact keepsWork_setRiffle s _

theorem records_countRows {sl : Nat} (hsl : sl < 2 ^ 24) (s : State) (c : Conv) (i j : Nat) :
    Records [P.convOverflows, P.convUnderflows, P.scaleClamps] s (s.countRows sl c i j) := by
  unfold State.countRows
  refine Records.ite (Records.refl ..) ?_
  exact ((Records.bump64 (by decide) hsl ..).trans (Records.bump64 (by decide) hsl ..)).trans (Records.bump64 (by decide) hsl ..)

/-! One array replaced. -/

theorem array_congr {s t : State} (h : t.seq.dies = s.seq.dies) (sl a : Nat) : t.array sl a = s.array sl a := by
  simp only [State.array, State.die, h]

/-- An operation that replaces one array, on the way counting and latching only, leaves the stores and the other dies. -/
theorem arrayFrame_setArray {s v : State} (can : Canonical s) (h : KeepsWork s v) (sl a : Nat) (x : ArrayState) :
    ArrayFrame s (v.setArray sl a x) sl := by
  obtain ⟨params, tiles, pages, dies⟩ := can
  refine ⟨h.stores, fun k hk => ?_⟩
  exact (State.die_setDie_other v _ (h.dies ▸ dies) hk).trans (h.die k)

theorem arrayFrame_trans_keepsWork {s t u : State} {sl : Nat} (h : ArrayFrame s t sl) (g : KeepsWork t u) : ArrayFrame s u sl := by
  obtain ⟨⟨tiles, pages, flash, pending⟩, dies⟩ := h
  obtain ⟨tiles', pages', flash', pending'⟩ := g.stores
  exact ⟨⟨tiles'.trans tiles, pages'.trans pages, flash'.trans flash, pending'.trans pending⟩,
    fun k hk => (g.die k).trans (dies k hk)⟩

theorem arrayFrame_setDie {s t : State} {sl : Nat} (wf : Sparse.wf dieDefault t.seq.dies = true) (h : ArrayFrame s t sl) (d : Die) :
    ArrayFrame s (t.setDie sl d) sl := ⟨h.1, fun k hk => (State.die_setDie_other t d wf hk).trans (h.2 k hk)⟩

theorem set_setSet_same (x : ArrayState) (k : Nat) (v : AccSet) : (x.setSet k v).set k = v := by
  unfold ArrayState.setSet ArrayState.set
  split <;> rfl

theorem set_setSet_other (x : ArrayState) (k : Nat) (v : AccSet) : (x.setSet k v).set (1 - k) = x.set (1 - k) := by
  unfold ArrayState.setSet ArrayState.set
  by_cases h : k = 0
  · subst h; rfl
  · simp [h, show 1 - k = 0 by omega]

/-! A pass enters the tree (R37). -/

/-- The ac at which row `i` enters, of an MMA whose first pass enters at `t0`. -/
def enterTime (j : MmaJob) (i t0 : Nat) : Nat := t0 + 4 * (if j.half then i / 2 else i)

/-- Pass `i` of `j` in the tree. -/
def passInTree (j : MmaJob) (i t0 : Nat) : TreePass :=
  let ps := passRow j i
  { job := j, row := i, enter := enterTime j i t0, first := i == 0, last := i == 127, sums := ps.map (·.val)
    invs := ps.map fun q => q.kind != 0, losses := ps.map (·.loss) }

/-- The array once pass `i` of `j` has entered. -/
def entered (x : ArrayState) (j : MmaJob) (i t0 : Nat) : ArrayState :=
  { x with
    mmas := if i = 0 then x.mmas.drop 1 else x.mmas
    running := if i = 127 then none else some (j, i + 1, t0)
    tree := x.tree ++ [passInTree j i t0], lastEnter := some (enterTime j i t0)
    ends := if i = 127 then x.ends ++ [(j.ord, enterTime j i t0)] else x.ends }

theorem passEnterStep_eq {s : State} {sl a i t0 : Nat} {j : MmaJob} (next : (s.array sl a).nextMma = some (j, i, t0))
    (recent : ∀ p ∈ (s.array sl a).tree, enterTime j i t0 ≤ p.enter + 96) :
    ∃ v, KeepsWork (s.reach (enterTime j i t0)) v ∧ passEnterStep s sl a = v.setArray sl a (entered (s.array sl a) j i t0) := by
  have none : ¬ ((s.array sl a).tree.any fun p => decide (p.enter + 24 * acRoot < enterTime j i t0)) = true := by
    intro h
    obtain ⟨p, hp, late⟩ := List.any_eq_true.1 h
    exact absurd (of_decide_eq_true late) (Nat.not_lt.2 (recent p hp))
  have work := (keepsWork_countPass (s.reach (enterTime j i t0)) sl (passRow j i)).trans (keepsWork_offerPass _ sl a j i (passRow j i))
  refine ⟨_, work, ?_⟩
  unfold passEnterStep
  simp only [next]
  refine (if_neg none).trans ?_
  exact congrArg (State.setArray _ sl a) (congrArg (entered · j i t0) (array_congr work.dies sl a))

/-! A pass is added (R81, R90). -/

theorem not_any_lt {α : Type} {xs : List α} {f : α → Nat} {o : Nat} (h : ∀ x ∈ xs, o ≤ f x) :
    ¬ (xs.any fun x => decide (f x < o)) = true := by
  simpa using h

/-- The active set as a pass meets it. -/
def metSet (p : TreePass) (v : AccSet) : AccSet := if p.first then v.meet p.job else v

theorem passSumAddStep_eq {s : State} {sl a : Nat} {p : TreePass} {rest : List TreePass} (tree : (s.array sl a).tree = p :: rest)
    (drains : ∀ d ∈ (s.array sl a).drains, p.job.ord ≤ d.ord) (halves : ∀ h ∈ (s.array sl a).halves, p.job.ord ≤ h.1) :
    let x := s.array sl a
    ∃ cap v, KeepsWork ((s.reach (p.enter + 96)).setArray sl a
        ({ x with tree := rest, capture := cap }.setSet x.active (addPass (s.val P.accumSeed) p (metSet p (x.set x.active))).1)) v
      ∧ passSumAddStep s sl a = if p.last then v.flightReady sl p.job.flight (p.enter + 96) else v := by
  intro x
  have clear := not_or.2 ⟨not_any_lt drains, not_any_lt halves⟩
  unfold passSumAddStep
  simp only [tree]
  refine ⟨if p.first then (s.reach (p.enter + 24 * acRoot)).captureFor sl a x p.job else x.capture, _, ?_, if_neg clear⟩
  refine ((KeepsWork.trans ?_ (keepsWork_bump64 ..)).trans (keepsWork_bump64 ..)).trans (keepsWork_bump64 ..)
  exact keepsWork_ite (keepsWork_bump64 ..)

/-! Width changes, swaps and conversion ends (R38, R80, R88, R89, R95, R104). -/

theorem halfConversionStep_eq {s : State} {sl a o : Nat} {h : Bool} {rest : List (Nat × Bool)} (halves : (s.array sl a).halves = (o, h) :: rest)
    (mmas : (s.array sl a).mmaBefore o = false) (drains : ∀ d ∈ (s.array sl a).drains, o ≤ d.ord) :
    let x := s.array sl a
    ∃ cap, KeepsWork (s.setArray sl a ({ x with halves := rest, capture := cap }.setSet x.active ((x.set x.active).toWidth h).1))
      (halfConversionStep s sl a) := by
  intro x
  have clear := not_or.2 ⟨Bool.eq_false_iff.1 mmas, not_any_lt drains⟩
  unfold halfConversionStep
  simp only [halves]
  rw [if_neg clear]
  exact ⟨_, (keepsWork_bump64 ..).trans (keepsWork_bump64 ..)⟩

/-- The conversion that a swap of `x` for `j` begins. -/
def beganConv (x : ArrayState) (j : DrainJob) : Conv := { job := j, swap := x.swapTime j, set := x.set x.active, freed := false }

/-- The array once it has swapped for `j`. -/
def swapped (x : ArrayState) (j : DrainJob) (rest : List DrainJob) : ArrayState :=
  ({ x with drains := rest, active := 1 - x.active, swaps := x.swaps + 1, capture := none, lastSwap := some (x.swapTime j)
            ends := x.ends.filter fun e => decide (j.ord < e.1)
            convs := x.convs.map (fun c => { c with freed := true }) ++ [beganConv x j] } : ArrayState).setSet (1 - x.active)
    { half := (x.set x.active).half }

theorem drainSwapStep_eq {s : State} {sl a : Nat} {j : DrainJob} {rest : List DrainJob} (drains : (s.array sl a).drains = j :: rest)
    (mmas : (s.array sl a).mmaBefore j.ord = false) (halves : ∀ h ∈ (s.array sl a).halves, j.ord ≤ h.1) :
    ∃ v, KeepsWork (s.reach ((s.array sl a).swapTime j)) v ∧ drainSwapStep s sl a = v.setArray sl a (swapped (s.array sl a) j rest) := by
  have clear := not_or.2 ⟨Bool.eq_false_iff.1 mmas, not_any_lt halves⟩
  unfold drainSwapStep
  simp only [drains]
  refine ⟨_, ?_, if_neg clear⟩
  split
  · exact keepsWork_captureSwap ..
  · exact KeepsWork.refl _

/-- The array once the conversion `c` has read its last row. -/
def converted (x : ArrayState) (c : Conv) (rest : List Conv) : ArrayState :=
  if c.freed then { x with convs := rest } else { x with convs := rest }.setSet (1 - x.active) { half := (x.set (1 - x.active)).half }

/-- The DRAIN's entry once its tile is formed. -/
def drained (c : Conv) (f : Flight) : Flight :=
  if f.id = c.job.flight then
    { f with effects := [.tile c.job.dest (fmtClass c.job.conv.fmtOut) 1 c.job.writer c.tile], ready := true, due := c.swap + 144 * acRoot }
  else f

theorem conversionEndStep_eq {s : State} {sl a : Nat} (hsl : sl < 2 ^ 24) {c : Conv} {rest : List Conv} (convs : (s.array sl a).convs = c :: rest) :
    ∃ v w, Records [P.convOverflows, P.convUnderflows, P.scaleClamps]
        ((s.reach (c.swap + 127 * acRoot)).setArray sl a (converted (s.array sl a) c rest)) v
      ∧ KeepsWork (v.bump64 P.drains sl 1) w ∧ w.params = (v.bump64 P.drains sl 1).params
      ∧ conversionEndStep s sl a = w.setDie sl { w.die sl with flight := (w.die sl).flight.map (drained c) } := by
  unfold conversionEndStep
  simp only [convs]
  refine ⟨((s.reach (c.swap + 127 * acRoot)).setArray sl a (converted (s.array sl a) c rest)).countRows sl c c.counted 128,
    State.captureTile _ sl a c.job.flight c.tile, records_countRows hsl .., keepsWork_setRiffle .., rfl, ?_⟩
  unfold converted
  rfl

/-! Reading the array and the flight after. -/

theorem setSet_eq (x : ArrayState) (k : Nat) (v : AccSet) :
    x.setSet k v = { x with set0 := (x.setSet k v).set0, set1 := (x.setSet k v).set1 } := by
  unfold ArrayState.setSet
  split <;> rfl

theorem flight_setArray (s : State) (sl a : Nat) (x : ArrayState) : ((s.setArray sl a x).die sl).flight = (s.die sl).flight := by
  unfold State.setArray
  rw [State.die_setDie_same]
  unfold Die.setArray
  split <;> rfl

theorem array_setDie_flight (s : State) (sl a : Nat) (fs : List Flight) :
    (s.setDie sl { s.die sl with flight := fs }).array sl a = s.array sl a := by
  unfold State.array
  rw [State.die_setDie_same]
  rfl

end Sys2Proof.ArrayLaws

/-! PROOF. The statements about the arrays. -/

namespace Sys2Proof.ArrayLaws

open Sys2Proof.Machine Sys2Proof.Claims Sys2Proof.RecordLaws

theorem array_setArray_same (s : State) (sl a : Nat) (x : ArrayState) : (s.setArray sl a x).array sl a = x :=
  IssueLaws.State.array_setArray_same s sl a x

theorem setSet_fields (x : ArrayState) (k : Nat) (v : AccSet) :
    (x.setSet k v).tree = x.tree ∧ (x.setSet k v).active = x.active ∧ (x.setSet k v).drains = x.drains ∧ (x.setSet k v).mmas = x.mmas
      ∧ (x.setSet k v).halves = x.halves ∧ (x.setSet k v).convs = x.convs := by
  rw [setSet_eq]
  exact ⟨rfl, rfl, rfl, rfl, rfl, rfl⟩

theorem set_setSet_flip (x : ArrayState) (k : Nat) (v : AccSet) : (x.setSet (1 - k) v).set k = x.set k := by
  unfold ArrayState.setSet ArrayState.set
  by_cases h : k = 0
  · subst h; rfl
  · simp [h, show 1 - k = 0 by omega]

theorem swapped_fields (x : ArrayState) (j : DrainJob) (rest : List DrainJob) : let y := swapped x j rest
    y.drains = rest ∧ y.active = 1 - x.active ∧ y.swaps = x.swaps + 1 ∧ y.set (1 - x.active) = { half := (x.set x.active).half }
      ∧ y.convs.getLast? = some (beganConv x j) ∧ y.lastSwap = some (x.swapTime j) ∧ y.mmas = x.mmas ∧ y.tree = x.tree := by
  unfold swapped
  refine ⟨?_, ?_, ?_, set_setSet_same .., ?_, ?_, ?_, ?_⟩ <;> rw [setSet_eq]
  exact List.getLast?_concat ..

theorem converted_sets (x : ArrayState) (c : Conv) (rest : List Conv) :
    (converted x c rest).convs = rest ∧ (converted x c rest).active = x.active ∧ (converted x c rest).set x.active = x.set x.active
      ∧ (c.freed = false → (converted x c rest).set (1 - x.active) = { half := (x.set (1 - x.active)).half }) := by
  unfold converted
  cases c.freed
  · obtain ⟨-, active, -, -, -, convs⟩ := setSet_fields { x with convs := rest } (1 - x.active) { half := (x.set (1 - x.active)).half }
    refine ⟨convs, active, ?_, fun _ => set_setSet_same ..⟩
    exact set_setSet_flip ..
  · exact ⟨rfl, rfl, rfl, fun h => absurd h (by decide)⟩

theorem toWidth_same {v : AccSet} {h : Bool} (same : v.half = h) : (v.toWidth h).1 = v := by
  unfold AccSet.toWidth
  rw [if_pos same]

theorem toWidth_half (v : AccSet) (h : Bool) : (v.toWidth h).1.half = h := by
  unfold AccSet.toWidth
  split
  · assumption
  · exact List.foldlRecOn (motive := fun p : AccSet × Nat × Nat => p.1.half = h) _ _ rfl fun _ kept _ _ => kept

end Sys2Proof.ArrayLaws

namespace Sys2Proof.Claims

open Sys2Proof.Machine Sys2Proof.ArrayLaws Sys2Proof.RecordLaws

/-- Settles O13: the array as each of the two steps leaves it. -/
theorem passesEnterTheTreeAndAreAdded : Obligations.PassesEnterTheTreeAndAreAdded := by
  refine ⟨?_, ?_⟩
  · intro s sl a j i t0 can x at' next recent
    obtain ⟨v, work, eq⟩ := passEnterStep_eq next recent
    refine ⟨_, congrArg Host.Outcome.next eq, ?_⟩
    dsimp only
    rw [array_setArray_same]
    exact ⟨congrArg Clock.now work.clock, rfl, rfl, rfl, rfl, ⟨_, rfl, rfl, rfl, rfl, rfl⟩, rfl, rfl, rfl, rfl,
      arrayFrame_setArray (s := s.reach _) can work sl a _⟩
  · intro s sl a p rest can x tree drains halves
    obtain ⟨cap, v, work, eq⟩ := passSumAddStep_eq tree drains halves
    generalize hz : ({ x with tree := rest, capture := cap } : ArrayState) = z at work
    have array : v.array sl a = z.setSet x.active (addPass (s.val P.accumSeed) p (metSet p (x.set x.active))).1 :=
      (array_congr work.dies sl a).trans (array_setArray_same ..)
    have frame : ArrayFrame s v sl :=
      arrayFrame_trans_keepsWork (arrayFrame_setArray (s := s.reach _) can (KeepsWork.refl _) sl a _) work
    have flight : (v.die sl).flight = (s.die sl).flight := by rw [work.die, flight_setArray]; rfl
    have wf : Sparse.wf dieDefault v.seq.dies = true := work.dies ▸ Sparse.wf_put _ _ can.2.2.2
    obtain ⟨tree', active', drains', mmas', -, -⟩ := setSet_fields z x.active (addPass (s.val P.accumSeed) p (metSet p (x.set x.active))).1
    refine ⟨_, congrArg Host.Outcome.next eq, ?_⟩
    have clock : v.clock.now = max s.clock.now (p.enter + 96) := congrArg Clock.now work.clock
    have reads {u : State} (h : u.array sl a = v.array sl a) : (u.array sl a).tree = rest
        ∧ (u.array sl a).set x.active = (addPass (s.val P.accumSeed) p (metSet p (x.set x.active))).1
        ∧ (u.array sl a).set (1 - x.active) = x.set (1 - x.active) ∧ (u.array sl a).active = x.active
        ∧ (u.array sl a).drains = x.drains ∧ (u.array sl a).mmas = x.mmas := by
      rw [h, array, tree', active', drains', mmas', set_setSet_same, set_setSet_other, ← hz]
      exact ⟨rfl, rfl, rfl, rfl, rfl, rfl⟩
    split
    case isTrue last =>
      obtain ⟨h1, h2, h3, h4, h5, h6⟩ := reads (u := v.flightReady sl p.job.flight (p.enter + 96)) (array_setDie_flight ..)
      refine ⟨clock, h1, h2, h3, h4, h5, h6, fun _ f hf id => ?_, arrayFrame_setDie wf frame _⟩
      refine ⟨{ f with ready := true, due := p.enter + 96 }, ?_, rfl, rfl, rfl⟩
      rw [State.flightReady, State.die_setDie_same]
      exact List.mem_map.2 ⟨f, flight ▸ hf, if_pos id⟩
    case isFalse more =>
      obtain ⟨h1, h2, h3, h4, h5, h6⟩ := reads (u := v) rfl
      exact ⟨clock, h1, h2, h3, h4, h5, h6, fun last => absurd last more, frame⟩

/-- Settles O15: the array as each of the three steps leaves it. -/
theorem accumulatorSetsConvertSwapAndDrain : Obligations.AccumulatorSetsConvertSwapAndDrain := by
  refine ⟨?_, ?_, ?_⟩
  · intro s sl a o h rest can x halves mmas drains
    obtain ⟨cap, work⟩ := halfConversionStep_eq halves mmas drains
    generalize hz : ({ x with halves := rest, capture := cap } : ArrayState) = z at work
    have array : (halfConversionStep s sl a).array sl a = z.setSet x.active ((x.set x.active).toWidth h).1 :=
      (array_congr work.dies sl a).trans (array_setArray_same ..)
    obtain ⟨tree', active', drains', mmas', halves', -⟩ := setSet_fields z x.active ((x.set x.active).toWidth h).1
    refine ⟨_, rfl, ?_⟩
    dsimp only
    rw [array, tree', active', drains', mmas', halves', set_setSet_same, set_setSet_other, ← hz]
    exact ⟨rfl, toWidth_half .., rfl, toWidth_same, rfl, rfl, rfl, rfl, rfl, work.clock,
      arrayFrame_trans_keepsWork (arrayFrame_setArray can (KeepsWork.refl _) sl a _) work⟩
  · intro s sl a j rest can x drains mmas halves
    obtain ⟨v, work, eq⟩ := drainSwapStep_eq drains mmas halves
    refine ⟨_, congrArg Host.Outcome.next eq, ?_⟩
    dsimp only
    rw [array_setArray_same]
    obtain ⟨h1, h2, h3, h4, h5, h6, h7, h8⟩ := swapped_fields x j rest
    have flight : ((v.setArray sl a (swapped x j rest)).die sl).flight = (s.die sl).flight := by rw [flight_setArray, work.die]; rfl
    exact ⟨congrArg Clock.now work.clock, h1, h2, h3, h4, h5, h6, flight, h7, h8, arrayFrame_setArray (s := s.reach _) can work sl a _⟩
  · intro s sl a c rest can x convs
    obtain ⟨v, w, counted, kept, params, eq⟩ := conversionEndStep_eq (sl.2.trans (by decide)) convs
    have work := (KeepsWork.of_records counted).trans ((keepsWork_bump64 v P.drains sl 1).trans kept)
    have array : w.array sl a = converted x c rest := (array_congr work.dies sl a).trans (array_setArray_same ..)
    have flight : (w.die sl).flight = (s.die sl).flight := by rw [work.die, flight_setArray]; rfl
    have wf : Sparse.wf dieDefault w.seq.dies = true := work.dies ▸ Sparse.wf_put _ _ can.2.2.2
    have frame : ArrayFrame s w sl := arrayFrame_trans_keepsWork (arrayFrame_setArray (s := s.reach _) can (KeepsWork.refl _) sl a _) work
    have drains : w.reg P.drains sl = min (s.reg P.drains sl + 1) (2 ^ 64 - 1) := by
      rw [State.reg_congr params, StoreTileLaws.reg_bump64_same]
      have before := counted.only.regs can.1 P.drains sl (sl.2.trans (by decide)) (by decide)
      exact congrArg (fun n => min (n + 1) (2 ^ 64 - 1)) before
    obtain ⟨convs', active', set', other'⟩ := converted_sets x c rest
    refine ⟨_, congrArg Host.Outcome.next eq, ?_⟩
    dsimp only
    rw [array_setDie_flight, array]
    refine ⟨congrArg Clock.now work.clock, convs', active', other', set', drains, fun f hf id => ?_, fun poison => ?_, arrayFrame_setDie wf frame _⟩
    · refine ⟨drained c f, ?_, ?_⟩
      · rw [State.die_setDie_same]
        exact List.mem_map.2 ⟨f, flight ▸ hf, rfl⟩
      · simp [drained, id, acRoot]
    · exact if_pos (by simp [Conv.poisons, poison])

end Sys2Proof.Claims

/-! PROOF. The accounting of ac (R282, R288 to R290), the raise of a token (R30), and the write of a tile at its page (R159, R245, R279). -/

namespace Sys2Proof.WorkLaws

open Sys2Proof.Machine Sys2Proof.Claims Sys2Proof.IssueLaws Sys2Proof.RecordLaws Sys2Proof.StoreTileLaws

theorem kept_of_passed {d d' : Die} (h : PassedOnly d d') : Kept d d' := by
  have same : { d with phaseAt := d'.phaseAt } = d := by rw [h.1]
  rw [Claims.Kept, same]
  exact h

theorem kept_refl (d : Die) : Kept d d := kept_of_passed (passed_refl d)

theorem kept_phaseAt (d : Die) (n : Nat) : Kept d { d with phaseAt := n } := passed_refl _

theorem kept_trans {a b c : Die} (h : Kept a b) (g : Kept b c) : Kept a c := by
  obtain ⟨rest, heads⟩ := h
  obtain ⟨rest', heads'⟩ := g
  refine ⟨?_, fun st hst => ?_⟩
  · rw [rest', rest]
  · have first := heads st hst
    have second := heads' st hst
    rw [show ({ b with phaseAt := c.phaseAt } : Die).stream st = b.stream st from rfl, first] at second
    exact second

theorem Kept.fields {d d' : Die} (h : Kept d d') : d'.flight = d.flight ∧ d'.tokens = d.tokens ∧ d'.regs = d.regs ∧ d'.regPoison = d.regPoison := by
  rw [h.1]
  exact ⟨rfl, rfl, rfl, rfl⟩

/-- What ac count in while they pass. -/
def acRegs : List Nat := [P.budgetWaits, P.phaseTimers]

/-- The ac up to now were accounted: nothing but the weir, the counts of `acRegs`, and on each die how often heads were passed
over and up to when its ac are accounted. -/
structure Accounts (s t : State) : Prop where
  rest : t = { s with weir := t.weir, params := t.params, seq := { s.seq with dies := t.seq.dies } }
  can : Canonical s → Canonical t
  dies : Canonical s → ∀ k, Kept (s.die k) (t.die k)
  regs : Canonical s → OnlyRegs acRegs s t

namespace Accounts

theorem refl (s : State) : Accounts s s := ⟨rfl, id, fun _ _ => kept_refl _, fun _ _ _ _ _ => rfl⟩

theorem trans {s t u : State} (h : Accounts s t) (g : Accounts t u) : Accounts s u :=
  ⟨by rw [g.rest, h.rest], fun c => g.can (h.can c), fun c k => kept_trans (h.dies c k) (g.dies (h.can c) k),
    fun c p e he hp => (g.regs (h.can c) p e he hp).trans (h.regs c p e he hp)⟩

theorem foldl {α : Type} {f : State → α → State} {xs : List α} (hf : ∀ x ∈ xs, ∀ v, Accounts v (f v x)) (s : State) :
    Accounts s (xs.foldl f s) := by
  induction xs generalizing s with
  | nil => exact refl s
  | cons x xs ih => exact (hf x (List.mem_cons_self ..) s).trans (ih (fun y hy => hf y (List.mem_cons_of_mem _ hy)) _)

theorem catchUp {b : Nat} (hb : b < 8) (s : State) : Accounts s (s.catchUp b) := by
  have waits := Waits.catchUp hb s
  refine ⟨?_, waits.can, fun c k => kept_of_passed (waits.dies c k), fun c p e he hp => waits.regs c p e he fun h => hp ?_⟩
  · have rest := waits.rest
    rw [s.catchUp_clock b] at rest
    exact rest
  · rw [List.mem_singleton.1 h]
    decide

theorem setReg {p e : Nat} (hp : p ∈ acRegs) (he : e < 2 ^ 24) (s : State) (v : Nat) : Accounts s (s.setReg p e v) :=
  ⟨rfl, fun c => ⟨Sparse.wf_put _ _ c.1, c.2⟩, fun _ _ => kept_refl _, fun c => (WritesOnly.setReg hp he s v).regs c.1⟩

theorem setPhase (s : State) (sl n : Nat) : Accounts s (s.setDie sl { s.die sl with phaseAt := n }) := by
  refine ⟨rfl, fun c => ⟨c.1, c.2.1, c.2.2.1, Sparse.wf_put _ _ c.2.2.2⟩, fun c k => ?_, fun _ _ _ _ _ => rfl⟩
  by_cases here : k = sl
  · rw [here, State.die_setDie_same]
    exact kept_phaseAt _ n
  · rw [State.die_setDie_other s _ c.2.2.2 here]
    exact kept_refl _

/-- R282. -/
theorem account {sl : Nat} (hsl : sl < 64) (s : State) : Accounts s (s.account sl) := by
  unfold State.account
  extract_lets v d n
  refine (catchUp (b := sl / 8) (by omega) s).trans ?_
  have first := phaseOf_lt v sl d.phaseAt
  have rest := phaseOf_lt v sl (d.phaseAt + 1)
  split
  · exact setPhase v sl v.ac
  · exact .trans (.trans (setReg (p := P.phaseTimers) (by decide) (by omega) v _)
      (setReg (p := P.phaseTimers) (by decide) (by omega) _ _)) (setPhase _ sl v.ac)

theorem accountAll (s : State) : Accounts s s.accountAll := foldl (fun _ h v => account (List.mem_range.1 h) v) s

variable {s t : State} (r : Accounts s t)

include r

theorem pending : t.pending = s.pending := (congrArg State.pending r.rest :)
theorem clock : t.clock = s.clock := (congrArg State.clock r.rest :)
theorem log : t.log = s.log := (congrArg State.log r.rest :)
theorem held : t.held = s.held := (congrArg State.held r.rest :)
theorem mem : t.mem = s.mem := (congrArg State.mem r.rest :)
theorem flash : t.flash = s.flash := (congrArg State.flash r.rest :)
theorem seq : t.seq = { s.seq with dies := t.seq.dies } := (congrArg State.seq r.rest :)

theorem stores : SameStores s t := ⟨congrArg Mem.tiles r.mem, congrArg Mem.pages r.mem, r.flash, r.pending⟩

theorem reg (c : Canonical s) {p e : Nat} (hp : p ∉ acRegs) (he : e < 2 ^ 24) : t.reg p e = s.reg p e := r.regs c p e he hp

theorem val (c : Canonical s) {p : Nat} (hp : p ∉ acRegs) : t.val p = s.val p := r.reg c hp (by decide)

end Accounts

/-! Which slots are present. -/

/-- R10, R14: whether a slot is present depends on its base die's slot map alone. -/
theorem absent_congr {s t : State} {sl : Nat} (h : t.reg (P.slotMap + sl / 8) 0 = s.reg (P.slotMap + sl / 8) 0) : t.absent sl = s.absent sl := by
  unfold State.absent State.slotPos
  rw [h]

theorem slotMap_not_mem {ps : List Nat} (h : ∀ b < 8, P.slotMap + b ∉ ps) {sl : Nat} (hsl : sl < 64) : P.slotMap + sl / 8 ∉ ps :=
  h (sl / 8) (by omega)

/-! A token is raised (R30). -/

/-- The die after the raise of a token by `n`. -/
def raisedDie (d : Die) (k n ac : Nat) : Die :=
  let v := d.token k + n
  { d with tokens := d.tokens.set k (min v 255), raised := (k, ac, min v 255 - d.token k) :: d.raised.filter fun r => decide (ac ≤ r.2.1) }

theorem addToken_eq {sl : Nat} (hsl : sl < 64) (s : State) (k n : Nat) : ∃ v, Accounts s v ∧ s.addToken sl k n =
    let w := v.setDie sl (raisedDie (v.die sl) k n v.ac)
    if 255 < (v.die sl).token k + n then w.bump32 P.tokenSaturations sl 1 else w :=
  ⟨s.account sl, Accounts.account hsl s, rfl⟩

/-! A tile is written at its page (R159, R245, R279). -/

/-- Registers that a write of a tile may count in or set: layers, and the words of flags. -/
def tileRegs : List Nat := [P.layerOvf, P.layerUnf, P.layerInv, P.layerLoss, P.lateFlags, P.localFlags]

/-- Exactly tile `i` was written, as `tl`: its logical units, its flags and its layer's counts besides. -/
structure WritesTile (i : Nat) (tl : Tile) (s t : State) : Prop where
  rest : t = { s with params := t.params, flash := t.flash, mem := { s.mem with tiles := Sparse.put tileDefault s.mem.tiles i tl }
                      seq := { s.seq with nextWord := t.seq.nextWord } }
  only : WritesOnly tileRegs s t

/-- Nothing but a flag word and the counts of `tileRegs`. -/
structure FlagsOnly (s t : State) : Prop where
  rest : t = { s with params := t.params, seq := { s.seq with nextWord := t.seq.nextWord } }
  only : WritesOnly tileRegs s t

theorem FlagsOnly.trans {s t u : State} (h : FlagsOnly s t) (g : FlagsOnly t u) : FlagsOnly s u :=
  ⟨by rw [g.rest, h.rest], h.only.trans g.only⟩

theorem FlagsOnly.refl (s : State) : FlagsOnly s s := ⟨rfl, .of_params _ rfl⟩

theorem FlagsOnly.bump64 {p e : Nat} (hp : p ∈ tileRegs) (he : e < 2 ^ 24) (s : State) (n : Nat) : FlagsOnly s (s.bump64 p e n) :=
  ⟨rfl, .bump64 hp he s n⟩

/-- R245, R248. -/
theorem FlagsOnly.condition (s : State) (w : Nat) : FlagsOnly s (s.condition w) := by
  unfold State.condition
  split
  · exact refl s
  · split
    · dsimp only
      split
      · exact trans (t := { s with seq := { s.seq with nextWord := Nat.lor s.seq.nextWord w } }) ⟨rfl, .of_params _ rfl⟩
          (bump64 (by decide) (by decide) _ 1)
      · exact ⟨rfl, .of_params _ rfl⟩
    · exact ⟨rfl, .setReg (by decide) (by decide) s _⟩

/-- R279. -/
theorem FlagsOnly.countTileLayer (s : State) (i : Nat) {k : Nat} (hk : k < 4) (tl : Tile) : FlagsOnly s (s.countTileLayer i k tl) := by
  unfold State.countTileLayer
  split
  case h_1 l hl =>
    have small : l * 4 + k < 2 ^ 24 := by
      unfold State.layerOf at hl
      obtain ⟨kv, -, rfl⟩ := Option.map_eq_some_iff.1 hl
      have := Nat.mod_lt (kv.2 / 2 ^ 96) (show 0 < 2 ^ 10 by decide)
      simp only [bits]
      omega
    exact (((bump64 (by decide) small s _).trans (bump64 (by decide) small _ _)).trans (bump64 (by decide) small _ _)).trans
      (bump64 (by decide) small _ _)
  case h_2 => exact refl s

theorem writesTile_putStored (s : State) (i : Nat) (tl : Tile) : WritesTile i tl s (s.putStored i tl) := by
  refine ⟨?_, .of_params _ (putStored_params s i tl)⟩
  unfold State.putStored
  dsimp only
  split <;> rfl

theorem WritesTile.then {i : Nat} {tl : Tile} {s t u : State} (h : WritesTile i tl s t) (g : FlagsOnly t u) : WritesTile i tl s u :=
  ⟨by rw [g.rest, h.rest], h.only.trans g.only⟩

theorem tileWrite_mapped {s : State} {w : TileWrite} {i : Nat} (place : s.place w.id = .mapped i w.cls) (column : ∀ k, w.column = some k → k < 4) :
    WritesTile i w.tile s (s.tileWrite w) := by
  unfold State.tileWrite
  rw [storeTile_same_class w.acct w.tile place]
  have flagged := (writesTile_putStored s i w.tile).then (FlagsOnly.condition _ (wordOf w.tile.flags ((s.putStored i w.tile).ovfEnabled w.ovf)))
  dsimp only
  split
  case h_1 k hk => exact flagged.then (FlagsOnly.countTileLayer _ w.id (column k hk) w.tile)
  case h_2 => exact flagged

/-- R175: a write to a page that is loaded goes at once. -/
theorem write_mapped {s : State} {w : TileWrite} {i : Nat} (place : s.place w.id = .mapped i w.cls) (loaded : s.unloaded [w.id] = [])
    (column : ∀ k, w.column = some k → k < 4) : WritesTile i w.tile s (s.write w) := by
  unfold State.write
  rw [if_pos loaded]
  exact tileWrite_mapped place column

namespace WritesTile

variable {i : Nat} {tl : Tile} {s t : State} (h : WritesTile i tl s t)

include h

theorem tiles : t.mem.tiles = Sparse.put tileDefault s.mem.tiles i tl := (congrArg (fun s : State => s.mem.tiles) h.rest :)
theorem pages : t.mem.pages = s.mem.pages := (congrArg (fun s : State => s.mem.pages) h.rest :)
theorem clock : t.clock = s.clock := (congrArg State.clock h.rest :)
theorem dies : t.seq.dies = s.seq.dies := (congrArg (fun s : State => s.seq.dies) h.rest :)

theorem die (k : Nat) : t.die k = s.die k := by rw [State.die, h.dies, State.die]

theorem tile_same : t.tile i = tl := by rw [State.tile, h.tiles]; exact Sparse.get_put_same ..

theorem tile_other (can : Canonical s) {k : Nat} (hk : k ≠ i) : t.tile k = s.tile k := by
  rw [State.tile, h.tiles]
  exact Sparse.get_put_other _ can.2.1 hk

theorem can (c : Canonical s) : Canonical t :=
  ⟨h.only.wf c.1, h.tiles ▸ Sparse.wf_put _ _ c.2.1, h.pages ▸ c.2.2.1, h.dies ▸ c.2.2.2⟩

end WritesTile

end Sys2Proof.WorkLaws

/-! PROOF. The completion of an entry (R28, R30, R31, R40, R175) and the raise of a token from another slot (R30, R32). -/

namespace Sys2Proof.WorkLaws

open Sys2Proof.Machine Sys2Proof.Claims Sys2Proof.IssueLaws Sys2Proof.RecordLaws Sys2Proof.StoreTileLaws

/-- What the completion of an entry of slot `sl` leaves at every turn: time, pages, which slots are there, other dies, and its flight. -/
structure Works (sl : Nat) (s t : State) : Prop where
  can : Canonical s → Canonical t
  clock : t.clock = s.clock
  pages : t.mem.pages = s.mem.pages
  dead : t.seq.dead = s.seq.dead
  absent : Canonical s → t.absent sl = s.absent sl
  others : Canonical s → ∀ k, k ≠ sl → Claims.Kept (s.die k) (t.die k)
  flight : Canonical s → (t.die sl).flight = (s.die sl).flight

namespace Works

variable {sl : Nat} {s t u : State}

theorem refl (sl : Nat) (s : State) : Works sl s s := ⟨id, rfl, rfl, rfl, fun _ => rfl, fun _ _ _ => kept_refl _, fun _ => rfl⟩

theorem trans (h : Works sl s t) (g : Works sl t u) : Works sl s u where
  can c := g.can (h.can c)
  clock := g.clock.trans h.clock
  pages := g.pages.trans h.pages
  dead := g.dead.trans h.dead
  absent c := (g.absent (h.can c)).trans (h.absent c)
  others c k hk := kept_trans (h.others c k hk) (g.others (h.can c) k hk)
  flight c := (g.flight (h.can c)).trans (h.flight c)

theorem of_accounts (hsl : sl < 64) (r : Accounts s t) : Works sl s t where
  can := r.can
  clock := r.clock
  pages := r.stores.2.1
  dead := by rw [r.seq]
  absent c := absent_congr (r.val c (slotMap_not_mem (by decide) hsl))
  others c k _ := r.dies c k
  flight c := (Kept.fields (r.dies c sl)).1

theorem of_writesTile (hsl : sl < 64) {i : Nat} {tl : Tile} (r : WritesTile i tl s t) : Works sl s t where
  can := r.can
  clock := r.clock
  pages := r.pages
  dead := (congrArg (fun s : State => s.seq.dead) r.rest :)
  absent c := absent_congr (r.only.regs c.1 _ 0 (by decide) (slotMap_not_mem (by decide) hsl))
  others _ k _ := r.die k ▸ kept_refl _
  flight _ := by rw [r.die]

theorem setDie (s : State) {d : Die} (h : d.flight = (s.die sl).flight) : Works sl s (s.setDie sl d) where
  can c := ⟨c.1, c.2.1, c.2.2.1, Sparse.wf_put _ _ c.2.2.2⟩
  clock := rfl
  pages := rfl
  dead := rfl
  absent _ := rfl
  others c k hk := by rw [State.die_setDie_other s d c.2.2.2 hk]; exact kept_refl _
  flight _ := by rw [State.die_setDie_same, h]

theorem of_records (hsl : sl < 64) {ps : List Nat} (hps : ∀ b < 8, P.slotMap + b ∉ ps) (r : Records ps s t) : Works sl s t where
  can := r.can
  clock := r.clock
  pages := r.stores.2.1
  dead := by rw [r.seq]
  absent c := absent_congr (r.val c (slotMap_not_mem hps hsl))
  others _ k _ := r.die k ▸ kept_refl _
  flight _ := by rw [r.die]

end Works

/-! The raise of a token. -/

/-- What the raise of token `k` by `n` leaves: everything but the token, when it was raised, a count of saturation and what ac count. -/
structure Raises (sl k n : Nat) (s t : State) : Prop where
  works : Works sl s t
  tokens : Canonical s → (t.die sl).tokens = (s.die sl).tokens.set k (min ((s.die sl).token k + n) 255)
  regs : Canonical s → (t.die sl).regs = (s.die sl).regs ∧ (t.die sl).regPoison = (s.die sl).regPoison
  stores : SameStores s t
  mem : t.mem = s.mem
  seq : t.seq = { s.seq with dies := t.seq.dies }
  saturates : Canonical s → 255 < (s.die sl).token k + n →
    t.reg P.tokenSaturations sl = min (s.reg P.tokenSaturations sl + 1) (2 ^ 32 - 1)

theorem raises_addToken {sl : Nat} (hsl : sl < 64) (s : State) (k n : Nat) : Raises sl k n s (s.addToken sl k n) := by
  obtain ⟨v, r, eq⟩ := addToken_eq hsl s k n
  rw [eq]
  have token (c : Canonical s) : (v.die sl).token k = (s.die sl).token k := congrArg (nth · k 0) (Kept.fields (r.dies c sl)).2.1
  generalize hw : v.setDie sl (raisedDie (v.die sl) k n v.ac) = w
  have put : Works sl v w := hw ▸ Works.setDie v rfl
  have die : w.die sl = raisedDie (v.die sl) k n v.ac := by rw [← hw, State.die_setDie_same]
  have tokens (c : Canonical s) : (w.die sl).tokens = (s.die sl).tokens.set k (min ((s.die sl).token k + n) 255) := by
    rw [die, raisedDie, token c, (Kept.fields (r.dies c sl)).2.1]
  have regs (c : Canonical s) : (w.die sl).regs = (s.die sl).regs ∧ (w.die sl).regPoison = (s.die sl).regPoison := by
    rw [die]
    exact (Kept.fields (r.dies c sl)).2.2
  have base := (Works.of_accounts hsl r).trans put
  have mem : w.mem = s.mem := by rw [← hw]; exact r.mem
  have stores : SameStores s w := by rw [← hw]; exact r.stores
  have seq : w.seq = { s.seq with dies := w.seq.dies } := by
    rw [← hw]
    show ({ v.seq with dies := _ } : Seq) = _
    rw [r.seq]
    rfl
  dsimp only
  split
  case isTrue full =>
    have counted : Records [P.tokenSaturations] w (w.bump32 P.tokenSaturations sl 1) := .bump32 (by decide) (by omega) w 1
    refine ⟨base.trans (.of_records hsl (by decide) counted), tokens, regs, stores, mem, seq, fun c _ => ?_⟩
    refine (State.reg_bump_same ..).trans (congrArg (fun m => min (m + 1) (2 ^ 32 - 1)) ?_)
    rw [← hw]
    exact r.reg c (by decide) (by omega)
  case isFalse room => exact ⟨base, tokens, regs, stores, mem, seq, fun c full => absurd (token c ▸ full) room⟩

/-! The boundary (R12). -/

theorem boundary_of_unfinished {s : State} {sl : Nat} (hsl : sl < 64) (here : s.unfinished sl = true) (alive : s.seq.dead.contains sl = false) :
    s.boundary = s := by
  have solo : s.soloFinal = s := if_neg fun ⟨_, _, _, all⟩ => by
    have done := List.all_eq_true.1 all sl (List.mem_range.2 hsl)
    rw [here] at done
    exact absurd done (by decide)
  unfold State.boundary
  rw [solo]
  refine if_neg fun ⟨opened, all⟩ => ?_
  have base := List.all_eq_true.1 all (sl / 8) (List.mem_range.2 (by omega))
  simp only [State.atBoundary, opened, Bool.not_true, Bool.false_or, Bool.and_eq_true] at base
  have slot := List.all_eq_true.1 base.2 (sl % 8) (List.mem_range.2 (by omega))
  rw [show 8 * (sl / 8) + sl % 8 = sl by omega, here, alive] at slot
  exact absurd slot (by decide)

/-! The completion of an entry. -/

/-- The state once the writes of an entry are visible (R30): its token is raised and it leaves flight. -/
def leftFlight (w : State) (sl id : Nat) (f : Flight) : State :=
  let x := if enSignalCount f.entry = 0 then w else w.addToken sl (enSignalToken f.entry) (enSignalCount f.entry)
  x.setDie sl { x.die sl with flight := (x.die sl).flight.filter (fun g => g.id != id), lastAct := x.clock.now
                              stallTold := false, doneAt := x.clock.now }

theorem unfinished_of_flight {s : State} {sl : Nat} {g : Flight} (here : s.absent sl = false) (hg : g ∈ (s.die sl).flight) :
    s.unfinished sl = true := by
  unfold State.unfinished
  rw [here, List.isEmpty_eq_false_iff_exists_mem.2 ⟨g, hg⟩]
  simp

section

variable {s : State} {sl : Slot} {id : Nat} {f : Flight} (can : Canonical s)
  (find : (s.die sl).flight.find? (fun g => g.id == id) = some f) (ready : (s.die sl).completable f = true)
  (kind : ∀ k, f.kind ≠ .coll k) (others : OthersInFlight s sl id)

include find ready others

theorem entryCompleteStep_cold (cold : s.unloaded (touchedTiles f.writes) ≠ []) :
    exec (.entryComplete sl id) s = .next (s.startLoads (s.unloaded (touchedTiles f.writes))) := by
  obtain ⟨-, alive, -⟩ := others
  refine congrArg Host.Outcome.next ?_
  unfold entryCompleteStep
  simp only [find]
  rw [if_neg (by rw [ready, alive]; decide), if_pos cold]

include can kind

/-- R30, R36: the entry's effects, its token and its leaving, where its writes can go at once. -/
theorem entryCompleteStep_warm (warm : s.unloaded (touchedTiles f.writes) = [])
    (effects : ∀ v, Accounts (s.reach f.due) v → Works sl v (f.effects.foldl (fun s e => s.applyEffect sl e) v)) :
    ∃ v, Accounts (s.reach f.due) v
      ∧ exec (.entryComplete sl id) s = .next (leftFlight (f.effects.foldl (fun s e => s.applyEffect sl e) v) sl id f) := by
  obtain ⟨here, alive, g, hg, other⟩ := others
  have r := Accounts.account sl.2 (s.reach f.due)
  refine ⟨_, r, congrArg Host.Outcome.next ?_⟩
  generalize hw : f.effects.foldl (fun s e => s.applyEffect sl e) ((s.reach f.due).account sl) = w
  have worked : Works sl (s.reach f.due) w := (Works.of_accounts sl.2 r).trans (hw ▸ effects _ r)
  have raised : Works sl (s.reach f.due)
      (if enSignalCount f.entry = 0 then w else w.addToken sl (enSignalToken f.entry) (enSignalCount f.entry)) := by
    split
    · exact worked
    · exact worked.trans (raises_addToken sl.2 w _ _).works
  have stays : (leftFlight w sl id f).boundary = leftFlight w sl id f := by
    refine boundary_of_unfinished sl.2 (unfinished_of_flight (g := g) ((raised.absent can).trans here) ?_) ?_
    · unfold leftFlight
      rw [State.die_setDie_same]
      refine List.mem_filter.2 ⟨?_, bne_iff_ne.2 other⟩
      rw [raised.flight can]
      exact hg
    · exact (congrArg (List.contains · sl.val) raised.dead).trans alive
  unfold entryCompleteStep
  simp only [find]
  rw [if_neg (by rw [ready, alive]; decide), if_neg (not_not.2 warm), hw]
  cases h : f.kind with
  | coll k => exact absurd h (kind k)
  | _ => exact stays

end

/-- What of `w` the leaving of an entry of slot `sl` changes besides its books: none of the memory, of the registers and of their marks. -/
structure LeavesContent (sl : Nat) (w t : State) : Prop where
  stores : SameStores w t
  regs : (t.die sl).regs = (w.die sl).regs
  marks : (t.die sl).regPoison = (w.die sl).regPoison

/-- What completion gives for every entry: its time, its flight, its token and the other slots. -/
def Completed (s t : State) (sl : Slot) (id : Nat) (f : Flight) : Prop :=
  let n := enSignalCount f.entry
  t.clock.now = max s.clock.now f.due ∧ (t.die sl).flight = (s.die sl).flight.filter (fun g => g.id != id)
    ∧ (t.die sl).tokens = (if n = 0 then (s.die sl).tokens
        else (s.die sl).tokens.set (enSignalToken f.entry) (min ((s.die sl).token (enSignalToken f.entry) + n) 255))
    ∧ (t.die sl).doneAt = t.clock.now ∧ (∀ k, k ≠ sl.val → Claims.Kept (s.die k) (t.die k)) ∧ t.mem.pages = s.mem.pages

theorem completed_leftFlight {s w : State} (can : Canonical s) (sl : Slot) (id : Nat) (f : Flight) (work : Works sl (s.reach f.due) w)
    (tokens : (w.die sl).tokens = (s.die sl).tokens) : Completed s (leftFlight w sl id f) sl id f ∧ LeavesContent sl w (leftFlight w sl id f) := by
  unfold leftFlight Completed
  dsimp only
  generalize hx : (if enSignalCount f.entry = 0 then w else w.addToken sl (enSignalToken f.entry) (enSignalCount f.entry)) = x
  have wcan := work.can can
  have raised := raises_addToken sl.2 w (enSignalToken f.entry) (enSignalCount f.entry)
  have step : Works sl w x := by
    rw [← hx]
    split
    · exact Works.refl ..
    · exact raised.works
  have all := work.trans step
  have toks : (x.die sl).tokens = (if enSignalCount f.entry = 0 then (s.die sl).tokens else (s.die sl).tokens.set (enSignalToken f.entry)
      (min ((s.die sl).token (enSignalToken f.entry) + enSignalCount f.entry) 255)) := by
    rw [← hx]
    split
    · exact tokens
    · rw [raised.tokens wcan, tokens, Die.token, tokens, Die.token]
  have kept : LeavesContent sl w x := by
    rw [← hx]
    split
    · exact ⟨⟨rfl, rfl, rfl, rfl⟩, rfl, rfl⟩
    · exact ⟨raised.stores, (raised.regs wcan).1, (raised.regs wcan).2⟩
  rw [State.die_setDie_same]
  refine ⟨⟨congrArg Clock.now all.clock, ?_, toks, rfl, fun k hk => ?_, all.pages⟩, ⟨kept.stores, ?_, ?_⟩⟩
  · rw [all.flight can]
    rfl
  · rw [State.die_setDie_other x _ (all.can can).2.2.2 hk]
    exact all.others can k hk
  · rw [State.die_setDie_same]
    exact kept.regs
  · rw [State.die_setDie_same]
    exact kept.marks

theorem sameStores_trans {s t u : State} (h : SameStores s t) (g : SameStores t u) : SameStores s u := by
  obtain ⟨tiles, pages, flash, pending⟩ := h
  obtain ⟨tiles', pages', flash', pending'⟩ := g
  exact ⟨tiles'.trans tiles, pages'.trans pages, flash'.trans flash, pending'.trans pending⟩

theorem vpoison_setVreg (d : Die) (r v : Nat) (p : Bool) : (d.setVreg r v p).vpoison r = p := by
  unfold Die.vpoison Die.setVreg
  rw [Sparse.get_put_same]
  cases p <;> rfl

end Sys2Proof.WorkLaws

namespace Sys2Proof.Claims

open Sys2Proof.Machine Sys2Proof.WorkLaws Sys2Proof.IssueLaws

/-- Settles O16: the effects run on the accounted state, and the entry leaves after them. -/
theorem completedEntryMakesItsWritesVisible : Obligations.CompletedEntryMakesItsWritesVisible := by
  intro s sl id f can find ready kind others sig n cold done
  refine ⟨entryCompleteStep_cold find ready others, fun warm => ?_⟩
  have finish {P : State → Prop} (works : ∀ v, Accounts (s.reach f.due) v → let w := f.effects.foldl (fun s e => s.applyEffect sl e) v
      Works sl v w ∧ (w.die sl).tokens = (v.die sl).tokens ∧ ∀ t, LeavesContent sl w t → P t) : done P := by
    obtain ⟨v, r, eq⟩ := entryCompleteStep_warm can find ready kind others warm fun v r => (works v r).1
    obtain ⟨work, tokens, content⟩ := works v r
    have first : (v.die sl).tokens = (s.die sl).tokens := (Kept.fields (r.dies can sl)).2.1
    obtain ⟨⟨now, flight, toks, at', rest, pages⟩, left⟩ :=
      completed_leftFlight can sl id f ((Works.of_accounts sl.2 r).trans work) (tokens.trans first)
    exact ⟨_, eq, now, flight, toks, at', rest, pages, content _ left⟩
  have written {i : Nat} {tl : Tile} {v w : State} (r : Accounts (s.reach f.due) v) (h : WritesTile i tl v w) :
      Works sl v w ∧ (w.die sl).tokens = (v.die sl).tokens ∧ ∀ t, LeavesContent sl w t →
        t.tile i = tl ∧ (t.die sl).regs = (s.die sl).regs ∧ ∀ k, k ≠ i → t.tile k = s.tile k := by
    refine ⟨.of_writesTile sl.2 h, by rw [h.die], fun t left => ⟨?_, ?_, fun k hk => ?_⟩⟩
    · exact (tile_congr left.stores.1 i).trans h.tile_same
    · rw [left.regs, h.die]
      exact (Kept.fields (r.dies can sl)).2.2.1
    · exact ((tile_congr left.stores.1 k).trans (h.tile_other (r.can can) hk)).trans (tile_congr r.stores.1 k)
  have wrote (x : TileWrite) {i : Nat} {v : State} (r : Accounts (s.reach f.due) v) (place : s.place x.id = .mapped i x.cls)
      (loaded : s.unloaded [x.id] = []) (column : ∀ k, x.column = some k → k < 4) : WritesTile i x.tile v (v.write x) := by
    have pages : v.mem.pages = s.mem.pages := r.stores.2.1
    exact write_mapped ((place_congr pages x.id).trans place) ((unloaded_congr pages [x.id]).trans loaded) column
  refine ⟨fun none => ?_, fun r v p one => ?_, fun d cls b w tl i one source place loaded => ?_, fun d width tl i one place loaded => ?_⟩
  · refine finish fun v r => ?_
    rw [none]
    exact ⟨.refl .., rfl, fun t left => ⟨sameStores_trans r.stores left.stores, left.regs.trans (Kept.fields (r.dies can sl)).2.2.1⟩⟩
  · refine finish fun u r' => ?_
    rw [one]
    have die : ((u.setDie sl ((u.die sl).setVreg r v p)).die sl) = (u.die sl).setVreg r v p := State.die_setDie_same ..
    refine ⟨Works.setDie u rfl, (congrArg Die.tokens die :), fun t left => ⟨?_, ?_, sameStores_trans r'.stores left.stores⟩⟩
    · rw [Die.vreg, left.regs]
      exact (congrArg (Die.vreg · r) die).trans (Sparse.get_put_same ..)
    · rw [Die.vpoison, left.marks]
      exact (congrArg (Die.vpoison · r) die).trans (vpoison_setVreg ..)
  · refine finish fun v r => ?_
    rw [one]
    exact written r (wrote { acct := sl, id := d, cls := cls, ovf := b, column := some w.source, tile := tl } r place loaded fun k hk =>
      Option.some.inj hk ▸ source)
  · refine finish fun v r => ?_
    rw [one]
    refine written r (wrote { acct := sl, id := d, cls := Nat.log2 width, ovf := 3, column := some (bits tl.status 6 2), tile := tl } r place
      loaded fun k hk => Option.some.inj hk ▸ ?_)
    exact Nat.mod_lt _ (by decide)

end Sys2Proof.Claims

/-! PROOF. Raises that cross the fabric (R30, R32). -/

namespace Sys2Proof.WorkLaws

open Sys2Proof.Machine Sys2Proof.Claims Sys2Proof.RecordLaws

/-- What the application of a raise leaves, whatever its step: the memory, the fabric, and the raises of other steps that wait. -/
structure AppliesRaise (r : HeldRaise) (s t : State) : Prop where
  works : Works r.slot s t
  stores : SameStores s t
  fabric : t.seq.fabric = s.seq.fabric
  held : t.seq.heldRaises = if s.step < r.step then s.seq.heldRaises ++ [r] else s.seq.heldRaises
  tokens : Canonical s → (t.die r.slot).tokens = if r.step = s.step then
    (s.die r.slot).tokens.set r.token (min ((s.die r.slot).token r.token + r.count) 255) else (s.die r.slot).tokens
  saturates : Canonical s → r.step = s.step → 255 < (s.die r.slot).token r.token + r.count →
    t.reg P.tokenSaturations r.slot = min (s.reg P.tokenSaturations r.slot + 1) (2 ^ 32 - 1)
  stale : r.step < s.step → t.reg P.staleRaises r.slot = min (s.reg P.staleRaises r.slot + 1) (2 ^ 32 - 1)

theorem appliesRaise {r : HeldRaise} (hsl : r.slot < 64) (s : State) : AppliesRaise r s (s.applyRaise r) := by
  unfold State.applyRaise
  split
  case isTrue now =>
    have raised := raises_addToken hsl s r.token r.count
    refine ⟨raised.works, raised.stores, by rw [raised.seq], ?_, fun c => ?_, fun c _ => raised.saturates c, fun old => ?_⟩
    · rw [raised.seq, if_neg (by omega)]
    · rw [raised.tokens c, if_pos now]
    · omega
  case isFalse other =>
    split
    case isTrue later =>
      refine ⟨⟨id, rfl, rfl, rfl, fun _ => rfl, fun _ _ _ => kept_refl _, fun _ => rfl⟩, ⟨rfl, rfl, rfl, rfl⟩, rfl, ?_, fun _ => ?_,
        fun _ now => absurd now other, fun old => ?_⟩
      · rw [if_pos later]
      · rw [if_neg other]
        rfl
      · omega
    case isFalse notLater =>
      have counted : Records [P.staleRaises] s (s.bump32 P.staleRaises r.slot 1) := .bump32 (by decide) (by omega) s 1
      refine ⟨.of_records hsl (by decide) counted, counted.stores, rfl, ?_, fun _ => ?_, fun _ now => absurd now other, fun _ =>
        State.reg_bump_same ..⟩
      · rw [if_neg notLater]
        rfl
      · rw [if_neg other]
        rfl

/-- What the arrival of a raise of origin `o` leaves (Table 2-6): everything but the flight of the slot that it came from. -/
structure Arrives (o : Option (Nat × Nat)) (s t : State) : Prop where
  rest : t = { s with seq := { s.seq with dies := t.seq.dies } }
  others : Canonical s → ∀ k, o.map Prod.fst ≠ some k → t.die k = s.die k
  tokens : Canonical s → ∀ k, (t.die k).tokens = (s.die k).tokens
  origin : ∀ from' id, o = some (from', id) → ∀ f ∈ (s.die from').flight, f.id = id → f.kind = .remote →
    ∃ g ∈ (t.die from').flight, g.id = id ∧ g.ready = true ∧ g.effects = f.effects

theorem arrives_raiseArrived (o : Option (Nat × Nat)) (s : State) : Arrives o s (s.raiseArrived o) := by
  unfold State.raiseArrived
  split
  case h_1 => exact ⟨rfl, fun _ _ _ => rfl, fun _ _ => rfl, fun _ _ h => absurd h (by simp)⟩
  case h_2 sl id =>
    refine ⟨rfl, fun c k hk => ?_, fun c k => ?_, fun from' id' h f hf same remote => ?_⟩
    · exact State.die_setDie_other s _ c.2.2.2 fun here => hk (by rw [here]; rfl)
    · by_cases here : k = sl
      · rw [here, State.die_setDie_same]
      · rw [State.die_setDie_other s _ c.2.2.2 here]
    · obtain ⟨rfl, rfl⟩ := Prod.mk.inj (Option.some.inj h)
      refine ⟨{ f with ready := true, due := max f.due s.clock.now }, ?_, same, rfl, rfl⟩
      rw [State.die_setDie_same]
      exact List.mem_map.2 ⟨f, hf, if_pos ⟨same, remote⟩⟩

end Sys2Proof.WorkLaws

namespace Sys2Proof.Claims

open Sys2Proof.Machine Sys2Proof.WorkLaws

/-- Settles O18: the oldest raise leaves the fabric, is applied, and marks its origin. -/
theorem tokenRaiseSaturatesOrWaitsForItsStep : Obligations.TokenRaiseSaturatesOrWaitsForItsStep := by
  intro s sl k n step o t0 rest can r fabric
  let first : State := { s.reach t0 with seq := { s.seq with fabric := rest } }
  have run : exec (.remoteTokenRaise sl k n step) s = .next ((first.applyRaise r).raiseArrived o) := by
    refine congrArg Host.Outcome.next ?_
    unfold remoteRaiseStep
    simp only [fabric, List.find?_cons, removeFirst, r, beq_self_eq_true, Bool.and_self, if_true]
    rfl
  have applied : AppliesRaise r first (first.applyRaise r) := appliesRaise sl.2 first
  have arrived := arrives_raiseArrived o (first.applyRaise r)
  generalize first.applyRaise r = v at run applied arrived
  generalize v.raiseArrived o = t at run arrived
  have c : Canonical v := applied.works.can can
  have seq : t.seq = { v.seq with dies := t.seq.dies } := (congrArg State.seq arrived.rest :)
  have reg (p e : Nat) : t.reg p e = v.reg p e := State.reg_congr (congrArg State.params arrived.rest :) p e
  have flight (j : Nat) : (v.die j).flight = (s.die j).flight := by
    by_cases here : j = sl.val
    · rw [here]
      exact applied.works.flight can
    · exact (Kept.fields (applied.works.others can j here)).1
  refine ⟨t, run, ?_, ?_, ?_, fun j hj ho => ?_, fun ho => ?_, fun from' id ho f hf same remote => ?_, fun now => ⟨?_, ?_, fun full => ?_⟩,
    fun later => ⟨?_, ?_⟩, fun old => ⟨?_, ?_, ?_⟩⟩
  · rw [seq]
    exact applied.fabric
  · rw [arrived.rest]
    exact applied.stores
  · rw [arrived.rest]
    exact congrArg Clock.now applied.works.clock
  · rw [arrived.others c j ho]
    exact applied.works.others can j hj
  · rw [arrived.others c sl ho]
    exact flight sl
  · exact arrived.origin from' id ho f (flight from' ▸ hf) same remote
  · exact (arrived.tokens c sl).trans ((applied.tokens can).trans (if_pos now))
  · rw [seq]
    exact applied.held.trans (if_neg (Nat.not_lt.2 (Nat.le_of_eq now)))
  · exact (reg _ _).trans (applied.saturates can now full)
  · exact (arrived.tokens c sl).trans ((applied.tokens can).trans (if_neg (Nat.ne_of_gt later)))
  · rw [seq]
    exact applied.held.trans (if_pos later)
  · exact (arrived.tokens c sl).trans ((applied.tokens can).trans (if_neg (Nat.ne_of_lt old)))
  · rw [seq]
    exact applied.held.trans (if_neg (Nat.not_lt.2 (Nat.le_of_lt old)))
  · exact (reg _ _).trans (applied.stale old)

end Sys2Proof.Claims

/-! PROOF. The passing of ac while a head is kept from issue (R35, R288 to R290), and HEAD_DUE. -/

namespace Sys2Proof.PaceLaws

open Sys2Proof.Machine Sys2Proof.Claims Sys2Proof.IssueLaws Sys2Proof.WorkLaws

/-- What the buckets and the reserve of base die `b` hold together. -/
def funds (s : State) (b : Nat) : Nat := ((List.range 8).map fun i => s.bucket (8 * b + i)).sum + nth s.weir.reserves b 0

/-- How often the head of stream `st` of slot `k` was passed over. -/
def passes (s : State) (k st : Nat) : Nat := ((s.die k).stream st).passed

/-- Ac pass on base die `b` with no issue: with no refill its funds do not grow, and heads are passed over only. -/
structure Pauses (b : Nat) (s t : State) : Prop where
  waits : Waits b s t
  now : s.clock.now ≤ t.clock.now
  gears : t.weir.dieGears = s.weir.dieGears
  rates : t.weir.rates = s.weir.rates
  spends : (∀ g, nth s.weir.rates g 0 = 0) → funds t b ≤ funds s b
  passed : Canonical s → ∀ k st, st < 16 → passes s k st ≤ passes t k st

namespace Pauses

theorem refl (b : Nat) (s : State) : Pauses b s s := ⟨.refl b s, le_refl _, rfl, rfl, fun _ => le_refl _, fun _ _ _ _ => le_refl _⟩

theorem trans {b : Nat} {s t u : State} (h : Pauses b s t) (g : Pauses b t u) : Pauses b s u where
  waits := h.waits.trans g.waits
  now := h.now.trans g.now
  gears := g.gears.trans h.gears
  rates := g.rates.trans h.rates
  spends zero := (g.spends (h.rates ▸ zero)).trans (h.spends zero)
  passed c k st hst := (h.passed c k st hst).trans (g.passed (h.waits.can c) k st hst)

theorem reach (b : Nat) (s : State) (n : Nat) : Pauses b s (s.reach n) :=
  ⟨.idle rfl, le_max_left .., rfl, rfl, fun _ => le_refl _, fun _ _ _ _ => le_refl _⟩

theorem foldl {b : Nat} {α : Type} {f : State → α → State} {xs : List α} (hf : ∀ x ∈ xs, ∀ v, Pauses b v (f v x)) (s : State) :
    Pauses b s (xs.foldl f s) := by
  induction xs generalizing s with
  | nil => exact refl b s
  | cons x xs ih => exact (hf x (List.mem_cons_self ..) s).trans (ih (fun y hy => hf y (List.mem_cons_of_mem _ hy)) _)

end Pauses

/-! One ac passes on a slot. -/

/-- The streams of a die once the ready heads are passed over. -/
def passHeads (p : Nat → Bool) (xs : List Stream) : List Stream :=
  ((List.range 16).zip xs).map fun (k, x) => if p k then { x with passed := x.passed + 1 } else x

theorem nth_passHeads (p : Nat → Bool) (xs : List Stream) {st : Nat} (hst : st < 16) :
    nth (passHeads p xs) st {} = if p st ∧ st < xs.length then { nth xs st {} with passed := (nth xs st {}).passed + 1 } else nth xs st {} := by
  unfold passHeads
  simp only [nth, List.getD_eq_getElem?_getD, List.getElem?_map]
  by_cases inside : st < xs.length
  · have : ((List.range 16).zip xs)[st]? = some (st, xs[st]) := by
      rw [List.getElem?_zip_eq_some]; simp [hst, inside]
    rw [this]
    by_cases ready : p st <;> simp [inside, ready]
  · have : ((List.range 16).zip xs)[st]? = none := by simp; omega
    rw [this]
    simp [inside]

/-- The state once ac `c` has passed over the ready heads of slot `sl`. -/
def headsPassed (s : State) (sl c : Nat) : State :=
  s.setDie sl { s.die sl with streams := passHeads (fun k => s.readyAt sl k c) (s.die sl).streams }

theorem passSlot_eq (s : State) (sl c : Nat) : s.passSlot sl c =
    if ¬ acOpen (s.gear sl) c ∨ (s.die sl).lastIssue.any (fun t => t / acRoot == c) then s
    else if s.budgetHolds sl c then
      { headsPassed s sl c with weir := { s.weir with waited := true } }.bump64 P.budgetWaits sl 1
    else headsPassed s sl c := rfl

theorem passes_headsPassed {s : State} (can : Canonical s) (sl c k : Nat) {st : Nat} (hst : st < 16) : passes (headsPassed s sl c) k st =
    if k = sl ∧ s.readyAt sl st c = true ∧ st < (s.die sl).streams.length then passes s k st + 1 else passes s k st := by
  unfold passes headsPassed
  by_cases here : k = sl
  · rw [here, State.die_setDie_same]
    refine (congrArg Stream.passed (nth_passHeads (fun k => s.readyAt sl k c) (s.die sl).streams hst)).trans ?_
    by_cases ready : s.readyAt sl st c = true ∧ st < (s.die sl).streams.length
    · rw [if_pos ready, if_pos ⟨rfl, ready⟩]
      rfl
    · rw [if_neg ready, if_neg (fun h => ready h.2)]
      rfl
  · rw [State.die_setDie_other s _ can.2.2.2 here, if_neg (fun h => here h.1)]

theorem passes_headsPassed_ge {s : State} (can : Canonical s) (sl c k : Nat) {st : Nat} (hst : st < 16) :
    passes s k st ≤ passes (headsPassed s sl c) k st := by
  rw [passes_headsPassed can sl c k hst]
  split
  · exact Nat.le_succ _
  · exact le_refl _

theorem pauses_passSlot {b sl : Nat} (hb : sl / 8 = b) (hsl : sl < 64) (c : Nat) (s : State) : Pauses b s (s.passSlot sl c) := by
  have waits := Waits.passSlot hb hsl c s
  rw [passSlot_eq] at waits ⊢
  split
  · exact Pauses.refl b s
  · rename_i running
    rw [if_neg running] at waits
    split
    · rename_i held
      rw [if_pos held] at waits
      exact ⟨waits, le_refl _, rfl, rfl, fun _ => le_refl _, fun can k st hst => passes_headsPassed_ge can sl c k hst⟩
    · rename_i free
      rw [if_neg free] at waits
      exact ⟨waits, le_refl _, rfl, rfl, fun _ => le_refl _, fun can k st hst => passes_headsPassed_ge can sl c k hst⟩

/-! The refill of a base die whose gears give none. -/

/-- What a slot's bucket holds after a refill, and what it passes on. -/
def refilledSlot (s : State) (b n k : Nat) : Nat × Nat :=
  if s.absent (8 * b + k) then (nth s.weir.buckets (8 * b + k) 0, 0)
  else
    let v := nth s.weir.buckets (8 * b + k) 0 + n * nth s.weir.rates (s.gear (8 * b + k)) 0
    (min v (s.weir.depth * 2 ^ 16), v - s.weir.depth * 2 ^ 16)

theorem refilledSlot_sum {s : State} (zero : ∀ g, nth s.weir.rates g 0 = 0) (b n k : Nat) :
    (refilledSlot s b n k).1 + (refilledSlot s b n k).2 = s.bucket (8 * b + k) := by
  unfold refilledSlot State.bucket
  split
  · rfl
  · dsimp only
    rw [zero]
    omega

theorem nth_eq_zero {ys : List Nat} (h : ∀ y ∈ ys, y = 0) (j : Nat) : nth ys j 0 = 0 := by
  unfold nth
  rw [List.getD_eq_getElem?_getD]
  cases hj : ys[j]? with
  | none => rfl
  | some y => exact h y (List.mem_of_getElem? hj)

/-- A list with the part from `m` on replaced reads there as the part does; beyond its end both read 0. -/
theorem nth_splice {xs ys : List Nat} {m k : Nat} (hk : k < ys.length) (inside : m ≤ xs.length ∨ ∀ y ∈ ys, y = 0) :
    nth (xs.take m ++ ys ++ xs.drop (m + ys.length)) (m + k) 0 = nth ys k 0 := by
  by_cases long : m ≤ xs.length
  · have first : (xs.take m).length = m := by simp [long]
    unfold nth
    rw [List.getD_append _ _ _ _ (by simp [first, hk]), List.getD_append_right _ _ _ _ (by omega), first, Nat.add_sub_cancel_left]
  · have zero := inside.resolve_left long
    rw [nth_eq_zero zero, List.take_of_length_le (by omega), List.drop_eq_nil_of_le (by omega), List.append_nil]
    unfold nth
    rw [List.getD_append_right _ _ _ _ (by omega)]
    exact nth_eq_zero zero _

theorem nth_set_le (xs : List Nat) (b v : Nat) : nth (xs.set b v) b 0 ≤ max (nth xs b 0) v := by
  unfold nth
  rw [List.getD_eq_getElem?_getD, List.getD_eq_getElem?_getD, List.getElem?_set_self']
  by_cases inside : b < xs.length
  · simp [inside]
  · simp [List.getElem?_eq_none (Nat.le_of_not_lt inside)]

theorem refillTo_eq (s : State) (b t : Nat) :
    let n := t - nth s.weir.refilled b 0
    let fill := (List.range 8).map (refilledSlot s b n)
    s.refillTo b t = { s with weir := { s.weir with
      buckets := s.weir.buckets.take (8 * b) ++ fill.map Prod.fst ++ s.weir.buckets.drop (8 * b + 8)
      reserves := s.weir.reserves.set b (min (nth s.weir.reserves b 0 + (fill.map Prod.snd).foldl (· + ·) 0) (8 * (s.weir.depth * 2 ^ 16)))
      refilled := setAt 0 s.weir.refilled b t } } := by
  intros
  rfl

theorem funds_refillTo {s : State} (zero : ∀ g, nth s.weir.rates g 0 = 0) (b t : Nat) : funds (s.refillTo b t) b ≤ funds s b := by
  generalize hn : t - nth s.weir.refilled b 0 = n
  have eq := refillTo_eq s b t
  rw [hn] at eq
  have bucket (k : Nat) (hk : k < 8) : (s.refillTo b t).bucket (8 * b + k) = (refilledSlot s b n k).1 := by
    have read := nth_splice (xs := s.weir.buckets) (ys := ((List.range 8).map (refilledSlot s b n)).map Prod.fst) (m := 8 * b) (k := k)
      (by simpa using hk) ?_
    · rw [eq]
      refine read.trans ?_
      simp [nth, hk]
    · by_cases long : 8 * b ≤ s.weir.buckets.length
      · exact .inl long
      · refine .inr fun y hy => ?_
        simp only [List.map_map, List.mem_map, List.mem_range, Function.comp] at hy
        obtain ⟨j, -, rfl⟩ := hy
        have none : s.bucket (8 * b + j) = 0 := by
          simp [State.bucket, nth, List.getElem?_eq_none (show s.weir.buckets.length ≤ 8 * b + j by omega)]
        have := refilledSlot_sum zero b n j
        omega
  have reserve : nth (s.refillTo b t).weir.reserves b 0 ≤ nth s.weir.reserves b 0 + ((List.range 8).map fun k => (refilledSlot s b n k).2).sum := by
    rw [eq]
    refine (nth_set_le _ b _).trans ((max_le (Nat.le_add_right ..) (min_le_left ..)).trans ?_)
    rw [← List.sum_eq_foldl, List.map_map]
    rfl
  have buckets : ((List.range 8).map fun i => (s.refillTo b t).bucket (8 * b + i)) = (List.range 8).map fun k => (refilledSlot s b n k).1 :=
    List.map_congr_left fun k hk => bucket k (List.mem_range.1 hk)
  have split : ((List.range 8).map fun i => s.bucket (8 * b + i)).sum =
      ((List.range 8).map fun k => (refilledSlot s b n k).1).sum + ((List.range 8).map fun k => (refilledSlot s b n k).2).sum := by
    rw [← List.sum_map_add]
    exact congrArg List.sum (List.map_congr_left fun k _ => (refilledSlot_sum zero b n k).symm)
  unfold funds
  rw [buckets]
  omega

theorem pauses_refillTo (s : State) (b t : Nat) : Pauses b s (s.refillTo b t) :=
  ⟨.idle rfl, le_refl _, rfl, rfl, fun zero => funds_refillTo zero b t, fun _ _ _ _ => le_refl _⟩

theorem pauses_passBase {b : Nat} (hb : b < 8) (s : State) : Pauses b s (s.passBase b) := by
  unfold State.passBase
  refine Pauses.trans (Pauses.foldl (fun k hk v => ?_) s) (pauses_refillTo _ b _)
  have := List.mem_range.1 hk
  exact pauses_passSlot (by omega) (by omega) _ v

theorem pauses_passAcs {b : Nat} (hb : b < 8) (n : Nat) (s : State) : Pauses b s (State.passAcs b n s) := by
  induction n generalizing s with
  | zero => exact .refl b s
  | succ n ih =>
    unfold State.passAcs
    split
    · exact (pauses_passBase hb s).trans (ih _)
    · exact .refl b s

theorem pauses_catchUp {b : Nat} (hb : b < 8) (s : State) : Pauses b s (s.catchUp b) :=
  (pauses_passAcs hb _ s).trans (pauses_refillTo _ b _)

theorem pauses_nextAc {sl : Nat} (hsl : sl < 64) (s : State) : Pauses (sl / 8) s (s.nextAc sl) :=
  (Pauses.reach _ s _).trans (pauses_catchUp (by omega) _)

theorem pauses_atAc {sl : Nat} (hsl : sl < 64) (s : State) : Pauses (sl / 8) s (s.atAc sl) :=
  (Pauses.reach _ s _).trans (pauses_catchUp (by omega) _)

theorem pauses_awaitDue {sl : Nat} (hsl : sl < 64) (st n : Nat) (s : State) : Pauses (sl / 8) s (State.awaitDue sl st n s) := by
  induction n generalizing s with
  | zero => exact .refl _ s
  | succ n ih =>
    unfold State.awaitDue
    split
    · exact .refl _ s
    · exact (pauses_nextAc hsl s).trans (ih _)

end Sys2Proof.PaceLaws

/-! PROOF. Heads while ac pass (R28, R29, R31, R33, R35), and HEAD_DUE. -/

namespace Sys2Proof.PaceLaws

open Sys2Proof.Machine Sys2Proof.Claims Sys2Proof.IssueLaws Sys2Proof.WorkLaws

section

variable {b : Nat} {s t : State} (can : Canonical s) (waits : Waits b s t) {sl st : Nat} (hsl : sl < 64) (hst : st < 16)

include waits

theorem seq_waits : t.seq = { s.seq with dies := t.seq.dies } := (congrArg State.seq waits.rest :)

include can

theorem die_waits (k : Nat) : t.die k = { s.die k with streams := (t.die k).streams } := (waits.dies can k).1

theorem absent_waits (hsl : sl < 64) : t.absent sl = s.absent sl :=
  absent_congr (waits.regs can _ 0 (by decide) (slotMap_not_mem (by decide) hsl))

include hsl hst

theorem headEntry_waits : t.headEntry sl st = s.headEntry sl st := by
  unfold State.headEntry
  rw [(waits.dies can sl).2 st hst, seq_waits waits, absent_waits can waits hsl]

omit hsl in
theorem footprint_waits (e : Nat) : t.footprintOf (t.die sl) ((t.die sl).stream st) e = s.footprintOf (s.die sl) ((s.die sl).stream st) e := by
  have size : t.groupSize (enM e 2 12) = s.groupSize (enM e 2 12) :=
    congrArg (bits · 0 16) (waits.regs can P.groupTable _ (by simp only [enM, bits]; omega) (by decide))
  unfold State.footprintOf
  rw [(waits.dies can sl).2 st hst, die_waits can waits sl, size]
  rfl

theorem collision_waits : t.collision sl st = s.collision sl st := by
  unfold State.collision
  dsimp only
  rw [headEntry_waits can waits hsl hst]
  split
  · rfl
  · rw [footprint_waits can waits hst, die_waits can waits sl]
    rfl

omit hsl in
theorem nearlyReady_waits (e : Nat) :
    nearlyReady t (t.die sl) st ((t.die sl).stream st) e = nearlyReady s (s.die sl) st ((s.die sl).stream st) e := by
  unfold nearlyReady
  rw [footprint_waits can waits hst, die_waits can waits sl]
  rfl

theorem clearAt_waits (c : Nat) : t.clearAt sl st c = s.clearAt sl st c := by
  unfold State.clearAt
  dsimp only
  rw [headEntry_waits can waits hsl hst]
  split
  · rfl
  · rw [nearlyReady_waits can waits hst, (waits.dies can sl).2 st hst, die_waits can waits sl]
    rfl

theorem readyAt_waits (c : Nat) : t.readyAt sl st c = s.readyAt sl st c := by
  rw [State.readyAt, clearAt_waits can waits hsl hst, collision_waits can waits hsl hst, State.readyAt]

theorem charge_waits : t.charge sl st = s.charge sl st := by
  rw [State.charge, headEntry_waits can waits hsl hst, State.charge]

end

/-! Readiness lasts. -/

theorem visible_mono (d : Die) (k : Nat) {c c' : Nat} (h : c ≤ c') : d.visible k c ≤ d.visible k c' := by
  unfold Die.visible
  refine Nat.sub_le_sub_left ?_ _
  rw [← List.sum_eq_foldl, ← List.sum_eq_foldl]
  refine List.Sublist.sum_le_sum (.map _ ?_) fun _ _ => Nat.zero_le _
  refine List.monotone_filter_right _ fun r hr => ?_
  simp only [Bool.and_eq_true, decide_eq_true_eq] at hr ⊢
  exact ⟨hr.1, h.trans hr.2⟩

theorem clearAt_mono {s : State} {sl st c c' : Nat} (h : c ≤ c') (ready : s.clearAt sl st c = true) : s.clearAt sl st c' = true := by
  unfold State.clearAt at ready ⊢
  dsimp only at ready ⊢
  split at ready
  · exact ready
  · rename_i e _
    simp only [Bool.and_eq_true, Bool.not_eq_true', Bool.and_eq_false_iff, decide_eq_true_eq, decide_eq_false_iff_not] at ready ⊢
    obtain ⟨⟨⟨near, waits⟩, unit⟩, held⟩ := ready
    refine ⟨⟨⟨near, ?_⟩, unit.trans (Nat.mul_le_mul_left _ h)⟩, held.imp_right fun done => by omega⟩
    refine List.all_eq_true.2 fun k hk => ?_
    have first := of_decide_eq_true (List.all_eq_true.1 waits k hk)
    exact decide_eq_true (first.trans (visible_mono _ k h))

theorem readyAt_mono {s : State} {sl st c c' : Nat} (h : c ≤ c') (ready : s.readyAt sl st c = true) : s.readyAt sl st c' = true := by
  unfold State.readyAt at ready ⊢
  rw [Bool.and_eq_true] at ready ⊢
  exact ⟨clearAt_mono h ready.1, ready.2⟩

theorem headEntry_of_clearAt {s : State} {sl st c : Nat} (ready : s.clearAt sl st c = true) :
    ∃ e, s.headEntry sl st = some e ∧ nearlyReady s (s.die sl) st ((s.die sl).stream st) e = true := by
  unfold State.clearAt at ready
  dsimp only at ready
  split at ready
  · exact absurd ready (by decide)
  · rename_i e he
    simp only [Bool.and_eq_true] at ready
    exact ⟨e, he, ready.1.1.1⟩

/-- A stream with a head stands among its die's streams. -/
theorem stream_of_headEntry {s : State} {sl st e : Nat} (h : s.headEntry sl st = some e) : st < (s.die sl).streams.length := by
  by_contra outside
  have none : (s.die sl).stream st = {} := by
    unfold Die.stream nth
    rw [List.getD_eq_getElem?_getD, List.getElem?_eq_none (Nat.le_of_not_lt outside)]
    rfl
  unfold State.headEntry at h
  rw [none] at h
  split at h
  · rw [if_neg (fun c => c.2.1 rfl)] at h
    cases h
  · cases h

/-! A slot that is kept from every issue. -/

theorem kept_pauses {sl : Nat} (hsl : sl < 64) {s t : State} (can : Canonical s) (p : Pauses (sl / 8) s t) (kept : KeptFromIssue s sl) :
    KeptFromIssue t sl := by
  refine kept.imp (fun copy => ?_) fun ⟨zero, poor⟩ => ⟨p.rates ▸ zero, fun k hk some => ?_⟩
  · rw [seq_waits p.waits]
    exact copy
  · rw [headEntry_waits can p.waits hsl hk] at some
    rw [charge_waits can p.waits hsl hk]
    exact (p.spends zero).trans_lt (poor k hk some)

theorem bucket_le_funds (s : State) (sl : Nat) : s.bucket sl + nth s.weir.reserves (sl / 8) 0 ≤ funds s (sl / 8) := by
  have : s.bucket sl ∈ (List.range 8).map fun i => s.bucket (8 * (sl / 8) + i) :=
    List.mem_map.2 ⟨sl % 8, List.mem_range.2 (Nat.mod_lt _ (by decide)), by rw [Nat.div_add_mod]⟩
  exact Nat.add_le_add_right (List.le_sum_of_mem this) _

theorem reserveFor_le (s : State) (b c n : Nat) : s.reserveFor b c n ≤ nth s.weir.reserves b 0 := by
  induction n with
  | zero => exact le_refl _
  | succ n ih =>
    unfold State.reserveFor
    dsimp only
    split
    · exact ih
    · split
      · exact (Nat.sub_le ..).trans ih
      · exact ih

theorem pick_none {s : State} {sl v : Nat} {ready : Nat → Bool} (h : ∀ k, k < 16 → ready k = true → v < s.charge sl k) : s.pick sl v ready = none := by
  have dear : ∀ k ∈ (s.order sl).filter ready, ¬ s.charge sl k ≤ v := fun k hk => by
    obtain ⟨mem, ok⟩ := List.mem_filter.1 hk
    obtain ⟨j, -, rfl⟩ := List.mem_map.1 mem
    exact Nat.not_le.2 (h _ (Nat.mod_lt _ (by decide)) ok)
  unfold State.pick
  dsimp only
  split
  · rename_i k hk
    exact if_neg (dear k (List.mem_of_find?_eq_some hk))
  · exact List.find?_eq_none.2 fun k hk => by simpa using dear k hk

theorem selectAt_none {s : State} {sl : Nat} (kept : KeptFromIssue s sl) (c : Nat) : s.selectAt sl c = none := by
  unfold State.selectAt
  split
  · rename_i opened
    refine pick_none fun k hk ready => ?_
    rcases kept with copy | ⟨-, poor⟩
    · rw [State.slotOpen, copy] at opened
      simp at opened
    · obtain ⟨e, he, -⟩ := headEntry_of_clearAt (Bool.and_eq_true_iff.1 ready).1
      refine lt_of_le_of_lt ?_ (poor k hk (by rw [he]; rfl))
      exact (Nat.add_le_add_left (reserveFor_le ..) _).trans (bucket_le_funds s sl)
  · rfl

theorem headsWait_of_kept {s : State} {sl st c : Nat} (hst : st < 16) (ready : s.readyAt sl st c = true) (kept : KeptFromIssue s sl) :
    s.headsWait (sl / 8) = true := by
  obtain ⟨clear, free⟩ := Bool.and_eq_true_iff.1 ready
  obtain ⟨e, he, near⟩ := headEntry_of_clearAt clear
  have poor : (decide (s.bucket sl + nth s.weir.reserves (sl / 8) 0 < s.charge sl st) || s.seq.copying.any fun c => c.1 == sl) = true := by
    rcases kept with copy | ⟨-, poor⟩
    · rw [copy, Bool.or_true]
    · rw [decide_eq_true ((bucket_le_funds s sl).trans_lt (poor st hst (by rw [he]; rfl))), Bool.true_or]
  unfold State.headsWait
  refine List.any_eq_true.2 ⟨sl % 8, List.mem_range.2 (Nat.mod_lt _ (by decide)), List.any_eq_true.2 ⟨st, List.mem_range.2 hst, ?_⟩⟩
  rw [Nat.div_add_mod, he]
  dsimp only
  rw [near, free, poor]
  rfl

/-! The head is passed over in every ac that is open in all gears. -/

/-- The ac of the die's last issue. -/
def lastAc (d : Die) : Nat := (d.lastIssue.map (· / acRoot)).getD 0

theorem acOpen_mul16 (g : Nat) {c : Nat} (h : c % 16 = 0) : acOpen g c = true := by
  unfold acOpen gearMask
  rw [h]
  split <;> decide

theorem lastIssue_any {d : Die} {c : Nat} (h : c ≠ lastAc d) : (d.lastIssue.any fun t => t / acRoot == c) = false := by
  unfold lastAc at h
  cases hd : d.lastIssue with
  | none => rfl
  | some t =>
    rw [hd] at h
    exact beq_eq_false_iff_ne.2 (Ne.symm h)

section

variable {s : State} (can : Canonical s) {sl st : Nat} (hsl : sl < 64) (hst : st < 16)

include can hst

theorem passes_passSlot {c : Nat} (ready : s.readyAt sl st c = true) (open16 : c % 16 = 0) (other : c ≠ lastAc (s.die sl)) :
    passes s sl st + 1 ≤ passes (s.passSlot sl c) sl st := by
  obtain ⟨e, he, -⟩ := headEntry_of_clearAt (Bool.and_eq_true_iff.1 ready).1
  have passed : passes (headsPassed s sl c) sl st = passes s sl st + 1 := by
    rw [passes_headsPassed can sl c sl hst, if_pos ⟨rfl, ready, stream_of_headEntry he⟩]
  rw [passSlot_eq, if_neg (by rw [acOpen_mul16 _ open16, lastIssue_any other]; decide)]
  split <;> exact passed.ge

include hsl

theorem passes_foldl_passSlot {c : Nat} (ready : s.readyAt sl st c = true) (open16 : c % 16 = 0) (other : c ≠ lastAc (s.die sl)) {ks : List Nat}
    (small : ∀ k ∈ ks, k < 8) (here : sl % 8 ∈ ks) :
    passes s sl st + 1 ≤ passes (ks.foldl (fun s k => s.passSlot (8 * (sl / 8) + k) c) s) sl st := by
  induction ks generalizing s with
  | nil => cases here
  | cons k ks ih =>
    have k8 := small k (List.mem_cons_self ..)
    have first : Pauses (sl / 8) s (s.passSlot (8 * (sl / 8) + k) c) := pauses_passSlot (by omega) (by omega) c s
    have can' := first.waits.can can
    by_cases this : k = sl % 8
    · have slot : 8 * (sl / 8) + k = sl := by omega
      rw [List.foldl_cons]
      rw [slot] at can' ⊢
      refine (passes_passSlot can hst ready open16 other).trans (Pauses.passed (b := sl / 8) (Pauses.foldl (fun j hj v => ?_) _) can' sl st hst)
      have := small j (List.mem_cons_of_mem _ hj)
      exact pauses_passSlot (by omega) (by omega) c v
    · refine (Nat.succ_le_succ (first.passed can sl st hst)).trans (ih can' ?_ ?_ (fun j hj => small j (List.mem_cons_of_mem _ hj)) ?_)
      · rw [readyAt_waits can first.waits hsl hst, ready]
      · rw [die_waits can first.waits sl]
        exact other
      · exact (List.mem_cons.1 here).resolve_left (Ne.symm this)

theorem passes_passBase (ready : s.readyAt sl st (nth s.weir.refilled (sl / 8) 0) = true) (open16 : nth s.weir.refilled (sl / 8) 0 % 16 = 0)
    (other : nth s.weir.refilled (sl / 8) 0 ≠ lastAc (s.die sl)) : passes s sl st + 1 ≤ passes (s.passBase (sl / 8)) sl st :=
  passes_foldl_passSlot can hsl hst ready open16 other (fun _ => List.mem_range.1) (List.mem_range.2 (Nat.mod_lt _ (by decide)))

omit can hsl hst in
theorem catchUp_books (v : State) (b : Nat) : nth (v.catchUp b).weir.refilled b 0 = (v.catchUp b).ac ∧ (v.catchUp b).ac = v.ac := by
  have clock := v.catchUp_clock b
  have ac : (v.catchUp b).ac = v.ac := by rw [State.ac, clock, State.ac]
  exact ⟨nth_setAt_same .., ac⟩

omit can hsl hst in
theorem nextAc_ac (v : State) : (v.nextAc sl).ac = v.ac + 1 := by
  refine (catchUp_books _ _).2.trans ?_
  simp only [State.ac, State.reach, acRoot]
  omega

/-- The next ac passes over the head where this one is open in all gears and not that of the die's last issue. -/
theorem passes_nextAc (kept : KeptFromIssue s sl) (books : nth s.weir.refilled (sl / 8) 0 = s.ac) (ready : s.readyAt sl st s.ac = true)
    (open16 : s.ac % 16 = 0) (other : s.ac ≠ lastAc (s.die sl)) : passes s sl st + 1 ≤ passes (s.nextAc sl) sl st := by
  have reached := Pauses.reach (sl / 8) s (acRoot * (s.ac + 1))
  generalize hv : s.reach (acRoot * (s.ac + 1)) = v at reached
  have books' : nth v.weir.refilled (sl / 8) 0 = s.ac := by rw [← hv]; exact books
  have ready' : v.readyAt sl st s.ac = true := by rw [readyAt_waits can reached.waits hsl hst, ready]
  have can' := reached.waits.can can
  have one : v.ac - nth v.weir.refilled (sl / 8) 0 = 1 := by
    rw [books', ← hv]
    simp only [State.ac, State.reach, acRoot]
    omega
  have next : s.nextAc sl = (v.passBase (sl / 8)).refill (sl / 8) := by
    unfold State.nextAc State.catchUp
    rw [hv, one, State.passAcs, if_pos (headsWait_of_kept hst ready' (kept_pauses hsl can reached kept)), State.passAcs]
  rw [next]
  have based : passes v sl st + 1 ≤ passes (v.passBase (sl / 8)) sl st := by
    refine passes_passBase can' hsl hst ?_ ?_ ?_
    · rw [books', ready']
    · rw [books', open16]
    · rw [books', die_waits can reached.waits sl]
      exact other
  exact (Nat.succ_le_succ (reached.passed can sl st hst)).trans based

/-- Over `n` ac the head is passed over in every sixteenth, but for one at most, until it is due. -/
theorem passes_awaitDue (kept : KeptFromIssue s sl) (books : nth s.weir.refilled (sl / 8) 0 = s.ac) (ready : s.readyAt sl st s.ac = true) (n : Nat)
    (early : passes (State.awaitDue sl st n s) sl st < 16) :
    passes s sl st + ((s.ac + n + 15) / 16 - (s.ac + 15) / 16) ≤ passes (State.awaitDue sl st n s) sl st
      + if s.ac ≤ lastAc (s.die sl) ∧ lastAc (s.die sl) < s.ac + n then 1 else 0 := by
  induction n generalizing s with
  | zero =>
    unfold State.awaitDue
    omega
  | succ n ih =>
    unfold State.awaitDue at early ⊢
    by_cases stop : 16 ≤ ((s.die sl).stream st).passed ∨ (s.selectAt sl s.ac).isSome = true
    · rw [if_pos stop] at early
      rcases stop with due | issues
      · exact absurd early (Nat.not_lt.2 due)
      · rw [selectAt_none kept] at issues
        cases issues
    · rw [if_neg stop] at early ⊢
      have p := pauses_nextAc hsl s
      have can' := p.waits.can can
      have ac : (s.nextAc sl).ac = s.ac + 1 := nextAc_ac s
      have last : lastAc ((s.nextAc sl).die sl) = lastAc (s.die sl) := by rw [die_waits can p.waits sl]; rfl
      have rest := ih can' (kept_pauses hsl can p kept) (catchUp_books _ _).1
        (by rw [ac, readyAt_waits can p.waits hsl hst]; exact readyAt_mono (Nat.le_succ _) ready) early
      rw [ac, last] at rest
      have grows := p.passed can sl st hst
      by_cases passing : s.ac % 16 = 0 ∧ s.ac ≠ lastAc (s.die sl)
      · have := passes_nextAc can hsl hst kept books ready passing.1 passing.2
        split at rest <;> split <;> omega
      · split at rest <;> split <;> omega

end

/-- HEAD_DUE of a head that is kept from issue: it is passed over at least 16 times. -/
theorem headDueStep_due {s : State} (can : Canonical s) {sl st : Nat} (hsl : sl < 64) (hst : st < 16)
    (ready : s.readyAt sl st (ceilDiv s.clock.now 4) = true) (kept : KeptFromIssue s sl) :
    Pauses (sl / 8) s (headDueStep s sl st) ∧ 16 ≤ (strm (headDueStep s sl st) sl st).passed := by
  obtain ⟨e, he, near⟩ := headEntry_of_clearAt (Bool.and_eq_true_iff.1 ready).1
  have first := pauses_atAc hsl s
  have ac : (s.atAc sl).ac = ceilDiv s.clock.now 4 := by
    refine (catchUp_books _ _).2.trans ?_
    simp only [State.ac, State.reach, acRoot, ceilDiv]
    omega
  generalize hn : unitTime (s.die sl) e / acRoot - s.ac + 272 = n
  have long : 272 ≤ n := by omega
  have due : 16 ≤ passes (State.awaitDue sl st n (s.atAc sl)) sl st := by
    by_contra early
    have count := passes_awaitDue (first.waits.can can) hsl hst (kept_pauses hsl can first kept) (catchUp_books _ _).1
      (by rw [ac, readyAt_waits can first.waits hsl hst, ready]) n (Nat.lt_of_not_le early)
    split at count <;> omega
  have run : headDueStep s sl st = State.awaitDue sl st n (s.atAc sl) := by
    unfold headDueStep
    simp only [he]
    rw [if_neg (not_not.2 near), hn]
    exact if_pos due
  rw [run]
  exact ⟨first.trans (pauses_awaitDue hsl st n _), due⟩

end Sys2Proof.PaceLaws

/-! PROOF. Stalls told and heads held by the guard (R42, R43, R46). -/

namespace Sys2Proof.PaceLaws

open Sys2Proof.Machine Sys2Proof.Claims Sys2Proof.IssueLaws Sys2Proof.WorkLaws Sys2Proof.RecordLaws Sys2Proof.StoreTileLaws

/-! Many registers written at once. -/

/-- Elements written one after another at keys that differ: each reads its own value, and no other key changes. -/
theorem get_foldl_put {α : Type} [DecidableEq α] {d : Nat → α} (key : Nat → Nat) (f : Nat → α) {m : Sparse α} (wf : Sparse.wf d m = true) (n : Nat)
    (distinct : ∀ i < n, ∀ j < n, key i = key j → i = j) :
    let r := (List.range n).foldl (fun m k => Sparse.put d m (key k) (f k)) m
    Sparse.wf d r = true ∧ (∀ k < n, Sparse.get d r (key k) = f k) ∧ ∀ q, (∀ k < n, key k ≠ q) → Sparse.get d r q = Sparse.get d m q := by
  induction n with
  | zero => exact ⟨wf, fun k hk => absurd hk (Nat.not_lt_zero k), fun _ _ => rfl⟩
  | succ n ih =>
    obtain ⟨wf', same, other⟩ := ih fun i hi j hj => distinct i (Nat.lt_succ_of_lt hi) j (Nat.lt_succ_of_lt hj)
    simp only [List.range_succ, List.foldl_append, List.foldl_cons, List.foldl_nil]
    refine ⟨Sparse.wf_put _ _ wf', fun k hk => ?_, fun q hq => ?_⟩
    · by_cases last : k = n
      · rw [last, Sparse.get_put_same]
      · rw [Sparse.get_put_other _ wf' fun h => last (distinct k hk n (Nat.lt_succ_self n) h)]
        exact same k (by omega)
    · rw [Sparse.get_put_other _ wf' (hq n (Nat.lt_succ_self n)).symm]
      exact other q fun k hk => hq k (Nat.lt_succ_of_lt hk)

/-- R46: what the snapshot objects hold of a slot once they were recorded. -/
theorem get_headStates {s : State} {sl : Nat} (hsl : sl < 64) {m : Sparse Nat} (wf : Sparse.wf paramDefault m = true) :
    let r := s.headStates sl m
    Sparse.wf paramDefault r = true
      ∧ (∀ k < 16, Sparse.get paramDefault r (pkey P.headState (16 * sl + k)) = if (strm s sl k).ended then 0xFFFFFFFF else (strm s sl k).head)
      ∧ (∀ k < 64, Sparse.get paramDefault r (pkey P.tokenCounts (64 * sl + k)) = (s.die sl).token k)
      ∧ ∀ p e, e < 2 ^ 24 → p ∉ [P.headState, P.tokenCounts] → Sparse.get paramDefault r (pkey p e) = Sparse.get paramDefault m (pkey p e) := by
  obtain ⟨wf1, heads, other1⟩ := get_foldl_put (fun k => pkey P.headState (16 * sl + k))
    (fun k => if (strm s sl k).ended then 0xFFFFFFFF else (strm s sl k).head) wf 16 fun i _ j _ h => by
      simp only [pkey] at h
      omega
  obtain ⟨wf2, tokens, other2⟩ := get_foldl_put (fun k => pkey P.tokenCounts (64 * sl + k)) (fun k => (s.die sl).token k) wf1 64
    fun i _ j _ h => by
      simp only [pkey] at h
      omega
  refine ⟨wf2, fun k hk => ?_, tokens, fun p e he hp => ?_⟩
  · refine (other2 _ fun j hj => ?_).trans (heads k hk)
    exact pkey_ne (by omega) (by omega) (.inl (by decide))
  · simp only [List.mem_cons, List.not_mem_nil, or_false, not_or] at hp
    refine (other2 _ fun j hj => ?_).trans (other1 _ fun j hj => ?_)
    · exact pkey_ne he (by omega) (.inl (Ne.symm hp.2))
    · exact pkey_ne he (by omega) (.inl (Ne.symm hp.1))

theorem records_recordStall {sl : Nat} (hsl : sl < 64) (s : State) : Records [P.headState, P.tokenCounts] s (s.recordStall sl) := by
  have wf (w : Sparse.wf paramDefault s.params = true) := (get_headStates (s := s) hsl w).1
  have other (w : Sparse.wf paramDefault s.params = true) := (get_headStates (s := s) hsl w).2.2.2
  unfold State.recordStall
  generalize s.headStates sl = g at wf other
  exact ⟨rfl, wf, fun w p e he hp => other w p e he hp⟩

theorem reg_recordStall {s : State} {sl : Nat} (hsl : sl < 64) (wf : Sparse.wf paramDefault s.params = true) :
    (∀ k < 16, (s.recordStall sl).reg P.headState (16 * sl + k) = if (strm s sl k).ended then 0xFFFFFFFF else (strm s sl k).head)
      ∧ ∀ k < 64, (s.recordStall sl).reg P.tokenCounts (64 * sl + k) = (s.die sl).token k := by
  obtain ⟨-, heads, tokens, -⟩ := get_headStates (s := s) hsl wf
  unfold State.recordStall
  generalize s.headStates sl = g at heads tokens
  exact ⟨heads, tokens⟩

theorem kept_stallTold {d d' : Die} (h : Claims.Kept d d') : Claims.Kept { d with stallTold := true } { d' with stallTold := true } := by
  obtain ⟨rest, heads⟩ := h
  exact ⟨congrArg (fun x : Die => { x with stallTold := true }) rest, heads⟩

/-- The state once slot `sl` is marked as told. -/
def markedTold (s : State) (sl : Nat) : State :=
  let v := (s.account sl).reach (max (s.die sl).lastAct s.seq.openedAt + s.val P.stallLimit * 9000)
  v.setDie sl { v.die sl with stallTold := true }

theorem slotStallStep_eq {s : State} {sl : Nat} (limit : s.val P.stallLimit ≠ 0) (busy : s.slotBusy sl = true) (untold : (s.die sl).stallTold = false) :
    slotStallStep s sl = (((markedTold s sl).bump32 P.stalls sl 1).recordStall sl).raiseEvent 6 0x01 (srcSlot sl) 0 0 := by
  unfold slotStallStep
  dsimp only
  rw [if_neg]
  · rfl
  · rw [busy, untold]
    simp [limit]

/-! A head that the guard holds. -/

theorem pick_ready {s : State} {sl v k : Nat} {ready : Nat → Bool} (h : s.pick sl v ready = some k) : ready k = true := by
  have mem {j : Nat} (hj : j ∈ (s.order sl).filter ready) : ready j = true := (List.mem_filter.1 hj).2
  unfold State.pick at h
  dsimp only at h
  split at h
  · rename_i j hj
    split at h
    · cases h
      exact mem (List.mem_of_find?_eq_some hj)
    · cases h
  · exact mem (List.mem_of_find?_eq_some h)

theorem selectAt_of_collision {s : State} {sl st : Nat} (hit : (s.collision sl st).isSome = true) (c : Nat) : s.selectAt sl c ≠ some st := by
  intro h
  unfold State.selectAt at h
  split at h
  · have ready := pick_ready h
    rw [State.readyAt, Bool.and_eq_true, Option.isNone_iff_eq_none] at ready
    rw [ready.2] at hit
    cases hit
  · cases h

theorem hazardOf_lt {a b c d : List Res} {hz : Nat} {r : Res} (h : hazardOf a b c d = some (hz, r)) : hz < 4 := by
  unfold hazardOf at h
  split at h
  · cases h
    decide
  · split at h
    · cases h
      decide
    · obtain ⟨x, -, eq⟩ := Option.map_eq_some_iff.1 h
      cases eq
      decide

/-- What the guard finds is an entry in flight, with one of the three hazards. -/
theorem guardHazard_spec {d : Die} {st : Nat} {fp : List Res × List Res} {f : Flight} {hz : Nat} {r : Res}
    (h : guardHazard d st fp = some (f, hz, r)) : f ∈ d.flight ∧ hz < 4 := by
  unfold guardHazard at h
  obtain ⟨g, hg, eq⟩ := List.exists_of_findSome?_eq_some h
  obtain ⟨x, hx, eq⟩ := Option.map_eq_some_iff.1 eq
  cases eq
  exact ⟨(List.mem_filter.1 hg).1, hazardOf_lt hx⟩

theorem code_lt (r : Res) : r.code.1 < 4 := by
  cases r <;> simp [Res.code]

/-- R43: the guard record of a collision. -/
def collisionRecord (sl st : Nat) (f : Flight) (hz : Nat) (r : Res) (head step : Nat) : Nat :=
  sl + 2 ^ 6 * st + 2 ^ 10 * f.stream + 2 ^ 14 * hz + 2 ^ 16 * r.code.1 + 2 ^ 23
    + 2 ^ 24 * (r.code.2 % 2 ^ 40) + 2 ^ 64 * (head % 2 ^ 32) + 2 ^ 96 * (step % 2 ^ 32)

theorem collisionRecord_valid {sl st hz : Nat} {f : Flight} (r : Res) (head step : Nat) (hsl : sl < 64) (hst : st < 16) (hf : f.stream < 16)
    (hhz : hz < 4) : bit (collisionRecord sl st f hz r head step) 23 = true := by
  have hc := code_lt r
  unfold bit collisionRecord
  rw [Nat.testBit_eq_decide_div_mod_eq]
  refine decide_eq_true ?_
  generalize r.code.1 = a at hc
  generalize r.code.2 % 2 ^ 40 = b
  generalize head % 2 ^ 32 = c
  generalize step % 2 ^ 32 = d
  omega

/-- A head that is held and found so: the books of the guard alone. -/
structure HeldBack (sl st : Nat) (u t : State) : Prop where
  stores : SameStores u t
  clock : t.clock = u.clock
  others : Canonical u → ∀ k, k ≠ sl → t.die k = u.die k
  die : t.die sl = (u.die sl).setStream st { strm u sl st with held := true }
  first : Canonical u → (strm u sl st).held = false → t.reg P.guardCollisions sl = min (u.reg P.guardCollisions sl + 1) (2 ^ 64 - 1)
    ∧ bit (t.val (P.guardRecord + sl)) 23 = true

theorem recordCollision_again {u : State} {sl st : Nat} (held : (strm u sl st).held = true) (f : Flight) (hz : Nat) (r : Res) :
    u.recordCollision sl st f hz r = u := if_pos held

theorem heldBack_recordCollision {u : State} {sl st hz : Nat} {f : Flight} (hsl : sl < 64) (hst : st < 16) (hf : f.stream < 16) (hhz : hz < 4) (r : Res)
    (free : (strm u sl st).held = false) : HeldBack sl st u (u.recordCollision sl st f hz r) := by
  let v := u.setDie sl ((u.die sl).setStream st { strm u sl st with held := true })
  have counted : Records [P.guardCollisions] v (v.bump64 P.guardCollisions sl 1) := .bump64 (by decide) (by omega) v 1
  have record : P.guardRecord + sl ∉ [P.guardCollisions] := by
    simp only [List.mem_singleton, P.guardRecord, P.guardCollisions]
    omega
  have notEvent : P.guardRecord + sl ∉ eventRegs := by
    simp only [eventRegs, List.mem_cons, List.not_mem_nil, or_false, P.guardRecord, P.eventsRaised, P.eventsCoalesced, P.eventsLost, P.eventSeq]
    omega
  have unfolded : u.recordCollision sl st f hz r =
      let w := v.bump64 P.guardCollisions sl 1
      if bit (w.val (P.guardRecord + sl)) 23 then w
      else (w.setVal (P.guardRecord + sl) (collisionRecord sl st f hz r (strm u sl st).head w.step)).raiseEvent 7 0x01 (srcSlot sl) r.code.2 0 := by
    refine (if_neg (by rw [show ((u.die sl).stream st).held = false from free]; decide)).trans ?_
    rfl
  rw [unfolded]
  have collisions := StoreTileLaws.reg_bump64_same v P.guardCollisions sl 1
  generalize v.bump64 P.guardCollisions sl 1 = w at counted collisions
  have die (k : Nat) : w.die k = v.die k := counted.die k
  have here : v.die sl = (u.die sl).setStream st { strm u sl st with held := true } := State.die_setDie_same ..
  have others (can : Canonical u) (k : Nat) (hk : k ≠ sl) : v.die k = u.die k := State.die_setDie_other u _ can.2.2.2 hk
  dsimp only
  split
  case isTrue valid =>
    exact ⟨counted.stores, counted.clock, fun can k hk => (die k).trans (others can k hk), (die sl).trans here, fun _ _ => ⟨collisions, valid⟩⟩
  case isFalse invalid =>
    have set : Records [P.guardRecord + sl] w (w.setVal (P.guardRecord + sl) (collisionRecord sl st f hz r (strm u sl st).head w.step)) :=
      .setVal (List.mem_singleton.2 rfl) w _
    have value := State.val_setVal_same w (P.guardRecord + sl) (collisionRecord sl st f hz r (strm u sl st).head w.step)
    generalize w.setVal (P.guardRecord + sl) (collisionRecord sl st f hz r (strm u sl st).head w.step) = x at set value
    have raised : Records eventRegs x (x.raiseEvent 7 0x01 (srcSlot sl) r.code.2 0) := .raiseEvent (List.Subset.refl _) (by decide) x ..
    have all := sameStores_trans counted.stores (sameStores_trans set.stores raised.stores)
    refine ⟨all, raised.clock.trans (set.clock.trans counted.clock), fun can k hk => ?_, ?_, fun can _ => ?_⟩
    · rw [raised.die, set.die, die, others can k hk]
    · rw [raised.die, set.die, die, here]
    · have vcan : Canonical v := ⟨can.1, can.2.1, can.2.2.1, Sparse.wf_put _ _ can.2.2.2⟩
      have wcan := counted.can vcan
      have xcan := set.can wcan
      refine ⟨?_, ?_⟩
      · have apart : P.guardCollisions ∉ [P.guardRecord + sl] := fun h => record (by rw [← List.mem_singleton.1 h]; exact List.mem_singleton.2 rfl)
        rw [raised.reg xcan (by decide) (by omega), set.reg wcan apart (by omega), collisions]
        rfl
      · rw [raised.val xcan notEvent, value]
        exact collisionRecord_valid r _ _ hsl hst hf hhz

end Sys2Proof.PaceLaws

namespace Sys2Proof.Claims

open Sys2Proof.Machine Sys2Proof.PaceLaws Sys2Proof.IssueLaws Sys2Proof.WorkLaws Sys2Proof.RecordLaws

/-- Settles O19: the ac that pass until a head is due, the told stall, and the collision that the guard records. -/
theorem headsAreHeldPacedAndStallsTold : Obligations.HeadsAreHeldPacedAndStallsTold := by
  refine ⟨⟨?_, ?_⟩, ?_⟩
  · intro s sl st can ready kept
    obtain ⟨p, due⟩ := headDueStep_due can sl.2 st.2 ready kept
    refine ⟨_, rfl, due, (p.waits.dies can sl).2 st st.2, (Frame.waits (sl := sl) p.waits).stores, p.now, p.waits.regs can, ?_, ?_, fun k _ =>
      kept_of_passed (p.waits.dies can k)⟩
    · rw [(p.waits.dies can sl).1]
    · rw [(p.waits.dies can sl).1]
  · intro s sl can limit busy untold
    refine ⟨_, congrArg Host.Outcome.next (slotStallStep_eq limit busy untold), ?_⟩
    have accounted := Accounts.account sl.2 s
    have mcan : Canonical (markedTold s sl) := by
      obtain ⟨params, tiles, pages, dies⟩ := accounted.can can
      exact ⟨params, tiles, pages, Sparse.wf_put _ _ dies⟩
    have mdie : (markedTold s sl).die sl = { (s.account sl).die sl with stallTold := true } := State.die_setDie_same ..
    have mreg {p e : Nat} (hp : p ∉ acRegs) (he : e < 2 ^ 24) : (markedTold s sl).reg p e = s.reg p e := accounted.reg can hp he
    have mdies (k : Nat) (hk : k ≠ sl) : (markedTold s sl).die k = (s.account sl).die k :=
      State.die_setDie_other _ _ (accounted.can can).2.2.2 hk
    have mstores : SameStores s (markedTold s sl) := accounted.stores
    have mclock : (markedTold s sl).clock.now = max s.clock.now (max (s.die sl).lastAct s.seq.openedAt + s.val P.stallLimit * 9000) := by
      rw [← accounted.clock]
      rfl
    generalize markedTold s sl = m at mcan mdie mreg mdies mstores mclock
    have counted : Records [P.stalls] m (m.bump32 P.stalls sl 1) := .bump32 (by decide) (by omega) m 1
    have stalls : (m.bump32 P.stalls sl 1).reg P.stalls sl = min (m.reg P.stalls sl + 1) (2 ^ 32 - 1) := State.reg_bump_same ..
    generalize m.bump32 P.stalls sl 1 = x at counted stalls
    have xcan := counted.can mcan
    have recorded := records_recordStall sl.2 x
    obtain ⟨heads, tokens⟩ := reg_recordStall (s := x) sl.2 xcan.1
    generalize x.recordStall sl = y at recorded heads tokens
    have ycan := recorded.can xcan
    have told := EventLaws.reg_raiseEvent_eventsRaised (s := y) ycan.1 (cls := 6) (by decide) 0x01 (srcSlot sl) 0 0
    have raised : Records eventRegs y (y.raiseEvent 6 0x01 (srcSlot sl) 0 0) := .raiseEvent (List.Subset.refl _) (by decide) y ..
    generalize y.raiseEvent 6 0x01 (srcSlot sl) 0 0 = t at told raised
    have die (k : Nat) : t.die k = m.die k := by rw [raised.die, recorded.die, counted.die]
    have kept := accounted.dies can sl
    have xdie : x.die sl = { (s.account sl).die sl with stallTold := true } := (counted.die sl).trans mdie
    refine ⟨?_, sameStores_trans mstores (sameStores_trans counted.stores (sameStores_trans recorded.stores raised.stores)), ?_, ?_, ?_,
      fun k hk => ?_, fun k hk => ?_, ?_, fun k hk => ?_⟩
    · rw [die, mdie]
    · rw [raised.clock, recorded.clock, counted.clock, mclock]
    · rw [raised.reg ycan (by decide) (by omega), recorded.reg xcan (by decide) (by omega), stalls, mreg (by decide) (by omega)]
    · rw [told, recorded.reg xcan (by decide) (by decide), counted.reg mcan (by decide) (by decide), mreg (by decide) (by decide)]
      rfl
    · have stream : strm x sl k = { strm s sl k with passed := (strm x sl k).passed } := by
        rw [strm, xdie]
        exact kept.2 k hk
      rw [raised.reg ycan (by decide) (by omega), heads k hk, stream]
    · rw [raised.reg ycan (by decide) (by omega), tokens k hk, Die.token, xdie]
      exact congrArg (nth · k 0) (Kept.fields kept).2.1
    · rw [die, mdie]
      exact kept_stallTold kept
    · rw [die, mdies k hk]
      exact accounted.dies can k
  · intro s u c sl st ok e can hsl hst hc he hok near hu would streams
    have waits : Waits (sl / 8) s u := hu ▸ (Waits.atAc hsl s).trans (Waits.seek hsl ..)
    have hit : (u.collision sl st).isSome = true := by
      rw [State.wouldIssue, Bool.and_eq_true, Bool.and_eq_true] at would
      exact would.1.2
    obtain ⟨⟨f, hz, r⟩, collides⟩ := Option.isSome_iff_exists.1 hit
    have run : exec c s = .next (u.recordCollision sl st f hz r) := by
      rw [TokenLaws.exec_eq_tryIssue hc]
      unfold State.tryIssue
      simp only [he]
      rw [if_neg (by rw [hok, show nearlyReady s (s.die sl) st ((s.die sl).stream st) e = true from near]; decide), ← hu,
        if_neg (selectAt_of_collision hit _), if_pos would, collides]
    have flight : (u.die sl).flight = (s.die sl).flight := by rw [(waits.dies can sl).1]
    have tokens : (u.die sl).tokens = (s.die sl).tokens := by rw [(waits.dies can sl).1]
    have held : (strm u sl st).held = (strm s sl st).held := by rw [strm, (waits.dies can sl).2 st hst]; rfl
    have found : f ∈ (u.die sl).flight ∧ hz < 4 := by
      unfold State.collision at collides
      dsimp only at collides
      split at collides
      · cases collides
      · exact guardHazard_spec collides
    have stores : SameStores s u := (Frame.waits (sl := sl) waits).stores
    have dies (k : Nat) : Claims.Kept (s.die k) (u.die k) := kept_of_passed (waits.dies can k)
    refine ⟨_, run, ?_⟩
    cases again : (strm u sl st).held with
    | true =>
      rw [recordCollision_again again]
      refine ⟨stores, flight, tokens, ?_, rfl, fun k _ => dies k, fun free => ?_, fun _ => rfl⟩
      · rw [← again]
      · rw [← held, again] at free
        cases free
    | false =>
      have back := heldBack_recordCollision hsl hst (streams f (flight ▸ found.1)) found.2 r again
      have ucan := waits.can can
      obtain ⟨collisions, valid⟩ := back.first ucan again
      refine ⟨sameStores_trans stores back.stores, ?_, ?_, ?_, back.clock, fun k hk => ?_, fun _ => ⟨?_, valid⟩, fun h => ?_⟩
      · rw [back.die]
        exact flight
      · rw [back.die]
        exact tokens
      · rw [strm, back.die]
        exact nth_setAt_same ..
      · rw [back.others ucan k hk]
        exact dies k
      · rw [collisions, waits.regs can P.guardCollisions sl (by omega) (by decide)]
      · rw [← held, again] at h
        cases h

end Sys2Proof.Claims

/-! PROOF. The queues of the update engines (R135, R136), and what is told once (R157, R257). -/

namespace Sys2Proof.RecordLaws

open Sys2Proof.Machine Sys2Proof.Claims

/-- R369: an event of class `cls` was raised, and nothing else happened. -/
structure Tells (cls : Nat) (s t : State) : Prop where
  records : Records eventRegs s t
  counted : Canonical s → t.reg P.eventsRaised cls = inc64 (s.reg P.eventsRaised cls)

theorem tells_raiseEvent {cls : Nat} (h : cls < 2 ^ 24) (s : State) (code source d0 d1 : Nat) : Tells cls s (s.raiseEvent cls code source d0 d1) :=
  ⟨.raiseEvent (List.Subset.refl _) h s code source d0 d1, fun c => EventLaws.reg_raiseEvent_eventsRaised c.1 h code source d0 d1⟩

end Sys2Proof.RecordLaws

namespace Sys2Proof.UpdateLaws

open Sys2Proof.Machine Sys2Proof.Claims Sys2Proof.RecordLaws

/-- Updates moved on towards their engines, and nothing else. -/
def Requeues (s t : State) : Prop :=
  t = { s with upd := { s.upd with triggered := t.upd.triggered, arrived := t.upd.arrived, queues := t.upd.queues } }

namespace Requeues

theorem refl (s : State) : Requeues s s := rfl

theorem trans {s t u : State} (h : Requeues s t) (g : Requeues t u) : Requeues s u := by
  unfold Requeues at h g ⊢
  rw [g, h]

theorem foldl {α : Type} {f : State → α → State} (hf : ∀ v x, Requeues v (f v x)) (xs : List α) (s : State) : Requeues s (xs.foldl f s) := by
  induction xs generalizing s with
  | nil => exact refl s
  | cons x xs ih => exact (hf s x).trans (ih _)

theorem requeue (s : State) : Requeues s s.requeue := by
  unfold State.requeue State.arriveUpdates
  refine trans (foldl (fun v x => ?_) _ s) (foldl (fun v x => ?_) _ _)
  all_goals
    dsimp only
    split <;> rfl

end Requeues

/-- R249: the record of a step replaced. -/
theorem mem_setStepRec {s : State} {r r' : StepRec} (h : s.stepRec r'.step = some r) : r' ∈ (s.setStepRec r').upd.steps := by
  have found := List.find?_some h
  exact List.mem_map.2 ⟨r, List.mem_of_find?_eq_some h, if_pos (beq_iff_eq.1 found)⟩

theorem step_of_stepRec {s : State} {n : Nat} {r : StepRec} (h : s.stepRec n = some r) : r.step = n := by
  have found := List.find?_some h
  exact beq_iff_eq.1 found

/-- Registers written in a fold of counts. -/
theorem foldl_bump32_rest {p : Nat} (xs : List Nat) (s : State) :
    let t := xs.foldl (fun s b => s.bump32 p b 1) s
    t = { s with params := t.params } := by
  induction xs generalizing s with
  | nil => rfl
  | cons x xs ih =>
    rw [List.foldl_cons]
    exact ih (s.bump32 p x 1)

/-- The books once a completion of group `g` is counted in the record `r`. -/
def reported (s : State) (g n : Nat) (r : StepRec) : State :=
  ({ s with upd := { s.upd with reports := removeFirst (· == (g, n)) s.upd.reports } } : State).setStepRec
    { r with counts := Sparse.put zeros r.counts g (Sparse.get zeros r.counts g + 1) }

/-- R135: a completion of group `g` in step `n` is counted, extra ones besides, and the updates that it triggers move on. -/
theorem collReportStep_eq {s : State} {g n : Nat} {r : StepRec} (waits : (g, n) ∈ s.upd.reports) (there : s.stepRec n = some r) :
    ∃ (xs : List Nat) (due : List (Nat × Nat)), collReportStep s g n =
      let v := xs.foldl (fun s b => s.bump32 P.extraTriggers b 1) (reported s g n r)
      ({ v with upd := { v.upd with triggered := v.upd.triggered ++ due } } : State).requeue := by
  unfold collReportStep
  rw [if_neg (not_not.2 (List.contains_iff_mem.2 waits))]
  have there' : ({ s with upd := { s.upd with reports := removeFirst (· == (g, n)) s.upd.reports } } : State).stepRec n = some r := there
  simp only [there']
  exact ⟨_, _, rfl⟩

end Sys2Proof.UpdateLaws

namespace Sys2Proof.Claims

open Sys2Proof.Machine Sys2Proof.UpdateLaws Sys2Proof.RecordLaws

/-- Settles O24: the counted report, and the two stalls told. -/
theorem reportsCountAndStallsAreToldOnce : Obligations.ReportsCountAndStallsAreToldOnce := by
  refine ⟨?_, ?_, ?_⟩
  · intro s g n r can waits there
    obtain ⟨xs, due, eq⟩ := collReportStep_eq waits there
    have counted := foldl_bump32_rest (p := P.extraTriggers) xs (reported s g n.toNat r)
    dsimp only at counted eq
    rw [counted] at eq
    refine ⟨_, congrArg Host.Outcome.next eq, ?_⟩
    rw [Requeues.requeue]
    refine ⟨rfl, ⟨{ r with counts := Sparse.put zeros r.counts g (Sparse.get zeros r.counts g + 1) }, ?_, (step_of_stepRec there :), Sparse.get_put_same ..⟩, rfl,
      ⟨rfl, rfl, rfl, rfl⟩, rfl, rfl⟩
    exact mem_setStepRec (s := { s with upd := _ }) (r := r) (by rw [← there, ← step_of_stepRec there]; rfl)
  · intro s sh r can limit found
    have run : exec (.shardTriggerStall sh) s = .next (State.raiseEvent (State.setStepRec (s.reach (r.finalAt + s.val P.stallLimit * usRoot))
        { r with stallTold := sh.val :: r.stallTold }) 6 0x02 (srcBase (sdBase (capReg (s.capturedOf r.step) P.shardTable sh))) sh 0) := by
      refine congrArg Host.Outcome.next ?_
      unfold triggerStallStep
      simp only [found]
      exact if_neg limit
    have told := tells_raiseEvent (cls := 6) (by decide) (State.setStepRec (s.reach (r.finalAt + s.val P.stallLimit * usRoot))
      { r with stallTold := sh.val :: r.stallTold }) 0x02 (srcBase (sdBase (capReg (s.capturedOf r.step) P.shardTable sh))) sh 0
    generalize State.raiseEvent _ 6 0x02 _ _ 0 = t at run told
    exact ⟨t, run, congrArg Upd.steps told.records.upd, congrArg Clock.now told.records.clock, told.counted can, told.records.regs can, told.records.stores,
      told.records.seq⟩
  · intro s r q can limit found member missing
    have run : ∃ n q', exec .commitStall s = .next (State.raiseEvent (State.bump32 (State.setStepRec
        (s.reach (r.verifiedAt.getD 0 + s.val P.stallLimit * usRoot)) { r with commitTold := true }) P.commitStalls 0 1) 6 0x03 srcModule n q') := by
      obtain ⟨q', qs, here⟩ : ∃ q' qs, s.closingRanks.filter (fun q => (s.commitFrom r.step q).isNone) = q' :: qs :=
        List.exists_cons_of_ne_nil (List.ne_nil_of_mem (List.mem_filter.2 ⟨member, by rw [missing]; rfl⟩))
      refine ⟨(q' :: qs).length, q', congrArg Host.Outcome.next ?_⟩
      unfold commitStallStep
      simp only [found, here]
      exact if_neg limit
    obtain ⟨n, q', run⟩ := run
    generalize hv : State.setStepRec (s.reach (r.verifiedAt.getD 0 + s.val P.stallLimit * usRoot)) { r with commitTold := true } = v at run
    have vcan : Canonical v := hv ▸ can
    have counted : Records [P.commitStalls] v (v.bump32 P.commitStalls 0 1) := .bump32 (by decide) (by decide) v 1
    have stalls : (v.bump32 P.commitStalls 0 1).reg P.commitStalls 0 = inc32 (v.reg P.commitStalls 0) := State.reg_bump_same ..
    generalize v.bump32 P.commitStalls 0 1 = w at run counted stalls
    have told := tells_raiseEvent (cls := 6) (by decide) w 0x03 srcModule n q'
    generalize w.raiseEvent 6 0x03 srcModule n q' = t at run told
    have all : Records (P.commitStalls :: eventRegs) v t := (counted.mono (by decide)).trans (told.records.mono (by decide))
    refine ⟨t, run, ?_, ?_, ?_, ?_, ?_, ?_⟩
    · rw [all.upd, ← hv]
      rfl
    · rw [all.clock, ← hv]
      rfl
    · rw [told.records.reg (counted.can vcan) (by decide) (by decide), stalls, ← hv]
      rfl
    · intro p e he hp
      rw [all.regs vcan p e he hp, ← hv]
      rfl
    · rw [← hv] at all
      exact all.stores
    · rw [all.seq, ← hv]
      rfl

end Sys2Proof.Claims

/-! PROOF. Replica records (R260) and STOP records (R414). -/

namespace Sys2Proof.NetLaws

open Sys2Proof.Machine Sys2Proof.Claims Sys2Proof.RecordLaws

/-- `t` is `s` but for registers, the event log, the streams and what has left. -/
def Exchanges (s t : State) : Prop := t = { s with params := t.params, log := t.log, net := t.net, out := t.out }

namespace Exchanges

variable {s t u : State}

theorem refl (s : State) : Exchanges s s := rfl

theorem trans (h : Exchanges s t) (g : Exchanges t u) : Exchanges s u := by
  unfold Exchanges at h g ⊢
  rw [g, h]

theorem of_records {ps : List Nat} (r : Records ps s t) : Exchanges s t := by
  rw [r.rest]
  rfl

theorem setRx (s : State) (ns : Nat) (r : Rx) : Exchanges s (s.setRx ns r) := rfl

theorem foldl {α : Type} {f : State → α → State} (hf : ∀ v x, Exchanges v (f v x)) (xs : List α) (s : State) : Exchanges s (xs.foldl f s) := by
  induction xs generalizing s with
  | nil => exact refl s
  | cons x xs ih => exact (hf s x).trans (ih _)

theorem sendPacket (s : State) (ns q : Nat) (pkt : List Byte) : Exchanges s (s.sendPacket ns q pkt) := by
  unfold State.sendPacket
  dsimp only
  split <;> rfl

theorem sendAck (s : State) (ns : Nat) : Exchanges s (s.sendAck ns) := (setRx s ns _).trans (sendPacket ..)

theorem ite {c : Prop} [Decidable c] (h : Exchanges s t) (g : Exchanges s u) : Exchanges s (if c then t else u) := by
  split <;> assumption

theorem finishMessage (s : State) (ns : Nat) (gs : List RSeg) : Exchanges s (s.finishMessage ns gs) := by
  unfold State.finishMessage
  cases gs.getLast? with
  | none => exact ite (sendAck s ns) (refl s)
  | some l => exact (setRx s ns (((s.rx ns).accept l.seq s.clock.now).finish l.msg)).trans (ite (sendAck ..) (refl _))

theorem dropStale (n ns : Nat) (s : State) : Exchanges s (dropStale n ns s) := by
  induction n generalizing s with
  | zero => exact refl s
  | succ n ih =>
    have counted : Exchanges s (s.bump32 P.staleMessages ns 1) := rfl
    unfold Machine.dropStale
    cases (s.rx ns).headMessage with
    | none => exact refl s
    | some gs => exact ite ((counted.trans (finishMessage ..)).trans (ih _)) (refl s)

theorem discardStale (ns : Nat) (s : State) : Exchanges s (discardStale ns s) := dropStale ..

section

variable (h : Exchanges s t)

include h

theorem clock : t.clock = s.clock := (congrArg State.clock h :)
theorem seq : t.seq = s.seq := (congrArg State.seq h :)
theorem mem : t.mem = s.mem := (congrArg State.mem h :)
theorem upd : t.upd = s.upd := (congrArg State.upd h :)

end

end Exchanges

end Sys2Proof.NetLaws

namespace Sys2Proof.UpdateLaws

open Sys2Proof.Machine Sys2Proof.Claims Sys2Proof.RecordLaws Sys2Proof.NetLaws

/-- R260: a replica record was taken from stream `ns` and kept. -/
structure Keeps (ns typ : Nat) (k : Kept) (s t : State) : Prop where
  kept : t.upd.kept = s.upd.kept ++ [k]
  steps : t.upd.steps = s.upd.steps
  typ : k.typ = typ
  ns : k.ns = ns
  mem : t.mem = s.mem
  seq : t.seq = s.seq
  clock : t.clock = s.clock

theorem keeps_takeReplica {s u : State} {ns typ : Nat} {k : Kept} (took : s.takeReplica ns typ = (some k, u)) : Keeps ns typ k s u := by
  unfold State.takeReplica at took
  split at took
  · cases took
  next gs k' next =>
    by_cases other : k'.typ ≠ typ
    · rw [if_pos other] at took
      cases took
    rw [if_neg other] at took
    split at took
    · cases took
    dsimp only at took
    split at took
    · obtain ⟨same, rfl⟩ := Prod.mk.inj took
      obtain rfl := Option.some.inj same
      have left : Exchanges s (discardStale ns (s.finishMessage ns gs)) := (Exchanges.finishMessage ..).trans (.discardStale ..)
      obtain ⟨_, _, parsed⟩ := Option.map_eq_some_iff.1 next
      obtain ⟨_, rfl⟩ := Prod.mk.inj parsed
      exact ⟨congrArg (fun u : Upd => u.kept ++ _) left.upd, (congrArg Upd.steps left.upd :), not_not.1 other, rfl, left.mem, left.seq, left.clock⟩
    · cases took

theorem undecided_eq_isSome (s : State) (n : Nat) : s.undecided n = (s.stepRec n).isSome := by
  rw [State.undecided, State.stepRec, Bool.eq_iff_iff, List.any_eq_true, List.find?_isSome]

/-- R259 to R263: without a record of the step, nothing settles. -/
theorem settle_of_no_record {s : State} {n : Nat} (none : s.stepRec n = none) (sh : Nat) : s.settle n sh = s := by
  have once : s.settleOnce n sh = (false, s) := by
    unfold State.settleOnce
    simp only [none]
  unfold State.settle settleShard
  simp only [once]

/-- R255: without a record of the step, nothing is decided. -/
theorem tryDecide_of_no_record {s : State} {n : Nat} (none : s.stepRec n = none) : s.tryDecide n = s := by
  unfold State.tryDecide
  simp only [none]

/-- R414: the record of a step once the exchange of shard `sh` is stopped. -/
def stoppedRec (sh : Nat) (r : StepRec) : StepRec :=
  let x := (r.shard sh).getD { shard := sh }
  r.putShard { x with stage := 5, bits := Nat.lor x.bits cwStopped }

/-- R414: the exchange of shard `sh` is resolved with STOPPED. -/
def Stopped (r : StepRec) (sh : Nat) : Prop := ∃ x ∈ r.shards, x.shard = sh ∧ x.stage = 5 ∧ bit x.bits 3 = true

theorem bit_lor_stopped (w : Nat) : bit (Nat.lor w cwStopped) 3 = true := by
  show (w ||| 8).testBit 3 = true
  rw [Nat.testBit_or, show Nat.testBit 8 3 = true from rfl, Bool.or_true]

theorem shard_of_found {r : StepRec} {sh : Nat} {x : ShardCommit} (h : r.shard sh = some x) : x.shard = sh := by
  have found := List.find?_some h
  exact beq_iff_eq.1 found

/-- The exchange of shard `sh`, begun where there is none yet, is that shard's. -/
theorem shard_getD (r : StepRec) (sh : Nat) : ((r.shard sh).getD { shard := sh }).shard = sh := by
  cases h : r.shard sh with
  | none => rfl
  | some x => exact shard_of_found h

theorem stopped_stoppedRec (sh : Nat) (r : StepRec) : Stopped (stoppedRec sh r) sh :=
  ⟨_, List.mem_append_right _ (List.mem_singleton_self _), shard_getD r sh, rfl, bit_lor_stopped _⟩

theorem Stopped.stoppedRec {r : StepRec} {sh : Nat} (h : Stopped r sh) (sh' : Nat) : Stopped (stoppedRec sh' r) sh := by
  by_cases same : sh' = sh
  · exact same ▸ stopped_stoppedRec sh' r
  · obtain ⟨x, member, here, stage, told⟩ := h
    refine ⟨x, List.mem_append_left _ (List.mem_filter.2 ⟨member, ?_⟩), here, stage, told⟩
    exact bne_iff_ne.2 (by rw [here]; exact fun e => same ((shard_getD r sh').symm.trans e.symm))

/-- One STOP record used. -/
def stopOne (n : Nat) (s : State) (k : Kept) : State := (s.dropKept k).stopShard n k.shard

theorem mem_stopOne {s : State} {n : Nat} {r : StepRec} (member : r ∈ s.upd.steps) (here : r.step = n) (k : Kept) :
    stoppedRec k.shard r ∈ (stopOne n s k).upd.steps ∧ (stoppedRec k.shard r).step = n :=
  ⟨List.mem_map.2 ⟨r, member, if_pos here⟩, here⟩

/-- A stopped exchange stays stopped. -/
theorem stopped_foldl {n sh : Nat} (ks : List Kept) (s : State) (h : ∃ r ∈ s.upd.steps, r.step = n ∧ Stopped r sh) :
    ∃ r ∈ (ks.foldl (stopOne n) s).upd.steps, r.step = n ∧ Stopped r sh := by
  induction ks generalizing s with
  | nil => exact h
  | cons k ks ih =>
    obtain ⟨r, member, here, stopped⟩ := h
    obtain ⟨member', here'⟩ := mem_stopOne member here k
    exact ih _ ⟨_, member', here', stopped.stoppedRec k.shard⟩

/-- Every STOP record stops its exchange. -/
theorem stopped_of_mem {n : Nat} {k : Kept} (ks : List Kept) (s : State) (listed : k ∈ ks) (h : ∃ r ∈ s.upd.steps, r.step = n) :
    ∃ r ∈ (ks.foldl (stopOne n) s).upd.steps, r.step = n ∧ Stopped r k.shard := by
  induction ks generalizing s with
  | nil => cases listed
  | cons k' ks ih =>
    obtain ⟨r, member, here⟩ := h
    obtain ⟨member', here'⟩ := mem_stopOne member here k'
    rcases List.mem_cons.1 listed with rfl | later
    · exact stopped_foldl ks _ ⟨_, member', here', stopped_stoppedRec k.shard r⟩
    · exact ih _ later ⟨_, member', here'⟩

end Sys2Proof.UpdateLaws

namespace Sys2Proof.Claims

open Sys2Proof.Machine Sys2Proof.UpdateLaws Sys2Proof.NetLaws

/-- Settles O25: a record that comes before its step is kept; a STOP record of an undecided step stops its shard. -/
theorem replicaRecordsAreKeptAndStopsResolve : Obligations.ReplicaRecordsAreKeptAndStopsResolve := by
  refine ⟨?_, ?_⟩
  · intro s ns typ k u took early kept
    have keeps := keeps_takeReplica took
    have settled := settle_of_no_record early k.shard
    have open' : u.undecided k.step = false := by rw [undecided_eq_isSome, early]; rfl
    have next : ∀ c : Instr, exec c s = .next u → kept c := fun c run =>
      ⟨u, run, keeps.kept, keeps.steps, keeps.typ, keeps.ns, keeps.mem, keeps.seq, keeps.clock⟩
    refine ⟨?_, ?_, ?_, ?_, ?_, ?_⟩ <;> intro same <;> subst same <;> refine next _ (congrArg Host.Outcome.next ?_)
    · rw [digestRecordStep, took]
      exact settled
    · rw [commitRecordStep, took]
      exact tryDecide_of_no_record early
    · rw [recheckRecordStep, took]
      exact settled
    · rw [copyTileStep, took]
      exact settled
    · rw [copyMomentsStep, took]
      exact settled
    · rw [stopRecordStep, took]
      simp only [open', Bool.false_eq_true, if_false]
  · intro s ns k u took late
    have keeps := keeps_takeReplica took
    have run : exec (.stopRecord ns) s = .next (u.settleStops k.step) := by
      refine congrArg Host.Outcome.next ?_
      rw [stopRecordStep, took]
      simp only [late, if_true]
    have listed : k ∈ u.upd.kept.filter fun x => x.step == k.step && x.typ == 5 := by
      refine List.mem_filter.2 ⟨?_, by rw [keeps.typ, beq_self_eq_true]; rfl⟩
      rw [keeps.kept]
      exact List.mem_append_right _ (List.mem_singleton_self _)
    obtain ⟨r, member, same⟩ := List.any_eq_true.1 late
    exact ⟨_, run, stopped_of_mem _ u listed ⟨r, member, beq_iff_eq.1 same⟩⟩

end Sys2Proof.Claims

/-! PROOF. Writes to the backwater's flash (R190 to R202), and the orderly reset that ends them (R298). -/

namespace Sys2Proof.FlashLaws

open Sys2Proof.Machine Sys2Proof.Claims Sys2Proof.RecordLaws

/-- Flash work: units, their tiles and counts, draws and the updates' books alone may differ. -/
def Backs (s t : State) : Prop := t = { s with params := t.params, mem := t.mem, flash := t.flash, draws := t.draws, upd := t.upd }

namespace Backs

variable {s t u : State}

theorem refl (s : State) : Backs s s := rfl

theorem trans (h : Backs s t) (g : Backs t u) : Backs s u := by
  unfold Backs at h g ⊢
  rw [g, h]

theorem foldl {α : Type} {f : State → α → State} (hf : ∀ v x, Backs v (f v x)) (xs : List α) (s : State) : Backs s (xs.foldl f s) := by
  induction xs generalizing s with
  | nil => exact refl s
  | cons x xs ih => exact (hf s x).trans (ih _)

theorem ite {c : Prop} [Decidable c] (h : Backs s t) (g : Backs s u) : Backs s (if c then t else u) := by
  split <;> assumption

theorem bump64 (s : State) (p e n : Nat) : Backs s (s.bump64 p e n) := rfl

theorem putTile (s : State) (id : Nat) (t : Tile) : Backs s (s.putTile id t) := rfl

theorem persist (s : State) (p : Nat) (v : BitVec 128) : Backs s (s.persist p v) := rfl

theorem draw (s : State) : Backs s s.draw.2 := rfl

end Backs

/-- Flash alone may differ. -/
def Flashes (s t : State) : Prop := t = { s with flash := t.flash }

namespace Flashes

variable {s t u : State}

theorem refl (s : State) : Flashes s s := rfl

theorem trans (h : Flashes s t) (g : Flashes t u) : Flashes s u := by
  unfold Flashes at h g ⊢
  rw [g, h]

theorem foldl {α : Type} {f : State → α → State} (hf : ∀ v x, Flashes v (f v x)) (xs : List α) (s : State) : Flashes s (xs.foldl f s) := by
  induction xs generalizing s with
  | nil => exact refl s
  | cons x xs ih => exact (hf s x).trans (ih _)

theorem backs (h : Flashes s t) : Backs s t := by
  unfold Flashes at h
  rw [h]
  rfl

theorem eraseBlock (s : State) (k : Nat) : Flashes s (s.eraseBlock k) := by
  unfold State.eraseBlock
  dsimp only
  split <;> rfl

theorem takePage (s : State) (d c : Nat) : Flashes s (s.takePage d c).2 := by
  unfold State.takePage
  dsimp only
  split
  · rfl
  · split
    · rfl
    · exact (eraseBlock s _).trans rfl

theorem putFlashPage (s : State) (d k : Nat) (p : FlashPage) : Flashes s (s.putFlashPage d k p) := rfl

theorem closeStripe (s : State) (d : Nat) : Flashes s (s.closeStripe d) := by
  have taken := takePage s d (s.stripeChans d).1
  unfold State.closeStripe
  dsimp only
  generalize s.takePage d (s.stripeChans d).1 = x at taken
  obtain ⟨_ | k, v⟩ := x
  · exact taken.trans rfl
  · exact taken.trans rfl

theorem programLu (s : State) (x dat : Nat) : Flashes s (s.programLu x dat).2 := by
  unfold State.programLu
  dsimp only
  split
  · exact refl s
  next c _ =>
    have taken := takePage s (luBase x) c
    generalize s.takePage (luBase x) c = y at taken
    obtain ⟨_ | k, v⟩ := y
    · exact taken
    · dsimp only
      split
      · refine taken.trans (trans ?_ (closeStripe ..))
        rfl
      · exact taken.trans rfl

end Flashes

namespace Backs

variable {s t u : State}

theorem refreshLu (s : State) (x : Nat) : Backs s (s.refreshLu x) := by
  unfold State.refreshLu
  split
  · exact refl _
  · exact foldl (fun v _ => putTile v ..) _ _

theorem markPoison (s : State) (x : Nat) : Backs s (s.markPoison x) := by
  have marked : Backs s (s.setLu x { s.lu x with written := true, poisoned := true }) := rfl
  exact marked.trans (refreshLu ..)

theorem writeLu (s : State) (x dat : Nat) : Backs s (s.writeLu x dat) := by
  have programmed := (Flashes.programLu s x dat).backs
  unfold State.writeLu
  generalize s.programLu x dat = y at programmed
  obtain ⟨_ | _, v⟩ := y
  · exact programmed.trans ((markPoison v x).trans (bump64 ..))
  · exact programmed.trans (bump64 ..)

theorem writeJournal (s : State) (c : Checkpoint) (n : Nat) : Backs s (s.writeJournal c n) :=
  foldl (fun v _ => (writeLu v _ _).trans (writeLu ..)) _ s

theorem loseCheckpoints (s : State) : Backs s s.loseCheckpoints :=
  (show Backs s { s with upd := { s.upd with writing := [] } } from rfl).trans
    (foldl (fun v _ => (draw v).trans (writeJournal ..)) _ _)

theorem loseWrites (s : State) : Backs s s.loseWrites := by
  unfold State.loseWrites
  refine ((foldl (fun v w => ?_) s.flash.writes s).trans (foldl (fun v e => ?_) _ _)).trans rfl
  · exact ite ((draw v).trans (Flashes.programLu ..).backs) (draw v)
  · exact ite ((draw v).trans (persist ..)) (draw v)

end Backs

end Sys2Proof.FlashLaws

namespace Sys2Proof.ResetLaws

open Sys2Proof.Machine Sys2Proof.Claims Sys2Proof.FlashLaws

theorem bits_causeWord {cause sensor count : Nat} (hc : cause < 2 ^ 8) (hs : sensor < 2 ^ 8) (hn : count < 2 ^ 16) :
    let w := cause + 2 ^ 8 * sensor + 2 ^ 16 * count
    bits w 0 8 = cause ∧ bits w 8 8 = sensor ∧ bits w 16 16 = count := by
  simp only [bits, Nat.shiftRight_eq_div_pow]
  omega

/-- R298: the orderly reset, whatever the flash work that it ends. -/
theorem afterReset_orderlyReset (s : State) {cause sensor : Nat} (hc : cause < 2 ^ 8) (hs : sensor < 2 ^ 8) :
    AfterReset s (s.orderlyReset cause sensor) cause sensor
      ∧ (s.orderlyReset cause sensor).supply.input38 = s.supply.input38 ∧ (s.orderlyReset cause sensor).supply.closed = s.supply.closed := by
  have left : Backs s s.loseCheckpoints.loseWrites := (Backs.loseCheckpoints s).trans (Backs.loseWrites _)
  have nor : s.loseCheckpoints.loseWrites.nor = s.nor := (congrArg State.nor left :)
  have supply : s.loseCheckpoints.loseWrites.supply = s.supply := (congrArg State.supply left :)
  have journal : s.loseCheckpoints.loseWrites.journal = s.journal := (congrArg State.journal left :)
  have pending : s.loseCheckpoints.loseWrites.pending = s.pending := (congrArg State.pending left :)
  unfold State.orderlyReset
  generalize s.loseCheckpoints.loseWrites = v at nor supply journal pending
  obtain ⟨low, mid, high⟩ := bits_causeWord (count := min (bits v.nor.cause 16 16 + 1) 0xFFFF) hc hs (by omega)
  refine ⟨⟨rfl, rfl, rfl, rfl, rfl, rfl, rfl, rfl, rfl, rfl, rfl, rfl, ?_, rfl, low, mid, ?_, ?_⟩, ?_⟩
  · exact (congrArg Supply.refGood supply :)
  · rw [high, nor]
  · exact ⟨(congrArg Nor.field nor :), (congrArg Nor.sigs nor :), (congrArg Nor.boot0 nor :), (congrArg Nor.boot1 nor :), (congrArg Nor.slotA nor :),
      (congrArg Nor.slotB nor :), journal, pending⟩
  · exact ⟨(congrArg Supply.input38 supply :), (congrArg Supply.closed supply :)⟩

/-- What follows an orderly reset in the input stage leaves what the reset left. -/
theorem AfterReset.setSupply {s t : State} {cause sensor : Nat} (h : AfterReset s t cause sensor) (x : Supply)
    (powering : x.powering = t.supply.powering) (released : x.released = t.supply.released) (refGood : x.refGood = t.supply.refGood) :
    AfterReset s { t with supply := x } cause sensor := by
  obtain ⟨h1, h2, h3, h4, h5, h6, h7, h8, h9, h10, hp, hr, hg, rest⟩ := h
  exact ⟨h1, h2, h3, h4, h5, h6, h7, h8, h9, h10, powering.trans hp, released.trans hr, refGood.trans hg, rest⟩

end Sys2Proof.ResetLaws

namespace Sys2Proof.Claims

open Sys2Proof.Machine Sys2Proof.ResetLaws

/-- Settles O30: every reset is the orderly reset with its cause. -/
theorem resetsLeaveTheirCauseAndDropVolatileState : Obligations.ResetsLeaveTheirCauseAndDropVolatileState := by
  intro s
  refine ⟨?_, ?_, ?_, ?_, ?_, ?_⟩
  · intro k h found passed
    have run : exec (.hardLimitPersist k) s = .next (s.orderlyReset 0x03 k) := by
      refine congrArg Host.Outcome.next ?_
      unfold hardPersistStep
      simp only [found]
      exact if_neg (Nat.not_lt.2 passed)
    exact ⟨_, run, (afterReset_orderlyReset s (by decide) (by omega)).1⟩
  · intro v powered
    refine ⟨?_, ?_⟩
    · intro low
      obtain ⟨reset, _, closed⟩ := afterReset_orderlyReset s (cause := 0x01) (sensor := 0) (by decide) (by decide)
      have run : exec (.resetLevelCrossing v) s = .next ((s.orderlyReset 0x01 0).seeInput v.toNat) := by
        refine congrArg Host.Outcome.next ?_
        unfold resetLevelStep
        simp only [low, powered, not_true, false_and, if_true, if_false]
      refine ⟨_, run, AfterReset.setSupply reset _ rfl rfl rfl, rfl, ?_⟩
      rw [← closed]
      rfl
    · intro low high
      have run : exec (.resetLevelCrossing v) s = .next ((s.orderlyReset 0x02 0).seeInput v.toNat) := by
        refine congrArg Host.Outcome.next ?_
        unfold resetLevelStep
        simp only [low, high, powered, not_true, and_false, if_true, if_false, Bool.false_eq_true]
      exact ⟨_, run, AfterReset.setSupply (afterReset_orderlyReset s (by decide) (by decide)).1 _ rfl rfl rfl⟩
  · intro closed
    have run : exec .enableOpen s = .next { s.orderlyReset 0x01 0 with
        supply := { (s.orderlyReset 0x01 0).supply with mated := false, closed := false, failHeld := false } } := by
      refine congrArg Host.Outcome.next ?_
      unfold enableOpenStep
      simp only [closed, if_true]
    exact ⟨_, run, AfterReset.setSupply (afterReset_orderlyReset s (by decide) (by decide)).1 _ rfl rfl rfl, rfl, rfl⟩
  · intro runs
    exact ⟨_, congrArg Host.Outcome.next (if_pos runs), (afterReset_orderlyReset s (by decide) (by decide)).1⟩
  · intro trial released early
    exact ⟨_, congrArg Host.Outcome.next (if_pos ⟨trial, released, early⟩), (afterReset_orderlyReset s (by decide) (by decide)).1⟩
  · intro q n c starts opcode formed magic
    have run : exec (.moduleReset 0 q n) s = .next (s.orderlyReset 0x04 0) := by
      refine congrArg Host.Outcome.next ?_
      unfold moduleResetStep
      simp only [Fin.val_zero, starts, opcode, formed, magic, ne_eq, not_true, if_false, Bool.false_eq_true]
    exact ⟨_, run, (afterReset_orderlyReset s (by decide) (by decide)).1⟩

end Sys2Proof.Claims

/-! PROOF. The release of panel reset (R346, R382, R383) and what the boot ROM leaves (R389 to R392). -/

namespace Sys2Proof.BootLaws

open Sys2Proof.Machine Sys2Proof.Claims Sys2Proof.StoreTileLaws Sys2Proof.RecordLaws

/-- What the panel record gives (R8). -/
def recordRegs : List Nat :=
  [P.dieRevisions, P.serial, P.featureLevel, P.recordVersion, P.macBase, P.mgmtMac, P.i3cStaticAddress, P.i3cPid, P.vendorIana, P.objectCount,
    P.deviceIdCertificate]

/-- What the boot ROM writes (R389 to R392). -/
def romRegs : List Nat := [P.bootStateValid, P.bootState, P.runningSlot, P.firmwareVersion, P.manualIssue, P.aliasCertificate]

theorem records_loadRecord (s : State) : Records recordRegs s s.loadRecord := by
  unfold State.loadRecord
  refine Records.trans (.foldl (fun i hi v => .setReg (by decide) (by have := List.mem_range.1 hi; omega) v _) s)
    (.foldl (fun x hx v => .setVal ?_ v x.2) _)
  have listed : x.1 ∈ recordRegs.tail := List.mem_map_of_mem (f := Prod.fst) hx
  exact List.mem_of_mem_tail listed

/-- R388: a boot record written leaves the rest of the SPI NOR. -/
theorem consumed_writeBoot (n : Nor) (r : BootRec) : (n.writeBoot r).consumed = n.consumed := by
  unfold Nor.writeBoot
  dsimp only
  split
  · rfl
  · split <;> rfl

/-- The boot ROM has run: registers of its own, a boot record and the image alone may differ. -/
structure Boots (s t : State) : Prop where
  rest : t = { s with params := t.params, nor := t.nor, fw := t.fw, draws := t.draws }
  consumed : t.nor.consumed = s.nor.consumed
  only : WritesOnly romRegs s t

namespace Boots

variable {s t u : State}

theorem trans (h : Boots s t) (g : Boots t u) : Boots s u := by
  refine ⟨?_, g.consumed.trans h.consumed, h.only.trans g.only⟩
  rw [g.rest, h.rest]

theorem refl (s : State) : Boots s s := ⟨rfl, rfl, .of_params _ rfl⟩

theorem setVal {p : Nat} (hp : p ∈ romRegs) (s : State) (v : Nat) : Boots s (s.setVal p v) :=
  ⟨rfl, rfl, .setReg hp (by decide) s v⟩

theorem ite {c : Prop} [Decidable c] (h : Boots s t) (g : Boots s u) : Boots s (if c then t else u) := by
  split <;> assumption

theorem writeBoot (c : Bool) (r : BootRec) (s : State) : Boots s { s with nor := if c then s.nor.writeBoot r else s.nor } := by
  refine ⟨rfl, ?_, .of_params _ rfl⟩
  dsimp only
  split
  · exact consumed_writeBoot ..
  · rfl

theorem setFw (s : State) (fw : Boot) : Boots s { s with fw := fw } := ⟨rfl, rfl, .of_params _ rfl⟩

theorem draw (s : State) : Boots s s.draw.2 := ⟨rfl, rfl, .of_params _ rfl⟩

theorem bootRom (s : State) : Boots s s.bootRom := by
  have valid : ∀ n, Boots s (s.setVal P.bootStateValid n) := setVal (by decide) s
  unfold State.bootRom
  generalize s.selectImage = x
  obtain ⟨_ | i, r⟩ := x <;> dsimp only
  · exact (valid _).trans ((writeBoot ..).trans (setVal (by decide) _ _))
  · have named : ∀ v a b c, Boots v (((v.setVal P.runningSlot a).setVal P.firmwareVersion b).setVal P.manualIssue c) := fun v a b c =>
      (setVal (by decide) v a).trans ((setVal (by decide) _ b).trans (setVal (by decide) _ c))
    have issued : ∀ (c : Prop) [Decidable c] v a, Boots v (if c then v.setVal P.aliasCertificate a else v) := fun c _ v a =>
      ite (setVal (by decide) v a) (refl v)
    exact ((valid _).trans ((writeBoot ..).trans (draw _))).trans ((named ..).trans ((issued ..).trans (setFw ..)))

end Boots

/-- R382, R383, R227: panel reset released, as far as the registers that are read back: its cause, the module's identity and its
epoch. -/
structure Released (seed : Option (BitVec 256)) (s t : State) : Prop where
  supply : t.supply = { s.supply with powering := false, released := true }
  clock : t.clock = {}
  epoch : 1 ≤ t.val P.topologyEpoch
  identity : t.val P.identityState = if seed.isSome then 0 else 2
  cause : t.val P.resetCause = if s.nor.consumed then s.nor.cause / 2 ^ 16 * 2 ^ 16 else s.nor.cause
  consumed : t.nor.consumed = true
  failed : Config.recordGood = false → t.boot = 6
  stores : SameStores s t

/-- The module once its record is read and its epoch drawn, before the boot ROM. -/
def released (s : State) (seed : Option (BitVec 256)) : State :=
  let s : State := { s with supply := { s.supply with powering := false, released := true }, clock := {} }
  let s := s.loadRecord.readResetRecord.setVal P.identityState (if seed.isSome then 0 else 2)
  let (n, s) := s.draw
  s.setVal P.topologyEpoch (max (Config.freeEpoch n).toNat 1)

/-- R382: the host link trains, and the boot ROM runs, where the panel record is good. -/
def startRom (s : State) : State :=
  let s := if Config.recordGood ∧ ¬ s.host.perst then s.setVal P.hostLinkState 1 else s
  if Config.recordGood then s.bootRom else s.setVal P.bootState 6

theorem panelReleaseStep_eq {s : State} (powering : s.supply.powering = true) (good : s.supply.refGood = true) (seed : Option (BitVec 256)) :
    panelReleaseStep s seed = startRom (released s seed) :=
  if_neg (by rw [powering, good]; decide)

/-- R383: the reset record read and consumed. -/
structure ReadsRecord (s t : State) : Prop where
  rest : t = { s with params := t.params, nor := t.nor }
  only : WritesOnly [P.resetCause] s t
  cause : t.val P.resetCause = if s.nor.consumed then s.nor.cause / 2 ^ 16 * 2 ^ 16 else s.nor.cause
  consumed : t.nor.consumed = true

theorem readsRecord (s : State) : ReadsRecord s s.readResetRecord :=
  ⟨rfl, ⟨Sparse.wf_put _ _, (WritesOnly.setReg (ps := [P.resetCause]) (by decide) (by decide) s _).regs⟩, State.reg_setReg_same .., rfl⟩

/-- What is read of the module once its epoch is drawn. -/
theorem released_reads {s : State} (wf : Sparse.wf paramDefault s.params = true) (seed : Option (BitVec 256)) :
    let t := released s seed
    Sparse.wf paramDefault t.params = true ∧ t.supply = { s.supply with powering := false, released := true } ∧ t.clock = {}
      ∧ 1 ≤ t.val P.topologyEpoch ∧ t.val P.identityState = (if seed.isSome then 0 else 2)
      ∧ t.val P.resetCause = (if s.nor.consumed then s.nor.cause / 2 ^ 16 * 2 ^ 16 else s.nor.cause)
      ∧ t.nor.consumed = true ∧ SameStores s t := by
  unfold released
  dsimp only
  have loaded := records_loadRecord { s with supply := { s.supply with powering := false, released := true }, clock := {} }
  generalize ({ s with supply := { s.supply with powering := false, released := true }, clock := {} } : State).loadRecord = v at loaded
  have nor : v.nor = s.nor := loaded.nor
  have read := readsRecord v
  have ww := read.only.wf (loaded.only.wf wf)
  generalize v.readResetRecord = w at read ww
  have mem : w.mem = v.mem := (congrArg State.mem read.rest :)
  have named := Records.setVal (ps := [P.identityState]) (p := P.identityState) (by decide) w (if seed.isSome then 0 else 2)
  have identity : (w.setVal P.identityState (if seed.isSome then 0 else 2)).val P.identityState = if seed.isSome then 0 else 2 :=
    State.val_setVal_same ..
  generalize w.setVal P.identityState (if seed.isSome then 0 else 2) = x at named identity
  have wx := named.only.wf ww
  have drawn := Records.setVal (ps := [P.topologyEpoch]) (p := P.topologyEpoch) (by decide) x.draw.2 (max (Config.freeEpoch x.draw.1).toNat 1)
  have epoch : (x.draw.2.setVal P.topologyEpoch (max (Config.freeEpoch x.draw.1).toNat 1)).val P.topologyEpoch
    = max (Config.freeEpoch x.draw.1).toNat 1 := State.val_setVal_same ..
  generalize x.draw.2.setVal P.topologyEpoch (max (Config.freeEpoch x.draw.1).toNat 1) = t at drawn epoch
  have kept : ∀ p, p ∉ [P.topologyEpoch] → t.val p = x.val p := fun p hp => drawn.only.regs wx p 0 (by decide) hp
  refine ⟨drawn.only.wf wx, ?_, ?_, ?_, (kept _ (by decide)).trans identity, ?_, ?_, ?_⟩
  · exact drawn.supply.trans (named.supply.trans ((congrArg State.supply read.rest :).trans loaded.supply))
  · exact drawn.clock.trans (named.clock.trans ((congrArg State.clock read.rest :).trans loaded.clock))
  · rw [epoch]
    exact le_max_right _ _
  · rw [kept _ (by decide), ← nor, ← read.cause]
    exact named.only.regs ww _ 0 (by decide) (by decide)
  · exact (congrArg Nor.consumed (drawn.nor.trans named.nor)).trans read.consumed
  · obtain ⟨tiles, pages, flash, pending⟩ := loaded.stores
    refine WorkLaws.sameStores_trans ⟨?_, ?_, ?_, ?_⟩ (WorkLaws.sameStores_trans named.stores drawn.stores)
    · rw [mem, tiles]
    · rw [mem, pages]
    · exact (congrArg State.flash read.rest :).trans flash
    · exact (congrArg State.pending read.rest :).trans pending

theorem startRom_reads (s : State) :
    let t := startRom s
    WritesOnly (P.hostLinkState :: romRegs) s t ∧ t.supply = s.supply ∧ t.clock = s.clock ∧ t.nor.consumed = s.nor.consumed
      ∧ (Config.recordGood = false → t.boot = 6) ∧ SameStores s t := by
  unfold startRom
  dsimp only
  have linked : Records [P.hostLinkState] s (if Config.recordGood ∧ ¬ s.host.perst then s.setVal P.hostLinkState 1 else s) :=
    .ite (.setVal (by decide) s 1) (.refl ..)
  generalize (if Config.recordGood ∧ ¬ s.host.perst then s.setVal P.hostLinkState 1 else s) = v at linked
  have ends : ∀ t, Boots v t → (Config.recordGood = false → t.boot = 6) →
      WritesOnly (P.hostLinkState :: romRegs) s t ∧ t.supply = s.supply ∧ t.clock = s.clock ∧ t.nor.consumed = s.nor.consumed
        ∧ (Config.recordGood = false → t.boot = 6) ∧ SameStores s t := by
    intro t b failed
    have mem : t.mem = v.mem := (congrArg State.mem b.rest :)
    refine ⟨(WritesOnly.mono (by decide) linked.only).trans (WritesOnly.mono (by decide) b.only), ?_, ?_, ?_, failed, ?_, ?_, ?_, ?_⟩
    · exact (congrArg State.supply b.rest :).trans linked.supply
    · exact (congrArg State.clock b.rest :).trans linked.clock
    · exact b.consumed.trans (congrArg Nor.consumed linked.nor)
    · rw [mem, linked.mem]
    · rw [mem, linked.mem]
    · exact (congrArg State.flash b.rest :).trans linked.flash
    · exact (congrArg State.pending b.rest :).trans linked.pending
  split
  next good => exact ends _ (.bootRom v) (fun bad => absurd good (by rw [bad]; decide))
  next => exact ends _ (.setVal (by decide) v 6) (fun _ => State.reg_setReg_same ..)

theorem released_panelReleaseStep {s : State} (can : Canonical s) (powering : s.supply.powering = true) (good : s.supply.refGood = true)
    (seed : Option (BitVec 256)) : Released seed s (panelReleaseStep s seed) := by
  rw [panelReleaseStep_eq powering good]
  obtain ⟨wf, supply, clock, epoch, identity, cause, consumed, stores⟩ := released_reads can.1 seed
  generalize released s seed = v at wf supply clock epoch identity cause consumed stores
  obtain ⟨only, supply', clock', consumed', failed, stores'⟩ := startRom_reads v
  have same : ∀ p, p ∉ P.hostLinkState :: romRegs → (startRom v).val p = v.val p := fun p => only.regs wf p 0 (by decide)
  refine ⟨supply'.trans supply, clock'.trans clock, ?_, ?_, ?_, consumed'.trans consumed, failed, WorkLaws.sameStores_trans stores stores'⟩
  · rw [same _ (by decide)]
    exact epoch
  · rw [same _ (by decide)]
    exact identity
  · rw [same _ (by decide)]
    exact cause

end Sys2Proof.BootLaws

namespace Sys2Proof.Claims

open Sys2Proof.Machine Sys2Proof.BootLaws

/-- Settles O32: ResetCause is the reset record's, or its count alone once it is consumed. -/
theorem resetRecordGivesTheResetCause : Obligations.ResetRecordGivesTheResetCause := by
  intro s seed can powering good
  have read := released_panelReleaseStep can powering good seed
  have cause := read.cause
  refine ⟨_, rfl, read.consumed, ?_, ?_, ?_⟩
  · rw [cause, bits, bits, Nat.shiftRight_eq_div_pow, Nat.shiftRight_eq_div_pow]
    split <;> omega
  · intro fresh _
    rw [cause, fresh]
    rfl
  · intro used
    rw [cause, used, if_pos rfl, bits, Nat.shiftRight_eq_div_pow]
    omega

end Sys2Proof.Claims

/-! PROOF. The gears recomputed (R287), and the events of the panel, beside what they account (R282). -/

namespace Sys2Proof.WorkLaws

open Sys2Proof.Machine Sys2Proof.Claims Sys2Proof.RecordLaws Sys2Proof.StoreTileLaws

/-- What the recomputed gears are read in, and the counts of the ac that pass meanwhile. -/
def gearRegs : List Nat := [P.budgetWaits, P.phaseTimers, P.moduleGear, P.dieGear]

/-- The ac up to now were accounted, the weir changed, and registers among `ps` and the event log were written. -/
structure Tends (ps : List Nat) (s t : State) : Prop where
  rest : t = { s with weir := t.weir, params := t.params, log := t.log, seq := { s.seq with dies := t.seq.dies } }
  can : Canonical s → Canonical t
  dies : Canonical s → ∀ k, Kept (s.die k) (t.die k)
  regs : Canonical s → OnlyRegs ps s t

namespace Tends

variable {ps : List Nat} {s t u : State}

theorem refl (ps : List Nat) (s : State) : Tends ps s s := ⟨rfl, id, fun _ _ => kept_refl _, fun _ _ _ _ _ => rfl⟩

theorem trans (h : Tends ps s t) (g : Tends ps t u) : Tends ps s u :=
  ⟨by rw [g.rest, h.rest], fun c => g.can (h.can c), fun c k => kept_trans (h.dies c k) (g.dies (h.can c) k),
    fun c p e he hp => (g.regs (h.can c) p e he hp).trans (h.regs c p e he hp)⟩

theorem mono {qs : List Nat} (hs : ps ⊆ qs) (h : Tends ps s t) : Tends qs s t :=
  ⟨h.rest, h.can, h.dies, fun c p e he hp => h.regs c p e he fun x => hp (hs x)⟩

theorem ite {c : Prop} [Decidable c] (h : Tends ps s t) (g : Tends ps s u) : Tends ps s (if c then t else u) := by
  split <;> assumption

theorem foldl {α : Type} {f : State → α → State} {xs : List α} (hf : ∀ x ∈ xs, ∀ v, Tends ps v (f v x)) (s : State) :
    Tends ps s (xs.foldl f s) := by
  induction xs generalizing s with
  | nil => exact refl ps s
  | cons x xs ih => exact (hf x (List.mem_cons_self ..) s).trans (ih (fun y hy => hf y (List.mem_cons_of_mem _ hy)) _)

theorem of_accounts (hs : acRegs ⊆ ps) (a : Accounts s t) : Tends ps s t := by
  refine mono hs ⟨?_, a.can, a.dies, a.regs⟩
  rw [a.rest]

theorem of_records (r : Records ps s t) : Tends ps s t := by
  refine ⟨?_, r.can, fun _ k => r.die k ▸ kept_refl _, r.regs⟩
  rw [r.rest]

theorem setWeir (ps : List Nat) (s : State) (w : Weir) : Tends ps s { s with weir := w } :=
  ⟨rfl, fun c => c, fun _ _ => kept_refl _, fun _ _ _ _ _ => rfl⟩

theorem catchUpAll (s : State) : Tends acRegs s s.catchUpAll :=
  of_accounts (List.Subset.refl _) (.foldl (fun _ h v => Accounts.catchUp (List.mem_range.1 h) v) s)

theorem drainBudget (s : State) : Tends acRegs s s.drainBudget := (catchUpAll s).trans (setWeir ..)

section

variable (r : Tends ps s t)

include r

theorem pending : t.pending = s.pending := (congrArg State.pending r.rest :)
theorem clock : t.clock = s.clock := (congrArg State.clock r.rest :)
theorem held : t.held = s.held := (congrArg State.held r.rest :)
theorem mem : t.mem = s.mem := (congrArg State.mem r.rest :)
theorem flash : t.flash = s.flash := (congrArg State.flash r.rest :)
theorem net : t.net = s.net := (congrArg State.net r.rest :)
theorem riffle : t.riffle = s.riffle := (congrArg State.riffle r.rest :)
theorem upd : t.upd = s.upd := (congrArg State.upd r.rest :)
theorem journal : t.journal = s.journal := (congrArg State.journal r.rest :)
theorem panel : t.panel = s.panel := (congrArg State.panel r.rest :)
theorem supply : t.supply = s.supply := (congrArg State.supply r.rest :)
theorem fw : t.fw = s.fw := (congrArg State.fw r.rest :)
theorem nor : t.nor = s.nor := (congrArg State.nor r.rest :)
theorem host : t.host = s.host := (congrArg State.host r.rest :)
theorem dir : t.dir = s.dir := (congrArg State.dir r.rest :)
theorem out : t.out = s.out := (congrArg State.out r.rest :)
theorem draws : t.draws = s.draws := (congrArg State.draws r.rest :)
theorem seq : t.seq = { s.seq with dies := t.seq.dies } := (congrArg State.seq r.rest :)

theorem stores : SameStores s t := ⟨congrArg Mem.tiles r.mem, congrArg Mem.pages r.mem, r.flash, r.pending⟩

theorem reg (c : Canonical s) {p e : Nat} (hp : p ∉ ps) (he : e < 2 ^ 24) : t.reg p e = s.reg p e := r.regs c p e he hp

theorem val (c : Canonical s) {p : Nat} (hp : p ∉ ps) : t.val p = s.val p := r.reg c hp (by decide)

end

end Tends

/-- R287: the gears as they follow from the weir, once the ac up to now are accounted. -/
def geared (s : State) : State :=
  let v := s.catchUpAll.accountGear
  { v with weir := { v.weir with dieGears := (List.range 64).map v.gearOf } }

/-- R287: what the recomputed gears are read in. -/
theorem regear_eq (s : State) : s.regear =
    let v := geared s
    ((List.range 64).zip v.weir.dieGears).foldl (fun s (sl, g) => s.setReg P.dieGear sl g)
      ((v.setReg P.moduleGear 0 v.weir.supplyGear).setReg P.moduleGear 1 v.weir.powerGear) := by
  rfl

theorem records_moduleGear (s : State) (a b : Nat) : Records [P.moduleGear, P.dieGear] s ((s.setReg P.moduleGear 0 a).setReg P.moduleGear 1 b) :=
  .trans (.setReg (by decide) (by decide) s a) (.setReg (by decide) (by decide) _ b)

theorem records_dieGears (gs : List Nat) (s : State) :
    Records [P.moduleGear, P.dieGear] s (((List.range 64).zip gs).foldl (fun s (sl, g) => s.setReg P.dieGear sl g) s) :=
  .foldl (fun x hx v => .setReg (by decide) (by
    have small := List.mem_range.1 (List.of_mem_zip hx).1
    omega) v x.2) s

theorem tends_geared (s : State) : Tends acRegs s (geared s) := by
  have caught := Tends.catchUpAll s
  unfold geared
  generalize s.catchUpAll = v at caught
  have counted : Tends acRegs v v.accountGear := .setWeir ..
  exact (caught.trans counted).trans (.setWeir ..)

theorem regear_records (s : State) : Records [P.moduleGear, P.dieGear] (geared s) s.regear := by
  rw [regear_eq]
  exact (records_moduleGear ..).trans (records_dieGears ..)

theorem tends_regear (s : State) : Tends gearRegs s s.regear :=
  ((tends_geared s).mono (by decide)).trans ((Tends.of_records (regear_records s)).mono (by decide))

end Sys2Proof.WorkLaws

/-! PROOF. The rills at power-up and in service (R341 to R345): what a training attempt leaves of a rill, and what it leaves alone. -/

namespace Sys2Proof.PanelLaws

open Sys2Proof.Machine Sys2Proof.Claims Sys2Proof.RecordLaws Sys2Proof.StoreTileLaws Sys2Proof.WorkLaws

/-- The panel was worked on: its state, the gears, flash, tiles that flash loses, registers among `ps` and the log. -/
structure Mends (ps : List Nat) (s t : State) : Prop where
  rest : t = { s with
    weir := t.weir, params := t.params, log := t.log, panel := t.panel, flash := t.flash
    mem := { s.mem with tiles := t.mem.tiles }, seq := { s.seq with dies := t.seq.dies } }
  can : Canonical s → Canonical t
  regs : Canonical s → OnlyRegs ps s t
  dirty : s.panel.fieldDirty = true → t.panel.fieldDirty = true

namespace Mends

variable {ps : List Nat} {s t u : State}

theorem refl (ps : List Nat) (s : State) : Mends ps s s := ⟨rfl, id, fun _ _ _ _ _ => rfl, id⟩

theorem trans (h : Mends ps s t) (g : Mends ps t u) : Mends ps s u := by
  refine ⟨?_, fun c => g.can (h.can c), fun c p e he hp => (g.regs (h.can c) p e he hp).trans (h.regs c p e he hp), fun d => g.dirty (h.dirty d)⟩
  rw [g.rest, h.rest]

theorem mono {qs : List Nat} (hs : ps ⊆ qs) (h : Mends ps s t) : Mends qs s t :=
  ⟨h.rest, h.can, fun c p e he hp => h.regs c p e he fun x => hp (hs x), h.dirty⟩

theorem ite {c : Prop} [Decidable c] (h : Mends ps s t) (g : Mends ps s u) : Mends ps s (if c then t else u) := by
  split <;> assumption

theorem foldl {α : Type} {f : State → α → State} {xs : List α} (hf : ∀ x ∈ xs, ∀ v, Mends ps v (f v x)) (s : State) :
    Mends ps s (xs.foldl f s) := by
  induction xs generalizing s with
  | nil => exact refl ps s
  | cons x xs ih => exact (hf x (List.mem_cons_self ..) s).trans (ih (fun y hy => hf y (List.mem_cons_of_mem _ hy)) _)

theorem of_tends (h : Tends ps s t) : Mends ps s t := by
  refine ⟨?_, h.can, h.regs, fun d => h.panel ▸ d⟩
  rw [h.rest]

theorem of_records (h : Records ps s t) : Mends ps s t := of_tends (.of_records h)

theorem setReg {p e : Nat} (hp : p ∈ ps) (he : e < 2 ^ 24) (s : State) (v : Nat) : Mends ps s (s.setReg p e v) := of_records (.setReg hp he s v)

theorem setPanel (ps : List Nat) (s : State) {x : Panel} (h : s.panel.fieldDirty = true → x.fieldDirty = true) : Mends ps s { s with panel := x } :=
  ⟨rfl, id, fun _ _ _ _ _ => rfl, h⟩

theorem setFlash (ps : List Nat) (s : State) (x : Flash) : Mends ps s { s with flash := x } := ⟨rfl, id, fun _ _ _ _ _ => rfl, id⟩

theorem dueSignature (ps : List Nat) (s : State) (x : SigInfo) : Mends ps s (s.dueSignature x) :=
  of_records ⟨rfl, .of_params _ rfl⟩

section

variable (r : Mends ps s t)

include r

theorem pending : t.pending = s.pending := (congrArg State.pending r.rest :)
theorem clock : t.clock = s.clock := (congrArg State.clock r.rest :)
theorem supply : t.supply = s.supply := (congrArg State.supply r.rest :)
theorem fw : t.fw = s.fw := (congrArg State.fw r.rest :)
theorem nor : t.nor = s.nor := (congrArg State.nor r.rest :)
theorem pages : t.mem.pages = s.mem.pages := (congrArg (fun u : State => u.mem.pages) r.rest :)
theorem seq : t.seq = { s.seq with dies := t.seq.dies } := (congrArg State.seq r.rest :)

theorem reg (c : Canonical s) {p e : Nat} (hp : p ∉ ps) (he : e < 2 ^ 24) : t.reg p e = s.reg p e := r.regs c p e he hp

theorem val (c : Canonical s) {p : Nat} (hp : p ∉ ps) : t.val p = s.val p := r.reg c hp (by decide)

end

end Mends

theorem rill_setRill_same (s : State) (r : Nat) (x : Rill) : (s.setRill r x).rill r = x := nth_setAt_same ..

theorem rill_setRill_other (s : State) {r k : Nat} (x : Rill) (h : k ≠ r) : (s.setRill r x).rill k = s.rill k := nth_setAt_other _ _ _ h

theorem rill_congr {s t : State} (h : t.panel.rills = s.panel.rills) (r : Nat) : t.rill r = s.rill r := by rw [State.rill, h, State.rill]

/-- What follows a rill's new mask: ports, routes and records (R344, R345, R374). -/
structure Follows (s t : State) : Prop where
  rest : t = { s with params := t.params, log := t.log, panel := { s.panel with cutOff := t.panel.cutOff } }
  only : WritesOnly (P.rillMappedOut :: P.linkState :: P.linkFlaps :: eventRegs) s t

/-- Registers that training of a rill writes. -/
def rillRegs : List Nat := P.rillRetrains :: P.rillMappedOut :: P.linkState :: P.linkFlaps :: eventRegs

namespace Follows

variable {s t u : State}

theorem refl (s : State) : Follows s s := ⟨rfl, .of_params _ rfl⟩

theorem trans (h : Follows s t) (g : Follows t u) : Follows s u := by
  refine ⟨?_, h.only.trans g.only⟩
  rw [g.rest, h.rest]

theorem of_records (h : Records (P.rillMappedOut :: P.linkState :: P.linkFlaps :: eventRegs) s t) : Follows s t := by
  refine ⟨?_, h.only⟩
  rw [h.rest]

theorem setCutOff (s : State) (off : List Nat) : Follows s { s with panel := { s.panel with cutOff := off } } := ⟨rfl, .of_params _ rfl⟩

theorem setRoutes (s : State) : Follows s s.routes := by
  unfold State.routes
  exact setCutOff s _

theorem feedPort (s : State) {g : Nat} (hg : 2 * g < 2 ^ 24) :
    let p := 2 * g
    Follows s (if bits (s.portMapIn g) 0 2 ≠ 3 then s
    else if ¬ s.portFed p then
      let s := if s.reg P.linkState p = 3 then s.bump32 P.linkFlaps p 1 else s
      if s.reg P.linkState p = 0 then s else s.setReg P.linkState p 1
    else if s.reg P.linkState p = 1 ∧ s.supply.refGood then s.setReg P.linkState p 2
    else s) := by
  refine of_records (.ite (.refl ..) (.ite ?_ (.ite (.setReg (by decide) hg s 2) (.refl ..))))
  exact .trans (.ite (.bump32 (by decide) hg s 1) (.refl ..)) (.ite (.refl ..) (.setReg (by decide) hg _ 1))

theorem foldl {α : Type} {f : State → α → State} {xs : List α} (hf : ∀ x ∈ xs, ∀ v, Follows v (f v x)) (s : State) : Follows s (xs.foldl f s) := by
  induction xs generalizing s with
  | nil => exact refl s
  | cons x xs ih => exact (hf x (List.mem_cons_self ..) s).trans (ih (fun y hy => hf y (List.mem_cons_of_mem _ hy)) _)

theorem feedPorts (s : State) : Follows s s.feedPorts := by
  have small : ∀ x ∈ fedPorts, 2 * x.2 < 2 ^ 24 := by decide
  exact foldl (fun x hx v => feedPort v (small x hx)) s

theorem panel (h : Follows s t) : t.panel = { s.panel with cutOff := t.panel.cutOff } := (congrArg State.panel h.rest :)

theorem rills (h : Follows s t) : t.panel.rills = s.panel.rills := by rw [h.panel]

theorem repairs (h : Follows s t) : t.panel.repairs = s.panel.repairs := by rw [h.panel]

theorem mends (h : Follows s t) : Mends rillRegs s t := by
  refine ⟨?_, fun c => ⟨h.only.wf c.1, ?_⟩, fun c => (WritesOnly.mono (by decide) h.only).regs c.1, fun d => ?_⟩
  · rw [h.rest]
  · rw [h.rest]
    exact c.2
  · rw [h.panel]
    exact d

end Follows

/-- R342 to R345: the end of a handshake, in two parts: the rill's masks, and what follows them. -/
theorem endHandshake_follows {r : Nat} (hr : r < 2 ^ 24) (s : State) (final out : Nat) :
    Follows (s.setRill r { s.rill r with lower := final, upper := final, shaking := false, mappedOut := Nat.lor (s.rill r).mappedOut out })
      (s.endHandshake r final out) := by
  have raised : ∀ (v : State) n, Records (P.rillMappedOut :: P.linkState :: P.linkFlaps :: eventRegs) v
      ((List.range n).foldl (fun s _ => s.raiseEvent 7 0x13 (srcOf 8 r) final out) v) := fun v n =>
    .foldl (fun _ _ w => .raiseEvent (by decide) (by decide) w ..) v
  have signed : ∀ (v : State) x, Follows v (if out = 0 then v else v.dueSignature x) := fun v x =>
    of_records (.ite (.refl ..) ⟨rfl, .of_params _ rfl⟩)
  unfold State.endHandshake
  dsimp only
  exact ((Follows.of_records (.bump32 (by decide) hr _ _)).trans (.of_records (raised ..))).trans
    ((signed ..).trans ((Follows.setRoutes _).trans (.feedPorts _)))
where
  of_records {s t : State} (h : Records (P.rillMappedOut :: P.linkState :: P.linkFlaps :: eventRegs) s t) : Follows s t := .of_records h

/-- Repairs found by steering, and nothing else (R338). -/
def Steers (s t : State) : Prop := t = { s with panel := { s.panel with repairs := t.panel.repairs, fieldDirty := t.panel.fieldDirty } }
  ∧ (s.panel.fieldDirty = true → t.panel.fieldDirty = true)

namespace Steers

variable {s t u : State}

theorem refl (s : State) : Steers s s := ⟨rfl, id⟩

theorem trans (h : Steers s t) (g : Steers t u) : Steers s u := by
  refine ⟨?_, fun d => g.2 (h.2 d)⟩
  rw [g.1, h.1]

theorem addRepair (s : State) (k n : Nat) : Steers s (s.addRepair k n) := ⟨rfl, fun _ => rfl⟩

theorem ite {c : Prop} [Decidable c] (h : Steers s t) (g : Steers s u) : Steers s (if c then t else u) := by
  split <;> assumption

theorem foldl {α : Type} {f : State → α → State} (hf : ∀ v x, Steers v (f v x)) (xs : List α) (s : State) : Steers s (xs.foldl f s) := by
  induction xs generalizing s with
  | nil => exact refl s
  | cons x xs ih => exact (hf s x).trans (ih _)

theorem steer (s : State) (r m : Nat) (fs : List RillFault) : Steers s (s.steer r m fs) :=
  foldl (fun v _ => ite (refl v) ((addRepair ..).trans (addRepair ..))) _ s

theorem rills (h : Steers s t) : t.panel.rills = s.panel.rills := (congrArg (fun u : State => u.panel.rills) h.1 :)

theorem mends (ps : List Nat) (h : Steers s t) : Mends ps s t := by
  have same : t.params = s.params := (congrArg State.params h.1 :)
  refine ⟨?_, fun c => ?_, fun _ p e _ _ => State.reg_congr same p e, h.2⟩
  · conv_lhs => rw [h.1]
    conv_rhs => rw [h.1]
  · rw [h.1]
    exact c

end Steers

/-- A rill in service: both ends hold one mask. -/
def InService (x : Rill) : Prop := x.shaking = false ∧ x.lower = x.upper

/-- An attempt on rill `r` trains that rill alone. -/
structure Trains (r : Nat) (s t : State) : Prop where
  mends : Mends rillRegs s t
  others : ∀ k, k ≠ r → t.rill k = s.rill k

theorem Trains.trans {r : Nat} {s t u : State} (h : Trains r s t) (g : Trains r t u) : Trains r s u :=
  ⟨h.mends.trans g.mends, fun k hk => (g.others k hk).trans (h.others k hk)⟩

theorem Trains.setRill (r : Nat) (s : State) (x : Rill) : Trains r s (s.setRill r x) :=
  ⟨.setPanel _ s id, fun _ hk => rill_setRill_other s x hk⟩

theorem trains_endHandshake {r : Nat} (hr : r < 2 ^ 24) (s : State) (final out : Nat) :
    Trains r s (s.endHandshake r final out) ∧ InService ((s.endHandshake r final out).rill r)
      ∧ (s.endHandshake r final out).rill r =
        { s.rill r with lower := final, upper := final, shaking := false, mappedOut := Nat.lor (s.rill r).mappedOut out } := by
  have follows := endHandshake_follows hr s final out
  have same := rill_congr follows.rills
  have here : (s.endHandshake r final out).rill r = _ := (same r).trans (rill_setRill_same ..)
  refine ⟨(Trains.setRill r s _).trans ⟨follows.mends, fun k _ => same k⟩, ?_, here⟩
  rw [here]
  exact ⟨rfl, rfl⟩

theorem trains_steer (r : Nat) (s : State) (m : Nat) (fs : List RillFault) :
    Trains r s (s.steer r m fs) ∧ (s.steer r m fs).rill r = s.rill r :=
  have steers := Steers.steer s r m fs
  ⟨⟨steers.mends _, fun k _ => rill_congr steers.rills k⟩, rill_congr steers.rills r⟩

/-- R341, R342: where an attempt may leave its rill. -/
theorem trainingStep_cases {r : Nat} (hr : r < 2 ^ 24) (s : State) (fs : List RillFault) :
    Trains r s (trainingStep s r fs)
      ∧ ((s.rill r).shaking = false → trainingStep s r fs = s)
      ∧ (InService ((trainingStep s r fs).rill r)
        ∨ ((s.rill r).fails = 0 ∧ ((trainingStep s r fs).rill r).fails = 1 ∧ ((trainingStep s r fs).rill r).shaking = true)
        ∨ (s.rill r).shaking = false) := by
  unfold trainingStep
  dsimp only
  by_cases shaking : (s.rill r).shaking = false
  · rw [if_pos (by rw [shaking]; decide)]
    exact ⟨⟨.refl .., fun _ _ => rfl⟩, fun _ => rfl, .inr (.inr shaking)⟩
  rw [if_neg (fun h => shaking (Bool.not_eq_true _ ▸ h))]
  obtain ⟨steered, same⟩ := trains_steer r s (s.rill r).agreed fs
  generalize s.steer r (s.rill r).agreed fs = v at steered same
  have ends : ∀ final out, Trains r s (v.endHandshake r final out) ∧ InService ((v.endHandshake r final out).rill r) := fun final out =>
    have ended := trains_endHandshake hr v final out
    ⟨steered.trans ended.1, ended.2.1⟩
  split
  · exact ⟨(ends _ _).1, fun h => absurd h shaking, .inl (ends _ _).2⟩
  · split
    next once =>
      refine ⟨steered.trans (.setRill r v _), fun h => absurd h shaking, .inr (.inl ⟨once, ?_⟩)⟩
      rw [rill_setRill_same]
      exact ⟨rfl, eq_true_of_ne_false shaking⟩
    · exact ⟨(ends _ _).1, fun h => absurd h shaking, .inl (ends _ _).2⟩

end Sys2Proof.PanelLaws

/-! PROOF. A rill at power-up (R341, R342, R351). -/

namespace Sys2Proof.PanelLaws

open Sys2Proof.Machine Sys2Proof.Claims Sys2Proof.RecordLaws Sys2Proof.StoreTileLaws Sys2Proof.WorkLaws

/-- The mask with the groups below `n` that `p` keeps. -/
def maskOf (p : Nat → Bool) (n : Nat) : Nat := ((List.range n).filter p).foldl (fun n g => n + 2 ^ g) 0

theorem maskOf_succ (p : Nat → Bool) (n : Nat) : maskOf p (n + 1) = maskOf p n + if p n then 2 ^ n else 0 := by
  unfold maskOf
  rw [List.range_succ, List.filter_append, List.foldl_append]
  cases h : p n <;> simp [h]

theorem maskOf_lt (p : Nat → Bool) (n : Nat) : maskOf p n < 2 ^ n := by
  induction n with
  | zero => exact Nat.one_pos
  | succ n ih =>
    rw [maskOf_succ]
    split <;> omega

theorem testBit_maskOf (p : Nat → Bool) (n g : Nat) : (maskOf p n).testBit g = (decide (g < n) && p g) := by
  induction n with
  | zero => simp [maskOf]
  | succ n ih =>
    have small := maskOf_lt p n
    rw [maskOf_succ]
    by_cases top : g = n
    · subst top
      have low : (maskOf p g).testBit g = false := Nat.testBit_lt_two_pow small
      cases h : p g
      · simp [low]
      · have sum := Nat.testBit_two_pow_add_eq (maskOf p g) g
        rw [Nat.add_comm, low] at sum
        simp [sum]
    · have below : decide (g < n + 1) = decide (g < n) := by
        rw [decide_eq_decide]
        omega
      rw [below, ← ih]
      split
      · rcases Nat.lt_or_gt_of_ne top with lt | gt
        · rw [Nat.add_comm, Nat.testBit_two_pow_add_gt lt]
        · have big : maskOf p n + 2 ^ n < 2 ^ g := Nat.lt_of_lt_of_le (by omega) (Nat.pow_le_pow_right (by decide) gt)
          rw [Nat.testBit_lt_two_pow big, Nat.testBit_lt_two_pow (Nat.lt_of_lt_of_le small (Nat.pow_le_pow_right (by decide) (by omega)))]
      · rfl

theorem bit_trainMask (s : State) (r d m : Nat) (fs : List RillFault) (g : Nat) :
    bit (s.trainMask r d m fs) g = (decide (g < 16) && (bit m g && decide (s.rillUsed r d g + faultsIn fs d g ≤ 2))) :=
  testBit_maskOf ..

theorem steer_nil (s : State) (r m : Nat) : s.steer r m [] = s := by
  unfold State.steer
  generalize List.range 32 = ks
  induction ks with
  | nil => rfl
  | cons k ks ih => exact ih

/-- Whether the wires of group `g` can all be steered, with no new fault (R341). -/
def sound (s : State) (r g : Nat) : Bool := decide (s.rillUsed r 0 g ≤ 2 ∧ s.rillUsed r 1 g ≤ 2)

theorem sound_congr {s t : State} (h : t.panel.repairs = s.panel.repairs) (r g : Nat) : sound t r g = sound s r g := by
  unfold sound State.rillUsed
  rw [h]

/-- With no new faults both ends keep the groups of the agreement that are sound. -/
theorem bit_agreed (s : State) (r g : Nat) :
    bit (Nat.land (s.trainMask r 1 0xFFFF []) (s.trainMask r 0 0xFFFF [])) g = (decide (g < 16) && sound s r g) := by
  have split : bit (Nat.land (s.trainMask r 1 0xFFFF []) (s.trainMask r 0 0xFFFF [])) g
    = (bit (s.trainMask r 1 0xFFFF []) g && bit (s.trainMask r 0 0xFFFF []) g) := Nat.testBit_land ..
  rw [split, bit_trainMask, bit_trainMask]
  by_cases small : g < 16
  · have full : bit 0xFFFF g = true := by
      have all : ∀ g : Fin 16, bit 0xFFFF g = true := by decide
      exact all ⟨g, small⟩
    simp only [small, full, faultsIn, sound, List.filter_nil, List.foldl_nil, Nat.add_zero, decide_true, Bool.true_and]
    rw [Bool.decide_and, Bool.and_comm]
    rfl
  · simp [small]

/-- A mask of sound groups trains to itself. -/
theorem trainMask_sound {s : State} {r d m : Nat} (hd : d = 0 ∨ d = 1) (h : ∀ g, bit m g = (decide (g < 16) && sound s r g)) :
    s.trainMask r d m [] = m := by
  refine Nat.eq_of_testBit_eq fun g => ?_
  have trained := bit_trainMask s r d m [] g
  have here := h g
  refine trained.trans (Eq.trans ?_ here.symm)
  rw [here]
  cases low : decide (g < 16)
  · rfl
  cases ok : sound s r g
  · rfl
  · have both := of_decide_eq_true ok
    rcases hd with rfl | rfl
    · exact decide_eq_true both.1
    · exact decide_eq_true both.2

/-- An attempt that finds both ends on the agreement ends the handshake there. -/
theorem trainingStep_sound {s : State} {r : Nat} (hr : r < 2 ^ 24) (shaking : (s.rill r).shaking = true)
    (agreed : ∀ g, bit (s.rill r).agreed g = (decide (g < 16) && sound s r g)) :
    let t := trainingStep s r []
    t.panel.repairs = s.panel.repairs ∧ (t.rill r).lower = (s.rill r).agreed ∧ InService (t.rill r) := by
  have step : trainingStep s r [] = s.endHandshake r (s.rill r).agreed 0 := by
    unfold trainingStep
    simp only [shaking, not_true, if_false, steer_nil, trainMask_sound (.inr rfl) agreed, trainMask_sound (.inl rfl) agreed, if_true]
  rw [step]
  obtain ⟨_, inService, here⟩ := trains_endHandshake hr s (s.rill r).agreed 0
  refine ⟨(endHandshake_follows hr s (s.rill r).agreed 0).repairs, ?_, inService⟩
  rw [here]

/-- The rill as the interconnect test leaves it, before the handshake trains (R351). -/
def testedRill (s : State) (r : Nat) (t : RillTest) : State :=
  let a := s.trainMask r 1 0xFFFF t.faults
  let b := s.trainMask r 0 0xFFFF t.faults
  ((s.steer r 0xFFFF t.faults).setRill r { lower := a, upper := b, shaking := true, agreed := Nat.land a b }).bump32 P.rillRetrains r 1

theorem trainRill_eq (s : State) (r : Nat) (t : RillTest) :
    let v := trainingStep (trainingStep (testedRill s r t) r (nth t.attempts 0 [])) r (nth t.attempts 1 [])
    s.trainRill r t = v ∨ ∃ x, s.trainRill r t = v.dueSignature x := by
  unfold State.trainRill
  dsimp only
  split
  · exact .inl rfl
  · exact .inr ⟨_, rfl⟩

theorem trains_testedRill {r : Nat} (hr : r < 2 ^ 24) (s : State) (t : RillTest) :
    Trains r s (testedRill s r t) ∧ ((testedRill s r t).rill r).shaking = true ∧ ((testedRill s r t).rill r).fails = 0 := by
  obtain ⟨steered, _⟩ := trains_steer r s 0xFFFF t.faults
  unfold testedRill
  dsimp only
  generalize s.steer r 0xFFFF t.faults = v at steered
  refine ⟨(steered.trans (.setRill r v _)).trans ⟨.setReg (by decide) hr _ _, fun _ _ => rfl⟩, ?_⟩
  exact (congrArg (fun x : Rill => x.shaking = true ∧ x.fails = 0) (rill_setRill_same v r _)).mpr ⟨rfl, rfl⟩

/-- R351: at power-up the handshake ends with both ends on one mask. -/
theorem trains_trainRill {r : Nat} (hr : r < 2 ^ 24) (s : State) (t : RillTest) :
    Trains r s (s.trainRill r t) ∧ InService ((s.trainRill r t).rill r) := by
  obtain ⟨tested, shaking, fresh⟩ := trains_testedRill hr s t
  have whole : let v := trainingStep (trainingStep (testedRill s r t) r (nth t.attempts 0 [])) r (nth t.attempts 1 [])
      Trains r s v ∧ InService (v.rill r) := by
    dsimp only
    generalize testedRill s r t = u at tested shaking fresh
    obtain ⟨first, _, ends⟩ := trainingStep_cases hr u (nth t.attempts 0 [])
    generalize trainingStep u r (nth t.attempts 0 []) = v at first ends
    obtain ⟨second, still, ends'⟩ := trainingStep_cases hr v (nth t.attempts 1 [])
    refine ⟨(tested.trans first).trans second, ?_⟩
    have notNew : (u.rill r).shaking ≠ false := by rw [shaking]; decide
    rcases ends with settled | ⟨_, failed, shakes⟩ | idle
    · rw [still settled.1]
      exact settled
    · rcases ends' with settled | ⟨none, _⟩ | idle
      · exact settled
      · exact absurd (failed.symm.trans none) (by decide)
      · exact absurd (shakes.symm.trans idle) (by decide)
    · exact absurd idle notNew
  dsimp only at whole
  have eq := trainRill_eq s r t
  dsimp only at eq
  generalize trainingStep (trainingStep (testedRill s r t) r (nth t.attempts 0 [])) r (nth t.attempts 1 []) = v at whole eq
  rcases eq with eq | ⟨x, eq⟩ <;> rw [eq]
  · exact whole
  · exact ⟨whole.1.trans ⟨.dueSignature _ v x, fun _ _ => rfl⟩, whole.2⟩

/-- R341: with no new faults a rill comes up on its sound groups. -/
theorem trainRill_sound {r : Nat} (hr : r < 2 ^ 24) (s : State) (t : RillTest) (faults : t.faults = []) (attempts : t.attempts = []) :
    (s.trainRill r t).panel.repairs = s.panel.repairs
      ∧ ∀ g, bit ((s.trainRill r t).rill r).mask g = (decide (g < 16) && sound s r g) := by
  have repairs : (testedRill s r t).panel.repairs = s.panel.repairs := by
    unfold testedRill
    rw [faults, steer_nil]
    rfl
  have agreed : ∀ g, bit ((testedRill s r t).rill r).agreed g = (decide (g < 16) && sound s r g) := by
    intro g
    rw [← bit_agreed]
    unfold testedRill
    rw [faults]
    exact congrArg (fun x : Rill => bit x.agreed g) (rill_setRill_same _ r _)
  obtain ⟨_, shaking, _⟩ := trains_testedRill hr s t
  have eq := trainRill_eq s r t
  dsimp only at eq
  rw [attempts] at eq
  generalize testedRill s r t = u at repairs agreed shaking eq
  obtain ⟨same, lower, settled⟩ := trainingStep_sound hr shaking (fun g => (agreed g).trans (congrArg (_ && ·) (sound_congr repairs r g).symm))
  have first : nth ([] : List (List RillFault)) 0 [] = [] := rfl
  have second : nth ([] : List (List RillFault)) 1 [] = [] := rfl
  rw [first, second] at eq
  generalize trainingStep u r [] = v at same lower settled eq
  have still : trainingStep v r [] = v := (trainingStep_cases hr v []).2.1 settled.1
  rw [still] at eq
  have ends : ∀ w : State, w.panel = v.panel → w.panel.repairs = s.panel.repairs
      ∧ ∀ g, bit (w.rill r).mask g = (decide (g < 16) && sound s r g) := by
    intro w panel
    refine ⟨panel ▸ same.trans repairs, fun g => ?_⟩
    rw [rill_congr (congrArg Panel.rills panel), Rill.mask, ← settled.2, lower]
    exact (Nat.testBit_land ..).trans ((Bool.and_self _).trans (agreed g))
  rcases eq with eq | ⟨x, eq⟩ <;> rw [eq]
  · exact ends v rfl
  · exact ends _ rfl

end Sys2Proof.PanelLaws

/-! PROOF. Entering PANEL (R349 to R353, R382): the slot maps are loaded and the rills come up. -/

namespace Sys2Proof.PanelLaws

open Sys2Proof.Machine Sys2Proof.Claims Sys2Proof.RecordLaws Sys2Proof.StoreTileLaws Sys2Proof.WorkLaws Sys2Proof.FlashLaws

/-- Work on the panel that leaves the repairs found in the field. -/
structure Boards (ps : List Nat) (s t : State) : Prop where
  mends : Mends ps s t
  repairs : t.panel.repairs = s.panel.repairs
  rills : t.panel.rills = s.panel.rills

namespace Boards

variable {ps : List Nat} {s t u : State}

theorem refl (ps : List Nat) (s : State) : Boards ps s s := ⟨.refl .., rfl, rfl⟩

theorem trans (h : Boards ps s t) (g : Boards ps t u) : Boards ps s u := ⟨h.mends.trans g.mends, g.repairs.trans h.repairs, g.rills.trans h.rills⟩

theorem ite {c : Prop} [Decidable c] (h : Boards ps s t) (g : Boards ps s u) : Boards ps s (if c then t else u) := by
  split <;> assumption

theorem foldl {α : Type} {f : State → α → State} {xs : List α} (hf : ∀ x ∈ xs, ∀ v, Boards ps v (f v x)) (s : State) :
    Boards ps s (xs.foldl f s) := by
  induction xs generalizing s with
  | nil => exact refl ps s
  | cons x xs ih => exact (hf x (List.mem_cons_self ..) s).trans (ih (fun y hy => hf y (List.mem_cons_of_mem _ hy)) _)

theorem of_tends (h : Tends ps s t) : Boards ps s t := ⟨.of_tends h, congrArg Panel.repairs h.panel, congrArg Panel.rills h.panel⟩

theorem of_records (h : Records ps s t) : Boards ps s t := of_tends (.of_records h)

theorem mono {qs : List Nat} (hs : ps ⊆ qs) (h : Boards ps s t) : Boards qs s t := ⟨h.mends.mono hs, h.repairs, h.rills⟩

theorem setPanel (ps : List Nat) (s : State) {x : Panel} (h : s.panel.fieldDirty = true → x.fieldDirty = true)
    (repairs : x.repairs = s.panel.repairs) (rills : x.rills = s.panel.rills) : Boards ps s { s with panel := x } := ⟨.setPanel ps s h, repairs, rills⟩

theorem raiseEvent (hp : eventRegs ⊆ ps) {cls : Nat} (hc : cls < 2 ^ 24) (s : State) (code source d0 d1 : Nat) :
    Boards ps s (s.raiseEvent cls code source d0 d1) := of_records (.raiseEvent hp hc s ..)

/-- R355. -/
theorem reportCapacity (hc : P.capacityState ∈ ps) (he : eventRegs ⊆ ps) {b : Nat} (hb : b < 2 ^ 24) (s : State) : Boards ps s (s.reportCapacity b) := by
  have told : ∀ v : State, Boards ps v
      (({ v with panel := { v.panel with unscreened := b :: v.panel.unscreened } } : State).raiseEvent 7 0x14 (srcBase b) 0 0) := fun v =>
    (setPanel ps v (x := { v.panel with unscreened := b :: v.panel.unscreened }) id rfl rfl).trans (raiseEvent he (by decide) _ ..)
  unfold State.reportCapacity
  exact (of_records (.setReg hc hb s _)).trans (ite (told _) (refl ..))

theorem dueSignature (ps : List Nat) (s : State) (x : SigInfo) : Boards ps s (s.dueSignature x) := of_records ⟨rfl, .of_params _ rfl⟩

theorem setFlash (ps : List Nat) (s : State) (x : Flash) : Boards ps s { s with flash := x } := ⟨.setFlash ps s x, rfl, rfl⟩

theorem putTile (ps : List Nat) (s : State) (i : Nat) (t : Tile) : Boards ps s (s.putTile i t) :=
  ⟨⟨rfl, fun c => ⟨c.1, Sparse.wf_put _ _ c.2.1, c.2.2⟩, fun _ _ _ _ _ => rfl, id⟩, rfl, rfl⟩

theorem markPoison (ps : List Nat) (s : State) (x : Nat) : Boards ps s (s.markPoison x) := by
  have refreshed : ∀ v : State, Boards ps v (v.refreshLu x) := by
    intro v
    unfold State.refreshLu
    split
    · exact refl ..
    · exact foldl (fun _ _ w => putTile ps w ..) _
  exact trans (setFlash ps s _) (refreshed (s.setLu x { s.lu x with written := true, poisoned := true }))

theorem of_flashes (ps : List Nat) (h : Flashes s t) : Boards ps s t := by
  unfold Flashes at h
  rw [h]
  exact setFlash ps s _

theorem programLu (hp : P.discardedWrites ∈ ps) (s : State) (x dat : Nat) :
    Boards ps s (match s.programLu x dat with
      | (true, s) => s
      | (false, s) => (s.markPoison x).bump64 P.discardedWrites 0 1) := by
  have programmed := of_flashes ps (Flashes.programLu s x dat)
  generalize s.programLu x dat = y at programmed
  obtain ⟨_ | _, v⟩ := y
  · exact programmed.trans ((markPoison ps v x).trans (of_records (.setReg hp (by decide) _ _)))
  · exact programmed

theorem rebuildStripes (hp : P.discardedWrites ∈ ps) (s : State) (lost : List Nat) : Boards ps s (s.rebuildStripes lost) := by
  unfold State.rebuildStripes
  refine foldl (fun d _ v => ?_) s
  refine ite (refl ..) ((of_flashes ps (Flashes.closeStripe v d)).trans (foldl (fun x _ w => ?_) _))
  refine ite (markPoison ..) ((programLu hp w x.1 x.2.1).trans ?_)
  exact refl ..

theorem mapOutChannel (hp : eventRegs ⊆ ps) (s : State) (ch cause : Nat) : Boards ps s (s.mapOutChannel ch cause) := by
  unfold State.mapOutChannel
  exact ite (refl ..) ((setFlash ps s _).trans ((raiseEvent hp (by decide) _ ..).trans (dueSignature ..)))

end Boards

/-- The screen records of the positions (Table 16-4). -/
def screenRegs : List Nat := (List.range 72).map (P.screenRecord + ·)

/-- What follows new slot maps: gears, capacity and events (R287, R355). -/
def boardRegs : List Nat := gearRegs ++ P.capacityState :: eventRegs

/-- What loading the slot maps writes. -/
def mapRegs : List Nat := (List.range 8).map (P.slotMap + ·) ++ screenRegs ++ boardRegs

theorem bits_setBits_low (x v : Nat) (h : v < 8) : bits (setBits x 0 3 v) 0 3 = v := by
  simp only [bits, setBits, Nat.shiftRight_eq_div_pow]
  omega

/-- The state of a position once its record was written among the others, RETIRED where the list retires it (R353). -/
theorem posState_loaded (f : FieldState) {retired : List Nat} {p : Nat} (hp : retired.contains p = true) (xs : List Nat) {s : State}
    (can : Sparse.wf paramDefault s.params = true) (h : p ∈ xs ∨ s.posState p = 3) :
    (xs.foldl (fun s p => s.setVal (P.screenRecord + p) (setBits (Sparse.get zeros f.records p) 0 3 (s.mapState retired p))) s).posState p = 3 := by
  induction xs generalizing s with
  | nil => exact h.resolve_left (List.not_mem_nil)
  | cons x xs ih =>
    refine ih (Sparse.wf_put _ _ can) ?_
    by_cases here : p = x
    · refine .inr ?_
      rw [← here, State.posState, State.screenRec, State.val_setVal_same, State.mapState, if_pos hp]
      exact bits_setBits_low _ 3 (by decide)
    · refine (h.imp (fun m => (List.mem_cons.1 m).resolve_left here) fun old => ?_)
      rw [State.posState, State.screenRec]
      refine (congrArg (bits · 0 3) (State.reg_setReg_other s _ can ?_)).trans old
      unfold pkey
      omega

/-- R11 to R14, R353: the slot maps and screen records written, before the gears and the capacity follow. -/
def mapped (s : State) (f : FieldState) (retired : List Nat) : State :=
  let s := (List.range 8).foldl (fun s b => s.setVal (P.slotMap + b) (slotMapEntry b (nth f.spares b 0xF) retired)) s
  (List.range 72).foldl (fun s p =>
    s.setVal (P.screenRecord + p) (setBits (Sparse.get zeros f.records p) 0 3 (s.mapState retired p))) s

theorem records_slotMaps (f : FieldState) (retired : List Nat) (s : State) : Records mapRegs s
    ((List.range 8).foldl (fun s b => s.setVal (P.slotMap + b) (slotMapEntry b (nth f.spares b 0xF) retired)) s) :=
  .foldl (fun b hb v => .setVal (List.mem_append_left _ (List.mem_append_left _ (List.mem_map.2 ⟨b, hb, rfl⟩))) v _) s

theorem records_mapped (f : FieldState) (retired : List Nat) (s : State) : Records mapRegs s (mapped s f retired) := by
  unfold mapped
  refine Records.trans (records_slotMaps f retired s) ?_
  generalize (List.range 8).foldl _ s = v
  exact .foldl (fun p hp w => .setVal (List.mem_append_left _ (List.mem_append_right _ (List.mem_map.2 ⟨p, hp, rfl⟩))) w _) v

theorem posState_mapped (f : FieldState) {retired : List Nat} {s : State} (can : Canonical s) {p : Nat} (hp : p < 72)
    (gone : retired.contains p = true) : (mapped s f retired).posState p = 3 :=
  posState_loaded f gone _ ((records_slotMaps f retired s).only.wf can.1) (.inl (List.mem_range.2 hp))

/-- R11 to R14, R351 to R353: the maps loaded, in two parts. -/
theorem boards_loadMaps (s : State) (f : FieldState) (bad : List Nat) :
    let retired := f.retired ++ bad.eraseDups.filter fun p => !f.retired.contains p
    Boards boardRegs (mapped s f retired) (s.loadMaps f bad) := by
  have events : eventRegs ⊆ boardRegs := by decide
  have gears : gearRegs ⊆ boardRegs := by decide
  have capacity : P.capacityState ∈ boardRegs := by decide
  unfold State.loadMaps
  dsimp only
  have known : (List.range 72).foldl (fun s p => s.setVal (P.screenRecord + p) (setBits (Sparse.get zeros f.records p) 0 3 (s.mapState
      (f.retired ++ bad.eraseDups.filter fun p => !f.retired.contains p) p)))
      ((List.range 8).foldl (fun s b => s.setVal (P.slotMap + b) (slotMapEntry b (nth f.spares b 0xF)
        (f.retired ++ bad.eraseDups.filter fun p => !f.retired.contains p))) s)
    = mapped s f (f.retired ++ bad.eraseDups.filter fun p => !f.retired.contains p) := rfl
  rw [known]
  generalize mapped s f _ = v
  refine Boards.trans ?_ (.foldl (fun b hb w => ?_) _)
  · refine Boards.trans ?_ (.foldl (fun b hb w => ?_) _)
    · refine Boards.trans ?_ (.of_tends ((tends_regear _).mono gears))
      exact .setPanel boardRegs v (fun dirty => by rw [dirty, Bool.true_or]) rfl rfl
    · have small := List.mem_range.1 hb
      exact .of_records (.setReg capacity (by omega) w _)
  · have small : b < 2 ^ 24 := by have := List.mem_range.1 hb; omega
    refine Boards.trans ?_ (.foldl (fun _ _ x => .dueSignature _ x _) _)
    exact Boards.trans (.foldl (fun _ _ x => .raiseEvent events (by decide) x ..) w) (.reportCapacity capacity events small _)

/-- R10: a position that the test retires is retired. -/
theorem contains_retired {f : FieldState} {bad : List Nat} {p : Nat} (h : p ∈ bad) :
    (f.retired ++ bad.eraseDups.filter fun p => !f.retired.contains p).contains p = true := by
  rw [List.contains_iff_mem, List.mem_append]
  by_cases old : p ∈ f.retired
  · exact .inl old
  · refine .inr (List.mem_filter.2 ⟨List.mem_eraseDups.2 h, ?_⟩)
    simpa using old

end Sys2Proof.PanelLaws

/-! PROOF. ENTER_PANEL as a whole (R349 to R353, R382). -/

namespace Sys2Proof.PanelLaws

open Sys2Proof.Machine Sys2Proof.Claims Sys2Proof.RecordLaws Sys2Proof.StoreTileLaws Sys2Proof.WorkLaws

/-- No test of a rill found a fault. -/
def NoFaults (ts : List RillTest) : Prop := ∀ r, (nth ts r { faults := [], attempts := [] }).faults = [] ∧ (nth ts r { faults := [], attempts := [] }).attempts = []

theorem noFaults {ts : List RillTest} (h : ∀ y ∈ ts, y.faults = [] ∧ y.attempts = []) : NoFaults ts := by
  intro r
  by_cases inside : r < ts.length
  · rw [nth, List.getD_eq_getElem _ _ inside]
    exact h _ (List.getElem_mem inside)
  · rw [nth, List.getD_eq_default _ _ (Nat.le_of_not_lt inside)]
    exact ⟨rfl, rfl⟩

/-- The first `n` rills come up (R341, R351). -/
structure ComesUp (ts : List RillTest) (n : Nat) (s t : State) : Prop where
  mends : Mends rillRegs s t
  masks : ∀ k, k < n → InService (t.rill k)
  repairs : NoFaults ts → t.panel.repairs = s.panel.repairs
  sound : NoFaults ts → ∀ k, k < n → ∀ g, bit (t.rill k).mask g = (decide (g < 16) && sound s k g)

theorem comesUp (ts : List RillTest) {n : Nat} (hn : n ≤ 10) (s : State) :
    ComesUp ts n s ((List.range n).foldl (fun s r => s.trainRill r (nth ts r { faults := [], attempts := [] })) s) := by
  induction n with
  | zero => exact ⟨.refl .., fun k hk => absurd hk (Nat.not_lt_zero k), fun _ => rfl, fun _ k hk => absurd hk (Nat.not_lt_zero k)⟩
  | succ n ih =>
    rw [List.range_succ, List.foldl_append]
    have before := ih (by omega)
    generalize (List.range n).foldl _ s = v at before
    have small : n < 2 ^ 24 := by omega
    obtain ⟨trained, settled⟩ := trains_trainRill small v (nth ts n { faults := [], attempts := [] })
    have same : ∀ k, k < n → (v.trainRill n (nth ts n { faults := [], attempts := [] })).rill k = v.rill k := fun k hk =>
      trained.others k (Nat.ne_of_lt hk)
    refine ⟨before.mends.trans trained.mends, fun k hk => ?_, fun none => ?_, fun none k hk g => ?_⟩
    · rcases Nat.lt_succ_iff_lt_or_eq.1 hk with old | rfl
      · exact (same k old).symm ▸ before.masks k old
      · exact settled
    · exact (trainRill_sound small v _ (none n).1 (none n).2).1.trans (before.repairs none)
    · rcases Nat.lt_succ_iff_lt_or_eq.1 hk with old | rfl
      · exact (congrArg (fun x : Rill => bit x.mask g) (same k old)).trans (before.sound none k old g)
      · rw [← sound_congr (before.repairs none)]
        exact (trainRill_sound small v _ (none k).1 (none k).2).2 g

/-- Bonds are steered; with no new fault nothing is (R351). -/
theorem mends_steerBonds (ps : List Nat) (s : State) (fs : List (Nat × Nat)) (count : Nat → Nat → Nat) : Mends ps s (s.steerBonds fs count) := by
  unfold State.steerBonds
  exact .foldl (fun x _ v => .ite ((Steers.addRepair ..).mends ps |>.trans ((Steers.addRepair ..).mends ps)) (.refl ..)) s

/-- The module once its boot state is PANEL and a bad field state is dropped (R352). -/
def fieldRead (s : State) (x : PanelTest) : State := if x.fieldBad then (s.enterBoot 2).dropField else s.enterBoot 2

/-- The module with its field state loaded, before the tests' results. -/
def panelEntered (s : State) (x : PanelTest) : State :=
  let v := fieldRead s x
  { v with panel := { v.panel with repairs := v.fieldState.repairs, fieldDirty := x.fieldBad } }

/-- Registers that the tests' results may change. -/
def testRegs : List Nat := P.discardedWrites :: mapRegs ++ rillRegs

/-- What entering PANEL leaves (R349 to R353). -/
structure Tested (x : PanelTest) (v t : State) : Prop where
  mends : Mends testRegs v t
  retired : ∀ p ∈ x.badPositions, t.posState p = 3
  masks : ∀ r, r < 10 → InService (t.rill r)
  sound : NoFaults x.rills → x.bondFaults = [] → ∀ r, r < 10 → ∀ g, bit (t.rill r).mask g = (decide (g < 16) && sound v r g)

theorem not_mem_screenRegs {p : Nat} (hp : p < 72) : P.screenRecord + p ∉ rillRegs ∧ P.screenRecord + p ∉ boardRegs ∧ P.screenRecord + p ≠ P.discardedWrites := by
  have all : ∀ p : Fin 72, P.screenRecord + p.val ∉ rillRegs ∧ P.screenRecord + p.val ∉ boardRegs ∧ P.screenRecord + p.val ≠ P.discardedWrites := by
    decide
  exact all ⟨p, hp⟩

theorem posState_congr {s t : State} {p : Nat} (h : t.val (P.screenRecord + p) = s.val (P.screenRecord + p)) : t.posState p = s.posState p := by
  rw [State.posState, State.screenRec, h, State.posState, State.screenRec]

theorem can_panelEntered {s : State} (can : Canonical s) (x : PanelTest) : Canonical (panelEntered s x) := by
  obtain ⟨params, rest⟩ := can
  have written : Sparse.wf paramDefault (s.enterBoot 2).params = true := Sparse.wf_put _ _ (Sparse.wf_put _ _ params)
  unfold panelEntered fieldRead
  cases x.fieldBad
  · exact ⟨written, rest⟩
  · exact ⟨written, rest⟩

theorem tested_enterPanel {s : State} (can : Canonical s) (boot : s.boot = 1) (x : PanelTest) :
    Tested x (panelEntered s x) (enterPanelStep s x) := by
  have canV := can_panelEntered can x
  unfold enterPanelStep
  rw [if_neg (not_not.2 boot)]
  extract_lets booted read f panel v groups count cut c d u flash w y
  have start : panelEntered s x = v := rfl
  rw [start] at canV ⊢
  clear_value v f
  -- the bonds are steered
  have steered := mends_steerBonds testRegs v groups count
  have unsteered : x.bondFaults = [] → v.steerBonds groups count = v := fun h => by
    have none : groups = [] := by simp only [groups, h, List.map_nil, List.eraseDups_nil]
    rw [none]
    rfl
  have loaded : c = (v.steerBonds groups count).loadMaps f (cut ++ x.badPositions.map (·.val)) := rfl
  generalize v.steerBonds groups count = a at steered unsteered loaded
  have canA := steered.can canV
  -- the maps are loaded
  have written := records_mapped f (f.retired ++ (cut ++ x.badPositions.map (·.val)).eraseDups.filter fun p => !f.retired.contains p) a
  have gone : ∀ p ∈ x.badPositions, (mapped a f (f.retired ++ (cut ++ x.badPositions.map (·.val)).eraseDups.filter fun p => !f.retired.contains p)).posState p = 3 :=
    fun p hp => posState_mapped _ canA p.isLt (contains_retired (List.mem_append_right _ (List.mem_map_of_mem hp)))
  have followed := boards_loadMaps a f (cut ++ x.badPositions.map (·.val))
  dsimp only at followed
  rw [← loaded] at followed
  clear_value c
  generalize mapped a f _ = b at written gone followed
  have canB := written.can canA
  have canC := followed.mends.can canB
  -- the rills come up
  have up : ComesUp x.rills 10 c d := comesUp x.rills (Nat.le_refl 10) c
  clear_value d
  have canD := up.mends.can canC
  -- routes, channels and stripes
  have routed : Follows d u := Follows.setRoutes d
  clear_value u
  have canU := routed.mends.can canD
  have ended : Boards (P.discardedWrites :: rillRegs) u (y.rebuildStripes x.lostUnits) :=
    ((Boards.setFlash _ u _).trans (.foldl (fun _ _ z => .mapOutChannel (by decide) z _ 1) w)).trans (.rebuildStripes (by decide) y _)
  generalize y.rebuildStripes x.lostUnits = t at ended
  have rills : ∀ r, t.rill r = d.rill r := rill_congr (ended.rills.trans routed.rills)
  refine ⟨?_, fun p hp => ?_, fun r hr => (rills r).symm ▸ up.masks r hr, fun clean sound r hr g => ?_⟩
  · refine steered.trans (((Mends.of_records written).mono ?_).trans ((followed.mends.mono ?_).trans ((up.mends.mono ?_).trans
      ((routed.mends.mono ?_).trans (ended.mends.mono ?_)))))
    all_goals decide
  · obtain ⟨rill, board, other⟩ := not_mem_screenRegs p.isLt
    have after : t.val (P.screenRecord + p) = b.val (P.screenRecord + p) := by
      rw [ended.mends.val canU (List.not_mem_cons_of_ne_of_not_mem other rill), routed.mends.val canD rill, up.mends.val canC rill,
        followed.mends.val canB board]
    exact (posState_congr after).trans (gone p hp)
  · have repairs : c.panel.repairs = v.panel.repairs := by
      rw [followed.repairs, congrArg Panel.repairs written.panel, unsteered sound]
    rw [rills r, up.sound clean r hr g, sound_congr repairs]

end Sys2Proof.PanelLaws

/-! PROOF. The boot states from FIRMWARE to READY (R382 to R385). -/

namespace Sys2Proof.BootLaws

open Sys2Proof.Machine Sys2Proof.Claims Sys2Proof.StoreTileLaws Sys2Proof.RecordLaws Sys2Proof.PanelLaws

/-- What a fold makes of one observation, where each step changes the observation at its own place alone. -/
theorem obs_foldl {β : Type} {f : State → Nat → State} {inv : State → Prop} {obs : Nat → State → β} {g : Nat → β → β}
    (keep : ∀ v k, inv v → inv (f v k)) (same : ∀ v k, inv v → obs k (f v k) = g k (obs k v))
    (other : ∀ v j k, inv v → j ≠ k → obs j (f v k) = obs j v) (xs : List Nat) (nodup : xs.Nodup) {s : State} (hs : inv s) (k : Nat) :
    obs k (xs.foldl f s) = if k ∈ xs then g k (obs k s) else obs k s := by
  induction xs generalizing s with
  | nil => rfl
  | cons x xs ih =>
    obtain ⟨fresh, nodup⟩ := List.nodup_cons.1 nodup
    rw [List.foldl_cons, ih nodup (keep s x hs)]
    by_cases here : k = x
    · subst here
      rw [if_neg fresh, if_pos (List.mem_cons_self ..), same s k hs]
    · rw [other s k x hs here]
      simp only [List.mem_cons, here, false_or]

/-- R382, R385: the boot state and its time. -/
theorem enterBoot_reads {s : State} (wf : Sparse.wf paramDefault s.params = true) {b : Nat} (hb : b < 2 ^ 24) :
    let t := s.enterBoot b
    Records [P.bootState, P.bootTimes] s t ∧ t.boot = b
      ∧ t.reg P.bootTimes (b - 1) = min (s.clock.now / 9000 + s.fw.release) 0xFFFFFFFF := by
  refine ⟨.trans (.setVal (by decide) s b) (.setReg (by decide) (by omega) _ _), ?_, State.reg_setReg_same ..⟩
  refine (State.reg_setReg_other _ _ (Sparse.wf_put _ _ wf) ?_).trans (State.val_setVal_same ..)
  exact pkey_ne (by omega) (by decide) (.inl (by decide : P.bootState ≠ P.bootTimes))

/-- What a port that is formed starts to train as. -/
def trainedPort (s : State) (k : Nat) : Nat := if s.portFed k ∧ s.supply.refGood then 2 else 1

theorem portMapIn_records {ps : List Nat} {s v : State} (can : Canonical s) (r : Records ps s v) (h : P.portMap ∉ ps) {g : Nat} (hg : g < 2 ^ 24) :
    v.portMapIn g = s.portMapIn g := r.reg can h hg

theorem portFormed_congr {a b : Nat → Nat} {k : Nat} (h : a (k / 2) = b (k / 2)) : portFormed a k = portFormed b k := by
  unfold portFormed
  dsimp only
  rw [h]

theorem portFed_records {ps : List Nat} {s v : State} (can : Canonical s) (r : Records ps s v) (h : P.portMap ∉ ps) (k : Nat) :
    v.portFed k = s.portFed k := by
  have map : ∀ g < 2 ^ 24, v.portMapIn g = s.portMapIn g := fun g hg => portMapIn_records can r h hg
  have rills : ∀ n, v.rill n = s.rill n := rill_congr (congrArg Panel.rills r.panel)
  unfold State.portFed fedPorts
  simp only [List.all_cons, List.all_nil, rills, map 2 (by decide), map 8 (by decide), map 14 (by decide), map 20 (by decide)]

/-- R212, R213: each formed port starts to train. -/
theorem records_trainPorts (s : State) : Records [P.linkState] s s.trainPorts :=
  .foldl (fun k hk v => .ite (.setReg (by decide) (by have := List.mem_range.1 hk; omega) v _) (.refl ..)) s

theorem reg_trainPorts {s : State} (can : Canonical s) {k : Nat} (hk : k < 48) (formed : portFormed s.portMapIn k = true) :
    s.trainPorts.reg P.linkState k = trainedPort s k := by
  have known : ∀ v, Records [P.linkState] s v → ∀ j, j < 48 → portFormed v.portMapIn j = portFormed s.portMapIn j
      ∧ trainedPort v j = trainedPort s j := fun v r j hj =>
    ⟨portFormed_congr (portMapIn_records can r (by decide) (by omega)), by rw [trainedPort, portFed_records can r (by decide), r.supply, trainedPort]⟩
  have fold := obs_foldl (β := Nat) (s := s) (xs := List.range 48) (k := k)
    (f := fun s k => if k < 48 then (if portFormed s.portMapIn k then s.setReg P.linkState k (trainedPort s k) else s) else s)
    (inv := Records [P.linkState] s) (obs := fun k v => v.reg P.linkState k)
    (g := fun k old => if k < 48 ∧ portFormed s.portMapIn k then trainedPort s k else old)
    (fun v k r => r.trans ?_) (fun v k r => ?_) (fun v j k r hj => ?_) List.nodup_range (.refl ..)
  · rw [if_pos (List.mem_range.2 hk), if_pos ⟨hk, formed⟩] at fold
    refine Eq.trans (congrArg (fun t : State => t.reg P.linkState k) ?_) fold
    refine List.foldl_ext _ _ _ fun v j hj => ?_
    rw [if_pos (List.mem_range.1 hj)]
    rfl
  · by_cases small : k < 48
    · rw [if_pos small]
      exact .ite (.setReg (by decide) (by omega) v _) (.refl ..)
    · rw [if_neg small]
      exact .refl ..
  · by_cases small : k < 48
    · simp only [small, if_true, true_and, (known v r k small).1, (known v r k small).2]
      split
      · exact State.reg_setReg_same ..
      · rfl
    · simp only [small, if_false, false_and]
  · split
    · split
      · refine State.reg_setReg_other _ _ (r.can can).1 ?_
        unfold pkey
        omega
      · rfl
    · rfl

/-- What the start of the host's functions leaves (R302, R317): the host's books and what leaves alone differ. -/
def Hosts (s t : State) : Prop := t = { s with host := t.host, out := t.out }

theorem hosts_runFunctions (fns : List Nat) (s : State) : Hosts s (fns.foldl (fun s fn =>
      match (s.hostFn fn).enable, (s.hostFn fn).again with
      | true, some (_, observed) => s.runFunction fn observed
      | _, _ => s) s) := by
  have trans : ∀ {a b c : State}, Hosts a b → Hosts b c → Hosts a c := by
    intro a b c h g
    unfold Hosts at h g ⊢
    rw [g, h]
  have one : ∀ (v : State) fn observed, Hosts v (v.runFunction fn observed) := by
    intro v fn observed
    unfold State.runFunction
    dsimp only
    split <;> rfl
  induction fns generalizing s with
  | nil => rfl
  | cons fn fns ih =>
    rw [List.foldl_cons]
    refine trans ?_ (ih _)
    split
    · exact one ..
    · rfl

/-- The tier map and its tiles alone may differ. -/
def Restores (s t : State) : Prop := t = { s with mem := { s.mem with pages := t.mem.pages, tiles := t.mem.tiles } }

theorem restores_restoreEntries (s : State) : Restores s s.restoreEntries := by
  have trans : ∀ {a b c : State}, Restores a b → Restores b c → Restores a c := by
    intro a b c h g
    unfold Restores at h g ⊢
    rw [g, h]
  have tiles : ∀ (p e : Nat) (xs : List Nat) (v : State), Restores v (xs.foldl (fun s t => s.putTile (64 * p + t) (s.bwTile e (64 * p + t))) v) := by
    intro p e xs
    induction xs with
    | nil => exact fun v => rfl
    | cons x xs ih => exact fun v => trans (b := v.putTile _ _) rfl (ih _)
  unfold State.restoreEntries
  generalize s.flash.entries = es
  induction es generalizing s with
  | nil => rfl
  | cons kv es ih =>
    rw [List.foldl_cons]
    exact trans (trans (b := s.setPage _ _) rfl (tiles ..)) (ih _)

/-- R211: the journal checked: its index and JournalHead alone differ. -/
theorem checkJournal_rest (s : State) : s.checkJournal = { s with journal := s.checkJournal.journal, params := s.checkJournal.params } := rfl

/-- R388, R397: a confirmation writes FwStatus and the boot state. -/
structure Confirms (s t : State) : Prop where
  rest : t = { s with params := t.params, nor := t.nor, fw := t.fw }
  only : WritesOnly [P.fwStatus] s t

theorem confirms_fwDone (s : State) (code st : Nat) : Confirms s (s.fwDone code st) := ⟨rfl, .setReg (by decide) (by decide) s _⟩

theorem confirms_serviceWrite (s : State) (r : BootRec) : Confirms s (s.serviceWrite r) := by
  unfold State.serviceWrite
  split
  · exact ⟨rfl, .of_params _ rfl⟩
  · split
    · exact ⟨rfl, .of_params _ rfl⟩
    · exact ⟨rfl, .of_params _ rfl⟩

theorem confirms_confirm (s : State) : Confirms s s.confirm := by
  have confirmed : ∀ r fw code st, Confirms s (({ s.serviceWrite r with fw := fw } : State).fwDone code st) := by
    intro r fw code st
    have written := confirms_serviceWrite s r
    generalize s.serviceWrite r = v at written
    have kept : WritesOnly [P.fwStatus] v { v with fw := fw } := .of_params _ rfl
    refine ⟨?_, (written.only.trans kept).trans (.setReg (ps := [P.fwStatus]) (p := P.fwStatus) (by decide) (by decide : 0 < 2 ^ 24) { v with fw := fw } _)⟩
    rw [written.rest]
    rfl
  unfold State.confirm
  extract_lets st
  split
  · exact confirms_fwDone ..
  · split
    · exact confirms_fwDone ..
    · exact confirmed ..

end Sys2Proof.BootLaws

/-! PROOF. From qualification to READY (R382 to R385, R405). -/

namespace Sys2Proof.BootLaws

open Sys2Proof.Machine Sys2Proof.Claims Sys2Proof.StoreTileLaws Sys2Proof.RecordLaws Sys2Proof.PanelLaws

/-- A boot state of Table 18-2 is entered, whatever else. -/
def Enters (c : Instr) (b : Nat) (s : State) (Q : State → Prop) : Prop := Completes c s fun t => t.boot = b ∧ t.clock = s.clock
  ∧ t.reg P.bootTimes (b - 1) = min (s.clock.now / 9000 + s.fw.release) 0xFFFFFFFF ∧ t.supply = s.supply ∧ Q t

theorem input38_closes {s : State} {v : W32} (high : fge v.toNat 0x42180000 = true) :
    exec (.inputRisesTo38V v) s = .next { s with supply := { s.supply with
      input38 := true, closed := s.supply.closed || s.supply.mated, qualified := s.recovered v.toNat } } := by
  refine congrArg Host.Outcome.next ((if_pos high).trans ?_)
  unfold State.hotSwap State.seeInput
  simp only [high, Bool.and_true]

theorem qualifies {s : State} (mated : s.supply.mated = true) (closed : s.supply.closed = true) (qualified : s.supply.qualified = true)
    (off : s.powered = false) : Completes .qualification s fun t => t.supply = { s.supply with powering := true } ∧ t.fw.release ≤ 12000
      ∧ t.params = s.params ∧ t.nor = s.nor ∧ t.clock = s.clock ∧ SameStores s t := by
  refine ⟨_, congrArg Host.Outcome.next (if_neg (by simp [mated, closed, qualified, off])), rfl, ?_, rfl, rfl, rfl, rfl, rfl, rfl, rfl⟩
  exact Nat.le_of_lt_succ (Nat.mod_lt _ (by decide))

theorem enters_firmware {s : State} (can : Canonical s) (released : s.supply.released = true) (boot : s.boot = 0) :
    Enters .enterFirmware 1 s fun t => t.fw = { s.fw with retry := false } ∧ OnlyRegs [P.bootState, P.bootTimes] s t ∧ SameStores s t
      ∧ t.nor = s.nor := by
  obtain ⟨written, now, time⟩ := enterBoot_reads can.1 (b := 1) (by decide)
  refine ⟨{ s.enterBoot 1 with fw := { s.fw with retry := false } }, congrArg Host.Outcome.next (if_neg (by simp [released, boot])), now, written.clock,
    time, written.supply, rfl, written.regs can, written.stores, written.nor⟩

/-- ENTER_PANEL (R349 to R353). -/
theorem enters_panel {s : State} (can : Canonical s) (x : PanelTest) (boot : s.boot = 1) :
    Enters (.enterPanel x) 2 s fun t =>
      let f := (if x.fieldBad then s.dropField else s).fieldState
      let used (r d g : Nat) : Nat := min (Config.factoryRillRepairs r d g).toNat 2 + Sparse.get zeros f.repairs (rillKey r d g)
      (∀ p ∈ x.badPositions, t.posState p = 3) ∧ t.mem.pages = s.mem.pages ∧ t.pending = s.pending
      ∧ (x.fieldBad = true → t.nor.field = none ∧ t.nor.fieldDrops = s.nor.fieldDrops + 1 ∧ t.panel.fieldDirty = true)
      ∧ (∀ r, r < 10 → (t.rill r).shaking = false ∧ (t.rill r).lower = (t.rill r).upper)
      ∧ ((∀ y ∈ x.rills, y.faults = [] ∧ y.attempts = []) → x.bondFaults = [] → ∀ r g, r < 10 → g < 16 →
          bit (t.rill r).mask g = decide (used r 0 g ≤ 2 ∧ used r 1 g ≤ 2)) := by
  have tested := tested_enterPanel can boot x
  have canV := can_panelEntered can x
  obtain ⟨_, now, time⟩ := enterBoot_reads can.1 (b := 2) (by decide)
  have start : (panelEntered s x).boot = 2 ∧ (panelEntered s x).clock = s.clock
      ∧ (panelEntered s x).reg P.bootTimes 1 = min (s.clock.now / 9000 + s.fw.release) 0xFFFFFFFF
      ∧ (panelEntered s x).supply = s.supply ∧ (panelEntered s x).mem = s.mem ∧ (panelEntered s x).pending = s.pending
      ∧ (x.fieldBad = true → (panelEntered s x).nor.field = none ∧ (panelEntered s x).nor.fieldDrops = s.nor.fieldDrops + 1
        ∧ (panelEntered s x).panel.fieldDirty = true)
      ∧ (panelEntered s x).panel.repairs = (if x.fieldBad then s.dropField else s).fieldState.repairs := by
    unfold panelEntered fieldRead
    cases x.fieldBad
    · exact ⟨now, rfl, time, rfl, rfl, rfl, fun h => (by cases h), rfl⟩
    · exact ⟨now, rfl, time, rfl, rfl, rfl, fun _ => ⟨rfl, rfl, rfl⟩, rfl⟩
  refine ⟨_, rfl, ?_⟩
  generalize panelEntered s x = v at tested canV start
  generalize enterPanelStep s x = t at tested
  obtain ⟨boot', clock, times, supply, mem, pending, bad, repairs⟩ := start
  have m := tested.mends
  refine ⟨(m.val canV (by decide)).trans boot', m.clock.trans clock, (m.reg canV (by decide) (by decide)).trans times, m.supply.trans supply,
    tested.retired, m.pages.trans (congrArg Mem.pages mem), m.pending.trans pending, fun h => ?_, tested.masks, fun none bonds r g hr hg => ?_⟩
  · obtain ⟨field, drops, dirty⟩ := bad h
    exact ⟨(congrArg Nor.field m.nor).trans field, (congrArg Nor.fieldDrops m.nor).trans drops, m.dirty dirty⟩
  · rw [tested.sound (noFaults none) bonds r hr g, decide_eq_true hg, Bool.true_and, sound, State.rillUsed, State.rillUsed, repairs]

/-- ENTER_MEMORY (R382, R385). -/
theorem enters_memory {s : State} (can : Canonical s) (boot : s.boot = 2) :
    Enters .enterMemory 3 s fun t => SameStores s t ∧ t.nor = s.nor
      ∧ ∀ k, k < 48 → portFormed s.portMapIn k = true → t.reg P.linkState k = (if s.portFed k ∧ s.supply.refGood then 2 else 1) := by
  obtain ⟨written, now, time⟩ := enterBoot_reads can.1 (b := 3) (by decide)
  have run : exec .enterMemory s = .next _ := congrArg Host.Outcome.next (if_neg (not_not.2 boot))
  have booted := written.can can
  generalize s.enterBoot 3 = v at written now time run booted
  have ports := records_trainPorts v
  have link := fun k => reg_trainPorts (k := k) booted
  generalize v.trainPorts = w at ports link run
  have hosts := hosts_runFunctions (List.range 9) w
  generalize (List.range 9).foldl _ w = t at hosts run
  have params : t.params = w.params := (congrArg State.params hosts :)
  have mem : t.mem = w.mem := (congrArg State.mem hosts :)
  have same : ∀ p e, t.reg p e = w.reg p e := fun p e => State.reg_congr params p e
  obtain ⟨tiles, pages, flash, pending⟩ := WorkLaws.sameStores_trans written.stores ports.stores
  refine ⟨t, run, ?_, ?_, ?_, ?_, ⟨?_, ?_, ?_, ?_⟩, ?_, fun k hk formed => ?_⟩
  · exact (same P.bootState 0).trans ((ports.val booted (by decide)).trans now)
  · exact (congrArg State.clock hosts :).trans (ports.clock.trans written.clock)
  · exact (same ..).trans ((ports.reg booted (by decide) (by decide)).trans time)
  · exact (congrArg State.supply hosts :).trans (ports.supply.trans written.supply)
  · rw [mem, tiles]
  · rw [mem, pages]
  · exact (congrArg State.flash hosts :).trans flash
  · exact (congrArg State.pending hosts :).trans pending
  · exact (congrArg State.nor hosts :).trans (ports.nor.trans written.nor)
  · have formed' : portFormed v.portMapIn k = true :=
      (portFormed_congr (portMapIn_records can written (by decide) (by omega))).trans formed
    rw [same, link k hk formed', trainedPort, portFed_records can written (by decide), written.supply]

/-- ENTER_READY with nothing held and nothing staged (R382, R384, R198, R211, R397). -/
theorem enters_ready {s : State} (can : Canonical s) (boot : s.boot = 3) (held : s.held = []) (staged : s.mem.staged = []) :
    Enters .enterReady 4 s fun t => t.flash = s.flash ∧ t.held = []
      ∧ t.val P.journalHead = ((s.restoreEntries.checkJournal).journal.complete.getLast?.map Checkpoint.number).getD 0 := by
  have run : exec .enterReady s = .next (
      let v := (s.restoreEntries.checkJournal.enterBoot 4).applyHeldAll.settleStaged
      if v.fw.trialBoot ∧ v.val P.autoConfirm = 1 then v.confirm else v) := congrArg Host.Outcome.next (if_neg (not_not.2 boot))
  dsimp only at run
  have restored := restores_restoreEntries s
  have params : s.restoreEntries.params = s.params := (congrArg State.params restored :)
  generalize s.restoreEntries = a at restored params run
  have head : a.checkJournal.val P.journalHead = (a.checkJournal.journal.complete.getLast?.map Checkpoint.number).getD 0 := State.val_setVal_same ..
  have checked := checkJournal_rest a
  have wf : Sparse.wf paramDefault a.checkJournal.params = true := Sparse.wf_put _ _ (params ▸ can.1)
  generalize a.checkJournal = b at head checked wf run ⊢
  obtain ⟨written, now, time⟩ := enterBoot_reads wf (b := 4) (by decide)
  have wfC := written.only.wf wf
  generalize b.enterBoot 4 = c at written now time run wfC
  have bclock : b.clock = s.clock := (congrArg State.clock checked :).trans (congrArg State.clock restored :)
  have bfw : b.fw = s.fw := (congrArg State.fw checked :).trans (congrArg State.fw restored :)
  have bheld : c.held = [] := written.held.trans ((congrArg State.held checked :).trans ((congrArg State.held restored :).trans held))
  have bstaged : c.mem.staged = [] := by
    rw [written.mem, (congrArg State.mem checked :), restored]
    exact staged
  have settled : c.applyHeldAll.settleStaged = c := by
    have first : c.applyHeldAll = c := by
      unfold State.applyHeldAll
      rw [bheld]
      exact congrArg (fun h => ({ c with held := h } : State)) bheld.symm
    rw [first]
    unfold State.settleStaged State.applyStaged
    rw [bstaged]
    split
    · exact congrArg (fun q => ({ c with mem := { c.mem with staged := q } } : State)) bstaged.symm
    · rfl
  rw [settled] at run
  have confirmed : Confirms c (if c.fw.trialBoot ∧ c.val P.autoConfirm = 1 then c.confirm else c) := by
    split
    · exact confirms_confirm c
    · exact ⟨rfl, .of_params _ rfl⟩
  generalize (if c.fw.trialBoot ∧ c.val P.autoConfirm = 1 then c.confirm else c) = t at confirmed run
  have regs := confirmed.only.regs wfC
  refine ⟨t, run, ?_, ?_, ?_, ?_, ?_, ?_, ?_⟩
  · exact (regs _ _ (by decide) (by decide)).trans now
  · exact (congrArg State.clock confirmed.rest :).trans (written.clock.trans bclock)
  · rw [regs _ _ (by decide) (by decide), time, bclock, bfw]
  · exact (congrArg State.supply confirmed.rest :).trans (written.supply.trans ((congrArg State.supply checked :).trans (congrArg State.supply restored :)))
  · exact (congrArg State.flash confirmed.rest :).trans (written.flash.trans ((congrArg State.flash checked :).trans (congrArg State.flash restored :)))
  · exact (congrArg State.held confirmed.rest :).trans bheld
  · exact (regs _ _ (by decide) (by decide)).trans ((written.only.regs wf _ _ (by decide) (by decide)).trans head)

end Sys2Proof.BootLaws

namespace Sys2Proof.Claims

open Sys2Proof.Machine Sys2Proof.BootLaws

/-- Settles O31: each boot state in turn. -/
theorem powerUpRunsFromQualificationToReady : Obligations.PowerUpRunsFromQualificationToReady := by
  intro s can
  refine ⟨rfl, fun v high => input38_closes high, fun mated closed qualified off => qualifies mated closed qualified off, ?_, ?_, ?_, ?_, ?_⟩
  · intro seed powering good
    have read := released_panelReleaseStep can powering good seed
    refine ⟨_, rfl, read.supply, congrArg Clock.now read.clock, ?_, read.epoch, read.identity, read.cause, read.consumed, read.failed, read.stores⟩
    rw [State.panelTime, read.clock]
    rfl
  · exact fun released boot => enters_firmware can released boot
  · exact fun x boot => enters_panel can x boot
  · exact fun boot => enters_memory can boot
  · exact fun boot held staged => enters_ready can boot held staged

end Sys2Proof.Claims

/-! PROOF. The reference lost and found (R235, R348), and the host link that goes with it (R316). -/

namespace Sys2Proof.HostLaws

open Sys2Proof.Machine Sys2Proof.Claims Sys2Proof.StoreTileLaws Sys2Proof.RecordLaws

/-- The host's books, registers among `ps` and draws alone may differ. -/
structure Unhosts (ps : List Nat) (s t : State) : Prop where
  rest : t = { s with params := t.params, host := t.host, draws := t.draws }
  only : WritesOnly ps s t

namespace Unhosts

variable {ps : List Nat} {s t u : State}

theorem refl (ps : List Nat) (s : State) : Unhosts ps s s := ⟨rfl, .of_params _ rfl⟩

theorem trans (h : Unhosts ps s t) (g : Unhosts ps t u) : Unhosts ps s u := by
  refine ⟨?_, h.only.trans g.only⟩
  rw [g.rest, h.rest]

theorem mono {qs : List Nat} (hs : ps ⊆ qs) (h : Unhosts ps s t) : Unhosts qs s t := ⟨h.rest, WritesOnly.mono hs h.only⟩

theorem setReg {p e : Nat} (hp : p ∈ ps) (he : e < 2 ^ 24) (s : State) (v : Nat) : Unhosts ps s (s.setReg p e v) := ⟨rfl, .setReg hp he s v⟩

theorem setVal {p : Nat} (hp : p ∈ ps) (s : State) (v : Nat) : Unhosts ps s (s.setVal p v) := setReg hp (by decide) s v

theorem setHost (ps : List Nat) (s : State) (h : HostPort) : Unhosts ps s { s with host := h } := ⟨rfl, .of_params _ rfl⟩

theorem setFn (ps : List Nat) (s : State) (fn : Nat) (f : HostFn) : Unhosts ps s (s.setFn fn f) := setHost ..

theorem ite {c : Prop} [Decidable c] (h : Unhosts ps s t) (g : Unhosts ps s u) : Unhosts ps s (if c then t else u) := by
  split <;> assumption

theorem foldl {α : Type} {f : State → α → State} {xs : List α} (hf : ∀ x ∈ xs, ∀ v, Unhosts ps v (f v x)) (s : State) :
    Unhosts ps s (xs.foldl f s) := by
  induction xs generalizing s with
  | nil => exact refl ps s
  | cons x xs ih => exact (hf x (List.mem_cons_self ..) s).trans (ih (fun y hy => hf y (List.mem_cons_of_mem _ hy)) _)

theorem dropWrites (hp : P.droppedWrites ∈ ps) {fn : Nat} (hfn : fn < 9) (s : State) (q : Nat) : Unhosts ps s (s.dropWrites fn q) := by
  have small : fn < 2 ^ 24 := by omega
  unfold State.dropWrites
  extract_lets pending
  split
  · exact refl ps s
  · exact trans (t := s.draw.2) ⟨rfl, .of_params _ rfl⟩ (setReg hp small _ _)

section

variable (r : Unhosts ps s t)

include r

theorem clock : t.clock = s.clock := (congrArg State.clock r.rest :)
theorem seq : t.seq = s.seq := (congrArg State.seq r.rest :)
theorem mem : t.mem = s.mem := (congrArg State.mem r.rest :)
theorem supply : t.supply = s.supply := (congrArg State.supply r.rest :)

theorem stores : SameStores s t := by
  refine ⟨?_, ?_, (congrArg State.flash r.rest :), (congrArg State.pending r.rest :)⟩
  · rw [r.mem]
  · rw [r.mem]

theorem can (c : Canonical s) : Canonical t := by
  obtain ⟨params, tiles, pages, dies⟩ := c
  exact ⟨r.only.wf params, r.mem ▸ tiles, r.mem ▸ pages, r.seq ▸ dies⟩

theorem reg (c : Canonical s) {p e : Nat} (hp : p ∉ ps) (he : e < 2 ^ 24) : t.reg p e = s.reg p e := r.only.regs c.1 p e he hp

theorem val (c : Canonical s) {p : Nat} (hp : p ∉ ps) : t.val p = s.val p := r.reg c hp (by decide)

end

end Unhosts

/-- What a link-down event writes (R316, R372). -/
def linkRegs : List Nat := [P.droppedWrites, P.linkEpoch, P.linkDowns, P.hostLinkState, P.eventRingEnable, P.eventRingStatus]

/-- The value of LinkEpoch after `e` (R316). -/
def nextEpoch (e : Nat) : Nat := if (e + 1) % 2 ^ 32 = 0 then 1 else (e + 1) % 2 ^ 32

/-- What a link-down event leaves to read (R316, R372). -/
structure LinkDown (s t : State) : Prop where
  unhosts : Unhosts linkRegs s t
  gone : t.host = { s.host with fns := [] }
  down : t.val P.hostLinkState = 0
  epoch : t.val P.linkEpoch = nextEpoch (s.val P.linkEpoch)
  counted : t.reg P.linkDowns 0 = inc32 (s.reg P.linkDowns 0)
  ring : t.val P.eventRingEnable = 0
  status : t.val P.eventRingStatus = 4

theorem unhosts_dropAll (s : State) : Unhosts [P.droppedWrites] s
    ((List.range 9).foldl (fun s fn => ((s.hostFn fn).queues.map Prod.fst).foldl (fun s q => s.dropWrites fn q) s) s) :=
  .foldl (fun _ hfn v => .foldl (fun q _ w => .dropWrites (by decide) (List.mem_range.1 hfn) w q) v) s

theorem host_dropWrites (s : State) (fn q : Nat) : (s.dropWrites fn q).host = s.host := by
  unfold State.dropWrites
  extract_lets pending
  split
  · rfl
  · rfl

theorem host_dropAll (s : State) :
    ((List.range 9).foldl (fun s fn => ((s.hostFn fn).queues.map Prod.fst).foldl (fun s q => s.dropWrites fn q) s) s).host = s.host := by
  have queues : ∀ (fn : Nat) (qs : List Nat) (v : State), (qs.foldl (fun s q => s.dropWrites fn q) v).host = v.host := by
    intro fn qs
    induction qs with
    | nil => exact fun v => rfl
    | cons q qs ih => exact fun v => (ih _).trans (host_dropWrites ..)
  generalize List.range 9 = fns
  induction fns generalizing s with
  | nil => rfl
  | cons fn fns ih => exact (ih _).trans (queues ..)

theorem linkDown_reads {s : State} (can : Canonical s) : LinkDown s s.linkDown := by
  unfold State.linkDown
  have dropped := unhosts_dropAll s
  have host := host_dropAll s
  generalize (List.range 9).foldl _ s = v at dropped host
  extract_lets v1 e w src x
  have epoch : v.val P.linkEpoch = s.val P.linkEpoch := dropped.val can (by decide)
  have downs : v.reg P.linkDowns 0 = s.reg P.linkDowns 0 := dropped.reg can (by decide) (by decide)
  have wfV := dropped.only.wf can.1
  have wfE : Sparse.wf paramDefault (v.setVal P.linkEpoch (if e = 0 then 1 else e)).params = true := Sparse.wf_put _ _ wfV
  have wfW : Sparse.wf paramDefault w.params = true := Sparse.wf_put _ _ wfE
  have known : Records [P.linkEpoch, P.linkDowns] v w := .trans (.setVal (by decide) v _) (.bump32 (by decide) (by decide) _ 1)
  have epochW : w.val P.linkEpoch = nextEpoch (s.val P.linkEpoch) := by
    refine (State.reg_setReg_other _ _ wfE (by decide)).trans ((State.val_setVal_same ..).trans ?_)
    rw [nextEpoch, ← epoch]
  have downsW : w.reg P.linkDowns 0 = inc32 (s.reg P.linkDowns 0) := by
    refine (State.reg_setReg_same ..).trans (congrArg inc32 ?_)
    exact (State.reg_setReg_other _ _ wfV (by decide)).trans downs
  have gone : x.host = { s.host with fns := [] } := by rw [← host, ← known.host]
  have left : Unhosts linkRegs s x :=
    (dropped.mono (by decide)).trans (.trans (.setVal (by decide) v _) (.trans (.setReg (by decide) (by decide) _ _) (.setHost _ w _)))
  have wfX : Sparse.wf paramDefault x.params = true := wfW
  have epochX : x.val P.linkEpoch = nextEpoch (s.val P.linkEpoch) := epochW
  have downsX : x.reg P.linkDowns 0 = inc32 (s.reg P.linkDowns 0) := downsW
  clear_value x
  have wf1 := Sparse.wf_put (d := paramDefault) (pkey P.hostLinkState 0) 0 wfX
  have wf2 := Sparse.wf_put (d := paramDefault) (pkey P.eventRingEnable 0) 0 wf1
  have kept : ∀ {p}, p ∉ [P.hostLinkState, P.eventRingEnable, P.eventRingStatus] →
      (((x.setVal P.hostLinkState 0).setVal P.eventRingEnable 0).setVal P.eventRingStatus 0x04).val p = x.val p := fun {p} hp =>
    (Records.trans (.trans (.setVal (by decide) x 0) (.setVal (by decide) _ 0)) (.setVal (by decide) _ 4)
      : Records [P.hostLinkState, P.eventRingEnable, P.eventRingStatus] x _).only.regs wfX p 0 (by decide) hp
  refine ⟨left.trans (.trans (.trans (.setVal (by decide) x 0) (.setVal (by decide) _ 0)) (.setVal (by decide) _ 4)), gone, ?_,
    (kept (by decide)).trans epochX, (kept (by decide)).trans downsX, ?_, State.val_setVal_same ..⟩
  · exact (State.reg_setReg_other _ _ wf2 (by decide)).trans ((State.reg_setReg_other _ _ wf1 (by decide)).trans (State.val_setVal_same ..))
  · exact (State.reg_setReg_other _ _ wf2 (by decide)).trans (State.val_setVal_same ..)

/-- The host link goes down, whether it was up or not (R316). -/
theorem loseHostLink_reads {s : State} (can : Canonical s) : Unhosts linkRegs s s.loseHostLink ∧ s.loseHostLink.val P.hostLinkState = 0 := by
  unfold State.loseHostLink
  split
  · have read := linkDown_reads can
    exact ⟨read.unhosts, read.down⟩
  · exact ⟨.setVal (by decide) s 0, State.val_setVal_same ..⟩

/-- R348: what becomes of the state of one port as the reference is lost. -/
def lostPort (v : Nat) : Nat := if v = 2 ∨ v = 3 then 1 else v

/-- R348: one port goes down as the reference is lost. -/
def losePort (s : State) (k : Nat) : State :=
  if s.reg P.linkState k = 3 then (s.bump32 P.linkFlaps k 1).setReg P.linkState k 1
  else if s.reg P.linkState k = 2 then s.setReg P.linkState k 1 else s

theorem records_losePort {k : Nat} (hk : k < 2 ^ 24) (s : State) : Records [P.linkState, P.linkFlaps] s (losePort s k) :=
  .ite (.trans (.bump32 (by decide) hk s 1) (.setReg (by decide) hk _ 1)) (.ite (.setReg (by decide) hk s 1) (.refl ..))

theorem losePort_same {s : State} (wf : Sparse.wf paramDefault s.params = true) {k : Nat} (hk : k < 2 ^ 24) :
    (losePort s k).reg P.linkState k = lostPort (s.reg P.linkState k)
      ∧ (losePort s k).reg P.linkFlaps k = if s.reg P.linkState k = 3 then inc32 (s.reg P.linkFlaps k) else s.reg P.linkFlaps k := by
  unfold losePort lostPort
  split
  next up =>
    refine ⟨(State.reg_setReg_same ..).trans (by rw [if_pos (.inr up)]), ?_⟩
    exact (State.reg_setReg_other _ _ (Sparse.wf_put _ _ wf) (pkey_ne hk hk (.inl (by decide)))).trans (State.reg_setReg_same ..)
  next notUp =>
    split
    next trains =>
      refine ⟨(State.reg_setReg_same ..).trans (by rw [if_pos (.inl trains)]), ?_⟩
      exact State.reg_setReg_other _ _ wf (pkey_ne hk hk (.inl (by decide)))
    next other => exact ⟨(if_neg (not_or.2 ⟨other, notUp⟩)).symm, rfl⟩

theorem losePort_other {s : State} (wf : Sparse.wf paramDefault s.params = true) {j k : Nat} (hj : j < 2 ^ 24) (hk : k < 2 ^ 24) (h : j ≠ k) :
    (losePort s k).reg P.linkState j = s.reg P.linkState j ∧ (losePort s k).reg P.linkFlaps j = s.reg P.linkFlaps j := by
  have apart : ∀ {q : Nat} (v : State) (x : Nat) (p : Nat), Sparse.wf paramDefault v.params = true → (v.setReg q k x).reg p j = v.reg p j :=
    fun v x p w => State.reg_setReg_other v x w (pkey_ne hk hj (.inr h))
  unfold losePort
  split
  · exact ⟨(apart _ _ _ (Sparse.wf_put _ _ wf)).trans (apart _ _ _ wf), (apart _ _ _ (Sparse.wf_put _ _ wf)).trans (apart _ _ _ wf)⟩
  · split
    · exact ⟨apart _ _ _ wf, apart _ _ _ wf⟩
    · exact ⟨rfl, rfl⟩

/-- R348: every port of a range goes down. -/
theorem losePorts_reads {s : State} (wf : Sparse.wf paramDefault s.params = true) {k : Nat} (hk : k < 48) :
    let t := (List.range 48).foldl losePort s
    t.reg P.linkState k = lostPort (s.reg P.linkState k)
      ∧ t.reg P.linkFlaps k = if s.reg P.linkState k = 3 then inc32 (s.reg P.linkFlaps k) else s.reg P.linkFlaps k := by
  have fold := BootLaws.obs_foldl (β := Nat × Nat) (s := s) (k := k) (f := fun s k => if k < 48 then losePort s k else s)
    (inv := fun v => Sparse.wf paramDefault v.params = true) (obs := fun k v => if k < 48 then (v.reg P.linkState k, v.reg P.linkFlaps k) else (0, 0))
    (g := fun k old => if k < 48 then (lostPort old.1, if old.1 = 3 then inc32 old.2 else old.2) else (0, 0))
    (fun v k w => ?_) (fun v k w => ?_) (fun v j k w hj => ?_) (List.range 48) List.nodup_range wf
  · rw [if_pos (List.mem_range.2 hk)] at fold
    simp only [if_pos hk] at fold
    have same : (List.range 48).foldl (fun s k => if k < 48 then losePort s k else s) s = (List.range 48).foldl losePort s :=
      List.foldl_ext _ _ _ fun v j hj => if_pos (List.mem_range.1 hj)
    rw [same] at fold
    exact Prod.mk.inj fold
  · split
    · exact (records_losePort (by omega) v).only.wf w
    · exact w
  · by_cases small : k < 48
    · obtain ⟨state, flaps⟩ := losePort_same w (k := k) (by omega)
      simp only [small, if_true, state, flaps]
    · simp only [small, if_false]
  · by_cases small : k < 48
    · by_cases small' : j < 48
      · obtain ⟨state, flaps⟩ := losePort_other w (j := j) (k := k) (by omega) (by omega) hj
        simp only [small, small', if_true, state, flaps]
      · simp only [small', if_false]
    · simp only [small, if_false]

end Sys2Proof.HostLaws

namespace Sys2Proof.Claims

open Sys2Proof.Machine Sys2Proof.HostLaws Sys2Proof.RecordLaws Sys2Proof.BootLaws

/-- Settles O34: the reference lost, and found again. -/
theorem referenceLossTakesLinksDownUntilItReturns : Obligations.ReferenceLossTakesLinksDownUntilItReturns := by
  intro s can released
  refine ⟨fun good => ?_, fun lost => ?_⟩
  · have step : refLossStep s = (
        let v : State := { s with supply := { s.supply with refGood := false } }
        let w := ((v.setVal P.rootLock 1).bump32 P.refLosses 0 1).raiseEvent 7 0x12 srcModule 0 0
        let x := if w.val P.ptpRole = 1 ∧ w.val P.timeState = 2 then w.setTimeState 3 else w
        ((List.range 48).foldl losePort x).loseHostLink) := by
      unfold refLossStep
      rw [if_neg (not_not.2 good)]
      exact if_neg (not_not.2 released)
    have run : exec .refLoss s = .next (refLossStep s) := rfl
    rw [step] at run
    revert run
    extract_lets src v w x
    intro run
    have counted : Records (P.rootLock :: P.refLosses :: eventRegs) v w :=
      .trans (.trans (.setVal (by decide) v 1) (.bump32 (by decide) (by decide) _ 1)) (.raiseEvent (by decide) (by decide) _ ..)
    have canV : Canonical v := can
    have wfL : Sparse.wf paramDefault (v.setVal P.rootLock 1).params = true := Sparse.wf_put _ _ canV.1
    have wfB : Sparse.wf paramDefault ((v.setVal P.rootLock 1).bump32 P.refLosses 0 1).params = true := Sparse.wf_put _ _ wfL
    have told : ∀ p, p ∉ eventRegs → w.val p = ((v.setVal P.rootLock 1).bump32 P.refLosses 0 1).val p := fun p hp =>
      (Records.raiseEvent (List.Subset.refl _) (by decide) _ ..).only.regs wfB p 0 (by decide) hp
    have locked : w.val P.rootLock = 1 :=
      (told _ (by decide)).trans ((State.reg_setReg_other _ _ wfL (by decide)).trans (State.val_setVal_same ..))
    have losses : w.reg P.refLosses 0 = inc32 (s.reg P.refLosses 0) :=
      (told _ (by decide)).trans ((State.reg_setReg_same ..).trans (congrArg inc32 (State.reg_setReg_other _ _ canV.1 (by decide))))
    have canW := counted.can canV
    have kept : ∀ p e, e < 2 ^ 24 → p ∉ P.rootLock :: P.refLosses :: eventRegs → w.reg p e = s.reg p e := fun p e he hp => counted.reg canV hp he
    clear_value w
    have timed : Records (P.timeState :: eventRegs) w x := by
      refine .ite (.ite (.refl ..) (.trans (.setVal (by decide) w 3) (.raiseEvent (by decide) (by decide) _ ..))) (.refl ..)
    have holdover : w.val P.ptpRole = 1 → w.val P.timeState = 2 → x.val P.timeState = 3 := by
      intro client locked
      have x_eq : x = (w.setVal P.timeState 3).raiseEvent 4 0x01 srcModule 3 2 := by
        simp only [x]
        rw [if_pos ⟨client, locked⟩, State.setTimeState]
        simp only [locked]
        rfl
      rw [x_eq]
      exact ((Records.raiseEvent (List.Subset.refl _) (by decide) _ ..).only.regs (Sparse.wf_put _ _ canW.1) _ 0 (by decide) (by decide)).trans
        (State.val_setVal_same ..)
    have canX := timed.can canW
    clear_value x
    have down : Records [P.linkState, P.linkFlaps] x ((List.range 48).foldl losePort x) :=
      .foldl (fun k hk z => records_losePort (by have := List.mem_range.1 hk; omega) z) x
    have ports := fun k hk => losePorts_reads (k := k) canX.1 hk
    dsimp only at ports
    have canY := down.can canX
    generalize (List.range 48).foldl losePort x = y at down ports canY run
    obtain ⟨left, gone⟩ := loseHostLink_reads canY
    have link : ∀ k, k < 48 → x.reg P.linkState k = s.reg P.linkState k := fun k hk =>
      (timed.reg canW (by decide) (by omega)).trans (kept _ _ (by omega) (by decide))
    have flaps : ∀ k, k < 48 → x.reg P.linkFlaps k = s.reg P.linkFlaps k := fun k hk =>
      (timed.reg canW (by decide) (by omega)).trans (kept _ _ (by omega) (by decide))
    refine ⟨_, run, ?_, ?_, ?_, fun client lock => ?_, fun k hk => ?_, fun k hk up => ?_, gone, ?_, ?_, ?_⟩
    · exact left.supply.trans (down.supply.trans (timed.supply.trans counted.supply))
    · exact (left.val canY (by decide)).trans ((down.val canX (by decide)).trans ((timed.val canW (by decide)).trans locked))
    · exact (left.reg canY (by decide) (by decide)).trans ((down.reg canX (by decide) (by decide)).trans
        ((timed.reg canW (by decide) (by decide)).trans losses))
    · exact (left.val canY (by decide)).trans ((down.val canX (by decide)).trans
        (holdover ((kept _ 0 (by decide) (by decide)).trans client) ((kept _ 0 (by decide) (by decide)).trans lock)))
    · rw [left.reg canY (by decide) (by omega), (ports k hk).1, link k hk]
      rfl
    · rw [left.reg canY (by decide) (by omega), (ports k hk).2, link k hk, flaps k hk, if_pos up]
    · have whole := WorkLaws.sameStores_trans (WorkLaws.sameStores_trans counted.stores timed.stores) (WorkLaws.sameStores_trans down.stores left.stores)
      exact whole
    · exact left.clock.trans (down.clock.trans (timed.clock.trans counted.clock))
    · exact left.seq.trans (down.seq.trans (timed.seq.trans counted.seq))
  · have step : refReturnStep s = (
        let v : State := { s with supply := { s.supply with refGood := true } }
        let w := v.setVal P.rootLock 0
        let x := if w.up 3 then w.trainPorts else w
        if x.hostPresent ∧ ¬ x.hostUp then x.setVal P.hostLinkState 1 else x) := by
      unfold refReturnStep
      rw [if_neg (by rw [lost]; decide)]
      exact if_neg (not_not.2 released)
    have run : exec .refReturn s = .next (refReturnStep s) := rfl
    rw [step] at run
    revert run
    extract_lets src v w x
    intro run
    have canV : Canonical v := can
    have unlocked : Records [P.rootLock] v w := .setVal (by decide) v 0
    have canW := unlocked.can canV
    have lock : w.val P.rootLock = 0 := State.val_setVal_same ..
    have boot : w.up 3 = s.up 3 := by
      have same : w.val P.bootState = s.val P.bootState := unlocked.val canV (by decide)
      unfold State.up State.boot
      rw [same]
    clear_value w
    have trained : Records [P.linkState] w x := .ite (records_trainPorts w) (.refl ..)
    have canX := trained.can canW
    have ports : s.up 3 = true → ∀ k, k < 48 → portFormed s.portMapIn k = true → x.reg P.linkState k = if s.portFed k then 2 else 1 := by
      intro up k hk formed
      have formed' : portFormed w.portMapIn k = true :=
        (portFormed_congr (portMapIn_records canV unlocked (by decide) (by omega))).trans formed
      have x_eq : x = w.trainPorts := if_pos (boot.trans up)
      have fed : w.portFed k = s.portFed k := portFed_records canV unlocked (by decide) k
      rw [x_eq, reg_trainPorts canW hk formed', trainedPort, fed, unlocked.supply]
      simp only [v, and_true]
    clear_value x
    have linked : Records [P.hostLinkState] x (if x.hostPresent ∧ ¬ x.hostUp then x.setVal P.hostLinkState 1 else x) :=
      .ite (.setVal (by decide) x 1) (.refl ..)
    generalize (if x.hostPresent ∧ ¬ x.hostUp then x.setVal P.hostLinkState 1 else x) = t at linked run
    have whole : Records [P.rootLock, P.linkState, P.hostLinkState] v t :=
      (unlocked.mono (by decide)).trans ((trained.mono (by decide)).trans (linked.mono (by decide)))
    refine ⟨t, run, whole.supply, ?_, fun up k hk formed => ?_, whole.regs canV, whole.stores, whole.clock, whole.seq⟩
    · exact (linked.val canX (by decide)).trans ((trained.val canW (by decide)).trans lock)
    · exact (linked.reg canX (by decide) (by omega)).trans (ports up k hk formed)

end Sys2Proof.Claims

/-! PROOF. What recomputed gears leave of the weir (R287, R288). -/

namespace Sys2Proof.WeirLaws

open Sys2Proof.Machine Sys2Proof.Claims Sys2Proof.RecordLaws Sys2Proof.StoreTileLaws Sys2Proof.WorkLaws

/-- The weir was brought up to now and its gears recomputed: what it was set to is unchanged. -/
structure Basin (s t : State) : Prop where
  weir : t.weir = { s.weir with
    buckets := t.weir.buckets, reserves := t.weir.reserves, refilled := t.weir.refilled, waited := t.weir.waited
    dieGears := t.weir.dieGears, gearTimes := t.weir.gearTimes, gearSince := t.weir.gearSince }
  clock : t.clock = s.clock

namespace Basin

variable {s t u : State}

theorem refl (s : State) : Basin s s := ⟨rfl, rfl⟩

theorem trans (h : Basin s t) (g : Basin t u) : Basin s u := by
  refine ⟨?_, g.clock.trans h.clock⟩
  rw [g.weir, h.weir]

theorem of_weir (weir : t.weir = s.weir) (clock : t.clock = s.clock) : Basin s t := by
  refine ⟨?_, clock⟩
  rw [weir]

theorem of_records {ps : List Nat} (r : Records ps s t) : Basin s t := of_weir r.weir r.clock

theorem foldl {α : Type} {f : State → α → State} {xs : List α} (hf : ∀ x ∈ xs, ∀ v, Basin v (f v x)) (s : State) : Basin s (xs.foldl f s) := by
  induction xs generalizing s with
  | nil => exact refl s
  | cons x xs ih => exact (hf x (List.mem_cons_self ..) s).trans (ih (fun y hy => hf y (List.mem_cons_of_mem _ hy)) _)

theorem passSlot (s : State) (sl c : Nat) : Basin s (s.passSlot sl c) ∧ (s.passSlot sl c).weir.refilled = s.weir.refilled := by
  unfold State.passSlot
  extract_lets d xs held v
  split
  · exact ⟨refl s, rfl⟩
  · split
    · exact ⟨⟨rfl, rfl⟩, rfl⟩
    · exact ⟨⟨rfl, rfl⟩, rfl⟩

theorem refillTo (s : State) (b t : Nat) : Basin s (s.refillTo b t) := ⟨rfl, rfl⟩

theorem refilled_passSlots (b c : Nat) (ks : List Nat) (s : State) :
    (ks.foldl (fun s k => s.passSlot (8 * b + k) c) s).weir.refilled = s.weir.refilled := by
  induction ks generalizing s with
  | nil => rfl
  | cons k ks ih => exact (ih _).trans (passSlot ..).2

theorem passBase (s : State) (b : Nat) : Basin s (s.passBase b)
    ∧ ∀ k, k ≠ b → nth (s.passBase b).weir.refilled k 0 = nth s.weir.refilled k 0 := by
  unfold State.passBase
  extract_lets c
  have passed : Basin s ((List.range 8).foldl (fun s k => s.passSlot (8 * b + k) c) s) := foldl (fun k _ v => (passSlot v (8 * b + k) c).1) s
  have same := refilled_passSlots b c (List.range 8) s
  generalize (List.range 8).foldl _ s = v at passed same
  refine ⟨passed.trans (refillTo ..), fun k hk => ?_⟩
  exact (nth_setAt_other 0 v.weir.refilled _ hk).trans (by rw [same])

theorem passAcs (b n : Nat) (s : State) : Basin s (State.passAcs b n s)
    ∧ ∀ k, k ≠ b → nth (State.passAcs b n s).weir.refilled k 0 = nth s.weir.refilled k 0 := by
  induction n generalizing s with
  | zero => exact ⟨refl s, fun _ _ => rfl⟩
  | succ n ih =>
    unfold State.passAcs
    split
    · obtain ⟨passed, same⟩ := passBase s b
      obtain ⟨rest, same'⟩ := ih (s.passBase b)
      exact ⟨passed.trans rest, fun k hk => (same' k hk).trans (same k hk)⟩
    · exact ⟨refl s, fun _ _ => rfl⟩

/-- R288: a base die brought up to now is refilled up to this ac; the others are as they were. -/
theorem catchUp (s : State) (b : Nat) : Basin s (s.catchUp b)
    ∧ ∀ k, nth (s.catchUp b).weir.refilled k 0 = if k = b then s.ac else nth s.weir.refilled k 0 := by
  unfold State.catchUp
  obtain ⟨passed, same⟩ := passAcs b (s.ac - nth s.weir.refilled b 0) s
  generalize State.passAcs b (s.ac - nth s.weir.refilled b 0) s = v at passed same
  have ac : v.ac = s.ac := by
    unfold State.ac
    rw [passed.clock]
  refine ⟨passed.trans (refillTo ..), fun k => ?_⟩
  split
  next here =>
    rw [here, ← ac]
    exact nth_setAt_same ..
  next apart => exact (nth_setAt_other 0 v.weir.refilled _ apart).trans (same k apart)

theorem account (s : State) (sl : Nat) : Basin s (s.account sl) ∧ (s.account sl).weir = (s.catchUp (sl / 8)).weir := by
  unfold State.account
  extract_lets v d n
  have caught : Basin s v := (catchUp s (sl / 8)).1
  split
  · exact ⟨caught.trans ⟨rfl, rfl⟩, rfl⟩
  · exact ⟨caught.trans ⟨rfl, rfl⟩, rfl⟩

end Basin

/-- Every base die is refilled up to this ac. -/
def CaughtUp (s : State) : Prop := ∀ b, b < 8 → nth s.weir.refilled b 0 = s.ac

theorem caughtUp_congr {s t : State} (refilled : t.weir.refilled = s.weir.refilled) (clock : t.clock = s.clock) (h : CaughtUp s) : CaughtUp t := by
  intro b hb
  unfold State.ac at *
  rw [refilled, clock]
  exact h b hb

/-- A fold that brings one base die after another up to now. -/
theorem caught_foldl {f : State → Nat → State} {base : Nat → Nat} (basin : ∀ v k, Basin v (f v k))
    (caught : ∀ v k b, nth (f v k).weir.refilled b 0 = if b = base k then v.ac else nth v.weir.refilled b 0) (xs : List Nat) (s : State) {b : Nat}
    (h : (∃ k ∈ xs, base k = b) ∨ nth s.weir.refilled b 0 = s.ac) :
    nth (xs.foldl f s).weir.refilled b 0 = s.ac := by
  induction xs generalizing s with
  | nil =>
    rcases h with ⟨_, none, _⟩ | h
    · cases none
    · exact h
  | cons x xs ih =>
    have ac : (f s x).ac = s.ac := by
      unfold State.ac
      rw [(basin s x).clock]
    rw [List.foldl_cons, ← ac]
    refine ih (f s x) ?_
    rw [caught, ac]
    by_cases here : b = base x
    · exact .inr (if_pos here)
    · rw [if_neg here]
      refine h.imp (fun ⟨k, listed, same⟩ => ⟨k, (List.mem_cons.1 listed).resolve_left fun e => here (e ▸ same).symm, same⟩) id

theorem basin_catchUpAll (s : State) : Basin s s.catchUpAll := .foldl (fun b _ v => (Basin.catchUp v b).1) s

theorem caughtUp_catchUpAll (s : State) : CaughtUp s.catchUpAll := by
  intro b hb
  have ac : s.catchUpAll.ac = s.ac := by
    unfold State.ac
    rw [(basin_catchUpAll s).clock]
  rw [ac]
  exact caught_foldl (base := id) (fun v k => (Basin.catchUp v k).1) (fun v k => (Basin.catchUp v k).2) _ s
    (.inl ⟨b, List.mem_range.2 hb, rfl⟩)

theorem basin_accountAll (s : State) : Basin s s.accountAll := .foldl (fun sl _ v => (Basin.account v sl).1) s

theorem caughtUp_accountAll (s : State) : CaughtUp s.accountAll := by
  intro b hb
  have ac : s.accountAll.ac = s.ac := by
    unfold State.ac
    rw [(basin_accountAll s).clock]
  rw [ac]
  have first : ∃ k ∈ List.range 64, k / 8 = b := ⟨8 * b, List.mem_range.2 (by omega), by omega⟩
  have refilled : ∀ (v : State) (k b : Nat), nth (v.account k).weir.refilled b 0 = if b = k / 8 then v.ac else nth v.weir.refilled b 0 := by
    intro v k b
    rw [(Basin.account v k).2]
    exact (Basin.catchUp v (k / 8)).2 b
  unfold State.accountAll
  exact caught_foldl (base := (· / 8)) (fun v k => (Basin.account v k).1) refilled (List.range 64) s (.inl first)

/-- Where every base die is up to now, bringing it up to now once more only keeps what the refill of no ac keeps. -/
theorem catchUpAll_of_caughtUp {inv : State → Prop} (keep : ∀ v b, b < 8 → CaughtUp v → inv v → inv (v.refill b)) {s : State} (h : CaughtUp s)
    (hs : inv s) : inv s.catchUpAll := by
  have all : ∀ (xs : List Nat) (v : State), (∀ b ∈ xs, b < 8) → CaughtUp v → inv v → inv (xs.foldl State.catchUp v) := by
    intro xs
    induction xs with
    | nil => exact fun v _ _ hv => hv
    | cons b xs ih =>
      intro v small caught hv
      have hb := small b (List.mem_cons_self ..)
      have idle : v.catchUp b = v.refill b := by
        unfold State.catchUp
        rw [caught b hb, Nat.sub_self]
        rfl
      refine ih _ (fun k hk => small k (List.mem_cons_of_mem _ hk)) (fun k hk => ?_) (idle ▸ keep v b hb caught hv)
      have ac : (v.catchUp b).ac = v.ac := by
        unfold State.ac
        rw [(Basin.catchUp v b).1.clock]
      rw [(Basin.catchUp v b).2, ac]
      split
      · rfl
      · exact caught k hk
  unfold State.catchUpAll
  exact all (List.range 8) s (fun b hb => List.mem_range.1 hb) h hs

theorem waited_catchUpAll {s : State} (h : CaughtUp s) : s.catchUpAll.weir.waited = s.weir.waited :=
  catchUpAll_of_caughtUp (inv := fun v => v.weir.waited = s.weir.waited) (fun _ _ _ _ hv => hv) h rfl

/-- The buckets and the reserves are empty. -/
def Empty (w : Weir) : Prop := (∀ x ∈ w.buckets, x = 0) ∧ ∀ x ∈ w.reserves, x = 0

theorem nth_zero {xs : List Nat} (h : ∀ x ∈ xs, x = 0) (i : Nat) : nth xs i 0 = 0 := by
  unfold nth
  by_cases inside : i < xs.length
  · rw [List.getD_eq_getElem _ _ inside]
    exact h _ (List.getElem_mem inside)
  · exact List.getD_eq_default _ _ (Nat.le_of_not_lt inside)

/-- R288: no ac refills nothing. -/
theorem empty_refill {s : State} {b : Nat} (hb : b < 8) (caught : CaughtUp s) (h : Empty s.weir) : Empty (s.refill b).weir := by
  obtain ⟨buckets, reserves⟩ := h
  have now : s.ac - nth s.weir.refilled b 0 = 0 := by rw [caught b hb, Nat.sub_self]
  have zero := nth_zero buckets
  have none : ∀ k, (if s.absent (8 * b + k) then (nth s.weir.buckets (8 * b + k) 0, 0)
      else
        let v := nth s.weir.buckets (8 * b + k) 0 + (s.ac - nth s.weir.refilled b 0) * nth s.weir.rates (s.gear (8 * b + k)) 0
        (min v (s.weir.depth * 2 ^ 16), v - s.weir.depth * 2 ^ 16)) = (0, 0) := by
    intro k
    rw [now, zero]
    split
    · rfl
    · dsimp only
      rw [Nat.zero_mul, Nat.zero_add, Nat.zero_min, Nat.zero_sub]
  unfold State.refill State.refillTo
  dsimp only
  simp only [none]
  refine ⟨fun x hx => ?_, fun x hx => ?_⟩
  · rcases List.mem_append.1 hx with hx | hx
    · rcases List.mem_append.1 hx with hx | hx
      · exact buckets x (List.mem_of_mem_take hx)
      · simpa using hx
    · exact buckets x (List.mem_of_mem_drop hx)
  · rcases List.mem_or_eq_of_mem_set hx with old | new
    · exact reserves x old
    · rw [new, nth_zero reserves]
      have spill : (((List.range 8).map fun _ => ((0, 0) : Nat × Nat)).map Prod.snd).foldl (· + ·) 0 = 0 := by decide
      exact (congrArg (fun n => min (0 + n) (8 * (s.weir.depth * 2 ^ 16))) spill).trans (Nat.zero_min _)

/-- R294, R296: the budget drained. -/
theorem drainBudget_reads (s : State) : Basin s s.drainBudget ∧ Empty s.drainBudget.weir ∧ CaughtUp s.drainBudget := by
  have basin := basin_catchUpAll s
  have caught := caughtUp_catchUpAll s
  unfold State.drainBudget
  generalize s.catchUpAll = v at basin caught
  refine ⟨basin.trans ⟨rfl, rfl⟩, ⟨fun x hx => (List.mem_replicate.1 hx).2, fun x hx => (List.mem_replicate.1 hx).2⟩, ?_⟩
  exact caughtUp_congr rfl rfl caught

theorem basin_geared (s : State) : Basin s (geared s) := by
  have basin := basin_catchUpAll s
  unfold geared
  generalize s.catchUpAll = v at basin
  exact basin.trans ⟨rfl, rfl⟩

theorem basin_regear (s : State) : Basin s s.regear := (basin_geared s).trans (.of_records (regear_records s))

theorem waited_regear {s : State} (h : CaughtUp s) : s.regear.weir.waited = s.weir.waited := by
  have waited := waited_catchUpAll h
  rw [(regear_records s).weir]
  unfold geared
  generalize s.catchUpAll = v at waited
  exact waited

theorem empty_regear {s : State} (h : CaughtUp s) (e : Empty s.weir) : Empty s.regear.weir := by
  have empty := catchUpAll_of_caughtUp (inv := fun v => Empty v.weir) (fun v b hb c e => empty_refill hb c e) h e
  rw [(regear_records s).weir]
  unfold geared
  generalize s.catchUpAll = v at empty
  exact empty

/-- R287: the gears as they are read. -/
structure Gears (s t : State) : Prop where
  supply : t.reg P.moduleGear 0 = s.weir.supplyGear
  power : t.reg P.moduleGear 1 = s.weir.powerGear
  dies : ∀ k, k < 64 → t.reg P.dieGear k = (geared s).gearOf k

theorem zip_map_self {α β : Type} (f : α → β) (xs : List α) : xs.zip (xs.map f) = xs.map fun x => (x, f x) := by
  induction xs with
  | nil => rfl
  | cons x xs ih => rw [List.map_cons, List.zip_cons_cons, ih, List.map_cons]

/-- Gears written where they are read. -/
def writeDieGears (f : Nat → Nat) (s : State) : State := (List.range 64).foldl (fun s k => s.setReg P.dieGear k (f k)) s

theorem records_writeDieGears (f : Nat → Nat) (s : State) : Records [P.dieGear] s (writeDieGears f s) :=
  .foldl (fun k hk u => .setReg (by decide) (by have := List.mem_range.1 hk; omega) u _) s

theorem reg_writeDieGears (f : Nat → Nat) {s : State} (wf : Sparse.wf paramDefault s.params = true) {k : Nat} (hk : k < 64) :
    (writeDieGears f s).reg P.dieGear k = f k := by
  have fold := BootLaws.obs_foldl (β := Nat) (s := s) (k := k) (f := fun s k => s.setReg P.dieGear k (f k))
    (inv := fun u => Sparse.wf paramDefault u.params = true) (obs := fun k u => u.reg P.dieGear k) (g := fun k _ => f k)
    (fun u k wf => Sparse.wf_put _ _ wf) (fun u k wf => State.reg_setReg_same ..)
    (fun u j k wf hj => State.reg_setReg_other _ _ wf (by unfold pkey; omega)) (List.range 64) List.nodup_range wf
  exact fold.trans (if_pos (List.mem_range.2 hk))

theorem dieGears_geared (s : State) : (geared s).weir.dieGears = (List.range 64).map (geared s).gearOf := by
  unfold geared
  generalize s.catchUpAll.accountGear = v
  rfl

theorem regear_eq_write (s : State) : s.regear =
    writeDieGears (geared s).gearOf (((geared s).setReg P.moduleGear 0 s.weir.supplyGear).setReg P.moduleGear 1 s.weir.powerGear) := by
  have power : (geared s).weir.powerGear = s.weir.powerGear := by rw [(basin_geared s).weir]
  have supply : (geared s).weir.supplyGear = s.weir.supplyGear := by rw [(basin_geared s).weir]
  rw [regear_eq]
  dsimp only
  rw [dieGears_geared, power, supply, zip_map_self, List.foldl_map, writeDieGears]

theorem gears_regear {s : State} (can : Canonical s) : Gears s s.regear := by
  have wf := ((tends_geared s).can can).1
  rw [regear_eq_write]
  refine ⟨?_, ?_, fun k hk => ?_⟩
  all_goals generalize geared s = v at wf
  all_goals
    have wf1 := Sparse.wf_put (d := paramDefault) (pkey P.moduleGear 0) s.weir.supplyGear wf
    have wf2 : Sparse.wf paramDefault ((v.setReg P.moduleGear 0 s.weir.supplyGear).setReg P.moduleGear 1 s.weir.powerGear).params = true :=
      Sparse.wf_put _ _ wf1
  · exact ((records_writeDieGears ..).only.regs wf2 _ _ (by decide) (by decide)).trans
      ((State.reg_setReg_other _ _ wf1 (by decide)).trans (State.reg_setReg_same ..))
  · exact ((records_writeDieGears ..).only.regs wf2 _ _ (by decide) (by decide)).trans (State.reg_setReg_same ..)
  · exact reg_writeDieGears _ wf2 hk

end Sys2Proof.WeirLaws

/-! PROOF. The weir's samples (R285 to R295) and the supply comparators (R296, R297). -/

namespace Sys2Proof.WeirLaws

open Sys2Proof.Machine Sys2Proof.Claims Sys2Proof.RecordLaws Sys2Proof.StoreTileLaws Sys2Proof.WorkLaws

/-- What a sample counts and reads out, apart from its readings. -/
def senseRegs : List Nat :=
  P.correction :: P.correctionClamps :: P.overPowerSteps :: P.thermalSteps :: gearRegs ++ eventRegs

/-- The weir acted on a sample: what it is set to, and the time, are unchanged. -/
structure Senses (s t : State) : Prop where
  rest : t = { s with weir := t.weir, params := t.params, log := t.log, draws := t.draws, seq := { s.seq with dies := t.seq.dies } }
  can : Canonical s → Canonical t
  regs : Canonical s → OnlyRegs senseRegs s t
  plan : t.weir.powerLimit = s.weir.powerLimit ∧ t.weir.gearCap = s.weir.gearCap ∧ t.weir.depth = s.weir.depth ∧ t.weir.levels = s.weir.levels
    ∧ t.weir.coolSince = s.weir.coolSince
  caught : CaughtUp s → CaughtUp t

namespace Senses

variable {s t u : State}

theorem refl (s : State) : Senses s s := ⟨rfl, id, fun _ _ _ _ _ => rfl, ⟨rfl, rfl, rfl, rfl, rfl⟩, id⟩

theorem trans (h : Senses s t) (g : Senses t u) : Senses s u := by
  obtain ⟨limit, cap, depth, levels, cool⟩ := h.plan
  obtain ⟨limit', cap', depth', levels', cool'⟩ := g.plan
  refine ⟨?_, fun c => g.can (h.can c), fun c p e he hp => (g.regs (h.can c) p e he hp).trans (h.regs c p e he hp),
    ⟨limit'.trans limit, cap'.trans cap, depth'.trans depth, levels'.trans levels, cool'.trans cool⟩, fun c => g.caught (h.caught c)⟩
  rw [g.rest, h.rest]

theorem ite {c : Prop} [Decidable c] (h : Senses s t) (g : Senses s u) : Senses s (if c then t else u) := by
  split <;> assumption

theorem foldl {α : Type} {f : State → α → State} {xs : List α} (hf : ∀ x ∈ xs, ∀ v, Senses v (f v x)) (s : State) : Senses s (xs.foldl f s) := by
  induction xs generalizing s with
  | nil => exact refl s
  | cons x xs ih => exact (hf x (List.mem_cons_self ..) s).trans (ih (fun y hy => hf y (List.mem_cons_of_mem _ hy)) _)

theorem of_records {ps : List Nat} (hs : ps ⊆ senseRegs) (r : Records ps s t) : Senses s t := by
  refine ⟨?_, r.can, (r.mono hs).regs, ?_, caughtUp_congr (congrArg Weir.refilled r.weir) r.clock⟩
  · rw [r.rest]
  · rw [r.weir]
    exact ⟨rfl, rfl, rfl, rfl, rfl⟩

theorem setReg {p e : Nat} (hp : p ∈ senseRegs) (he : e < 2 ^ 24) (s : State) (v : Nat) : Senses s (s.setReg p e v) :=
  of_records (List.Subset.refl _) (.setReg hp he s v)

theorem setWeir (s : State) (w : Weir) (plan : w.powerLimit = s.weir.powerLimit ∧ w.gearCap = s.weir.gearCap ∧ w.depth = s.weir.depth
    ∧ w.levels = s.weir.levels ∧ w.coolSince = s.weir.coolSince) (refilled : w.refilled = s.weir.refilled) : Senses s { s with weir := w } :=
  ⟨rfl, id, fun _ _ _ _ _ => rfl, plan, caughtUp_congr refilled rfl⟩

theorem draw (s : State) : Senses s s.draw.2 := ⟨rfl, id, fun _ _ _ _ _ => rfl, ⟨rfl, rfl, rfl, rfl, rfl⟩, id⟩

theorem of_tends {ps : List Nat} (hs : ps ⊆ senseRegs) (r : Tends ps s t) (b : Basin s t) (caught : CaughtUp t) : Senses s t := by
  refine ⟨?_, r.can, (r.mono hs).regs, ?_, fun _ => caught⟩
  · rw [r.rest]
  · rw [b.weir]
    exact ⟨rfl, rfl, rfl, rfl, rfl⟩

/-- R289. -/
theorem correct (s : State) (a : Val) (pComp : Nat) : Senses s (s.correct a pComp) := by
  have stored : ∀ (v : State) (raw : Nat), Senses v
      (let (c, hit) := clampCorrection raw
       let w := v.setVal P.correction c
       if hit then w.bump32 P.correctionClamps 0 1 else w) := by
    intro v raw
    dsimp only
    have set : Senses v (v.setVal P.correction (clampCorrection raw).1) := setReg (by decide) (by decide) v _
    exact set.trans (ite (setReg (by decide) (by decide) _ _) (refl _))
  unfold State.correct
  split
  · exact refl s
  · extract_lets v
    split
    next raw w eq =>
      have drawn : Senses s w := by
        by_cases nan : v.isNan = true
        · rw [if_pos nan] at eq
          obtain ⟨-, rfl⟩ := Prod.mk.inj eq
          exact draw s
        · rw [if_neg nan] at eq
          obtain ⟨-, rfl⟩ := Prod.mk.inj eq
          exact refl s
      exact drawn.trans (stored w raw)

/-- R292. -/
theorem stepPowerGear (s : State) (p : Nat) : Senses s (s.stepPowerGear p) := by
  unfold State.stepPowerGear
  extract_lets w frac low since v
  have lowered : Senses s v := setWeir s _ ⟨rfl, rfl, rfl, rfl, rfl⟩ rfl
  have risen : Senses v { v with weir := { v.weir with powerGear := w.powerGear - 1 } } := setWeir v _ ⟨rfl, rfl, rfl, rfl, rfl⟩ rfl
  exact lowered.trans (ite (risen.trans (setReg (by decide) (by decide) _ _)) (refl v))

/-- R293. -/
theorem stepThermal {k : Nat} (hk : k < 2 ^ 24) (s : State) (t : Nat) : Senses s (s.stepThermal k t) := by
  unfold State.stepThermal
  extract_lets w level g now last spaced a b
  have set : ∀ w', w'.powerLimit = s.weir.powerLimit ∧ w'.gearCap = s.weir.gearCap ∧ w'.depth = s.weir.depth ∧ w'.levels = s.weir.levels
      ∧ w'.coolSince = s.weir.coolSince → w'.refilled = s.weir.refilled → Senses s { s with weir := w' } := setWeir s
  have down : Senses s a := set _ ⟨rfl, rfl, rfl, rfl, rfl⟩ rfl
  have counted : Senses a b := setReg (by decide) hk a _
  have told : Senses b (b.raiseEvent 2 0x01 (srcOf 0xA k) t 0) :=
    of_records (ps := eventRegs) (by decide) (.raiseEvent (List.Subset.refl _) (by decide) b ..)
  clear_value b
  exact ite (ite (refl s) ((down.trans counted).trans (ite told (refl b)))) (ite (ite (refl s) (set _ ⟨rfl, rfl, rfl, rfl, rfl⟩ rfl)) (refl s))

end Senses

/-- The sensors at their limit, with since when each is (R294). -/
def hotNow (s : State) (temps : List Nat) : List (Nat × Nat) :=
  (indicesWhere 96 fun k => s.atLimit k (nth temps k 0)).map fun k =>
    (k, ((s.weir.hot.find? fun h => h.1 == k).map Prod.snd).getD s.clock.now)

theorem stepHardLimit_reads (s : State) (temps : List Nat) : Senses s (s.stepHardLimit temps) ∧ (s.stepHardLimit temps).weir.hot = hotNow s temps := by
  unfold State.stepHardLimit
  extract_lets was hot src v w
  have hotSet : Senses s v := .setWeir s _ ⟨rfl, rfl, rfl, rfl, rfl⟩ rfl
  have told : Records eventRegs v w := .foldl (fun _ _ u => .raiseEvent (List.Subset.refl _) (by decide) u ..) v
  have now : w.weir.hot = hotNow s temps := congrArg Weir.hot told.weir
  clear_value w
  have tolds : Senses s w := hotSet.trans (.of_records (by decide) told)
  split
  · exact ⟨tolds, now⟩
  · obtain ⟨basin, _, caught⟩ := drainBudget_reads w
    refine ⟨tolds.trans (.of_tends (by decide) (Tends.drainBudget w) basin caught), ?_⟩
    rw [basin.weir]
    exact now

theorem mem_indicesWhere {n : Nat} {p : Nat → Bool} {k : Nat} : k ∈ indicesWhere n p ↔ k < n ∧ p k = true := by
  unfold indicesWhere
  rw [List.mem_filter, List.mem_range]

/-- R294: which sensors are at their limit. -/
theorem mem_hotNow {s : State} {temps : List Nat} {k : Nat} (hk : k < 96) : (∃ since, (k, since) ∈ hotNow s temps) ↔ s.atLimit k (nth temps k 0) = true := by
  unfold hotNow
  constructor
  · rintro ⟨since, h⟩
    obtain ⟨j, hj, same⟩ := List.mem_map.1 h
    obtain ⟨rfl, -⟩ := Prod.mk.inj same
    exact (mem_indicesWhere.1 hj).2
  · exact fun h => ⟨_, List.mem_map.2 ⟨k, mem_indicesWhere.2 ⟨hk, h⟩, rfl⟩⟩

/-- R285: the registers that a sample's readings stand in. -/
def readingRegs : List Nat := [P.inputPower, P.inputVoltage, P.railPower, P.temperatures, P.coolantTemps]

/-- Readings written one to an element. -/
theorem reg_foldl_setReg {p n : Nat} (f : Nat → Nat) {s : State} (wf : Sparse.wf paramDefault s.params = true) {k : Nat} (hk : k < n) :
    ((List.range n).foldl (fun s i => s.setReg p i (f i)) s).reg p k = f k := by
  have fold := BootLaws.obs_foldl (β := Nat) (s := s) (k := k) (f := fun s k => s.setReg p k (f k))
    (inv := fun u => Sparse.wf paramDefault u.params = true) (obs := fun k u => u.reg p k) (g := fun k _ => f k)
    (fun u k wf => Sparse.wf_put _ _ wf) (fun u k wf => State.reg_setReg_same ..)
    (fun u j k wf hj => State.reg_setReg_other _ _ wf (by unfold pkey; omega)) (List.range n) List.nodup_range wf
  exact fold.trans (if_pos (List.mem_range.2 hk))

theorem records_readings {p n : Nat} (hn : n ≤ 2 ^ 24) (f : Nat → Nat) (s : State) :
    Records [p] s ((List.range n).foldl (fun s i => s.setReg p i (f i)) s) :=
  .foldl (fun k hk u => .setReg (List.mem_singleton_self p) (by have := List.mem_range.1 hk; omega) u _) s

/-- R285: the sample's readings in their registers. -/
structure Reads (x : WeirReadings) (t : State) : Prop where
  power : t.val P.inputPower = x.pIn.toNat
  voltage : t.val P.inputVoltage = x.vIn.toNat
  rails : ∀ i, i < 6 → t.reg P.railPower i = (nth x.rails i 0).toNat
  temps : ∀ i, i < 96 → t.reg P.temperatures i = (nth x.temps i 0).toNat
  inlet : t.reg P.coolantTemps 0 = x.inlet.toNat
  outlet : t.reg P.coolantTemps 1 = x.outlet.toNat

theorem Reads.congr {x : WeirReadings} {s t : State} (h : Reads x s) (same : ∀ p e, e < 2 ^ 24 → p ∈ readingRegs → t.reg p e = s.reg p e) : Reads x t where
  power := (same _ _ (by decide) (by decide)).trans h.power
  voltage := (same _ _ (by decide) (by decide)).trans h.voltage
  rails i hi := (same _ _ (by omega) (by decide)).trans (h.rails i hi)
  temps i hi := (same _ _ (by omega) (by decide)).trans (h.temps i hi)
  inlet := (same _ _ (by decide) (by decide)).trans h.inlet
  outlet := (same _ _ (by decide) (by decide)).trans h.outlet

theorem storeSample_reads {s : State} (wf : Sparse.wf paramDefault s.params = true) (x : WeirReadings) :
    Records readingRegs s (s.storeSample x) ∧ Reads x (s.storeSample x) := by
  unfold State.storeSample
  have first : Records [P.inputPower] s (s.setVal P.inputPower x.pIn.toNat) := .setVal (by decide) s _
  have power : (s.setVal P.inputPower x.pIn.toNat).val P.inputPower = x.pIn.toNat := State.val_setVal_same ..
  generalize s.setVal P.inputPower x.pIn.toNat = a at first power
  have wfA := first.only.wf wf
  have second : Records [P.inputVoltage] a (a.setVal P.inputVoltage x.vIn.toNat) := .setVal (by decide) a _
  have voltage : (a.setVal P.inputVoltage x.vIn.toNat).val P.inputVoltage = x.vIn.toNat := State.val_setVal_same ..
  generalize a.setVal P.inputVoltage x.vIn.toNat = b at second voltage
  have wfB := second.only.wf wfA
  have third := records_readings (p := P.railPower) (n := 6) (by decide) (fun i => (nth x.rails i 0).toNat) b
  have rails := fun i (hi : i < 6) => reg_foldl_setReg (p := P.railPower) (n := 6) (fun i => (nth x.rails i 0).toNat) wfB hi
  extract_lets b' c d
  replace third : Records [P.railPower] b c := third
  replace rails : ∀ i, i < 6 → c.reg P.railPower i = (nth x.rails i 0).toNat := rails
  have wfC := third.only.wf wfB
  have fourth : Records [P.temperatures] c d := records_readings (n := 96) (by decide) (fun i => (nth x.temps i 0).toNat) c
  have temps : ∀ i, i < 96 → d.reg P.temperatures i = (nth x.temps i 0).toNat := fun i hi =>
    reg_foldl_setReg (n := 96) (fun i => (nth x.temps i 0).toNat) wfC hi
  clear_value c d
  have wfD := fourth.only.wf wfC
  have fifth : Records [P.coolantTemps] d ((d.setReg P.coolantTemps 0 x.inlet.toNat).setReg P.coolantTemps 1 x.outlet.toNat) :=
    .trans (.setReg (by decide) (by decide) d _) (.setReg (by decide) (by decide) _ _)
  have inlet : ((d.setReg P.coolantTemps 0 x.inlet.toNat).setReg P.coolantTemps 1 x.outlet.toNat).reg P.coolantTemps 0 = x.inlet.toNat :=
    (State.reg_setReg_other _ _ (Sparse.wf_put _ _ wfD) (by decide)).trans (State.reg_setReg_same ..)
  have outlet : ((d.setReg P.coolantTemps 0 x.inlet.toNat).setReg P.coolantTemps 1 x.outlet.toNat).reg P.coolantTemps 1 = x.outlet.toNat :=
    State.reg_setReg_same ..
  generalize (d.setReg P.coolantTemps 0 x.inlet.toNat).setReg P.coolantTemps 1 x.outlet.toNat = t at fifth inlet outlet
  have fromD : ∀ p e, e < 2 ^ 24 → p ∉ [P.coolantTemps] → t.reg p e = d.reg p e := fun p e he hp => fifth.only.regs wfD p e he hp
  have fromC : ∀ p e, e < 2 ^ 24 → p ∉ [P.temperatures] → d.reg p e = c.reg p e := fun p e he hp => fourth.only.regs wfC p e he hp
  have fromB : ∀ p e, e < 2 ^ 24 → p ∉ [P.railPower] → c.reg p e = b.reg p e := fun p e he hp => third.only.regs wfB p e he hp
  refine ⟨?_, ⟨?_, ?_, fun i hi => ?_, fun i hi => ?_, inlet, outlet⟩⟩
  · exact (first.mono (by decide)).trans ((second.mono (by decide)).trans ((third.mono (by decide)).trans
      ((fourth.mono (by decide)).trans (fifth.mono (by decide)))))
  · exact (fromD _ _ (by decide) (by decide)).trans ((fromC _ _ (by decide) (by decide)).trans ((fromB _ _ (by decide) (by decide)).trans
      ((second.only.regs wfA _ _ (by decide) (by decide)).trans power)))
  · exact (fromD _ _ (by decide) (by decide)).trans ((fromC _ _ (by decide) (by decide)).trans ((fromB _ _ (by decide) (by decide)).trans voltage))
  · exact (fromD _ _ (by omega) (by decide)).trans ((fromC _ _ (by omega) (by decide)).trans (rails i hi))
  · exact (fromD _ _ (by omega) (by decide)).trans (temps i hi)

end Sys2Proof.WeirLaws

/-! PROOF. The commands of the weir (R285, R292, R295 to R297). -/

namespace Sys2Proof.WeirLaws

open Sys2Proof.Machine Sys2Proof.Claims Sys2Proof.RecordLaws Sys2Proof.StoreTileLaws Sys2Proof.WorkLaws

theorem apart_trans {s t u : State} (h : Apart s t) (g : Apart t u) : Apart s u := by
  obtain ⟨h1, h2, h3, h4, h5, h6, h7, h8, h9, h10, h11, h12, h13⟩ := h
  obtain ⟨g1, g2, g3, g4, g5, g6, g7, g8, g9, g10, g11, g12, g13⟩ := g
  exact ⟨g1.trans h1, g2.trans h2, g3.trans h3, g4.trans h4, g5.trans h5, g6.trans h6, g7.trans h7, g8.trans h8, g9.trans h9, g10.trans h10,
    g11.trans h11, g12.trans h12, g13.trans h13⟩

theorem apart_of_rest {s t : State} (h : t = { s with
    weir := t.weir, params := t.params, log := t.log, draws := t.draws, clock := t.clock, seq := t.seq, supply := t.supply }) : Apart s t := by
  rw [h]
  exact ⟨rfl, rfl, rfl, rfl, rfl, rfl, rfl, rfl, rfl, rfl, rfl, rfl, rfl⟩

theorem apart_of_accounts {s t : State} (h : Accounts s t) : Apart s t := apart_of_rest (by rw [h.rest])

theorem apart_of_tends {ps : List Nat} {s t : State} (h : Tends ps s t) : Apart s t := apart_of_rest (by rw [h.rest])

theorem apart_of_records {ps : List Nat} {s t : State} (h : Records ps s t) : Apart s t := apart_of_rest (by rw [h.rest])

theorem apart_of_senses {s t : State} (h : Senses s t) : Apart s t := apart_of_rest (by rw [h.rest])

/-- R287: in supply gear 0 every die is in gear 0. -/
theorem gearOf_supplyGear_zero {s : State} (h : s.weir.supplyGear = 0) (sl : Nat) : s.gearOf sl = 0 := by
  unfold State.gearOf
  split
  · rfl
  · simp only [h, Nat.min_zero, Nat.zero_min]

/-- R285, R291 to R295: a sample. -/
theorem weirSample_reads {s : State} (x : WeirReadings) (can : Canonical s) (runs : s.weirRuns = true) :
    Completes (.weirSample x) s fun t => t.clock.now = max s.clock.now (s.weir.lastSample + 900000)
        ∧ t.weir.lastSample = t.clock.now ∧ t.weir.waited = false ∧ Reads x t
        ∧ t.weir.powerLimit = s.val P.powerLimit ∧ t.weir.gearCap = s.val P.gearCap ∧ t.weir.depth = s.val P.bucketDepth
        ∧ (∀ k, k < 96 → ((∃ since, (k, since) ∈ t.weir.hot) ↔
            fge (nth x.temps k 0).toNat (s.val (if k < 80 then P.hardLimit else P.hbmLimit)) = true))
        ∧ (coolantOutside x.inlet.toNat = false → t.weir.coolSince = none) ∧ Apart s t := by
  refine ⟨weirSampleStep s x, rfl, ?_⟩
  unfold weirSampleStep
  rw [if_neg (not_not.2 runs)]
  extract_lets a pComp temps d allow e weir f g h i cool src
  -- the time passes
  have accounted : Accounts (s.reach (s.weir.lastSample + samplePeriod)) a := Accounts.accountAll _
  have caught : CaughtUp a := caughtUp_accountAll _
  have clock : a.clock.now = max s.clock.now (s.weir.lastSample + 900000) := congrArg Clock.now accounted.clock
  have canA := accounted.can can
  have valA : ∀ p, p ∉ acRegs → a.val p = s.val p := fun p hp => accounted.val can hp
  have apartA : Apart s a := apart_trans (apart_of_rest rfl) (apart_of_accounts accounted)
  clear_value a
  -- the sample is stored and the parameters take effect
  obtain ⟨stored, reads⟩ := storeSample_reads canA.1 x
  have apartC := apart_of_records stored
  have d_eq : d = (a.storeSample x).takeWeirParams := rfl
  generalize a.storeSample x = c at stored reads d_eq apartC
  have canC := stored.can canA
  have valC : ∀ p, p ∉ readingRegs → p ∉ acRegs → c.val p = s.val p := fun p hr ha => (stored.val canA hr).trans (valA p ha)
  have plan : d.weir.powerLimit = c.val P.powerLimit ∧ d.weir.gearCap = c.val P.gearCap ∧ d.weir.depth = c.val P.bucketDepth
      ∧ d.weir.levels = levelParams.map c.val := by
    rw [d_eq]
    exact ⟨rfl, rfl, rfl, rfl⟩
  have clockD : d.clock = a.clock := by rw [d_eq]; exact stored.clock
  have caughtD : CaughtUp d := caughtUp_congr (by rw [d_eq]; exact (congrArg (fun u : State => u.weir.refilled) stored.rest :)) clockD caught
  have readsD : Reads x d := reads.congr fun p e _ _ => by rw [d_eq]; rfl
  have canD : Canonical d := by rw [d_eq]; exact canC
  have apartD : Apart c d := by rw [d_eq]; exact apart_of_rest rfl
  clear_value d
  -- the weir acts on it
  have corrected : Senses d e := .correct d allow pComp
  have rated : Senses e f := .setWeir e _ ⟨rfl, rfl, rfl, rfl, rfl⟩ rfl
  have geared : Senses f g := .stepPowerGear f _
  have warmed : Senses g h := .foldl (fun k hk v => .stepThermal (by have := List.mem_range.1 hk; omega) v _) g
  have before : Senses d h := corrected.trans (rated.trans (geared.trans warmed))
  clear_value e f g h
  obtain ⟨limited, hot⟩ := stepHardLimit_reads h temps
  replace limited : Senses h i := limited
  replace hot : i.weir.hot = hotNow h temps := hot
  have acted : Senses d i := before.trans limited
  have canI := acted.can canD
  have clockI : i.clock = d.clock := (congrArg State.clock acted.rest :)
  have readsI : Reads x i := readsD.congr fun p e he hp => by
    refine acted.regs canD p e he fun hs => ?_
    have apart : ∀ p ∈ readingRegs, p ∉ senseRegs := by decide
    exact apart p hp hs
  clear_value i
  -- the gears follow
  have last : ∀ j : State, j = { i with weir := { i.weir with waited := false, coolSince := cool, lastSample := i.clock.now } } →
      let t := j.regear
      t.clock = i.clock ∧ t.weir.lastSample = i.clock.now ∧ t.weir.waited = false ∧ Reads x t ∧ t.weir.powerLimit = i.weir.powerLimit
        ∧ t.weir.gearCap = i.weir.gearCap ∧ t.weir.depth = i.weir.depth ∧ t.weir.hot = i.weir.hot ∧ t.weir.coolSince = cool ∧ Apart i t := by
    intro j hj
    have canJ : Canonical j := by rw [hj]; exact canI
    have caughtJ : CaughtUp j := by
      refine caughtUp_congr ?_ ?_ (acted.caught caughtD)
      · rw [hj]
      · rw [hj]
    have tends := tends_regear j
    have waited := waited_regear caughtJ
    have weir := (basin_regear j).weir
    have reads : Reads x j.regear := readsI.congr fun p e he hp => by
      have apart : ∀ p ∈ readingRegs, p ∉ gearRegs := by decide
      refine (tends.reg canJ (apart p hp) he).trans ?_
      rw [hj]
      rfl
    refine ⟨tends.clock.trans (by rw [hj]), ?_, waited.trans (by rw [hj]), reads, ?_, ?_, ?_, ?_, ?_,
      apart_trans (by rw [hj]; exact apart_of_rest rfl) (apart_of_tends tends)⟩
    all_goals rw [weir, hj]
  obtain ⟨clockT, sampled, waited, readsT, limitT, capT, depthT, hotT, coolT, apartT⟩ := last _ rfl
  generalize State.regear _ = t at clockT sampled waited readsT limitT capT depthT hotT coolT apartT
  obtain ⟨limit, cap, depth, levels0⟩ := plan
  obtain ⟨limit', cap', depth', -, -⟩ := acted.plan
  have now : t.clock = a.clock := clockT.trans (clockI.trans clockD)
  refine ⟨?_, ?_, waited, readsT, ?_, ?_, ?_, fun k hk => ?_, fun inside => ?_, ?_⟩
  · rw [now, clock]
  · rw [sampled, clockT]
  · exact limitT.trans (limit'.trans (limit.trans (valC _ (by decide) (by decide))))
  · exact capT.trans (cap'.trans (cap.trans (valC _ (by decide) (by decide))))
  · exact depthT.trans (depth'.trans (depth.trans (valC _ (by decide) (by decide))))
  · have levels : h.weir.levels = levelParams.map c.val := before.plan.2.2.2.1.trans levels0
    have temp : nth temps k 0 = (nth x.temps k 0).toNat := by
      simp only [temps, nth, List.getD_eq_getElem?_getD, List.getElem?_map]
      cases x.temps[k]? <;> rfl
    have level : h.level (if k < 80 then 1 else 4) = s.val (if k < 80 then P.hardLimit else P.hbmLimit) := by
      unfold State.level
      rw [levels]
      split
      · exact valC P.hardLimit (by decide) (by decide)
      · exact valC P.hbmLimit (by decide) (by decide)
    rw [hotT, hot, mem_hotNow hk, State.atLimit, temp, level]
  · rw [coolT]
    exact if_neg (by rw [inside]; decide)
  · exact apart_trans apartA (apart_trans apartC (apart_trans apartD (apart_trans (apart_of_senses acted) apartT)))

/-- The weir's state changed once the ac are accounted, and the gears follow (R287). -/
structure Regears (s t : State) (w : Weir) : Prop where
  weir : t.weir = { w with
    buckets := t.weir.buckets, reserves := t.weir.reserves, refilled := t.weir.refilled, waited := t.weir.waited
    dieGears := t.weir.dieGears, gearTimes := t.weir.gearTimes, gearSince := t.weir.gearSince }
  clock : t.clock = s.clock
  supply : t.supply = s.supply
  can : Canonical t
  regs : OnlyRegs gearRegs s t
  gear0 : t.reg P.moduleGear 0 = w.supplyGear
  gear1 : t.reg P.moduleGear 1 = w.powerGear
  apart : Apart s t

theorem regears_of_accounts {s v : State} (can : Canonical s) (a : Tends acRegs s v) (w : Weir) :
    Regears s ({ v with weir := w } : State).regear w := by
  have canV : Canonical { v with weir := w } := a.can can
  have tends := tends_regear { v with weir := w }
  have basin := basin_regear { v with weir := w }
  have gears := gears_regear canV
  have apart : Apart s { v with weir := w } := apart_trans (apart_of_tends a) (apart_of_rest rfl)
  refine ⟨basin.weir, tends.clock.trans a.clock, tends.supply.trans a.supply, tends.can canV, fun p e he hp => ?_, gears.supply, gears.power,
    apart_trans apart (apart_of_tends tends)⟩
  have none : p ∉ acRegs := fun h => hp ((show acRegs ⊆ gearRegs by decide) h)
  exact (tends.reg canV hp he).trans (a.reg can none he)

/-- R292: the power gear rises. -/
theorem powerGearRise_reads {s : State} (can : Canonical s) {t0 : Nat} (runs : s.weirRuns = true) (below : s.weir.powerGear ≠ 7)
    (low : s.weir.lowSince = some t0) (long : t0 + 9000000 ≤ s.weir.lastSample) :
    Completes .powerGearRise s fun t => t.weir.powerGear = s.weir.powerGear + 1 ∧ t.weir.lowSince = some s.weir.lastSample
      ∧ t.reg P.moduleGear 1 = s.weir.powerGear + 1 ∧ t.clock = s.clock ∧ Apart s t := by
  have run : exec .powerGearRise s = .next ({ s.accountAll with
      weir := { s.accountAll.weir with powerGear := s.accountAll.weir.powerGear + 1, lowSince := some s.accountAll.weir.lastSample } } : State).regear := by
    refine congrArg Host.Outcome.next ?_
    unfold powerRiseStep
    simp only [low]
    refine if_neg ?_
    rintro (stopped | top | early)
    · exact stopped runs
    · exact below top
    · exact Nat.not_lt.2 long early
  have weir := (basin_accountAll s).weir
  have read := regears_of_accounts can (.of_accounts (List.Subset.refl _) (Accounts.accountAll s))
    { s.accountAll.weir with powerGear := s.accountAll.weir.powerGear + 1, lowSince := some s.accountAll.weir.lastSample }
  generalize State.regear _ = t at run read
  refine ⟨t, run, ?_, ?_, ?_, read.clock, read.apart⟩
  · rw [read.weir, weir]
  · rw [read.weir, weir]
  · rw [read.gear1, weir]

/-- R295: the coolant's event, with the weir's note of it. -/
theorem coolant_told {s : State} (can : Canonical s) {x : Nat} {code : Nat} {v : State} (rest : v = { s with weir := v.weir, clock := v.clock }) :
    let t := v.raiseEvent 2 code srcModule x 0
    t.weir = v.weir ∧ t.clock = v.clock ∧ t.reg P.eventsRaised 2 = inc64 (s.reg P.eventsRaised 2) ∧ OnlyRegs eventRegs s t ∧ t.seq = s.seq
      ∧ Apart s t := by
  have told := tells_raiseEvent (cls := 2) (by decide) v code srcModule x 0
  have params : v.params = s.params := (congrArg State.params rest :)
  have canV : Canonical v := by
    rw [rest]
    exact can
  have same : ∀ p e, v.reg p e = s.reg p e := fun p e => State.reg_congr params p e
  refine ⟨told.records.weir, told.records.clock, (told.counted canV).trans (by rw [same]), fun p e he hp => (told.records.regs canV p e he hp).trans (same p e),
    told.records.seq.trans (congrArg State.seq rest :), apart_trans (apart_of_rest ?_) (apart_of_records told.records)⟩
  rw [rest]

theorem coolantStarts_reads {s : State} (can : Canonical s) {x : W32} {t0 : Nat} (runs : s.weirRuns = true) (fresh : s.weir.coolOut = false)
    (since : s.weir.coolSince = some t0) (outside : coolantOutside x.toNat = true) :
    Completes (.coolantOutOfRange x) s fun t => t.weir.coolOut = true ∧ t.clock.now = max s.clock.now (t0 + 9000000000)
      ∧ t.reg P.eventsRaised 2 = inc64 (s.reg P.eventsRaised 2) ∧ OnlyRegs eventRegs s t ∧ t.seq = s.seq ∧ Apart s t := by
  have run : exec (.coolantOutOfRange x) s = .next (({ s.reach (t0 + secRoot) with weir := { s.weir with coolOut := true } } : State).raiseEvent 2 0x03 srcModule x.toNat 0) := by
    refine congrArg Host.Outcome.next ?_
    unfold coolantStep
    rw [if_neg (not_not.2 runs), if_neg (by rw [fresh]; decide)]
    simp only [since]
    exact if_neg (not_not.2 outside)
  obtain ⟨weir, clock, rest⟩ := coolant_told can (x := x.toNat) (code := 0x03) (v := { s.reach (t0 + secRoot) with weir := { s.weir with coolOut := true } }) rfl
  exact ⟨_, run, congrArg Weir.coolOut weir, congrArg Clock.now clock, rest⟩

theorem coolantEnds_reads {s : State} (can : Canonical s) {x : W32} (runs : s.weirRuns = true) (out : s.weir.coolOut = true)
    (inside : coolantOutside x.toNat = false) :
    Completes (.coolantOutOfRange x) s fun t => t.weir.coolOut = false ∧ t.weir.coolSince = none ∧ t.clock = s.clock
      ∧ t.reg P.eventsRaised 2 = inc64 (s.reg P.eventsRaised 2) ∧ OnlyRegs eventRegs s t ∧ t.seq = s.seq ∧ Apart s t := by
  have run : exec (.coolantOutOfRange x) s = .next (({ s with weir := { s.weir with coolOut := false, coolSince := none } } : State).raiseEvent 2 0x04 srcModule x.toNat 0) := by
    refine congrArg Host.Outcome.next ?_
    unfold coolantStep
    rw [if_neg (not_not.2 runs), if_pos out]
    exact if_neg (by rw [inside]; decide)
  obtain ⟨weir, clock, rest⟩ := coolant_told can (x := x.toNat) (code := 0x04) (v := { s with weir := { s.weir with coolOut := false, coolSince := none } }) rfl
  exact ⟨_, run, congrArg Weir.coolOut weir, congrArg Weir.coolSince weir, clock, rest⟩

/-- R296: a dip leaves the drained buckets and reserves empty. -/
theorem empty_dipped {b : State} (caught : CaughtUp b) (empty : Empty b.weir) (at' : Nat) :
    Empty ({ b with weir := { b.weir with supplyGear := 0, dipAt := at' } } : State).regear.weir :=
  empty_regear (caughtUp_congr (s := b) rfl rfl caught) empty

/-- R287, R296: a dip takes every die to gear 0. -/
theorem dies_dipped {b : State} (can : Canonical b) (at' : Nat) {k : Nat} (hk : k < 64) :
    ({ b with weir := { b.weir with supplyGear := 0, dipAt := at' } } : State).regear.reg P.dieGear k = 0 := by
  have canB : Canonical { b with weir := { b.weir with supplyGear := 0, dipAt := at' } } := can
  refine ((gears_regear canB).dies k hk).trans (gearOf_supplyGear_zero ?_ k)
  rw [(basin_geared _).weir]

/-- R296: a dip. -/
theorem supplyDip_reads {s : State} (can : Canonical s) {v : W32} (low : flt v.toNat (s.level 5) = true) (released : s.supply.released = true) :
    Completes (.supplyDip v) s fun t => t.weir.supplyGear = 0 ∧ (∀ k, k < 64 → t.reg P.dieGear k = 0)
      ∧ (∀ i, nth t.weir.buckets i 0 = 0 ∧ nth t.weir.reserves i 0 = 0)
      ∧ t.weir.dipAt = (if s.weir.supplyGear = 0 then s.weir.dipAt else s.clock.now)
      ∧ t.reg P.supplyDips 0 = (if s.weir.supplyGear = 0 then s.reg P.supplyDips 0 else inc32 (s.reg P.supplyDips 0))
      ∧ t.reg P.eventsRaised 2 = inc64 (s.reg P.eventsRaised 2)
      ∧ t.supply = { s.supply with qualified := false } ∧ t.clock = s.clock ∧ Apart s t := by
  refine ⟨supplyDipStep s v.toNat, rfl, ?_⟩
  unfold supplyDipStep
  rw [if_neg (not_not.2 low)]
  extract_lets src src' a first b src'' c
  rw [if_neg (not_not.2 released)]
  have canA : Canonical a := can
  have gearA : a.weir.supplyGear = s.weir.supplyGear := rfl
  have dipA : a.weir.dipAt = s.weir.dipAt := rfl
  have clockA : a.clock = s.clock := rfl
  have supplyA : a.supply = { s.supply with qualified := false } := rfl
  have regA : ∀ p e, a.reg p e = s.reg p e := fun _ _ => rfl
  have apartA : Apart s a := apart_of_rest rfl
  have firstA : first = (s.weir.supplyGear != 0) := rfl
  clear_value a first
  have tends : Tends acRegs a b := (Tends.of_accounts (List.Subset.refl _) (Accounts.accountAll a)).trans (.drainBudget _)
  obtain ⟨drained, empty, caught⟩ := drainBudget_reads a.accountAll
  have weirB : Basin a b := (basin_accountAll a).trans drained
  have read : Regears a c { b.weir with supplyGear := 0, dipAt := if first then b.clock.now else b.weir.dipAt } := regears_of_accounts canA tends _
  have emptyC : Empty c.weir := empty_dipped caught empty _
  have diesC : ∀ k, k < 64 → c.reg P.dieGear k = 0 := fun k hk => dies_dipped (tends.can canA) _ hk
  clear_value b c
  have counted : Records [P.supplyDips] c (if first then c.bump32 P.supplyDips 0 1 else c) := .ite (.bump32 (by decide) (by decide) c 1) (.refl ..)
  have dips : (if first then c.bump32 P.supplyDips 0 1 else c).reg P.supplyDips 0
      = if s.weir.supplyGear = 0 then c.reg P.supplyDips 0 else inc32 (c.reg P.supplyDips 0) := by
    by_cases zero : s.weir.supplyGear = 0
    · have told : ¬ (first = true) := by
        rw [firstA, bne_iff_ne]
        exact not_not.2 zero
      rw [if_pos zero, if_neg told]
    · have told : first = true := firstA.trans (bne_iff_ne.2 zero)
      rw [if_neg zero, if_pos told]
      exact State.reg_bump_same ..
  generalize (if first then c.bump32 P.supplyDips 0 1 else c) = d at counted dips
  have canD := counted.can read.can
  have told := tells_raiseEvent (cls := 2) (by decide) d 0x05 srcModule 0 0
  generalize d.raiseEvent 2 0x05 srcModule 0 0 = t at told
  have weirT : t.weir = c.weir := told.records.weir.trans counted.weir
  have regC : ∀ p e, e < 2 ^ 24 → p ∉ gearRegs → c.reg p e = s.reg p e := fun p e he hp => (read.regs p e he hp).trans (regA p e)
  refine ⟨?_, fun k hk => ?_, fun i => ?_, ?_, ?_, ?_, ?_, ?_, ?_⟩
  · rw [weirT, read.weir]
  · exact (told.records.reg canD (by decide) (by omega)).trans ((counted.reg read.can (by decide) (by omega)).trans (diesC k hk))
  · rw [weirT]
    exact ⟨nth_zero emptyC.1 i, nth_zero emptyC.2 i⟩
  · rw [weirT, read.weir, firstA]
    have dipB : b.weir.dipAt = s.weir.dipAt := by rw [weirB.weir, dipA]
    have clockB : b.clock = s.clock := weirB.clock.trans clockA
    by_cases zero : s.weir.supplyGear = 0
    · simp only [zero, bne_self_eq_false, Bool.false_eq_true, if_false, if_true, dipB]
    · simp only [zero, bne_iff_ne.2 zero, if_false, if_true, clockB]
  · rw [told.records.reg canD (by decide) (by decide), dips, regC _ _ (by decide) (by decide)]
  · rw [told.counted canD, counted.reg read.can (by decide) (by decide), regC _ _ (by decide) (by decide)]
  · exact told.records.supply.trans (counted.supply.trans (read.supply.trans supplyA))
  · exact told.records.clock.trans (counted.clock.trans (read.clock.trans clockA))
  · exact apart_trans apartA (apart_trans read.apart (apart_trans (apart_of_records counted) (apart_of_records told.records)))

/-- R297: the supply recovers. -/
theorem supplyRecovered_reads {s : State} (can : Canonical s) {t0 : Nat} (since : s.weir.hystSince = some t0) (released : s.supply.released = true)
    (down : s.weir.supplyGear = 0) :
    Completes .supplyRecovered s fun t => t.weir.supplyGear = 7 ∧ t.reg P.moduleGear 0 = 7
      ∧ t.clock.now = max s.clock.now (t0 + s.level 8 * 9000)
      ∧ t.reg P.eventsRaised 2 = inc64 (s.reg P.eventsRaised 2) ∧ t.supply = s.supply ∧ Apart s t := by
  refine ⟨recoveredStep s, rfl, ?_⟩
  unfold recoveredStep
  simp only [since]
  rw [if_neg (not_or.2 ⟨not_not.2 released, not_not.2 down⟩)]
  have canR : Canonical (s.reach (t0 + s.level 8 * usRoot)) := can
  have read := regears_of_accounts canR (.of_accounts (List.Subset.refl _) (Accounts.accountAll _))
    { (s.reach (t0 + s.level 8 * usRoot)).accountAll.weir with supplyGear := 7 }
  generalize State.regear _ = c at read
  generalize (c.clock.now - c.weir.dipAt) / usRoot = n
  have told := tells_raiseEvent (cls := 2) (by decide) c 0x06 srcModule n 0
  generalize c.raiseEvent 2 0x06 srcModule n 0 = t at told
  refine ⟨?_, ?_, ?_, ?_, told.records.supply.trans read.supply, ?_⟩
  · rw [told.records.weir, read.weir]
  · exact (told.records.reg read.can (by decide) (by decide)).trans read.gear0
  · rw [told.records.clock, read.clock]
    rfl
  · exact (told.counted read.can).trans (congrArg inc64 (read.regs _ _ (by decide) (by decide)))
  · exact apart_trans (apart_of_rest rfl) (apart_trans read.apart (apart_of_records told.records))

end Sys2Proof.WeirLaws

namespace Sys2Proof.Claims

open Sys2Proof.Machine Sys2Proof.WeirLaws

/-- Settles O29: each command of the weir in turn. -/
theorem weirReadingsAndGearsFollowTheSupply : Obligations.WeirReadingsAndGearsFollowTheSupply := by
  refine ⟨fun s x can runs => ?_, fun s can => ⟨?_, ?_, ?_, ?_, ?_, fun v => rfl⟩⟩
  · obtain ⟨t, run, now, last, waited, reads, rest⟩ := weirSample_reads x can runs
    exact ⟨t, run, now, last, waited, reads.power, reads.voltage, reads.rails, reads.temps, reads.inlet, reads.outlet, rest⟩
  · exact fun t0 runs below low long => powerGearRise_reads can runs below low long
  · exact fun x t0 runs fresh since outside => coolantStarts_reads can runs fresh since outside
  · exact fun x runs out inside => coolantEnds_reads can runs out inside
  · exact fun v low released => supplyDip_reads can low released
  · exact fun t0 since released down => supplyRecovered_reads can since released down

end Sys2Proof.Claims

/-! PROOF. The verdicts of the riffle checker (R271, R274 to R277). -/

namespace Sys2Proof.RiffleLaws

open Sys2Proof.Machine Sys2Proof.Claims Sys2Proof.RecordLaws Sys2Proof.StoreTileLaws Sys2Proof.PanelLaws

/-- The registers that the effects of a verdict write, the verdict's own counter aside (R276, R277). -/
def judgeRegs : List Nat :=
  [P.riffleExempt, P.checkerBlames, P.primaryBlames, P.splits, P.localFlags, P.lateFlags, P.offenderMissed, P.droppedReasons]
    ++ screenRegs ++ (List.range 128).map (P.offenderLatch + ·) ++ eventRegs

/-- The effects of a verdict: counters, latches, screens, requests, marks; no check, and nothing stored (R276, R277, R359). -/
structure Judges (s t : State) : Prop where
  rest : t = { s with
    params := t.params, log := t.log, panel := t.panel, seq := t.seq, upd := t.upd
    riffle := { s.riffle with blames := t.riffle.blames, excluded := t.riffle.excluded } }
  only : WritesOnly judgeRegs s t
  excluded : s.riffle.excluded ⊆ t.riffle.excluded

namespace Judges

variable {s t u : State}

theorem refl (s : State) : Judges s s := ⟨rfl, .of_params _ rfl, List.Subset.refl _⟩

theorem trans (h : Judges s t) (g : Judges t u) : Judges s u := by
  refine ⟨?_, h.only.trans g.only, List.Subset.trans h.excluded g.excluded⟩
  rw [g.rest, h.rest]

theorem of_records (r : Records judgeRegs s t) : Judges s t :=
  ⟨by rw [r.rest], r.only, (congrArg Riffle.excluded r.riffle) ▸ List.Subset.refl _⟩

theorem setVal {p : Nat} (hp : p ∈ judgeRegs) (s : State) (v : Nat) : Judges s (s.setVal p v) := of_records (.setVal hp s v)

theorem bump64 {p e : Nat} (hp : p ∈ judgeRegs) (he : e < 2 ^ 24) (s : State) (n : Nat) : Judges s (s.bump64 p e n) :=
  of_records (.bump64 hp he s n)

theorem setSeq (s : State) (q : Seq) : Judges s { s with seq := q } := ⟨rfl, .of_params _ rfl, List.Subset.refl _⟩

theorem setPanel (s : State) (p : Panel) : Judges s { s with panel := p } := ⟨rfl, .of_params _ rfl, List.Subset.refl _⟩

theorem setUpd (s : State) (x : Upd) : Judges s { s with upd := x } := ⟨rfl, .of_params _ rfl, List.Subset.refl _⟩

theorem ite {c : Prop} [Decidable c] {a b : State} (h : Judges s a) (g : Judges s b) : Judges s (if c then a else b) := by
  split <;> assumption

/-- R85: a verdict offers its record to a latch. -/
theorem offerLatch (s : State) {sl a : Nat} (h : 2 * sl + a < 128) (r : OffenderRec) : Judges s (s.offerLatch sl a r) := by
  have latch : P.offenderLatch + (2 * sl + a) ∈ judgeRegs :=
    List.mem_append_left _ (List.mem_append_right _ (List.mem_map_of_mem (List.mem_range.2 h)))
  unfold State.offerLatch
  extract_lets ix full noted
  have first : Judges s noted := by
    simp only [noted, State.noteLatch]
    exact ite (refl s) (setSeq s _)
  exact ite (refl s) (ite (first.trans (of_records (.bump32 (by decide) (by simp only [ix]; omega) noted 1))) (first.trans (setVal latch noted _)))

theorem offerBlame (s : State) (c : Check) {ix : Nat} (h : ix < 128) (pos product i l : Nat) : Judges s (s.offerBlame c ix pos product i l) :=
  offerLatch s (by omega) _

theorem setScreenRec (s : State) {p : Nat} (h : p < 72) (v : Nat) : Judges s (s.setScreenRec p v) :=
  (setVal (List.mem_append_left _ (List.mem_append_left _ (List.mem_append_right _ (List.mem_map_of_mem (List.mem_range.2 h))))) s v).trans
    (setPanel _ _)

/-- R361: a blame. -/
theorem blame (s : State) {p : Nat} (h : p < 72) : Judges s (s.blame p) := by
  unfold State.blame
  extract_lets r n a panel b
  have counted : Judges s b := (setScreenRec s h _).trans (setPanel a _)
  exact ite (counted.trans (setSeq b _)) counted

/-- R245, R248: a condition of the step in progress or of the next. -/
theorem condition (s : State) (w : Nat) : Judges s (s.condition w) := by
  unfold State.condition
  extract_lets seq a
  exact ite (refl s) (ite (ite ((setSeq s _).trans (bump64 (by decide) (by decide) a 1)) (setSeq s _)) (setVal (by decide) s _))

/-- R277: SUSPECT. -/
theorem suspect (s : State) (n : Nat) : Judges s (s.suspect n) := by
  unfold State.suspect
  extract_lets a late b
  have marked : Judges s b := (setUpd s _ : Judges s a).trans (condition a 8)
  exact ite (condition s 8) (ite (ite (marked.trans (bump64 (by decide) (by decide) b 1)) marked) (refl s))

theorem verdictEvent (s : State) (c : Check) (pos verdict : Nat) : Judges s (s.verdictEvent c pos verdict) :=
  of_records (.raiseEvent (by decide) (by decide) s ..)

/-- R359: a capture enters the replay pool. -/
theorem poolAdd (s : State) (c : Check) : Judges s (s.poolAdd c) := by
  unfold State.poolAdd
  extract_lets b mine others
  exact ite (refl s) (setPanel s _)

theorem checks (h : Judges s t) : t.riffle.checks = s.riffle.checks := (congrArg (fun u : State => u.riffle.checks) h.rest :)

theorem stores (h : Judges s t) : SameStores s t :=
  ⟨(congrArg (fun u : State => u.mem.tiles) h.rest :), (congrArg (fun u : State => u.mem.pages) h.rest :), (congrArg State.flash h.rest :),
    (congrArg State.pending h.rest :)⟩

end Judges

/-- Check `c` has left with a verdict, its counter higher by 1 (Table 12-1). -/
structure HasVerdict (s : State) (c : Check) (v : Nat) (t : State) : Prop where
  checks : t.riffle.checks = s.riffle.checks.filter fun k => k.id != c.id
  counted : t.reg P.verdicts v = inc64 (s.reg P.verdicts v)
  stores : SameStores s t

theorem ended_endCheck (s : State) (c : Check) (v : Nat) : HasVerdict s c v (s.endCheck c v) :=
  ⟨rfl, State.reg_bump_same .., rfl, rfl, rfl, rfl⟩

theorem writesOnly_endCheck (s : State) (c : Check) {v : Nat} (hv : v < 2 ^ 24) {ps : List Nat} (h : P.verdicts ∈ ps) : WritesOnly ps s (s.endCheck c v) :=
  WritesOnly.trans (t := { s with riffle := { s.riffle with checks := s.riffle.checks.filter fun k => k.id != c.id } }) (.of_params _ rfl)
    (.bump64 h hv _ 1)

theorem can_endCheck {s : State} (can : Canonical s) (c : Check) (v : Nat) : Canonical (s.endCheck c v) := by
  obtain ⟨params, tiles, pages, dies⟩ := can
  exact ⟨Sparse.wf_put _ _ params, tiles, pages, dies⟩

/-- What comes before and after the end of a check leaves its verdict. -/
theorem HasVerdict.after {s t u : State} {c : Check} {v : Nat} (ended : HasVerdict s c v t) (hv : v < 2 ^ 24) (can : Sparse.wf paramDefault t.params = true)
    (g : Judges t u) : HasVerdict s c v u :=
  ⟨g.checks.trans ended.checks, (g.only.regs can _ v hv (by decide)).trans ended.counted, WorkLaws.sameStores_trans ended.stores g.stores⟩

theorem HasVerdict.before {s a t : State} {c : Check} {v : Nat} (hv : v < 2 ^ 24) (can : Canonical s) (h : Judges s a) (ended : HasVerdict a c v t) :
    HasVerdict s c v t := by
  obtain ⟨checks, counted, stores⟩ := ended
  exact ⟨checks.trans (by rw [h.checks]), counted.trans (congrArg inc64 (h.only.regs can.1 _ v hv (by decide))),
    WorkLaws.sameStores_trans h.stores stores⟩

/-- R271: a capture lost to the buffer. -/
theorem loseCapture_reads {s : State} (can : Canonical s) (c : Check) :
    let t := s.loseCapture c
    HasVerdict s c 4 t ∧ t.reg P.droppedReasons 3 = inc64 (s.reg P.droppedReasons 3) ∧ OnlyRegs [P.verdicts, P.droppedReasons] s t
      ∧ t.clock = s.clock ∧ t.seq = s.seq := by
  have ended := ended_endCheck s c 4
  have canE := can_endCheck can c 4
  have only : WritesOnly [P.verdicts, P.droppedReasons] s (s.endCheck c 4) := writesOnly_endCheck s c (by decide) (by decide)
  refine ⟨ended.after (by decide) canE.1 (.bump64 (by decide) (by decide) _ 1), (State.reg_bump_same ..).trans ?_,
    (only.trans (WritesOnly.bump64 (by decide) (by decide) _ 1)).regs can.1, rfl, rfl⟩
  exact congrArg inc64 (State.reg_setReg_other (p := P.verdicts) _ _ can.1 (by decide))

/-- R274: no difference. -/
theorem checkPasses_reads {s : State} {id : Nat} {c : Check} {errs : ArrayErrors} (can : Canonical s)
    (found : s.riffle.checks.find? (fun c => c.id == id && c.stage == 1) = some c) (passes : (c.fails errs).isNone = true) :
    HasVerdict s c 0 (checkCompleteStep s id errs false) := by
  unfold checkCompleteStep
  simp only [found, Bool.false_eq_true, if_false, if_pos passes]
  have counted : Records judgeRegs s (s.bump64 P.riffleExempt 0 (128 * ((List.range 128).filter c.exempt).length)) :=
    .bump64 (by decide) (by decide) s _
  generalize s.bump64 P.riffleExempt 0 (128 * ((List.range 128).filter c.exempt).length) = a at counted
  have ended := (ended_endCheck a c 0).before (by decide) can (.of_records counted)
  exact ended.after (by decide) (can_endCheck (counted.can can) c 0).1 (.poolAdd _ c)

/-- R274: a difference sends the check to the arbiter. -/
theorem checkDiffers_reads {s : State} {id : Nat} {c : Check} {errs : ArrayErrors}
    (found : s.riffle.checks.find? (fun c => c.id == id && c.stage == 1) = some c) (differs : (c.fails errs).isNone = false) :
    let t := checkCompleteStep s id errs false
    SameStores s t ∧ t.riffle.checks = s.riffle.checks.map fun k => if k.id = id then { k with stage := 2, errs := errs } else k := by
  unfold checkCompleteStep
  simp only [found, Bool.false_eq_true, if_false, differs]
  exact ⟨⟨rfl, rfl, rfl, rfl⟩, rfl⟩

/-- R275, R276: the vote. -/
theorem arbiter_reads {s : State} {id : Nat} {c : Check} {errs : ArrayErrors} (can : Canonical s) (slot : c.slot < 64) (array : c.array < 2)
    (checker : c.checker < 128) (position : c.position < 72) (checkerPos : c.checkerPos < 72)
    (found : s.riffle.checks.find? (fun c => c.id == id && c.stage == 2) = some c) :
    HasVerdict s c (if (c.fails errs).isNone then 2 else if c.same errs c.errs then 1 else 3) (arbiterStep s id errs false)
      ∧ ((c.fails errs).isNone = true → c.checker ∈ (arbiterStep s id errs false).riffle.excluded) := by
  have params : ∀ v, Sparse.wf paramDefault (s.endCheck c v).params = true := fun v => (can_endCheck can c v).1
  generalize run : arbiterStep s id errs false = t
  unfold arbiterStep at run
  simp -zeta only [found, Bool.false_eq_true, if_false] at run
  extract_lets primary ckPos fail same a₂ b₂ src₂ d₂ a₁ a₃ src₃ d₃ at run
  have verdict : (c.fails errs).isNone = fail.isNone ∧ c.same errs c.errs = same := ⟨rfl, rfl⟩
  rw [verdict.1, verdict.2]
  clear_value fail same
  match fail, same with
  | none, _ =>
    dsimp -zeta only at run
    have counted : Judges (s.endCheck c 2) a₂ := .of_records (.bump32 (by decide) (by omega) _ 1)
    have offered : Judges a₂ b₂ := .offerBlame a₂ c checker ..
    have excluded : Judges b₂ d₂ ∧ c.checker ∈ d₂.riffle.excluded := by
      by_cases already : b₂.riffle.excluded.contains c.checker = true
      · have same : d₂ = b₂ := by simp only [d₂, src₂, if_pos already]
        rw [same]
        exact ⟨.refl b₂, List.contains_iff_mem.1 already⟩
      · have added : d₂ = { b₂ with riffle := { b₂.riffle with excluded := c.checker :: b₂.riffle.excluded } } := by
          simp only [d₂, src₂, if_neg already]
        rw [added]
        exact ⟨⟨rfl, .of_params _ rfl, List.subset_cons_self ..⟩, List.mem_cons_self ..⟩
    have told : Judges d₂ t := run ▸ (Judges.blame d₂ checkerPos).trans (.verdictEvent ..)
    exact ⟨(ended_endCheck s c 2).after (by decide) (params 2) (counted.trans (offered.trans (excluded.1.trans told))),
      fun _ => told.excluded excluded.2⟩
  | some (i, l), true =>
    dsimp -zeta only at run
    extract_lets b src d at run
    have counted : Judges (s.endCheck c 1) a₁ := .of_records (.bump32 (by decide) (by omega) _ 1)
    have offered : Judges a₁ b := .offerBlame a₁ c (by omega) ..
    have blamed : Judges b d := ⟨rfl, .of_params _ rfl, List.Subset.refl _⟩
    have told : Judges d t := run ▸ (Judges.blame d position).trans ((Judges.suspect _ _).trans (.verdictEvent ..))
    exact ⟨(ended_endCheck s c 1).after (by decide) (params 1) (counted.trans (offered.trans (blamed.trans told))), fun h => nomatch h⟩
  | some _, false =>
    dsimp -zeta only at run
    have counted : Judges (s.endCheck c 3) a₃ := .bump64 (by decide) (by decide) _ 1
    have screened : Judges a₃ d₃ := .setPanel a₃ _
    have told : Judges d₃ t := run ▸ (Judges.suspect _ _).trans (.verdictEvent ..)
    exact ⟨(ended_endCheck s c 3).after (by decide) (params 3) (counted.trans (screened.trans told)), fun h => nomatch h⟩

/-- R277: a check lapses. -/
theorem lapsed_reads {s : State} {id m : Nat} {c : Check} (can : Canonical s) (found : s.riffle.checks.find? (fun c => c.id == id) = some c)
    (met : s.metTime c.stamp = some m) :
    let t := lapsedStep s id
    HasVerdict s c 5 t ∧ t.clock.now = max s.clock.now (m + s.val P.riffleDeadline * 9000) ∧ OnlyRegs [P.verdicts] s t := by
  unfold lapsedStep
  simp only [found, met]
  obtain ⟨checks, counted, stores⟩ := ended_endCheck (s.reach (m + s.val P.riffleDeadline * usRoot)) c 5
  refine ⟨⟨checks, counted, stores⟩, rfl, ?_⟩
  have reached : WritesOnly [P.verdicts] s (s.reach (m + s.val P.riffleDeadline * usRoot)) := .of_params _ rfl
  exact (reached.trans (writesOnly_endCheck _ c (by decide) (by decide))).regs can.1

end Sys2Proof.RiffleLaws

namespace Sys2Proof.Claims

open Sys2Proof.Machine Sys2Proof.RiffleLaws

/-- Settles O28: the checker passes a check or sends it on, the arbiter decides by the vote, a lost or late check ends without one. -/
theorem riffleVerdictsEndTheirCheck : Obligations.RiffleVerdictsEndTheirCheck := by
  intro s id c errs can slot array checker position checkerPos
  obtain ⟨⟨gone, counted, stores⟩, rest⟩ := loseCapture_reads can c
  refine ⟨fun found => ⟨fun passes => ?_, fun differs => ?_, ?_⟩, fun found => ⟨?_, ?_⟩, fun m found met => ?_⟩
  · obtain ⟨h1, h2, h3⟩ := checkPasses_reads can found passes
    exact ⟨_, rfl, h1, h2, h3⟩
  · exact ⟨_, rfl, checkDiffers_reads found differs⟩
  · refine ⟨s.loseCapture c, congrArg Host.Outcome.next ?_, ⟨gone, counted, stores⟩, rest⟩
    simp only [checkCompleteStep, found, if_true]
  · obtain ⟨⟨h1, h2, h3⟩, excluded⟩ := arbiter_reads (errs := errs) can slot array checker position checkerPos found
    exact ⟨_, rfl, ⟨h1, h2, h3⟩, excluded⟩
  · refine ⟨s.loseCapture c, congrArg Host.Outcome.next ?_, ⟨gone, counted, stores⟩, rest⟩
    simp only [arbiterStep, found, if_true]
  · obtain ⟨⟨h1, h2, h3⟩, now, only⟩ := lapsed_reads can found met
    exact ⟨_, rfl, ⟨h1, h2, h3⟩, now, only⟩

end Sys2Proof.Claims

/-! PROOF. What reaches the SPI NOR: field state, signatures, firmware (R352, R379, R380, R388, R396). -/

namespace Sys2Proof.BootLaws

open Sys2Proof.Machine Sys2Proof.Claims Sys2Proof.RecordLaws Sys2Proof.StoreTileLaws Sys2Proof.FlashLaws

/-! Signatures. -/

/-- R372: the signatures due are no part of the event records. -/
theorem sigDue_storeEvent (s : State) (x : Event) : (s.storeEvent x).log.sigDue = s.log.sigDue := by
  unfold State.storeEvent
  extract_lets full oldest lost kept a next sink
  have counted : a.log = s.log := by
    simp only [a]
    split <;> rfl
  show a.log.sigDue = _
  rw [counted]

theorem sigDue_raiseEvent (s : State) (cls code source d0 d1 : Nat) : (s.raiseEvent cls code source d0 d1).log.sigDue = s.log.sigDue := by
  unfold State.raiseEvent State.raiseEventOf
  extract_lets a time newest within
  split
  · rfl
  · exact sigDue_storeEvent a _

/-- R379: the newest 32 signatures, with the new one last. -/
theorem addSig_reads (n : Nor) (x : SigRec) (h : n.sigs.length ≤ 32) :
    (n.addSig x).sigs.getLast? = some x ∧ (n.addSig x).sigs.length ≤ 32 ∧ (n.addSig x).sigSeq = x.id := by
  unfold Nor.addSig
  split
  next old rest shape =>
    have bound : rest.length + 1 ≤ 32 := by rwa [shape] at h
    split
    next room => exact ⟨List.getLast?_concat .., by rw [List.length_append]; exact room, rfl⟩
    next => exact ⟨List.getLast?_concat .., by rw [List.length_append]; exact bound, rfl⟩
  next => exact ⟨rfl, (by decide : 1 ≤ 32), rfl⟩

/-- R379, R380: a signature is stored. -/
theorem signatureStore_reads {s : State} (can : Canonical s) {src : Nat} {dat : List Byte} {rest : List (Nat × List Byte)}
    (due : s.log.sigDue = (src, dat) :: rest) (h : s.nor.sigs.length ≤ 32) :
    Completes .signatureStore s fun t => t.log.sigDue = rest
      ∧ t.nor.sigs.getLast? = some { id := s.nor.sigSeq + 1, acked := false, dat := dat } ∧ t.nor.sigs.length ≤ 32
      ∧ t.nor.sigSeq = s.nor.sigSeq + 1 ∧ t.reg P.eventsRaised 7 = inc64 (s.reg P.eventsRaised 7)
      ∧ OnlyRegs eventRegs s t ∧ SameStores s t ∧ t.clock = s.clock ∧ t.seq = s.seq := by
  refine ⟨signatureStoreStep s, rfl, ?_⟩
  unfold signatureStoreStep
  simp -zeta only [due]
  extract_lets id log a b log₁
  obtain ⟨last, bound, number⟩ := addSig_reads s.nor { id := id, acked := false, dat := dat } h
  have canA : Canonical a := can
  have told : Tells 7 a b := tells_raiseEvent (by decide) a ..
  have dueB : b.log.sigDue = rest := sigDue_raiseEvent a ..
  have norB : b.nor = s.nor.addSig { id := id, acked := false, dat := dat } := told.records.nor
  have read : ∀ t : State, t = { b with log := t.log } → t.log.sigDue = rest → t.log.sigDue = rest
      ∧ t.nor.sigs.getLast? = some { id := s.nor.sigSeq + 1, acked := false, dat := dat } ∧ t.nor.sigs.length ≤ 32
      ∧ t.nor.sigSeq = s.nor.sigSeq + 1 ∧ t.reg P.eventsRaised 7 = inc64 (s.reg P.eventsRaised 7)
      ∧ OnlyRegs eventRegs s t ∧ SameStores s t ∧ t.clock = s.clock ∧ t.seq = s.seq := by
    intro t ht due
    refine ⟨due, ?_⟩
    rw [ht, norB]
    exact ⟨last, bound, number, told.counted canA, told.records.regs canA, told.records.stores, told.records.clock, told.records.seq⟩
  split
  · exact read _ rfl dueB
  · exact read b rfl dueB

/-! Firmware. -/

/-- R392: a written boot state record keeps the slots, and stands in one of the two copies. -/
theorem writeBoot_reads (n : Nor) (r : BootRec) :
    (∀ i, (n.writeBoot r).slot i = n.slot i)
      ∧ ∃ q, ((n.writeBoot r).boot0 = some { r with seq := q } ∨ (n.writeBoot r).boot1 = some { r with seq := q }) := by
  unfold Nor.writeBoot
  extract_lets q written
  split
  · exact ⟨fun _ => rfl, q, .inl rfl⟩
  · split
    · exact ⟨fun _ => rfl, q, .inr rfl⟩
    · exact ⟨fun _ => rfl, q, .inl rfl⟩

theorem slot_setSlot (n : Nor) (i : Nat) (x : FwSlot) : (n.setSlot i x).slot i = x := by
  unfold Nor.setSlot Nor.slot
  by_cases zero : i = 0
  · simp only [zero, if_true]
  · simp only [zero, if_false]

/-- R396: an install that fails. -/
theorem fwFailed_reads {s : State} (can : Canonical s) :
    let t := s.fwDone 0x14 0
    t.val P.fwStatus = 0x14 ∧ t.nor = s.nor ∧ OnlyRegs [P.fwStatus] s t ∧ SameStores s t ∧ t.clock = s.clock ∧ t.fw = s.fw
      ∧ t.boot = s.boot := by
  have only := (confirms_fwDone s 0x14 0).only.regs can.1
  exact ⟨State.val_setVal_same .., rfl, only, ⟨rfl, rfl, rfl, rfl⟩, rfl, rfl, only _ _ (by decide) (by decide)⟩

/-- The boot record that an install leaves (R392, R396). -/
def trialRec (s : State) : BootRec :=
  { (s.bootRec).getD { svnFloor := s.floors.1, keyFloor := s.floors.2 } with trial := s.fw.target, trialCount := 0, trialResult := 0 }

/-- The SPI NOR that an install of `elems` leaves (R390, R392, R396). -/
def installedNor (s : State) (elems : Sparse Nat) : Nor :=
  let w := s.nor.setSlot s.fw.target (.image elems)
  if s.val P.identityState = 0 then w.writeBoot (trialRec s) else w

theorem installedNor_slot (s : State) (elems : Sparse Nat) : (installedNor s elems).slot s.fw.target = .image elems := by
  unfold installedNor
  extract_lets w
  have written : w.slot s.fw.target = .image elems := slot_setSlot ..
  split
  · exact ((writeBoot_reads w (trialRec s)).1 _).trans written
  · exact written

theorem installedNor_trial {s : State} (elems : Sparse Nat) (identity : s.val P.identityState = 0) :
    ∃ r, ((installedNor s elems).boot0 = some r ∨ (installedNor s elems).boot1 = some r) ∧ r.trial = s.fw.target
      ∧ r.trialCount = 0 ∧ r.trialResult = 0 := by
  unfold installedNor
  extract_lets w
  rw [if_pos identity]
  obtain ⟨-, q, stands⟩ := writeBoot_reads w (trialRec s)
  exact ⟨_, stands, rfl, rfl, rfl⟩

/-- R390: a panel reset starts power-up again and keeps the SPI NOR. -/
theorem panelReset_reads (s : State) :
    s.panelReset.nor = s.nor ∧ s.panelReset.boot = 0 ∧ s.panelReset.supply.powering = true ∧ s.panelReset.supply.released = false := by
  have lost : Backs s s.loseCheckpoints.loseWrites := (Backs.loseCheckpoints s).trans (.loseWrites _)
  exact ⟨(congrArg State.nor lost :), rfl, rfl, rfl⟩

end Sys2Proof.BootLaws

namespace Sys2Proof.Claims

open Sys2Proof.Machine Sys2Proof.BootLaws

/-- Settles O33: the field state, the oldest signature due, and the end of an install. -/
theorem fieldStateFirmwareAndSignaturesReachTheNor : Obligations.FieldStateFirmwareAndSignaturesReachTheNor := by
  intro s can
  refine ⟨fun dirty => ?_, fun src dat rest due h => signatureStore_reads can due h, fun installs => ⟨?_, ?_⟩⟩
  · exact congrArg Host.Outcome.next (if_neg (not_not.2 dirty))
  · obtain ⟨status, nor, only, stores, clock, fw, -⟩ := fwFailed_reads can
    refine ⟨s.fwDone 0x14 0, congrArg Host.Outcome.next ?_, status, nor, only, stores, clock, fw⟩
    unfold installDoneStep
    rw [if_neg (not_not.2 installs)]
    exact if_pos (.inl Bool.false_ne_true)
  · intro size elems w
    refine ⟨installDoneStep s true, rfl, fun bad => ?_, fun good => ?_⟩
    · have run : installDoneStep s true = s.fwDone 0x14 0 := by
        unfold installDoneStep
        rw [if_neg (not_not.2 installs)]
        exact if_pos (.inr (Bool.eq_false_iff.1 bad))
      rw [run]
      obtain ⟨status, nor, -, -, -, -, boot⟩ := fwFailed_reads can
      exact ⟨status, nor, boot⟩
    · generalize installed : ({ s with nor := installedNor s elems } : State).fwDone 0x00 0 = d
      have run : installDoneStep s true = if d.boot = 5 then d.panelReset else d := by
        rw [← installed]
        unfold installDoneStep
        rw [if_neg (not_not.2 installs)]
        exact if_neg (not_or.2 ⟨not_not.2 rfl, not_not.2 good⟩)
      have done := confirms_fwDone { s with nor := installedNor s elems } 0x00 0
      rw [installed] at done
      have only : OnlyRegs [P.fwStatus] s d := done.only.regs can.1
      have status : d.val P.fwStatus = 0 := installed ▸ State.val_setVal_same ..
      have boot : d.boot = s.boot := only _ _ (by decide) (by decide)
      have nor : (installDoneStep s true).nor = installedNor s elems := by
        have norD : d.nor = installedNor s elems := installed ▸ rfl
        rw [run]
        split
        · exact (panelReset_reads d).1.trans norD
        · exact norD
      rw [nor]
      refine ⟨installedNor_slot s elems, installedNor_trial elems, fun booted => ?_, fun recovers => ?_⟩
      · rw [run, boot, if_neg booted]
        exact ⟨status, only, installed ▸ rfl, installed ▸ rfl, installed ▸ ⟨rfl, rfl, rfl, rfl⟩⟩
      · rw [run, boot, if_pos recovers]
        exact (panelReset_reads d).2

end Sys2Proof.Claims

/-! PROOF. Programming of flash pages, reads of the ladder, and blocks (R190 to R205). -/

namespace Sys2Proof.Machine

/-- A key reads as before when another is stored: also in a map that is not canonical. -/
theorem Sparse.get_put_ne {α : Type} [DecidableEq α] {d : Nat → α} (m : Sparse α) {j k : Nat} (v : α) (h : j ≠ k) :
    Sparse.get d (Sparse.put d m k v) j = Sparse.get d m j := by
  have dropped : ∀ m : Sparse α, (k < j → Sparse.get d (m.dropWhile fun e => decide (e.1 ≤ k)) j = Sparse.get d m j)
      ∧ (j < k → Sparse.get d (m.dropWhile fun e => decide (e.1 ≤ k)) j = d j) := by
    intro m
    induction m with
    | nil => exact ⟨fun _ => rfl, fun _ => rfl⟩
    | cons e m ih =>
      rw [List.dropWhile_cons]
      split
      next low =>
        have low := of_decide_eq_true low
        refine ⟨fun above => (ih.1 above).trans ?_, ih.2⟩
        rw [Sparse.get, if_neg (by omega), if_neg (by omega)]
      next high =>
        refine ⟨fun _ => rfl, fun below => ?_⟩
        have high : ¬ e.1 ≤ k := fun x => high (decide_eq_true x)
        rw [Sparse.get, if_pos (by omega)]
  induction m with
  | nil =>
    unfold Sparse.put
    split
    · rfl
    · simp only [Sparse.get, if_neg h, ite_self]
  | cons e m ih =>
    obtain ⟨k', v'⟩ := e
    unfold Sparse.put
    split
    next before =>
      split
      · rfl
      · show (if j < k then d j else if j = k then v else Sparse.get d ((k', v') :: m) j) = _
        rw [if_neg h]
        split
        · rw [Sparse.get, if_pos (by omega)]
        · rfl
    next =>
      split
      next here =>
        subst here
        split
        · show _ = if j < k then d j else if j = k then v' else Sparse.get d m j
          rw [if_neg h]
          split
          next below => exact (dropped m).2 below
          next above => exact (dropped m).1 (by omega)
        · simp only [Sparse.get, if_neg h]
      next => simp only [Sparse.get, ih]

end Sys2Proof.Machine

namespace Sys2Proof.FlashLaws

open Sys2Proof.Machine Sys2Proof.Claims Sys2Proof.RecordLaws Sys2Proof.StoreTileLaws

/-- Flash pages are taken or programmed: pages, units, stripes and blocks alone may differ. -/
def Programs (s t : State) : Prop :=
  t = { s with flash := { s.flash with
    pages := t.flash.pages, lus := t.flash.lus, stripes := t.flash.stripes, filled := t.flash.filled, layout := t.flash.layout
    seqs := t.flash.seqs, lastLu := t.flash.lastLu, opened := t.flash.opened, erases := t.flash.erases, used := t.flash.used
    reads := t.flash.reads } }

theorem Programs.trans {s t u : State} (h : Programs s t) (g : Programs t u) : Programs s u := by
  unfold Programs at h g ⊢
  rw [g, h]

/-- A block is erased or opened: neither units nor the books of the stripes differ, the layout of closed ones aside. -/
def Takes (s t : State) : Prop :=
  t = { s with flash := { s.flash with
    pages := t.flash.pages, layout := t.flash.layout, opened := t.flash.opened, erases := t.flash.erases, used := t.flash.used
    reads := t.flash.reads } }

namespace Takes

variable {s t u : State}

theorem trans (h : Takes s t) (g : Takes t u) : Takes s u := by
  unfold Takes at h g ⊢
  rw [g, h]

theorem programs (h : Takes s t) : Programs s t := by
  unfold Takes at h
  unfold Programs
  rw [h]

theorem filled (h : Takes s t) : t.flash.filled = s.flash.filled := (congrArg (fun u : State => u.flash.filled) h :)
theorem lus (h : Takes s t) : t.flash.lus = s.flash.lus := (congrArg (fun u : State => u.flash.lus) h :)
theorem stripes (h : Takes s t) : t.flash.stripes = s.flash.stripes := (congrArg (fun u : State => u.flash.stripes) h :)

end Takes

theorem takes_eraseBlock (s : State) (k : Nat) : Takes s (s.eraseBlock k) := by
  unfold State.eraseBlock
  dsimp only
  split <;> rfl

theorem takes_takePage (s : State) (d c : Nat) : Takes s (s.takePage d c).2 := by
  unfold State.takePage
  dsimp only
  split
  · rfl
  · split
    · rfl
    · exact (takes_eraseBlock s _).trans rfl

theorem programs_closeStripe (s : State) (d : Nat) : Programs s (s.closeStripe d) ∧ (s.closeStripe d).flash.lus = s.flash.lus := by
  have taken := takes_takePage s d (s.stripeChans d).1
  unfold State.closeStripe
  dsimp only
  generalize s.takePage d (s.stripeChans d).1 = x at taken
  obtain ⟨_ | k, v⟩ := x
  · exact ⟨taken.programs.trans rfl, taken.lus⟩
  · exact ⟨taken.programs.trans rfl, taken.lus⟩

/-- R193: a closed stripe lists its pages, and the next one is empty. -/
theorem closeStripe_reads (s : State) (d : Nat) :
    nth (s.closeStripe d).flash.filled d [] = [] ∧ nth (s.closeStripe d).flash.stripes d 0 = nth s.flash.stripes d 0 + 1
      ∧ ∀ p ∈ nth s.flash.filled d [], p ∈ Sparse.get (fun _ => []) (s.closeStripe d).flash.layout (s.openStripe d) := by
  have taken := takes_takePage s d (s.stripeChans d).1
  have closed : ∀ v : State, v.flash.stripes = s.flash.stripes → (∀ p ∈ nth s.flash.filled d [], p ∈ nth v.flash.filled d []) →
      let t : State := { v with flash := { v.flash with
        layout := Sparse.put (fun _ => []) v.flash.layout (v.openStripe d) (nth v.flash.filled d [])
        stripes := setAt 0 v.flash.stripes d (nth v.flash.stripes d 0 + 1), filled := setAt [] v.flash.filled d [] } }
      nth t.flash.filled d [] = [] ∧ nth t.flash.stripes d 0 = nth s.flash.stripes d 0 + 1
        ∧ ∀ p ∈ nth s.flash.filled d [], p ∈ Sparse.get (fun _ => []) t.flash.layout (s.openStripe d) := by
    intro v stripes pages
    have open' : s.openStripe d = v.openStripe d := by rw [State.openStripe, State.openStripe, stripes]
    refine ⟨nth_setAt_same .., (nth_setAt_same ..).trans (by rw [stripes]), fun p hp => ?_⟩
    show p ∈ Sparse.get _ (Sparse.put _ _ _ _) _
    rw [open', Sparse.get_put_same]
    exact pages p hp
  unfold State.closeStripe
  dsimp only
  generalize s.takePage d (s.stripeChans d).1 = x at taken
  obtain ⟨_ | k, v⟩ := x
  · exact closed v taken.stripes fun p hp => taken.filled ▸ hp
  · refine closed _ (Eq.trans rfl taken.stripes) fun p hp => ?_
    show p ∈ nth (setAt [] v.flash.filled d (nth v.flash.filled d [] ++ [k])) d []
    rw [nth_setAt_same, taken.filled]
    exact List.mem_append_left _ hp

/-- R192: what programming unit `x` leaves: where it took a page, the unit lies there with its metadata. -/
structure Programmed (s : State) (x dat : Nat) (ok : Bool) (t : State) : Prop where
  programs : Programs s t
  kept : ok = false → t.flash.lus = s.flash.lus
  unit : ok = true → ∃ l : LuInfo, t.flash.lus = Sparse.put luDefault s.flash.lus x l ∧ l.valid = true ∧ l.copy = (s.lu x).copy
    ∧ ((nth s.flash.filled (x % 8) []).length + 1 < (s.stripeChans (x % 8)).2.length →
      ∃ n, t.flashPage l.page = { unit := x / 8, seq := n, crc := flashCrc (x / 8) n dat, dat := dat })

theorem programmed_programLu (s : State) (x dat : Nat) : Programmed s x dat (s.programLu x dat).1 (s.programLu x dat).2 := by
  unfold State.programLu
  dsimp only
  split
  · exact ⟨rfl, fun _ => rfl, fun h => nomatch h⟩
  next c room =>
    have taken := takes_takePage s (luBase x) c
    generalize s.takePage (luBase x) c = y at taken
    obtain ⟨_ | k, v⟩ := y
    · exact ⟨taken.programs, fun _ => taken.lus, fun h => nomatch h⟩
    · have copy : (v.lu x).copy = (s.lu x).copy := by rw [State.lu, State.lu, taken.lus]
      dsimp only
      refine ⟨?_, (fun h => nomatch h), fun _ => ⟨{ v.lu x with written := true, poisoned := false, page := k, stripe := v.openStripe (luBase x) }, ?_, rfl, copy,
        fun short => ⟨nth v.flash.seqs (luBase x) 0, ?_⟩⟩⟩
      · split
        · refine taken.programs.trans (Programs.trans ?_ (programs_closeStripe ..).1)
          rfl
        · exact taken.programs.trans rfl
      · rw [← taken.lus]
        split
        · exact (programs_closeStripe ..).2
        · rfl
      · rw [if_neg]
        · exact Sparse.get_put_same ..
        · show ¬ (s.stripeChans (x % 8)).2.length ≤ (nth (setAt [] v.flash.filled (x % 8) (nth v.flash.filled (x % 8) [] ++ [k])) (x % 8) []).length
          rw [nth_setAt_same, taken.filled, List.length_append]
          exact Nat.not_le.2 short

/-! Poisoned units. -/

/-- The units' own state aside, poisoning unit `x` writes its tiles alone (R191). -/
theorem markPoison_rest (s : State) (x : Nat) :
    s.markPoison x = { s with
      mem := { s.mem with tiles := (s.markPoison x).mem.tiles }
      flash := { s.flash with lus := Sparse.put luDefault s.flash.lus x { s.lu x with written := true, poisoned := true } } } := by
  have refreshed : ∀ v : State, v.refreshLu x = { v with mem := { v.mem with tiles := (v.refreshLu x).mem.tiles } } := by
    intro v
    unfold State.refreshLu
    split
    · rfl
    · next p ts _ =>
      have folded : ∀ (ts : List Nat) (w : State),
          (ts.foldl (fun s t => s.putTile (64 * p + t) (s.bwTile (s.page p) (64 * p + t))) w)
            = { w with mem := { w.mem with tiles := (ts.foldl (fun s t => s.putTile (64 * p + t) (s.bwTile (s.page p) (64 * p + t))) w).mem.tiles } } := by
        intro ts
        induction ts with
        | nil => exact fun _ => rfl
        | cons t ts ih =>
          intro w
          rw [List.foldl_cons, ih]
          rfl
      exact folded ts v
  unfold State.markPoison
  rw [refreshed]
  rfl

theorem markPoison_can {s : State} (can : Canonical s) (x : Nat) : Canonical (s.markPoison x) :=
  (PanelLaws.Boards.markPoison [] s x).mends.can can

end Sys2Proof.FlashLaws

/-! PROOF. The writes of logical units come to an end (R193, R194, R196, R202). -/

namespace Sys2Proof.FlashLaws

open Sys2Proof.Machine Sys2Proof.Claims Sys2Proof.RecordLaws Sys2Proof.StoreTileLaws

/-- What writes of units count. -/
def unitRegs : List Nat := [P.luWrites, P.discardedWrites, P.mirrorShort] ++ eventRegs

/-- Units are written: tiles, the flash's pages and units, second copies, counts and events alone may differ. -/
structure Stows (ps : List Nat) (s t : State) : Prop where
  rest : t = { s with
    params := t.params, log := t.log, mem := { s.mem with tiles := t.mem.tiles, mirrorTold := t.mem.mirrorTold }
    flash := { s.flash with
      pages := t.flash.pages, lus := t.flash.lus, stripes := t.flash.stripes, filled := t.flash.filled, layout := t.flash.layout
      seqs := t.flash.seqs, lastLu := t.flash.lastLu, opened := t.flash.opened, erases := t.flash.erases, used := t.flash.used
      reads := t.flash.reads, mirrors := t.flash.mirrors } }
  only : WritesOnly ps s t

namespace Stows

variable {ps : List Nat} {s t u : State}

theorem trans (h : Stows ps s t) (g : Stows ps t u) : Stows ps s u := by
  refine ⟨?_, h.only.trans g.only⟩
  rw [g.rest, h.rest]

theorem of_programs (h : Programs s t) : Stows ps s t := by
  unfold Programs at h
  exact ⟨by rw [h], .of_params _ (congrArg State.params h :)⟩

theorem of_records (r : Records ps s t) : Stows ps s t := ⟨by rw [r.rest], r.only⟩

theorem markPoison (s : State) (x : Nat) : Stows ps s (s.markPoison x) :=
  ⟨by rw [markPoison_rest], .of_params _ (congrArg State.params (markPoison_rest s x) :)⟩

theorem writes (h : Stows ps s t) : t.flash.writes = s.flash.writes := (congrArg (fun u : State => u.flash.writes) h.rest :)
theorem pages (h : Stows ps s t) : t.mem.pages = s.mem.pages := (congrArg (fun u : State => u.mem.pages) h.rest :)

end Stows

theorem lu_of_put {s t : State} {x : Nat} {l : LuInfo} (h : t.flash.lus = Sparse.put luDefault s.flash.lus x l) : t.lu x = l := by
  rw [State.lu, h, Sparse.get_put_same]

theorem lu_of_put_other {s t : State} {x m : Nat} {l : LuInfo} (h : t.flash.lus = Sparse.put luDefault s.flash.lus m l) (hx : x ≠ m) : t.lu x = s.lu x := by
  rw [State.lu, h, Sparse.get_put_ne _ _ hx, State.lu]

theorem lu_congr {s t : State} (h : t.flash.lus = s.flash.lus) (x : Nat) : t.lu x = s.lu x := by rw [State.lu, h, State.lu]

theorem lu_markPoison (s : State) (x : Nat) : (s.markPoison x).lu x = { s.lu x with written := true, poisoned := true } :=
  lu_of_put (congrArg (fun u : State => u.flash.lus) (markPoison_rest s x) :)

theorem lu_markPoison_other (s : State) {x m : Nat} (h : x ≠ m) : (s.markPoison m).lu x = s.lu x :=
  lu_of_put_other (congrArg (fun u : State => u.flash.lus) (markPoison_rest s m) :) h

/-- R202: a write that found its page. -/
theorem writeLu_good {s : State} {x dat : Nat} (h : (s.programLu x dat).1 = true) :
    s.writeLu x dat = (s.programLu x dat).2.bump64 P.luWrites (x % 8) 1 := by
  unfold State.writeLu
  generalize s.programLu x dat = y at h
  obtain ⟨_ | _, v⟩ := y
  · exact nomatch h
  · rfl

/-- R202: a write that found none. -/
theorem writeLu_bad {s : State} {x dat : Nat} (h : (s.programLu x dat).1 = false) :
    s.writeLu x dat = ((s.programLu x dat).2.markPoison x).bump64 P.discardedWrites 0 1 := by
  unfold State.writeLu
  generalize s.programLu x dat = y at h
  obtain ⟨_ | _, v⟩ := y
  · rfl
  · exact nomatch h

theorem Stows.writeLu {ps : List Nat} (hl : P.luWrites ∈ ps) (hd : P.discardedWrites ∈ ps) (s : State) (x dat : Nat) :
    Stows ps s (s.writeLu x dat) := by
  have programmed := programmed_programLu s x dat
  cases good : (s.programLu x dat).1 with
  | true =>
    rw [writeLu_good good]
    exact (Stows.of_programs programmed.programs).trans (.of_records (.bump64 hl (by omega) _ 1))
  | false =>
    rw [writeLu_bad good]
    exact (Stows.of_programs programmed.programs).trans ((Stows.markPoison _ x).trans (.of_records (.bump64 hd (by decide) _ 1)))

/-- A written unit is written, with content or with poison, and every other is as it was. -/
theorem lu_writeLu (s : State) (x dat : Nat) : ((s.writeLu x dat).lu x).written = true ∧ ∀ m, m ≠ x → (s.writeLu x dat).lu m = s.lu m := by
  have programmed := programmed_programLu s x dat
  cases good : (s.programLu x dat).1 with
  | true =>
    rw [writeLu_good good]
    obtain ⟨l, lus, valid, -⟩ := programmed.unit good
    have written : l.written = true := ((Bool.and_eq_true _ _).mp valid).1
    exact ⟨(congrArg LuInfo.written (lu_of_put lus)).trans written, fun m hm => lu_of_put_other lus hm⟩
  | false =>
    rw [writeLu_bad good]
    exact ⟨congrArg LuInfo.written (lu_markPoison ..), fun m hm => (lu_markPoison_other _ hm).trans (lu_congr (programmed.kept good) m)⟩

/-- R196: the second copy of a unit. -/
theorem writeCopy_reads (s : State) (x page dat : Nat) : Stows unitRegs s (s.writeCopy x page dat)
    ∧ ((s.lu x).written = true → ((s.writeCopy x page dat).lu x).written = true) := by
  unfold State.writeCopy
  split
  · extract_lets a
    have counted : Stows unitRegs s a := .of_records (.bump64 (by decide) (by decide) s 1)
    split
    · exact ⟨counted, id⟩
    · have told : Records unitRegs { a with mem := { a.mem with mirrorTold := true } }
          (({ a with mem := { a.mem with mirrorTold := true } } : State).raiseEvent 7 0x0B (srcBase (luBase x)) page 0) :=
        .raiseEvent (by decide) (by decide) _ ..
      have marked : Stows unitRegs a { a with mem := { a.mem with mirrorTold := true } } := ⟨rfl, .of_params _ rfl⟩
      refine ⟨counted.trans (marked.trans (.of_records told)), fun h => ?_⟩
      rw [lu_congr (congrArg Flash.lus told.flash)]
      exact h
  next m _ =>
    extract_lets src a
    have named : Stows unitRegs s { a with flash := { a.flash with mirrors := Sparse.put zeros a.flash.mirrors m (x + 1) } } := ⟨rfl, .of_params _ rfl⟩
    have copied : a.lu x = { s.lu x with copy := some m } := lu_of_put (s := s) rfl
    obtain ⟨written, others⟩ := lu_writeLu { a with flash := { a.flash with mirrors := Sparse.put zeros a.flash.mirrors m (x + 1) } } m dat
    refine ⟨named.trans (.writeLu (by decide) (by decide) _ m dat), fun h => ?_⟩
    by_cases same : x = m
    · subst same
      exact written
    · rw [others x same]
      exact (congrArg LuInfo.written copied).trans h

/-- R196: a copy for which there is no room. -/
theorem writeCopy_short {s : State} (can : Canonical s) {x page dat : Nat} (none' : (s.lu x).copy = none) (room : s.mirrorLu x = none) :
    (s.writeCopy x page dat).reg P.mirrorShort 0 = inc64 (s.reg P.mirrorShort 0) := by
  unfold State.writeCopy
  simp -zeta only [none', room, Option.orElse]
  extract_lets a
  have counted : a.reg P.mirrorShort 0 = inc64 (s.reg P.mirrorShort 0) := State.reg_bump_same ..
  have canA : Canonical a := (Records.bump64 (ps := [P.mirrorShort]) (by decide) (by decide) s 1).can can
  split
  · exact counted
  · have canB : Canonical { a with mem := { a.mem with mirrorTold := true } } := canA
    exact ((Records.raiseEvent (List.Subset.refl _) (by decide) _ ..).reg canB (by decide) (by decide)).trans counted

theorem mirrorLu_congr {s t : State} (mirrors : t.flash.mirrors = s.flash.mirrors) (val : ∀ p, p = P.mirrorBlocks ∨ p = P.journalBlocks → t.val p = s.val p)
    (x : Nat) : t.mirrorLu x = s.mirrorLu x := by
  rw [State.mirrorLu, State.mirrorLu, State.bwBlocks, State.bwBlocks, mirrors, val _ (.inl rfl), val _ (.inr rfl)]

/-- R194: the step of a write that is the oldest of its base die. -/
theorem luWriteStep_eq {s : State} {x : Nat} {w : LuWrite} {ws : List LuWrite} (queue : s.luQueue (x % 8) = w :: ws) (unit : w.lu = x) :
    let v : State := { s with flash := { s.flash with writes := removeFirst (fun k => luBase k.lu == x % 8) s.flash.writes } }
    let a := v.writeLu x (w.over (s.luContent x))
    luWriteStep s x = if w.mirrored ∧ (a.lu x).valid then a.writeCopy x w.page (w.over (s.luContent x)) else a := by
  intro v a
  unfold luWriteStep luBase
  simp only [queue, unit, ne_eq, not_true, if_false]
  rfl

/-- R194, R202: the write is over. -/
theorem luWrite_reads {s : State} {x : Nat} (can : Canonical s) {w : LuWrite} {ws : List LuWrite} (queue : s.luQueue (x % 8) = w :: ws) (unit : w.lu = x) :
    let v : State := { s with flash := { s.flash with writes := removeFirst (fun k => luBase k.lu == x % 8) s.flash.writes } }
    let dat := w.over (s.luContent x)
    let good := (v.programLu x dat).1
    Completes (.luWriteComplete x) s fun t => t.flash.writes = v.flash.writes ∧ (t.lu x).written = true
      ∧ (w.mirrored = false → (t.lu x).poisoned = !good)
      ∧ (good = true → w.mirrored = false → t.mem = s.mem ∧ OnlyRegs [P.luWrites] s t
          ∧ t.reg P.luWrites (x % 8) = inc64 (s.reg P.luWrites (x % 8))
          ∧ ((nth s.flash.filled (x % 8) []).length + 1 < (s.stripeChans (x % 8)).2.length → t.luContent x = dat
              ∧ (t.flashPage (t.lu x).page).matches (x / 8) = true))
      ∧ (good = true → w.mirrored = true → (s.lu x).copy = none → s.mirrorLu x = none →
          t.reg P.mirrorShort 0 = inc64 (s.reg P.mirrorShort 0))
      ∧ (good = false → t.reg P.discardedWrites 0 = inc64 (s.reg P.discardedWrites 0))
      ∧ t.mem.pages = s.mem.pages ∧ t.clock = s.clock ∧ t.pending = s.pending ∧ t.seq = s.seq := by
  intro v dat good
  have canV : Canonical v := can
  refine ⟨luWriteStep s x, rfl, ?_⟩
  rw [luWriteStep_eq queue unit]
  show let t := if w.mirrored ∧ ((v.writeLu x dat).lu x).valid then (v.writeLu x dat).writeCopy x w.page dat else v.writeLu x dat; _
  obtain ⟨written, -⟩ := lu_writeLu v x dat
  have stowed : Stows unitRegs v (v.writeLu x dat) := .writeLu (by decide) (by decide) v x dat
  obtain ⟨copies, stays⟩ := writeCopy_reads (v.writeLu x dat) x w.page dat
  have programmed : Programmed v x dat good (v.programLu x dat).2 := programmed_programLu v x dat
  have frame : ∀ t : State, Stows unitRegs v t →
      t.mem.pages = s.mem.pages ∧ t.clock = s.clock ∧ t.pending = s.pending ∧ t.seq = s.seq := fun t h =>
    ⟨h.pages, (congrArg State.clock h.rest :), (congrArg State.pending h.rest :), (congrArg State.seq h.rest :)⟩
  cases hg : good with
  | true =>
    have eq := writeLu_good (s := v) (x := x) (dat := dat) hg
    obtain ⟨l, lus, valid, copy, page⟩ := programmed.unit hg
    have lu : (v.writeLu x dat).lu x = l := by
      rw [eq]
      exact lu_of_put lus
    have sound : l.written = true ∧ l.poisoned = false := by simpa [LuInfo.valid] using valid
    have params : (v.programLu x dat).2.params = v.params := (congrArg State.params programmed.programs :)
    have regs : ∀ p e, (v.programLu x dat).2.reg p e = s.reg p e := State.reg_congr params
    have counted : Records [P.luWrites] (v.programLu x dat).2 (v.writeLu x dat) := eq ▸ .bump64 (by decide) (by omega) _ 1
    have canP : Canonical (v.programLu x dat).2 := by
      rw [(programmed.programs : _ = _)]
      exact can
    by_cases mirrored : w.mirrored = true
    · rw [if_pos ⟨mirrored, lu ▸ valid⟩]
      refine ⟨copies.writes.trans stowed.writes, stays written, fun h => absurd mirrored (Bool.eq_false_iff.1 h), fun _ h => absurd mirrored (Bool.eq_false_iff.1 h),
        fun _ _ none' room => ?_, (fun h => nomatch h), frame _ (stowed.trans copies)⟩
      have mirrors : (v.writeLu x dat).flash.mirrors = s.flash.mirrors :=
        (congrArg Flash.mirrors counted.flash).trans (congrArg (fun u : State => u.flash.mirrors) programmed.programs :)
      have vals : ∀ p, p = P.mirrorBlocks ∨ p = P.journalBlocks → (v.writeLu x dat).val p = s.val p := by
        rintro p (rfl | rfl)
        · exact (counted.val canP (by decide)).trans (regs _ 0)
        · exact (counted.val canP (by decide)).trans (regs _ 0)
      rw [writeCopy_short (counted.can canP) (by rw [lu]; exact copy.trans none') ((mirrorLu_congr mirrors vals x).trans room),
        counted.reg canP (by decide) (by decide), regs]
    · rw [if_neg fun h => mirrored h.1]
      refine ⟨stowed.writes, written, fun _ => by rw [lu, sound.2]; rfl, fun _ _ => ⟨?_, ?_, ?_, fun short => ?_⟩, fun _ h => absurd h mirrored,
        (fun h => nomatch h), frame _ stowed⟩
      · exact counted.mem.trans (congrArg State.mem programmed.programs :)
      · exact fun p e he hp => (counted.regs canP p e he hp).trans (regs p e)
      · rw [eq]
        exact (State.reg_bump_same ..).trans (congrArg inc64 (regs ..))
      · obtain ⟨n, stored⟩ := page short
        have stored' : (v.writeLu x dat).flashPage l.page = { unit := x / 8, seq := n, crc := flashCrc (x / 8) n dat, dat := dat } := by
          rw [State.flashPage, counted.flash]
          exact stored
        rw [State.luContent, lu, sound.1, sound.2, stored']
        refine ⟨congrArg FlashPage.dat stored', ?_⟩
        simp only [FlashPage.matches, beq_self_eq_true, Bool.and_self]
  | false =>
    have eq := writeLu_bad (s := v) (x := x) (dat := dat) hg
    have lu : ((v.writeLu x dat).lu x).poisoned = true := by
      rw [eq]
      exact congrArg LuInfo.poisoned (lu_markPoison ..)
    have invalid : ((v.writeLu x dat).lu x).valid = false := by rw [LuInfo.valid, lu, Bool.not_true, Bool.and_false]
    rw [if_neg fun h => Bool.eq_false_iff.1 invalid h.2]
    refine ⟨stowed.writes, written, fun _ => lu, (fun h => nomatch h), (fun h => nomatch h), fun _ => ?_, frame _ stowed⟩
    rw [eq]
    refine (State.reg_bump_same ..).trans (congrArg inc64 ?_)
    refine State.reg_congr ?_ _ _
    exact (congrArg State.params (markPoison_rest ..)).trans (congrArg State.params programmed.programs :)

end Sys2Proof.FlashLaws

/-! PROOF. The reads of logical units come to an end (R192, R200 to R203). -/

namespace Sys2Proof.FlashLaws

open Sys2Proof.Machine Sys2Proof.Claims Sys2Proof.RecordLaws Sys2Proof.StoreTileLaws

/-- What a read counts, its own results aside. -/
def wearRegs : List Nat := P.retiredBlocks :: eventRegs

/-- Blocks are read, retired or to be moved, and channels mapped out: no unit differs, and nothing retired returns. -/
structure Wears (ps : List Nat) (s t : State) : Prop where
  rest : t = { s with
    params := t.params, log := t.log
    flash := { s.flash with
      reads := t.flash.reads, retired := t.flash.retired, moving := t.flash.moving, opened := t.flash.opened, badChans := t.flash.badChans } }
  only : WritesOnly ps s t
  retired : s.flash.retired ⊆ t.flash.retired
  moving : s.flash.moving ⊆ t.flash.moving

namespace Wears

variable {ps : List Nat} {s t u : State}

theorem refl (ps : List Nat) (s : State) : Wears ps s s := ⟨rfl, .of_params _ rfl, List.Subset.refl _, List.Subset.refl _⟩

theorem trans (h : Wears ps s t) (g : Wears ps t u) : Wears ps s u := by
  refine ⟨?_, h.only.trans g.only, List.Subset.trans h.retired g.retired, List.Subset.trans h.moving g.moving⟩
  rw [g.rest, h.rest]

theorem ite {c : Prop} [Decidable c] (h : Wears ps s t) (g : Wears ps s u) : Wears ps s (if c then t else u) := by
  split <;> assumption

theorem of_records (r : Records ps s t) : Wears ps s t :=
  ⟨by rw [r.rest], r.only, by rw [r.flash]; exact List.Subset.refl _, by rw [r.flash]; exact List.Subset.refl _⟩

theorem countRead (s : State) (k : Nat) : Wears ps s (s.countRead k) := ⟨rfl, .of_params _ rfl, List.Subset.refl _, List.Subset.refl _⟩

theorem countReads (ks : List Nat) (s : State) : Wears ps s (ks.foldl State.countRead s) := by
  induction ks generalizing s with
  | nil => exact refl ps s
  | cons k ks ih => exact (countRead s k).trans (ih _)

theorem lu (h : Wears ps s t) (x : Nat) : t.lu x = s.lu x := lu_congr (congrArg (fun u : State => u.flash.lus) h.rest :) x

theorem kept (h : Wears ps s t) : SameStores { s with flash := t.flash } t ∧ t.clock = s.clock ∧ t.seq = s.seq :=
  ⟨⟨(congrArg (fun u : State => u.mem.tiles) h.rest :), (congrArg (fun u : State => u.mem.pages) h.rest :), rfl, (congrArg State.pending h.rest :)⟩,
    (congrArg State.clock h.rest :), (congrArg State.seq h.rest :)⟩

end Wears

/-- R202: a retired block. -/
theorem wears_retireBlock (s : State) {d : Nat} (hd : d < 2 ^ 24) (k : Nat) :
    Wears wearRegs s (s.retireBlock d k) ∧ k ∈ (s.retireBlock d k).flash.retired := by
  unfold State.retireBlock
  split
  next already => exact ⟨.refl .., List.contains_iff_mem.1 already⟩
  next =>
    extract_lets f a
    let v : State := { s with flash := { s.flash with
      retired := s.flash.retired ++ [k], moving := s.flash.moving ++ [k], opened := s.flash.opened.filter fun o => (o.2 - 1) / 4096 != k } }
    have listed : Wears wearRegs s v := ⟨rfl, .of_params _ rfl, List.subset_append_left .., List.subset_append_left ..⟩
    have counted : Records wearRegs v a := .bump32 (by decide) hd v 1
    have all : ∀ t, Records wearRegs a t → Wears wearRegs s t ∧ k ∈ t.flash.retired := fun t r => by
      refine ⟨listed.trans (.of_records (counted.trans r)), ?_⟩
      rw [r.flash, counted.flash]
      exact List.mem_append_right _ (List.mem_singleton_self k)
    split
    · exact all _ (.raiseEvent (by decide) (by decide) a ..)
    · exact all _ (.refl ..)

/-- R203: a channel mapped out. -/
theorem wears_mapOutChannel (s : State) (ch cause : Nat) :
    Wears wearRegs s (s.mapOutChannel ch cause) ∧ (s.mapOutChannel ch cause).flash.reads = s.flash.reads := by
  unfold State.mapOutChannel
  split
  · exact ⟨.refl .., rfl⟩
  · extract_lets lost moved moving f a
    have listed : Wears wearRegs s a := ⟨rfl, .of_params _ rfl, List.Subset.refl _, List.subset_append_left ..⟩
    have told : Records wearRegs a (a.raiseEvent 7 0x0C (srcOf 9 ch) 0 0) := .raiseEvent (by decide) (by decide) a ..
    have due : Records wearRegs (a.raiseEvent 7 0x0C (srcOf 9 ch) 0 0)
        ((a.raiseEvent 7 0x0C (srcOf 9 ch) 0 0).dueSignature { kind := 3, cause := cause, unit := ch }) := ⟨rfl, .of_params _ rfl⟩
    exact ⟨listed.trans (.of_records (told.trans due)), (congrArg Flash.reads (due.flash.trans told.flash)).trans rfl⟩

/-- R203: the end of a read, once the channel was found lost or not. -/
theorem luReadDone_eq {s : State} {x : Nat} (up : s.up 2 = true) (valid : (s.lu x).valid = true) (r : LadderEnd) (lost : Bool) :
    luReadDone s x r lost = if lost = true then (luReadStep s x r).mapOutChannel (8 * luBase x + pageChan (s.lu x).page) 2 else luReadStep s x r := by
  unfold luReadDone
  rw [if_neg (not_not.2 up)]
  simp only [valid, and_true]

/-- R203: what the end of a read adds to where the ladder ended. -/
theorem wears_readDone {s : State} {x : Nat} (up : s.up 2 = true) (valid : (s.lu x).valid = true) (r : LadderEnd) (lost : Bool) :
    Wears wearRegs (luReadStep s x r) (luReadDone s x r lost) ∧ (luReadDone s x r lost).flash.reads = (luReadStep s x r).flash.reads
      ∧ (lost = false → luReadDone s x r lost = luReadStep s x r) := by
  rw [luReadDone_eq up valid]
  split
  next lost =>
    obtain ⟨wears, reads⟩ := wears_mapOutChannel (luReadStep s x r) (8 * luBase x + pageChan (s.lu x).page) 2
    exact ⟨wears, reads, fun h => absurd lost (Bool.eq_false_iff.1 h)⟩
  next => exact ⟨.refl .., rfl, fun _ => rfl⟩

/-- R190, R191: a read of a unit that is not in the flash. -/
theorem luRead_invalid {s : State} {x : Nat} (h : (s.lu x).valid = false) (r : LadderEnd) (lost : Bool) : luReadDone s x r lost = s := by
  unfold luReadDone
  split
  · rfl
  · have step : luReadStep s x r = s := if_pos (Bool.eq_false_iff.1 h)
    simp only [step, h, Bool.false_eq_true, and_false, if_false]

section

variable {s : State} {x : Nat} (can : Canonical s) (up : s.up 2 = true) (valid : (s.lu x).valid = true) (lost : Bool)

include can up valid

/-- A register that nothing after the ladder's own count writes. -/
theorem reg_readDone {r : LadderEnd} {p e : Nat} (hp : p ∉ wearRegs) (he : e < 2 ^ 24) (step : Wears (p :: wearRegs) s (luReadStep s x r)) :
    (luReadDone s x r lost).reg p e = (luReadStep s x r).reg p e :=
  (wears_readDone up valid r lost).1.only.regs (step.only.wf can.1) p e he hp

omit can in
/-- R200: step 0 returns the unit. -/
theorem luRead_step0 (direct : s.directRead x = true) :
    let t := luReadDone s x (.step 0) lost
    t.lu x = s.lu x ∧ (SameStores { s with flash := t.flash } t ∧ t.clock = s.clock ∧ t.seq = s.seq)
      ∧ Sparse.get zeros t.flash.reads (pageBlock (s.lu x).page) = Sparse.get zeros s.flash.reads (pageBlock (s.lu x).page) + 1
      ∧ (lost = false → t.params = s.params) := by
  intro t
  obtain ⟨wears, reads, same⟩ := wears_readDone up valid (.step 0) lost
  have step : luReadStep s x (.step 0) = s.countRead (s.lu x).page := by
    unfold luReadStep
    simp only [valid, not_true, if_false, Fin.val_zero, direct, if_true]
  rw [step] at wears reads same
  have all := (Wears.countRead s (s.lu x).page).trans wears
  refine ⟨all.lu x, all.kept, ?_, fun h => (congrArg State.params (same h)).trans rfl⟩
  rw [reads]
  exact Sparse.get_put_same ..

/-- R201: what the steps after the first have in common: the recovery counted, and the read counted before. -/
theorem recovered_of_step {r : LadderEnd} {i : Nat} (hi : i < 3) {a : State}
    (read : Wears (P.ladderRecovered :: wearRegs) s a) (params : a.params = s.params)
    (step : Wears wearRegs (a.bump64 P.ladderRecovered (3 * (x % 8) + i) 1) (luReadStep s x r)) :
    let t := luReadDone s x r lost
    t.lu x = s.lu x ∧ (SameStores { s with flash := t.flash } t ∧ t.clock = s.clock ∧ t.seq = s.seq)
      ∧ t.reg P.ladderRecovered (3 * (x % 8) + i) = inc64 (s.reg P.ladderRecovered (3 * (x % 8) + i)) := by
  intro t
  have counted : Records (P.ladderRecovered :: wearRegs) a (a.bump64 P.ladderRecovered (3 * (x % 8) + i) 1) :=
    .bump64 (by decide) (by omega) a 1
  have widen : ∀ {u v : State}, Wears wearRegs u v → Wears (P.ladderRecovered :: wearRegs) u v := fun h =>
    ⟨h.rest, WritesOnly.mono (List.subset_cons_self ..) h.only, h.retired, h.moving⟩
  have stepped := (read.trans (.of_records counted)).trans (widen step)
  have all := stepped.trans (widen (wears_readDone up valid r lost).1)
  refine ⟨all.lu x, all.kept, ?_⟩
  have wfA := counted.only.wf (read.only.wf can.1)
  rw [reg_readDone can up valid lost (by decide) (by omega) stepped, step.only.regs wfA _ _ (by omega) (by decide)]
  exact (State.reg_bump_same ..).trans (congrArg inc64 (State.reg_congr params ..))

theorem luRead_step1 (direct : s.directRead x = true) :
    let t := luReadDone s x (.step 1) lost
    pageBlock (s.lu x).page ∈ t.flash.moving ∧ t.lu x = s.lu x ∧ (SameStores { s with flash := t.flash } t ∧ t.clock = s.clock ∧ t.seq = s.seq)
      ∧ t.reg P.ladderRecovered (3 * (x % 8) + 0) = inc64 (s.reg P.ladderRecovered (3 * (x % 8) + 0)) := by
  intro t
  have step : luReadStep s x (.step 1) = { (s.countRead (s.lu x).page).bump64 P.ladderRecovered (3 * (x % 8)) 1 with
      flash := { (s.countRead (s.lu x).page).flash with moving := s.flash.moving ++ [pageBlock (s.lu x).page] } } := by
    unfold luReadStep
    simp only [valid, not_true, if_false, Fin.val_one, direct]
    rfl
  have moved : Wears wearRegs ((s.countRead (s.lu x).page).bump64 P.ladderRecovered (3 * (x % 8) + 0) 1) (luReadStep s x (.step 1)) := by
    rw [step]
    exact ⟨rfl, .of_params _ rfl, List.Subset.refl _, List.subset_append_left ..⟩
  refine ⟨(wears_readDone up valid (.step 1) lost).1.moving ?_, recovered_of_step can up valid lost (by decide) (.countRead s _) rfl moved⟩
  rw [step]
  exact List.mem_append_right _ (List.mem_singleton_self _)

theorem luRead_step2 (parity : s.parityRead x = true) :
    let t := luReadDone s x (.step 2) lost
    pageBlock (s.lu x).page ∈ t.flash.retired ∧ (SameStores { s with flash := t.flash } t ∧ t.clock = s.clock ∧ t.seq = s.seq)
      ∧ t.reg P.ladderRecovered (3 * (x % 8) + 1) = inc64 (s.reg P.ladderRecovered (3 * (x % 8) + 1)) := by
  intro t
  have step : luReadStep s x (.step 2)
      = ((((s.rebuildPages x).getD []).foldl State.countRead (s.countRead (s.lu x).page)).bump64 P.ladderRecovered (3 * (x % 8) + 1) 1).retireBlock
        (x % 8) (pageBlock (s.lu x).page) := by
    unfold luReadStep
    simp only [valid, not_true, if_false, parity]
    rfl
  have read : Wears (P.ladderRecovered :: wearRegs) s (((s.rebuildPages x).getD []).foldl State.countRead (s.countRead (s.lu x).page)) :=
    (Wears.countRead s _).trans (.countReads _ _)
  have params : (((s.rebuildPages x).getD []).foldl State.countRead (s.countRead (s.lu x).page)).params = s.params := by
    generalize (s.rebuildPages x).getD [] = ks
    generalize hv : s.countRead (s.lu x).page = v
    have start : v.params = s.params := hv ▸ rfl
    clear hv read step
    induction ks generalizing v with
    | nil => exact start
    | cons k ks ih => exact ih (v.countRead k) start
  generalize ((s.rebuildPages x).getD []).foldl State.countRead (s.countRead (s.lu x).page) = a at step read params
  obtain ⟨wears, retired⟩ := wears_retireBlock (a.bump64 P.ladderRecovered (3 * (x % 8) + 1) 1) (d := x % 8) (by omega) (pageBlock (s.lu x).page)
  rw [← step] at wears retired
  exact ⟨(wears_readDone up valid (.step 2) lost).1.retired retired, (recovered_of_step can up valid lost (by decide) read params wears).2⟩

theorem luRead_step3 {m : Nat} (copy : s.copyOf x = some m) (readable : (s.directRead m || s.parityRead m) = true) :
    let t := luReadDone s x (.step 3) lost
    pageBlock (s.lu x).page ∈ t.flash.retired ∧ (SameStores { s with flash := t.flash } t ∧ t.clock = s.clock ∧ t.seq = s.seq)
      ∧ t.reg P.ladderRecovered (3 * (x % 8) + 2) = inc64 (s.reg P.ladderRecovered (3 * (x % 8) + 2)) := by
  intro t
  have step : luReadStep s x (.step 3) = (((s.countRead (s.lu x).page).countRead (s.lu m).page).bump64 P.ladderRecovered (3 * (x % 8) + 2) 1).retireBlock
        (x % 8) (pageBlock (s.lu x).page) := by
    unfold luReadStep
    simp only [valid, not_true, if_false, copy, if_pos ((Bool.or_eq_true _ _).mp readable)]
    rfl
  have read : Wears (P.ladderRecovered :: wearRegs) s ((s.countRead (s.lu x).page).countRead (s.lu m).page) := (Wears.countRead s _).trans (.countRead _ _)
  have params : ((s.countRead (s.lu x).page).countRead (s.lu m).page).params = s.params := rfl
  generalize (s.countRead (s.lu x).page).countRead (s.lu m).page = a at step read params
  obtain ⟨wears, retired⟩ := wears_retireBlock (a.bump64 P.ladderRecovered (3 * (x % 8) + 2) 1) (d := x % 8) (by omega) (pageBlock (s.lu x).page)
  rw [← step] at wears retired
  exact ⟨(wears_readDone up valid (.step 3) lost).1.retired retired, (recovered_of_step can up valid lost (by decide) read params wears).2⟩

end

/-! A read that fails. -/

/-- The telling of a lost unit, once it is poisoned: its units' state stays (R201). -/
structure Mourns (s t : State) : Prop where
  lus : t.flash.lus = s.flash.lus
  only : WritesOnly (P.localFlags :: P.lateFlags :: wearRegs) s t
  clock : t.clock = s.clock

namespace Mourns

variable {s t u : State}

theorem refl (s : State) : Mourns s s := ⟨rfl, .of_params _ rfl, rfl⟩

theorem trans (h : Mourns s t) (g : Mourns t u) : Mourns s u := ⟨g.lus.trans h.lus, h.only.trans g.only, g.clock.trans h.clock⟩

theorem of_records (r : Records (P.localFlags :: P.lateFlags :: wearRegs) s t) : Mourns s t := ⟨congrArg Flash.lus r.flash, r.only, r.clock⟩

theorem of_wears (h : Wears wearRegs s t) : Mourns s t :=
  ⟨(congrArg (fun u : State => u.flash.lus) h.rest :), WritesOnly.mono (by decide) h.only, (congrArg State.clock h.rest :)⟩

theorem condition (s : State) (w : Nat) : Mourns s (s.condition w) := by
  unfold State.condition
  extract_lets seq a
  have noted : Mourns s a := ⟨rfl, .of_params _ rfl, rfl⟩
  split
  · exact refl s
  · split
    · split
      · exact noted.trans (.of_records (.bump64 (by decide) (by decide) a 1))
      · exact noted
    · exact .of_records (.setVal (by decide) s _)

theorem putPage (s : State) (p e : Nat) : Mourns s (s.putPage p e) := ⟨rfl, .of_params _ rfl, rfl⟩

theorem tellLoss (s : State) (x : Nat) : Mourns (s.markPoison x) (s.poisonLu x) := by
  unfold State.poisonLu
  extract_lets a
  split
  · exact condition a 4
  · extract_lets n b
    exact ((putPage a ..).trans (condition _ 4)).trans (.of_records (.raiseEvent (by decide) (by decide) b ..))

end Mourns

/-- R201: every step failed. -/
theorem luRead_failed {s : State} {x : Nat} (can : Canonical s) (up : s.up 2 = true) (valid : (s.lu x).valid = true) (lost : Bool) :
    let t := luReadDone s x .failed lost
    pageBlock (s.lu x).page ∈ t.flash.retired ∧ (t.lu x).poisoned = true
      ∧ t.reg P.ladderFailed (x % 8) = inc64 (s.reg P.ladderFailed (x % 8)) ∧ t.clock = s.clock := by
  intro t
  have step : luReadStep s x .failed
      = (((s.countRead (s.lu x).page).bump64 P.ladderFailed (x % 8) 1).poisonLu x).retireBlock (x % 8) (pageBlock (s.lu x).page) :=
    if_neg (not_not.2 valid)
  have reg : ((s.countRead (s.lu x).page).bump64 P.ladderFailed (x % 8) 1).reg P.ladderFailed (x % 8) = inc64 (s.reg P.ladderFailed (x % 8)) :=
    State.reg_bump_same ..
  have wf : Sparse.wf paramDefault ((s.countRead (s.lu x).page).bump64 P.ladderFailed (x % 8) 1).params = true := Sparse.wf_put _ _ can.1
  have clock : ((s.countRead (s.lu x).page).bump64 P.ladderFailed (x % 8) 1).clock = s.clock := rfl
  generalize (s.countRead (s.lu x).page).bump64 P.ladderFailed (x % 8) 1 = a at step reg wf clock
  have rest := markPoison_rest a x
  have marked : WritesOnly (P.localFlags :: P.lateFlags :: wearRegs) a (a.markPoison x) := .of_params _ (congrArg State.params rest :)
  obtain ⟨wears, retired⟩ := wears_retireBlock (a.poisonLu x) (d := x % 8) (by omega) (pageBlock (s.lu x).page)
  rw [← step] at wears retired
  obtain ⟨mapped, -, -⟩ := wears_readDone up valid .failed lost
  have told : Mourns (a.markPoison x) t := (Mourns.tellLoss a x).trans ((Mourns.of_wears wears).trans (.of_wears mapped))
  refine ⟨mapped.retired retired, ?_, ?_, ?_⟩
  · rw [lu_congr told.lus, lu_markPoison]
  · exact ((marked.trans told.only).regs wf _ _ (by omega) (by decide)).trans reg
  · exact told.clock.trans ((congrArg State.clock rest :).trans clock)

end Sys2Proof.FlashLaws

namespace Sys2Proof.Claims

open Sys2Proof.Machine Sys2Proof.FlashLaws

/-- Settles O39: the oldest write, the ladder step by step, and the durable entry. -/
theorem flashWritesReadsAndEntriesEnd : Obligations.FlashWritesReadsAndEntriesEnd := by
  intro s x can
  refine ⟨fun w ws queue unit => luWrite_reads can queue unit, fun r lost invalid => congrArg Host.Outcome.next (luRead_invalid invalid r lost),
    fun lost up valid => ?_, fun due => ?_⟩
  · intro k d kept recovered
    have refused : ∀ j, luReadStep s x (.step j) = s → exec (.luReadComplete x (.step j) false) s = .next s := fun j h =>
      congrArg Host.Outcome.next (((wears_readDone up valid (.step j) false).2.2 rfl).trans h)
    refine ⟨fun direct => ⟨⟨_, rfl, luRead_step0 up valid lost direct⟩, ⟨_, rfl, luRead_step1 can up valid lost direct⟩⟩,
      fun parity => ⟨_, rfl, luRead_step2 can up valid lost parity⟩, fun m copy readable => ⟨_, rfl, luRead_step3 can up valid lost copy readable⟩,
      fun direct => ⟨refused 0 ?_, refused 1 ?_⟩, fun parity => refused 2 ?_, fun copy => refused 3 ?_, ⟨_, rfl, luRead_failed can up valid lost⟩⟩
    · simp only [luReadStep, valid, not_true, if_false, Fin.val_zero, direct, Bool.false_eq_true]
    · simp only [luReadStep, valid, not_true, if_false, Fin.val_one, direct, Bool.false_eq_true, not_false_eq_true, if_true]
    · unfold luReadStep
      simp only [valid, not_true, if_false, parity, Bool.false_eq_true, not_false_eq_true, if_true]
      rfl
    · unfold luReadStep
      simp only [valid, not_true, if_false, copy]
  · exact congrArg Host.Outcome.next (if_neg (not_not.2 due))

end Sys2Proof.Claims

/-! PROOF. Stripes and blocks are maintained (R193, R199, R202 to R206). -/

namespace Sys2Proof.FlashLaws

open Sys2Proof.Machine Sys2Proof.Claims Sys2Proof.RecordLaws Sys2Proof.StoreTileLaws

/-- R202: either no write of `s` was discarded on the way to `t`, and the memory is as it was, or the count is higher. -/
def Spares (s t : State) : Prop :=
  s.reg P.discardedWrites 0 < 2 ^ 64 - 1 → (t.reg P.discardedWrites 0 = s.reg P.discardedWrites 0 ∧ t.mem = s.mem)
    ∨ s.reg P.discardedWrites 0 < t.reg P.discardedWrites 0

namespace Spares

variable {s t u : State}

theorem refl (s : State) : Spares s s := fun _ => .inl ⟨rfl, rfl⟩

theorem congr (h : Spares s t) (reg : u.reg P.discardedWrites 0 = t.reg P.discardedWrites 0) (mem : u.mem = t.mem) : Spares s u := by
  intro room
  rw [reg, mem]
  exact h room

/-- R363: another write is discarded. -/
theorem discard (h : Spares s t) {v : State} (params : v.params = t.params) : Spares s (v.bump64 P.discardedWrites 0 1) := by
  intro room
  have counted : (v.bump64 P.discardedWrites 0 1).reg P.discardedWrites 0 = min (t.reg P.discardedWrites 0 + 1) (2 ^ 64 - 1) :=
    (reg_bump64_same ..).trans (by rw [State.reg_congr params])
  rw [counted]
  refine .inr ?_
  rcases h room with ⟨same, -⟩ | more
  · omega
  · omega

theorem mem (h : Spares s t) (room : s.reg P.discardedWrites 0 < 2 ^ 64 - 1) (same : t.reg P.discardedWrites 0 = s.reg P.discardedWrites 0) :
    t.mem = s.mem := by
  rcases h room with ⟨-, mem⟩ | more
  · exact mem
  · exact absurd same more.ne'

end Spares

/-- R199: one unit of a block that moves. -/
def moveUnit (s : State) (l : Nat × LuInfo) : State :=
  match s.programLu l.1 (s.luContent l.1) with
  | (true, s) => s
  | (false, s) => (s.markPoison l.1).bump64 P.discardedWrites 0 1

theorem moveUnit_reads {ps : List Nat} (hd : P.discardedWrites ∈ ps) (s : State) (l : Nat × LuInfo) :
    Stows ps s (moveUnit s l) ∧ ∀ r, Spares r s → Spares r (moveUnit s l) := by
  have programmed := programmed_programLu s l.1 (s.luContent l.1)
  have rest := programmed.programs
  unfold moveUnit
  generalize s.programLu l.1 (s.luContent l.1) = y at programmed rest
  obtain ⟨_ | _, v⟩ := y
  · refine ⟨(Stows.of_programs rest).trans ((Stows.markPoison v l.1).trans (.of_records (.bump64 hd (by decide) _ 1))), fun r h => h.discard ?_⟩
    exact (congrArg State.params (markPoison_rest v l.1)).trans (congrArg State.params rest :)
  · exact ⟨.of_programs rest, fun r h => h.congr (State.reg_congr (congrArg State.params rest :) ..) (congrArg State.mem rest :)⟩

theorem moveUnits_reads {ps : List Nat} (hd : P.discardedWrites ∈ ps) (ls : List (Nat × LuInfo)) (s : State) :
    Stows ps s (ls.foldl moveUnit s) ∧ ∀ r, Spares r s → Spares r (ls.foldl moveUnit s) := by
  induction ls generalizing s with
  | nil => exact ⟨.of_records (.refl ps s), fun _ h => h⟩
  | cons l ls ih =>
    obtain ⟨stows, spares⟩ := moveUnit_reads hd s l
    obtain ⟨stows', spares'⟩ := ih (moveUnit s l)
    exact ⟨stows.trans stows', fun r h => spares' r (spares r h)⟩

/-- What the maintenance of the flash leaves: the tier map, the waiting commands, the sequencers, and what is kept or waits. -/
structure Upkeep (s t : State) : Prop where
  pages : t.mem.pages = s.mem.pages
  pending : t.pending = s.pending
  seq : t.seq = s.seq
  entries : t.flash.entries = s.flash.entries
  writes : t.flash.writes = s.flash.writes
  spares : Spares s t

theorem Upkeep.of_mem {s t : State} (h : t = { s with params := t.params, log := t.log, clock := t.clock, flash := t.flash })
    (entries : t.flash.entries = s.flash.entries) (writes : t.flash.writes = s.flash.writes)
    (reg : t.reg P.discardedWrites 0 = s.reg P.discardedWrites 0) : Upkeep s t := by
  have mem : t.mem = s.mem := (congrArg State.mem h :)
  exact ⟨congrArg Mem.pages mem, (congrArg State.pending h :), (congrArg State.seq h :), entries, writes, fun _ => .inl ⟨reg, mem⟩⟩

/-- Block `k` has moved, counted on base die `d` (R199, R202). -/
structure Moved (d k : Nat) (s t : State) : Prop where
  moving : k ∉ t.flash.moving
  counted : t.reg P.relocations d = inc64 (s.reg P.relocations d)
  upkeep : Upkeep s t
  only : OnlyRegs [P.relocations, P.discardedWrites] s t
  clock : t.clock = s.clock
  scan : t.flash.scan = s.flash.scan

theorem moved_relocateBlock {s : State} (can : Canonical s) {d : Nat} (hd : d < 2 ^ 24) (k : Nat) : Moved d k s (s.relocateBlock d k) := by
  obtain ⟨stows, spares⟩ := moveUnits_reads (ps := [P.relocations, P.discardedWrites]) (by decide)
    (s.flash.lus.filter fun l => l.2.valid && pageBlock l.2.page == k) s
  have uncounted := (moveUnits_reads (ps := [P.discardedWrites]) (by decide) (s.flash.lus.filter fun l => l.2.valid && pageBlock l.2.page == k) s).1.only
  have run : s.relocateBlock d k = ({ (s.flash.lus.filter fun l => l.2.valid && pageBlock l.2.page == k).foldl moveUnit s with
      flash := { ((s.flash.lus.filter fun l => l.2.valid && pageBlock l.2.page == k).foldl moveUnit s).flash with
        moving := ((s.flash.lus.filter fun l => l.2.valid && pageBlock l.2.page == k).foldl moveUnit s).flash.moving.filter (· != k) } } : State).bump64
          P.relocations d 1 := rfl
  rw [run]
  generalize (s.flash.lus.filter fun l => l.2.valid && pageBlock l.2.page == k).foldl moveUnit s = v at stows spares uncounted
  have counted : WritesOnly [P.relocations, P.discardedWrites] v (v.bump64 P.relocations d 1) := .bump64 (by decide) hd v 1
  have wf := stows.only.wf can.1
  refine ⟨fun h => ?_, ?_, ⟨stows.pages, (congrArg State.pending stows.rest :), (congrArg State.seq stows.rest :),
    (congrArg (fun u : State => u.flash.entries) stows.rest :), stows.writes, ?_⟩, fun p e he hp => ?_, (congrArg State.clock stows.rest :),
    (congrArg (fun u : State => u.flash.scan) stows.rest :)⟩
  · exact absurd rfl (bne_iff_ne.1 (List.mem_filter.1 h).2)
  · exact (State.reg_bump_same ..).trans (congrArg inc64 (uncounted.regs can.1 _ _ hd (by decide)))
  · refine (spares s (.refl s)).congr ?_ rfl
    exact State.reg_setReg_other v _ wf (pkey_ne hd (by decide) (.inl (by decide)))
  · exact (counted.regs wf p e he hp).trans (stows.only.regs can.1 p e he hp)

/-- R193: the padding of a stripe. -/
def padPage (d : Nat) (s : State) (c : Nat) : State :=
  match s.takePage d c with
  | (some k, s) => s.putFlashPage d k {}
  | (none, s) => s

theorem padPage_reads (d : Nat) (s : State) (c : Nat) : Programs s (padPage d s c) ∧ (padPage d s c).flash.lus = s.flash.lus
    ∧ (padPage d s c).flash.stripes = s.flash.stripes ∧ ∀ p ∈ nth s.flash.filled d [], p ∈ nth (padPage d s c).flash.filled d [] := by
  have taken := takes_takePage s d c
  unfold padPage
  generalize s.takePage d c = y at taken
  obtain ⟨_ | k, v⟩ := y
  · exact ⟨taken.programs, taken.lus, taken.stripes, fun p hp => taken.filled ▸ hp⟩
  · refine ⟨taken.programs.trans rfl, taken.lus, taken.stripes, fun p hp => ?_⟩
    show p ∈ nth (setAt [] v.flash.filled d (nth v.flash.filled d [] ++ [k])) d []
    rw [nth_setAt_same, taken.filled]
    exact List.mem_append_left _ hp

theorem padPages_reads (d : Nat) (cs : List Nat) (s : State) :
    let t := cs.foldl (padPage d) s
    Programs s t ∧ t.flash.lus = s.flash.lus ∧ t.flash.stripes = s.flash.stripes ∧ ∀ p ∈ nth s.flash.filled d [], p ∈ nth t.flash.filled d [] := by
  induction cs generalizing s with
  | nil => exact ⟨rfl, rfl, rfl, fun _ hp => hp⟩
  | cons c cs ih =>
    obtain ⟨programs, lus, stripes, pages⟩ := padPage_reads d s c
    obtain ⟨programs', lus', stripes', pages'⟩ := ih (padPage d s c)
    exact ⟨programs.trans programs', lus'.trans lus, stripes'.trans stripes, fun p hp => pages' p (pages p hp)⟩

/-- R193: an open stripe closes after its time. -/
theorem stripeClose_reads {s : State} {d : Nat} (open' : nth s.flash.filled d [] ≠ []) (up : s.up 2 = true) :
    let t := stripeCloseStep s d
    nth t.flash.filled d [] = [] ∧ nth t.flash.stripes d 0 = nth s.flash.stripes d 0 + 1 ∧ t.flash.lus = s.flash.lus
      ∧ (∀ p ∈ nth s.flash.filled d [], p ∈ Sparse.get (fun _ => []) t.flash.layout (s.openStripe d))
      ∧ t.clock.now = max s.clock.now (nth s.flash.lastLu d 0 + 18000000) ∧ t.params = s.params ∧ t.mem = s.mem := by
  have run : stripeCloseStep s d = (((s.reach (nth s.flash.lastLu d 0 + 2000 * usRoot)).stripeChans d).2.drop (nth s.flash.filled d []).length
      |>.foldl (padPage d) (s.reach (nth s.flash.lastLu d 0 + 2000 * usRoot))).closeStripe d := by
    unfold stripeCloseStep
    refine if_neg (not_or.2 ⟨fun h => open' (List.eq_nil_of_length_eq_zero h), not_not.2 up⟩)
  rw [run]
  generalize ((s.reach (nth s.flash.lastLu d 0 + 2000 * usRoot)).stripeChans d).2.drop (nth s.flash.filled d []).length = cs
  obtain ⟨programs, lus, stripes, pages⟩ := padPages_reads d cs (s.reach (nth s.flash.lastLu d 0 + 2000 * usRoot))
  generalize cs.foldl (padPage d) (s.reach (nth s.flash.lastLu d 0 + 2000 * usRoot)) = v at programs lus stripes pages
  obtain ⟨empty, next, layout⟩ := closeStripe_reads v d
  obtain ⟨closed, lus'⟩ := programs_closeStripe v d
  have all := programs.trans closed
  have open'' : v.openStripe d = s.openStripe d := by
    rw [State.openStripe, stripes]
    rfl
  refine ⟨empty, next.trans (by rw [stripes]; rfl), lus'.trans lus, fun p hp => open'' ▸ layout p (pages p hp), ?_,
    (congrArg State.params all :), (congrArg State.mem all :)⟩
  exact (congrArg (fun u : State => u.clock.now) all :)

/-- R205: the scan's next read, before the block may move. -/
def scanRead (s : State) (d : Nat) (l : Nat × LuInfo) : State :=
  let s := s.countRead l.2.page
  { s with flash := { s.flash with scan := setAt 0 s.flash.scan d (l.1 / 8 + 1) } }

theorem flashScanStep_rest {s : State} {d : Nat} {l : Nat × LuInfo} {ls : List (Nat × LuInfo)} (up : s.up 2 = true) (period : s.val P.flashScanPeriod ≠ 0)
    (weak : Bool) (rest : s.scanRest d (nth s.flash.scan d 0) = l :: ls) :
    flashScanStep s d weak = if weak then (scanRead s d l).relocateBlock d (pageBlock l.2.page) else scanRead s d l := by
  unfold flashScanStep
  rw [if_neg (not_or.2 ⟨period, not_not.2 up⟩)]
  simp only [rest]
  rfl

/-- R205: the state in which a new pass begins. -/
def scanAgain (s : State) (d : Nat) : State :=
  let s := s.reach (nth s.flash.scanFrom d 0 + s.val P.flashScanPeriod * secRoot)
  { s with flash := { s.flash with scanFrom := setAt 0 s.flash.scanFrom d s.clock.now } }

theorem flashScanStep_again {s : State} {d : Nat} {l : Nat × LuInfo} {ls : List (Nat × LuInfo)} (up : s.up 2 = true) (period : s.val P.flashScanPeriod ≠ 0)
    (weak : Bool) (passed : s.scanRest d (nth s.flash.scan d 0) = []) (rest : s.scanRest d 0 = l :: ls) :
    flashScanStep s d weak = if weak then (scanRead (scanAgain s d) d l).relocateBlock d (pageBlock l.2.page) else scanRead (scanAgain s d) d l := by
  unfold flashScanStep
  rw [if_neg (not_or.2 ⟨period, not_not.2 up⟩)]
  simp only [passed, rest]
  rfl

/-- The moved block of a state that differs from `s` in the scan's books alone. -/
theorem Moved.of_scan {d k : Nat} {s v t : State} (same : v = { s with clock := v.clock, flash := v.flash })
    (entries : v.flash.entries = s.flash.entries) (writes : v.flash.writes = s.flash.writes) (h : Moved d k v t) :
    k ∉ t.flash.moving ∧ t.reg P.relocations d = inc64 (s.reg P.relocations d) ∧ Upkeep s t ∧ OnlyRegs [P.relocations, P.discardedWrites] s t := by
  have params : v.params = s.params := (congrArg State.params same :)
  have regs : ∀ p e, v.reg p e = s.reg p e := State.reg_congr params
  have spares := h.upkeep.spares
  refine ⟨h.moving, h.counted.trans (congrArg inc64 (regs ..)), ⟨h.upkeep.pages.trans (congrArg (fun u : State => u.mem.pages) same :),
    h.upkeep.pending.trans (congrArg State.pending same :), h.upkeep.seq.trans (congrArg State.seq same :), h.upkeep.entries.trans entries,
    h.upkeep.writes.trans writes, ?_⟩, fun p e he hp => (h.only p e he hp).trans (regs p e)⟩
  unfold Spares at spares ⊢
  have mem : v.mem = s.mem := (congrArg State.mem same :)
  rwa [regs, mem] at spares

/-- R202: a block that was not retired yet. -/
theorem retireBlock_fresh {s : State} (can : Canonical s) {d k : Nat} (hd : d < 2 ^ 24) (fresh : k ∉ s.flash.retired) :
    k ∈ (s.retireBlock d k).flash.moving ∧ (s.retireBlock d k).reg P.retiredBlocks d = inc32 (s.reg P.retiredBlocks d) := by
  unfold State.retireBlock
  rw [if_neg fun h => fresh (List.contains_iff_mem.1 h)]
  extract_lets f a
  have wf : Sparse.wf paramDefault a.params = true := Sparse.wf_put _ _ can.1
  have counted : a.reg P.retiredBlocks d = inc32 (s.reg P.retiredBlocks d) := State.reg_bump_same ..
  have listed : k ∈ a.flash.moving := List.mem_append_right _ (List.mem_singleton_self k)
  have told : ∀ t, Records eventRegs a t → k ∈ t.flash.moving ∧ t.reg P.retiredBlocks d = inc32 (s.reg P.retiredBlocks d) := fun t r =>
    ⟨r.flash ▸ listed, (r.only.regs wf _ _ hd (by decide)).trans counted⟩
  split
  · exact told _ (.raiseEvent (List.Subset.refl _) (by decide) a ..)
  · exact told _ (.refl ..)

end Sys2Proof.FlashLaws

namespace Sys2Proof.Claims

open Sys2Proof.Machine Sys2Proof.FlashLaws Sys2Proof.RecordLaws

/-- Settles O40: the stripe that closes, the block that moves or retires, and the scan. -/
theorem flashBlocksAndStripesAreMaintained : Obligations.FlashBlocksAndStripesAreMaintained := by
  intro s b n can up k kept moved
  have hb : b.val < 2 ^ 24 := by omega
  have keeps : ∀ t, Upkeep s t → kept t := fun t h =>
    ⟨h.pages, h.pending, h.seq, h.entries, h.writes, fun room same => h.spares.mem room same⟩
  have moves : ∀ {k t}, Moved b k s t → moved k t := fun h => ⟨h.moving, h.counted, keeps _ h.upkeep, h.only⟩
  refine ⟨fun open' => ⟨_, rfl, stripeClose_reads open' up⟩, ?_, ?_, fun l spread found => ?_, fun due => ?_, fun l ls period => ?_⟩
  · have run : blockRelocationStep s b k = s.relocateBlock b k := if_pos up
    have h := moved_relocateBlock can hb k
    exact ⟨_, congrArg Host.Outcome.next run, moves h, h.clock⟩
  · have run : programFailureStep s b k = s.retireBlock b k := if_pos up
    obtain ⟨wears, retired⟩ := wears_retireBlock s hb k
    have mem : (s.retireBlock b k).mem = s.mem := (congrArg State.mem wears.rest :)
    refine ⟨_, congrArg Host.Outcome.next run, retired, keeps _ (.of_mem ?_ (congrArg (fun u : State => u.flash.entries) wears.rest :)
      (congrArg (fun u : State => u.flash.writes) wears.rest :) (wears.only.regs can.1 _ _ (by decide) (by decide))), mem,
      (congrArg State.clock wears.rest :), fun fresh => retireBlock_fresh can hb fresh⟩
    rw [wears.rest]
  · have run : wearLevelStep s b = s.relocateBlock b (pageBlock l.2.page) := by
      unfold wearLevelStep
      simp only [found]
      exact if_neg (not_or.2 ⟨Nat.not_le.2 spread, not_not.2 up⟩)
    have h := moved_relocateBlock can hb (pageBlock l.2.page)
    exact ⟨_, congrArg Host.Outcome.next run, moves h, h.clock⟩
  · have h := moved_relocateBlock can hb k
    refine ⟨{ s.relocateBlock b k with flash := { (s.relocateBlock b k).flash with reads := Sparse.put zeros (s.relocateBlock b k).flash.reads k 0 } },
      congrArg Host.Outcome.next (if_neg (not_or.2 ⟨Nat.not_lt.2 due, not_not.2 up⟩)), Sparse.get_put_same .., ?_, h.clock⟩
    exact ⟨h.moving, h.counted, keeps _ ⟨h.upkeep.pages, h.upkeep.pending, h.upkeep.seq, h.upkeep.entries, h.upkeep.writes, h.upkeep.spares⟩, h.only⟩
  · intro from' scans
    have scanned : ∀ v : State, v = { s with clock := v.clock, flash := v.flash } → v.flash.entries = s.flash.entries → v.flash.writes = s.flash.writes →
        v.flash.reads = s.flash.reads → (∀ weak, flashScanStep s b weak
          = if weak then (scanRead v b l).relocateBlock b (pageBlock l.2.page) else scanRead v b l) → scans v.clock.now := by
      intro v same entries writes reads run
      have sameRead : scanRead v b l = { s with clock := (scanRead v b l).clock, flash := (scanRead v b l).flash } := by
        rw [scanRead, State.countRead, same]
      refine ⟨fun n hn => ⟨scanRead v b l, ?_, nth_setAt_same .., (congrArg State.params same :), keeps _ (.of_mem ?_ entries writes ?_), rfl, ?_⟩,
        fun step1 n weak => ⟨(scanRead v b l).relocateBlock b (pageBlock l.2.page), ?_, ?_, ?_, ?_⟩⟩
      · exact congrArg Host.Outcome.next ((run _).trans (if_neg (by rw [Bool.false_or]; exact fun h => Nat.not_lt.2 hn (of_decide_eq_true h))))
      · rw [sameRead]
      · exact State.reg_congr (congrArg State.params same :) ..
      · exact (Sparse.get_put_same ..).trans (by rw [reads])
      · refine congrArg Host.Outcome.next ((run _).trans (if_pos ?_))
        rcases weak with h | h
        · rw [h, Bool.true_or]
        · rw [decide_eq_true h, Bool.or_true]
      all_goals
        have params : (scanRead v b l).params = s.params := (congrArg State.params same :)
        have canV : Canonical (scanRead v b l) := by
          rw [sameRead]
          exact can
        have h := moved_relocateBlock canV hb (pageBlock l.2.page)
      · exact (congrArg (fun x => nth x b.val 0) h.scan).trans (nth_setAt_same ..)
      · obtain ⟨moving, counted, upkeep, only⟩ := h.of_scan sameRead entries writes
        exact ⟨moving, counted, keeps _ upkeep, only⟩
      · exact congrArg Clock.now h.clock
    refine ⟨fun rest => scanned s rfl rfl rfl rfl fun weak => flashScanStep_rest up period weak rest, fun passed rest => ?_⟩
    exact scanned (scanAgain s b) rfl rfl rfl rfl fun weak => flashScanStep_again up period weak passed rest

end Sys2Proof.Claims

/-! PROOF. The rills in service (R339 to R347). -/

namespace Sys2Proof.PanelLaws

open Sys2Proof.Machine Sys2Proof.Claims Sys2Proof.RecordLaws Sys2Proof.StoreTileLaws Sys2Proof.WorkLaws

/-- The rills are worked on: no other part of the panel, and only registers among `ps`. -/
structure Tunes (ps : List Nat) (s t : State) : Prop where
  rest : t = { s with params := t.params, panel := { s.panel with rills := t.panel.rills } }
  only : WritesOnly ps s t

namespace Tunes

variable {ps : List Nat} {s t u : State}

theorem refl (ps : List Nat) (s : State) : Tunes ps s s := ⟨rfl, .of_params _ rfl⟩

theorem trans (h : Tunes ps s t) (g : Tunes ps t u) : Tunes ps s u := by
  refine ⟨?_, h.only.trans g.only⟩
  rw [g.rest, h.rest]

theorem setRill (s : State) (r : Nat) (x : Rill) : Tunes ps s (s.setRill r x) := ⟨rfl, .of_params _ rfl⟩

theorem bump64 {p e : Nat} (hp : p ∈ ps) (he : e < 2 ^ 24) (s : State) (n : Nat) : Tunes ps s (s.bump64 p e n) := ⟨rfl, .bump64 hp he s n⟩

theorem bump32 {p e : Nat} (hp : p ∈ ps) (he : e < 2 ^ 24) (s : State) (n : Nat) : Tunes ps s (s.bump32 p e n) := ⟨rfl, .setReg hp he s _⟩

theorem stores (h : Tunes ps s t) : SameStores s t ∧ t.clock = s.clock ∧ t.seq = s.seq :=
  ⟨⟨(congrArg (fun u : State => u.mem.tiles) h.rest :), (congrArg (fun u : State => u.mem.pages) h.rest :), (congrArg State.flash h.rest :),
    (congrArg State.pending h.rest :)⟩, (congrArg State.clock h.rest :), (congrArg State.seq h.rest :)⟩

end Tunes

/-- R339: replays are counted and remembered. -/
theorem flitError_reads {s : State} {r dir g n : Nat} (hr : r < 10) (hg : g < 16) (live : bit (s.rill r).mask g = true) (some' : 0 < n) (few : n ≤ 64)
    (up : s.up 2 = true) :
    let t := flitErrorStep s r dir g n
    t.reg P.rillReplays (16 * r + g) = min (s.reg P.rillReplays (16 * r + g) + n) (2 ^ 64 - 1)
      ∧ (16 * dir + g, s.clock.now, n) ∈ (t.rill r).recent ∧ (t.rill r).mask = (s.rill r).mask
      ∧ (∀ k, k ≠ r → t.rill k = s.rill k) ∧ SameStores s t ∧ t.clock = s.clock ∧ t.seq = s.seq := by
  have refused : ¬ (¬ bit (s.rill r).mask g ∨ n = 0 ∨ n > 64 ∨ ¬ s.up 2) := by
    rintro (dead | none | many | down)
    · exact dead live
    · omega
    · omega
    · exact down up
  have run : flitErrorStep s r dir g n = (s.bump64 P.rillReplays (16 * r + g) n).setRill r { s.rill r with
      recent := ((s.rill r).recent.filter fun e => decide (s.clock.now ≤ e.2.1 + 1000 * usRoot)) ++ [(16 * dir + g, s.clock.now, n)] } := if_neg refused
  rw [run]
  generalize hx : ({ s.rill r with
      recent := ((s.rill r).recent.filter fun e => decide (s.clock.now ≤ e.2.1 + 1000 * usRoot)) ++ [(16 * dir + g, s.clock.now, n)] } : Rill) = x
  have here : ((s.bump64 P.rillReplays (16 * r + g) n).setRill r x).rill r = x := rill_setRill_same ..
  refine ⟨reg_bump64_same .., ?_, ?_, fun k hk => rill_setRill_other _ x hk,
    ((Tunes.bump64 (ps := [P.rillReplays]) (by decide) (by omega) s n).trans (.setRill _ r x)).stores⟩
  · rw [here, ← hx]
    exact List.mem_append_right _ (List.mem_singleton_self _)
  · rw [here, ← hx]
    rfl

/-- R342: a handshake that starts. -/
theorem startHandshake_reads {s : State} {r : Nat} (hr : r < 2 ^ 24) (still : (s.rill r).shaking = false) :
    let t := s.startHandshake r
    t.rill r = { s.rill r with shaking := true, before := (s.rill r).mask, agreed := (s.rill r).mask, fails := 0, recent := [] }
      ∧ t.reg P.rillRetrains r = inc32 (s.reg P.rillRetrains r) ∧ (∀ k, k ≠ r → t.rill k = s.rill k) ∧ Tunes [P.rillRetrains] s t := by
  intro t
  have run : t = (s.setRill r { s.rill r with
      shaking := true, before := (s.rill r).mask, agreed := (s.rill r).mask, fails := 0, recent := [] }).bump32 P.rillRetrains r 1 :=
    if_neg (Bool.eq_false_iff.1 still)
  rw [run]
  exact ⟨rill_setRill_same s r _, State.reg_bump_same .., fun k hk => rill_setRill_other s _ hk,
    (Tunes.setRill s r _).trans (.bump32 (by decide) hr _ 1)⟩

theorem foldl_add_sum {α : Type} (f : α → Nat) (xs : List α) (n : Nat) : xs.foldl (fun n x => n + f x) n = n + (xs.map f).sum := by
  induction xs generalizing n with
  | nil => rfl
  | cons x xs ih => rw [List.foldl_cons, ih, List.map_cons, List.sum_cons, Nat.add_assoc]

/-! Training attempts. -/

/-- The clock has no part in steering. -/
theorem steer_setClock (s : State) (c : Clock) (r m : Nat) (fs : List RillFault) :
    ({ s with clock := c } : State).steer r m fs = { s.steer r m fs with clock := c } := by
  unfold State.steer
  generalize List.range 32 = ks
  induction ks generalizing s with
  | nil => rfl
  | cons k ks ih =>
    rw [List.foldl_cons, List.foldl_cons, ← ih]
    refine congrArg (fun v => List.foldl _ v ks) ?_
    dsimp only
    have same : ({ s with clock := c } : State).trainMask r (k / 16) m fs = s.trainMask r (k / 16) m fs := rfl
    rw [same]
    split <;> rfl

theorem records_feedPorts (s : State) : Records [P.linkState, P.linkFlaps] s s.feedPorts := by
  have small : ∀ x ∈ fedPorts, 2 * x.2 < 2 ^ 24 := by decide
  refine Records.foldl (fun x hx v => ?_) s
  have fed := small x hx
  refine .ite (.refl ..) (.ite ?_ (.ite (.setReg (by decide) fed v 2) (.refl ..)))
  exact .trans (.ite (.bump32 (by decide) fed v 1) (.refl ..)) (.ite (.refl ..) (.setReg (by decide) fed _ 1))

/-- R343: the groups that the end of a handshake maps out are counted. -/
theorem mappedOut_endHandshake {s : State} (can : Sparse.wf paramDefault s.params = true) {r : Nat} (hr : r < 2 ^ 24) (final out : Nat) :
    (s.endHandshake r final out).reg P.rillMappedOut r = min (s.reg P.rillMappedOut r + popcount16 out) (2 ^ 32 - 1) := by
  unfold State.endHandshake
  extract_lets x before a n b c d
  have counted : b.reg P.rillMappedOut r = min (s.reg P.rillMappedOut r + popcount16 out) (2 ^ 32 - 1) := State.reg_bump_same a ..
  have wf : Sparse.wf paramDefault b.params = true := Sparse.wf_put _ _ can
  have told : WritesOnly eventRegs b c := (Records.foldl (fun _ _ w => .raiseEvent (List.Subset.refl _) (by decide) w ..) b : Records eventRegs b c).only
  have signed : WritesOnly eventRegs c d := (Records.ite (.refl ..) ⟨rfl, .of_params _ rfl⟩ : Records eventRegs c d).only
  have routed : WritesOnly eventRegs d d.routes := .of_params _ (congrArg State.params (Follows.setRoutes d).rest :)
  have all := (told.trans signed).trans routed
  exact ((records_feedPorts d.routes).only.regs (all.wf wf) _ _ hr (by decide)).trans ((all.regs wf _ _ hr (by decide)).trans counted)

/-- What every attempt on rill `r` leaves: other rills, the stores and the sequencers; its repairs are those of the steering. -/
structure Attempts (s : State) (r : Nat) (steered t : State) : Prop where
  others : ∀ k, k ≠ r → t.rill k = s.rill k
  stores : SameStores s t
  seq : t.seq = s.seq
  now : t.clock.now = steered.clock.now
  repairs : t.panel.repairs = steered.panel.repairs

/-- R341, R342: an attempt on a rill that trains. -/
theorem trainingStep_reads {s : State} {r : Nat} (can : Canonical s) (hr : r < 2 ^ 24) (fs : List RillFault) (shaking : (s.rill r).shaking = true) :
    let x := s.rill r
    let a := s.trainMask r 1 x.agreed fs
    let b := s.trainMask r 0 x.agreed fs
    let t := trainingStep s r fs
    Attempts s r (s.steer r x.agreed fs) t
      ∧ (a = b → (t.rill r).shaking = false ∧ (t.rill r).mask = a ∧ t.reg P.rillMappedOut r = min (s.reg P.rillMappedOut r) (2 ^ 32 - 1))
      ∧ (a ≠ b → x.fails = 0 → (t.rill r).shaking = true ∧ (t.rill r).fails = 1 ∧ (t.rill r).agreed = Nat.land a b ∧ t.params = s.params)
      ∧ (a ≠ b → x.fails ≠ 0 → (t.rill r).shaking = false ∧ (t.rill r).mask = Nat.land a b
        ∧ t.reg P.rillMappedOut r = min (s.reg P.rillMappedOut r + popcount16 (Nat.lor a b - Nat.land a b)) (2 ^ 32 - 1)) := by
  intro x a b t
  have steers := Steers.steer s r x.agreed fs
  have run : t = (if a = b then (s.steer r x.agreed fs).endHandshake r a 0
      else if x.fails = 0 then (s.steer r x.agreed fs).setRill r { x with lower := a, upper := b, agreed := Nat.land a b, fails := 1 }
      else (s.steer r x.agreed fs).endHandshake r (Nat.land a b) (Nat.lor a b - Nat.land a b)) := if_neg (not_not.2 shaking)
  clear_value t a b
  generalize s.steer r x.agreed fs = v at steers run
  have params : v.params = s.params := (congrArg State.params steers.1 :)
  have wf : Sparse.wf paramDefault v.params = true := params ▸ can.1
  have counts : ∀ final out, (v.endHandshake r final out).reg P.rillMappedOut r = min (s.reg P.rillMappedOut r + popcount16 out) (2 ^ 32 - 1) :=
    fun final out => (mappedOut_endHandshake wf hr final out).trans (by rw [State.reg_congr params])
  have same : SameStores s v ∧ v.seq = s.seq :=
    ⟨⟨(congrArg (fun u : State => u.mem.tiles) steers.1 :), (congrArg (fun u : State => u.mem.pages) steers.1 :), (congrArg State.flash steers.1 :),
      (congrArg State.pending steers.1 :)⟩, (congrArg State.seq steers.1 :)⟩
  have ends : ∀ final out, Attempts s r v (v.endHandshake r final out) ∧ ((v.endHandshake r final out).rill r).shaking = false
      ∧ ((v.endHandshake r final out).rill r).mask = final := by
    intro final out
    have follows := endHandshake_follows hr v final out
    obtain ⟨trains, -, here⟩ := trains_endHandshake hr v final out
    refine ⟨⟨fun k hk => (trains.others k hk).trans (rill_congr steers.rills k), sameStores_trans same.1 ⟨(congrArg (fun u : State => u.mem.tiles) follows.rest :),
      (congrArg (fun u : State => u.mem.pages) follows.rest :), (congrArg State.flash follows.rest :), (congrArg State.pending follows.rest :)⟩,
      (congrArg State.seq follows.rest :).trans same.2, (congrArg (fun u : State => u.clock.now) follows.rest :), follows.repairs⟩, ?_, ?_⟩
    · rw [here]
    · rw [here]
      exact Nat.and_self final
  by_cases agree : a = b
  · rw [if_pos agree] at run
    subst run
    exact ⟨(ends a 0).1, fun _ => ⟨(ends a 0).2.1, (ends a 0).2.2, counts a 0⟩, fun h => absurd agree h, fun h => absurd agree h⟩
  · rw [if_neg agree] at run
    by_cases first : x.fails = 0
    · rw [if_pos first] at run
      subst run
      refine ⟨⟨fun k hk => (rill_setRill_other v _ hk).trans (rill_congr steers.rills k), same.1, same.2, rfl, rfl⟩, fun h => absurd h agree,
        fun _ _ => ?_, fun _ h => absurd first h⟩
      rw [rill_setRill_same]
      exact ⟨shaking, rfl, rfl, params⟩
    · rw [if_neg first] at run
      subst run
      exact ⟨(ends _ _).1, fun h => absurd h agree, fun _ h => absurd h first, fun _ _ => ⟨(ends _ _).2.1, (ends _ _).2.2, counts _ _⟩⟩

/-! Partial reset. -/

/-- R347: a rill of base die `b` with the masks of its ends there reloaded. -/
def reloadedMasks (b r : Nat) (x : Rill) : Rill :=
  { x with
    shaking := false
    lower := if (rillEnds r).1 = b then 0xFFFF - x.mappedOut else x.lower
    upper := if (rillEnds r).2 = b then 0xFFFF - x.mappedOut else x.upper }

/-- R347: a rill end that reloads its mask. -/
def reloadRill (b : Nat) (s : State) (r : Nat) : State :=
  if (rillEnds r).1 ≠ b ∧ (rillEnds r).2 ≠ b then s else (s.setRill r (reloadedMasks b r (s.rill r))).startHandshake r

/-- What a partial reset of base die `b` makes of rill `r` and its count. -/
def reloaded (b r : Nat) (y : Rill × Nat) : Rill × Nat :=
  if (rillEnds r).1 ≠ b ∧ (rillEnds r).2 ≠ b then y
  else
    let x := reloadedMasks b r y.1
    ({ x with shaking := true, before := x.mask, agreed := x.mask, fails := 0, recent := [] }, inc32 y.2)

theorem reloadRill_reads (b : Nat) (s : State) {r : Nat} (hr : r < 2 ^ 24) :
    Tunes [P.rillRetrains] s (reloadRill b s r)
      ∧ ((reloadRill b s r).rill r, (reloadRill b s r).reg P.rillRetrains r) = reloaded b r (s.rill r, s.reg P.rillRetrains r)
      ∧ ∀ k, k ≠ r → (reloadRill b s r).rill k = s.rill k := by
  unfold reloadRill reloaded
  by_cases apart : (rillEnds r).1 ≠ b ∧ (rillEnds r).2 ≠ b
  · rw [if_pos apart, if_pos apart]
    exact ⟨.refl .., rfl, fun _ _ => rfl⟩
  · rw [if_neg apart, if_neg apart]
    generalize hx : reloadedMasks b r (s.rill r) = x
    have still : x.shaking = false := hx ▸ rfl
    have mine : (s.setRill r x).rill r = x := rill_setRill_same ..
    obtain ⟨here, counted, others, tunes⟩ := startHandshake_reads (s := s.setRill r x) hr (by rw [mine]; exact still)
    refine ⟨(Tunes.setRill s r x).trans tunes, Prod.ext (here.trans ?_) counted, fun k hk => (others k hk).trans (rill_setRill_other s x hk)⟩
    rw [mine]

theorem partialReset_reads {s : State} (can : Canonical s) (b : Nat) {r : Nat} (hr : r < 10) :
    let t := (List.range 10).foldl (reloadRill b) s
    Tunes [P.rillRetrains] s t ∧ (t.rill r, t.reg P.rillRetrains r) = reloaded b r (s.rill r, s.reg P.rillRetrains r) := by
  have tunes : ∀ xs : List Nat, (∀ x ∈ xs, x < 10) → ∀ v : State, Tunes [P.rillRetrains] v (xs.foldl (reloadRill b) v) := by
    intro xs small
    induction xs with
    | nil => exact fun v => .refl _ v
    | cons x xs ih =>
      exact fun v => (reloadRill_reads b v (by have := small x (List.mem_cons_self ..); omega)).1.trans
        (ih (fun y hy => small y (List.mem_cons_of_mem _ hy)) _)
  have one : ∀ xs : List Nat, xs.Nodup → (∀ x ∈ xs, x < 10) → ∀ v : State, Sparse.wf paramDefault v.params = true →
      ((xs.foldl (reloadRill b) v).rill r, (xs.foldl (reloadRill b) v).reg P.rillRetrains r)
        = if r ∈ xs then reloaded b r (v.rill r, v.reg P.rillRetrains r) else (v.rill r, v.reg P.rillRetrains r) := by
    intro xs
    induction xs with
    | nil => exact fun _ _ _ _ => rfl
    | cons x xs ih =>
      intro nodup small v wf
      obtain ⟨fresh, nodup⟩ := List.nodup_cons.1 nodup
      have bound : x < 2 ^ 24 := by have := small x (List.mem_cons_self ..); omega
      obtain ⟨tuned, mine, others⟩ := reloadRill_reads b v bound
      rw [List.foldl_cons, ih nodup (fun y hy => small y (List.mem_cons_of_mem _ hy)) _ (tuned.only.wf wf)]
      by_cases here : r = x
      · subst here
        rw [if_neg fresh, if_pos (List.mem_cons_self ..), mine]
      · have kept : (reloadRill b v x).reg P.rillRetrains r = v.reg P.rillRetrains r := reg_reloadRill_other b wf bound (by omega) here
        simp only [List.mem_cons, here, false_or, others r here, kept]
  exact ⟨tunes _ (fun x hx => List.mem_range.1 hx) s, (one _ List.nodup_range (fun x hx => List.mem_range.1 hx) s can.1).trans (if_pos (List.mem_range.2 hr))⟩
where
  reg_reloadRill_other (b : Nat) {v : State} (wf : Sparse.wf paramDefault v.params = true) {x r : Nat} (hx : x < 2 ^ 24) (hr : r < 2 ^ 24) (h : r ≠ x) :
      (reloadRill b v x).reg P.rillRetrains r = v.reg P.rillRetrains r := by
    have bumped : ∀ w : State, w.params = v.params → (w.bump32 P.rillRetrains x 1).reg P.rillRetrains r = v.reg P.rillRetrains r := fun w same =>
      (State.reg_setReg_other w _ (same ▸ wf) (pkey_ne hx hr (.inr h))).trans (State.reg_congr same ..)
    unfold reloadRill
    split
    · rfl
    · unfold State.startHandshake
      dsimp only
      split
      · rfl
      · exact bumped _ rfl

end Sys2Proof.PanelLaws

namespace Sys2Proof.Claims

open Sys2Proof.Machine Sys2Proof.PanelLaws

/-- Settles O35: replays, the limit that starts a handshake, the attempts that end it, and partial reset. -/
theorem rillReplaysHandshakesAndResets : Obligations.RillReplaysHandshakesAndResets := by
  intro s r can x others
  have hr : r.val < 2 ^ 24 := by omega
  refine ⟨fun dir g n live some' few up => ⟨_, rfl, flitError_reads r.isLt g.isLt live some' few up⟩, fun g still many => ?_,
    fun lower upper took shaking => ?_, fun b up => ?_⟩
  · have run : errorLimitStep s r g = s.startHandshake r := by
      unfold errorLimitStep
      rw [foldl_add_sum, Nat.zero_add]
      exact if_pos many
    obtain ⟨here, counted, apart, tunes⟩ := startHandshake_reads hr still
    refine ⟨_, congrArg Host.Outcome.next run, ?_, ?_, ?_, ?_, counted, apart, tunes.stores⟩
    all_goals rw [here]
    rfl
  · intro fs a b attempt
    have canC : Canonical (s.reach (s.clock.now + min took (200 * usRoot))) := can
    obtain ⟨attempts, same, first, second⟩ := trainingStep_reads (r := r.val) canC hr fs shaking
    have steered : (s.reach (s.clock.now + min took (200 * usRoot))).steer r x.agreed fs
        = { s.steer r x.agreed fs with clock := (s.reach (s.clock.now + min took (200 * usRoot))).clock } := steer_setClock ..
    have frame : ∀ P : State → Prop, P (trainingStep (s.reach (s.clock.now + min took (200 * usRoot))) r fs) → attempt P := fun P h => by
      refine ⟨_, rfl, h, attempts.others, attempts.stores, attempts.seq, attempts.now.trans ?_, attempts.repairs.trans (congrArg (fun u : State => u.panel.repairs) steered :)⟩
      refine (congrArg (fun u : State => u.clock.now) steered :).trans ?_
      exact Nat.max_eq_right (Nat.le_add_right ..)
    refine ⟨fun d g hd hg => ?_, fun h => frame _ (same h), fun h f => frame _ (first h f), fun h f => frame _ (second h f)⟩
    rw [bit_trainMask, decide_eq_true hg, Bool.true_and]
  · have run : partialResetStep s b = (List.range 10).foldl (reloadRill b) s := if_neg (not_not.2 up)
    obtain ⟨tunes, here⟩ := partialReset_reads can b r.isLt
    rw [Prod.ext_iff] at here
    obtain ⟨rill, count⟩ := here
    obtain ⟨stores, clock, seq⟩ := tunes.stores
    refine ⟨_, congrArg Host.Outcome.next run, stores, clock, seq, fun ends => ?_, fun lo hi => rill.trans ?_⟩
    · have reload : ¬ ((rillEnds r).1 ≠ b ∧ (rillEnds r).2 ≠ b) := fun h => ends.elim h.1 h.2
      rw [reloaded, if_neg reload] at rill count
      refine ⟨congrArg Rill.shaking rill, count, fun lo => (congrArg Rill.lower rill).trans (if_pos lo), fun hi => (congrArg Rill.upper rill).trans (if_pos hi)⟩
    · rw [reloaded, if_pos ⟨lo, hi⟩]

end Sys2Proof.Claims

/-! PROOF. A change of slot: fields of the slot map, and what leaves a position or takes it (R12, R13, R353 to R361). -/

namespace Sys2Proof.PanelLaws

open Sys2Proof.Machine Sys2Proof.Claims Sys2Proof.RecordLaws Sys2Proof.StoreTileLaws Sys2Proof.WorkLaws

/-! Fields of a word. -/

theorem testBit_setBits (x lo n v i : Nat) :
    (setBits x lo n v).testBit i = if lo ≤ i ∧ i < lo + n then v.testBit (i - lo) else x.testBit i := by
  have shape : setBits x lo n v = 2 ^ lo * (2 ^ n * (x >>> (lo + n)) + v % 2 ^ n) + x % 2 ^ lo := by
    rw [setBits, Nat.pow_add, Nat.mul_add]
    ring
  rw [shape, Nat.testBit_two_pow_mul_add _ (Nat.mod_lt _ (Nat.two_pow_pos lo))]
  split
  next below =>
    rw [Nat.testBit_mod_two_pow, if_neg (by omega), decide_eq_true below, Bool.true_and]
  next above =>
    rw [Nat.testBit_two_pow_mul_add _ (Nat.mod_lt _ (Nat.two_pow_pos n))]
    split
    next inside => rw [Nat.testBit_mod_two_pow, decide_eq_true inside, Bool.true_and, if_pos (by omega)]
    next beyond =>
      rw [Nat.testBit_shiftRight, if_neg (by omega)]
      congr 1
      omega

theorem testBit_bits (x lo n i : Nat) : (bits x lo n).testBit i = (decide (i < n) && x.testBit (lo + i)) := by
  rw [bits, Nat.testBit_mod_two_pow, Nat.testBit_shiftRight]

/-- A field reads as before when one beside it is written. -/
theorem bits_setBits_other {x lo n lo' n' v : Nat} (h : lo + n ≤ lo' ∨ lo' + n' ≤ lo) : bits (setBits x lo' n' v) lo n = bits x lo n := by
  refine Nat.eq_of_testBit_eq fun i => ?_
  rw [testBit_bits, testBit_bits]
  by_cases small : i < n
  · rw [testBit_setBits, if_neg (by omega)]
  · rw [decide_eq_false small, Bool.false_and, Bool.false_and]

/-! What a change of slot is made of. -/

/-- The registers that the change of a slot writes; a Spare field may name one of 15 positions from the first of its base die. -/
def changeRegs : List Nat := (List.range 8).map (P.slotMap + ·) ++ (List.range 80).map (P.screenRecord + ·) ++ [P.capacityState] ++ gearRegs ++ eventRegs

theorem slotMap_mem {b : Nat} (hb : b < 8) : P.slotMap + b ∈ changeRegs :=
  List.mem_append_left _ (List.mem_append_left _ (List.mem_append_left _ (List.mem_append_left _ (List.mem_map_of_mem (List.mem_range.2 hb)))))

theorem screenRec_mem {p : Nat} (hp : p < 80) : P.screenRecord + p ∈ changeRegs :=
  List.mem_append_left _ (List.mem_append_left _ (List.mem_append_left _ (List.mem_append_right _ (List.mem_map_of_mem (List.mem_range.2 hp)))))

/-- Slots and positions are bound anew: no memory, no time, and no work but that of dead slots. -/
structure Rebinds (s t : State) : Prop where
  rest : t = { s with
    weir := t.weir, params := t.params, log := t.log
    panel := { s.panel with
      screens := t.panel.screens, lastSlot := t.panel.lastSlot, unscreened := t.panel.unscreened, fieldDirty := t.panel.fieldDirty }
    seq := { s.seq with dies := t.seq.dies, copying := t.seq.copying, dead := t.seq.dead, changedAt := t.seq.changedAt } }
  can : Canonical s → Canonical t
  regs : Canonical s → OnlyRegs changeRegs s t
  dies : Canonical s → ∀ j, j ∉ s.seq.dead → Kept (s.die j) (t.die j)
  dead : t.seq.dead ⊆ s.seq.dead
  copying : s.seq.copying ⊆ t.seq.copying
  changedAt : s.seq.changedAt ⊆ t.seq.changedAt

namespace Rebinds

variable {s t u : State}

theorem refl (s : State) : Rebinds s s :=
  ⟨rfl, id, fun _ _ _ _ _ => rfl, fun _ _ _ => kept_refl _, List.Subset.refl _, List.Subset.refl _, List.Subset.refl _⟩

theorem trans (h : Rebinds s t) (g : Rebinds t u) : Rebinds s u := by
  refine ⟨?_, fun c => g.can (h.can c), fun c p e he hp => (g.regs (h.can c) p e he hp).trans (h.regs c p e he hp),
    fun c j hj => kept_trans (h.dies c j hj) (g.dies (h.can c) j fun x => hj (h.dead x)), List.Subset.trans g.dead h.dead,
    List.Subset.trans h.copying g.copying, List.Subset.trans h.changedAt g.changedAt⟩
  rw [g.rest, h.rest]

theorem ite {c : Prop} [Decidable c] (h : Rebinds s t) (g : Rebinds s u) : Rebinds s (if c then t else u) := by
  split <;> assumption

theorem of_tends (h : Tends changeRegs s t) : Rebinds s t := by
  have seq := h.seq
  refine ⟨?_, h.can, h.regs, fun c j _ => h.dies c j, ?_, ?_, ?_⟩
  · rw [h.rest]
  all_goals
    rw [seq]
    exact List.Subset.refl _

theorem of_records (h : Records changeRegs s t) : Rebinds s t := of_tends (.of_records h)

theorem of_tends' {ps : List Nat} (hs : ps ⊆ changeRegs) (h : Tends ps s t) : Rebinds s t := of_tends (h.mono hs)

theorem setPanel (s : State) (screens : List Screen) (lastSlot : Sparse Nat) (unscreened : List Nat) (dirty : Bool) :
    Rebinds s { s with panel := { s.panel with screens := screens, lastSlot := lastSlot, unscreened := unscreened, fieldDirty := dirty } } :=
  ⟨rfl, id, fun _ _ _ _ _ => rfl, fun _ _ _ => kept_refl _, List.Subset.refl _, List.Subset.refl _, List.Subset.refl _⟩

theorem raiseEvent {cls : Nat} (hc : cls < 2 ^ 24) (s : State) (code source d0 d1 : Nat) : Rebinds s (s.raiseEvent cls code source d0 d1) :=
  of_records (.raiseEvent (List.subset_append_right ..) hc s ..)

theorem dueSignature (s : State) (x : SigInfo) : Rebinds s (s.dueSignature x) := of_records ⟨rfl, .of_params _ rfl⟩

theorem setSlotEntry (s : State) {b : Nat} (hb : b < 8) (v : Nat) : Rebinds s (s.setSlotEntry b v) := of_records (.setVal (slotMap_mem hb) s v)

theorem setScreenRec (s : State) {p : Nat} (hp : p < 80) (v : Nat) : Rebinds s (s.setScreenRec p v) :=
  (of_records (.setVal (screenRec_mem hp) s v)).trans (setPanel _ s.panel.screens s.panel.lastSlot s.panel.unscreened true)

/-- R355. -/
theorem reportCapacity (s : State) {b : Nat} (hb : b < 2 ^ 24) : Rebinds s (s.reportCapacity b) := by
  have stored : Rebinds s (s.setReg P.capacityState b (s.capacity b)) := of_records (.setReg (by decide) hb s _)
  unfold State.reportCapacity
  extract_lets c a
  have listed : Rebinds a { a with panel := { a.panel with unscreened := b :: a.panel.unscreened } } :=
    setPanel a a.panel.screens a.panel.lastSlot (b :: a.panel.unscreened) a.panel.fieldDirty
  have told := listed.trans (raiseEvent (cls := 7) (by decide) _ 0x14 (srcBase b) 0 0)
  exact stored.trans (ite told (refl a))

theorem endScreen (s : State) {p : Nat} (hp : p < 80) (result : Nat) : Rebinds s (s.endScreen p result) := by
  unfold State.endScreen
  extract_lets src a r b
  have ended : Rebinds s a := setPanel s (s.panel.screens.filter fun x => x.position != p) s.panel.lastSlot s.panel.unscreened s.panel.fieldDirty
  exact ended.trans ((setScreenRec a hp _).trans (raiseEvent (by decide) b ..))

/-- R12: a slot is bound anew. -/
theorem bindSlot (s : State) {sl : Nat} (hsl : sl < 64) (v : Nat) : Rebinds s (s.bindSlot sl v) := by
  unfold State.bindSlot
  extract_lets b a e c
  have counted : Rebinds s (s.account sl) := of_tends' (ps := acRegs) (by decide) (.of_accounts (List.Subset.refl _) (Accounts.account hsl s))
  have geared : Rebinds (s.account sl) a := of_tends (.setWeir ..)
  have bound : Rebinds s c :=
    (counted.trans geared).trans ((setSlotEntry a (by omega) _).trans (of_tends' (ps := gearRegs) (by decide) (tends_regear _)))
  exact bound.trans (ite (refl c) (setPanel c c.panel.screens _ c.panel.unscreened c.panel.fieldDirty))

theorem setSpare (s : State) {b : Nat} (hb : b < 8) (v : Nat) : Rebinds s (s.setSpare b v) :=
  (setSlotEntry s hb _).trans (setPanel _ s.panel.screens s.panel.lastSlot s.panel.unscreened true)

theorem retirePos (s : State) {p : Nat} (hp : p < 72) (result : Nat) : Rebinds s (s.retirePos p result) :=
  ((setScreenRec s (by omega) _).trans (setScreenRec _ (by omega) _)).trans (setSlotEntry _ (by omega) _)

/-- R13: the copy of a slot's tile store starts. -/
theorem startCopy (s : State) (sl old : Nat) : Rebinds s (s.startCopy sl old) := by
  unfold State.startCopy
  extract_lets a
  have idle : Rebinds s a := by
    by_cases dead : s.seq.dead.contains sl = true
    · simp only [a, if_pos dead]
      refine ⟨rfl, fun c => ⟨c.1, c.2.1, c.2.2.1, Sparse.wf_put _ _ c.2.2.2⟩, fun _ _ _ _ _ => rfl, fun c j hj => ?_, List.Subset.refl _, List.Subset.refl _,
        List.Subset.refl _⟩
      have other : j ≠ sl := fun h => hj (h ▸ List.contains_iff_mem.1 dead)
      rw [State.die_setDie_other s _ c.2.2.2 other]
      exact kept_refl _
    · simp only [a, if_neg dead]
      exact refl s
  refine idle.trans ⟨rfl, id, fun _ _ _ _ _ => rfl, fun _ _ _ => kept_refl _, fun _ h => (List.mem_filter.1 h).1, List.subset_append_left .., ?_⟩
  dsimp only
  split
  · exact List.Subset.refl _
  · exact List.subset_cons_self ..

theorem copying_startCopy (s : State) (sl old : Nat) :
    (sl, old) ∈ (s.startCopy sl old).seq.copying ∧ sl / 8 ∈ (s.startCopy sl old).seq.changedAt ∧ sl ∉ (s.startCopy sl old).seq.dead := by
  unfold State.startCopy
  extract_lets a
  refine ⟨List.mem_append_right _ (List.mem_singleton_self _), ?_, fun h => ?_⟩
  · dsimp only
    split
    next listed => exact List.contains_iff_mem.1 listed
    next => exact List.mem_cons_self ..
  · exact bne_iff_ne.1 (List.mem_filter.1 h).2 rfl

theorem spareOf_lt {s : State} {b q : Nat} (h : s.spareOf b = some q) : q < 9 * b + 16 := by
  have field : bits (s.reg (P.slotMap + b) 0) 32 4 < 16 := Nat.mod_lt _ (by decide)
  unfold State.spareOf at h
  dsimp only at h
  split at h
  · exact nomatch h
  · have := Option.some.inj h
    omega

/-- R356: the spare that is claimed. -/
theorem claimSpare (s : State) {b : Nat} (hb : b < 8) : Rebinds s (s.claimSpare b).2 ∧ (s.claimSpare b).1 = s.spareOf b := by
  unfold State.claimSpare
  split
  next none' => exact ⟨refl s, none'.symm⟩
  next q found =>
    have small := spareOf_lt found
    rw [found]
    split
    · exact ⟨endScreen s (by omega) 5, rfl⟩
    · exact ⟨refl s, rfl⟩

section

variable (h : Rebinds s t)

include h

theorem mem : t.mem = s.mem := (congrArg State.mem h.rest :)
theorem clock : t.clock = s.clock := (congrArg State.clock h.rest :)
theorem changeReq : t.seq.changeReq = s.seq.changeReq := (congrArg (fun u : State => u.seq.changeReq) h.rest :)
theorem stores : SameStores s t := ⟨congrArg Mem.tiles h.mem, congrArg Mem.pages h.mem, (congrArg State.flash h.rest :), (congrArg State.pending h.rest :)⟩

end

/-- The copy of slot `sl` from position `p` began (R13). -/
theorem copies {sl old : Nat} (h : Rebinds (s.startCopy sl old) t) :
    (sl, old) ∈ t.seq.copying ∧ sl / 8 ∈ t.seq.changedAt ∧ sl ∉ t.seq.dead := by
  obtain ⟨copying, changed, dead⟩ := copying_startCopy s sl old
  exact ⟨h.copying copying, h.changedAt changed, fun x => dead (h.dead x)⟩

end Rebinds

/-- R10: the slot of a position lies on its base die. -/
theorem slotOfPos_mem {s : State} {p sl : Nat} (h : s.slotOfPos p = some sl) : sl / 8 = p / 9 := by
  obtain ⟨k, hk, rfl⟩ := List.mem_map.1 (List.mem_of_find?_eq_some h)
  have := List.mem_range.1 hk
  omega

/-- R353, R355: what follows once a slot has left position `p`; `gone` where no spare took it. -/
def leavePos (s : State) (sl p result cause : Nat) (gone : Bool) : State :=
  let s := s.retirePos p result
  let s := if gone then s.raiseEvent 0xA 0x01 (srcSlot sl) p 0 else s
  (s.reportCapacity (p / 9)).dueSignature { kind := 1, cause := cause, unit := p, absent := gone }

theorem retireSlot_eq (s : State) (sl p result cause : Nat) : s.retireSlot sl p result cause =
    match s.claimSpare (p / 9) with
    | (some q, v) => leavePos ((((v.bindSlot sl (q % 9)).setSpare (p / 9) 0xF).setPosState q 0).startCopy sl p) sl p result cause false
    | (none, v) => leavePos ((v.bindSlot sl 0xF).startCopy sl p) sl p result cause true := by
  unfold State.retireSlot leavePos
  dsimp only
  generalize s.claimSpare (p / 9) = y
  obtain ⟨_ | q, v⟩ := y <;> rfl

theorem rebinds_leavePos (s : State) {sl p result cause : Nat} (hp : p < 72) (gone : Bool) : Rebinds s (leavePos s sl p result cause gone) :=
  (Rebinds.retirePos s hp result).trans ((Rebinds.ite (.raiseEvent (by decide) _ ..) (.refl _)).trans
    ((Rebinds.reportCapacity _ (by omega)).trans (.dueSignature ..)))

/-- R12, R354, R361: a slot that leaves a retired position. -/
theorem retireSlot_reads (s : State) {sl p result cause : Nat} (hp : p < 72) (hsl : sl / 8 = p / 9) :
    let t := s.retireSlot sl p result cause
    Rebinds s t ∧ (sl, p) ∈ t.seq.copying ∧ p / 9 ∈ t.seq.changedAt ∧ sl ∉ t.seq.dead := by
  obtain ⟨claimed, spare⟩ := Rebinds.claimSpare s (b := p / 9) (by omega)
  have slot : sl < 64 := by omega
  rw [retireSlot_eq]
  generalize s.claimSpare (p / 9) = y at claimed spare
  have begun : ∀ (w : State) (gone : Bool), Rebinds s w → let t := leavePos (w.startCopy sl p) sl p result cause gone
      Rebinds s t ∧ (sl, p) ∈ t.seq.copying ∧ p / 9 ∈ t.seq.changedAt ∧ sl ∉ t.seq.dead := fun w gone bound => by
    have tail := rebinds_leavePos (w.startCopy sl p) (sl := sl) (result := result) (cause := cause) hp gone
    obtain ⟨copying, changed, dead⟩ := tail.copies
    exact ⟨bound.trans ((Rebinds.startCopy w sl p).trans tail), copying, hsl ▸ changed, dead⟩
  obtain ⟨_ | q, v⟩ := y
  · exact begun _ true (Rebinds.trans claimed (Rebinds.bindSlot v slot 15))
  · have small := Rebinds.spareOf_lt spare.symm
    exact begun _ false (Rebinds.trans claimed ((Rebinds.bindSlot v slot (q % 9)).trans ((Rebinds.setSpare _ (by omega) 0xF).trans
      (Rebinds.setScreenRec _ (by omega) _))))

/-- R356: the spare takes a slot whose position becomes the spare. -/
theorem swapSpare_reads (s : State) {sl p : Nat} (hp : p < 72) (hsl : sl / 8 = p / 9) (spare : (s.spareOf (p / 9)).isSome = true) :
    ∃ t, s.swapSpare sl p = some t ∧ Rebinds s t ∧ (sl, p) ∈ t.seq.copying ∧ p / 9 ∈ t.seq.changedAt ∧ sl ∉ t.seq.dead := by
  obtain ⟨claimed, found⟩ := Rebinds.claimSpare s (b := p / 9) (by omega)
  have slot : sl < 64 := by omega
  unfold State.swapSpare
  dsimp only
  generalize s.claimSpare (p / 9) = y at claimed found
  obtain ⟨_ | q, v⟩ := y
  · rw [← found] at spare
    exact nomatch spare
  · have small := Rebinds.spareOf_lt found.symm
    have bound : Rebinds s ((((v.bindSlot sl (q % 9)).setSpare (p / 9) (p % 9)).setPosState q 0).setPosState p 1) :=
      Rebinds.trans claimed ((Rebinds.bindSlot v slot (q % 9)).trans ((Rebinds.setSpare _ (by omega) _).trans
        ((Rebinds.setScreenRec _ (by omega) _).trans (.setScreenRec _ (by omega) _))))
    dsimp only
    generalize (((v.bindSlot sl (q % 9)).setSpare (p / 9) (p % 9)).setPosState q 0).setPosState p 1 = w at bound
    obtain ⟨copying, changed, dead⟩ := (Rebinds.refl (w.startCopy sl p)).copies
    exact ⟨_, rfl, bound.trans (.startCopy w sl p), copying, hsl ▸ changed, dead⟩

/-! A position that is retired. -/

theorem screenRec_setScreenRec (s : State) (p v : Nat) : (s.setScreenRec p v).screenRec p = v := State.val_setVal_same ..

theorem posState_setPosState (s : State) (p : Nat) {v : Nat} (hv : v < 8) : (s.setPosState p v).posState p = v := by
  rw [State.posState, State.setPosState, screenRec_setScreenRec]
  exact bits_setBits_low _ v hv

/-- R353: the position's state, its result, and what else its record holds. -/
theorem retirePos_reads {s : State} (can : Canonical s) {p : Nat} (hp : p < 72) {result : Nat} (hr : result < 8) :
    (s.retirePos p result).posState p = 3 ∧ bits ((s.retirePos p result).screenRec p) 3 3 = result := by
  have kept : (s.retirePos p result).screenRec p = ((s.setPosState p 3).setLastResult p result).screenRec p := by
    refine State.reg_setReg_other _ _ ?_ ?_
    · exact Sparse.wf_put _ _ (Sparse.wf_put _ _ can.1)
    · unfold pkey P.slotMap P.screenRecord
      omega
  rw [State.posState, kept, State.setLastResult, screenRec_setScreenRec, State.setPosState, screenRec_setScreenRec]
  refine ⟨?_, ?_⟩
  · rw [bits_setBits_other (.inl (by decide))]
    exact bits_setBits_low _ 3 (by decide)
  · rw [bits_setBits_same]
    omega

theorem spareOf_of_entry {s : State} {b : Nat} (h : bits (s.slotEntry b) 32 4 = 0xF) : s.spareOf b = none := if_pos h

theorem slotEntry_setSlotEntry (s : State) (b v : Nat) : (s.setSlotEntry b v).slotEntry b = v := State.val_setVal_same ..

/-- R369: an event counts in its own class alone. -/
theorem eventsRaised_raiseEvent_other {s : State} (can : Sparse.wf paramDefault s.params = true) {cls e : Nat} (hc : cls < 2 ^ 24) (he : e < 2 ^ 24)
    (h : e ≠ cls) (code source d0 d1 : Nat) : (s.raiseEvent cls code source d0 d1).reg P.eventsRaised e = s.reg P.eventsRaised e := by
  unfold State.raiseEvent State.raiseEventOf
  extract_lets a now newest within
  have counted : a.reg P.eventsRaised e = s.reg P.eventsRaised e := State.reg_setReg_other s _ can (pkey_ne hc he (.inr h))
  have wf : Sparse.wf paramDefault a.params = true := Sparse.wf_put _ _ can
  split
  · refine (State.reg_setReg_other _ _ wf (pkey_ne (by decide) he (.inl (by decide)))).trans ?_
    exact (State.reg_congr rfl ..).trans counted
  · exact ((EventLaws.storeEvent_writesOnly a _).regs wf _ _ he (by decide)).trans counted

/-- R355: what a report of the capacity writes. -/
theorem reportCapacity_reads (s : State) {b : Nat} (hb : b < 2 ^ 24) :
    s.reportCapacity b = { s with
      params := (s.reportCapacity b).params, log := (s.reportCapacity b).log
      panel := { s.panel with unscreened := (s.reportCapacity b).panel.unscreened } }
      ∧ WritesOnly (P.capacityState :: eventRegs) s (s.reportCapacity b) := by
  unfold State.reportCapacity
  extract_lets c a
  have stored : WritesOnly (P.capacityState :: eventRegs) s a := .setReg (by decide) hb s c
  split
  · have told : Records (P.capacityState :: eventRegs) { a with panel := { a.panel with unscreened := b :: a.panel.unscreened } }
        (({ a with panel := { a.panel with unscreened := b :: a.panel.unscreened } } : State).raiseEvent 7 0x14 (srcBase b) 0 0) :=
      .raiseEvent (by decide) (by decide) _ ..
    have listed : WritesOnly (P.capacityState :: eventRegs) a { a with panel := { a.panel with unscreened := b :: a.panel.unscreened } } :=
      .of_params _ rfl
    refine ⟨?_, stored.trans (listed.trans told.only)⟩
    rw [told.rest]
    rfl
  · exact ⟨rfl, stored⟩

/-- R355, R369: a report of the capacity counts no event of another class. -/
theorem eventsRaised_reportCapacity {s : State} (can : Sparse.wf paramDefault s.params = true) {b e : Nat} (hb : b < 2 ^ 24) (he : e < 2 ^ 24) (h : e ≠ 7) :
    (s.reportCapacity b).reg P.eventsRaised e = s.reg P.eventsRaised e := by
  unfold State.reportCapacity
  extract_lets c a
  have wf : Sparse.wf paramDefault a.params = true := Sparse.wf_put _ _ can
  have stored : a.reg P.eventsRaised e = s.reg P.eventsRaised e :=
    State.reg_setReg_other s _ can (pkey_ne hb he (.inl (by decide)))
  split
  · exact (eventsRaised_raiseEvent_other (s := { a with panel := { a.panel with unscreened := b :: a.panel.unscreened } }) wf (by decide) he h ..).trans
      ((State.reg_congr rfl ..).trans stored)
  · exact stored

/-- R353: a write of a base die's spare touches its slot map entry alone. -/
theorem writesOnly_setSpare {ps : List Nat} {b : Nat} (h : P.slotMap + b ∈ ps) (s : State) (v : Nat) : WritesOnly ps s (s.setSpare b v) :=
  let mapped : WritesOnly ps s (s.setSlotEntry b (setBits (s.slotEntry b) 32 4 v)) := .setReg h (by decide) s _
  mapped.trans (.of_params _ rfl)

/-- R353: a position's screen record is the one register that the record's write touches. -/
theorem writesOnly_setScreenRec {ps : List Nat} {p : Nat} (h : P.screenRecord + p ∈ ps) (s : State) (v : Nat) : WritesOnly ps s (s.setScreenRec p v) :=
  let recorded : WritesOnly ps s (s.setReg (P.screenRecord + p) 0 v) := .setReg h (by decide) s _
  recorded.trans (.of_params _ rfl)

/-- R353: the retirement of a position writes its screen record and its base die's slot map entry alone. -/
theorem writesOnly_retirePos {ps : List Nat} {p : Nat} (h : P.screenRecord + p ∈ ps) (h' : P.slotMap + p / 9 ∈ ps) (s : State) (result : Nat) :
    WritesOnly ps s (s.retirePos p result) :=
  let recorded : WritesOnly ps s (s.setPosState p 3) := writesOnly_setScreenRec h s _
  let ended : WritesOnly ps (s.setPosState p 3) ((s.setPosState p 3).setLastResult p result) := writesOnly_setScreenRec h _ _
  let mapped : WritesOnly ps ((s.setPosState p 3).setLastResult p result) (s.retirePos p result) := .setReg h' (by decide) _ _
  recorded.trans (ended.trans mapped)

/-- The place of position `p` and its records, once the spare `p` has left the slot map (R353). -/
def emptiedSpare (s : State) (p result : Nat) : State :=
  ({ s with panel := { s.panel with screens := s.panel.screens.filter fun x => x.position != p } }.setSpare (p / 9) 0xF).retirePos p result

theorem writesOnly_emptiedSpare (s : State) (p result : Nat) :
    WritesOnly [P.slotMap + p / 9, P.screenRecord + p] s (emptiedSpare s p result) :=
  let filtered : WritesOnly [P.slotMap + p / 9, P.screenRecord + p] s
      { s with panel := { s.panel with screens := s.panel.screens.filter fun x => x.position != p } } := .of_params _ rfl
  filtered.trans ((writesOnly_setSpare (by simp) _ _).trans (writesOnly_retirePos (by simp) (by simp) _ result))

theorem emptiedSpare_reads {s : State} (can : Canonical s) {p result : Nat} (hp : p < 72) (hr : result < 8) :
    let t := emptiedSpare s p result
    Rebinds s t ∧ t.posState p = 3 ∧ bits (t.screenRec p) 3 3 = result ∧ bits (t.slotEntry (p / 9)) 32 4 = 0xF ∧ t.seq = s.seq
      ∧ (t.panel.screens = s.panel.screens.filter fun x => x.position != p) ∧ t.reg P.eventsRaised 10 = s.reg P.eventsRaised 10 := by
  intro t
  have counted : t.reg P.eventsRaised 10 = s.reg P.eventsRaised 10 := by
    refine (writesOnly_emptiedSpare s p result).regs can.1 _ _ (by decide) ?_
    simp only [List.mem_cons, List.not_mem_nil, or_false, P.slotMap, P.screenRecord, P.eventsRaised]
    omega
  have filtered : Rebinds s { s with panel := { s.panel with screens := s.panel.screens.filter fun x => x.position != p } } :=
    Rebinds.setPanel s (s.panel.screens.filter fun x => x.position != p) s.panel.lastSlot s.panel.unscreened s.panel.fieldDirty
  have emptied := filtered.trans (Rebinds.setSpare { s with panel := { s.panel with screens := s.panel.screens.filter fun x => x.position != p } }
    (b := p / 9) (by omega) 0xF)
  have spare : bits (({ s with panel := { s.panel with screens := s.panel.screens.filter fun x => x.position != p } } : State).setSpare (p / 9) 0xF
      |>.slotEntry (p / 9)) 32 4 = 0xF := by
    exact (congrArg (bits · 32 4) (slotEntry_setSlotEntry ..)).trans (bits_setBits_same ..)
  have shape : t = (({ s with panel := { s.panel with screens := s.panel.screens.filter fun x => x.position != p } } : State).setSpare (p / 9) 0xF).retirePos
      p result := rfl
  have kept : t.seq = s.seq ∧ (t.panel.screens = s.panel.screens.filter fun x => x.position != p) := ⟨rfl, rfl⟩
  clear_value t
  generalize ({ s with panel := { s.panel with screens := s.panel.screens.filter fun x => x.position != p } } : State).setSpare (p / 9) 0xF = a
    at emptied spare shape
  obtain ⟨state, last⟩ := retirePos_reads (emptied.can can) hp hr
  rw [← shape] at state last
  refine ⟨emptied.trans (shape ▸ .retirePos a hp result), state, last, ?_, kept.1, kept.2, counted⟩
  have entry : ((a.setPosState p 3).setLastResult p result).slotEntry (p / 9) = a.slotEntry (p / 9) := by
    have recs : WritesOnly [P.screenRecord + p] a ((a.setPosState p 3).setLastResult p result) :=
      (writesOnly_setScreenRec (by simp) a _).trans (writesOnly_setScreenRec (by simp) _ _)
    refine recs.regs (emptied.can can).1 _ _ (by decide) ?_
    simp only [List.mem_cons, List.not_mem_nil, or_false, P.slotMap, P.screenRecord]
    omega
  rw [shape]
  refine (congrArg (bits · 32 4) (slotEntry_setSlotEntry ..)).trans ?_
  rw [bits_setBits_other (.inl (by decide)), entry]
  exact spare

/-- R360, R361: a spare that is retired. -/
theorem retireSpare_reads {s : State} (can : Canonical s) {p result cause part : Nat} (hp : p < 72) (hr : result < 8) :
    let t := s.retireSpare p result cause part
    Rebinds s t ∧ t.posState p = 3 ∧ bits (t.screenRec p) 3 3 = result ∧ t.spareOf (p / 9) = none ∧ t.seq = s.seq
      ∧ (t.panel.screens = s.panel.screens.filter fun x => x.position != p) ∧ t.reg P.eventsRaised 10 = s.reg P.eventsRaised 10 := by
  intro t
  have shape : t = ((emptiedSpare s p result).reportCapacity (p / 9)).dueSignature { kind := 1, cause := cause, unit := p, part := part } := rfl
  obtain ⟨emptied, state, last, spare, seq, screens, raised⟩ := emptiedSpare_reads can hp hr
  clear_value t
  generalize emptiedSpare s p result = c at emptied state last spare seq screens raised shape
  have canC := emptied.can can
  obtain ⟨told, only⟩ := reportCapacity_reads c (b := p / 9) (by omega)
  have counted := eventsRaised_reportCapacity canC.1 (b := p / 9) (e := 10) (by omega) (by decide) (by decide)
  have reported : Rebinds c (c.reportCapacity (p / 9)) := .reportCapacity c (by omega)
  have recorded : (c.reportCapacity (p / 9)).screenRec p = c.screenRec p := only.regs canC.1 _ 0 (by decide) (by
    simp only [eventRegs, List.mem_cons, List.not_mem_nil, or_false, P.screenRecord, P.capacityState, P.eventsRaised, P.eventsCoalesced, P.eventsLost, P.eventSeq]
    omega)
  have mapped : (c.reportCapacity (p / 9)).slotEntry (p / 9) = c.slotEntry (p / 9) := only.regs canC.1 _ 0 (by decide) (by
    simp only [eventRegs, List.mem_cons, List.not_mem_nil, or_false, P.slotMap, P.capacityState, P.eventsRaised, P.eventsCoalesced, P.eventsLost, P.eventSeq]
    omega)
  generalize c.reportCapacity (p / 9) = d at told counted reported recorded mapped shape
  have signed : Rebinds d t := shape ▸ .dueSignature ..
  have same : t.params = d.params ∧ t.seq = d.seq ∧ t.panel = d.panel := shape ▸ ⟨rfl, rfl, rfl⟩
  refine ⟨emptied.trans (reported.trans signed), ?_, ?_, ?_, ?_, ?_, (State.reg_congr same.1 ..).trans (counted.trans raised)⟩
  · exact (congrArg (fun x => bits x 0 3) ((State.reg_congr same.1 ..).trans recorded)).trans state
  · exact (congrArg (fun x => bits x 3 3) ((State.reg_congr same.1 ..).trans recorded)).trans last
  · exact spareOf_of_entry ((congrArg (fun x => bits x 32 4) ((State.reg_congr same.1 ..).trans mapped)).trans spare)
  · exact same.2.1.trans ((congrArg State.seq told :).trans seq)
  · rw [same.2.2]
    exact (congrArg (fun u : State => u.panel.screens) told :).trans screens

end Sys2Proof.PanelLaws

/-! PROOF. A change asked for on a base die starts the copy of its slot's tile store, or retires its spare (R12, R13, R353 to R361). -/

namespace Sys2Proof.PanelLaws

open Sys2Proof.Machine Sys2Proof.Claims

/-- The panel once the request `r` is taken up (R12). -/
def takeRequest (s : State) (r : Nat × Nat) : State :=
  { s with seq := { s.seq with changeReq := removeFirst (· == r) s.seq.changeReq } }

/-- What a change that serves request `r` keeps and reaches (R12, R13). -/
def Serves (s : State) (r : Nat × Nat) (P : State → Prop) (t : State) : Prop :=
  t.seq.changeReq = removeFirst (· == r) s.seq.changeReq ∧ t.mem = s.mem ∧ t.clock = s.clock
    ∧ (∀ j, j ∉ s.seq.dead → Kept (s.die j) (t.die j)) ∧ P t

theorem serves_of_rebinds {s t : State} (can : Canonical s) {r : Nat × Nat} {P : State → Prop} (h : Rebinds (takeRequest s r) t) (reached : P t) :
    Serves s r P t :=
  ⟨h.changeReq, h.mem, h.clock, h.dies can, reached⟩

theorem serves_retireSlot {s : State} (can : Canonical s) {r : Nat × Nat} {sl p result cause : Nat} (hp : p < 72)
    (h : s.slotOfPos p = some sl) :
    Serves s r (fun t => (sl, p) ∈ t.seq.copying ∧ p / 9 ∈ t.seq.changedAt ∧ sl ∉ t.seq.dead) ((takeRequest s r).retireSlot sl p result cause) :=
  let ⟨bound, begun⟩ := retireSlot_reads (takeRequest s r) (result := result) (cause := cause) hp (slotOfPos_mem h)
  serves_of_rebinds can bound begun

theorem serves_swapSpare {s : State} (can : Canonical s) {r : Nat × Nat} {sl p : Nat} (hp : p < 72)
    (h : s.slotOfPos p = some sl) (spare : (s.spareOf (p / 9)).isSome = true) :
    Serves s r (fun t => (sl, p) ∈ t.seq.copying ∧ p / 9 ∈ t.seq.changedAt ∧ sl ∉ t.seq.dead)
      (((takeRequest s r).swapSpare sl p).getD (takeRequest s r)) := by
  obtain ⟨t, swapped, bound, begun⟩ := swapSpare_reads (takeRequest s r) hp (slotOfPos_mem h) spare
  rw [swapped]
  exact serves_of_rebinds can bound begun

theorem serves_retireSpare {s : State} (can : Canonical s) {r : Nat × Nat} {p result cause part : Nat} (hp : p < 72) (hr : result < 8) :
    Serves s r (fun t => t.posState p = 3 ∧ t.spareOf (p / 9) = none ∧ t.seq.copying = s.seq.copying)
      ((takeRequest s r).retireSpare p result cause part) :=
  let ⟨bound, state, _, spare, seq, _⟩ := retireSpare_reads (s := takeRequest s r) (cause := cause) (part := part) can hp hr
  serves_of_rebinds can bound ⟨state, spare, (congrArg Seq.copying seq :)⟩

/-- R356: the change that `slotChange` serves. -/
theorem slotChangeStep_first {s : State} {b : Nat} (may : s.mayChange b = true) {k p : Nat} {rest : List (Nat × Nat)}
    (h : s.changesOf b = (k, p) :: rest) :
    slotChangeStep s b = match s.slotOfPos p with
      | none => if k = 0 ∧ s.spareOf b = some p then (takeRequest s (k, p)).retireSpare p 4 3 0 else takeRequest s (k, p)
      | some sl => if k = 0 then (takeRequest s (k, p)).retireSlot sl p 4 3 else ((takeRequest s (k, p)).swapSpare sl p).getD (takeRequest s (k, p)) := by
  unfold slotChangeStep
  rw [if_neg (not_not_intro may)]
  simp only [h]
  rfl

/-- R361: the change that `blameRetirement` serves. -/
theorem blameRetireStep_asked {s : State} {p : Nat} (may : s.mayChange (p / 9) = true) (asked : (1, p) ∈ s.seq.changeReq)
    (alone : ∀ r ∈ s.seq.changeReq, r.1 = 0 → r.2 / 9 ≠ p / 9) :
    blameRetireStep s p = match s.slotOfPos p with
      | some sl => (takeRequest s (1, p)).retireSlot sl p 6 4
      | none => if s.spareOf (p / 9) = some p then (takeRequest s (1, p)).retireSpare p 6 4 0 else takeRequest s (1, p) := by
  have free : ¬ (¬ s.mayChange (p / 9) = true ∨ ¬ s.seq.changeReq.contains (1, p) = true
      ∨ (s.seq.changeReq.any fun r => r.1 == 0 && r.2 / 9 == p / 9) = true) := by
    simp only [may, List.contains_iff_mem, asked, not_true_eq_false, false_or, List.any_eq_true, Bool.and_eq_true, beq_iff_eq]
    exact fun ⟨r, mem, hard, there⟩ => alone r mem hard there
  unfold blameRetireStep
  exact (if_neg free).trans rfl

end Sys2Proof.PanelLaws

namespace Sys2Proof.Claims

open Sys2Proof.Machine Sys2Proof.PanelLaws

/-- Settles O21: the change retires the slot's position, swaps it with the spare, or retires the spare, as the request and the
slot map say; each rebinds its base die alone. -/
theorem slotChangeStartsTheCopyOfItsTileStore : Obligations.SlotChangeStartsTheCopyOfItsTileStore := by
  unfold Obligations.SlotChangeStartsTheCopyOfItsTileStore
  intro s b p can may there served copies
  obtain ⟨b, hb⟩ := b
  change p / 9 = b at there
  subst there
  have small : p < 72 := by omega
  refine ⟨fun k rest first => ⟨fun sl bound case => ?_, fun free hard spare => ?_⟩, fun asked alone q hq => ?_⟩
  · have step := slotChangeStep_first may first
    simp only [bound] at step
    by_cases hard : k = 0
    · rw [if_pos hard] at step
      exact ⟨_, congrArg Host.Outcome.next step, serves_retireSlot can small bound⟩
    · rw [if_neg hard] at step
      exact ⟨_, congrArg Host.Outcome.next step, serves_swapSpare can small bound (case.resolve_left hard)⟩
  · have step := slotChangeStep_first may first
    simp only [free] at step
    rw [if_pos ⟨hard, spare⟩] at step
    exact ⟨_, congrArg Host.Outcome.next step, serves_retireSpare can small (by decide)⟩
  · subst hq
    have step := blameRetireStep_asked may asked alone
    refine ⟨fun sl bound => ?_, fun free spare => ?_⟩
    · simp only [bound] at step
      exact ⟨_, congrArg Host.Outcome.next step, serves_retireSlot can small bound⟩
    · simp only [free] at step
      rw [if_pos spare] at step
      exact ⟨_, congrArg Host.Outcome.next step, serves_retireSpare can small (by decide)⟩

end Sys2Proof.Claims

/-! PROOF. A record of the parameter directory, from its message to its answer (R331 to R337): what the message of a record
parses to, what an answered record counts and sends, and what a granted write does. -/

namespace Sys2Proof.DirLaws

open Sys2Proof.Machine Sys2Proof.Claims Sys2Proof.StoreTileLaws Sys2Proof.RecordLaws

theorem length_leBytes (n x : Nat) : (leBytes n x).length = n := by
  induction n generalizing x with
  | zero => rfl
  | succ n ih => simp [leBytes, ih]

theorem leNat_leBytes (n x : Nat) : leNat (leBytes n x) = x % 256 ^ n := by
  induction n generalizing x with
  | zero => simp [leBytes, leNat, Nat.mod_one]
  | succ n ih =>
    have digit : x % 256 ^ (n + 1) = x % 256 + 256 * (x / 256 % 256 ^ n) := by rw [pow_succ', Nat.mod_mul]
    simp [leBytes, leNat, ih, digit]

/-- The record that a message carries: data with a write alone (Table 15-4). -/
def carried (r : DirRecord) : DirRecord := if r.op = 2 then r else { r with data := [] }

/-- The bytes of a record in its message. -/
def recordBytes (r : DirRecord) : List Byte :=
  [r.op, r.res0] ++ leBytes 2 r.tag.toNat ++ leBytes 2 r.index.toNat ++ [r.sub, r.res1]
    ++ leBytes 4 r.offset.toNat ++ leBytes 4 r.length.toNat ++ (if r.op = 2 then r.data else [])

/-- The bytes of a 16-bit word, put together again. -/
theorem two_bytes (w : BitVec 16) : w.toNat % 256 + 256 * (w.toNat / 256 % 256) = w.toNat := by
  have := w.isLt
  omega

/-- The bytes of a 32-bit word, put together again. -/
theorem four_bytes (w : BitVec 32) :
    w.toNat % 256 + 256 * (w.toNat / 256 % 256 + 256 * (w.toNat / 256 / 256 % 256 + 256 * (w.toNat / 256 / 256 / 256 % 256))) = w.toNat := by
  have := w.isLt
  omega

/-- Tables 15-4, 15-5: a record is parsed as it was sent. -/
theorem parseRecord_recordBytes {r : DirRecord} (sized : r.op = 2 → r.data.length = r.length.toNat) :
    parseRecord (recordBytes r) = (carried r, (recordBytes r).length) := by
  have isWrite : (r.op.toNat = 2) = (r.op = 2#8) := propext ⟨fun h => BitVec.eq_of_toNat_eq h, fun h => h ▸ rfl⟩
  by_cases write : r.op = 2#8
  · have whole : r.data.length = r.length.toNat := sized write
    obtain ⟨op, res0, tag, index, sub, res1, offset, length, data⟩ := r
    subst write
    simp [parseRecord, carried, recordBytes, leField, slice, leNat, leBytes, two_bytes, four_bytes]
    dsimp only at whole
    exact ⟨whole.le, by omega⟩
  · simp [parseRecord, carried, recordBytes, leField, slice, leNat, leBytes, isWrite, two_bytes, four_bytes, if_neg write]

/-- R332: the message of one record holds that record, and does not stop on an error. -/
theorem parseMessage_recordMessage {r : DirRecord} (sized : r.op = 2 → r.data.length = r.length.toNat) :
    parseMessage (recordMessage r) = some (false, [carried r]) := by
  have shape : recordMessage r = 1 :: 1 :: 0 :: 0 :: recordBytes r := by simp [recordMessage, recordBytes]
  have one : leField (recordMessage r) 1 1 = 1 := by rw [shape]; rfl
  have head : leField (recordMessage r) 0 1 = 1 := by rw [shape]; rfl
  have go : leField (recordMessage r) 2 1 = 0 := by rw [shape]; rfl
  have rest : (recordMessage r).drop 4 = recordBytes r := by rw [shape]; rfl
  have long : ¬ ((recordMessage r).length < 4 ∨ leField (recordMessage r) 0 1 ≠ 1 ∨ leField (recordMessage r) 1 1 = 0
      ∨ 32 < leField (recordMessage r) 1 1) := by
    rw [one, head, shape]
    simp
  have whole : 16 ≤ (recordBytes r).length := by
    simp [recordBytes, length_leBytes]
    omega
  have records : parseRecords 1 (recordBytes r) = some [carried r] := by
    simp [parseRecords, parseRecord_recordBytes sized, Nat.not_lt.2 whole]
  unfold parseMessage
  rw [if_neg long, one, rest, records, go]
  rfl

/-- The answer to the record of one message, within the room of its response, and the state that it leaves (R331, R332). -/
def answerOf (s : State) (who : Requester) (head : Option Nat) (r : DirRecord) : Answer × State :=
  let x := (s.recordHead head (carried r)).2.record who (s.recordHead head (carried r)).1 (carried r)
  (x.1.fit (s.responseLimit who - 28), x.2)

/-- A response on its way, kept for a repeat where the transport keeps responses (R337). -/
def deliver (s : State) (who : Requester) (ic : Bool) (msg out : List Byte) : State :=
  (if who.transport.val < 2 then s else s.keepAnswer who msg out).respond who ic out

/-- The response to the message of one record. -/
def reply (a : Answer) (r : DirRecord) : List Byte := [0x01, 0x01, 0x00, 0x00] ++ a.bytes r

theorem bytes_carried (a : Answer) (r : DirRecord) : a.bytes (carried r) = a.bytes r := by
  unfold carried
  split <;> rfl

/-- R332: the message of one record leaves the state of its record, counted, with its answer. -/
theorem message_recordMessage (s : State) (who : Requester) (head : Option Nat) {r : DirRecord}
    (sized : r.op = 2 → r.data.length = r.length.toNat) :
    s.message who head (s.responseLimit who) (recordMessage r)
      = (reply (answerOf s who head r).1 r, (answerOf s who head r).2.countRecord who (answerOf s who head r).1) := by
  unfold State.message
  simp only [parseMessage_recordMessage sized, State.runRecords, Bool.false_eq_true, if_false, List.append_nil, bytes_carried]
  rfl

/-- R331, R332, R337: a record that is heard leaves its answer. -/
theorem single_of_heard {s : State} {who : Requester} {r : DirRecord} (heard : Heard s who r) (head : Option Nat) :
    s.single who head r = deliver ((answerOf s who head r).2.countRecord who (answerOf s who head r).1) who false (recordMessage r)
      (reply (answerOf s who head r).1 r) := by
  obtain ⟨answers, short, sized, fresh⟩ := heard
  unfold State.single State.answerMessage State.receiveMessage deliver
  rw [if_neg (not_not_intro answers), if_neg (Nat.not_lt.2 short), message_recordMessage s who head sized]
  by_cases quick : who.transport.val < 2
  · rw [if_pos quick, if_pos quick]
  · rw [if_neg quick, if_neg quick, fresh (by omega)]

/-- What the answer of a record adds to the state `u` that the record left: its counts, the kept response and the response sent. -/
structure Responds (u t : State) (who : Requester) (ic : Bool) (out : List Byte) (regs : List Nat) : Prop where
  rest : t = { u with params := t.params, dir := t.dir, out := t.out }
  only : WritesOnly regs u t
  sent : Sent t who ic out u.out

/-- Which counts an answered record raises (0x1010). -/
def answerRegs (a : Answer) : List Nat := P.requests :: if a.status = 0 then [] else [P.rejected]

theorem transport_lt (who : Requester) : (who.transport : Nat) < 2 ^ 24 := by
  have := who.transport.isLt
  omega

theorem countRecord_rest (s : State) (who : Requester) (a : Answer) : s.countRecord who a = { s with params := (s.countRecord who a).params } := by
  unfold State.countRecord
  split <;> rfl

theorem countRecord_only (s : State) (who : Requester) (a : Answer) : WritesOnly (answerRegs a) s (s.countRecord who a) := by
  unfold State.countRecord answerRegs
  have counted : ∀ ps, P.requests ∈ ps → WritesOnly ps s (s.bump64 P.requests who.transport 1) := fun ps h =>
    .bump64 h (transport_lt who) s 1
  split
  · exact counted _ (List.mem_cons_self ..)
  · exact (counted _ (List.mem_cons_self ..)).trans (.bump64 (by simp) (transport_lt who) _ 1)

theorem respond_out (s : State) (who : Requester) (ic : Bool) (out : List Byte) : Sent (s.respond who ic out) who ic out s.out := by
  unfold Sent State.respond State.signal
  by_cases i3c : who.transport.val = 2 <;> simp [i3c, State.emit, State.ianaPrefix, State.val, State.reg]

theorem respond_rest (s : State) (who : Requester) (ic : Bool) (out : List Byte) :
    s.respond who ic out = { s with out := (s.respond who ic out).out } := by
  have signalled : s.signal (who.transport.val == 2) = { s with out := (s.signal (who.transport.val == 2)).out } := by
    unfold State.signal
    split <;> rfl
  unfold State.respond
  rw [signalled]
  rfl

/-- R337: what a delivery changes. -/
theorem responds_deliver (s : State) (who : Requester) (ic : Bool) (msg out : List Byte) :
    Responds s (deliver s who ic msg out) who ic out [] := by
  have kept : (if who.transport.val < 2 then s else s.keepAnswer who msg out)
      = { s with dir := (if who.transport.val < 2 then s else s.keepAnswer who msg out).dir } := by
    split <;> rfl
  unfold deliver
  generalize (if who.transport.val < 2 then s else s.keepAnswer who msg out) = v at kept
  have sent := respond_out v who ic out
  have same : v.out = s.out := (congrArg State.out kept :)
  have rest := respond_rest v who ic out
  generalize v.respond who ic out = t at rest sent
  refine ⟨?_, .of_params _ ?_, same ▸ sent⟩
  · rw [rest, kept]
  · rw [rest, kept]

/-- R331, R332: what the answer to a heard record changes, beyond what the record itself does. -/
theorem responds_single {s : State} {who : Requester} {r : DirRecord} (heard : Heard s who r) (head : Option Nat) :
    Responds (answerOf s who head r).2 (s.single who head r) who false (reply (answerOf s who head r).1 r) (answerRegs (answerOf s who head r).1) := by
  rw [single_of_heard heard head]
  generalize answerOf s who head r = x
  have counted := countRecord_rest x.2 who x.1
  have only := countRecord_only x.2 who x.1
  generalize x.2.countRecord who x.1 = v at counted only
  obtain ⟨rest, plain, sent⟩ := responds_deliver v who false (recordMessage r) (reply x.1 r)
  have same : v.out = x.2.out := (congrArg State.out counted :)
  generalize deliver v who false (recordMessage r) (reply x.1 r) = t at rest plain sent
  refine ⟨?_, only.trans (WritesOnly.mono (List.nil_subset _) plain), same ▸ sent⟩
  rw [rest, counted]

/-- A granted write of a parameter that the directory knows, of a span that it takes (R324, R331, R336). -/
structure Passes (s : State) (who : Requester) (p off : Nat) (data : List Byte) (row : ParamRow) : Prop where
  granted : Granted s who (writeRec p off data)
  small : p < 0xF00000
  placed : off < 2 ^ 32
  known : rowOf p = some row
  there : s.objectThere row.index = true
  mine : p = P.transportRights → who.transport.val = 0
  loaded : s.loaded row = true
  span : spanOk row true off data.length = true
  number : row.ty = .f32 → (f32 (leNat data)).isNan = false

theorem recParam_writeRec {p off : Nat} {data : List Byte} (small : p < 0xF00000) : recParam (writeRec p off data) = p := by
  unfold recParam writeRec
  simp only [BitVec.toNat_ofNat]
  omega

/-- R331: a write record that is well formed runs its parameter's write. -/
theorem record_writeRec {s : State} {who : Requester} {p off h : Nat} {data : List Byte} (small : p < 0xF00000) (placed : off < 2 ^ 32)
    (sized : data.length = (BitVec.ofNat 32 data.length).toNat) :
    s.record who h (writeRec p off data) = s.writeParam who p off h data := by
  have formed : ¬ ((writeRec p off data).op.toNat = 0 ∨ 4 < (writeRec p off data).op.toNat ∨ (writeRec p off data).res0 ≠ 0
      ∨ (writeRec p off data).res1 ≠ 0
      ∨ (3 ≤ (writeRec p off data).op.toNat ∧ ((writeRec p off data).offset.toNat ≠ 0 ∨ (writeRec p off data).length.toNat ≠ 0))
      ∨ ((writeRec p off data).op.toNat = 2 ∧ (writeRec p off data).data.length ≠ (writeRec p off data).length.toNat)) := by
    simp [writeRec, ← sized]
  have write : (writeRec p off data).op.toNat = 2 := rfl
  have offset : (writeRec p off data).offset.toNat = off := Nat.mod_eq_of_lt placed
  unfold State.record
  rw [if_neg formed, if_pos write, recParam_writeRec small, offset]
  rfl

namespace Passes

variable {s : State} {who : Requester} {p off : Nat} {data : List Byte} {row : ParamRow}

/-- R331: a write that passes is that of its access code. -/
theorem writeParam (w : Passes s who p off data row) (h : Nat) : s.writeParam who p off h data =
    match row.access with
    | .ro | .rs => ({ status := 0x03 }, s)
    | .rws => s.writeHeld p off data
    | .wo => ({ status := (s.writeWo p off data).1,
                detail := if (s.writeWo p off data).1 = 0x05 then (s.writeWo p off data).2.valueDetail p else 0 }, (s.writeWo p off data).2)
    | .rw => s.writeRw p off h data := by
  have right : ¬ (¬ bit (s.rights who) 1 = true ∨ p / 256 ≥ 0xF000) := by
    have := w.small
    simp only [w.granted.2, not_true_eq_false, false_or]
    omega
  have mine : ¬ (p = P.transportRights ∧ who.transport.val ≠ 0) := fun x => x.2 (w.mine x.1)
  have number : ¬ (row.ty = .f32 ∧ (f32 (leNat data)).isNan = true) := fun x => by simp [w.number x.1] at x
  unfold State.writeParam
  rw [if_neg right]
  simp only [w.known]
  rw [if_neg (not_not_intro w.there)]
  cases row.access with
  | ro => rfl
  | rs => rfl
  | _ =>
    dsimp only
    rw [if_neg mine, if_neg (not_not_intro w.loaded), if_neg (not_not_intro w.span), if_neg number]

theorem answerOf (w : Passes s who p off data row) (head : Option Nat) :
    answerOf s who head (writeRec p off data)
      = (((s.recordHead head (writeRec p off data)).2.writeParam who p off (s.recordHead head (writeRec p off data)).1 data).1.fit
            (s.responseLimit who - 28),
          ((s.recordHead head (writeRec p off data)).2.writeParam who p off (s.recordHead head (writeRec p off data)).1 data).2) := by
  have sized : data.length = (BitVec.ofNat 32 data.length).toNat := w.granted.1.2.2.1 rfl
  unfold DirLaws.answerOf
  rw [show carried (writeRec p off data) = writeRec p off data from rfl, record_writeRec w.small w.placed sized]

theorem recordHead_other (w : Passes s who p off data row) (h : p ≠ P.eventRingEnable) :
    s.recordHead none (writeRec p off data) = (0, s) := by
  unfold State.recordHead
  simp [recParam_writeRec w.small, h]

/-- R331: the answer to a write of a WO parameter. -/
theorem answerOf_wo (w : Passes s who p off data row) (access : row.access = .wo) (h : p ≠ P.eventRingEnable) :
    DirLaws.answerOf s who none (writeRec p off data)
      = ({ status := (s.writeWo p off data).1,
           detail := if (s.writeWo p off data).1 = 0x05 then (s.writeWo p off data).2.valueDetail p else 0 }, (s.writeWo p off data).2) := by
  rw [w.answerOf, w.recordHead_other h, w.writeParam]
  simp only [access]
  rfl

/-- R327: the answer to a write of an RWS parameter. -/
theorem answerOf_rws (w : Passes s who p off data row) (access : row.access = .rws) (h : p ≠ P.eventRingEnable) :
    DirLaws.answerOf s who none (writeRec p off data)
      = ((s.writeHeld p off data).1.fit (s.responseLimit who - 28), (s.writeHeld p off data).2) := by
  rw [w.answerOf, w.recordHead_other h, w.writeParam]
  simp only [access]

/-- R325: the answer to a write of an RW parameter. -/
theorem answerOf_rw (w : Passes s who p off data row) (access : row.access = .rw) (h : p ≠ P.eventRingEnable) :
    DirLaws.answerOf s who none (writeRec p off data)
      = ((s.writeRw p off 0 data).1.fit (s.responseLimit who - 28), (s.writeRw p off 0 data).2) := by
  rw [w.answerOf, w.recordHead_other h, w.writeParam]
  simp only [access]

end Passes

end Sys2Proof.DirLaws

/-! PROOF. Writes of whole elements of a parameter (R324, R325), and the event ring's and the snapshots' registers (R364, R371). -/

namespace Sys2Proof.RecordLaws

open Sys2Proof.Machine

/-- Writing one register leaves every other as it was. -/
theorem reg_setReg_ne (s : State) {p e p' e' : Nat} (he : e < 2 ^ 24) (he' : e' < 2 ^ 24) (h : p' ≠ p ∨ e' ≠ e) (v : Nat) :
    (s.setReg p e v).reg p' e' = s.reg p' e' := by
  have apart := pkey_ne he he' h
  unfold State.reg State.setReg
  exact Sparse.get_put_ne s.params v apart

/-- Writing one scalar leaves every other as it was. -/
theorem val_setVal_ne (s : State) {p q : Nat} (h : q ≠ p) (v : Nat) : (s.setVal p v).val q = s.val q :=
  reg_setReg_ne s (by decide) (by decide) (.inl h) v

end Sys2Proof.RecordLaws

namespace Sys2Proof.DirLaws

open Sys2Proof.Machine Sys2Proof.Claims Sys2Proof.StoreTileLaws Sys2Proof.RecordLaws

theorem leBytes_leNat (bs : List Byte) : leBytes bs.length (leNat bs) = bs := by
  induction bs with
  | nil => rfl
  | cons b bs ih =>
    have digit : (b.toNat + 256 * leNat bs) / 256 = leNat bs := by
      have := b.isLt
      omega
    have low : BitVec.ofNat 8 (b.toNat + 256 * leNat bs) = b := BitVec.eq_of_toNat_eq (by
      have := b.isLt
      simp
      omega)
    simp [leBytes, leNat, digit, low, ih]

/-- A byte string of one element's length is one piece. -/
theorem chunks_whole {α : Type} {n : Nat} (hn : 0 < n) {xs : List α} (h : xs.length = n) : chunks n xs.length xs = [xs] := by
  obtain ⟨m, hm⟩ : ∃ m, xs.length = m + 1 := ⟨n - 1, by omega⟩
  rw [hm]
  have full : xs.isEmpty = false := by
    rw [List.isEmpty_eq_false_iff]
    rintro rfl
    simp at hm
  have gone : xs.drop n = [] := List.drop_eq_nil_of_le h.le
  have none : chunks n m ([] : List α) = [] := by cases m <;> rfl
  simp [chunks, full, gone, none, List.take_of_length_le h.le]

/-- R324: a write of a whole parameter of one element stores its number. -/
theorem putParam_whole {p : Nat} {bytes : List Byte} (pos : 0 < elemBytes p) (h : bytes.length = elemBytes p) (m : Sparse Nat) :
    putParam m p 0 bytes = Sparse.put paramDefault m (pkey p 0) (leNat bytes) := by
  unfold putParam
  have one : max (elemBytes p) 1 = elemBytes p := by omega
  simp only [one, chunks_whole pos h, Nat.zero_div]
  rfl

/-- R5: no bit of an element without Res bits is masked. -/
theorem maskBytes_whole {p : Nat} {bytes : List Byte} (open' : writable p = none) (pos : 0 < elemBytes p) (h : bytes.length = elemBytes p) :
    maskBytes p bytes = bytes := by
  unfold maskBytes maskElem
  have one : max (elemBytes p) 1 = elemBytes p := by omega
  simp only [one, chunks_whole pos h, open', List.flatMap_cons, List.flatMap_nil, List.append_nil]
  rw [← h]
  exact leBytes_leNat bytes

/-- Whether the directory has parameter `p` with access `a`, from the first and of no float, and takes `n` bytes of it (R324). -/
def takesWhole (p : Nat) (a : Access) (n : Nat) : Bool :=
  (rowOf p).any fun r => decide (r.access = a) && !r.late && decide (r.ty ≠ .f32) && spanOk r true 0 n

/-- R331: a granted write of a whole parameter passes once bring-up has begun. -/
theorem passes_whole {s : State} {who : Requester} {p : Nat} {a : Access} {data : List Byte} (granted : Granted s who (writeRec p 0 data))
    (takes : takesWhole p a data.length = true) (small : p < 0xF00000) (own : p ≠ P.transportRights)
    (there : ∀ row, rowOf p = some row → s.objectThere row.index = true) :
    ∃ row, row.access = a ∧ Passes s who p 0 data row := by
  obtain ⟨row, known, fits⟩ := (Option.any_eq_true _ _).1 takes
  simp only [Bool.and_eq_true, decide_eq_true_eq, Bool.not_eq_true'] at fits
  obtain ⟨⟨⟨access, early⟩, number⟩, span⟩ := fits
  refine ⟨row, access, granted, small, by decide, known, there row known, fun h => absurd h own, ?_, span, fun h => absurd h number⟩
  simp [State.loaded, early]

/-- R371: a write of EventRingEnable runs the check of the ring. -/
theorem writeRw_eventRingEnable (s : State) (v : Byte) (small : v.toNat ≤ 1) (head : Nat) :
    s.writeRw P.eventRingEnable 0 head [v]
      = if (s.enableRing v.toNat head).1 then ({ status := 0 }, (s.enableRing v.toNat head).2)
        else ({ status := 0x05, detail := (s.enableRing v.toNat head).2.valueDetail P.eventRingEnable }, (s.enableRing v.toNat head).2) := by
  have size : elemBytes P.eventRingEnable = 1 := by decide +kernel
  have stored : putParam s.params P.eventRingEnable 0 (maskBytes P.eventRingEnable [v])
      = Sparse.put paramDefault s.params (pkey P.eventRingEnable 0) v.toNat := by
    rw [maskBytes_whole (by decide) (by omega) (by rw [size]; rfl), putParam_whole (by omega) (by rw [size]; rfl)]
    rfl
  have checked : s.checkWrite P.eventRingEnable (putParam s.params P.eventRingEnable 0 (maskBytes P.eventRingEnable [v])) = .plain true := by
    have read : regIn (Sparse.put paramDefault s.params (pkey P.eventRingEnable 0) v.toNat) P.eventRingEnable 0 = v.toNat := Sparse.get_put_same ..
    have plain : ∀ m, s.checkWrite P.eventRingEnable m = .plain (decide (regIn m P.eventRingEnable 0 ≤ 1)) := fun _ => rfl
    rw [stored, plain, read, decide_eq_true small]
  unfold State.writeRw
  dsimp only
  rw [checked]
  rfl

/-- R364: a write of SnapshotTime or SnapshotStep arms, or is rejected while a snapshot is copying. -/
theorem writeRw_snapshotTime (s : State) (bytes : List Byte) :
    s.writeRw P.snapshotTime 0 0 bytes
      = if s.log.copying.isSome then ({ status := 0x05, detail := s.rejectSnapshot.valueDetail P.snapshotTime }, s.rejectSnapshot)
        else ({ status := 0 }, s.armTime (leNat bytes)) := rfl

theorem writeRw_snapshotStep (s : State) (bytes : List Byte) :
    s.writeRw P.snapshotStep 0 0 bytes
      = if s.log.copying.isSome then ({ status := 0x05, detail := s.rejectSnapshot.valueDetail P.snapshotStep }, s.rejectSnapshot)
        else ({ status := 0 }, s.armStep (leNat bytes)) := rfl

end Sys2Proof.DirLaws

/-! PROOF. The event ring, the event sink and the snapshots (R364 to R366, R371 to R373). -/

namespace Sys2Proof.EventsOutLaws

open Sys2Proof.Machine Sys2Proof.Claims Sys2Proof.StoreTileLaws Sys2Proof.RecordLaws Sys2Proof.DirLaws

/-- R331: what a granted write of an RW parameter with an effect of its own leaves: the record's state, counted and answered. -/
theorem responds_rw {s : State} {who : Requester} {p : Nat} {data : List Byte} (granted : Granted s who (writeRec p 0 data)) (boot : s.boot ≤ 4)
    (takes : takesWhole p .rw data.length = true) (small : p < 0xF00000) (own : p ≠ P.transportRights) (head : Option Nat) {h : Nat}
    (read : s.recordHead head (writeRec p 0 data) = (h, s)) {a : Answer} {u : State} (run : s.writeRw p 0 h data = (a, u)) (bare : a.data = []) :
    Responds u (s.single who head (writeRec p 0 data)) who false (reply a (writeRec p 0 data)) (answerRegs a) := by
  obtain ⟨row, access, passes⟩ := passes_whole granted takes small own fun row _ => by simp [State.objectThere, boot]
  have fit : a.fit (s.responseLimit who - 28) = a := by simp [Answer.fit, bare]
  have answered : answerOf s who head (writeRec p 0 data) = (a, u) := by
    rw [passes.answerOf, read, passes.writeParam]
    simp only [access, run, fit]
  have responds := responds_single granted.1 head
  rw [answered] at responds
  exact responds

theorem replied_of_responds {u t : State} {who : Requester} {r : DirRecord} {a : Answer} {regs : List Nat} {st : Nat}
    (h : Responds u t who false (reply a r) regs) (status : a.status = st) : Replied t who r st := ⟨a, u.out, status, h.sent⟩

/-- What a response leaves of the state that its record left. -/
theorem fields_of_responds {u t : State} {who : Requester} {ic : Bool} {out : List Byte} {regs : List Nat} (h : Responds u t who ic out regs) :
    t.log = u.log ∧ t.clock = u.clock ∧ SameStores u t ∧ t.seq = u.seq ∧ t.held = u.held :=
  ⟨(congrArg State.log h.rest :), (congrArg State.clock h.rest :),
    ⟨(congrArg (fun v : State => v.mem.tiles) h.rest :), (congrArg (fun v : State => v.mem.pages) h.rest :), (congrArg State.flash h.rest :),
      (congrArg State.pending h.rest :)⟩, (congrArg State.seq h.rest :), (congrArg State.held h.rest :)⟩

theorem val_of_responds {u t : State} {who : Requester} {ic : Bool} {out : List Byte} {a : Answer} (h : Responds u t who ic out (answerRegs a))
    (wf : Sparse.wf paramDefault u.params = true) {p : Nat} (requests : p ≠ P.requests) (rejected : p ≠ P.rejected) : t.val p = u.val p := by
  refine h.only.regs wf p 0 (by decide) ?_
  unfold answerRegs
  split <;> simp [requests, rejected]

theorem val_of_params {s t : State} (h : t.params = s.params) (p : Nat) : t.val p = s.val p := State.reg_congr h ..

/-! The event ring. -/

/-- R371: the event ring from its first record, its check passed. -/
def ringStarted (s : State) (head : Nat) : State :=
  ({ s.setVal P.eventRingStatus 0 with log := { s.log with
      ringTail := 0, ringPhase := 1, ringNext := s.val P.eventRingFrom, ringHead := head } } : State).setVal P.eventRingEnable 1

theorem enableRing_good {s : State} {head : Nat} (good : s.checkRing head = 0) : s.enableRing 1 head = (true, ringStarted s head) := by
  have first : (s.setVal P.eventRingStatus 0).val P.eventRingFrom = s.val P.eventRingFrom := val_setVal_ne s (by decide) 0
  unfold State.enableRing ringStarted
  simp only [good, first, ne_eq, not_true_eq_false, if_false]
  rfl

theorem enableRing_bad {s : State} {head : Nat} (bad : s.checkRing head ≠ 0) :
    s.enableRing 1 head = (false, s.setVal P.eventRingStatus (s.checkRing head)) := by
  unfold State.enableRing
  simp only [ne_eq, bad, not_false_eq_true, if_true]
  rfl

theorem ring_responds {s : State} {who : Requester} {v : Byte} (granted : Granted s who (writeRec P.eventRingEnable 0 [v])) (boot : s.boot ≤ 4)
    (small : v.toNat ≤ 1) (head : Nat) {ok : Bool} {u : State} (run : s.enableRing v.toNat head = (ok, u)) :
    ∃ a : Answer, a.status = (if ok then 0 else 5) ∧ Responds u (s.single who (some head) (writeRec P.eventRingEnable 0 [v])) who false
      (reply a (writeRec P.eventRingEnable 0 [v])) (answerRegs a) := by
  have written := writeRw_eventRingEnable s v small head
  rw [run] at written
  cases ok with
  | true =>
    exact ⟨_, rfl, responds_rw granted boot (show takesWhole P.eventRingEnable .rw 1 = true by decide +kernel) (by decide) (by decide) _ rfl
      written rfl⟩
  | false =>
    exact ⟨_, rfl, responds_rw granted boot (show takesWhole P.eventRingEnable .rw 1 = true by decide +kernel) (by decide) (by decide) _ rfl
      written rfl⟩

/-- R303: a function reads as it was last set. -/
theorem hostFn_setFn (s : State) (fn : Nat) (f : HostFn) : (s.setFn fn f).hostFn fn = f := Sparse.get_put_same ..

/-- R314: a vector is sent where the host has unmasked it, and otherwise waits. -/
theorem sendMsix_reads (s : State) (fn v : Nat) :
    let t := s.sendMsix fn v
    t = { s with out := t.out, host := t.host } ∧ (∃ es, t.out = es ++ s.out)
      ∧ ((∃ u ∈ (s.hostFn fn).cfg.unmasked, u.val = v) ∧ (s.hostFn fn).cfg.msix = true → t.out.head? = some (.msix fn v))
      ∧ ((∀ u ∈ (s.hostFn fn).cfg.unmasked, u.val ≠ v) ∨ (s.hostFn fn).cfg.msix = false → v ∈ (t.hostFn fn).irq) := by
  intro t
  have open' : ((s.hostFn fn).cfg.msix && (s.hostFn fn).cfg.unmasked.any (·.val == v)) = true ↔
      (∃ u ∈ (s.hostFn fn).cfg.unmasked, u.val = v) ∧ (s.hostFn fn).cfg.msix = true := by
    simp [and_comm]
  by_cases sends : ((s.hostFn fn).cfg.msix && (s.hostFn fn).cfg.unmasked.any (·.val == v)) = true
  · have run : t = s.emit (.msix fn v) := if_pos sends
    obtain ⟨⟨u, mem, hu⟩, msix⟩ := open'.1 sends
    rw [run]
    refine ⟨rfl, ⟨[.msix fn v], rfl⟩, fun _ => rfl, fun masked => ?_⟩
    rcases masked with none | off
    · exact absurd hu (none u mem)
    · exact absurd (msix.symm.trans off) (by decide)
  · have unsent : ¬ ((∃ u ∈ (s.hostFn fn).cfg.unmasked, u.val = v) ∧ (s.hostFn fn).cfg.msix = true) := fun h => sends (open'.2 h)
    by_cases waits : ((s.hostFn fn).irq.contains v) = true
    · have run : t = s := (if_neg sends).trans (if_pos waits)
      rw [run]
      exact ⟨rfl, ⟨[], rfl⟩, fun h => absurd h unsent, fun _ => List.contains_iff_mem.1 waits⟩
    · have run : t = s.setFn fn { s.hostFn fn with irq := (s.hostFn fn).irq ++ [v] } := (if_neg sends).trans (if_neg waits)
      rw [run, hostFn_setFn]
      exact ⟨rfl, ⟨[], rfl⟩, fun h => absurd h unsent, fun _ => by simp⟩

/-- R371: the ring and the log once record `e` is delivered. -/
def ringPut (s : State) (head : Nat) (e : Event) : State :=
  let n := 2 ^ s.val P.eventRingSize
  let t := (s.log.ringTail + 1) % n
  { s with
    out := .hostWrite 0 (s.val P.eventRingBase + 64 * s.log.ringTail) (ringSlot e s.log.ringPhase) false :: s.out
    log := { s.log with
      ringHead := head, ringTail := t, ringPhase := if t = 0 then 1 - s.log.ringPhase else s.log.ringPhase, ringNext := e.seq + 1 } }

theorem ringDeliverStep_eq {s : State} {head : Nat} {e : Event} (on : s.val P.eventRingEnable = 1) (up : s.hostUp = true)
    (room : (s.log.ringTail + 1) % 2 ^ s.val P.eventRingSize ≠ head)
    (next : (s.log.events.reverse.find? fun e => decide (s.log.ringNext ≤ e.seq)) = some e) :
    ringDeliverStep s head = if s.val P.eventRingVector = 0xFF then ringPut s head e
      else (ringPut s head e).sendMsix 0 (s.val P.eventRingVector) := by
  have runs : ¬ (s.val P.eventRingEnable ≠ 1 ∨ ¬ s.hostUp = true) := by simp [on, up]
  unfold ringDeliverStep
  simp only [if_neg runs, if_neg room, next]
  rfl

end Sys2Proof.EventsOutLaws

/-! PROOF. The event sink's rate and the copies of the snapshots (R364 to R366, R373). -/

namespace Sys2Proof.EventsOutLaws

open Sys2Proof.Machine Sys2Proof.Claims Sys2Proof.StoreTileLaws Sys2Proof.RecordLaws Sys2Proof.DirLaws Sys2Proof.WorkLaws

/-! R104: rows that conversions have read. -/

/-- What the count of read rows changes: counters of the arrays and the dies that hold the conversions. -/
structure Tallies (s t : State) : Prop where
  rest : t = { s with params := t.params, seq := { s.seq with dies := t.seq.dies } }
  low : ∀ p, p < P.convOverflows → t.val p = s.val p

namespace Tallies

variable {s t u : State}

theorem refl (s : State) : Tallies s s := ⟨rfl, fun _ _ => rfl⟩

theorem trans (h : Tallies s t) (g : Tallies t u) : Tallies s u := by
  refine ⟨?_, fun p hp => (g.low p hp).trans (h.low p hp)⟩
  rw [g.rest, h.rest]

theorem foldl {α : Type} {f : State → α → State} (hf : ∀ v x, Tallies v (f v x)) (xs : List α) (s : State) : Tallies s (xs.foldl f s) := by
  induction xs generalizing s with
  | nil => exact refl s
  | cons x xs ih => exact (hf s x).trans (ih _)

theorem bump64 (s : State) {p : Nat} (h : P.convOverflows ≤ p) (e n : Nat) : Tallies s (s.bump64 p e n) := by
  refine ⟨rfl, fun q hq => Sparse.get_put_ne s.params _ ?_⟩
  unfold pkey
  omega

theorem countRows (s : State) (sl : Nat) (c : Conv) (i j : Nat) : Tallies s (s.countRows sl c i j) := by
  unfold State.countRows
  split
  · exact refl s
  · exact (bump64 s (le_refl _) ..).trans ((bump64 _ (by decide) ..).trans (bump64 _ (by decide) ..))

theorem countReads (s : State) (sl a : Nat) : Tallies s (s.countReads sl a) := by
  unfold State.countReads
  extract_lets x b
  exact (foldl (fun v c => countRows v sl c ..) x.convs s).trans ⟨rfl, fun _ _ => rfl⟩

theorem countAllReads (s : State) : Tallies s s.countAllReads := foldl (fun v sl => (countReads v sl 0).trans (countReads _ sl 1)) _ s

end Tallies

/-- R365: the copy that an instant takes. -/
theorem takeSnapshot_reads {s : State} (can : Canonical s) :
    let t := s.takeSnapshot
    (∃ m, t.log.copying = some (t.panelTime, t.ac, s.val P.timeState, m)) ∧ t.log.snapAt = none ∧ bits (t.val P.snapshotStatus) 0 2 = 2
      ∧ t.clock = s.clock ∧ SameStores s t ∧ t.log.shadow = s.log.shadow := by
  intro t
  have accounted := Accounts.accountAll s
  have counted := Tallies.countAllReads s.accountAll
  have time : s.accountAll.countAllReads.val P.timeState = s.val P.timeState :=
    (counted.low _ (by decide)).trans (accounted.regs can _ _ (by decide) (by decide))
  have rest : s.accountAll.countAllReads = { s with
      weir := s.accountAll.weir, params := s.accountAll.countAllReads.params
      seq := { s.seq with dies := s.accountAll.countAllReads.seq.dies } } := by
    have first := accounted.rest
    have second := counted.rest
    generalize s.accountAll.countAllReads = b at second
    generalize s.accountAll = a at first second
    rw [second, first]
  have run : t = ({ s.accountAll.countAllReads with log := { s.accountAll.countAllReads.log with
      copying := some (s.accountAll.countAllReads.panelTime, s.accountAll.countAllReads.ac, s.accountAll.countAllReads.val P.timeState,
        s.accountAll.countAllReads.rsViews), snapAt := none } } : State).snapState 2 := rfl
  clear_value t
  generalize s.accountAll.countAllReads = a at time rest run
  have clock : a.clock = s.clock := (congrArg State.clock rest :)
  subst run
  refine ⟨⟨a.rsViews, by rw [← time]; rfl⟩, rfl, ?_, clock, ?_, (congrArg (fun v : State => v.log.shadow) rest :)⟩
  · exact (congrArg (bits · 0 2) (State.val_setVal_same ..)).trans (bits_setBits_same ..)
  · exact ⟨(congrArg (fun v : State => v.mem.tiles) rest :), (congrArg (fun v : State => v.mem.pages) rest :), (congrArg State.flash rest :),
      (congrArg State.pending rest :)⟩

/-- R366: the registers of a completed snapshot. -/
def snapshotRegs : List Nat := [P.snapshotTaken, P.snapshotAc, P.snapshotTimeState, P.snapshotCount, P.snapshotStatus]

/-- R366: a state with the registers of a completed snapshot; `n` counts it. -/
def snapshotStored (s : State) (t0 ac st n status : Nat) : State :=
  ((((s.setVal P.snapshotTaken t0).setVal P.snapshotAc ac).setVal P.snapshotTimeState st).setVal P.snapshotCount n).setVal P.snapshotStatus status

theorem snapshotStored_reads (s : State) (t0 ac st n status : Nat) :
    let t := snapshotStored s t0 ac st n status
    t.val P.snapshotTaken = t0 ∧ t.val P.snapshotAc = ac ∧ t.val P.snapshotTimeState = st ∧ t.val P.snapshotCount = n
      ∧ t.val P.snapshotStatus = status := by
  unfold snapshotStored
  refine ⟨?_, ?_, ?_, ?_, State.val_setVal_same ..⟩
  · rw [val_setVal_ne _ (by decide), val_setVal_ne _ (by decide), val_setVal_ne _ (by decide), val_setVal_ne _ (by decide), State.val_setVal_same]
  · rw [val_setVal_ne _ (by decide), val_setVal_ne _ (by decide), val_setVal_ne _ (by decide), State.val_setVal_same]
  · rw [val_setVal_ne _ (by decide), val_setVal_ne _ (by decide), State.val_setVal_same]
  · rw [val_setVal_ne _ (by decide), State.val_setVal_same]

theorem snapshotStored_only (s : State) (t0 ac st n status : Nat) : WritesOnly snapshotRegs s (snapshotStored s t0 ac st n status) :=
  let put : ∀ p ∈ snapshotRegs, ∀ (v : State) x, WritesOnly snapshotRegs v (v.setVal p x) := fun _ h v x => .setReg h (by decide) v x
  (put _ (by decide) s t0).trans ((put _ (by decide) _ ac).trans ((put _ (by decide) _ st).trans ((put _ (by decide) _ n).trans
    (put _ (by decide) _ status))))

/-- R366: a snapshot that completes, with the log switched to it. -/
def snapshotShown (s : State) (m : Sparse Nat) : State := { s with log := { s.log with copying := none, shadow := some m } }

theorem snapshotCompleteStep_eq {s : State} {t0 ac st : Nat} {m : Sparse Nat} (copying : s.log.copying = some (t0, ac, st, m)) :
    ∃ status, snapshotCompleteStep s = snapshotStored (snapshotShown s m) t0 ac st (inc64 (s.reg P.snapshotCount 0)) status ∧ bits status 0 2 = 0 := by
  have count : (((snapshotShown s m).setVal P.snapshotTaken t0).setVal P.snapshotAc ac |>.setVal P.snapshotTimeState st).val P.snapshotCount
      = s.val P.snapshotCount := by
    rw [val_setVal_ne _ (by decide), val_setVal_ne _ (by decide), val_setVal_ne _ (by decide)]
    rfl
  have run : snapshotCompleteStep s = ((((snapshotShown s m).setVal P.snapshotTaken t0).setVal P.snapshotAc ac).setVal P.snapshotTimeState st
      |>.bump64 P.snapshotCount 0 1).snapState 0 := by
    unfold snapshotCompleteStep
    simp only [copying]
    rfl
  have counted : (((snapshotShown s m).setVal P.snapshotTaken t0).setVal P.snapshotAc ac |>.setVal P.snapshotTimeState st).bump64 P.snapshotCount 0 1
      = (((snapshotShown s m).setVal P.snapshotTaken t0).setVal P.snapshotAc ac |>.setVal P.snapshotTimeState st).setVal P.snapshotCount
        (inc64 (s.reg P.snapshotCount 0)) := congrArg (fun x => State.setVal _ P.snapshotCount (inc64 x)) count
  rw [run, counted]
  exact ⟨_, rfl, bits_setBits_same ..⟩

end Sys2Proof.EventsOutLaws

/-! PROOF. Events leave and snapshots are taken as their registers say (R364 to R366, R371 to R373). -/

namespace Sys2Proof.EventsOutLaws

open Sys2Proof.Machine Sys2Proof.Claims Sys2Proof.StoreTileLaws Sys2Proof.RecordLaws Sys2Proof.DirLaws Sys2Proof.WorkLaws

variable {s : State} {who : Requester}

/-- R371: the ring is turned off. -/
theorem ring_off (can : Canonical s) (boot : s.boot ≤ 4) (head : Nat) (granted : Granted s who (writeRec P.eventRingEnable 0 [0])) :
    let t := s.single who (some head) (writeRec P.eventRingEnable 0 [0])
    Replied t who (writeRec P.eventRingEnable 0 [0]) 0 ∧ t.val P.eventRingEnable = 0 ∧ SameStores s t
      ∧ OnlyRegs [P.eventRingEnable, P.requests] s t ∧ t.log = s.log ∧ t.clock = s.clock := by
  obtain ⟨a, good, responds⟩ := ring_responds granted boot (v := 0) (by decide) head (ok := true) rfl
  have stored : WritesOnly [P.eventRingEnable, P.requests] s (s.setVal P.eventRingEnable 0) := .setReg (by decide) (by decide) s 0
  have counted : answerRegs a = [P.requests] := by simp [answerRegs, good]
  have off : (s.setVal P.eventRingEnable 0).val P.eventRingEnable = 0 := State.val_setVal_same ..
  obtain ⟨log, clock, stores, _⟩ := fields_of_responds responds
  refine ⟨replied_of_responds responds good, (val_of_responds responds (stored.wf can.1) (by decide) (by decide)).trans off, stores, ?_, log, clock⟩
  exact (stored.trans (WritesOnly.mono (by rw [counted]; decide) responds.only)).regs can.1

/-- R371: the ring is turned on from its first record. -/
theorem ring_on (can : Canonical s) (boot : s.boot ≤ 4) (head : Nat) (granted : Granted s who (writeRec P.eventRingEnable 0 [1]))
    (good : s.checkRing head = 0) :
    let t := s.single who (some head) (writeRec P.eventRingEnable 0 [1])
    Replied t who (writeRec P.eventRingEnable 0 [1]) 0 ∧ t.val P.eventRingEnable = 1 ∧ t.val P.eventRingStatus = 0 ∧ t.log.ringTail = 0
      ∧ t.log.ringPhase = 1 ∧ t.log.ringNext = s.val P.eventRingFrom ∧ t.log.events = s.log.events ∧ SameStores s t ∧ t.clock = s.clock := by
  obtain ⟨a, status, responds⟩ := ring_responds granted boot (v := 1) (by decide) head (enableRing_good good)
  have wf : Sparse.wf paramDefault (ringStarted s head).params = true := Sparse.wf_put _ _ (Sparse.wf_put _ _ can.1)
  have on : (ringStarted s head).val P.eventRingEnable = 1 := State.val_setVal_same ..
  have passed : (ringStarted s head).val P.eventRingStatus = 0 :=
    (val_setVal_ne _ (by decide) 1).trans ((State.reg_congr rfl ..).trans (State.val_setVal_same s P.eventRingStatus 0))
  obtain ⟨log, clock, stores, _⟩ := fields_of_responds responds
  refine ⟨replied_of_responds responds status, (val_of_responds responds wf (by decide) (by decide)).trans on,
    (val_of_responds responds wf (by decide) (by decide)).trans passed, ?_, ?_, ?_, ?_, stores, clock⟩
  · exact (congrArg Log.ringTail log).trans rfl
  · exact (congrArg Log.ringPhase log).trans rfl
  · exact (congrArg Log.ringNext log).trans rfl
  · exact (congrArg Log.events log).trans rfl

/-- R371: a ring that its check refuses stays as it was. -/
theorem ring_refused (can : Canonical s) (boot : s.boot ≤ 4) (head : Nat) (granted : Granted s who (writeRec P.eventRingEnable 0 [1]))
    (bad : s.checkRing head ≠ 0) :
    let t := s.single who (some head) (writeRec P.eventRingEnable 0 [1])
    Replied t who (writeRec P.eventRingEnable 0 [1]) 5 ∧ t.val P.eventRingEnable = s.val P.eventRingEnable
      ∧ t.val P.eventRingStatus = s.checkRing head ∧ t.log = s.log ∧ SameStores s t ∧ t.clock = s.clock := by
  obtain ⟨a, status, responds⟩ := ring_responds granted boot (v := 1) (by decide) head (enableRing_bad bad)
  have wf : Sparse.wf paramDefault (s.setVal P.eventRingStatus (s.checkRing head)).params = true := Sparse.wf_put _ _ can.1
  obtain ⟨log, clock, stores, _⟩ := fields_of_responds responds
  exact ⟨replied_of_responds responds status,
    (val_of_responds responds wf (by decide) (by decide)).trans (val_setVal_ne s (by decide) _),
    (val_of_responds responds wf (by decide) (by decide)).trans (State.val_setVal_same ..), log, stores, clock⟩

/-- R371, R372: the next record goes to the ring, with its vector. -/
theorem ring_delivers {head : Nat} {e : Event} (on : s.val P.eventRingEnable = 1) (up : s.hostUp = true)
    (room : (s.log.ringTail + 1) % 2 ^ s.val P.eventRingSize ≠ head)
    (next : (s.log.events.reverse.find? fun e => decide (s.log.ringNext ≤ e.seq)) = some e) :
    let t := ringDeliverStep s head
    .hostWrite 0 (s.val P.eventRingBase + 64 * s.log.ringTail) (ringSlot e s.log.ringPhase) false ∈ t.out
      ∧ t.log.ringTail = (s.log.ringTail + 1) % 2 ^ s.val P.eventRingSize ∧ t.log.ringNext = e.seq + 1
      ∧ t.log.events = s.log.events ∧ t.params = s.params ∧ SameStores s t ∧ t.clock = s.clock ∧ t.seq = s.seq
      ∧ (s.val P.eventRingVector ≠ 0xFF →
          let v := s.val P.eventRingVector
          let f := s.hostFn 0
          ((∃ u ∈ f.cfg.unmasked, u.val = v) ∧ f.cfg.msix = true → t.out.head? = some (.msix 0 v))
          ∧ ((∀ u ∈ f.cfg.unmasked, u.val ≠ v) ∨ f.cfg.msix = false → v ∈ (t.hostFn 0).irq)) := by
  intro t
  have run : t = _ := ringDeliverStep_eq on up room next
  clear_value t
  by_cases quiet : s.val P.eventRingVector = 0xFF
  · rw [if_pos quiet] at run
    rw [run]
    exact ⟨List.mem_cons_self .., rfl, rfl, rfl, rfl, ⟨rfl, rfl, rfl, rfl⟩, rfl, rfl, fun h => absurd quiet h⟩
  · rw [if_neg quiet] at run
    obtain ⟨rest, ⟨es, out⟩, sent, waits⟩ := sendMsix_reads (ringPut s head e) 0 (s.val P.eventRingVector)
    rw [← run] at rest out sent waits
    refine ⟨?_, (congrArg (fun v : State => v.log.ringTail) rest :), (congrArg (fun v : State => v.log.ringNext) rest :),
      (congrArg (fun v : State => v.log.events) rest :), (congrArg State.params rest :), ?_, (congrArg State.clock rest :),
      (congrArg State.seq rest :), fun _ => ⟨sent, waits⟩⟩
    · rw [out]
      exact List.mem_append_right _ (List.mem_cons_self ..)
    · exact ⟨(congrArg (fun v : State => v.mem.tiles) rest :), (congrArg (fun v : State => v.mem.pages) rest :),
        (congrArg State.flash rest :), (congrArg State.pending rest :)⟩

/-- R373: one datagram leaves, or is lost beyond the rate. -/
theorem sink_sends (due : nextDatagram s.log.sinkQueue ≠ []) (address : s.val P.eventSinkAddress ≠ 0) (link : s.val P.mgmtLink = 1) :
    let rs := nextDatagram s.log.sinkQueue
    let sent := if s.log.sinkSec = s.clock.now / 9000000000 then s.log.sinkSent else 0
    let t := sinkSendStep s
    t.log.sinkQueue = s.log.sinkQueue.drop rs.length ∧ SameStores s t ∧ t.clock = s.clock ∧ t.seq = s.seq
      ∧ (sent < 2000 → t.params = s.params ∧ t.out.head? = some (.udp s.mgmtLinkOut (udpPacket s.mgmtSource
          (s.addrOf P.eventSinkAddress) none (s.val P.mgmtUdpPort) (s.val P.eventSinkPort) (mgmtPacket (sinkPayload rs)))))
      ∧ (2000 ≤ sent → t.out = s.out ∧ t.reg P.eventsLost 1 = min (s.reg P.eventsLost 1 + rs.length) (2 ^ 64 - 1)) := by
  have open' : ¬ (nextDatagram s.log.sinkQueue = [] ∨ s.val P.eventSinkAddress = 0 ∨ ¬ s.carrierUp .mgmt = true) := by
    simp [due, address, State.carrierUp, link]
  intro rs sent t
  by_cases full : 2000 ≤ sent
  · have run : t = ({ s with log := { s.log with sinkQueue := s.log.sinkQueue.drop rs.length } } : State).bump64 P.eventsLost 1 rs.length :=
      (if_neg open').trans (if_pos full)
    rw [run]
    exact ⟨rfl, ⟨rfl, rfl, rfl, rfl⟩, rfl, rfl, fun h => absurd full (Nat.not_le.2 h), fun _ => ⟨rfl, reg_bump64_same ..⟩⟩
  · have run : t = ({ s with log := { s.log with
        sinkQueue := s.log.sinkQueue.drop rs.length, sinkSec := s.clock.now / secRoot, sinkSent := sent + 1 } } : State).mgmtDatagram s.mgmtSource
        (s.val P.mgmtUdpPort) (s.addrOf P.eventSinkAddress) (s.val P.eventSinkPort) (sinkPayload rs) :=
      (if_neg open').trans (if_neg full)
    rw [run]
    exact ⟨rfl, ⟨rfl, rfl, rfl, rfl⟩, rfl, rfl, fun _ => ⟨rfl, rfl⟩, fun h => absurd h full⟩

/-! Snapshots. -/

theorem recordHead_none {p : Nat} (small : p < 0xF00000) (h : p ≠ P.eventRingEnable) (data : List Byte) :
    s.recordHead none (writeRec p 0 data) = (0, s) := by
  unfold State.recordHead
  simp [recParam_writeRec small, h]

theorem leNat_word (v : W64) : leNat (leBytes 8 v.toNat) = v.toNat := by
  rw [leNat_leBytes]
  exact Nat.mod_eq_of_lt v.isLt

/-- R364: the registers of a snapshot that is armed. -/
theorem armed_reads (s : State) {p : Nat} (hp : p ≠ P.snapshotStatus) (hv : p ≠ P.requests) (hr : p ≠ P.rejected) {v status : Nat} {log : Log}
    {u t : State} (hu : u = ({ s.setVal p v with log := log } : State).setVal P.snapshotStatus status) (can : Canonical s) {a : Answer} {out : List Byte}
    (responds : Responds u t who false out (answerRegs a)) :
    t.val p = v ∧ t.log = log ∧ t.val P.snapshotStatus = status ∧ SameStores s t ∧ t.clock = s.clock := by
  have wf : Sparse.wf paramDefault u.params = true := hu ▸ Sparse.wf_put _ _ (Sparse.wf_put _ _ can.1)
  have kept : u.val p = v := by
    rw [hu, val_setVal_ne _ hp]
    exact (State.reg_congr rfl ..).trans (State.val_setVal_same s p v)
  have stated : u.val P.snapshotStatus = status := hu ▸ State.val_setVal_same ..
  obtain ⟨logged, clock, stores, _⟩ := fields_of_responds responds
  subst hu
  exact ⟨(val_of_responds responds wf hv hr).trans kept, logged, (val_of_responds responds wf (by decide) (by decide)).trans stated, stores, clock⟩

theorem rejected_reads (can : Canonical s) {p : Nat} (hp : p ≠ P.snapshotStatus) (hv : p ≠ P.requests) (hr : p ≠ P.rejected) {t : State} {a : Answer}
    {out : List Byte} (responds : Responds s.rejectSnapshot t who false out (answerRegs a)) :
    bits (t.val P.snapshotStatus) 8 8 = 2 ∧ t.val p = s.val p ∧ t.log = s.log := by
  have wf : Sparse.wf paramDefault s.rejectSnapshot.params = true := Sparse.wf_put _ _ can.1
  have stated : s.rejectSnapshot.val P.snapshotStatus = setBits (s.val P.snapshotStatus) 8 8 2 := State.val_setVal_same ..
  have kept : s.rejectSnapshot.val p = s.val p := val_setVal_ne s hp _
  refine ⟨?_, (val_of_responds responds wf hv hr).trans kept, (congrArg State.log responds.rest :)⟩
  rw [val_of_responds responds wf (by decide) (by decide), stated]
  exact bits_setBits_same ..

/-- R364: SnapshotTime arms its time, or one 20 µs ahead where it is sooner than that. -/
theorem snapshotTime_arms (can : Canonical s) (boot : s.boot ≤ 4) (v : W64) (granted : Granted s who (writeRec P.snapshotTime 0 (leBytes 8 v.toNat)))
    (idle : s.log.copying = none) :
    let t := s.single who none (writeRec P.snapshotTime 0 (leBytes 8 v.toNat))
    Replied t who (writeRec P.snapshotTime 0 (leBytes 8 v.toNat)) 0 ∧ t.val P.snapshotTime = v.toNat
      ∧ t.log.snapAt = some (if v.toNat < s.panelTime + 20000 then s.clock.now + 180000 else v.toNat)
      ∧ t.val P.snapshotStatus = (if v.toNat < s.panelTime + 20000 then 0x101 else 1) ∧ SameStores s t ∧ t.clock = s.clock := by
  have written : s.writeRw P.snapshotTime 0 0 (leBytes 8 v.toNat) = ({ status := 0 }, s.armTime v.toNat) := by
    rw [writeRw_snapshotTime, idle, leNat_word]
    rfl
  have responds := responds_rw granted boot (by rw [length_leBytes]; decide +kernel) (by decide) (by decide) none
    (recordHead_none (by decide) (by decide) _) written rfl
  obtain ⟨stored, log, status, stores, clock⟩ := armed_reads s (p := P.snapshotTime) (by decide) (by decide) (by decide) rfl can responds
  have late : ∀ x, x = decide (v.toNat < (s.setVal P.snapshotTime v.toNat).panelTime + 20000) →
      (if x then s.clock.now + 180000 else v.toNat) = (if v.toNat < s.panelTime + 20000 then s.clock.now + 180000 else v.toNat)
        ∧ 1 + 2 ^ 8 * b2n x = (if v.toNat < s.panelTime + 20000 then 0x101 else 1) := fun x hx => by
    have same : (s.setVal P.snapshotTime v.toNat).panelTime = s.panelTime := rfl
    rw [same] at hx
    subst hx
    by_cases soon : v.toNat < s.panelTime + 20000 <;> simp [soon, b2n]
  obtain ⟨at', told⟩ := late _ rfl
  exact ⟨replied_of_responds responds rfl, stored, (congrArg Log.snapAt log).trans (congrArg some at'), status.trans told, stores, clock⟩

/-- R364: SnapshotStep arms a step's open, or nothing. -/
theorem snapshotStep_arms (can : Canonical s) (boot : s.boot ≤ 4) (v : W64) (granted : Granted s who (writeRec P.snapshotStep 0 (leBytes 8 v.toNat)))
    (idle : s.log.copying = none) :
    let t := s.single who none (writeRec P.snapshotStep 0 (leBytes 8 v.toNat))
    Replied t who (writeRec P.snapshotStep 0 (leBytes 8 v.toNat)) 0 ∧ t.val P.snapshotStep = v.toNat ∧ t.log.snapAt = none
      ∧ t.val P.snapshotStatus = (if v.toNat = 2 ^ 64 - 1 then 0 else 1) ∧ SameStores s t ∧ t.clock = s.clock := by
  have written : s.writeRw P.snapshotStep 0 0 (leBytes 8 v.toNat) = ({ status := 0 }, s.armStep v.toNat) := by
    rw [writeRw_snapshotStep, idle, leNat_word]
    rfl
  have responds := responds_rw granted boot (by rw [length_leBytes]; decide +kernel) (by decide) (by decide) none
    (recordHead_none (by decide) (by decide) _) written rfl
  obtain ⟨stored, log, status, stores, clock⟩ := armed_reads s (p := P.snapshotStep) (by decide) (by decide) (by decide) rfl can responds
  exact ⟨replied_of_responds responds rfl, stored, congrArg Log.snapAt log, status, stores, clock⟩

/-- R364: a snapshot write is rejected while a snapshot is copying. -/
theorem snapshot_rejects (can : Canonical s) (boot : s.boot ≤ 4) {p : Nat} (which : p = P.snapshotTime ∨ p = P.snapshotStep) {data : List Byte}
    (long : data.length = 8) (granted : Granted s who (writeRec p 0 data)) (busy : s.log.copying.isSome = true) :
    let t := s.single who none (writeRec p 0 data)
    Replied t who (writeRec p 0 data) 5 ∧ bits (t.val P.snapshotStatus) 8 8 = 2 ∧ t.val p = s.val p ∧ t.log = s.log := by
  have written : s.writeRw p 0 0 data = ({ status := 0x05, detail := s.rejectSnapshot.valueDetail p }, s.rejectSnapshot) := by
    rcases which with rfl | rfl
    · rw [writeRw_snapshotTime, busy]
      rfl
    · rw [writeRw_snapshotStep, busy]
      rfl
  have takes : takesWhole p .rw data.length = true := by
    rw [long]
    rcases which with rfl | rfl <;> decide +kernel
  have apart : p < 0xF00000 ∧ p ≠ P.transportRights ∧ p ≠ P.eventRingEnable ∧ p ≠ P.snapshotStatus ∧ p ≠ P.requests ∧ p ≠ P.rejected := by
    rcases which with rfl | rfl <;> decide
  obtain ⟨small, own, ring, status, requests, refused⟩ := apart
  have responds := responds_rw granted boot takes small own none (recordHead_none small ring _) written rfl
  obtain ⟨stated, kept, log⟩ := rejected_reads can status requests refused responds
  exact ⟨replied_of_responds responds rfl, stated, kept, log⟩

end Sys2Proof.EventsOutLaws

namespace Sys2Proof.Claims

open Sys2Proof.Machine Sys2Proof.EventsOutLaws

/-- Settles O54: the ring by its enable and its delivery, the sink by its rate, the snapshots by their arming, instant and end. -/
theorem eventsLeaveAndSnapshotsAreTaken : Obligations.EventsLeaveAndSnapshotsAreTaken := by
  unfold Obligations.EventsLeaveAndSnapshotsAreTaken
  intro s can
  refine ⟨fun who head boot => ⟨fun granted => ⟨_, rfl, ring_off can boot _ granted⟩, fun granted good => ⟨_, rfl, ring_on can boot _ granted good⟩,
      fun granted bad => ⟨_, rfl, ring_refused can boot _ granted bad⟩⟩,
    fun head e on up room next => ⟨_, rfl, ring_delivers on up room next⟩, fun due address link => ⟨_, rfl, sink_sends due address link⟩,
    fun who v boot timed stepped => ⟨fun idle => ⟨⟨_, rfl, snapshotTime_arms can boot v timed idle⟩, ⟨_, rfl, snapshotStep_arms can boot v stepped idle⟩⟩,
      fun busy => ⟨⟨_, rfl, snapshot_rejects can boot (.inl rfl) (DirLaws.length_leBytes ..) timed busy⟩,
        ⟨_, rfl, snapshot_rejects can boot (.inr rfl) (DirLaws.length_leBytes ..) stepped busy⟩⟩⟩, fun armed => ?_, fun t0 ac st m copying => ?_⟩
  · obtain ⟨at', found⟩ := Option.isSome_iff_exists.1 armed
    have run : snapshotInstantStep s
        = (s.reach (if s.log.snapOut = 1 then ceilDiv at' sclkRoot * sclkRoot else s.timeReaches at')).takeSnapshot := by
      unfold snapshotInstantStep
      simp only [found]
    generalize (if s.log.snapOut = 1 then ceilDiv at' sclkRoot * sclkRoot else s.timeReaches at') = instant at run
    obtain ⟨copying, gone, state, clock, stores, shadow⟩ := takeSnapshot_reads (s := s.reach instant) can
    have later : s.clock.now ≤ (s.reach instant).takeSnapshot.clock.now := by
      rw [clock]
      exact le_max_left ..
    exact ⟨_, congrArg Host.Outcome.next run, copying, gone, state, later, stores, shadow⟩
  · obtain ⟨status, run, told⟩ := snapshotCompleteStep_eq copying
    obtain ⟨taken, at', state, count, stated⟩ := snapshotStored_reads (snapshotShown s m) t0 ac st (inc64 (s.reg P.snapshotCount 0)) status
    exact ⟨_, congrArg Host.Outcome.next run, rfl, rfl, taken, at', state, count, (congrArg (bits · 0 2) stated).trans told,
      (snapshotStored_only (snapshotShown s m) t0 ac st _ status).regs can.1, ⟨rfl, rfl, rfl, rfl⟩, rfl, rfl⟩

end Sys2Proof.Claims

/-! PROOF. The firmware writes (R387, R388, R396, R398). -/

namespace Sys2Proof.DirLaws

open Sys2Proof.Machine

/-- A byte string of `k` elements is cut into its elements. -/
theorem chunks_eq {α : Type} {n : Nat} (hn : 0 < n) : ∀ (k fuel : Nat) (xs : List α), xs.length = n * k → k ≤ fuel →
    chunks n fuel xs = (List.range k).map fun i => (xs.drop (n * i)).take n
  | 0, fuel, xs, long, _ => by
    have none : xs = [] := List.eq_nil_of_length_eq_zero long
    subst none
    cases fuel <;> rfl
  | k + 1, fuel, xs, long, enough => by
    obtain ⟨m, rfl⟩ : ∃ m, fuel = m + 1 := ⟨fuel - 1, by omega⟩
    have full : xs.isEmpty = false := by
      rw [List.isEmpty_eq_false_iff]
      rintro rfl
      have : 0 < n * (k + 1) := Nat.mul_pos hn (by omega)
      simp at long
      omega
    have rest : (xs.drop n).length = n * k := by
      rw [List.length_drop, long, Nat.mul_succ]
      omega
    have pieces := chunks_eq hn k m (xs.drop n) rest (by omega)
    rw [chunks, full, pieces, List.range_succ_eq_map, List.map_cons, List.map_map]
    simp only [Bool.false_eq_true, if_false, Nat.mul_zero, List.drop_zero, List.drop_drop]
    refine congrArg _ (List.map_congr_left fun i _ => ?_)
    rw [Function.comp, Nat.mul_succ, Nat.add_comm]

/-- The numbers of a byte string's elements. -/
theorem map_chunks {n : Nat} (hn : 0 < n) {k : Nat} {bytes : List Byte} (long : bytes.length = n * k) :
    (chunks n bytes.length bytes).map leNat = (List.range k).map fun i => leNat (slice bytes (n * i) n) := by
  rw [chunks_eq hn k _ _ long (by rw [long]; exact Nat.le_mul_of_pos_left k hn), List.map_map]
  rfl

end Sys2Proof.DirLaws

namespace Sys2Proof.FirmwareLaws

open Sys2Proof.Machine Sys2Proof.Claims Sys2Proof.StoreTileLaws Sys2Proof.RecordLaws Sys2Proof.DirLaws Sys2Proof.EventsOutLaws Sys2Proof.BootLaws

/-- R396: elements `e` to `e + k - 1` of FwImage staged. -/
def stageAll (s : State) (e : Nat) (f : Nat → Nat) (k : Nat) : State := (List.range k).foldl (fun s i => s.stage (e + i) (f i)) s

theorem stageAll_succ (s : State) (e : Nat) (f : Nat → Nat) (k : Nat) :
    stageAll s e f (k + 1) = (stageAll s e f k).stage (e + k) (f k) := by
  simp [stageAll, List.range_succ]

theorem fwState_fwDone (s : State) {code st : Nat} (hc : code < 2 ^ 8) (hst : st < 2 ^ 8) : (s.fwDone code st).fwState = st := by
  have stated : (s.fwDone code st).val P.fwStatus = code + 2 ^ 8 * st := State.val_setVal_same ..
  unfold State.fwState
  rw [stated]
  simp only [bits]
  omega

theorem confirms_stage (s : State) (e v : Nat) : Confirms s (s.stage e v) := by
  have put : Confirms s { s with fw := { s.fw with staged := Sparse.put zeros s.fw.staged e v, stagedAny := true } } := ⟨rfl, .of_params _ rfl⟩
  have done : Confirms { s with fw := { s.fw with staged := Sparse.put zeros s.fw.staged e v, stagedAny := true } } (s.stage e v) :=
    confirms_fwDone _ _ 0
  exact ⟨rfl, put.only.trans done.only⟩

/-- R396: what staging leaves. -/
theorem stageAll_reads (s : State) (e : Nat) (f : Nat → Nat) (k : Nat) :
    let t := stageAll s e f k
    Confirms s t ∧ t.nor = s.nor ∧ (∀ i < k, Sparse.get zeros t.fw.staged (e + i) = f i) ∧ (0 < k → t.fw.stagedAny = true ∧ t.fwState = 0) := by
  induction k with
  | zero => exact ⟨⟨rfl, .of_params _ rfl⟩, rfl, fun i h => absurd h (Nat.not_lt_zero i), fun h => absurd h (lt_irrefl 0)⟩
  | succ k ih =>
    obtain ⟨confirms, nor, staged, _⟩ := ih
    have step := confirms_stage (stageAll s e f k) (e + k) (f k)
    rw [stageAll_succ]
    refine ⟨⟨?_, confirms.only.trans step.only⟩, nor, fun i hi => ?_, fun _ => ⟨rfl, fwState_fwDone _ (Nat.mod_lt _ (by decide)) (by decide)⟩⟩
    · rw [step.rest, confirms.rest]
    · by_cases last : i = k
      · subst last
        exact Sparse.get_put_same ..
      · exact (Sparse.get_put_ne _ _ (by omega)).trans (staged i (by omega))

/-- R396: a write of the image stages its elements. -/
theorem writeWo_fwImage {s : State} (idle : s.fwState ≠ 2) (off : Nat) {data : List Byte} {k : Nat} (long : data.length = 4096 * k) :
    s.writeWo P.fwImage off data = (0, stageAll s (off / 4096) (fun i => leNat (slice data (4096 * i) 4096)) k) := by
  have pairs : (List.range ((chunks 4096 data.length data).map leNat).length).zip ((chunks 4096 data.length data).map leNat)
      = (List.range k).map fun i => (i, leNat (slice data (4096 * i) 4096)) := by
    rw [map_chunks (n := 4096) (by decide) long, List.length_map, List.length_range, List.map_prod_left_eq_zip]
  have run : s.writeWo P.fwImage off data = (0, ((List.range ((chunks 4096 data.length data).map leNat).length).zip
      ((chunks 4096 data.length data).map leNat)).foldl (fun s (i, x) => s.stage (off / 4096 + i) x) s) := if_neg idle
  rw [run, pairs, List.foldl_map]
  rfl

/-- R396: a write of FwCommand runs the command. -/
theorem writeWo_fwCommand (s : State) {n : Nat} (small : n < 256) :
    s.writeWo P.fwCommand 0 (leBytes 1 n) = (if (s.fwCommand n).1 then 0x05 else 0, (s.fwCommand n).2) := by
  have number : leNat (leBytes 1 n) = n := by
    rw [leNat_leBytes]
    exact Nat.mod_eq_of_lt small
  have run : s.writeWo P.fwCommand 0 (leBytes 1 n)
      = (if (s.fwCommand (leNat (leBytes 1 n))).1 then 0x05 else 0, (s.fwCommand (leNat (leBytes 1 n))).2) := rfl
  rw [run, number]

/-- What a firmware write leaves of the rest (R396). -/
def FwFrame (s t : State) : Prop :=
  OnlyRegs [P.fwStatus, P.requests, P.rejected] s t ∧ SameStores s t ∧ t.clock = s.clock ∧ t.seq = s.seq ∧ t.boot = s.boot

/-- The firmware fields that a response leaves as the record did, and the frame. -/
theorem answered_reads {s u t : State} (can : Canonical s) (h : Confirms s u) {who : Requester} {out : List Byte} {a : Answer}
    (responds : Responds u t who false out (answerRegs a)) :
    FwFrame s t ∧ t.fw = u.fw ∧ t.nor = u.nor ∧ t.val P.fwStatus = u.val P.fwStatus := by
  have regs : answerRegs a ⊆ [P.fwStatus, P.requests, P.rejected] := by
    unfold answerRegs
    split <;> simp
  have only : OnlyRegs [P.fwStatus, P.requests, P.rejected] s t :=
    ((WritesOnly.mono (by simp) h.only).trans (WritesOnly.mono regs responds.only)).regs can.1
  obtain ⟨_, clock, ⟨tiles, pages, flash, pending⟩, seq, _⟩ := fields_of_responds responds
  have rest := h.rest
  refine ⟨⟨only, ⟨?_, ?_, ?_, ?_⟩, ?_, ?_, only _ _ (by decide) (by decide)⟩, (congrArg State.fw responds.rest :), (congrArg State.nor responds.rest :),
    val_of_responds responds (h.only.wf can.1) (by decide) (by decide)⟩
  · exact tiles.trans (congrArg (fun v : State => v.mem.tiles) rest :)
  · exact pages.trans (congrArg (fun v : State => v.mem.pages) rest :)
  · exact flash.trans (congrArg State.flash rest :)
  · exact pending.trans (congrArg State.pending rest :)
  · exact clock.trans (congrArg State.clock rest :)
  · exact seq.trans (congrArg State.seq rest :)

/-- R331: what a granted write of a WO parameter leaves. -/
theorem responds_wo {s : State} {who : Requester} {p off : Nat} {data : List Byte} {row : ParamRow} (w : Passes s who p off data row)
    (access : row.access = .wo) (h : p ≠ P.eventRingEnable) {st : Nat} {u : State} (run : s.writeWo p off data = (st, u)) :
    ∃ a : Answer, a.status = st ∧ Responds u (s.single who none (writeRec p off data)) who false (reply a (writeRec p off data)) (answerRegs a) := by
  have responds := responds_single w.granted.1 none
  rw [w.answerOf_wo access h, run] at responds
  exact ⟨_, rfl, responds⟩

variable {s : State} {who : Requester}

/-- R396: a firmware command that is taken. -/
theorem command_reads (can : Canonical s) {n : Nat} (small : n < 256) (granted : Granted s who (writeRec P.fwCommand 0 (leBytes 1 n))) {u : State}
    (run : s.fwCommand n = (false, u)) (h : Confirms s u) :
    let t := s.single who none (writeRec P.fwCommand 0 (leBytes 1 n))
    (Replied t who (writeRec P.fwCommand 0 (leBytes 1 n)) 0 ∧ FwFrame s t) ∧ t.fw = u.fw ∧ t.nor = u.nor ∧ t.val P.fwStatus = u.val P.fwStatus := by
  obtain ⟨row, access, passes⟩ := passes_whole (a := .wo) granted (by rw [length_leBytes]; decide +kernel) (by decide) (by decide) fun row known => by
    have index : row.index = P.fwCommand / 256 := by
      have found := List.find?_some known
      simp only [Bool.and_eq_true, beq_iff_eq] at found
      exact found.1.1
    exact Bool.or_eq_true_iff.2 (.inr (beq_iff_eq.2 index))
  have written := writeWo_fwCommand s small
  rw [run] at written
  obtain ⟨a, status, responds⟩ := responds_wo passes access (by decide) written
  obtain ⟨frame, rest⟩ := answered_reads can h responds
  exact ⟨⟨replied_of_responds responds status, frame⟩, rest⟩

/-- R387, R396: the image written. -/
theorem image_reads (can : Canonical s) (idle : s.fwState ≠ 2) (off : W32) {data : List Byte}
    (granted : Granted s who (writeRec P.fwImage off.toNat data)) (some' : data ≠ []) (aligned : off.toNat % 4096 = 0)
    (whole : data.length % 4096 = 0) (fits : off.toNat + data.length ≤ 4096 * 6144) :
    let t := s.single who none (writeRec P.fwImage off.toNat data)
    Replied t who (writeRec P.fwImage off.toNat data) 0 ∧ FwFrame s t
      ∧ (∀ i, i < data.length / 4096 → Sparse.get zeros t.fw.staged (off.toNat / 4096 + i) = leNat (slice data (4096 * i) 4096))
      ∧ t.fw.stagedAny = true ∧ t.fwState = 0 ∧ t.nor = s.nor := by
  have long : data.length = 4096 * (data.length / 4096) := by omega
  have length : data.length ≠ 0 := fun h => some' (List.eq_nil_of_length_eq_zero h)
  obtain ⟨row, known, shape⟩ : ∃ row, rowOf P.fwImage = some row ∧ row.access = .wo ∧ row.ty = .table ∧ row.bytes = 4096 ∧ row.count = 6144
      ∧ row.late = false ∧ row.index = 0x8010 :=
    ⟨⟨0x8010, 1, 1, .table, .wo, 4096, 6144, false, some 0⟩, by decide +kernel, rfl, rfl, rfl, rfl, rfl, rfl⟩
  obtain ⟨access, ty, bytes, count, early, index⟩ := shape
  have passes : Passes s who P.fwImage off.toNat data row :=
    { granted := granted, small := by decide, placed := off.isLt, known := known, there := by simp [State.objectThere, index]
      mine := fun h => absurd h (by decide), loaded := by simp [State.loaded, early]
      span := by simp [spanOk, ty, bytes, count, length, aligned, whole, fits], number := fun h => absurd (ty.symm.trans h) (by decide) }
  obtain ⟨a, status, responds⟩ := responds_wo passes access (by decide) (writeWo_fwImage idle off.toNat long)
  obtain ⟨confirms, nor, staged, done⟩ := stageAll_reads s (off.toNat / 4096) (fun i => leNat (slice data (4096 * i) 4096)) (data.length / 4096)
  obtain ⟨any, state⟩ := done (by omega)
  obtain ⟨frame, fw, kept, stated⟩ := answered_reads can confirms responds
  refine ⟨replied_of_responds responds status, frame, fun i hi => ?_, ?_, ?_, kept.trans nor⟩
  · rw [fw]
    exact staged i hi
  · rw [fw]
    exact any
  · unfold State.fwState
    rw [stated]
    exact state

/-- R388: a boot state write that keeps the floors. -/
theorem serviceWrite_up {s : State} {r x : BootRec} (found : s.bootRec = some x) (svn : x.svnFloor ≤ r.svnFloor) (key : x.keyFloor ≤ r.keyFloor) :
    s.serviceWrite r = { s with nor := s.nor.writeBoot r } := by
  unfold State.serviceWrite
  simp only [found]
  exact if_neg (by omega)

/-- The boot record that a confirmation leaves (R388, R397). -/
def confirmedRec (s : State) (r : BootRec) : BootRec :=
  let h := imageBytes (s.fw.image.elem s.fw.slot) 0 0xC2
  { r with preferred := s.fw.slot, trial := 0xFF, trialResult := 1
           svnFloor := max r.svnFloor (leField h 0x0C 2), keyFloor := max r.keyFloor (leField h 0xC0 2) }

theorem confirm_taken {s : State} {r : BootRec} (found : s.bootRec = some r) (trial : r.trial = s.fw.slot) (boot : s.fw.trialBoot = true) :
    s.confirm = ({ s with nor := s.nor.writeBoot (confirmedRec s r), fw := { s.fw with trialBoot := false } } : State).fwDone 0 s.fwState := by
  have runs : ¬ (r.trial ≠ s.fw.slot ∨ ¬ s.fw.trialBoot = true) := by simp [trial, boot]
  have written := serviceWrite_up (r := confirmedRec s r) found (le_max_left ..) (le_max_left ..)
  unfold State.confirm
  simp only [found, if_neg runs]
  exact congrArg (fun v : State => ({ v with fw := { s.fw with trialBoot := false } } : State).fwDone 0 s.fwState) written

theorem confirm_refused {s : State} (none : ∀ r, s.bootRec = some r → r.trial ≠ s.fw.slot ∨ s.fw.trialBoot = false) :
    s.confirm = s.fwDone 0x12 s.fwState := by
  unfold State.confirm
  extract_lets st
  split
  · rfl
  · next r found => exact if_pos ((none r found).imp_right fun h => by simp [h])

/-- Table 18-7: Verify. -/
theorem fwCommand_verify (idle : s.fwState ≠ 2) :
    let code := if s.fw.stagedAny then checkFw (Sparse.get zeros s.fw.staged) (s.val P.featureLevel) s.floors.1 s.floors.2 else 0x10
    s.fwCommand 1 = (false, s.fwDone code (if code = 0 then 1 else 0)) := by
  have runs : ¬ (s.fwState = 2 ∨ (1 = 2 ∧ s.boot = 6)) := by simp [idle]
  unfold State.fwCommand
  rw [if_neg runs]
  by_cases staged : s.fw.stagedAny = true <;> simp [staged, b2n]

/-- Table 18-7: Install. -/
theorem fwCommand_install (idle : s.fwState ≠ 2) (alive : s.boot ≠ 6) :
    s.fwCommand 2 = if (s.bootRec.map (·.trial)).getD 0xFF ≠ 0xFF then (false, s.fwDone 0x11 s.fwState)
      else if s.fwState ≠ 1 then (true, s.fwDone 0x13 s.fwState)
      else (false, ({ s with nor := s.nor.setSlot s.installSlot (.image []), fw := { s.fw with target := s.installSlot } } : State).fwDone 0x00 2) := by
  have runs : ¬ (s.fwState = 2 ∨ (2 = 2 ∧ s.boot = 6)) := by simp [idle, alive]
  unfold State.fwCommand
  rw [if_neg runs]
  rfl

/-- Table 18-7: Confirm. -/
theorem fwCommand_confirm (idle : s.fwState ≠ 2) : s.fwCommand 3 = (false, s.confirm) := by
  have runs : ¬ (s.fwState = 2 ∨ (3 = 2 ∧ s.boot = 6)) := by simp [idle]
  unfold State.fwCommand
  rw [if_neg runs]
  rfl

/-- Table 18-7: Discard. -/
theorem fwCommand_discard (idle : s.fwState ≠ 2) :
    s.fwCommand 4 = (false, ({ s with fw := { s.fw with staged := [], stagedAny := false } } : State).fwDone 0x00 0) := by
  have runs : ¬ (s.fwState = 2 ∨ (4 = 2 ∧ s.boot = 6)) := by simp [idle]
  unfold State.fwCommand
  rw [if_neg runs]
  rfl

/-- A firmware command that leaves other boot slots or records, and its status. -/
theorem confirms_done (s : State) (nor : Nor) (fw : Boot) (code st : Nat) :
    Confirms s (({ s with nor := nor, fw := fw } : State).fwDone code st) := by
  have put : Confirms s { s with nor := nor, fw := fw } := ⟨rfl, .of_params _ rfl⟩
  have done : Confirms { s with nor := nor, fw := fw } (({ s with nor := nor, fw := fw } : State).fwDone code st) := confirms_fwDone _ code st
  exact ⟨rfl, put.only.trans done.only⟩

theorem fwStatus_fwDone (s : State) (code st : Nat) : (s.fwDone code st).val P.fwStatus = code + 2 ^ 8 * st := State.val_setVal_same ..

/-- R388: where a boot record has been written. -/
theorem writtenBoot (n : Nor) (r : BootRec) :
    ((n.writeBoot r).slotA = n.slotA ∧ (n.writeBoot r).slotB = n.slotB)
      ∧ ∃ q, (n.writeBoot r).boot0 = some { r with seq := q } ∨ (n.writeBoot r).boot1 = some { r with seq := q } :=
  let ⟨slots, written⟩ := writeBoot_reads n r
  ⟨⟨slots 0, slots 1⟩, written⟩

end Sys2Proof.FirmwareLaws

namespace Sys2Proof.Claims

open Sys2Proof.Machine Sys2Proof.FirmwareLaws Sys2Proof.BootLaws

/-- Settles O52: each firmware write by the branch of Table 18-7 that its conditions name. -/
theorem firmwareWritesFollowTheirStatus : Obligations.FirmwareWritesFollowTheirStatus := by
  unfold Obligations.FirmwareWritesFollowTheirStatus
  intro s who can idle frame may command
  refine ⟨fun off data granted some' aligned whole fits _ => ⟨_, rfl, image_reads can idle off granted some' aligned whole fits⟩,
    fun granted => ?_, fun granted good alive free => ?_, fun granted alive trying => ?_, fun r granted found trial boot => ?_,
    fun granted none => ?_, fun granted => ?_⟩
  · obtain ⟨done, fw, nor, status⟩ := command_reads can (by decide) granted (fwCommand_verify idle) (confirms_fwDone s _ _)
    exact ⟨_, rfl, done, fw, nor, status.trans (fwStatus_fwDone ..)⟩
  · have run := fwCommand_install idle alive
    rw [if_neg (not_not_intro free), if_neg (not_not_intro good)] at run
    obtain ⟨done, fw, nor, status⟩ := command_reads can (by decide) granted run (confirms_done ..)
    exact ⟨_, rfl, done, status.trans (fwStatus_fwDone ..), fw, nor⟩
  · have run := fwCommand_install idle alive
    rw [if_pos trying] at run
    obtain ⟨done, fw, nor, status⟩ := command_reads can (by decide) granted run (confirms_fwDone ..)
    exact ⟨_, rfl, done, status.trans (fwStatus_fwDone ..), fw, nor⟩
  · have run := fwCommand_confirm idle
    rw [confirm_taken found trial boot] at run
    obtain ⟨done, fw, nor, status⟩ := command_reads can (by decide) granted run (confirms_done ..)
    obtain ⟨⟨slotA, slotB⟩, q, written⟩ := writtenBoot s.nor (confirmedRec s r)
    refine ⟨_, rfl, done, status.trans ((fwStatus_fwDone ..).trans (Nat.zero_add _)), fw, (congrArg Nor.slotA nor).trans slotA,
      (congrArg Nor.slotB nor).trans slotB, { confirmedRec s r with seq := q }, ?_, rfl, rfl, rfl, le_max_left .., le_max_left ..⟩
    exact written.imp (fun h => (congrArg Nor.boot0 nor).trans h) fun h => (congrArg Nor.boot1 nor).trans h
  · have run := fwCommand_confirm idle
    rw [confirm_refused none] at run
    obtain ⟨done, fw, nor, status⟩ := command_reads can (by decide) granted run (confirms_fwDone ..)
    exact ⟨_, rfl, done, status.trans (fwStatus_fwDone ..), fw, nor⟩
  · obtain ⟨done, fw, nor, status⟩ := command_reads can (by decide) granted (fwCommand_discard idle) (confirms_done s s.nor _ _ _)
    exact ⟨_, rfl, done, status.trans (fwStatus_fwDone ..), nor, fw⟩

end Sys2Proof.Claims

/-! PROOF. What writes of tiles, of the tier map and of held parameters leave alone (R159 to R187, R327). -/

namespace Sys2Proof.RestLaws

open Sys2Proof.Machine Sys2Proof.Claims Sys2Proof.RecordLaws

/-- The state but for what a write of a tile or of the tier map reaches: registers, log, memory, flash, and the next step's flag word. -/
def still (s : State) : State := { s with params := [], log := {}, mem := {}, flash := {}, seq := { s.seq with nextWord := 0 } }

/-- `t` is `s` but for what a write of a tile or of the tier map reaches. -/
def Still (s t : State) : Prop := still t = still s

namespace Still

variable {s t u : State}

theorem refl (s : State) : Still s s := rfl

theorem trans (h : Still s t) (g : Still t u) : Still s u := Eq.trans g h

theorem ite {c : Prop} [Decidable c] (h : Still s t) (g : Still s u) : Still s (if c then t else u) := by
  split <;> assumption

theorem foldl {α : Type} {f : State → α → State} (hf : ∀ v x, Still v (f v x)) (xs : List α) (s : State) : Still s (xs.foldl f s) := by
  induction xs generalizing s with
  | nil => exact refl s
  | cons x xs ih => exact (hf s x).trans (ih _)

theorem of_records {ps : List Nat} (h : Records ps s t) : Still s t := by
  unfold Still
  rw [h.rest]
  rfl

theorem raiseEvent (s : State) (cls code source d0 d1 : Nat) : Still s (s.raiseEvent cls code source d0 d1) := by
  unfold State.raiseEvent State.raiseEventOf
  extract_lets a now newest within
  split
  · rfl
  · exact trans (t := a) rfl (of_records (.storeEvent a _))

theorem condition (s : State) (w : Nat) : Still s (s.condition w) := by
  unfold State.condition
  split
  · rfl
  · split
    · extract_lets q a
      exact trans (t := a) rfl (ite rfl rfl)
    · rfl

/-! Tiles. -/

theorem unmappedAccess (s : State) (acct id : Nat) : Still s (s.unmappedAccess acct id) := by
  unfold State.unmappedAccess
  extract_lets a
  split
  · rfl
  · exact trans (t := { a with mem := { a.mem with unmapTold := acct :: a.mem.unmapTold } }) rfl (raiseEvent ..)

theorem putStored (s : State) (id : Nat) (tl : Tile) : Still s (s.putStored id tl) := by
  unfold State.putStored
  extract_lets e a
  exact trans (t := a) rfl (ite rfl rfl)

theorem storeTile (s : State) (acct id cls : Nat) (tl : Tile) : Still s (s.storeTile acct id cls tl).2 := by
  unfold State.storeTile
  split
  · exact unmappedAccess ..
  · exact trans (t := s.bump64 P.aliasWrites acct 1) rfl (raiseEvent ..)
  · exact trans (t := s.bump64 P.aliasWrites acct 1) rfl (raiseEvent ..)
  · split
    · exact putStored ..
    · extract_lets p
      exact (putStored s _ p).trans rfl

theorem countTileLayer (s : State) (id source : Nat) (tl : Tile) : Still s (s.countTileLayer id source tl) := by
  unfold State.countTileLayer
  split <;> rfl

theorem tileWrite (s : State) (w : TileWrite) : Still s (s.tileWrite w) := by
  have stored := storeTile s w.acct w.id w.cls w.tile
  unfold State.tileWrite
  generalize s.storeTile w.acct w.id w.cls w.tile = x at stored
  obtain ⟨_ | tl, a⟩ := x
  · exact stored
  · refine Still.trans stored (Still.trans (condition a (wordOf tl.flags (a.ovfEnabled w.ovf))) ?_)
    dsimp only
    split
    · exact countTileLayer ..
    · rfl

theorem startLoads (s : State) (ps : List Nat) : Still s (s.startLoads ps) := rfl

theorem write (s : State) (w : TileWrite) : Still s (s.write w) := by
  unfold State.write
  extract_lets ps a
  exact ite (tileWrite ..) rfl

theorem releaseWrites (s : State) (p : Nat) : Still s (s.releaseWrites p) := by
  unfold State.releaseWrites
  extract_lets mine ws
  exact trans (t := { s with mem := { s.mem with waiting := s.mem.waiting.filter fun w => !mine w } }) rfl (foldl (fun v w => tileWrite v w) ws _)

/-! The tier map. -/

theorem freeFrame (s : State) (tier frame width : Nat) : Still s (s.freeFrame tier frame width) := ite rfl rfl

theorem countSpill (s : State) (home : Nat) (spilled : Bool) : Still s (s.countSpill home spilled) := by
  unfold State.countSpill
  split <;> rfl

/-- The frames that a page and its migrations leave. -/
theorem freeFrames (s : State) (e : Nat) (ms : List Migration) :
    Still s (ms.foldl (fun s m => s.freeFrame m.tier m.frame (eWidth e)) (s.freeFrame (eTier e) (eFrame e) (eWidth e))) :=
  (freeFrame s _ _ _).trans (foldl (fun v (m : Migration) => freeFrame v m.tier m.frame (eWidth e)) ms _)

/-- R187: the granules that a page leaves. -/
theorem leaveFrames (s : State) (p : Nat) (frames : List (Nat × Nat)) : Still s (frames.foldl (fun s f =>
    let (done, s) := s.leaveGranules f.1 f.2
    if done then s.raiseEvent 3 0x03 (srcBase ((f.1 - hbBase) / 131072 % 8)) p 0 else s) s) := by
  refine foldl (fun v f => ?_) frames s
  have left : Still v (v.leaveGranules f.1 f.2).2 := rfl
  generalize v.leaveGranules f.1 f.2 = x at left
  exact left.trans (ite (raiseEvent ..) (refl _))

theorem unmapPage (s : State) (p : Nat) : Still s (s.unmapPage p) := by
  unfold State.unmapPage
  extract_lets e ms a m b c frames
  have freed : Still s a := freeFrames s e ms
  clear_value a
  have gone : Still a b := rfl
  clear_value b
  have dropped : Still b c := trans (t := (b.dropTiles p).putPage p (pageDefault p).toNat) rfl (releaseWrites ..)
  clear_value c
  exact ite rfl (freed.trans (gone.trans (dropped.trans (leaveFrames c p frames))))

theorem putPage (h : Still s t) (p e : Nat) : Still s (t.putPage p e) := h.trans rfl

theorem mapPage (s : State) (p soft backing : Nat) (a : Nat × Nat × Bool) : Still s (s.mapPage p soft backing a) := by
  obtain ⟨tier, frame, spilled⟩ := a
  have freed := freeFrame s tier frame (eWidth soft)
  unfold State.mapPage
  dsimp only
  generalize s.freeFrame tier frame (eWidth soft) = v at freed
  have dropped : Still v (v.dropTiles p) := rfl
  exact freed.trans ((putPage dropped p _).trans (countSpill ..))

theorem startMigration {s t : State} {p : Nat} {next : List Nat} (h : s.startMigration p next = some t) : Still s t := by
  unfold State.startMigration at h
  dsimp only at h
  split at h
  · exact nomatch h
  · obtain rfl := Option.some.inj h
    exact (countSpill s _ _).trans ((freeFrame _ _ _ _).trans rfl)

theorem freeCopies (s : State) (e : Nat) : Still s (s.freeCopies e) := by
  unfold State.freeCopies
  exact ite rfl rfl

theorem rewriteEntry {s t : State} {p w : Nat} (h : s.rewriteEntry p w = some t) : Still s t := by
  unfold State.rewriteEntry at h
  dsimp only at h
  have cleared : ∀ (v : State) (c : Prop) [Decidable c] (e : Nat), Still v (if c then v.freeCopies e else v) := fun v c _ e =>
    ite (freeCopies v e) (refl v)
  split at h
  · next m _ =>
    obtain rfl := Option.some.inj h
    refine Still.trans ?_ (cleared _ _ _)
    refine putPage ?_ p _
    exact ite (refl s) rfl
  · split at h
    · obtain rfl := Option.some.inj h
      exact trans (t := s.putPage p _) rfl (cleared _ _ _)
    · exact trans (t := s.putPage p _) rfl ((cleared _ _ _).trans (startMigration h))

theorem applyFailed (s : State) (code p : Nat) : Still s (s.applyFailed code p) :=
  trans (t := (s.bump32 P.applyFailures 0 1).tierStatus code p) rfl (raiseEvent ..)

theorem tierStatus (s : State) (code p : Nat) : Still s (s.tierStatus code p) := rfl

theorem applyEntry (s : State) (p w : Nat) : Still s (s.applyEntry p w) := by
  unfold State.applyEntry
  extract_lets e
  split
  · exact applyFailed ..
  · split
    · exact (unmapPage s p).trans (tierStatus ..)
    · split
      · split
        · exact applyFailed ..
        · split
          · exact applyFailed ..
          · exact (mapPage s p _ _ _).trans (tierStatus ..)
      · split
        · split
          · exact applyFailed ..
          · exact (unmapPage s p).trans ((mapPage _ p _ _ _).trans (tierStatus ..))
        · split
          · exact applyFailed ..
          · next v found => exact (rewriteEntry found).trans (tierStatus ..)

/-- R169. -/
theorem applyStaged (s : State) : Still s s.applyStaged := by
  unfold State.applyStaged
  extract_lets q m a
  exact trans (t := a) rfl (foldl (fun v w => applyEntry v _ _) q a)

theorem settleStaged (s : State) : Still s s.settleStaged := ite (applyStaged s) (refl s)

theorem retryRetirements (s : State) : Still s s.retryRetirements := by
  unfold State.retryRetirements
  refine foldl (fun v r => ?_) _ s
  split
  · rfl
  · split
    · rfl
    · next kv _ =>
      refine ite rfl ?_
      cases found : v.startMigration kv.1 [] with
      | none => exact refl v
      | some x => exact startMigration found

theorem nextMove (p : Nat) (ws : List Nat) (s : State) : Still s (State.nextMove p ws s) := by
  induction ws generalizing s with
  | nil => rfl
  | cons w ws ih =>
    unfold State.nextMove
    extract_lets e
    split
    · exact ih s
    · split
      · next v found => exact trans (t := s.putPage p (setBits e 4 8 w)) rfl (startMigration found)
      · exact (applyFailed s 0x07 p).trans (ih _)

theorem verifyPage (s : State) (p : Nat) : Still s (s.verifyPage p) := by
  unfold State.verifyPage
  extract_lets e acct
  refine ite rfl (foldl (fun v kv => ?_) _ s)
  exact ite rfl (trans (t := (v.putTile kv.1 kv.2.poisonInPlace).bump64 P.digestErrors acct 1) rfl (raiseEvent ..))

theorem writePageLus (s : State) (p : Nat) : Still s (s.writePageLus p) := by
  unfold State.writePageLus
  extract_lets e
  exact ite rfl rfl

theorem respillPage (s : State) (p : Nat) (unreadable : List Nat) : Still s (s.respillPage p unreadable) := by
  unfold State.respillPage
  extract_lets e ms a m b
  split
  · rfl
  · next tier frame _ _ =>
    extract_lets c d f
    have freed : Still s a := freeFrames s e ms
    have gone : Still a b := rfl
    have placed : Still b c := putPage (freeFrame b tier frame (eWidth e)) p _
    have lost : Still d f := foldl (fun v id => (rfl : Still v (v.putTile id (v.lostAt id)))) _ d
    exact freed.trans (gone.trans (placed.trans ((countSpill c _ _).trans (lost.trans ((writePageLus f p).trans (nextMove ..))))))

theorem respill (s : State) (sl : Nat) (unreadable : List Nat) : Still s (s.respill sl unreadable) := by
  unfold State.respill
  extract_lets inSlot mine
  exact foldl (fun v kv => respillPage v _ _) _ s

end Still

end Sys2Proof.RestLaws

/-! PROOF. Held writes of the directory, and what they leave alone when they apply (R326, R327). -/

namespace Sys2Proof.RestLaws

open Sys2Proof.Machine Sys2Proof.Claims Sys2Proof.RecordLaws Sys2Proof.NetLaws

/-- The state but for what a held write that applies reaches: what a write of a tile or of the tier map does, the confluence unit,
updates, riffle, journal, dies, what is sent and the free draws. -/
def steady (s : State) : State :=
  { s with params := [], log := {}, mem := {}, flash := {}, net := {}, riffle := {}, upd := {}, journal := {}, out := [], draws := 0
           seq := { s.seq with dies := [], nextWord := 0 } }

/-- `t` is `s` but for what a held write that applies reaches. -/
def Steady (s t : State) : Prop := steady t = steady s

namespace Steady

variable {s t u : State}

theorem refl (s : State) : Steady s s := rfl

theorem trans (h : Steady s t) (g : Steady t u) : Steady s u := Eq.trans g h

theorem ite {c : Prop} [Decidable c] (h : Steady s t) (g : Steady s u) : Steady s (if c then t else u) := by
  split <;> assumption

theorem foldl {α : Type} {f : State → α → State} (hf : ∀ v x, Steady v (f v x)) (xs : List α) (s : State) : Steady s (xs.foldl f s) := by
  induction xs generalizing s with
  | nil => exact refl s
  | cons x xs ih => exact (hf s x).trans (ih _)

theorem of_still (h : Still s t) : Steady s t := (congrArg steady h :)

theorem of_records {ps : List Nat} (h : Records ps s t) : Steady s t := of_still (.of_records h)

theorem of_exchanges (h : Exchanges s t) : Steady s t := by
  unfold Exchanges at h
  unfold Steady
  rw [h]
  rfl

theorem raiseEvent (s : State) (cls code source d0 d1 : Nat) : Steady s (s.raiseEvent cls code source d0 d1) := of_still (.raiseEvent ..)

theorem applyLlm (s : State) (n m : Nat) : Steady s (s.applyLlm n m) := by
  unfold State.applyLlm
  extract_lets old bad
  exact ite (trans (t := s.setReg P.llmMode n old) rfl (raiseEvent ..)) rfl

theorem applyPorts (s : State) (old : Nat → Nat) : Steady s (s.applyPorts old) := by
  unfold State.applyPorts
  refine foldl (fun v k => ?_) _ s
  split
  · rfl
  · extract_lets a
    have counted : Steady v a := ite rfl rfl
    exact counted.trans rfl

theorem sendSync (s : State) (ns : Nat) : Steady s (s.sendSync ns) := by
  unfold State.sendSync
  extract_lets t open' segs
  split
  extract_lets a b
  exact trans (t := a) rfl (trans (t := b) rfl (of_exchanges (.sendPacket ..)))

theorem restartStream (s : State) (ns : Nat) : Steady s (s.restartStream ns) := by
  unfold State.restartStream
  extract_lets e
  exact ite (sendSync ..) rfl

theorem resetRiffle (s : State) : Steady s s.resetRiffle := by
  unfold State.resetRiffle
  extract_lets a
  exact trans (t := a) (foldl (fun v sl => (rfl : Steady v (v.setDie sl _))) _ s) rfl

theorem resetRecord (s : State) (sh : Nat) : Steady s (s.resetRecord sh) := ite rfl rfl

theorem setTimeState (s : State) (v : Nat) : Steady s (s.setTimeState v) := by
  unfold State.setTimeState
  extract_lets old
  exact ite rfl (trans (t := s.setVal P.timeState v) rfl (raiseEvent ..))

theorem applyPtpRole (s : State) (old new : Nat) : Steady s (s.applyPtpRole old new) := by
  unfold State.applyPtpRole
  extract_lets n a
  have dropped : Steady s a := rfl
  exact ite rfl (dropped.trans (ite (setTimeState ..) (ite (setTimeState ..) (refl a))))

/-- R327: a held write that applies. -/
theorem applyWrite (s : State) (h : HeldWrite) : Steady s (s.applyWrite h) := by
  unfold State.applyWrite
  extract_lets n moved
  have stored : Steady s n := rfl
  refine ite (stored.trans (foldl (fun v e => applyLlm ..) moved n)) (ite ?_ (ite ?_ (ite ?_ (ite ?_ (ite ?_ (ite ?_ (ite ?_ (ite ?_ stored))))))))
  · exact ite rfl rfl
  · exact ite rfl (stored.trans rfl)
  · exact ite rfl (ite rfl rfl)
  · exact stored.trans (applyPorts ..)
  · exact stored.trans (foldl (fun v ns => restartStream v ns) moved n)
  · exact stored.trans (resetRiffle n)
  · exact stored.trans (foldl (fun v sh => resetRecord v sh) moved n)
  · exact stored.trans (applyPtpRole ..)

/-- R327: all held writes applied. -/
theorem applyHeldAll (s : State) : Steady { s with held := [] } s.applyHeldAll := foldl (fun v h => applyWrite v h) s.held _

/-- R327: nothing is left held where the gate holds. -/
theorem held_settleHeld (s : State) (gate : s.gateHolds = true) : s.settleHeld.held = [] := by
  unfold State.settleHeld
  rw [if_pos gate]
  exact (congrArg State.held (applyHeldAll s) :)

end Steady

end Sys2Proof.RestLaws

namespace Sys2Proof.HeldLaws

open Sys2Proof.Machine Sys2Proof.Claims Sys2Proof.StoreTileLaws Sys2Proof.RecordLaws Sys2Proof.DirLaws Sys2Proof.EventsOutLaws Sys2Proof.RestLaws

/-- The parameters whose directory writes are held for the next step and have a command of their own (R132, R149, R178, R213, R231,
R270, R280). -/
def heldParams : List Nat :=
  [P.shardTable, P.layerTable, P.millraceTable, P.portMap, P.watchChannelMap, P.layerRanges, P.riffleSeed] ++ topologyParams
    ++ (List.range 8).map (P.program + ·)

/-- What the directory's table says of a held parameter. -/
def isHeldRow (p : Nat) : Bool :=
  (rowOf p).any (fun r => decide (r.access = .rws) && !r.late && decide (r.ty ≠ .f32)) && decide (p < 0xF00000) && (p != P.eventRingEnable)
    && (p != P.transportRights)
    && (match statusOf p with
      | some q => q != P.bootState && q != P.stepGate && q != P.currentStep && q != P.requests && q != P.rejected && q != P.rwsLimit
      | none => true)

theorem heldRows : ∀ p ∈ heldParams, isHeldRow p = true := by decide +kernel

/-- R326: the check of a held parameter reports in its status object. -/
theorem checkWrite_status {p : Nat} (h : p ∈ heldParams) (s : State) (m : Sparse Nat) : (s.checkWrite p m).report.map Prod.fst = statusOf p := by
  have all : ∀ p ∈ heldParams, (s.checkWrite p m).report.map Prod.fst = statusOf p := by
    simp only [heldParams, topologyParams, List.range, List.range.loop, List.map_cons, List.map_nil, List.cons_append, List.nil_append,
      List.forall_mem_cons]
    exact ⟨rfl, rfl, rfl, rfl, rfl, rfl, rfl, rfl, rfl, rfl, rfl, rfl, rfl, rfl, rfl, rfl, rfl, rfl, rfl, rfl, fun _ h => nomatch h⟩
  exact all p h

/-- R326: a verdict's report changes its status object alone. -/
theorem report_reads (s : State) (v : Verdict) :
    s.report v = { s with params := (s.report v).params } ∧ WritesOnly (v.report.map Prod.fst).toList s (s.report v) := by
  unfold State.report
  cases v.report with
  | none => exact ⟨rfl, .of_params _ rfl⟩
  | some x => exact ⟨rfl, .setReg (by simp) (by decide) s x.2⟩

variable {s : State} {who : Requester} {p off : Nat} {data : List Byte} {row : ParamRow}

/-- R331: a granted write of a held parameter passes. -/
theorem passes_held (h : p ∈ heldParams) (boot : s.boot ≤ 4) (granted : Granted s who (writeRec p off data)) (placed : off < 2 ^ 32)
    (known : rowOf p = some row) (span : spanOk row true off data.length = true) :
    row.access = .rws ∧ Passes s who p off data row := by
  have fits := heldRows p h
  unfold isHeldRow at fits
  simp only [known, Option.any_some, Bool.and_eq_true, decide_eq_true_eq, Bool.not_eq_true', bne_iff_ne, ne_eq] at fits
  obtain ⟨⟨⟨⟨⟨⟨access, early⟩, number⟩, small⟩, _⟩, own⟩, _⟩ := fits
  exact ⟨access, granted, small, placed, known, by simp [State.objectThere, boot], fun h => absurd h own, by simp [State.loaded, early], span,
    fun h => absurd h number⟩

/-- The status object of a held parameter is none of the registers that decide when held writes apply. -/
theorem status_apart (h : p ∈ heldParams) {q : Nat} (hq : q ∈ (statusOf p).toList) :
    q ≠ P.bootState ∧ q ≠ P.stepGate ∧ q ≠ P.currentStep := by
  have fits := heldRows p h
  unfold isHeldRow at fits
  cases found : statusOf p with
  | none => simp [found] at hq
  | some x =>
    simp only [found, Option.toList_some, List.mem_singleton] at hq
    simp only [found, Bool.and_eq_true, bne_iff_ne, ne_eq] at fits
    obtain ⟨_, ⟨⟨⟨⟨boot, gate⟩, step⟩, _⟩, _⟩, _⟩ := fits
    exact hq ▸ ⟨boot, gate, step⟩

/-- A write held last, its check reported (R327). -/
def heldLast (s : State) (p off : Nat) (data : List Byte) : State :=
  { s.report (s.checkWrite p (putParam s.heldParams p off (maskBytes p data))) with
    held := s.held ++ [{ param := p, offset := off, bytes := maskBytes p data }] }

/-- R327: a held write with room and a good check is held, and settled. -/
theorem writeHeld_good (room : s.rwsBytes + data.length ≤ s.val P.rwsLimit)
    (good : (s.checkWrite p (putParam s.heldParams p off (maskBytes p data))).ok = true) :
    ∃ a : Answer, a.status = 0 ∧ a.data = [] ∧ s.writeHeld p off data = (a, (heldLast s p off data).settleHeld) := by
  have held : (s.report (s.checkWrite p (putParam s.heldParams p off (maskBytes p data)))).held = s.held :=
    (congrArg State.held (report_reads s _).1 :)
  unfold State.writeHeld
  rw [if_neg (Nat.not_lt.2 room)]
  simp only [good, not_true_eq_false, if_false, held]
  split
  · exact ⟨_, rfl, rfl, rfl⟩
  · exact ⟨_, rfl, rfl, rfl⟩

theorem gate_heldLast (can : Canonical s) (h : p ∈ heldParams) : (heldLast s p off data).gateHolds = s.gateHolds := by
  obtain ⟨rest, only⟩ := report_reads s (s.checkWrite p (putParam s.heldParams p off (maskBytes p data)))
  rw [checkWrite_status h] at only
  have same : ∀ q, q = P.bootState ∨ q = P.stepGate ∨ q = P.currentStep → (heldLast s p off data).val q = s.val q := fun q hq => by
    refine only.regs can.1 q 0 (by decide) fun mem => ?_
    obtain ⟨boot, gate, step⟩ := status_apart h mem
    rcases hq with rfl | rfl | rfl
    exacts [boot rfl, gate rfl, step rfl]
  unfold State.gateHolds State.boot State.step
  rw [same _ (.inl rfl), same _ (.inr (.inl rfl)), same _ (.inr (.inr rfl))]
  exact congrArg (fun q : Seq => s.val P.bootState == 4 && !q.opened && decide (s.val P.stepGate < s.val P.currentStep + 1))
    (congrArg State.seq rest :)

/-- R327, R331: what the answer to a held write leaves. -/
theorem responds_held (h : p ∈ heldParams) (boot : s.boot ≤ 4) (granted : Granted s who (writeRec p off data)) (placed : off < 2 ^ 32)
    (known : rowOf p = some row) (span : spanOk row true off data.length = true) (room : s.rwsBytes + data.length ≤ s.val P.rwsLimit)
    (good : (s.checkWrite p (putParam s.heldParams p off (maskBytes p data))).ok = true) :
    ∃ a : Answer, a.status = 0 ∧ Responds (heldLast s p off data).settleHeld (s.single who none (writeRec p off data)) who false
      (reply a (writeRec p off data)) (answerRegs a) := by
  obtain ⟨access, passes⟩ := passes_held h boot granted placed known span
  obtain ⟨a, status, bare, written⟩ := writeHeld_good (p := p) (off := off) room good
  have ring : p ≠ P.eventRingEnable := by
    rintro rfl
    exact absurd h (by decide)
  have fit : a.fit (s.responseLimit who - 28) = a := by simp [Answer.fit, bare]
  have responds := responds_single granted.1 none
  rw [passes.answerOf_rws access ring, written] at responds
  simp only [fit] at responds
  exact ⟨a, status, responds⟩

/-- R326, R327: a write that is held until its time, or applies at once where the gate holds. -/
theorem holdsWrite {c : Instr} (h : p ∈ heldParams) (can : Canonical s) (boot : s.boot ≤ 4) (placed : off < 2 ^ 32)
    (run : exec c s = .next (s.single who none (writeRec p off data))) : HoldsWrite s who c p off data := by
  intro row granted known span room good
  obtain ⟨a, status, responds⟩ := responds_held h boot granted placed known span room good
  have gate := gate_heldLast (off := off) (data := data) can h
  have replied := replied_of_responds responds status
  refine ⟨fun waits => ⟨_, run, ?_⟩, fun holds => ⟨_, run, replied, ?_⟩⟩
  · have settled : (heldLast s p off data).settleHeld = heldLast s p off data := by
      unfold State.settleHeld
      rw [gate, waits]
      rfl
    rw [settled] at responds
    obtain ⟨rest, only⟩ := report_reads s (s.checkWrite p (putParam s.heldParams p off (maskBytes p data)))
    rw [checkWrite_status h] at only
    obtain ⟨_, clock, ⟨tiles, pages, flash, pending⟩, seq, held⟩ := fields_of_responds responds
    have mem : (heldLast s p off data).mem = s.mem := (congrArg State.mem rest :)
    have kept : WritesOnly ([P.requests] ++ (statusOf p).toList) s (heldLast s p off data) :=
      (WritesOnly.mono (by simp) only).trans (.of_params _ rfl)
    have counted : answerRegs a = [P.requests] := by simp [answerRegs, status]
    refine ⟨replied, ⟨?_, ?_, ?_, ?_⟩, held, ?_, ?_, ?_⟩
    · exact tiles.trans (congrArg Mem.tiles mem)
    · exact pages.trans (congrArg Mem.pages mem)
    · exact flash.trans (congrArg State.flash rest :)
    · exact pending.trans (congrArg State.pending rest :)
    · exact clock.trans (congrArg State.clock rest :)
    · exact seq.trans (congrArg State.seq rest :)
    · exact (kept.trans (WritesOnly.mono (by rw [counted]; simp) responds.only)).regs can.1
  · rw [(fields_of_responds responds).2.2.2.2]
    exact Steady.held_settleHeld _ (gate.trans holds)

end Sys2Proof.HeldLaws

/-! PROOF. Writes of the weir's parameters (R291, R324, R325), and of the tables held for the next step (R327). -/

namespace Sys2Proof.DirLaws

open Sys2Proof.Machine Sys2Proof.Claims Sys2Proof.StoreTileLaws Sys2Proof.RecordLaws

/-- Elements of parameter `p` stored from element `e` on. -/
def putAll (s : State) (p e : Nat) (vs : List Nat) : State := { s with params := putElems s.params p e vs }

theorem putAll_cons (s : State) (p e v : Nat) (vs : List Nat) : putAll s p e (v :: vs) = putAll (s.setReg p e v) p (e + 1) vs := rfl

theorem putAll_only (s : State) (p e : Nat) (vs : List Nat) (fits : e + vs.length ≤ 2 ^ 24) : WritesOnly [p] s (putAll s p e vs) := by
  induction vs generalizing s e with
  | nil => exact .of_params _ rfl
  | cons v vs ih =>
    rw [List.length_cons] at fits
    rw [putAll_cons]
    have first : WritesOnly [p] s (s.setReg p e v) := .setReg (List.mem_singleton_self p) (by omega) s v
    exact first.trans (ih _ _ (by omega))

theorem reg_putAll_below (s : State) (p : Nat) {e e' : Nat} (vs : List Nat) (fits : e + vs.length ≤ 2 ^ 24) (h : e' < e) :
    (putAll s p e vs).reg p e' = s.reg p e' := by
  induction vs generalizing s e with
  | nil => rfl
  | cons v vs ih =>
    rw [List.length_cons] at fits
    rw [putAll_cons, ih _ (by omega) (by omega)]
    exact reg_setReg_ne s (by omega) (by omega) (.inr (by omega)) v

theorem reg_putAll (s : State) (p e : Nat) (vs : List Nat) (fits : e + vs.length ≤ 2 ^ 24) {i : Nat} (hi : i < vs.length) :
    (putAll s p e vs).reg p (e + i) = vs[i] := by
  induction vs generalizing s e i with
  | nil => exact absurd hi (Nat.not_lt_zero i)
  | cons v vs ih =>
    rw [List.length_cons] at fits hi
    rw [putAll_cons]
    obtain _ | i := i
    · exact (reg_putAll_below _ p vs (by omega) (by omega)).trans (State.reg_setReg_same ..)
    · have rest := ih (s.setReg p e v) (e + 1) (by omega) (i := i) (by omega)
      rw [Nat.add_assoc, Nat.add_comm 1 i] at rest
      exact rest

/-- The pieces of a byte string of whole elements make it up. -/
theorem flatMap_chunks {α : Type} {n : Nat} (hn : 0 < n) {g : List α → List α} (whole : ∀ c : List α, c.length = n → g c = c) :
    ∀ (k fuel : Nat) (xs : List α), xs.length = n * k → k ≤ fuel → (chunks n fuel xs).flatMap g = xs
  | 0, fuel, xs, long, _ => by
    have none : xs = [] := List.eq_nil_of_length_eq_zero long
    subst none
    cases fuel <;> rfl
  | k + 1, fuel, xs, long, enough => by
    obtain ⟨m, rfl⟩ : ∃ m, fuel = m + 1 := ⟨fuel - 1, by omega⟩
    rw [Nat.mul_succ] at long
    have full : xs.isEmpty = false := by
      rw [List.isEmpty_eq_false_iff]
      rintro rfl
      simp at long
      omega
    have rest : (xs.drop n).length = n * k := by
      rw [List.length_drop]
      omega
    have first : (xs.take n).length = n := by
      rw [List.length_take]
      omega
    rw [chunks, full]
    simp only [Bool.false_eq_true, if_false, List.flatMap_cons]
    rw [whole _ first, flatMap_chunks hn whole k m _ rest (by omega), List.take_append_drop]

/-- R5: data of elements without Res bits is stored as it is. -/
theorem maskBytes_open {p k : Nat} {bytes : List Byte} (open' : writable p = none) (pos : 0 < elemBytes p) (long : bytes.length = elemBytes p * k) :
    maskBytes p bytes = bytes := by
  have one : max (elemBytes p) 1 = elemBytes p := by omega
  unfold maskBytes maskElem
  simp only [one, open']
  refine flatMap_chunks pos (fun c hc => ?_) k _ bytes long (by rw [long]; exact Nat.le_mul_of_pos_left k pos)
  rw [← hc]
  exact leBytes_leNat c

/-- R324: data stored in whole elements. -/
theorem putBytes_eq (s : State) {p off k : Nat} {bytes : List Byte} (pos : 0 < elemBytes p) (long : bytes.length = elemBytes p * k) :
    s.putBytes p off bytes = putAll s p (off / elemBytes p) ((List.range k).map fun i => leNat (slice bytes (elemBytes p * i) (elemBytes p))) := by
  have one : max (elemBytes p) 1 = elemBytes p := by omega
  unfold State.putBytes putParam putAll
  simp only [one, map_chunks pos long]

end Sys2Proof.DirLaws

namespace Sys2Proof.HeldLaws

open Sys2Proof.Machine Sys2Proof.Claims Sys2Proof.StoreTileLaws Sys2Proof.RecordLaws Sys2Proof.DirLaws Sys2Proof.EventsOutLaws

/-- The objects of the weir's parameters (R291). -/
def ofWeir (p : Nat) : Prop := p / 256 = 0x2000 ∨ p / 256 = 0x2010 ∨ p / 256 = 0x2020

/-- R291: the check of the weir reports its code with the subindex. -/
theorem checkWeir_reads (m : Sparse Nat) (p : Nat) :
    ∃ code, code < 256 ∧ checkWeir m p = .code P.weirStatus (code + 2 ^ 8 * (p % 256)) := by
  unfold checkWeir
  extract_lets v order gap supply temps code
  refine ⟨code, ?_, rfl⟩
  have small : ∀ (c : Prop) [Decidable c] (a b : Nat), a < 256 → b < 256 → (if c then a else b) < 256 := fun c _ a b ha hb => by
    split <;> assumption
  exact small _ _ _ (small _ _ _ (by decide) (by decide)) (small _ _ _ (small _ _ _ (by decide) (by decide)) (small _ _ _
    (small _ _ _ (by decide) (by decide)) (small _ _ _ (small _ _ _ (by decide) (by decide)) (small _ _ _
    (small _ _ _ (by decide) (by decide)) (small _ _ _ (by decide) (by decide))))))

theorem ofWeir_ne {p q : Nat} (h : ofWeir p) (hq : ¬ ofWeir q) : p ≠ q := fun e => hq (e ▸ h)

/-- R291: a write of a weir parameter is stored where its check passes. -/
theorem writeRw_weir (s : State) {p : Nat} (h : ofWeir p) (off head : Nat) (bytes : List Byte) :
    let c := checkWeir (putParam s.params p off (maskBytes p bytes)) p
    s.writeRw p off head bytes = if c.ok then ({ status := 0 }, (s.report c).putBytes p off (maskBytes p bytes))
      else ({ status := 0x05, detail := (s.report c).valueDetail p }, s.report c) := by
  intro c
  have apart : ∀ q, ¬ ofWeir q → p ≠ q := fun q hq => ofWeir_ne h hq
  have objects : p / 256 ≠ 0x7101 ∧ p / 256 ≠ 0x7110 := by
    unfold ofWeir at h
    omega
  have checked : s.checkWrite p (putParam s.params p off (maskBytes p bytes)) = c := if_pos h
  have after : ∀ u : State, u.afterWrite p = u := fun u => by
    unfold State.afterWrite
    rw [if_neg (apart _ (by unfold ofWeir; decide)), if_neg fun x => apart _ (by unfold ofWeir; decide) x.1]
  unfold State.writeRw
  simp only [checked, after, if_neg (apart P.transportRights (by unfold ofWeir; decide)), if_neg (apart P.tierMapEntry (by unfold ofWeir; decide)),
    if_neg (apart P.eventRingEnable (by unfold ofWeir; decide)),
    if_neg (not_or.2 ⟨apart P.snapshotTime (by unfold ofWeir; decide), apart P.snapshotStep (by unfold ofWeir; decide)⟩), if_neg objects.1,
    if_neg objects.2]
  by_cases good : c.ok = true
  · rw [if_neg (not_not_intro good), if_pos good]
  · rw [if_pos good, if_neg good]

theorem writable_weir {p : Nat} (h : ofWeir p) : writable p = none := by
  have apart : ∀ q, ¬ ofWeir q → p ≠ q := fun q hq => ofWeir_ne h hq
  unfold writable
  rw [if_neg (not_or.2 ⟨apart _ (by unfold ofWeir; decide), apart _ (by unfold ofWeir; decide)⟩), if_neg (apart _ (by unfold ofWeir; decide)),
    if_neg (apart _ (by unfold ofWeir; decide)), if_neg (apart _ (by unfold ofWeir; decide)), if_neg (apart _ (by unfold ofWeir; decide)),
    if_neg (apart _ (by unfold ofWeir; decide)), if_neg (apart _ (by unfold ofWeir; decide))]

/-- What the directory's table says of a parameter's elements (R324). -/
theorem rowSizes : ∀ r ∈ paramTable, r.count < 2 ^ 24 ∧ 0 < r.bytes := by decide +kernel

/-- R324: a span that is taken covers whole elements, all of them of the parameter. -/
theorem span_whole {row : ParamRow} (h : row ∈ paramTable) {off n : Nat} (span : spanOk row true off n = true) :
    n = row.bytes * (n / row.bytes) ∧ off / row.bytes + n / row.bytes ≤ 2 ^ 24 := by
  obtain ⟨count, pos⟩ := rowSizes row h
  have one : ∀ {c : Bool}, (off == 0 && c) = true → (c = true → n = row.bytes) → n = row.bytes * (n / row.bytes) ∧ off / row.bytes + n / row.bytes ≤ 2 ^ 24 := by
    intro c both length
    simp only [Bool.and_eq_true, beq_iff_eq] at both
    rw [both.1, length both.2, Nat.div_self pos, Nat.zero_div]
    omega
  unfold spanOk at span
  split at span
  · simp only [Bool.and_eq_true, beq_iff_eq, decide_eq_true_eq] at span
    obtain ⟨⟨⟨_, first⟩, whole⟩, fits⟩ := span
    obtain ⟨a, rfl⟩ := Nat.dvd_of_mod_eq_zero first
    obtain ⟨b, rfl⟩ := Nat.dvd_of_mod_eq_zero whole
    rw [Nat.mul_div_cancel_left _ pos, Nat.mul_div_cancel_left _ pos]
    rw [← Nat.mul_add] at fits
    have := Nat.le_of_mul_le_mul_left fits pos
    exact ⟨rfl, by omega⟩
  · exact one span fun h => beq_iff_eq.1 h
  · exact one span fun h => beq_iff_eq.1 h
  · exact one span fun h => beq_iff_eq.1 h

variable {s : State} {who : Requester} {p off : Nat} {data : List Byte} {row : ParamRow}

theorem elemBytes_of_row (known : rowOf p = some row) : elemBytes p = row.bytes := by
  unfold elemBytes
  rw [known]
  rfl

/-- R291: a granted write of a weir parameter passes. -/
theorem passes_weir (h : ofWeir p) (boot : s.boot ≤ 4) (granted : Granted s who (writeRec p off data)) (placed : off < 2 ^ 32)
    (known : rowOf p = some row) (loaded : s.loaded row = true) (span : spanOk row true off data.length = true)
    (number : row.ty = .f32 → (f32 (leNat data)).isNan = false) : Passes s who p off data row :=
  ⟨granted, by unfold ofWeir at h; omega, placed, known, by simp [State.objectThere, boot], fun e => absurd e (ofWeir_ne h (by unfold ofWeir; decide)),
    loaded, span, number⟩

/-- What the answer to a write of a weir parameter leaves. -/
theorem responds_weir (h : ofWeir p) (w : Passes s who p off data row) (access : row.access = .rw) {a : Answer} {u : State}
    (written : s.writeRw p off 0 data = (a, u)) (bare : a.data = []) :
    Responds u (s.single who none (writeRec p off data)) who false (reply a (writeRec p off data)) (answerRegs a) := by
  have fit : a.fit (s.responseLimit who - 28) = a := by simp [Answer.fit, bare]
  have responds := responds_single w.granted.1 none
  rw [w.answerOf_rw access (ofWeir_ne h (by unfold ofWeir; decide)), written] at responds
  simp only [fit] at responds
  exact responds

/-- What a write of the weir's parameters leaves alone (R291). -/
def WeirFrame (s t : State) : Prop := SameStores s t ∧ t.weir = s.weir ∧ t.held = s.held ∧ t.clock = s.clock ∧ t.seq = s.seq

theorem weirFrame_of {u t : State} (rest : u = { s with params := u.params }) {out : List Byte} {regs : List Nat}
    (responds : Responds u t who false out regs) : WeirFrame s t := by
  obtain ⟨_, clock, ⟨tiles, pages, flash, pending⟩, seq, held⟩ := fields_of_responds responds
  have mem : u.mem = s.mem := (congrArg State.mem rest :)
  refine ⟨⟨tiles.trans (congrArg Mem.tiles mem), pages.trans (congrArg Mem.pages mem), flash.trans (congrArg State.flash rest :),
    pending.trans (congrArg State.pending rest :)⟩, ?_, held.trans (congrArg State.held rest :), clock.trans (congrArg State.clock rest :),
    seq.trans (congrArg State.seq rest :)⟩
  exact (congrArg State.weir responds.rest :).trans (congrArg State.weir rest :)

/-- R291: the weir takes the new elements. -/
theorem weir_taken (can : Canonical s) (h : ofWeir p) (w : Passes s who p off data row) (access : row.access = .rw)
    (good : (checkWeir (putParam s.params p off (maskBytes p data)) p).ok = true) :
    let t := s.single who none (writeRec p off data)
    Replied t who (writeRec p off data) 0
      ∧ (∀ i, i < data.length / row.bytes → t.reg p (off / row.bytes + i) = leNat (slice data (row.bytes * i) row.bytes))
      ∧ t.val P.weirStatus = 2 ^ 8 * (p % 256) ∧ OnlyRegs [p, P.weirStatus, P.requests] s t ∧ WeirFrame s t := by
  have listed : row ∈ paramTable := List.mem_of_find?_eq_some w.known
  obtain ⟨whole, fits⟩ := span_whole listed w.span
  have size := elemBytes_of_row w.known
  have pos : 0 < elemBytes p := size ▸ (rowSizes row listed).2
  have masked := maskBytes_open (writable_weir h) pos (size.symm ▸ whole)
  have written := writeRw_weir s h off 0 data
  dsimp only at written
  rw [if_pos good] at written
  obtain ⟨code, small, check⟩ := checkWeir_reads (putParam s.params p off (maskBytes p data)) p
  have zero : code = 0 := by
    rw [check] at good
    have := beq_iff_eq.1 good
    omega
  have told : s.report (checkWeir (putParam s.params p off (maskBytes p data)) p) = s.setVal P.weirStatus (2 ^ 8 * (p % 256)) := by
    rw [check, zero, Nat.zero_add]
    rfl
  rw [told, masked, putBytes_eq _ pos (size.symm ▸ whole)] at written
  have responds := responds_weir h w access written rfl
  have status : p ≠ P.weirStatus := by
    rintro rfl
    have ro : (rowOf P.weirStatus).map (·.access) = some .ro := by decide +kernel
    rw [w.known] at ro
    exact absurd (access.symm.trans (Option.some.inj ro)) (by decide)
  have counts : p ≠ P.requests ∧ p ≠ P.rejected := ⟨ofWeir_ne h (by unfold ofWeir; decide), ofWeir_ne h (by unfold ofWeir; decide)⟩
  generalize hf : ((List.range (data.length / elemBytes p)).map fun i => leNat (slice data (elemBytes p * i) (elemBytes p))) = vs at responds
  have length : vs.length = data.length / row.bytes := by rw [← hf, List.length_map, List.length_range, size]
  have stated : WritesOnly [p, P.weirStatus] s (s.setVal P.weirStatus (2 ^ 8 * (p % 256))) := .setReg (by simp) (by decide) s _
  have stored := putAll_only (s.setVal P.weirStatus (2 ^ 8 * (p % 256))) p (off / elemBytes p) vs (by rw [size, length]; exact fits)
  have counted : answerRegs ({ status := 0 } : Answer) ⊆ [p, P.weirStatus, P.requests] := by simp [answerRegs]
  have only : WritesOnly [p, P.weirStatus, P.requests] s (s.single who none (writeRec p off data)) :=
    (WritesOnly.mono (by simp) stated).trans ((WritesOnly.mono (by simp) stored).trans (WritesOnly.mono counted responds.only))
  have wf := stored.wf (stated.wf can.1)
  refine ⟨replied_of_responds responds rfl, fun i hi => ?_, ?_, only.regs can.1, weirFrame_of rfl responds⟩
  · have kept := responds.only.regs wf p (off / row.bytes + i) (by omega) (by simp [answerRegs, counts.1])
    rw [kept, ← size, reg_putAll _ _ _ _ (by rw [size, length]; exact fits) (by rw [length]; exact hi)]
    subst hf
    simp only [List.getElem_map, List.getElem_range]
  · rw [val_of_responds responds wf (by decide) (by decide)]
    exact (stored.regs (stated.wf can.1) _ _ (by decide) (by simp [status.symm])).trans (State.val_setVal_same ..)

/-- R291: the weir refuses the write whole. -/
theorem weir_refused (can : Canonical s) (h : ofWeir p) (w : Passes s who p off data row) (access : row.access = .rw)
    (bad : (checkWeir (putParam s.params p off (maskBytes p data)) p).ok = false) :
    let t := s.single who none (writeRec p off data)
    Replied t who (writeRec p off data) 5 ∧ bits (t.val P.weirStatus) 0 8 ≠ 0 ∧ OnlyRegs [P.weirStatus, P.requests, P.rejected] s t
      ∧ WeirFrame s t := by
  have written := writeRw_weir s h off 0 data
  dsimp only at written
  rw [if_neg (by simp [bad])] at written
  obtain ⟨code, small, check⟩ := checkWeir_reads (putParam s.params p off (maskBytes p data)) p
  have told : s.report (checkWeir (putParam s.params p off (maskBytes p data)) p) = s.setVal P.weirStatus (code + 2 ^ 8 * (p % 256)) := by
    rw [check]
    rfl
  have nonzero : (code + 2 ^ 8 * (p % 256)) % 256 ≠ 0 := by
    rw [check] at bad
    exact beq_eq_false_iff_ne.1 bad
  rw [told] at written
  have responds := responds_weir h w access written rfl
  have stated : WritesOnly [P.weirStatus] s (s.setVal P.weirStatus (code + 2 ^ 8 * (p % 256))) := .setReg (by simp) (by decide) s _
  refine ⟨replied_of_responds responds rfl, ?_, ?_, weirFrame_of rfl responds⟩
  · rw [val_of_responds responds (stated.wf can.1) (by decide) (by decide), State.val_setVal_same]
    exact nonzero
  · exact ((WritesOnly.mono (by simp) stated).trans (WritesOnly.mono (by simp [answerRegs]) responds.only)).regs can.1

end Sys2Proof.HeldLaws

namespace Sys2Proof.Claims

open Sys2Proof.Machine Sys2Proof.HeldLaws

/-- Settles O51: a table write is held with its check reported, and settles where the gate holds; a weir write is stored whole or
refused whole. -/
theorem tableWritesAreHeldForTheNextStep : Obligations.TableWritesAreHeldForTheNextStep := by
  unfold Obligations.TableWritesAreHeldForTheNextStep
  intro s who off data can boot
  have topology : ∀ k : Fin 5, P.moduleAddress + k ∈ HeldLaws.heldParams := by decide
  have programs : ∀ n : Fin 8, P.program + n ∈ HeldLaws.heldParams := by decide
  refine ⟨fun layer => holdsWrite ?_ can boot off.isLt rfl, fun n => holdsWrite (programs n) can boot (by decide) rfl,
    holdsWrite (by decide) can boot off.isLt rfl, fun k => holdsWrite (topology k) can boot off.isLt rfl, holdsWrite (by decide) can boot off.isLt rfl,
    fun rg => holdsWrite ?_ can boot off.isLt rfl, fun v => holdsWrite (by decide) can boot (by decide) rfl, fun index sub row object => ?_⟩
  · cases layer <;> decide
  · cases rg <;> decide
  · intro p granted known access loaded span number
    have byte := sub.isLt
    have low : p % 256 = sub.toNat := by omega
    have weir : ofWeir p := by
      have high : p / 256 = index.toNat := by omega
      unfold ofWeir
      rw [high]
      rcases object with rfl | rfl | rfl <;> decide
    have run : exec (.weirParameterWrite who index sub off data) s = .next (s.single who none (writeRec p off.toNat data)) :=
      congrArg Host.Outcome.next (if_pos object)
    have passes := passes_weir weir boot granted off.isLt known loaded span number
    refine ⟨fun good => ⟨_, run, ?_⟩, fun bad => ⟨_, run, weir_refused can weir passes access bad⟩⟩
    have taken := weir_taken can weir passes access good
    rw [low] at taken
    exact taken

end Sys2Proof.Claims

/-! PROOF. Directory records and messages: their checks, answers, counts and repeats (R324, R329, R331, R332, R334 to R337). -/

namespace Sys2Proof.DirLaws

open Sys2Proof.Machine Sys2Proof.Claims Sys2Proof.StoreTileLaws Sys2Proof.RecordLaws Sys2Proof.EventsOutLaws

/-! The record of one operation. -/

theorem carried_op (r : DirRecord) {op : Byte} (h : op ≠ 2) : carried { r with op := op } = { r with op := op, data := [] } := if_neg h

theorem recParam_op (r : DirRecord) (op : Byte) (data : List Byte) : recParam { r with op := op, data := data } = recParam r := rfl

variable {s : State} {who : Requester} {r : DirRecord}

/-- R331: a record whose fields are in order is of the form that its operation runs. -/
theorem recordFormed (zero0 : r.res0 = 0) (zero1 : r.res1 = 0) {op : Byte} (low : op.toNat ≠ 0) (high : op.toNat ≤ 4) (notWrite : op.toNat ≠ 2)
    (bare : 3 ≤ op.toNat → r.offset = 0 ∧ r.length = 0) :
    ¬ (op.toNat = 0 ∨ 4 < op.toNat ∨ r.res0 ≠ 0 ∨ r.res1 ≠ 0 ∨ (3 ≤ op.toNat ∧ (r.offset.toNat ≠ 0 ∨ r.length.toNat ≠ 0))
      ∨ (op.toNat = 2 ∧ ([] : List Byte).length ≠ r.length.toNat)) := by
  rintro (h | h | h | h | ⟨named, h⟩ | ⟨h, _⟩)
  · exact low h
  · omega
  · exact h zero0
  · exact h zero1
  · obtain ⟨offset, length⟩ := bare named
    simp [offset, length] at h
  · exact notWrite h

/-- R331: a READ. -/
theorem record_read (zero0 : r.res0 = 0) (zero1 : r.res1 = 0) (standard : recParam r / 256 < 0xF000) (h : Nat) :
    s.record who h (carried { r with op := 1 }) = (s.readRecord who (recParam r) r.offset.toNat r.length.toNat, s) := by
  rw [carried_op r (by decide)]
  have formed := recordFormed (op := 1) zero0 zero1 (by decide) (by decide) (by decide) fun h => absurd h (by decide)
  have plain : ¬ (recParam r / 256 ≥ 0xF000 ∧ s.boot ≤ 4) := fun x => absurd x.1 (by omega)
  exact (if_neg formed).trans ((if_neg (by decide : ¬ (1 : Byte).toNat = 2)).trans ((if_neg plain).trans rfl))

/-- R331: a DESCRIBE. -/
theorem record_describe (zero0 : r.res0 = 0) (zero1 : r.res1 = 0) (standard : recParam r / 256 < 0xF000) (offset : r.offset = 0)
    (length : r.length = 0) (h : Nat) : s.record who h (carried { r with op := 3 }) = (s.describeRecord who (recParam r), s) := by
  rw [carried_op r (by decide)]
  have formed := recordFormed (op := 3) zero0 zero1 (by decide) (by decide) (by decide) fun _ => ⟨offset, length⟩
  have plain : ¬ (recParam r / 256 ≥ 0xF000 ∧ s.boot ≤ 4) := fun x => absurd x.1 (by omega)
  exact (if_neg formed).trans ((if_neg (by decide : ¬ (3 : Byte).toNat = 2)).trans ((if_neg plain).trans rfl))

/-- R331: a NEXT. -/
theorem record_next (zero0 : r.res0 = 0) (zero1 : r.res1 = 0) (standard : recParam r / 256 < 0xF000) (offset : r.offset = 0)
    (length : r.length = 0) (h : Nat) : s.record who h (carried { r with op := 4 }) = (s.nextRecord who (recParam r), s) := by
  rw [carried_op r (by decide)]
  have formed := recordFormed (op := 4) zero0 zero1 (by decide) (by decide) (by decide) fun _ => ⟨offset, length⟩
  have plain : ¬ (recParam r / 256 ≥ 0xF000 ∧ s.boot ≤ 4) := fun x => absurd x.1 (by omega)
  exact (if_neg formed).trans ((if_neg (by decide : ¬ (4 : Byte).toNat = 2)).trans ((if_neg plain).trans rfl))

/-- R331: a WRITE whose data has its length. -/
theorem record_write (zero0 : r.res0 = 0) (zero1 : r.res1 = 0) (sized : r.data.length = r.length.toNat) (h : Nat) :
    s.record who h (carried { r with op := 2 }) = s.writeParam who (recParam r) r.offset.toNat h r.data := by
  have formed : ¬ ((2 : Byte).toNat = 0 ∨ 4 < (2 : Byte).toNat ∨ r.res0 ≠ 0 ∨ r.res1 ≠ 0
      ∨ (3 ≤ (2 : Byte).toNat ∧ (r.offset.toNat ≠ 0 ∨ r.length.toNat ≠ 0)) ∨ ((2 : Byte).toNat = 2 ∧ r.data.length ≠ r.length.toNat)) := by
    simp [zero0, zero1, sized]
  exact (if_neg formed).trans (if_pos (by decide : (2 : Byte).toNat = 2))

/-- R331: a record that is no write of the ring's enable has no Head to read. -/
theorem recordHead_plain (h : r.op.toNat ≠ 2 ∨ recParam r ≠ P.eventRingEnable) : s.recordHead none r = (0, s) := by
  unfold State.recordHead
  exact if_neg fun x => h.elim (fun y => y x.1) fun y => y x.2.1

/-- R331, R332: the answer to one record that changes nothing itself. -/
theorem answerOf_plain {a : Answer} (plain : (carried r).op.toNat ≠ 2 ∨ recParam (carried r) ≠ P.eventRingEnable)
    (run : s.record who 0 (carried r) = (a, s)) (room : a.data.length + 28 ≤ s.responseLimit who) : answerOf s who none r = (a, s) := by
  have fit : a.fit (s.responseLimit who - 28) = a := if_neg (by omega)
  unfold answerOf
  rw [recordHead_plain plain]
  dsimp only
  rw [run, fit]

/-- R337: a delivery leaves every register as it was. -/
theorem params_deliver (s : State) (who : Requester) (ic : Bool) (msg out : List Byte) : (deliver s who ic msg out).params = s.params := by
  unfold deliver
  rw [respond_rest]
  split <;> rfl

/-- R337: a message's response, kept for its repeats. -/
theorem keptAnswer_deliver (s : State) (who : Requester) (ic : Bool) (msg out : List Byte) (keeps : 2 ≤ who.transport.val) :
    (deliver s who ic msg out).keptAnswer who msg = some out := by
  have kept : (s.keepAnswer who msg out).keptAnswer who msg = some out := by
    unfold State.keptAnswer State.keepAnswer
    have fresh : s.clock.now ≤ s.clock.now + 2 * secRoot := Nat.le_add_right ..
    simp [fresh]
  have same := respond_rest (s.keepAnswer who msg out) who ic out
  unfold deliver
  rw [if_neg (by omega)]
  unfold State.keptAnswer at kept ⊢
  rw [same]
  exact kept

/-- R331 to R337: what an answered record leaves, when the record changes nothing itself. -/
theorem answered_plain (can : Canonical s) (heard : Heard s who r) {a : Answer} (answer : answerOf s who none r = (a, s)) :
    let t := s.single who none r
    Sent t who false ([0x01, 0x01, 0x00, 0x00] ++ a.bytes r) s.out
      ∧ (2 ≤ who.transport.val → t.keptAnswer who (recordMessage r) = some ([0x01, 0x01, 0x00, 0x00] ++ a.bytes r))
      ∧ t.reg P.requests who.transport = inc64 (s.reg P.requests who.transport)
      ∧ (a.status ≠ 0 → t.reg P.rejected who.transport = inc64 (s.reg P.rejected who.transport))
      ∧ OnlyRegs (P.requests :: if a.status = 0 then [] else [P.rejected]) s t ∧ SameStores s t ∧ t.clock = s.clock
      ∧ t.seq = s.seq ∧ t.held = s.held := by
  have responds := responds_single heard none
  have delivered := single_of_heard heard none
  rw [answer] at responds delivered
  dsimp only at delivered
  obtain ⟨_, clock, stores, seq, held⟩ := fields_of_responds responds
  have params : (s.single who none r).params = (s.countRecord who a).params := by rw [delivered, params_deliver]
  have counted : (s.countRecord who a).reg P.requests who.transport = inc64 (s.reg P.requests who.transport) := by
    have first : (s.bump64 P.requests who.transport 1).reg P.requests who.transport = inc64 (s.reg P.requests who.transport) := reg_bump64_same ..
    unfold State.countRecord
    dsimp only
    split
    · exact first
    · exact (reg_setReg_ne _ (transport_lt who) (transport_lt who) (.inl (by decide)) _).trans first
  have refused : a.status ≠ 0 → (s.countRecord who a).reg P.rejected who.transport = inc64 (s.reg P.rejected who.transport) := fun bad => by
    have other : (s.bump64 P.requests who.transport 1).reg P.rejected who.transport = s.reg P.rejected who.transport :=
      reg_setReg_ne _ (transport_lt who) (transport_lt who) (.inl (by decide)) _
    unfold State.countRecord
    dsimp only
    rw [if_neg bad]
    exact (reg_bump64_same ..).trans (congrArg inc64 other)
  refine ⟨responds.sent, fun keeps => ?_, (State.reg_congr params ..).trans counted, fun bad => (State.reg_congr params ..).trans (refused bad),
    responds.only.regs can.1, stores, clock, seq, held⟩
  rw [delivered]
  exact keptAnswer_deliver _ who false _ _ keeps

/-! The answers of each operation. -/

theorem readRecord_denied (no : bit (s.rights who) 0 = false) (p off len : Nat) : s.readRecord who p off len = { status := 0x02 } :=
  if_pos (by simp [no])

theorem describeRecord_denied (no : bit (s.rights who) 0 = false) (p : Nat) : s.describeRecord who p = { status := 0x02 } :=
  if_pos (by simp [no])

theorem nextRecord_denied (no : bit (s.rights who) 0 = false) (p : Nat) : s.nextRecord who p = { status := 0x02 } := if_pos (by simp [no])

theorem readRecord_unknown (may : bit (s.rights who) 0 = true) {p : Nat} (none' : rowOf p = none) (off len : Nat) :
    s.readRecord who p off len = { status := 0x01 } := by
  unfold State.readRecord
  rw [if_neg (by simp [may]), none']

theorem describeRecord_unknown (may : bit (s.rights who) 0 = true) {p : Nat} (none' : rowOf p = none) :
    s.describeRecord who p = { status := 0x01 } := by
  unfold State.describeRecord
  rw [if_neg (by simp [may]), none']

theorem readRecord_known (may : bit (s.rights who) 0 = true) {p off len : Nat} {row : ParamRow} (known : rowOf p = some row)
    (there : s.objectThere row.index = true) (loaded : s.loaded row = true) (span : spanOk row false off len = true) :
    s.readRecord who p off len
      = { status := 0, flags := (s.readParam p row off len).2.1, detail := (s.readParam p row off len).2.2, data := (s.readParam p row off len).1 } := by
  unfold State.readRecord
  rw [if_neg (by simp [may])]
  simp only [known, there, loaded, span, not_true_eq_false, if_false]

theorem describeRecord_known (may : bit (s.rights who) 0 = true) {p : Nat} {row : ParamRow} (known : rowOf p = some row)
    (there : s.objectThere row.index = true) : s.describeRecord who p = { status := 0, data := descriptor p row } := by
  unfold State.describeRecord
  rw [if_neg (by simp [may])]
  simp only [known, there, if_true]

theorem nextRecord_known (may : bit (s.rights who) 0 = true) (boot : s.boot ≤ 4) {p k : Nat} (next : nextParam p = some k) :
    s.nextRecord who p = { status := 0, data := leBytes 2 (k / 256) ++ leBytes 1 (k % 256) ++ leBytes 1 0 } := by
  unfold State.nextRecord
  extract_lets name
  rw [if_neg (by simp [may]), if_neg (Nat.not_lt.2 boot), next]

theorem length_descriptor (p : Nat) (row : ParamRow) : (descriptor p row).length = 32 := by
  simp [descriptor, length_leBytes]

theorem writeParam_denied (no : bit (s.rights who) 1 = false) (p off head : Nat) (bytes : List Byte) :
    s.writeParam who p off head bytes = ({ status := 0x02 }, s) := if_pos (.inl (by simp [no]))

theorem writeParam_readOnly (may : bit (s.rights who) 1 = true) {p off head : Nat} {bytes : List Byte} {row : ParamRow} (standard : p / 256 < 0xF000)
    (known : rowOf p = some row) (there : s.objectThere row.index = true) (access : row.access = .ro ∨ row.access = .rs) :
    s.writeParam who p off head bytes = ({ status := 0x03 }, s) := by
  unfold State.writeParam
  rw [if_neg (by simp [may]; omega)]
  simp only [known, there, not_true_eq_false, if_false]
  rcases access with h | h <;> rw [h]

theorem writeParam_badSpan (may : bit (s.rights who) 1 = true) {p off head : Nat} {bytes : List Byte} {row : ParamRow} (standard : p / 256 < 0xF000)
    (known : rowOf p = some row) (there : s.objectThere row.index = true) (ro : row.access ≠ .ro) (rs : row.access ≠ .rs)
    (own : p ≠ P.transportRights) (loaded : s.loaded row = true) (span : spanOk row true off bytes.length = false) :
    s.writeParam who p off head bytes = ({ status := 0x04 }, s) := by
  unfold State.writeParam
  rw [if_neg (by simp [may]; omega)]
  simp only [known, there, loaded, span, not_true_eq_false, if_false, own, false_and, Bool.false_eq_true, not_false_eq_true, if_true]

/-! Messages. -/

/-- What a message of the directory leaves where it runs no record. -/
def Undisturbed (s t : State) : Prop := t.params = s.params ∧ SameStores s t ∧ t.seq = s.seq ∧ t.clock = s.clock ∧ t.held = s.held

theorem undisturbed_deliver (s : State) (who : Requester) (ic : Bool) (msg out : List Byte) : Undisturbed s (deliver s who ic msg out) := by
  obtain ⟨_, clock, stores, seq, held⟩ := fields_of_responds (responds_deliver s who ic msg out)
  exact ⟨params_deliver .., stores, seq, clock, held⟩

theorem length_beBytes (n x : Nat) : (beBytes n x).length = n := by simp [beBytes, length_leBytes]

/-- R335: over MCTP a message goes behind the enterprise number. -/
theorem directoryMessageStep_carried (s : State) (who : Requester) (ic : Bool) (msg : List Byte) :
    directoryMessageStep s who ic (if viaMctp who then s.ianaPrefix ++ msg else msg) = s.answerMessage who ic none msg := by
  have long : s.ianaPrefix.length = 4 := length_beBytes 4 _
  unfold directoryMessageStep
  by_cases mctp : viaMctp who = true
  · have first : (s.ianaPrefix ++ msg).take 4 = s.ianaPrefix := List.take_left' long
    have rest : (s.ianaPrefix ++ msg).drop 4 = msg := List.drop_left' long
    rw [if_pos mctp, if_neg (not_not_intro mctp), first, rest, if_neg (not_not_intro rfl)]
  · rw [if_neg mctp, if_pos mctp]

/-- R334, R337: a message that is heard and no repeat is answered by its records. -/
theorem answerMessage_fresh {msg : List Byte} (answers : s.answers who = true) (short : msg.length ≤ s.requestLimit who)
    (fresh : 2 ≤ who.transport.val → s.keptAnswer who msg = none) (ic : Bool) (head : Option Nat) :
    s.answerMessage who ic head msg
      = deliver (s.message who head (s.responseLimit who) msg).2 who ic msg (s.message who head (s.responseLimit who) msg).1 := by
  unfold State.answerMessage State.receiveMessage deliver
  rw [if_neg (not_not_intro answers), if_neg (Nat.not_lt.2 short)]
  by_cases quick : who.transport.val < 2
  · rw [if_pos quick, if_pos quick]
  · rw [if_neg quick, if_neg quick, fresh (by omega)]

/-- R337: an identical repeat of a kept message gets its kept answer. -/
theorem answerMessage_repeat {msg out : List Byte} (answers : s.answers who = true) (short : msg.length ≤ s.requestLimit who)
    (keeps : 2 ≤ who.transport.val) (kept : s.keptAnswer who msg = some out) (ic : Bool) (head : Option Nat) :
    s.answerMessage who ic head msg = s.respond who ic out := by
  unfold State.answerMessage State.receiveMessage
  rw [if_neg (not_not_intro answers), if_neg (Nat.not_lt.2 short), if_neg (by omega), kept]

/-- R334: a message longer than its limit is dropped, and counted. -/
theorem answerMessage_long {msg : List Byte} (answers : s.answers who = true) (long : s.requestLimit who < msg.length) (ic : Bool)
    (head : Option Nat) : s.answerMessage who ic head msg = s.bump64 P.rejected who.transport 1 := by
  unfold State.answerMessage State.receiveMessage
  rw [if_neg (not_not_intro answers), if_pos long]

/-- R382, R390: where the directory does not answer, a message changes nothing. -/
theorem answerMessage_unheard (silent : s.answers who = false) (ic : Bool) (head : Option Nat) (msg : List Byte) :
    s.answerMessage who ic head msg = s := by
  unfold State.answerMessage State.receiveMessage
  rw [if_pos (by simp [silent])]

/-- R332: one answer of a list of answers to each record, and after a failed one of StopOnError status 9 alone. -/
def AnswersInOrder (stop skip : Bool) (rs : List DirRecord) (as : List Answer) : Prop :=
  as.length = rs.length ∧ (skip = true → ∀ j, j < rs.length → (nth as j { status := 0 }).status = 0x09)
    ∧ ∀ i j, i < j → j < rs.length → stop = true → (nth as i { status := 0 }).status ≠ 0 → (nth as j { status := 0 }).status = 0x09

/-- R332: records run in order. -/
theorem runRecords_answers (who : Requester) (head : Option Nat) (stop : Bool) (rs : List DirRecord) (skip : Bool) (room : Nat) (s : State) :
    ∃ as, AnswersInOrder stop skip rs as
      ∧ (State.runRecords who head stop rs skip room s).1 = (as.zip rs).flatMap fun x => x.1.bytes x.2 := by
  induction rs generalizing skip room s with
  | nil => exact ⟨[], ⟨rfl, fun _ _ h => absurd h (Nat.not_lt_zero _), fun _ _ _ h => absurd h (Nat.not_lt_zero _)⟩, rfl⟩
  | cons r rs ih =>
    unfold State.runRecords
    dsimp only
    generalize (if skip then (0, s) else s.recordHead head r) = x
    obtain ⟨h, v⟩ := x
    dsimp only
    generalize hy : (if skip then (({ status := 0x09 } : Answer), v) else v.record who h r) = y
    obtain ⟨a, w⟩ := y
    dsimp only
    obtain ⟨as, ⟨length, skipped, ordered⟩, out⟩ :=
      ih (skip || (stop && (a.fit room).status != 0)) (room - (a.fit room).data.length) (w.countRecord who (a.fit room))
    have nine : skip = true → (a.fit room).status = 0x09 := fun on => by
      rw [on] at hy
      obtain ⟨rfl, _⟩ := Prod.mk.inj hy
      simp [Answer.fit]
    refine ⟨a.fit room :: as, ⟨by simp [length], fun on j hj => ?_, fun i j hij hj stops failed => ?_⟩, ?_⟩
    · obtain _ | j := j
      · exact nine on
      · exact skipped (by simp [on]) j (by simpa using hj)
    · obtain _ | j := j
      · exact absurd hij (Nat.not_lt_zero i)
      · obtain _ | i := i
        · have bad : ((a.fit room).status != 0) = true := by simpa [nth] using failed
          exact skipped (by simp [stops, bad]) j (by simpa using hj)
        · exact ordered i j (by omega) (by simpa using hj) stops failed
    · rw [out]
      rfl

end Sys2Proof.DirLaws

namespace Sys2Proof.Claims

open Sys2Proof.Machine Sys2Proof.DirLaws

/-- Settles O50: the checks of each operation in their order; one record changes nothing but its counts and its kept answer; and the
records of a message are answered in order. -/
theorem directoryRecordsAreCheckedAndAnswered : Obligations.DirectoryRecordsAreCheckedAndAnswered := by
  unfold Obligations.DirectoryRecordsAreCheckedAndAnswered
  intro s who r can zero0 zero1 standard limit p answered
  have read : ∀ a : Answer, a.data.length + 28 ≤ s.responseLimit who → s.readRecord who p r.offset.toNat r.length.toNat = a →
      answered (.read who r) 1 a := fun a room is heard => by
    have run := record_read (s := s) (who := who) zero0 zero1 standard 0
    rw [is] at run
    exact ⟨_, rfl, answered_plain can heard (answerOf_plain (.inl (by rw [carried_op r (by decide)]; exact (by decide : (1 : Byte).toNat ≠ 2))) run room)⟩
  have describe : ∀ a : Answer, r.offset = 0 → r.length = 0 → a.data.length + 28 ≤ s.responseLimit who → s.describeRecord who p = a →
      answered (.describe who r) 3 a := fun a offset length room is heard => by
    have run := record_describe (s := s) (who := who) zero0 zero1 standard offset length 0
    rw [is] at run
    exact ⟨_, rfl, answered_plain can heard (answerOf_plain (.inl (by rw [carried_op r (by decide)]; exact (by decide : (3 : Byte).toNat ≠ 2))) run room)⟩
  have next : ∀ a : Answer, r.offset = 0 → r.length = 0 → a.data.length + 28 ≤ s.responseLimit who → s.nextRecord who p = a →
      answered (.next who r) 4 a := fun a offset length room is heard => by
    have run := record_next (s := s) (who := who) zero0 zero1 standard offset length 0
    rw [is] at run
    exact ⟨_, rfl, answered_plain can heard (answerOf_plain (.inl (by rw [carried_op r (by decide)]; exact (by decide : (4 : Byte).toNat ≠ 2))) run room)⟩
  have write : ∀ a : Answer, p ≠ P.eventRingEnable → a.data.length + 28 ≤ s.responseLimit who →
      s.writeParam who p r.offset.toNat 0 r.data = (a, s) → answered (.write who r) 2 a := fun a ring room is heard => by
    have run := (record_write (s := s) (who := who) zero0 zero1 (heard.2.2.1 rfl) 0).trans is
    exact ⟨_, rfl, answered_plain can heard (answerOf_plain (.inr ring) run room)⟩
  have bare : ∀ st, ({ status := st } : Answer).data.length + 28 ≤ s.responseLimit who := fun st => by
    show 0 + 28 ≤ _
    omega
  refine ⟨fun no => ⟨read _ (bare _) (readRecord_denied no ..), fun offset length =>
      ⟨describe _ offset length (bare _) (describeRecord_denied no _), next _ offset length (bare _) (nextRecord_denied no _)⟩⟩,
    fun may none' => ⟨read _ (bare _) (readRecord_unknown may none' ..), fun offset length =>
      describe _ offset length (bare _) (describeRecord_unknown may none')⟩,
    fun row may known there => ⟨fun loaded span => ?_, fun offset length =>
      describe _ offset length ?_ (describeRecord_known may known there)⟩,
    fun k may boot found offset length => next _ offset length ?_ (nextRecord_known may boot found),
    fun ring => ⟨fun no => write _ ring (bare _) (writeParam_denied no ..), fun row may known there =>
      ⟨fun access => write _ ring (bare _) (writeParam_readOnly may standard known there access),
        fun ro rs own loaded span => write _ ring (bare _) (writeParam_badSpan may standard known there ro rs own loaded span)⟩⟩,
    fun ic msg answers => ?_, fun silent => ?_, fun mctp ic msg other => ?_⟩
  · intro x room
    exact read _ room (readRecord_known may known there loaded span)
  · show (descriptor p row).length + 28 ≤ _
    rw [length_descriptor]
    omega
  · simp only [List.length_append, length_leBytes]
    omega
  · intro run same
    refine ⟨fun long => ?_, fun out short keeps kept => ?_, fun short fresh => ?_⟩
    · have step := directoryMessageStep_carried s who ic msg
      rw [answerMessage_long answers long] at step
      exact ⟨_, congrArg Host.Outcome.next step, rfl⟩
    · have step := directoryMessageStep_carried s who ic msg
      rw [answerMessage_repeat answers short keeps kept] at step
      have rest := respond_rest s who ic out
      refine ⟨_, congrArg Host.Outcome.next step, respond_out s who ic out, ?_, ?_⟩
      · rw [rest]
        exact ⟨rfl, ⟨rfl, rfl, rfl, rfl⟩, rfl, rfl, rfl⟩
      · rw [rest]
    · have step := directoryMessageStep_carried s who ic msg
      rw [answerMessage_fresh answers short fresh] at step
      refine ⟨fun malformed => ?_, fun stop rs parsed => ?_⟩
      · have message : s.message who none (s.responseLimit who) msg = ([0x01, 0x00, 0x00, 0x00], s) := by
          unfold State.message
          rw [malformed]
        rw [message] at step
        exact ⟨_, congrArg Host.Outcome.next step, (responds_deliver ..).sent, undisturbed_deliver ..⟩
      · obtain ⟨as, ⟨length, _, ordered⟩, out⟩ := runRecords_answers who none stop rs false (s.responseLimit who - 4 - 24 * rs.length) s
        have message : (s.message who none (s.responseLimit who) msg).1
            = [0x01, BitVec.ofNat 8 rs.length, 0x00, 0x00] ++ (as.zip rs).flatMap fun x => x.1.bytes x.2 := by
          unfold State.message
          rw [parsed, ← out]
        refine ⟨_, congrArg Host.Outcome.next step, as, (s.message who none (s.responseLimit who) msg).2.out, length, ordered, ?_⟩
        rw [← message]
        exact (responds_deliver ..).sent
  · have silence := fun ic head msg => answerMessage_unheard (who := who) silent ic head msg
    refine ⟨congrArg Host.Outcome.next (silence ..), congrArg Host.Outcome.next (silence ..), congrArg Host.Outcome.next (silence ..),
      congrArg Host.Outcome.next (silence ..), fun ic msg => congrArg Host.Outcome.next ?_⟩
    unfold directoryMessageStep
    rw [silence, silence]
    split
    · rfl
    · split <;> rfl
  · exact congrArg Host.Outcome.next ((if_neg (not_not_intro mctp)).trans (if_pos other))

end Sys2Proof.Claims

/-! PROOF. The sending and the receiving direction of a stream (R220 to R227): what a packet and a segment that leave write, and
what a packet that arrives does before its stream takes it; with it, a SYNC whose credit counts its own congestion mark. -/

namespace Sys2Proof.StreamLaws

open Sys2Proof.Machine Sys2Proof.Claims Sys2Proof.StoreTileLaws Sys2Proof.RecordLaws Sys2Proof.NetLaws

/-! The two directions of a stream as stores. -/

theorem tx_setTx_same (s : State) (ns : Nat) (x : Tx) : (s.setTx ns x).tx ns = x := Sparse.get_put_same ..

theorem rx_setRx_same (s : State) (ns : Nat) (r : Rx) : (s.setRx ns r).rx ns = r := Sparse.get_put_same ..

theorem tx_congr {s t : State} (h : t.net = s.net) (ns : Nat) : t.tx ns = s.tx ns := congrArg (fun n : Net => Sparse.get txDefault n.tx ns) h

theorem rx_congr {s t : State} (h : t.net = s.net) (ns : Nat) : t.rx ns = s.rx ns := congrArg (fun n : Net => Sparse.get rxDefault n.rx ns) h

/-! What leaves. -/

/-- R216: a packet of a stream only leaves. -/
theorem sendPacket_rest (s : State) (ns q : Nat) (pkt : List Byte) :
    s.sendPacket ns q pkt = { s with out := (s.sendPacket ns q pkt).out } := by
  unfold State.sendPacket
  dsimp only
  split <;> rfl

theorem params_sendPacket (s : State) (ns q : Nat) (pkt : List Byte) : (s.sendPacket ns q pkt).params = s.params :=
  (congrArg State.params (sendPacket_rest ..) :)

theorem net_sendPacket (s : State) (ns q : Nat) (pkt : List Byte) : (s.sendPacket ns q pkt).net = s.net :=
  (congrArg State.net (sendPacket_rest ..) :)

/-- The counters of segments sent. -/
def sendRegs : List Nat := [P.segmentsSent, P.retransmits]

/-- `b` is segment `a` with only its sending noted. -/
def Noted (a b : Seg) : Prop := b = { a with sentAt := b.sentAt, sent := b.sent, lost := b.lost }

theorem Noted.trans {a b c : Seg} (h : Noted a b) (g : Noted b c) : Noted a c :=
  Eq.trans g (congrArg (fun x : Seg => { x with sentAt := c.sentAt, sent := c.sent, lost := c.lost }) h)

/-- What the sending of segments of stream `ns` does: counters, what leaves, and in the sending direction only the notes of when each
segment was sent. -/
structure Sends (ns : Nat) (s t : State) : Prop where
  rest : t = { s with params := t.params, out := t.out, net := { s.net with tx := t.net.tx } }
  only : WritesOnly sendRegs s t
  noted : ∃ f : Seg → Seg, (∀ g, Noted g (f g)) ∧ t.tx ns = { s.tx ns with segs := (s.tx ns).segs.map f }

namespace Sends

variable {ns : Nat} {s t u : State}

theorem refl (ns : Nat) (s : State) : Sends ns s s :=
  ⟨rfl, .of_params _ rfl, id, fun _ => rfl, by rw [List.map_id]⟩

theorem trans (h : Sends ns s t) (g : Sends ns t u) : Sends ns s u := by
  obtain ⟨f, keeps, noted⟩ := h.noted
  obtain ⟨f', keeps', noted'⟩ := g.noted
  refine ⟨by rw [g.rest, h.rest], h.only.trans g.only, f' ∘ f, fun x => ?_, ?_⟩
  · exact (keeps x).trans (keeps' (f x))
  · rw [noted', noted, ← List.map_map]

theorem foldl {α : Type} {f : State → α → State} (hf : ∀ v x, Sends ns v (f v x)) (xs : List α) (s : State) :
    Sends ns s (xs.foldl f s) := by
  induction xs generalizing s with
  | nil => exact refl ns s
  | cons x xs ih => exact (hf s x).trans (ih _)

/-- R221: one segment sent is counted and noted. -/
theorem sendSeg (h : ns < 2 ^ 24) (s : State) (g : Seg) : Sends ns s (s.sendSeg ns g) := by
  unfold State.sendSeg
  extract_lets flags pkt sent resent x
  have counted : WritesOnly sendRegs s sent :=
    .trans (.of_params _ (params_sendPacket ..)) (.bump64 (by decide) h _ 1)
  have again : WritesOnly sendRegs s resent := by
    simp only [resent]
    split
    · exact counted.trans (.bump64 (by decide) h _ 1)
    · exact counted
  have rest : resent = { s with params := resent.params, out := resent.out } := by
    have first : sent = { s with params := sent.params, out := sent.out } := by
      simp only [sent]
      rw [sendPacket_rest]
      rfl
    simp only [resent]
    split
    · rw [first]
      rfl
    · exact first
  have same : x = s.tx ns := tx_congr (congrArg State.net rest :) ns
  refine ⟨?_, again.trans (.of_params _ rfl),
    fun k => if k.seq = g.seq then { k with sentAt := some resent.clock.now, sent := true, lost := false } else k, fun k => ?_, ?_⟩
  · rw [rest]
    rfl
  · dsimp only
    split <;> rfl
  · rw [tx_setTx_same, same]

/-- R221 to R223: what may be sent is sent, with no other effect. -/
theorem pump (h : ns < 2 ^ 24) (s : State) : Sends ns s (s.pump ns) := by
  unfold State.pump
  extract_lets x
  split
  · exact refl ns s
  · exact foldl (fun v g => sendSeg h v g) _ _

section

variable (h : Sends ns s t)

include h

theorem clock : t.clock = s.clock := (congrArg State.clock h.rest :)
theorem seq : t.seq = s.seq := (congrArg State.seq h.rest :)
theorem rx : t.net.rx = s.net.rx := (congrArg (fun u : State => u.net.rx) h.rest :)
theorem frame : StreamFrame s t := by
  rw [h.rest]
  exact ⟨rfl, rfl, rfl, rfl, rfl, rfl, rfl, rfl⟩

end

end Sends

/-! What arrives. -/

/-- A check that discards a packet has not done so where its stream takes it. -/
theorem passes_check {c : Prop} [Decidable c] {a u : State} {h : Header} {b : Option Header × State}
    (takes : (if c then (none, a) else b) = (some h, u)) : b = (some h, u) := by
  split at takes
  · exact nomatch (Prod.mk.inj takes).1
  · exact takes

/-- R224: a packet that its stream takes has at most marked congestion, and names one of the 4096 streams. -/
theorem receive_reads {s u : State} {p cls : Nat} {ce : Bool} {pkt : List Byte} {h : Header}
    (takes : s.receive p cls ce pkt = (some h, u)) :
    h.stream < 4096 ∧ u = { s with params := u.params } ∧ WritesOnly [P.congestionMarks] s u := by
  have small : (parseHeader pkt).stream < 4096 := Nat.mod_lt _ (by decide)
  unfold State.receive at takes
  extract_lets x e v at takes
  have marked : v = { s with params := v.params } ∧ WritesOnly [P.congestionMarks] s v := by
    simp only [v]
    split
    · exact ⟨rfl, .bump64 (by decide) (Nat.lt_trans small (by decide)) s 1⟩
    · exact ⟨rfl, .of_params _ rfl⟩
  have checked := passes_check (passes_check (passes_check (passes_check takes)))
  obtain ⟨named, state⟩ := Prod.mk.inj (passes_check (passes_check (passes_check checked)))
  obtain rfl : x = h := Option.some.inj named
  obtain rfl : v = u := state
  exact ⟨small, marked⟩

end Sys2Proof.StreamLaws

namespace Sys2Proof.StreamLaws

open Sys2Proof.Machine

/-- R227: after SYNC the limit is the packet's Seq and the credit as it stands when the packet has been taken. -/
theorem limit_syncStep {s u : State} {p : Nat} {ce : Bool} {pkt : List Byte} {h : Header} (takes : s.receive p 2 ce pkt = (some h, u))
    (kind : syncKind h = 0) : ((syncStep s p ce pkt).rx h.stream).limit = h.seq + u.creditOf h.stream := by
  unfold syncStep
  rw [takes]
  dsimp only
  rw [if_neg (not_not.2 kind), rx_congr (net_sendPacket ..)]
  exact congrArg Rx.limit (rx_setRx_same ..)

end Sys2Proof.StreamLaws

/-! A collective that names a group beyond the group table reads, as that group, the count of congestion marks of stream 9: with the
first mark the group has its first member, which is stream 9. -/

namespace Sys2Proof.StreamLaws

open Sys2Proof.Machine Sys2Proof.Claims

/-- A collective of the group whose element of the group table is the congestion marks of stream 9. -/
def strayColl : Coll :=
  { key := 0, slot := 0, flight := 0, group := (P.congestionMarks - P.groupTable) * 2 ^ 24 + 9, step := 0, inst := 0, kind := 0, len := 0
    dest := 0, size := 0, rank := 0, source := [], issued := 0 }

/-- Port 3 is up, stream 9 used and the first member of the member table, and the stray collective in flight. -/
def strayState : State :=
  let s := ((State.reset.setReg P.linkState 3 3).setReg P.streamTable 9 1).setReg P.memberTable 0 9
  { s with net := { s.net with colls := [strayColl] } }

/-- A SYNC of stream 9. -/
def straySync : List Byte := netPacket 2 0 9 5 3 2 0 0 [0]

/-- What the check of its arrival leaves. -/
def strayMarked : State := (strayState.receive 3 2 true straySync).2

/-- The SYNC goes on to stream 9. -/
theorem straySync_taken : strayState.receive 3 2 true straySync = (some (parseHeader straySync), strayMarked) := by
  have header : (strayState.receive 3 2 true straySync).1 = some (parseHeader straySync) := by decide +kernel
  exact (Prod.eta _).symm.trans (congrArg (·, strayMarked) header)

theorem creditOf_strayState : strayState.creditOf 9 = 0 + (Config.heldCredit 9).toNat := by
  refine congrArg (· + (Config.heldCredit 9).toNat) ?_
  decide +kernel

theorem creditOf_strayMarked : strayMarked.creditOf 9 = 18 + (Config.heldCredit 9).toNat := by
  refine congrArg (· + (Config.heldCredit 9).toNat) ?_
  decide +kernel

end Sys2Proof.StreamLaws

namespace Sys2Proof.Claims

open Sys2Proof.Machine Sys2Proof.StreamLaws

/-- Refutes O43: the credit of a SYNC that arrives with a congestion mark counts that mark, where a collective names a group beyond the
group table. -/
theorem not_streamsRestartWithSync : ¬ Obligations.StreamsRestartWithSync := by
  unfold Obligations.StreamsRestartWithSync
  intro claim
  have canonical : Canonical strayState := by
    unfold Canonical
    decide +kernel
  have kind : syncKind (parseHeader straySync) = 0 := by decide +kernel
  have stream : (parseHeader straySync).stream = 9 := by decide +kernel
  obtain ⟨t, run, restarted, -⟩ := (claim.1 strayState _ 3 true straySync _ canonical straySync_taken).1 kind
  have result : syncStep strayState 3 true straySync = t := Host.Outcome.next.inj run
  have granted : (t.rx 9).limit = (parseHeader straySync).seq + strayMarked.creditOf 9 := by
    rw [← result, ← stream]
    exact limit_syncStep straySync_taken kind
  rw [stream] at restarted
  rw [restarted, creditOf_strayState, creditOf_strayMarked] at granted
  dsimp only at granted
  omega

end Sys2Proof.Claims

/-! PROOF. Ports (R213, R214, R223): a port that comes up lets every sending direction of the store send, one beyond the stream table
too, whose count of segments is another register. -/

namespace Sys2Proof.StreamLaws

open Sys2Proof.Machine Sys2Proof.Claims

/-- A stream number beyond the stream table. -/
def strayStream : Nat := 3 * 2 ^ 24

/-- A direction with one segment to send. -/
def strayTx : Tx :=
  { synced := true, limit := 5, segs := [{ seq := 0, msg := 0, step := 0, ix := 0, first := true, last := true, payload := [] }] }

/-- Port 4 is formed, fed and in training, and the stray direction lists it. -/
def strayPorts : State :=
  let s := (State.reset.setReg P.linkState 4 2).setReg P.streamTable strayStream (2 ^ 68)
  { s.setTx strayStream strayTx with supply := { s.supply with refGood := true } }

end Sys2Proof.StreamLaws

namespace Sys2Proof.Claims

open Sys2Proof.Machine Sys2Proof.StreamLaws

/-- Refutes O44: the segment of a stream number beyond the stream table, sent when a port comes up, is counted in a register that is
neither SegmentsSent nor Retransmits. -/
theorem not_portsFollowTheirLinksAndDiscardBadFrames : ¬ Obligations.PortsFollowTheirLinksAndDiscardBadFrames := by
  unfold Obligations.PortsFollowTheirLinksAndDiscardBadFrames
  intro claim
  have canonical : Canonical strayPorts := by
    unfold Canonical
    decide +kernel
  obtain ⟨formed, trains, fed, clocked⟩ : portFormed strayPorts.portMapIn 4 = true ∧ strayPorts.reg P.linkState 4 = 2
      ∧ strayPorts.portFed 4 = true ∧ strayPorts.supply.refGood = true := by decide +kernel
  obtain ⟨t, run, -, -, only, -⟩ := (claim strayPorts 4 canonical).2.1 formed (.inr trains) fed clocked
  have result : portUpStep strayPorts 4 = t := Host.Outcome.next.inj run
  have counted : (portUpStep strayPorts 4).reg (P.segmentsSent + 3) 0 ≠ strayPorts.reg (P.segmentsSent + 3) 0 := by decide +kernel
  exact counted (result ▸ only (P.segmentsSent + 3) 0 (by decide) (by decide))

end Sys2Proof.Claims

/-! PROOF. Acknowledgements and the timers of a stream (R220 to R223). -/

namespace Sys2Proof.StreamLaws

open Sys2Proof.Machine Sys2Proof.Claims Sys2Proof.StoreTileLaws Sys2Proof.RecordLaws

/-! The NSENDs that an acknowledgement makes ready. -/

/-- R226: an acknowledgement of a message's last segment changes the dies alone. -/
theorem nsendAcked_rest (s : State) (ns msg : Nat) :
    s.nsendAcked ns msg = { s with seq := { s.seq with dies := (s.nsendAcked ns msg).seq.dies } } := by
  unfold State.nsendAcked
  refine List.foldlRecOn (List.range 64) _ (motive := fun t : State => t = { s with seq := { s.seq with dies := t.seq.dies } }) rfl ?_
  intro t rest sl _
  dsimp only
  split
  · rw [rest]
    rfl
  · exact rest

theorem foldl_nsendAcked_rest (gs : List Seg) (ns : Nat) (s : State) :
    gs.foldl (fun s g => s.nsendAcked ns g.msg) s
      = { s with seq := { s.seq with dies := (gs.foldl (fun s g => s.nsendAcked ns g.msg) s).seq.dies } } := by
  refine List.foldlRecOn gs _ (motive := fun t : State => t = { s with seq := { s.seq with dies := t.seq.dies } }) rfl ?_
  intro t rest g _
  rw [nsendAcked_rest, rest]

/-! ACK. -/

/-- R222: a window cut by half of its half is no larger than it was, or is 4. -/
theorem cut_le (w : Nat) : max (4 * 2 ^ 32) (w * 3 / 4 / 2 ^ 32 * 2 ^ 32) ≤ max w (4 * 2 ^ 32) := by
  have kept : w * 3 / 4 / 2 ^ 32 * 2 ^ 32 ≤ w * 3 / 4 := Nat.div_mul_le_self ..
  omega

/-- `y` holds what stream direction `x` holds once everything below `cum` is acknowledged: each segment from `cum` on, and below it
those of messages of which some segment is not acknowledged. -/
structure Advanced (x y : Tx) (cum : Nat) : Prop where
  below : ∀ g ∈ y.segs, g.seq < cum → ∃ k ∈ y.segs, k.msg = g.msg ∧ k.acked = false
  beyond : ∀ g ∈ x.segs, cum ≤ g.seq → ∃ k ∈ y.segs, k.seq = g.seq ∧ k.msg = g.msg ∧ k.payload = g.payload

/-- Segments with other marks, less those below `cum` of messages that are acknowledged whole. -/
theorem advanced_of_marks {x y z : Tx} {cum : Nat} {f : Seg → Seg} (marks : ∀ g, (f g).seq = g.seq ∧ (f g).msg = g.msg ∧ (f g).payload = g.payload)
    (marked : z.segs = x.segs.map f) (left : y.segs = z.segs.filter fun g => !(decide (g.seq < cum) && z.whole g.msg)) : Advanced x y cum := by
  refine ⟨fun g hg small => ?_, fun g hg large => ?_⟩
  · rw [left] at hg ⊢
    obtain ⟨mem, stays⟩ := List.mem_filter.1 hg
    have partly : z.whole g.msg = false := by
      rw [decide_eq_true small, Bool.true_and] at stays
      exact Bool.not_eq_true' _ ▸ stays
    obtain ⟨k, hk, misses⟩ := List.all_eq_false.1 partly
    obtain ⟨same, unacked⟩ : k.msg = g.msg ∧ k.acked = false := by simpa using misses
    refine ⟨k, List.mem_filter.2 ⟨hk, ?_⟩, same, unacked⟩
    rw [same, partly, Bool.and_false]
    rfl
  · obtain ⟨seq, msg, payload⟩ := marks g
    rw [left, marked]
    refine ⟨f g, List.mem_filter.2 ⟨List.mem_map_of_mem hg, ?_⟩, seq, msg, payload⟩
    rw [decide_eq_false (by omega), Bool.false_and]
    rfl

/-- What is sent later changes none of it. -/
theorem Advanced.noted {x y z : Tx} {cum : Nat} {f : Seg → Seg} (h : Advanced x y cum) (notes : ∀ g, Noted g (f g))
    (segs : z.segs = y.segs.map f) : Advanced x z cum := by
  have same : ∀ g, (f g).seq = g.seq ∧ (f g).msg = g.msg ∧ (f g).payload = g.payload ∧ (f g).acked = g.acked := fun g => by
    rw [notes g]
    exact ⟨rfl, rfl, rfl, rfl⟩
  refine ⟨fun g hg small => ?_, fun g hg large => ?_⟩
  · rw [segs] at hg ⊢
    obtain ⟨j, hj, rfl⟩ := List.mem_map.1 hg
    obtain ⟨seq, msg, -, -⟩ := same j
    obtain ⟨k, hk, about, unacked⟩ := h.below j hj (seq ▸ small)
    obtain ⟨-, kmsg, -, kacked⟩ := same k
    exact ⟨f k, List.mem_map_of_mem hk, kmsg.trans (about.trans msg.symm), kacked.trans unacked⟩
  · obtain ⟨k, hk, seq, msg, payload⟩ := h.beyond g hg large
    obtain ⟨kseq, kmsg, kpayload, -⟩ := same k
    exact ⟨f k, segs ▸ List.mem_map_of_mem hk, kseq.trans seq, kmsg.trans msg, kpayload.trans payload⟩

/-- R220 to R222: an acknowledgement of a synchronised stream. -/
theorem ackStep_reads {s u : State} {p : Nat} {ce : Bool} {pkt : List Byte} {h : Header} (takes : s.receive p 1 ce pkt = (some h, u)) :
    let x := s.tx h.stream
    let cum := unwrap32 x.cum (beField h.payload 0 4)
    let t := ackStep s p ce pkt
    x.synced = true → cum ≤ x.seq → (t.tx h.stream).cum = cum ∧ (t.tx h.stream).limit = cum + beField h.payload 4 4
      ∧ (t.tx h.stream).seq = x.seq ∧ (t.tx h.stream).msg = x.msg ∧ Advanced x (t.tx h.stream) cum
      ∧ (bit h.flags 3 = true → (t.tx h.stream).win ≤ max x.win (4 * 2 ^ 32))
      ∧ StreamFrame s t ∧ t.net.rx = s.net.rx ∧ t.clock = s.clock := by
  intro x cum t synced inside
  obtain ⟨small, rest, -⟩ := receive_reads takes
  have bound : h.stream < 2 ^ 24 := Nat.lt_trans small (by decide)
  have same : u.tx h.stream = x := tx_congr (congrArg State.net rest :) _
  have run : t = ackStep s p ce pkt := rfl
  unfold ackStep at run
  rw [takes] at run
  dsimp -zeta only at run
  extract_lets ns x' pl cum' credit n ranges hit fresh k segs ece w top cut w' down later missing all y v alarmed at run
  have same' : x' = x := same
  have cums : cum' = cum := congrArg (fun x : Tx => unwrap32 x.cum (beField h.payload 0 4)) same
  rw [if_neg (by rw [same', cums, synced, decide_eq_false (Nat.not_lt.2 inside)]; decide)] at run
  have marked : Records (P.streamState :: eventRegs) v alarmed := by
    refine .ite ?_ (.refl _ _)
    exact (Records.setReg (List.mem_cons_self ..) bound v 2).trans (.raiseEvent (List.subset_cons_self ..) (by decide) _ _ _ _ _)
  have ready := foldl_nsendAcked_rest (fresh.filter (·.last)) ns alarmed
  generalize (fresh.filter (·.last)).foldl (fun s g => s.nsendAcked ns g.msg) alarmed = w₁ at run ready
  have sends := Sends.pump bound w₁
  obtain ⟨f, notes, noted⟩ := sends.noted
  have before : w₁.tx h.stream = y := by
    have first : alarmed.tx h.stream = y := (tx_congr (congrArg State.net marked.rest :) _).trans (tx_setTx_same ..)
    exact (tx_congr (congrArg State.net ready :) _).trans first
  rw [before] at noted
  have stays : w₁ = { s with params := w₁.params, log := w₁.log, net := { s.net with tx := w₁.net.tx }, seq := w₁.seq } := by
    rw [ready, marked.rest]
    simp only [v]
    rw [rest]
    rfl
  have advanced : Advanced x y cum := by
    have twice : all.segs = List.map _ x'.segs := List.map_map
    rw [same'] at twice
    refine advanced_of_marks (fun g => ?_) twice (cums ▸ rfl)
    dsimp only [Function.comp_apply]
    split <;> split <;> exact ⟨rfl, rfl, rfl⟩
  have frame : StreamFrame s w₁ ∧ w₁.net.rx = s.net.rx ∧ w₁.clock = s.clock := by
    rw [stays]
    exact ⟨⟨rfl, rfl, rfl, rfl, rfl, rfl, rfl, rfl⟩, rfl, rfl⟩
  obtain ⟨⟨mem, flash, upd, host, held, pending, colls, ptp⟩, rx, clock⟩ := frame
  obtain ⟨mem', flash', upd', host', held', pending', colls', ptp'⟩ := sends.frame
  rw [run, noted]
  refine ⟨cums, congrArg (· + beField h.payload 4 4) cums, (congrArg Tx.seq same' :), (congrArg Tx.msg same' :), advanced.noted notes rfl, ?_,
    ⟨mem'.trans mem, flash'.trans flash, upd'.trans upd, host'.trans host, held'.trans held, pending'.trans pending, colls'.trans colls,
      ptp'.trans ptp⟩, sends.rx.trans rx, sends.clock.trans clock⟩
  intro marks
  show w' ≤ max x.win (4 * 2 ^ 32)
  have width : w = x.win := congrArg Tx.win same'
  have echo : ece = true := marks
  rw [← width]
  simp only [w', echo, if_true]
  split
  · exact cut_le w
  · exact Nat.le_max_left ..

/-! The timers. -/

section

variable {F : Option Nat → Nat → Option Nat} {t0 : Nat} (start : ∀ x, F none x = some x) (next : ∀ y x, F (some y) x = some (min x y))

include start next

/-- A fold that keeps the smaller value finds the least one. -/
theorem foldl_least (xs : List Nat) (m : Option Nat) (has : m = some t0 ∨ t0 ∈ xs) (above : ∀ y, m = some y → t0 ≤ y)
    (least : ∀ x ∈ xs, t0 ≤ x) : xs.foldl F m = some t0 := by
  induction xs generalizing m with
  | nil => exact has.resolve_right List.not_mem_nil
  | cons x xs ih =>
    have small := least x (List.mem_cons_self ..)
    have rest := fun y hy => least y (List.mem_cons_of_mem x hy)
    rw [List.foldl_cons]
    cases m with
    | none =>
      rw [start]
      refine ih _ ?_ (fun y same => Option.some.inj same ▸ small) rest
      exact (List.mem_cons.1 (has.resolve_left nofun)).imp_left fun same => congrArg some same.symm
    | some y =>
      have here := above y rfl
      rw [next]
      refine ih _ ?_ (fun z same => Option.some.inj same ▸ Nat.le_min.2 ⟨small, here⟩) rest
      rcases has with same | mem
      · exact .inl (congrArg some ((Nat.min_eq_right (Option.some.inj same ▸ small)).trans (Option.some.inj same)))
      · rcases List.mem_cons.1 mem with rfl | later
        · exact .inl (congrArg some (Nat.min_eq_left here))
        · exact .inr later

end

/-- R220: the timer opens the credit and leaves nothing waiting. -/
theorem ackDelayStep_reads {s : State} {ns : Nat} (waits : (s.rx ns).since ≠ 0) :
    let t := ackDelayStep s ns
    t.clock.now = max s.clock.now ((s.rx ns).firstAt + 36000)
      ∧ t.rx ns = { s.rx ns with since := 0, ece := false, limit := max (s.rx ns).limit ((s.rx ns).cum + s.creditOf ns) }
      ∧ t.params = s.params ∧ t.net.tx = s.net.tx ∧ t.seq = s.seq ∧ StreamFrame s t := by
  intro t
  have run : t = (s.reach ((s.rx ns).firstAt + 4 * usRoot)).sendAck ns := if_neg waits
  rw [run]
  unfold State.sendAck
  extract_lets r credit rs payload pkt
  generalize pkt = pkt
  refine ⟨?_, ?_, params_sendPacket .., ?_, ?_, ?_⟩
  · rw [sendPacket_rest]
    rfl
  · exact (rx_congr (net_sendPacket ..) ns).trans (rx_setRx_same ..)
  · rw [net_sendPacket]
    rfl
  · rw [sendPacket_rest]
    rfl
  · rw [sendPacket_rest]
    exact ⟨rfl, rfl, rfl, rfl, rfl, rfl, rfl, rfl⟩

/-- R221 to R223: the timeout of the oldest segment in flight. -/
theorem retxStep_reads {s : State} {ns t0 : Nat} (can : Canonical s) (bound : ns < 2 ^ 24)
    (oldest : ∃ g ∈ (s.tx ns).segs, g.sentAt = some t0 ∧ g.sent = true ∧ g.acked = false)
    (least : ∀ g ∈ (s.tx ns).segs, ∀ t1, g.sent = true → g.acked = false → g.sentAt = some t1 → t0 ≤ t1) :
    let x := s.tx ns
    let limit := if s.reg P.streamState ns = 3 then 1000 else if x.timeout = 0 then s.val P.retxTimeout else x.timeout
    let t := retxStep s ns
    t.clock.now = max s.clock.now (t0 + limit * 9000)
      ∧ (t.tx ns).losses = x.losses + 1 ∧ (t.tx ns).timeout = max limit (min 1000 (2 * limit)) ∧ (t.tx ns).win = 4 * 2 ^ 32
      ∧ (t.tx ns).cum = x.cum ∧ (t.tx ns).limit = x.limit ∧ t.reg P.timeouts ns = inc32 (s.reg P.timeouts ns)
      ∧ (s.val P.retxAlarm ≤ x.losses + 1 → t.reg P.streamState ns = 3)
      ∧ StreamFrame s t ∧ t.net.rx = s.net.rx ∧ t.seq = s.seq := by
  intro x limit t
  have run : t = retxStep s ns := rfl
  unfold retxStep at run
  extract_lets flying down limit' n at run
  have member : t0 ∈ flying.filterMap (·.sentAt) := by
    obtain ⟨g, hg, at0, sent, open'⟩ := oldest
    exact List.mem_filterMap.2 ⟨g, List.mem_filter.2 ⟨hg, by rw [sent, open']; rfl⟩, at0⟩
  have below : ∀ t1 ∈ flying.filterMap (·.sentAt), t0 ≤ t1 := fun t1 ht => by
    obtain ⟨g, hg, at1⟩ := List.mem_filterMap.1 ht
    obtain ⟨mem, flies⟩ := List.mem_filter.1 hg
    obtain ⟨sent, open'⟩ : g.sent = true ∧ g.acked = false := by simpa using flies
    exact least g mem t1 sent open' at1
  split at run
  case h_1 no => exact absurd (no.symm.trans (foldl_least (fun _ => rfl) (fun _ _ => rfl) _ none (.inr member) nofun below)) nofun
  case h_2 t1 found =>
  obtain rfl : t1 = t0 :=
    Option.some.inj (found.symm.trans (foldl_least (fun _ => rfl) (fun _ _ => rfl) _ none (.inr member) nofun below))
  have same : limit' = limit := by
    simp only [limit', limit, down, decide_eq_true_eq]
  extract_lets r now late y sent at run
  clear_value late
  have direction : y.tx ns = { x with losses := n, timeout := max limit' (min 1000 (2 * limit')), win := 4 * 2 ^ 32, segs := y.tx ns |>.segs } := by
    rw [tx_setTx_same]
  have sends : Sends ns y sent := .pump bound y
  obtain ⟨f, -, noted⟩ := sends.noted
  rw [direction] at noted
  have counts : WritesOnly [P.timeouts] s y :=
    .trans (.trans (t := r) (.of_params _ rfl) (.setReg (p := P.timeouts) (List.mem_singleton_self _) bound r _)) (.of_params _ rfl)
  have told : Records (P.streamState :: eventRegs) sent t := by
    rw [run]
    refine .ite ?_ (.refl _ _)
    exact (Records.setReg (List.mem_cons_self ..) bound sent 3).trans (.raiseEvent (List.subset_cons_self ..) (by decide) _ _ _ _ _)
  have wfY := counts.wf can.1
  have wfS := sends.only.wf wfY
  have kept : ∀ q e, e < 2 ^ 24 → q ∉ P.timeouts :: sendRegs → sent.reg q e = s.reg q e := fun q e he hq =>
    (sends.only.regs wfY q e he fun h => hq (List.mem_cons_of_mem _ h)).trans
      (counts.regs can.1 q e he fun h => hq (List.mem_singleton.1 h ▸ List.mem_cons_self ..))
  have alarm : s.val P.retxAlarm ≤ n → t.reg P.streamState ns = 3 := fun many => by
    have level : sent.val P.retxAlarm = s.val P.retxAlarm := kept _ _ (by decide) (by decide)
    by_cases isDown : down = true
    · rw [run, if_neg (fun both => both.2 isDown), kept _ _ bound (by decide)]
      exact of_decide_eq_true isDown
    · rw [run, if_pos ⟨level ▸ many, isDown⟩]
      exact ((Records.raiseEvent (ps := eventRegs) (fun _ h => h) (by decide) _ _ _ _ _).only.regs (Sparse.wf_put _ _ wfS) _ _ bound (by decide)).trans
        (State.reg_setReg_same ..)
  have direction' : t.tx ns = sent.tx ns := tx_congr (congrArg State.net told.rest :) ns
  obtain ⟨mem, flash, upd, host, held, pending, colls, ptp⟩ := sends.frame
  rw [direction', noted, ← same]
  refine ⟨?_, rfl, rfl, rfl, rfl, rfl, ?_, alarm, ?_, ?_, ?_⟩
  · rw [told.clock, sends.clock]
    rfl
  · exact (told.only.regs wfS _ _ bound (by decide)).trans ((sends.only.regs wfY _ _ bound (by decide)).trans (State.reg_setReg_same ..))
  · rw [told.rest]
    exact ⟨mem, flash, upd, host, held, pending, colls, ptp⟩
  · rw [told.rest]
    exact sends.rx
  · rw [told.rest]
    exact sends.seq

end Sys2Proof.StreamLaws

namespace Sys2Proof.Claims

open Sys2Proof.Machine Sys2Proof.StreamLaws

/-- Settles O42: an acknowledgement replaces the segments by those it leaves, what is sent later changes only when each was sent, and
both timers write the direction once. -/
theorem acknowledgementsMoveWindowAndCredit : Obligations.AcknowledgementsMoveWindowAndCredit := by
  unfold Obligations.AcknowledgementsMoveWindowAndCredit
  refine ⟨fun s u p ce pkt h can takes => ⟨fun ignored => congrArg Host.Outcome.next ?_, fun synced inside => ?_⟩,
    fun s ns can waits => ⟨_, rfl, ackDelayStep_reads waits⟩,
    fun s ns t0 can oldest least => ⟨_, rfl, retxStep_reads can (Nat.lt_trans ns.isLt (by decide)) oldest least⟩⟩
  · obtain ⟨-, rest, -⟩ := receive_reads takes
    have same : u.tx h.stream = s.tx h.stream := tx_congr (congrArg State.net rest :) _
    unfold ackStep
    rw [takes]
    dsimp only
    rw [if_pos]
    rw [same]
    rcases ignored with unsynced | beyond
    · rw [unsynced, Bool.not_false, Bool.or_true]
    · rw [decide_eq_true (p := (s.tx h.stream).seq < _) beyond, Bool.true_or]
  · obtain ⟨cum, limit, seq, msg, advanced, win, frame⟩ := ackStep_reads takes synced inside
    exact ⟨_, rfl, cum, limit, seq, msg, advanced.below, advanced.beyond, win, frame⟩

end Sys2Proof.Claims

/-! PROOF. Panel time as a PTP ordinary clock (R233 to R235): the time states, the servo, and the messages of both roles. -/

namespace Sys2Proof.PtpLaws

open Sys2Proof.Machine Sys2Proof.Claims Sys2Proof.StoreTileLaws Sys2Proof.RecordLaws

/-! The time states. -/

/-- What a change of the time state writes. -/
def stateRegs : List Nat := P.timeState :: eventRegs

/-- R234: a time state is entered once, with its event. -/
theorem setTimeState_reads {s : State} (wf : Sparse.wf paramDefault s.params = true) (v : Nat) :
    Records stateRegs s (s.setTimeState v) ∧ (s.setTimeState v).val P.timeState = v := by
  unfold State.setTimeState
  extract_lets old
  split
  next same => exact ⟨.refl .., same⟩
  next =>
    have event := Records.raiseEvent (ps := eventRegs) (List.Subset.refl _) (by decide) (s.setVal P.timeState v) 0x01 srcModule v old (cls := 4)
    exact ⟨.trans (.setVal (List.mem_cons_self ..) s v) (event.mono (List.subset_cons_self ..)),
      (event.only.regs (Sparse.wf_put _ _ wf) _ _ (by decide) (by decide)).trans (State.val_setVal_same ..)⟩

/-! What a Sync does to the clock. -/

/-- `t` is `s` with the time state, events, panel time and draws. -/
structure Disciplines (s t : State) : Prop where
  rest : t = { s with params := t.params, log := t.log, clock := t.clock, draws := t.draws }
  now : t.clock.now = s.clock.now
  only : WritesOnly stateRegs s t

namespace Disciplines

variable {s t u : State}

theorem of_records (r : Records stateRegs s t) : Disciplines s t :=
  ⟨by rw [r.rest], congrArg Clock.now r.clock, r.only⟩

theorem trans (h : Disciplines s t) (g : Disciplines t u) : Disciplines s u :=
  ⟨by rw [g.rest, h.rest], g.now.trans h.now, h.only.trans g.only⟩

theorem stepTime (s : State) (d : Int) : Disciplines s (s.stepTime d) := ⟨rfl, rfl, .of_params _ rfl⟩

theorem servo (s : State) : Disciplines s s.servo := ⟨rfl, rfl, .of_params _ rfl⟩

end Disciplines

/-- R234: the servo's increment is within 500 ppm of nominal. -/
theorem inc_servo (s : State) : nominalInc - servoRange ≤ s.servo.clock.inc ∧ s.servo.clock.inc ≤ nominalInc + servoRange := by
  have within : ∀ n, n % (2 * servoRange + 1) < 2 * servoRange + 1 := fun n => Nat.mod_lt _ (by decide)
  have bound := within (Config.freeServo s.draws).toNat
  have value : s.servo.clock.inc = nominalInc - servoRange + (Config.freeServo s.draws).toNat % (2 * servoRange + 1) := rfl
  have small : servoRange ≤ nominalInc := by decide
  omega

/-- R234: the state in which a Sync is judged: FREE goes to ACQUIRING, HOLDOVER to LOCKED. -/
def judged (s : State) : State :=
  if s.val P.timeState = 0 then s.setTimeState 1 else if s.val P.timeState = 3 then s.setTimeState 2 else s

theorem judged_reads {s : State} (wf : Sparse.wf paramDefault s.params = true) :
    Records stateRegs s (judged s) ∧ (judged s).val P.timeState
      = if s.val P.timeState = 0 then 1 else if s.val P.timeState = 3 then 2 else s.val P.timeState := by
  unfold judged
  split
  · exact setTimeState_reads wf 1
  · split
    · exact setTimeState_reads wf 2
    · exact ⟨.refl .., rfl⟩

/-- R234: while ACQUIRING, an offset beyond 1 µs steps the time, and the sixteenth of those below 20 ns in a row locks. -/
def acquire (s : State) (off : Int) (good : Nat) : Nat × State :=
  if s.val P.timeState == 1 then
    if off > 4000 ∨ off < -4000 then (0, s.stepTime (-off))
    else
      let g := if off < 80 ∧ off > -80 then good + 1 else 0
      (g, if g ≥ 16 then s.setTimeState 2 else s)
  else (good, s)

theorem acquire_disciplines {s : State} (wf : Sparse.wf paramDefault s.params = true) (off : Int) (good : Nat) :
    Disciplines s (acquire s off good).2 := by
  have refl : Disciplines s s := ⟨rfl, rfl, .of_params _ rfl⟩
  unfold acquire
  split
  · split
    · exact .stepTime s _
    · dsimp only
      split
      · split
        · exact .of_records (setTimeState_reads wf 2).1
        · exact refl
      · split
        · exact .of_records (setTimeState_reads wf 2).1
        · exact refl
  · exact refl

/-- LOCKED stays LOCKED. -/
theorem acquire_locked {s : State} (locked : s.val P.timeState = 2) (off : Int) (good : Nat) : acquire s off good = (good, s) :=
  if_neg (by rw [locked]; decide)

/-- A large offset begins anew. -/
theorem acquire_large {s : State} (acquiring : s.val P.timeState = 1) {off : Int} (large : 4000 < off ∨ off < -4000) (good : Nat) :
    acquire s off good = (0, s.stepTime (-off)) := by
  unfold acquire
  rw [if_pos (by rw [acquiring]; rfl), if_pos large]

/-- A small offset counts. -/
theorem acquire_small {s : State} (acquiring : s.val P.timeState = 1) {off : Int} (low : -80 < off) (high : off < 80) (good : Nat) :
    acquire s off good = (good + 1, if 16 ≤ good + 1 then s.setTimeState 2 else s) := by
  unfold acquire
  rw [if_pos (by rw [acquiring]; rfl), if_neg (by omega)]
  dsimp only
  rw [if_pos ⟨high, low⟩]

/-- The state that a Sync leaves, before its Delay_Req. -/
def disciplined (s : State) (off : Int) : State := (acquire (judged (s.setVal P.timeOffset (offsetNs off))) off s.net.ptp.good).2.servo

/-- R233, R234: a Sync disciplines the clock, and its Delay_Req leaves. -/
theorem syncDone_eq (s : State) (t1 t2 : Int) : let off := t2 - t1 - s.net.ptp.delay
    let v := disciplined s off
    s.syncDone t1 t2 = { v with net := { v.net with ptp :=
      { s.net.ptp with twoStep := none, syncPair := some (t1, t2), delayReq := some (s.net.ptp.reqSeq, v.stampNow)
                       reqSeq := (s.net.ptp.reqSeq + 1) % 65536
                       good := (acquire (judged (s.setVal P.timeOffset (offsetNs off))) off s.net.ptp.good).1
                       lastSync := v.clock.now } } }.sendPtp (v.addrOf P.ptpMaster) (.delayReq s.net.ptp.reqSeq v.stampNow) := rfl

/-- R233, R234: what a Sync leaves. -/
theorem synced_syncDone {s : State} (can : Canonical s) (port : s.val P.ptpPort < 48) (t1 t2 : Int) :
    Synced s (s.syncDone t1 t2) t1 t2 ∧ (s.syncDone t1 t2).net.ptp.twoStep = none := by
  have shape := syncDone_eq s t1 t2
  dsimp only at shape
  rw [shape]
  unfold Synced
  generalize hoff : t2 - t1 - s.net.ptp.delay = off
  let s0 := s.setVal P.timeOffset (offsetNs off)
  have wf0 : Sparse.wf paramDefault s0.params = true := Sparse.wf_put _ _ can.1
  have set : Records [P.timeOffset] s s0 := .setVal (by decide) s _
  obtain ⟨judges, state⟩ := judged_reads wf0
  have wf1 := judges.only.wf wf0
  have state0 : s0.val P.timeState = s.val P.timeState := set.only.regs can.1 _ _ (by decide) (by decide)
  rw [state0] at state
  have rest : Disciplines s0 (disciplined s off) := ((Disciplines.of_records judges).trans (acquire_disciplines wf1 off _)).trans (.servo _)
  have final : (disciplined s off).val P.timeState = (acquire (judged s0) off s.net.ptp.good).2.val P.timeState := rfl
  have inc := inc_servo (acquire (judged s0) off s.net.ptp.good).2
  have offset : (disciplined s off).val P.timeOffset = offsetNs off :=
    (rest.only.regs wf0 _ _ (by decide) (by decide)).trans (State.val_setVal_same ..)
  have shift : acquire (judged (s.setVal P.timeOffset (offsetNs off))) off s.net.ptp.good = acquire (judged s0) off s.net.ptp.good := rfl
  rw [shift]
  have incs : nominalInc - servoRange ≤ (disciplined s off).clock.inc ∧ (disciplined s off).clock.inc ≤ nominalInc + servoRange := inc
  generalize disciplined s off = v at *
  have only : OnlyRegs ([P.timeOffset, P.timeState] ++ eventRegs) s v := fun q e he hq =>
    (rest.only.regs wf0 q e he fun h => hq (List.mem_cons_of_mem _ h)).trans
      (set.only.regs can.1 q e he fun h => hq (List.mem_singleton.1 h ▸ List.mem_cons_self ..))
  have same : ∀ q, q ∉ [P.timeOffset, P.timeState] ++ eventRegs → v.val q = s.val q := fun q => only q 0 (by decide)
  have now : v.clock.now = s.clock.now := rest.now
  have link : v.dataLink (v.val P.ptpPort) = s.dataLink (s.val P.ptpPort) := by
    unfold State.dataLink
    rw [same P.ptpPort (by decide), same P.macBase (by decide), only P.nextHop _ (Nat.lt_trans port (by decide)) (by decide)]
  have addr : ∀ q, q ∉ [P.timeOffset, P.timeState] ++ eventRegs → v.addrOf q = s.addrOf q := fun q hq =>
    congrArg (fun n => beNat (leBytes 16 n)) (same q hq)
  refine ⟨⟨offset, rfl, now, ⟨v.stampNow, rfl, ?_⟩, rfl, now, incs.1, incs.2, ?_, ?_, only, ?_, ?_⟩, rfl⟩
  · have sent : v.out = s.out := (congrArg State.out rest.rest :)
    show Emission.ptp (v.dataLink (v.val P.ptpPort)) (v.addrOf P.moduleAddress) (v.addrOf P.ptpMaster) 319 (v.val P.ptpDomain) _ :: v.out = _
    rw [link, addr _ (by decide), addr _ (by decide), same P.ptpDomain (by decide), sent]
  · intro locks
    have locked : (judged s0).val P.timeState = 2 := by
      rcases locks with h | h <;> rw [state, h] <;> rfl
    exact final.trans (by rw [acquire_locked locked]; exact locked)
  · intro searches
    have acquiring : (judged s0).val P.timeState = 1 := by
      rcases searches with h | h <;> rw [state, h] <;> rfl
    refine ⟨fun large => ?_, fun low high => ?_⟩
    · have result := acquire_large acquiring large s.net.ptp.good
      exact ⟨final.trans (by rw [result]; exact acquiring), congrArg Prod.fst result⟩
    · have result := acquire_small acquiring low high s.net.ptp.good
      refine ⟨congrArg Prod.fst result, final.trans ?_⟩
      rw [result]
      split
      · exact (setTimeState_reads wf1 2).2
      · exact acquiring
  · show SameStores s v
    rw [rest.rest]
    exact ⟨rfl, rfl, rfl, rfl⟩
  · show v.seq = s.seq
    rw [rest.rest]
    rfl

/-! The messages. -/

/-- R233: a message is the master's only where it arrives at the PTP port, which is one of the 48. -/
theorem ptpPort_of_fromMaster {s : State} {p : Port} {src : Addr6} {dom : Byte} (own : s.fromMaster p src dom = true) : s.val P.ptpPort < 48 := by
  unfold State.fromMaster State.ptpFor at own
  simp only [Bool.and_eq_true, beq_iff_eq] at own
  obtain ⟨⟨⟨-, here⟩, -⟩, -⟩ := own
  exact here ▸ p.isLt

/-- R233: the clients with the sender of a Delay_Req. -/
def keptClients (s : State) (src : Addr6) : List (BitVec 128) :=
  if s.net.ptp.clients.contains src then s.net.ptp.clients else s.net.ptp.clients ++ [src]

theorem mem_keptClients (s : State) (src : Addr6) : src ∈ keptClients s src ∧ ∀ c ∈ s.net.ptp.clients, c ∈ keptClients s src := by
  unfold keptClients
  split
  next known => exact ⟨List.contains_iff_mem.1 known, fun _ h => h⟩
  next => exact ⟨List.mem_append_right _ (List.mem_singleton_self _), fun _ h => List.mem_append_left _ h⟩

/-- R233: as master, a Delay_Req is answered and its sender kept. -/
theorem ptpDelayReqStep_eq {s : State} {p : Nat} {src : Addr6} {dom : Byte} (mine : s.ptpFor 2 p dom = true) (n : W16) (at' : Nat) :
    let u := s.reach at'
    ptpDelayReqStep s p src dom n at' = { u with
      net := { s.net with ptp := { s.net.ptp with clients := keptClients s src } }
      out := .ptp (s.dataLink (s.val P.ptpPort)) (s.addrOf P.moduleAddress) src.toNat 320 (s.val P.ptpDomain) (.delayResp n.toNat u.stampNow 0)
        :: s.out } := by
  intro u
  have taken : u.ptpFor 2 p dom = true := mine
  exact if_neg (not_not.2 taken)

/-- R235: eight Sync intervals after the last Sync, a locked clock holds over. -/
theorem ptpSyncLossStep_eq {s : State} (client : s.val P.ptpRole = 1) (locked : s.val P.timeState = 2) :
    let u := s.reach (s.net.ptp.lastSync + 8 * s.syncInterval)
    ptpSyncLossStep s = (u.setVal P.timeState 3).raiseEvent 4 0x01 srcModule 3 2 := by
  intro u
  have old : u.val P.timeState = 2 := locked
  have run : ptpSyncLossStep s = u.setTimeState 3 := if_neg (by rw [client, locked]; decide)
  rw [run]
  unfold State.setTimeState
  rw [old]
  rfl

/-- R233: the state in which a master's Sync leaves. -/
def sendingSync (s : State) : State :=
  let u := s.reach (s.net.ptp.lastSend + s.syncInterval)
  { u with net := { s.net with ptp := { s.net.ptp with lastSend := u.clock.now, sendSeq := (s.net.ptp.sendSeq + 1) % 65536 } } }

/-- R233: Sync and Follow_Up of one Sync, to every client of a list. -/
def sendSyncs (seq : Nat) (t : Int) (clients : List (BitVec 128)) (s : State) : State :=
  clients.foldl (fun s c => (s.sendPtp c.toNat (.sync seq t)).sendPtp c.toNat (.followUp seq t)) s

/-- They only leave, and what has left before stays. -/
theorem sendSyncs_reads (seq : Nat) (t : Int) (clients : List (BitVec 128)) (s : State) :
    sendSyncs seq t clients s = { s with out := (sendSyncs seq t clients s).out } ∧ (∀ e ∈ s.out, e ∈ (sendSyncs seq t clients s).out)
      ∧ ∀ c ∈ clients, ∀ m port, (m = .sync seq t ∧ port = 319) ∨ (m = .followUp seq t ∧ port = 320) →
        .ptp (s.dataLink (s.val P.ptpPort)) (s.addrOf P.moduleAddress) c.toNat port (s.val P.ptpDomain) m ∈ (sendSyncs seq t clients s).out := by
  induction clients generalizing s with
  | nil => exact ⟨rfl, fun _ h => h, fun _ h => absurd h List.not_mem_nil⟩
  | cons x xs ih =>
    obtain ⟨rest, stays, sent⟩ := ih ((s.sendPtp x.toNat (.sync seq t)).sendPtp x.toNat (.followUp seq t))
    have step : sendSyncs seq t (x :: xs) s = sendSyncs seq t xs ((s.sendPtp x.toNat (.sync seq t)).sendPtp x.toNat (.followUp seq t)) := rfl
    rw [step]
    refine ⟨rest, fun e he => stays e (List.mem_cons_of_mem _ (List.mem_cons_of_mem _ he)), fun c hc m port kind => ?_⟩
    rcases List.mem_cons.1 hc with rfl | later
    · refine stays _ ?_
      rcases kind with ⟨rfl, rfl⟩ | ⟨rfl, rfl⟩
      · exact List.mem_cons_of_mem _ (List.mem_cons_self ..)
      · exact List.mem_cons_self ..
    · exact sent c later m port kind

/-- R233: as master, Sync and Follow_Up go to every client. -/
theorem ptpSyncSendStep_eq {s : State} (master : s.val P.ptpRole = 2) :
    ptpSyncSendStep s = sendSyncs s.net.ptp.sendSeq (s.reach (s.net.ptp.lastSend + s.syncInterval)).stampNow s.net.ptp.clients (sendingSync s) :=
  if_neg (not_not.2 master)

end Sys2Proof.PtpLaws

namespace Sys2Proof.Claims

open Sys2Proof.Machine Sys2Proof.RecordLaws Sys2Proof.PtpLaws

/-- Settles O46: a Sync disciplines the clock, and every other message keeps, answers or counts. -/
theorem ptpMessagesSteerPanelTime : Obligations.PtpMessagesSteerPanelTime := by
  unfold Obligations.PtpMessagesSteerPanelTime
  intro s p src dom n at' can u link self
  refine ⟨fun own o c => ⟨?_, ⟨_, rfl, ?_⟩, fun rx waits => ⟨_, rfl, ?_⟩, fun t1 t2 t3 r asked pair => ?_⟩,
    fun foreign up two o c => ⟨?_, ?_, ?_⟩, fun mine => ⟨_, rfl, ?_⟩, fun master => ⟨_, rfl, ?_⟩, fun client locked => ⟨_, rfl, ?_⟩⟩
  · have taken : u.fromMaster p src dom = true := own
    exact congrArg Host.Outcome.next ((if_neg (not_not.2 taken)).trans (if_pos rfl))
  · have taken : u.fromMaster p src dom = true := own
    have run : ptpSyncStep s p src dom n false o c at' = u.syncDone (o + c) u.stampNow :=
      (if_neg (not_not.2 taken)).trans (if_neg Bool.false_ne_true)
    show Synced u (ptpSyncStep s p src dom n false o c at') (o + c) u.stampNow
    rw [run]
    exact (synced_syncDone (s := u) can (ptpPort_of_fromMaster own) _ _).1
  · have run : ptpFollowStep s p src dom n o c = s.syncDone (o + c) rx := by
      unfold ptpFollowStep
      rw [if_neg (not_not.2 own), waits]
      exact if_pos rfl
    show Synced s (ptpFollowStep s p src dom n o c) (o + c) rx ∧ (ptpFollowStep s p src dom n o c).net.ptp.twoStep = none
    rw [run]
    exact synced_syncDone can (ptpPort_of_fromMaster own) _ _
  · refine congrArg Host.Outcome.next ?_
    unfold ptpDelayRespStep
    extract_lets x
    rw [if_neg (not_not.2 own), asked, pair]
    exact if_pos rfl
  · have discards : u.fromMaster p src dom = false := foreign
    have counts : u.portUp p = true := up
    exact congrArg Host.Outcome.next ((if_pos (by rw [discards]; decide)).trans (if_pos counts))
  · exact congrArg Host.Outcome.next ((if_pos (by rw [foreign]; decide)).trans (if_pos up))
  · exact congrArg Host.Outcome.next ((if_pos (by rw [foreign]; decide)).trans (if_pos up))
  · have run := ptpDelayReqStep_eq (src := src) mine n at'
    dsimp only at run
    show _ = _ ∧ _
    rw [show ptpDelayReqStep s (p : Nat) src dom n at' = _ from run]
    obtain ⟨new, old⟩ := mem_keptClients s src
    exact ⟨rfl, new, old, rfl, ⟨rfl, rfl, rfl, rfl⟩, rfl, rfl⟩
  · have run := ptpSyncSendStep_eq master
    show _ = _ ∧ _
    rw [run]
    obtain ⟨rest, -, sent⟩ := sendSyncs_reads s.net.ptp.sendSeq (s.reach (s.net.ptp.lastSend + s.syncInterval)).stampNow s.net.ptp.clients
      (sendingSync s)
    rw [rest]
    exact ⟨rfl, rfl, rfl, fun c hc => ⟨sent c hc _ _ (.inl ⟨rfl, rfl⟩), sent c hc _ _ (.inr ⟨rfl, rfl⟩)⟩, rfl, ⟨rfl, rfl, rfl, rfl⟩, rfl⟩
  · have run := ptpSyncLossStep_eq client locked
    dsimp only at run
    show State.val (ptpSyncLossStep s) _ = _ ∧ _
    rw [run]
    generalize hu : s.reach (s.net.ptp.lastSync + 8 * s.syncInterval) = v
    have wf : Sparse.wf paramDefault v.params = true := hu ▸ can.1
    have set : Records [P.timeState] v (v.setVal P.timeState 3) := .setVal (List.mem_singleton_self _) v 3
    have wf' := set.only.wf wf
    have told : Records eventRegs (v.setVal P.timeState 3) ((v.setVal P.timeState 3).raiseEvent 4 0x01 srcModule 3 2) :=
      .raiseEvent (List.Subset.refl _) (by decide) _ _ _ _ _
    have both : Records (P.timeState :: eventRegs) v ((v.setVal P.timeState 3).raiseEvent 4 0x01 srcModule 3 2) :=
      .trans (.setVal (List.mem_cons_self ..) v 3) (told.mono (List.subset_cons_self ..))
    have raised := (EventLaws.reg_raiseEvent_eventsRaised wf' (cls := 4) (by decide) 0x01 srcModule 3 2).trans
      (congrArg inc64 (set.only.regs wf P.eventsRaised 4 (by decide) (by decide)))
    have only := both.only.regs wf
    have state := (told.only.regs wf' _ _ (by decide) (by decide)).trans (State.val_setVal_same v P.timeState 3)
    subst hu
    refine ⟨state, congrArg Clock.now both.clock, raised, only, ?_, ?_, both.seq⟩
    · rw [both.rest]
      exact ⟨rfl, rfl, rfl, rfl⟩
    · rw [both.rest]
      rfl

end Sys2Proof.Claims

/-! PROOF. Memory errors (R166, R183, R184): the counts, the log of errors, and what an uncorrectable error does by the area it
strikes. -/

namespace Sys2Proof.MemoryLaws

open Sys2Proof.Machine Sys2Proof.Claims Sys2Proof.StoreTileLaws Sys2Proof.RecordLaws

/-! Tiles and tier map entries as stores. -/

/-- A tile written leaves every other. -/
theorem tile_putTile_ne (s : State) {id k : Nat} (t : Tile) (h : k ≠ id) : (s.putTile id t).tile k = s.tile k :=
  Sparse.get_put_ne s.mem.tiles t h

/-- An entry written leaves every other. -/
theorem page_putPage_ne (s : State) {p k : Nat} (e : Nat) (h : k ≠ p) : (s.putPage p e).page k = s.page k :=
  congrArg BitVec.toNat (Sparse.get_put_ne s.mem.pages _ h)

/-- An entry reads as it was written, in its 128 bits. -/
theorem page_putPage_same (s : State) (p e : Nat) : (s.putPage p e).page p = e % 2 ^ 128 := State.page_setPage_same s p e

/-- A field of an entry of 128 bits keeps its place. -/
theorem bits_mod_word (x lo n : Nat) (h : lo + n ≤ 128) : bits (x % 2 ^ 128) lo n = bits x lo n := by
  unfold bits
  rw [Nat.shiftRight_eq_div_pow, Nat.shiftRight_eq_div_pow, ← Nat.mod_mul_right_div_self, Nat.mod_mod_of_dvd _ ?_, Nat.mod_mul_right_div_self]
  rw [← Nat.pow_add]
  exact Nat.pow_dvd_pow 2 h

/-! What an uncorrectable error does. -/

/-- What the striking of a tile writes. -/
def struckRegs : List Nat := [P.localFlags, P.lateFlags] ++ eventRegs

/-- `t` is `s` with flags, events of other classes than 7, memory, sequencers and entries due for the flash. -/
structure Strikes (s t : State) : Prop where
  rest : t = { s with params := t.params, log := t.log, mem := t.mem, seq := t.seq, flash := { s.flash with entryDue := t.flash.entryDue } }
  only : WritesOnly struckRegs s t
  others : Sparse.wf paramDefault s.params = true → t.reg P.eventsRaised 7 = s.reg P.eventsRaised 7

namespace Strikes

variable {s t u : State}

theorem trans (h : Strikes s t) (g : Strikes t u) : Strikes s u :=
  ⟨by rw [g.rest, h.rest], h.only.trans g.only, fun wf => (g.others (h.only.wf wf)).trans (h.others wf)⟩

theorem of_params (rest : t = { s with mem := t.mem, seq := t.seq, flash := { s.flash with entryDue := t.flash.entryDue } }) : Strikes s t := by
  have same : t.params = s.params := (congrArg State.params rest :)
  refine ⟨?_, .of_params _ same, fun _ => State.reg_congr same _ _⟩
  rw [rest]

theorem refl (s : State) : Strikes s s := of_params rfl

theorem raiseEvent (s : State) (code source d0 d1 : Nat) : Strikes s (s.raiseEvent 3 code source d0 d1) := by
  have event := Records.raiseEvent (ps := struckRegs) (List.subset_append_right ..) (by decide) s code source d0 d1 (cls := 3)
  refine ⟨?_, event.only, fun wf => PanelLaws.eventsRaised_raiseEvent_other wf (by decide) (by decide) (by decide) ..⟩
  rw [event.rest]

theorem setReg {p : Nat} (hp : p ∈ [P.localFlags, P.lateFlags]) (s : State) (v : Nat) : Strikes s (s.setVal p v) := by
  refine ⟨rfl, .setReg (List.mem_append_left _ hp) (by decide) s v, fun _ => ?_⟩
  refine reg_setReg_ne s (by decide) (by decide) (.inl ?_) v
  rintro rfl
  revert hp
  decide

/-- R245: a condition enters a step-flag word. -/
theorem condition (s : State) (w : Nat) : Strikes s (s.condition w) := by
  unfold State.condition
  split
  · exact refl s
  · split
    · extract_lets x a
      have marked : Strikes s a := of_params rfl
      split
      · exact marked.trans (setReg (p := P.lateFlags) (by decide) a _)
      · exact marked
    · exact setReg (p := P.localFlags) (by decide) s _

end Strikes

/-- R184: the tile that an error struck. -/
structure Poisons (id : Nat) (s t : State) : Prop where
  strikes : Strikes s t
  others : ∀ k, k ≠ id → t.tile k = s.tile k
  mapped : eKind (s.page (pageOf id)) = 1 → eTier (s.page (pageOf id)) ≠ 3 → (t.tile id).poisoned = true
    ∧ (eBacking (s.page (pageOf id)) ≠ 0xFFFFFFFF → id ∈ t.mem.reloads)
    ∧ bits (t.page (pageOf id)) 96 16 = min (bits (s.page (pageOf id)) 96 16 + 1) 0xFFFF

theorem mem_condition (s : State) (w : Nat) : (s.condition w).mem = s.mem := by
  unfold State.condition
  split
  · rfl
  · split
    · dsimp only
      split <;> rfl
    · rfl

/-- R184: a tile of a mapped page outside the flash is poisoned in place, and loaded again where its page has a backing. -/
theorem poisons_poisonTile (s : State) (id : Nat) : Poisons id s (s.poisonTile id) := by
  unfold State.poisonTile
  extract_lets p e a b stores frame
  split
  next no => exact ⟨.refl s, fun _ _ => rfl, fun kind tier => absurd no (not_or.2 ⟨not_not.2 kind, tier⟩)⟩
  next =>
    have put : Strikes s a := .of_params rfl
    have marked : Strikes s b := put.trans (.condition a 4)
    have mem : b.mem = a.mem := mem_condition a 4
    have tiles : ∀ k, k ≠ id → a.tile k = s.tile k := fun k hk => tile_putTile_ne s _ hk
    have poisoned : (a.tile id).poisoned = true := by
      rw [show a.tile id = s.lostAt id from State.tile_putTile_same s id _]
      exact (by decide : bit flagPOISON 4 = true)
    have count : bits (a.page p) 96 16 = min (bits e 96 16 + 1) 0xFFFF := by
      rw [show a.page p = _ from page_putPage_same .., bits_mod_word _ _ _ (by decide), bits_setBits_same]
      exact Nat.mod_eq_of_lt (by omega)
    have same : ∀ {t : State}, t.mem = a.mem → t.tile = a.tile ∧ t.page = a.page := fun h => by
      unfold State.tile State.page
      rw [h]
      exact ⟨rfl, rfl⟩
    split
    next backed =>
      obtain ⟨tile, page⟩ := same mem
      refine ⟨marked.trans (.of_params rfl), fun k hk => (congrFun tile k).trans (tiles k hk),
        fun _ _ => ⟨?_, fun _ => List.mem_append_right _ (List.mem_singleton_self id), ?_⟩⟩
      · exact (congrArg Tile.poisoned (congrFun tile id)).trans poisoned
      · exact (congrArg (bits · 96 16) (congrFun page p)).trans count
    next bare =>
      have event := Strikes.raiseEvent b 0x02 (srcBase frame) p (2 ^ (id % 64))
      have told : (b.raiseEvent 3 0x02 (srcBase frame) p (2 ^ (id % 64))).mem = a.mem :=
        (Records.raiseEvent (ps := eventRegs) (List.Subset.refl _) (by decide) b 0x02 (srcBase frame) p _ (cls := 3)).mem.trans mem
      obtain ⟨tile, page⟩ := same told
      refine ⟨marked.trans event, fun k hk => (congrFun tile k).trans (tiles k hk), fun _ _ => ⟨?_, fun backed => absurd backed bare, ?_⟩⟩
      · exact (congrArg Tile.poisoned (congrFun tile id)).trans poisoned
      · exact (congrArg (bits · 96 16) (congrFun page p)).trans count

/-! The log of errors, and the area that an error strikes. -/

/-- R187: the log of errors writes its 64 records. -/
theorem records_logMemError (s : State) (granule unit kind count : Nat) : Records [P.hbmErrorLog] s (s.logMemError granule unit kind count) := by
  unfold State.logMemError
  extract_lets record old
  refine Records.foldl (fun x hx v => ?_) s
  exact .setReg (p := P.hbmErrorLog) (List.mem_singleton_self _) (Nat.lt_trans (List.mem_range.1 (List.of_mem_zip hx).1) (by decide)) v _

/-- The registers that an area is found by. -/
def areaRegs : List Nat := [P.momentRecords, P.millraceTable]

/-- R160, R167: the area of an address is that of the memory and of the registers that lay it out. -/
theorem areaOf_congr {s t : State} (mem : t.mem = s.mem) (records : t.val P.momentRecords = s.val P.momentRecords)
    (mill : ∀ k, k < 256 → t.reg P.millraceTable k = s.reg P.millraceTable k) (a : Nat) : t.areaOf a = s.areaOf a := by
  have blocks : t.momentBlocks = s.momentBlocks := by
    unfold State.momentBlocks
    rw [records]
  have milled : ∀ n, t.millBlocks n = s.millBlocks n := fun n => by
    unfold State.millBlocks
    refine List.foldl_ext _ _ 0 fun acc k hk => ?_
    dsimp only
    rw [mill k (List.mem_range.1 hk)]
  have hb : ∀ n, t.hbBlocks n = s.hbBlocks n := fun n => by
    unfold State.hbBlocks
    rw [records, milled]
  unfold State.areaOf
  rw [mem, blocks]
  simp only [hb]

/-- R161: so is the tile that an error strikes. -/
theorem struckTile_congr {s t : State} (mem : t.mem = s.mem) (area : ∀ a, t.areaOf a = s.areaOf a) (e : MemError) :
    t.struckTile e = s.struckTile e := by
  have tiles : ∀ a, t.tileAt a = s.tileAt a := fun a => by
    unfold State.tileAt
    rw [mem]
  unfold State.struckTile
  simp only [area, tiles]

/-- What an uncorrectable error may strike (Table 8-8), where one of three places of its own is not struck: a tile, or nothing. -/
inductive Hit (s : State) (e : MemError) : Prop where
  | tables (n : Nat) (sl : Slot) (st : StreamIx) (area : s.areaOf e.device = .tables n) (detail : e.detail = .tableSet sl st)
  | millrace (n : Nat) (k : Fin 256) (x : Nat) (area : s.areaOf e.device = .millrace n) (detail : e.detail = .millrace k x)
  | moments (n r : Nat) (area : s.areaOf e.device = .moments n r)
  | tile (plain : ∀ n, (∀ sl st, ¬ (s.areaOf e.device = .tables n ∧ e.detail = .tableSet sl st))
      ∧ (∀ k x, ¬ (s.areaOf e.device = .millrace n ∧ e.detail = .millrace k x)) ∧ ∀ r, s.areaOf e.device ≠ .moments n r)

theorem hit (s : State) (e : MemError) : Hit s e := by
  by_cases tables : ∃ n sl st, s.areaOf e.device = .tables n ∧ e.detail = .tableSet sl st
  · obtain ⟨n, sl, st, area, detail⟩ := tables
    exact .tables n sl st area detail
  by_cases millrace : ∃ n k x, s.areaOf e.device = .millrace n ∧ e.detail = .millrace k x
  · obtain ⟨n, k, x, area, detail⟩ := millrace
    exact .millrace n k x area detail
  by_cases moments : ∃ n r, s.areaOf e.device = .moments n r
  · obtain ⟨n, r, area⟩ := moments
    exact .moments n r area
  · exact .tile fun n => ⟨fun sl st h => tables ⟨n, sl, st, h⟩, fun k x h => millrace ⟨n, k, x, h⟩, fun r h => moments ⟨n, r, h⟩⟩

section

variable {w : State} {e : MemError}

theorem memErrorAt_tables {n : Nat} {sl : Slot} {st : StreamIx} (area : w.areaOf e.device = .tables n) (detail : e.detail = .tableSet sl st) :
    w.memErrorAt e = w.setDie sl { w.die sl with
      streams := setAt {} (w.die sl).streams st { nth (w.die sl).streams st {} with stalled := true } } := by
  unfold State.memErrorAt
  rw [area, detail]

theorem memErrorAt_millrace {n x : Nat} {k : Fin 256} (area : w.areaOf e.device = .millrace n) (detail : e.detail = .millrace k x) :
    w.memErrorAt e = { w with mem := { w.mem with millPoison := (k.val, x / 32) :: w.mem.millPoison } } := by
  unfold State.memErrorAt
  rw [area, detail]

theorem memErrorAt_moments {n r : Nat} (area : w.areaOf e.device = .moments n r) :
    w.memErrorAt e = if r < w.val P.momentRecords then { w with mem := { w.mem with momPoison := (n, r) :: w.mem.momPoison } } else w := by
  unfold State.memErrorAt
  rw [area]

theorem memErrorAt_tile (plain : ∀ n, (∀ sl st, ¬ (w.areaOf e.device = .tables n ∧ e.detail = .tableSet sl st))
      ∧ (∀ k x, ¬ (w.areaOf e.device = .millrace n ∧ e.detail = .millrace k x)) ∧ ∀ r, w.areaOf e.device ≠ .moments n r) :
    w.memErrorAt e = (w.struckTile e).elim w w.poisonTile := by
  unfold State.memErrorAt
  split
  next n sl st area detail => exact absurd ⟨area, detail⟩ ((plain n).1 sl st)
  next n k x area detail => exact absurd ⟨area, detail⟩ ((plain n).2.1 k x)
  next _ n r area => exact absurd area ((plain n).2.2 r)
  next =>
    split
    next id struck => rw [struck]; rfl
    next none' => rw [none']; rfl

/-- Table 8-8: no error strikes more than flags, events, memory, sequencers and entries. -/
theorem strikes_memErrorAt (w : State) (e : MemError) : Strikes w (w.memErrorAt e) := by
  rcases hit w e with ⟨n, sl, st, area, detail⟩ | ⟨n, k, x, area, detail⟩ | ⟨n, r, area⟩ | ⟨plain⟩
  · rw [memErrorAt_tables area detail]
    exact .of_params rfl
  · rw [memErrorAt_millrace area detail]
    exact .of_params rfl
  · rw [memErrorAt_moments area]
    split
    · exact .of_params rfl
    · exact .refl w
  · rw [memErrorAt_tile plain]
    cases w.struckTile e with
    | none => exact .refl w
    | some id => exact (poisons_poisonTile w id).strikes

end

/-- R187: an error of the HBM advises the retirement of its granule. -/
def advised (e : MemError) (s : State) : State :=
  if decide (2 ^ 40 ≤ e.device) then s.raiseEvent 3 0x01 (srcOf 6 (memUnit e.device)) (e.device / 2 ^ 20) 0 else s

theorem records_advised (e : MemError) (s : State) : Records eventRegs s (advised e s) :=
  .ite (.raiseEvent (List.Subset.refl _) (by decide) _ _ _ _ _) (.refl _ _)

theorem strikes_advised (e : MemError) (s : State) : Strikes s (advised e s) := by
  unfold advised
  split
  · exact .raiseEvent ..
  · exact .refl s

/-- R183: an uncorrectable error is counted, logged and told, and has its effect. -/
def uncorrectable (s : State) (e : MemError) : State :=
  let u := memUnit e.device
  let g := e.device / 2 ^ 20
  let logged := (s.bump64 P.memUncorrected u 1).logMemError g u 1 (s.reg P.memUncorrected u + 1)
  let told := logged.raiseEvent 7 0x07 (memErrorSrc e.device) e.device ((logged.struckTile e).getD (2 ^ 64 - 1))
  advised e (told.memErrorAt e)

/-- R183: a corrected error is counted, of its unit and its granule. -/
def corrected (s : State) (e : MemError) : State :=
  let u := memUnit e.device
  let g := e.device / 2 ^ 20
  let n := Sparse.get zeros s.mem.corrected g + 1
  let counted := s.bump64 P.memCorrected u 1
  if ¬ decide (2 ^ 40 ≤ e.device) then counted
  else
    let kept := { counted with mem := { counted.mem with corrected := Sparse.put zeros s.mem.corrected g n } }
    if n = kept.val P.ceRetireThreshold then advised e (kept.logMemError g u 0 n) else kept

theorem patrolScrubStep_eq {s : State} {e : MemError} (up : s.up 3 = true) (fits : s.fitsArea e = true) (flips : e.flips ≠ [])
    (reads : e.byScrub = true → decide (2 ^ 40 ≤ e.device) = true ∧ s.val P.scrubPeriod ≠ 0) :
    patrolScrubStep s e = match eccOutcome (decide (2 ^ 40 ≤ e.device)) e.flips with
      | some true => corrected s e
      | some false => uncorrectable s e
      | none => if Config.freeDetected s.draws then uncorrectable { s with draws := s.draws + 1 } e else { s with draws := s.draws + 1 } := by
  have goes : ¬ (¬ s.up 3 = true ∨ (e.byScrub && (!decide (2 ^ 40 ≤ e.device) || s.val P.scrubPeriod == 0)) = true
      ∨ ¬ s.fitsArea e = true ∨ e.flips = []) := by
    refine not_or.2 ⟨not_not.2 up, not_or.2 ⟨fun off => ?_, not_or.2 ⟨not_not.2 fits, flips⟩⟩⟩
    obtain ⟨scrub, off⟩ := Bool.and_eq_true_iff.1 off
    obtain ⟨hbm, on⟩ := reads scrub
    rw [hbm, beq_eq_false_iff_ne.2 on] at off
    exact Bool.noConfusion off
  unfold patrolScrubStep
  extract_lets u g hbm off
  rw [if_neg goes]
  cases eccOutcome hbm e.flips with
  | none => rfl
  | some fixed => cases fixed <;> rfl

/-- R183: the unit of an address is one of the first few. -/
theorem memUnit_lt {a : Nat} (h : a < 2 ^ 41) : memUnit a < 2 ^ 24 := by
  unfold memUnit hbmStack
  dsimp only
  split
  · omega
  · split <;> omega

/-- An address that fits an area lies below 2^41. -/
theorem device_lt {s : State} {e : MemError} (fits : s.fitsArea e = true) : e.device < 2 ^ 41 := by
  by_contra beyond
  have outside : s.areaOf e.device = .outside := by
    unfold State.areaOf
    rw [if_neg (by omega), if_neg (by omega), if_pos (by omega)]
  unfold State.fitsArea at fits
  rw [outside] at fits
  exact Bool.noConfusion fits

/-- R183: what a corrected error leaves. -/
theorem corrected_reads {s : State} {e : MemError} (can : Canonical s) (fits : s.fitsArea e = true) :
    let u := memUnit e.device
    let g := e.device / 2 ^ 20
    let hbm := decide (2 ^ 40 ≤ e.device)
    let t := corrected s e
    t.reg P.memCorrected u = inc64 (s.reg P.memCorrected u)
      ∧ (hbm = true → Sparse.get zeros t.mem.corrected g = Sparse.get zeros s.mem.corrected g + 1)
      ∧ (hbm = false → OnlyRegs [P.memCorrected] s t ∧ t.mem = s.mem)
      ∧ SameStores s t ∧ t.clock = s.clock ∧ t.seq = s.seq := by
  intro u g hbm t
  have small : u < 2 ^ 24 := memUnit_lt (device_lt fits)
  have count : Records [P.memCorrected] s (s.bump64 P.memCorrected u 1) := .bump64 (List.mem_singleton_self _) small s 1
  have counts : (s.bump64 P.memCorrected u 1).reg P.memCorrected u = inc64 (s.reg P.memCorrected u) := reg_bump64_same ..
  have run : t = corrected s e := rfl
  unfold corrected at run
  extract_lets n counted stores kept at run
  split at run
  next sram =>
    rw [run]
    exact ⟨counts, fun yes => absurd yes sram, fun _ => ⟨count.only.regs can.1, rfl⟩, ⟨rfl, rfl, rfl, rfl⟩, rfl, rfl⟩
  next hbm' =>
    have inHbm : hbm = true := not_not.1 hbm'
    have logged : Records (P.hbmErrorLog :: eventRegs) kept t := by
      rw [run]
      refine .ite ?_ (.refl _ _)
      exact ((records_logMemError kept g u 0 n).mono (by decide)).trans ((records_advised e _).mono (List.subset_cons_self ..))
    have stored : Sparse.get zeros t.mem.corrected g = n := by
      rw [logged.mem]
      exact Sparse.get_put_same ..
    refine ⟨(logged.only.regs (Sparse.wf_put _ _ can.1) _ _ small (by decide)).trans counts, fun _ => stored,
      fun no => absurd (inHbm.symm.trans no) (by decide), ?_, logged.clock, logged.seq⟩
    rw [logged.rest]
    exact ⟨rfl, rfl, rfl, rfl⟩

/-- The registers of an uncorrectable error's count, log and event. -/
def lostRegs : List Nat := [P.memUncorrected, P.hbmErrorLog] ++ eventRegs

/-- R183, R184: what an uncorrectable error leaves: counted, told once in class 7, and, by the area that it strikes, its effect. -/
theorem uncorrectable_reads {s : State} {e : MemError} (can : Canonical s) (fits : s.fitsArea e = true) :
    ∃ w, Records lostRegs s w ∧ w.reg P.memUncorrected (memUnit e.device) = inc64 (s.reg P.memUncorrected (memUnit e.device))
      ∧ w.reg P.eventsRaised 7 = inc64 (s.reg P.eventsRaised 7) ∧ uncorrectable s e = advised e (w.memErrorAt e) := by
  have small : memUnit e.device < 2 ^ 24 := memUnit_lt (device_lt fits)
  let v := s.bump64 P.memUncorrected (memUnit e.device) 1
  have count : Records [P.memUncorrected] s v := .bump64 (List.mem_singleton_self _) small s 1
  have logs := records_logMemError v (e.device / 2 ^ 20) (memUnit e.device) 1 (s.reg P.memUncorrected (memUnit e.device) + 1)
  let l := v.logMemError (e.device / 2 ^ 20) (memUnit e.device) 1 (s.reg P.memUncorrected (memUnit e.device) + 1)
  have wfV := count.only.wf can.1
  have wfL := logs.only.wf wfV
  have told : Records eventRegs l _ :=
    .raiseEvent (cls := 7) (List.Subset.refl _) (by decide) l 0x07 (memErrorSrc e.device) e.device ((l.struckTile e).getD (2 ^ 64 - 1))
  refine ⟨_, ((count.mono (by decide)).trans (logs.mono (by decide))).trans (told.mono (by decide)), ?_, ?_, rfl⟩
  · exact (told.only.regs wfL _ _ small (by decide)).trans ((logs.only.regs wfV _ _ small (by decide)).trans (reg_bump64_same ..))
  · refine (EventLaws.reg_raiseEvent_eventsRaised wfL (by decide) _ _ _ _).trans (congrArg inc64 ?_)
    exact (logs.only.regs wfV _ _ (by decide) (by decide)).trans (count.only.regs can.1 _ _ (by decide) (by decide))

/-- R184: what is known of the state that an uncorrectable error leaves, by what it strikes. -/
theorem uncorrectable_strikes {s w : State} {e : MemError} (can : Canonical s) (logged : Records lostRegs s w) :
    Strikes w (advised e (w.memErrorAt e)) ∧ (∀ a, w.areaOf a = s.areaOf a) ∧ w.struckTile e = s.struckTile e := by
  have areas : ∀ a, w.areaOf a = s.areaOf a :=
    areaOf_congr logged.mem (logged.only.regs can.1 _ _ (by decide) (by decide)) fun k hk =>
      logged.only.regs can.1 _ _ (Nat.lt_trans hk (by decide)) (by decide)
  exact ⟨(strikes_memErrorAt w e).trans (strikes_advised e _), areas, struckTile_congr logged.mem areas e⟩

end Sys2Proof.MemoryLaws

namespace Sys2Proof.Claims

open Sys2Proof.Machine Sys2Proof.StoreTileLaws Sys2Proof.RecordLaws Sys2Proof.MemoryLaws

/-- Settles O38: an error is counted and told, and strikes what its address names. -/
theorem memoryErrorsAreCountedAndPoisonTheirTile : Obligations.MemoryErrorsAreCountedAndPoisonTheirTile := by
  unfold Obligations.MemoryErrorsAreCountedAndPoisonTheirTile
  intro s e can up fits flips u g hbm ecc
  refine ⟨fun scrub off => ?_, fun n o hn ho place => ?_, fun reads => ?_⟩
  · refine congrArg Host.Outcome.next (if_pos (.inr (.inl ?_)))
    rw [scrub, Bool.true_and]
    rcases off with sram | off
    · rw [show decide (2 ^ 40 ≤ e.device) = false from sram]
      rfl
    · rw [off]
      exact Bool.or_true _
  · show memUnit e.device = _
    unfold memUnit hbmStack
    rw [if_neg (by omega), if_neg (by omega)]
    dsimp only
    omega
  have run := patrolScrubStep_eq up fits flips reads
  refine ⟨fun fixed => ⟨_, rfl, ?_⟩, fun lost => ⟨_, rfl, ?_⟩, fun open' => ⟨_, rfl, ?_⟩⟩
  · show State.reg (patrolScrubStep s e) _ _ = _ ∧ _
    rw [run, show eccOutcome (decide (2 ^ 40 ≤ e.device)) e.flips = _ from fixed]
    exact corrected_reads can fits
  · show State.reg (patrolScrubStep s e) _ _ = _ ∧ _
    rw [run, show eccOutcome (decide (2 ^ 40 ≤ e.device)) e.flips = _ from lost]
    dsimp only
    obtain ⟨w, logged, counted, raised, ends⟩ := uncorrectable_reads can fits
    obtain ⟨strikes, areas, struck⟩ := uncorrectable_strikes (e := e) can logged
    have wf := logged.only.wf can.1
    have advises := records_advised e (w.memErrorAt e)
    rw [ends]
    generalize advised e (w.memErrorAt e) = t at *
    have small : memUnit e.device < 2 ^ 24 := memUnit_lt (device_lt fits)
    refine ⟨(strikes.only.regs wf _ _ small (by decide)).trans counted, (strikes.others wf).trans raised, ?_, ?_, ?_, ?_⟩
    · rw [strikes.rest, logged.rest]
    · rw [strikes.rest, logged.rest]
    · rw [strikes.rest, logged.rest]
    · have stores : ∀ {v : State}, w.memErrorAt e = v → SameStores w v → SameStores s t := fun same h => by
        have fromW : SameStores s w := by
          rw [logged.rest]
          exact ⟨rfl, rfl, rfl, rfl⟩
        have toT : SameStores (w.memErrorAt e) t := by
          rw [advises.rest]
          exact ⟨rfl, rfl, rfl, rfl⟩
        exact WorkLaws.sameStores_trans (WorkLaws.sameStores_trans fromW (same ▸ h)) toT
      rcases hit s e with ⟨n, sl, st, area, detail⟩ | ⟨n, k, x, area, detail⟩ | ⟨n, r, area⟩ | ⟨plain⟩
      · rw [area, detail]
        have struckSet := memErrorAt_tables ((areas _).trans area) detail
        have dies : ∀ k, t.die k = (w.memErrorAt e).die k := fun k => by
          unfold State.die
          rw [advises.seq]
        rw [struckSet] at dies
        refine ⟨?_, stores struckSet ⟨rfl, rfl, rfl, rfl⟩, fun k hk => (dies k).trans ((Sparse.get_put_ne w.seq.dies _ hk).trans ?_)⟩
        · unfold strm Die.stream
          rw [dies, State.die_setDie_same]
          exact congrArg Stream.stalled (nth_setAt_same ..)
        · rw [logged.seq]
          rfl
      · rw [area, detail]
        have struckMill := memErrorAt_millrace ((areas _).trans area) detail
        refine ⟨?_, stores struckMill ⟨rfl, rfl, rfl, rfl⟩⟩
        rw [advises.mem, struckMill]
        exact List.mem_cons_self ..
      · rw [area]
        have struckMom := memErrorAt_moments ((areas _).trans area)
        have records : w.val P.momentRecords = s.val P.momentRecords := logged.only.regs can.1 _ _ (by decide) (by decide)
        rw [records] at struckMom
        refine ⟨fun inside => ?_, stores struckMom ?_⟩
        · rw [advises.mem, struckMom, if_pos inside]
          exact List.mem_cons_self ..
        · split <;> exact ⟨rfl, rfl, rfl, rfl⟩
      · have struckTile := memErrorAt_tile (w := w) (e := e) (by simpa only [areas] using plain)
        split
        next n sl st area detail => exact absurd ⟨area, detail⟩ ((plain n).1 sl st)
        next n k x area detail => exact absurd ⟨area, detail⟩ ((plain n).2.1 k x)
        next _ n r area => exact absurd area ((plain n).2.2 r)
        next =>
          split
          next id found =>
            rw [struck, found] at struckTile
            have poisons := poisons_poisonTile w id
            have tiles : ∀ k, t.tile k = (w.poisonTile id).tile k := fun k => by
              unfold State.tile
              rw [advises.mem, struckTile]
              rfl
            have page : ∀ k, w.page k = s.page k := fun k => by
              unfold State.page
              rw [logged.mem]
            refine ⟨fun k hk => ((tiles k).trans (poisons.others k hk)).trans ?_, fun kind tier => ?_⟩
            · unfold State.tile
              rw [logged.mem]
            · obtain ⟨poisoned, reloads, count⟩ := poisons.mapped ((congrArg eKind (page _)).trans kind) (fun h => tier ((congrArg eTier (page _)).symm.trans h))
              rw [page] at reloads count
              refine ⟨(congrArg Tile.poisoned (tiles id)).trans poisoned, fun backed => ?_, ?_⟩
              · rw [advises.mem, struckTile]
                exact reloads backed
              · unfold State.page at count ⊢
                rw [advises.mem, struckTile]
                exact count
          next none' =>
            rw [struck, none'] at struckTile
            refine ⟨stores struckTile ⟨rfl, rfl, rfl, rfl⟩, ?_⟩
            rw [advises.seq, struckTile]
            exact logged.seq
  · show State.draws (patrolScrubStep s e) = _ ∧ _
    rw [run, show eccOutcome (decide (2 ^ 40 ≤ e.device)) e.flips = _ from open']
    dsimp only
    split
    · obtain ⟨w, logged, -, -, ends⟩ := uncorrectable_reads (s := { s with draws := s.draws + 1 }) (e := e) can fits
      obtain ⟨strikes, -, -⟩ := uncorrectable_strikes (s := { s with draws := s.draws + 1 }) (e := e) can logged
      rw [ends, strikes.rest, logged.rest]
      exact ⟨rfl, rfl, rfl⟩
    · exact ⟨rfl, rfl, rfl⟩

end Sys2Proof.Claims

/-! PROOF. The end of a migration (R173, R174): the copy is verified, the entry switches, and what waits behind it follows. -/

namespace Sys2Proof.MemoryLaws

open Sys2Proof.Machine Sys2Proof.Claims Sys2Proof.StoreTileLaws Sys2Proof.RecordLaws Sys2Proof.RestLaws Sys2Proof.PanelLaws

/-! The check of the copy. -/

/-- What the check of a page's tiles writes. -/
def verifyRegs : List Nat := P.digestErrors :: eventRegs

/-- R69: the tiles of page `p` verified: tiles of that page, counters and events of other classes than 3. -/
structure Verifies (p : Nat) (s t : State) : Prop where
  rest : t = { s with params := t.params, log := t.log, mem := { s.mem with tiles := t.mem.tiles } }
  only : WritesOnly verifyRegs s t
  others : Sparse.wf paramDefault s.params = true → t.reg P.eventsRaised 3 = s.reg P.eventsRaised 3
  tiles : ∀ id, id / 64 ≠ p → t.tile id = s.tile id

namespace Verifies

variable {p : Nat} {s t u : State}

theorem refl (p : Nat) (s : State) : Verifies p s s := ⟨rfl, .of_params _ rfl, fun _ => rfl, fun _ _ => rfl⟩

theorem trans (h : Verifies p s t) (g : Verifies p t u) : Verifies p s u :=
  ⟨by rw [g.rest, h.rest], h.only.trans g.only, fun wf => (g.others (h.only.wf wf)).trans (h.others wf),
    fun id hid => (g.tiles id hid).trans (h.tiles id hid)⟩

/-- A tile of the page poisoned in place, counted and told. -/
theorem poison {acct : Nat} (bound : acct < 2 ^ 24) {id : Nat} (here : id / 64 = p) (s : State) (x : Tile) :
    Verifies p s (((s.putTile id x).bump64 P.digestErrors acct 1).raiseEvent 7 0x06 (acctSrc acct) id 0) := by
  let a := (s.putTile id x).bump64 P.digestErrors acct 1
  have counts : WritesOnly verifyRegs s a := .trans (t := s.putTile id x) (.of_params _ rfl) (.bump64 (p := P.digestErrors) (List.mem_cons_self ..) bound _ 1)
  have event := Records.raiseEvent (ps := eventRegs) (List.Subset.refl _) (by decide) a 0x06 (acctSrc acct) id 0 (cls := 7)
  refine ⟨?_, counts.trans (WritesOnly.mono (List.subset_cons_self ..) event.only), fun wf => ?_, fun k hk => ?_⟩
  · rw [event.rest]
    rfl
  · refine (eventsRaised_raiseEvent_other (counts.wf wf) (by decide) (by decide) (by decide) ..).trans ?_
    exact reg_setReg_ne (s.putTile id x) bound (by decide) (.inl (by decide)) _
  · unfold State.tile
    rw [event.mem]
    refine tile_putTile_ne s x ?_
    rintro rfl
    exact hk here

end Verifies

/-- A home unit lies on one of the first few base dies. -/
theorem homeBase_le (e : Nat) : homeBase e ≤ 64 := by
  have unit : eUnit e < 64 := Nat.mod_lt _ (by decide)
  unfold homeBase
  split <;> omega

/-- R69: one tile checked. -/
def checkTile (acct width : Nat) (s : State) (kv : Nat × Tile) : State :=
  if kv.2.computeDigest width = kv.2.digest then s
  else ((s.putTile kv.1 kv.2.poisonInPlace).bump64 P.digestErrors acct 1).raiseEvent 7 0x06 (acctSrc acct) kv.1 0

theorem verifyPage_eq (s : State) (p : Nat) : s.verifyPage p = if ¬ bit (s.val P.digestVerify) 2 then s else
    (s.mem.tiles.filter fun kv => kv.1 / 64 == p).foldl (checkTile (64 + homeBase (s.page p)) (classBytes (eWidth (s.page p)))) s := rfl

theorem verifies_verifyPage (s : State) (p : Nat) : Verifies p s (s.verifyPage p) := by
  rw [verifyPage_eq]
  split
  · exact .refl p s
  · have bound : 64 + homeBase (s.page p) < 2 ^ 24 := by
      have := homeBase_le (s.page p)
      omega
    refine List.foldlRecOn (s.mem.tiles.filter fun kv => kv.1 / 64 == p) _ (motive := Verifies p s) (.refl p s) fun t so kv here => ?_
    unfold checkTile
    split
    · exact so
    · exact so.trans (.poison bound (by simpa using (List.mem_filter.1 here).2) t _)

/-! The check does not look at migrations. -/

/-- The state with other migrations. -/
def withMigrations (ms : List Migration) (s : State) : State := { s with mem := { s.mem with migrations := ms } }

/-- Where the choice does not look at them either, migrations change after it as before it. -/
theorem ite_withMigrations {ms : List Migration} {c : Prop} [Decidable c] {a b a' b' : State} (h : a' = withMigrations ms a)
    (g : b' = withMigrations ms b) : (if c then a' else b') = withMigrations ms (if c then a else b) := by
  split <;> assumption

theorem storeEvent_withMigrations (ms : List Migration) (s : State) (x : Event) :
    (withMigrations ms s).storeEvent x = withMigrations ms (s.storeEvent x) := by
  unfold State.storeEvent
  extract_lets full oldest lost kept s1 next sink log full' oldest' lost' kept' s2
  have same : s1 = withMigrations ms s2 := ite_withMigrations rfl rfl
  clear_value s1
  subst same
  rfl

theorem raiseEvent_withMigrations (ms : List Migration) (s : State) (cls code source d0 d1 : Nat) :
    (withMigrations ms s).raiseEvent cls code source d0 d1 = withMigrations ms (s.raiseEvent cls code source d0 d1) := by
  unfold State.raiseEvent State.raiseEventOf
  exact ite_withMigrations rfl (storeEvent_withMigrations ms (s.bump64 P.eventsRaised cls 1) _)

theorem checkTile_withMigrations (ms : List Migration) (acct width : Nat) (s : State) (kv : Nat × Tile) :
    checkTile acct width (withMigrations ms s) kv = withMigrations ms (checkTile acct width s kv) :=
  ite_withMigrations rfl (raiseEvent_withMigrations ms ((s.putTile kv.1 kv.2.poisonInPlace).bump64 P.digestErrors acct 1) ..)

theorem verifyPage_withMigrations (ms : List Migration) (s : State) (p : Nat) :
    (withMigrations ms s).verifyPage p = withMigrations ms (s.verifyPage p) := by
  rw [verifyPage_eq, verifyPage_eq]
  exact ite_withMigrations rfl (List.foldl_hom (withMigrations ms) fun v kv => checkTile_withMigrations ms _ _ v kv)

/-! The switch of the entry. -/

/-- What the end of a migration of a page with entry `e` is made of, once the copy has been checked and the migration removed. -/
def switched (e tier frame p : Nat) (s : State) : State :=
  let s := ((s.freeFrame (eTier e) (eFrame e) (eWidth e)).putPage p (movedEntry e tier frame (s.outsideHome e tier frame))).writePageLus p
  let s := ((s.bump64 P.migrations 0 1).leaveGranules (eFrame e) (eWidth e)).2
  s.raiseEvent 3 0x03 (srcBase (homeBase e)) p 0

/-- The migrations of other pages. -/
def otherMigrations (p : Nat) (ms : List Migration) : List Migration := ms.filter fun k => k.page != p

theorem page_verifyPage (s : State) (p q : Nat) : (s.verifyPage p).page q = s.page q :=
  congrArg (fun m => (Sparse.get pageDefault m q).toNat) (congrArg (fun u : State => u.mem.pages) (verifies_verifyPage s p).rest :)

theorem migrations_verifyPage (s : State) (p : Nat) : (s.verifyPage p).mem.migrations = s.mem.migrations :=
  (congrArg (fun u : State => u.mem.migrations) (verifies_verifyPage s p).rest :)

theorem migrationCompleteStep_eq {s : State} {p : Nat} {m : Migration} (found : s.mem.migrations.find? (fun m => m.page == p) = some m) :
    migrationCompleteStep s p = State.nextMove p m.next
      (switched (s.page p) m.tier m.frame p (withMigrations (otherMigrations p s.mem.migrations) (s.verifyPage p))) := by
  rw [← page_verifyPage s p p, ← migrations_verifyPage s p]
  unfold migrationCompleteStep
  rw [found]
  rfl

/-- The migrations with nothing behind those of page `p`. -/
def unhooked (p : Nat) (ms : List Migration) : List Migration := ms.map fun k => if k.page = p then { k with next := [] } else k

theorem page_unhook (p : Nat) (k : Migration) : (if k.page = p then { k with next := [] } else k).page = k.page := by
  split <;> rfl

theorem otherMigrations_unhooked (p : Nat) (ms : List Migration) : otherMigrations p (unhooked p ms) = otherMigrations p ms := by
  unfold otherMigrations unhooked
  rw [List.filter_map]
  have same : (fun k : Migration => k.page != p) ∘ (fun k : Migration => if k.page = p then { k with next := [] } else k)
      = fun k => k.page != p := funext fun k => congrArg (· != p) (page_unhook p k)
  rw [same]
  refine (List.map_congr_left fun k hk => ?_).trans (List.map_id _)
  exact if_neg (by simpa using (List.mem_filter.1 hk).2)

theorem find?_unhooked {p : Nat} {ms : List Migration} {m : Migration} (found : ms.find? (fun m => m.page == p) = some m) :
    (unhooked p ms).find? (fun m => m.page == p) = some { m with next := [] } := by
  have same : (fun k : Migration => k.page == p) ∘ (fun k : Migration => if k.page = p then { k with next := [] } else k)
      = fun k => k.page == p := funext fun k => congrArg (· == p) (page_unhook p k)
  have here : m.page = p := by simpa using List.find?_some found
  unfold unhooked
  rw [List.find?_map, same, found, Option.map_some, if_pos here]

/-- R174: a migration with nothing behind it ends like one with something, but for what follows. -/
theorem migrationCompleteStep_next {s : State} {p : Nat} {m : Migration} (found : s.mem.migrations.find? (fun m => m.page == p) = some m) :
    migrationCompleteStep s p = State.nextMove p m.next (migrationCompleteStep (withMigrations (unhooked p s.mem.migrations) s) p) := by
  have found' : (withMigrations (unhooked p s.mem.migrations) s).mem.migrations.find? (fun m => m.page == p) = some { m with next := [] } :=
    find?_unhooked found
  have others : otherMigrations p (withMigrations (unhooked p s.mem.migrations) s).mem.migrations = otherMigrations p s.mem.migrations :=
    otherMigrations_unhooked p s.mem.migrations
  rw [migrationCompleteStep_eq found, migrationCompleteStep_eq found', verifyPage_withMigrations, others]
  rfl

/-- The fields of an entry whose page has moved. -/
theorem movedEntry_reads {e tier frame : Nat} {spilled : Bool} (ht : tier < 4) (hf : frame < 2 ^ 32) {e' : Nat}
    (h : e' = movedEntry e tier frame spilled % 2 ^ 128) :
    eTier e' = tier ∧ eFrame e' = frame ∧ bit e' 19 = false ∧ eHome e' = eHome e ∧ eUnit e' = eUnit e ∧ eWidth e' = eWidth e
      ∧ eBacking e' = eBacking e := by
  have field : ∀ lo n, lo + n ≤ 128 → bits e' lo n = bits (movedEntry e tier frame spilled) lo n := fun lo n fits => h ▸ bits_mod_word _ lo n fits
  have kept : ∀ lo n, lo + n ≤ 16 ∨ (20 ≤ lo ∧ lo + n ≤ 32) ∨ 64 ≤ lo → bits (movedEntry e tier frame spilled) lo n = bits e lo n := fun lo n apart => by
    unfold movedEntry
    rw [bits_setBits_other (by omega), bits_setBits_other (by omega), bits_setBits_other (by omega), bits_setBits_other (by omega)]
  refine ⟨(field 16 2 (by decide)).trans ?_, (field 32 32 (by decide)).trans ?_, ?_, (field 4 2 (by decide)).trans (kept _ _ (by decide)),
    (field 6 6 (by decide)).trans (kept _ _ (by decide)), (field 2 2 (by decide)).trans (kept _ _ (by decide)),
    (field 64 32 (by decide)).trans (kept _ _ (by decide))⟩
  · unfold movedEntry
    rw [bits_setBits_other (by decide), bits_setBits_other (by decide), bits_setBits_other (by decide), bits_setBits_same]
    exact Nat.mod_eq_of_lt ht
  · unfold movedEntry
    rw [bits_setBits_same]
    exact Nat.mod_eq_of_lt hf
  · rw [h]
    unfold bit movedEntry
    rw [Nat.testBit_mod_two_pow, testBit_setBits, if_neg (by decide), testBit_setBits, if_pos (by decide)]
    decide

/-- R173: the switch of the entry: registers, log and flash, the entry of the page, and retirements. -/
theorem switched_reads {s : State} (wf : Sparse.wf paramDefault s.params = true) (e tier frame p : Nat) :
    let t := switched e tier frame p s
    let e' := movedEntry e tier frame (s.outsideHome e tier frame)
    t = { s with params := t.params, log := t.log, flash := t.flash, mem := { (s.putPage p e').mem with retired := t.mem.retired } }
      ∧ t.reg P.migrations 0 = inc64 (s.reg P.migrations 0) ∧ t.reg P.eventsRaised 3 = inc64 (s.reg P.eventsRaised 3) := by
  intro t e'
  let f := s.freeFrame (eTier e) (eFrame e) (eWidth e)
  have freed : f = { s with flash := f.flash } := by
    simp only [f]
    unfold State.freeFrame
    split <;> rfl
  let w := (f.putPage p e').writePageLus p
  have written : w = { s with flash := w.flash, mem := (s.putPage p e').mem } := by
    simp only [w]
    unfold State.writePageLus
    extract_lets entry
    split
    · rw [freed]
      rfl
    · rw [freed]
      rfl
  let c := ((w.bump64 P.migrations 0 1).leaveGranules (eFrame e) (eWidth e)).2
  have run : t = c.raiseEvent 3 0x03 (srcBase (homeBase e)) p 0 := rfl
  have params : w.params = s.params := (congrArg State.params written :)
  have wfC : Sparse.wf paramDefault c.params = true := Sparse.wf_put _ _ (params ▸ wf)
  have left : c = { s with params := c.params, flash := c.flash, mem := { (s.putPage p e').mem with retired := c.mem.retired } } := by
    have step : c = { w with params := c.params, mem := { w.mem with retired := c.mem.retired } } := rfl
    exact step.trans (congrArg (fun x : State => { x with params := c.params, mem := { x.mem with retired := c.mem.retired } }) written)
  have told : Records eventRegs c t := run ▸ .raiseEvent (List.Subset.refl _) (by decide) c 0x03 (srcBase (homeBase e)) p 0
  refine ⟨?_, ?_, ?_⟩
  · rw [told.rest, left]
  · refine (told.only.regs wfC _ _ (by decide) (by decide)).trans ((State.reg_setReg_same w ..).trans (congrArg inc64 ?_))
    exact State.reg_congr params ..
  · rw [run]
    refine (EventLaws.reg_raiseEvent_eventsRaised wfC (by decide) _ _ _ _).trans (congrArg inc64 ?_)
    exact (reg_setReg_ne w (by decide) (by decide) (.inl (by decide)) _).trans (State.reg_congr params ..)

/-- R173, R174: the end of a migration with nothing behind it. -/
theorem migrationComplete_reads {s : State} {p : Nat} {m : Migration} (can : Canonical s)
    (found : s.mem.migrations.find? (fun m => m.page == p) = some m) (ht : m.tier < 4) (hf : m.frame < 2 ^ 32) (alone : m.next = []) :
    let t := migrationCompleteStep s p
    (∀ k ∈ t.mem.migrations, k.page ≠ p)
        ∧ eTier (t.page p) = m.tier ∧ eFrame (t.page p) = m.frame ∧ bit (t.page p) 19 = false
        ∧ eHome (t.page p) = eHome (s.page p) ∧ eUnit (t.page p) = eUnit (s.page p) ∧ eWidth (t.page p) = eWidth (s.page p)
        ∧ eBacking (t.page p) = eBacking (s.page p) ∧ (bit (s.val P.digestVerify) 2 = false → t.mem.tiles = s.mem.tiles)
        ∧ t.reg P.migrations 0 = inc64 (s.reg P.migrations 0)
        ∧ t.reg P.eventsRaised 3 = inc64 (s.reg P.eventsRaised 3) ∧ PageFrame s t p := by
  intro t
  have verified := verifies_verifyPage s p
  let v := withMigrations (otherMigrations p s.mem.migrations) (s.verifyPage p)
  have run : t = switched (s.page p) m.tier m.frame p v := by
    have := migrationCompleteStep_eq found
    rwa [alone] at this
  have wf : Sparse.wf paramDefault v.params = true := verified.only.wf can.1
  obtain ⟨rest, migrated, raised⟩ := switched_reads wf (s.page p) m.tier m.frame p
  rw [← run] at rest migrated raised
  have entry : t.page p = movedEntry (s.page p) m.tier m.frame (v.outsideHome (s.page p) m.tier m.frame) % 2 ^ 128 :=
    (congrArg (fun u : State => u.page p) rest).trans (page_putPage_same v p _)
  have tiles : t.mem.tiles = (s.verifyPage p).mem.tiles := (congrArg (fun u : State => u.mem.tiles) rest :)
  have migrations : t.mem.migrations = otherMigrations p s.mem.migrations := (congrArg (fun u : State => u.mem.migrations) rest :)
  obtain ⟨tier, frame, migrating, home, unit, width, backing⟩ := movedEntry_reads ht hf entry
  refine ⟨fun k hk => ?_, tier, frame, migrating, home, unit, width, backing, fun off => ?_, migrated.trans (congrArg inc64 ?_),
    raised.trans (congrArg inc64 (verified.others can.1)), fun q hq => ?_, fun id hid => ?_, ?_⟩
  · rw [migrations] at hk
    simpa using (List.mem_filter.1 hk).2
  · rw [tiles, verifyPage_eq, if_pos (by rw [off]; decide)]
  · exact verified.only.regs can.1 _ _ (by decide) (by decide)
  · exact ((congrArg (fun u : State => u.page q) rest).trans (page_putPage_ne v _ hq)).trans (page_verifyPage s p q)
  · exact (congrArg (fun x => Sparse.get tileDefault x id) tiles).trans (verified.tiles id hid)
  · rw [rest]
    show (s.verifyPage p).clock = _ ∧ (s.verifyPage p).pending = _ ∧ (s.verifyPage p).seq.dies = _ ∧ (s.verifyPage p).upd = _ ∧ (s.verifyPage p).net = _
    rw [verified.rest]
    exact ⟨rfl, rfl, rfl, rfl, rfl⟩

end Sys2Proof.MemoryLaws

/-! PROOF. Loads from a backing (R175, R184, R197): one tile, the 64 tiles of a page, and the writes that a load lets go on. -/

namespace Sys2Proof.MemoryLaws

open Sys2Proof.Machine Sys2Proof.Claims Sys2Proof.StoreTileLaws Sys2Proof.RecordLaws Sys2Proof.RestLaws Sys2Proof.PanelLaws

/-! The source page. -/

/-- Where an entry that is listed is replaced by one that a search judges alike, the search finds the same key. -/
theorem find?_put {α : Type} [DecidableEq α] {d : Nat → α} (m : Sparse α) {k : Nat} {v : α} {f : Nat × α → Bool}
    (listed : Sparse.get d m k ≠ d k) (stored : v ≠ d k) (alike : f (k, v) = f (k, Sparse.get d m k)) :
    ((Sparse.put d m k v).find? f).map Prod.fst = (m.find? f).map Prod.fst := by
  induction m with
  | nil => exact absurd rfl listed
  | cons e m ih =>
    obtain ⟨k', v'⟩ := e
    unfold Sparse.get at listed alike
    unfold Sparse.put
    split
    next before => exact absurd (if_pos before) listed
    next later =>
      rw [if_neg later] at listed alike
      split
      next here =>
        subst here
        rw [if_pos rfl] at alike
        rw [List.find?_cons, List.find?_cons, alike]
        split <;> rfl
      next other =>
        rw [if_neg other] at listed alike
        rw [List.find?_cons, List.find?_cons]
        split
        · rfl
        · exact ih listed alike

/-- What the search for a source page looks at. -/
def isSource (width backing : Nat) (kv : Nat × BitVec 128) : Bool :=
  let e := kv.2.toNat
  eKind e == 1 && eHome e == 3 && eTier e == 3 && eWidth e == width && eFrame e == backing

/-- Entry `e'` of a mapped page is `e` in all that lies below its Backing's end. -/
def SameFields (e e' : Nat) : Prop := ∀ lo n, lo + n ≤ 96 → bits e' lo n = bits e lo n

/-- R197: the source page of a Backing stays that when a mapped page's entry changes only above. -/
theorem sourcePage_putPage {s : State} {p e' : Nat} (kind : eKind (s.page p) = 1) (same : SameFields (s.page p) (e' % 2 ^ 128)) (width backing : Nat) :
    (s.putPage p e').sourcePage width backing = s.sourcePage width backing := by
  have apart : ∀ e : BitVec 128, eKind e.toNat = 1 → e ≠ pageDefault p := by
    rintro e one rfl
    exact absurd one (show eKind (0x00000000FFFFFFFF0000000000000000#128).toNat ≠ 1 by decide)
  have value : (BitVec.ofNat 128 e').toNat = e' % 2 ^ 128 := BitVec.toNat_ofNat ..
  have kind' : eKind (e' % 2 ^ 128) = eKind (s.page p) := same 0 2 (by decide)
  have width' : eWidth (e' % 2 ^ 128) = eWidth (s.page p) := same 2 2 (by decide)
  have home' : eHome (e' % 2 ^ 128) = eHome (s.page p) := same 4 2 (by decide)
  have tier' : eTier (e' % 2 ^ 128) = eTier (s.page p) := same 16 2 (by decide)
  have frame' : eFrame (e' % 2 ^ 128) = eFrame (s.page p) := same 32 32 (by decide)
  refine find?_put (d := pageDefault) (f := isSource width backing) s.mem.pages (apart _ kind) (apart _ ?_) ?_
  · rw [value, kind']
    exact kind
  · unfold isSource
    dsimp only
    rw [value, kind', width', home', tier', frame']
    rfl

/-! One tile. -/

/-- What loads of tiles of page `p` write: its tiles and its entry's Uncorrected, writes to flash and BackingFaults. -/
structure Loads (p : Nat) (s t : State) : Prop where
  rest : t = { s with params := t.params, flash := t.flash, mem := { s.mem with tiles := t.mem.tiles, pages := t.mem.pages } }
  only : WritesOnly [P.backingFaults] s t
  tiles : ∀ id, id / 64 ≠ p → t.tile id = s.tile id
  pages : ∀ q, q ≠ p → t.page q = s.page q
  entry : SameFields (s.page p) (t.page p)
  source : eKind (s.page p) = 1 → ∀ width backing, t.sourcePage width backing = s.sourcePage width backing

namespace Loads

variable {p : Nat} {s t u : State}

theorem refl (p : Nat) (s : State) : Loads p s s :=
  ⟨rfl, .of_params _ rfl, fun _ _ => rfl, fun _ _ => rfl, fun _ _ _ => rfl, fun _ _ _ => rfl⟩

theorem trans (h : Loads p s t) (g : Loads p t u) : Loads p s u :=
  ⟨by rw [g.rest, h.rest], h.only.trans g.only, fun id hid => (g.tiles id hid).trans (h.tiles id hid),
    fun q hq => (g.pages q hq).trans (h.pages q hq), fun lo n fits => (g.entry lo n fits).trans (h.entry lo n fits),
    fun kind w b => (g.source ((h.entry 0 2 (by decide)).trans kind) w b).trans (h.source kind w b)⟩

/-- A tile of the page stored. -/
theorem putStored {id : Nat} (here : id / 64 = p) (s : State) (x : Tile) : Loads p s (s.putStored id x) := by
  have rest : s.putStored id x = { s with flash := (s.putStored id x).flash, mem := { s.mem with tiles := (s.putStored id x).mem.tiles } } := by
    unfold State.putStored
    extract_lets e a
    split <;> rfl
  have tiles : (s.putStored id x).mem.tiles = Sparse.put tileDefault s.mem.tiles id x := by
    unfold State.putStored
    extract_lets e a
    split <;> rfl
  have pages : (s.putStored id x).mem.pages = s.mem.pages := (congrArg (fun u : State => u.mem.pages) rest :)
  refine ⟨?_, .of_params _ (congrArg State.params rest :), fun k hk => ?_, fun q _ => ?_, fun lo n _ => ?_, fun _ w b => ?_⟩
  · rw [rest]
  · unfold State.tile
    rw [tiles]
    refine Sparse.get_put_ne _ _ ?_
    rintro rfl
    exact hk here
  · unfold State.page
    rw [pages]
  · unfold State.page
    rw [pages]
  · unfold State.sourcePage
    rw [pages]

/-- A load without a source counted. -/
theorem count (p : Nat) (s : State) : Loads p s (s.bump64 P.backingFaults 0 1) :=
  ⟨rfl, .bump64 (List.mem_singleton_self _) (by decide) s 1, fun _ _ => rfl, fun _ _ => rfl, fun _ _ _ => rfl, fun _ _ _ => rfl⟩

/-- The entry's Uncorrected written. -/
theorem putPage (s : State) (n : Nat) : Loads p s (s.putPage p (setBits (s.page p) 96 16 n)) := by
  have same : SameFields (s.page p) (setBits (s.page p) 96 16 n % 2 ^ 128) := fun lo m fits => by
    rw [bits_mod_word _ _ _ (by omega), bits_setBits_other (.inl fits)]
  refine ⟨rfl, .of_params _ rfl, fun _ _ => rfl, fun q hq => page_putPage_ne s _ hq, ?_, fun kind => sourcePage_putPage kind same⟩
  rw [page_putPage_same]
  exact same

end Loads

theorem tile_putStored_same (s : State) (id : Nat) (x : Tile) : (s.putStored id x).tile id = x := by
  unfold State.putStored
  extract_lets e a
  split <;> exact State.tile_putTile_same s id x

theorem tile_putStored_ne (s : State) {id k : Nat} (x : Tile) (h : k ≠ id) : (s.putStored id x).tile k = s.tile k := by
  unfold State.putStored
  extract_lets e a
  split <;> exact tile_putTile_ne s x h

/-- R199: a unit that is poisoned with further writes waiting was poisoned without them. -/
theorem luSeen_of_more {s t : State} {ws : List LuWrite} (h : t.flash.lus = s.flash.lus) (writes : t.flash.writes = s.flash.writes ++ ws) {x : Nat}
    (poisoned : (t.luSeen x).1 = true) : (s.luSeen x).1 = true := by
  have first : ∀ (xs : List LuWrite) (acc acc' : Bool × Nat), acc.1 = acc'.1 →
      (xs.foldl (fun (acc : Bool × Nat) w => (false, w.over acc.2)) acc).1 = (xs.foldl (fun (acc : Bool × Nat) w => (false, w.over acc.2)) acc').1 := by
    intro xs
    induction xs with
    | nil => exact fun _ _ h => h
    | cons w xs ih => exact fun _ _ _ => ih _ _ rfl
  have before : ∀ (xs : List LuWrite) (acc : Bool × Nat),
      (xs.foldl (fun (acc : Bool × Nat) w => (false, w.over acc.2)) acc).1 = true → acc.1 = true := by
    intro xs
    induction xs with
    | nil => exact fun _ h => h
    | cons w xs ih => exact fun acc h => Bool.noConfusion (ih (false, w.over acc.2) h)
  have unit : (t.lu x).poisoned = (s.lu x).poisoned := by
    unfold State.lu
    rw [h]
  unfold State.luSeen at poisoned ⊢
  rw [writes, List.filter_append, List.foldl_append] at poisoned
  exact (first _ _ _ unit.symm).trans (before _ _ poisoned)

/-- R199: so a tile that is lost once its page's units have more writes waiting was lost before. -/
theorem bwLost_of_putStored {s : State} {id e k : Nat} {x : Tile} (lost : (s.putStored id x).bwLost e k = true) : s.bwLost e k = true := by
  have more : ∃ ws, (s.putStored id x).flash.writes = s.flash.writes ++ ws ∧ (s.putStored id x).flash.lus = s.flash.lus := by
    unfold State.putStored
    extract_lets f a
    split
    · exact ⟨_, rfl, rfl⟩
    · exact ⟨[], (List.append_nil _).symm, rfl⟩
  obtain ⟨ws, writes, lus⟩ := more
  unfold State.bwLost at lost ⊢
  obtain ⟨y, hy, poisoned⟩ := List.any_eq_true.1 lost
  exact List.any_eq_true.2 ⟨y, hy, luSeen_of_more lus writes poisoned⟩

theorem pages_putStored (s : State) (id : Nat) (x : Tile) : (s.putStored id x).mem.pages = s.mem.pages := by
  unfold State.putStored
  extract_lets e a
  split <;> rfl

/-- R197: the load of one tile: the source's, or the poisoned one; without an error lost, the entries stay. -/
theorem loadTile_reads (s : State) (p : Nat) {k : Nat} (hk : k < 64) :
    let t := (s.loadTile p k).2
    Loads p s t ∧ t.tile (64 * p + k) = loadedTile s (s.page p) (64 * p + k) ∧ (∀ id, id ≠ 64 * p + k → t.tile id = s.tile id)
      ∧ ((∀ q, s.sourcePage (eWidth (s.page p)) (eBacking (s.page p)) = some q → s.bwLost (s.page q) (64 * q + k) = false) →
          t.mem.pages = s.mem.pages) := by
  have here : (64 * p + k) / 64 = p := by omega
  have within : (64 * p + k) % 64 = k := by omega
  cases source : s.sourcePage (eWidth (s.page p)) (eBacking (s.page p)) with
  | none =>
    let x := Tile.poison (loadWriter 0) (classFmt (eWidth (s.page p)))
    have run : s.loadTile p k = (true, (s.putStored (64 * p + k) x).bump64 P.backingFaults 0 1) := by
      unfold State.loadTile
      extract_lets e id
      rw [show s.sourcePage (eWidth e) (eBacking e) = none from source]
    have loaded : loadedTile s (s.page p) (64 * p + k) = x := by
      unfold loadedTile
      rw [source]
    rw [run, loaded]
    exact ⟨(Loads.putStored here s x).trans (.count p _), tile_putStored_same s _ x, fun id hid => tile_putStored_ne s x hid,
      fun _ => pages_putStored s _ x⟩
  | some q =>
    let x := (s.tile (64 * q + k)).loaded
    let a := s.putStored (64 * p + k) x
    have run : s.loadTile p k = (x.poisoned, if a.bwLost (a.page q) (64 * q + k) then
        a.putPage p (setBits (s.page p) 96 16 (min (eUncorrected (s.page p) + 1) 0xFFFF)) else a) := by
      unfold State.loadTile
      extract_lets e id
      rw [show s.sourcePage (eWidth e) (eBacking e) = some q from source]
    have loaded : loadedTile s (s.page p) (64 * p + k) = x := by
      unfold loadedTile
      rw [source, within]
    have page : ∀ j, a.page j = s.page j := fun j => congrArg (fun m => (Sparse.get pageDefault m j).toNat) (pages_putStored s (64 * p + k) x)
    have stored : Loads p s a := .putStored here s x
    have same : a.tile (64 * p + k) = x := tile_putStored_same s _ x
    have others : ∀ id, id ≠ 64 * p + k → a.tile id = s.tile id := fun id hid => tile_putStored_ne s x hid
    rw [run, loaded, page q, ← page p]
    dsimp only
    split
    next lost =>
      refine ⟨stored.trans (.putPage a _), same, others, fun kept => ?_⟩
      exact absurd (bwLost_of_putStored lost) (by rw [kept q rfl]; decide)
    next => exact ⟨stored, same, others, fun _ => pages_putStored s _ x⟩

/-- What loads leave of a page's surroundings. -/
theorem Loads.frame {p : Nat} {s t : State} (h : Loads p s t) : PageFrame s t p := by
  refine ⟨h.pages, h.tiles, ?_⟩
  rw [h.rest]
  exact ⟨rfl, rfl, rfl, rfl, rfl⟩

/-- A condition enters a flag word and leaves the memory. -/
theorem frame_condition {p : Nat} {s t : State} (h : PageFrame s t p) (w : Nat) : PageFrame s (t.condition w) p := by
  obtain ⟨pages, tiles, clock, pending, dies, upd, net⟩ := h
  have still := Still.condition t w
  refine ⟨fun q hq => ?_, fun id hid => ?_, (congrArg State.clock still :).trans clock, (congrArg State.pending still :).trans pending,
    (congrArg (fun u : State => u.seq.dies) still :).trans dies, (congrArg State.upd still :).trans upd, (congrArg State.net still :).trans net⟩
  · unfold State.page
    rw [mem_condition]
    exact pages q hq
  · unfold State.tile
    rw [mem_condition]
    exact tiles id hid

theorem not_mem_filter_ne (x : Nat) (xs : List Nat) : x ∉ xs.filter (· != x) := fun h => by simpa using (List.mem_filter.1 h).2

/-- R184: the reload of one poisoned tile. -/
theorem backingReload_reads {s : State} {p id : Nat} (here : id / 64 = p) (waits : id ∈ s.mem.reloads) (kind : eKind (s.page p) = 1) :
    let t := backingReloadStep s id
    id ∉ t.mem.reloads ∧ t.tile id = loadedTile s (s.page p) id
        ∧ (∀ k, k ≠ id → t.tile k = s.tile k) ∧ PageFrame s t p
        ∧ ((∀ q, s.sourcePage (eWidth (s.page p)) (eBacking (s.page p)) = some q → s.bwLost (s.page q) (64 * q + id % 64) = false) →
            t.mem.pages = s.mem.pages) := by
  intro t
  let a : State := { s with mem := { s.mem with reloads := s.mem.reloads.filter (· != id) } }
  have name : 64 * p + id % 64 = id := by omega
  have run : t = if (a.loadTile p (id % 64)).1 then (a.loadTile p (id % 64)).2.condition 4 else (a.loadTile p (id % 64)).2 := by
    have asked : ¬ ¬ s.mem.reloads.contains id = true := not_not.2 (List.contains_iff_mem.2 waits)
    subst here
    exact (if_neg asked).trans (if_neg (not_not.2 kind))
  obtain ⟨loads, tile, others, pages⟩ := loadTile_reads a p (Nat.mod_lt id (by decide : 0 < 64))
  rw [name] at tile others
  generalize (a.loadTile p (id % 64)).2 = b at *
  have mem : t.mem = b.mem := by
    rw [run]
    split
    · exact mem_condition b 4
    · rfl
  have tiles : ∀ k, t.tile k = b.tile k := fun k => congrArg (fun m : Mem => Sparse.get tileDefault m.tiles k) mem
  have reloads : b.mem.reloads = s.mem.reloads.filter (· != id) := (congrArg (fun u : State => u.mem.reloads) loads.rest :)
  refine ⟨?_, (tiles id).trans tile, fun k hk => (tiles k).trans (others k hk), ?_, fun kept => ?_⟩
  · rw [mem, reloads]
    exact not_mem_filter_ne id _
  · rw [run]
    have frame : PageFrame s b p := loads.frame
    split
    · exact frame_condition frame 4
    · exact frame
  · rw [mem]
    exact pages kept

/-! The 64 tiles of a page. -/

/-- R175, R197: the first `n` tiles of page `p` loaded. -/
def loadFirst (p n : Nat) (s : State) : Bool × State :=
  (List.range n).foldl (fun (acc : Bool × State) k =>
    let (b, s) := acc.2.loadTile p k
    (acc.1 || b, s)) (false, s)

theorem loadFirst_succ (p n : Nat) (s : State) : (loadFirst p (n + 1) s).2 = ((loadFirst p n s).2.loadTile p n).2 := by
  unfold loadFirst
  rw [List.range_succ, List.foldl_append]
  rfl

/-- The first tiles hold what their loads give them; the others, those that sources hold among them, stay. -/
theorem loadFirst_reads {s : State} {p : Nat} (kind : eKind (s.page p) = 1) {n : Nat} (hn : n ≤ 64) :
    let t := (loadFirst p n s).2
    Loads p s t ∧ (∀ k, k < n → t.tile (64 * p + k) = loadedTile s (s.page p) (64 * p + k))
      ∧ ∀ id, (∀ k, k < n → id ≠ 64 * p + k) → t.tile id = s.tile id := by
  induction n with
  | zero => exact ⟨.refl p s, fun _ h => absurd h (Nat.not_lt_zero _), fun _ _ => rfl⟩
  | succ n ih =>
    obtain ⟨loads, loaded, others⟩ := ih (by omega)
    rw [loadFirst_succ]
    generalize (loadFirst p n s).2 = a at *
    obtain ⟨next, tile, rest, -⟩ := loadTile_reads a p (k := n) (by omega)
    have source := loads.source kind (eWidth (s.page p)) (eBacking (s.page p))
    have width : eWidth (a.page p) = eWidth (s.page p) := loads.entry 2 2 (by decide)
    have backing : eBacking (a.page p) = eBacking (s.page p) := loads.entry 64 32 (by decide)
    have same : loadedTile a (a.page p) (64 * p + n) = loadedTile s (s.page p) (64 * p + n) := by
      unfold loadedTile
      rw [width, backing, source]
      split
      next q _ =>
        refine congrArg Tile.loaded (others _ fun k hk => ?_)
        omega
      next => rfl
    refine ⟨loads.trans next, fun k hk => ?_, fun id hid => (rest id (hid n (by omega))).trans (others id fun k hk => hid k (by omega))⟩
    rcases Nat.lt_succ_iff_lt_or_eq.1 hk with before | rfl
    · exact (rest _ (by omega)).trans (loaded k before)
    · exact tile.trans same

/-! The writes that a load lets go on. -/

/-- R176: writes at pages that stand for another store nothing: registers other than DemandLoads, and the log. -/
structure Refuses (s t : State) : Prop where
  rest : t = { s with params := t.params, log := t.log }
  wf : Sparse.wf paramDefault s.params = true → Sparse.wf paramDefault t.params = true
  loads : Sparse.wf paramDefault s.params = true → t.reg P.demandLoads 0 = s.reg P.demandLoads 0

theorem Refuses.refl (s : State) : Refuses s s := ⟨rfl, fun h => h, fun _ => rfl⟩

theorem Refuses.trans {s t u : State} (h : Refuses s t) (g : Refuses t u) : Refuses s u :=
  ⟨by rw [g.rest, h.rest], fun wf => g.wf (h.wf wf), fun wf => (g.loads (h.wf wf)).trans (h.loads wf)⟩

theorem refuses_tileWrite {s : State} {w : TileWrite} {i c : Nat} (behind : s.place w.id = .viaAlias i c) : Refuses s (s.tileWrite w) := by
  have run : s.tileWrite w = (s.bump64 P.aliasWrites w.acct 1).raiseEvent 7 0x09 (acctSrc w.acct) w.id 0 := by
    unfold State.tileWrite State.storeTile
    rw [behind]
  have counted : Sparse.wf paramDefault s.params = true → Sparse.wf paramDefault (s.bump64 P.aliasWrites w.acct 1).params = true :=
    Sparse.wf_put _ _
  have event := Records.raiseEvent (ps := eventRegs) (List.Subset.refl _) (by decide) (s.bump64 P.aliasWrites w.acct 1) 0x09 (acctSrc w.acct) w.id 0
    (cls := 7)
  rw [run]
  refine ⟨?_, fun wf => event.only.wf (counted wf), fun wf => (event.only.regs (counted wf) _ _ (by decide) (by decide)).trans ?_⟩
  · rw [event.rest]
    rfl
  · refine Sparse.get_put_ne s.params _ ?_
    unfold pkey P.demandLoads P.aliasWrites
    omega

/-- R175: with no write for the page itself, those that wait for it are refused. -/
theorem releaseWrites_refuses {s : State} {p : Nat} (kind : eKind (s.page p) = 1) (none' : ∀ w ∈ s.mem.waiting, pageOf w.id ≠ p) :
    ∃ ws, Refuses { s with mem := { s.mem with waiting := ws } } (s.releaseWrites p) := by
  unfold State.releaseWrites
  extract_lets stores mine ws
  refine ⟨s.mem.waiting.filter fun w => !mine w, ?_⟩
  generalize ha : ({ s with mem := { s.mem with waiting := s.mem.waiting.filter fun w => !mine w } } : State) = a
  have pages : a.mem.pages = s.mem.pages := ha ▸ rfl
  refine List.foldlRecOn ws _ (motive := Refuses a) (.refl a) fun t so w hw => so.trans ?_
  have page : ∀ q, t.page q = s.page q := fun q => by
    unfold State.page
    rw [so.rest, ← pages]
  obtain ⟨waits, hers⟩ := List.mem_filter.1 hw
  obtain ⟨second, target⟩ : eKind (s.page (pageOf w.id)) = 2 ∧ eTarget (s.page (pageOf w.id)) = p := by
    simpa [mine, none' w waits] using hers
  refine refuses_tileWrite (i := p * 64 + w.id % 64) (c := eWidth (s.page p)) ?_
  unfold State.place
  dsimp only
  rw [page, second, if_neg (by decide), if_pos rfl, target, page, kind, if_pos rfl]

/-- R175: the page is marked as loaded once its tiles are. -/
def markLoaded (p : Nat) (loaded : Bool × State) : State :=
  let b := if loaded.1 then loaded.2.condition 4 else loaded.2
  let c := { b with mem := { b.mem with demand := b.mem.demand.filter (· != p) } }
  (c.putPage p (setBits (c.page p) 20 1 1)).bump64 P.demandLoads 0 1

theorem demandLoadStep_eq {s : State} {p : Nat} (waits : p ∈ s.mem.demand) (kind : eKind (s.page p) = 1)
    (ready : ∀ q, s.sourcePage (eWidth (s.page p)) (eBacking (s.page p)) = some q → eLoaded (s.page q) = true ∨ q = p) :
    demandLoadStep s p = (markLoaded p (loadFirst p 64 s)).pageLoaded p := by
  have asked : ¬ (¬ s.mem.demand.contains p = true ∨ eKind (s.page p) ≠ 1) :=
    not_or.2 ⟨not_not.2 (List.contains_iff_mem.2 waits), not_not.2 kind⟩
  have source : (s.sourcePage (eWidth (s.page p)) (eBacking (s.page p))).filter (fun q => !eLoaded (s.page q) && q != p) = none := by
    cases found : s.sourcePage (eWidth (s.page p)) (eBacking (s.page p)) with
    | none => rfl
    | some q =>
      have loaded : (!eLoaded (s.page q) && q != p) = false := by
        rcases ready q found with loaded | same
        · rw [loaded]
          rfl
        · rw [same, bne_self_eq_false, Bool.and_false]
      exact if_neg (Bool.eq_false_iff.1 loaded)
  unfold demandLoadStep
  rw [if_neg asked]
  dsimp only
  rw [source]
  dsimp only
  generalize h : List.foldl _ _ (List.range 64) = r
  have same : r = loadFirst p 64 s := h.symm
  rw [same]
  rfl

/-- What marking leaves, beside the entry and the count. -/
theorem markLoaded_reads {s : State} {p : Nat} {r : Bool × State} (loads : Loads p s r.2) :
    let d := markLoaded p r
    PageFrame s d p ∧ d.mem.tiles = r.2.mem.tiles ∧ d.mem.demand = s.mem.demand.filter (· != p) ∧ d.mem.waiting = s.mem.waiting
      ∧ d.page p = setBits (r.2.page p) 20 1 1 % 2 ^ 128
      ∧ (Sparse.wf paramDefault s.params = true → Sparse.wf paramDefault d.params = true
          ∧ d.reg P.demandLoads 0 = inc64 (s.reg P.demandLoads 0)) := by
  intro d
  let b := if r.1 then r.2.condition 4 else r.2
  have run : d = (({ b with mem := { b.mem with demand := b.mem.demand.filter (· != p) } } : State).putPage p (setBits (b.page p) 20 1 1)).bump64
    P.demandLoads 0 1 := rfl
  have mem : b.mem = r.2.mem := by
    simp only [b]
    split
    · exact mem_condition ..
    · rfl
  have frame : PageFrame s b p := by
    simp only [b]
    split
    · exact frame_condition loads.frame 4
    · exact loads.frame
  have regs : Strikes r.2 b := by
    simp only [b]
    split
    · exact .condition ..
    · exact .refl _
  generalize b = b at *
  have page : b.page p = r.2.page p := congrArg (fun m : Mem => (Sparse.get pageDefault m.pages p).toNat) mem
  have from' : r.2.mem.demand = s.mem.demand ∧ r.2.mem.waiting = s.mem.waiting := by
    rw [loads.rest]
    exact ⟨rfl, rfl⟩
  rw [run]
  refine ⟨?_, (congrArg Mem.tiles mem :), ?_, ?_, ?_, fun wf => ⟨?_, ?_⟩⟩
  · obtain ⟨pages, tiles, rest⟩ := frame
    exact ⟨fun q hq => (page_putPage_ne _ _ hq).trans (pages q hq), tiles, rest⟩
  · show b.mem.demand.filter (· != p) = _
    rw [mem, from'.1]
  · show b.mem.waiting = _
    rw [mem, from'.2]
  · rw [page]
    exact page_putPage_same ..
  · exact Sparse.wf_put _ _ (regs.only.wf (loads.only.wf wf))
  · refine (State.reg_setReg_same ..).trans (congrArg inc64 ?_)
    exact (regs.only.regs (loads.only.wf wf) P.demandLoads 0 (by decide) (by decide)).trans (loads.only.regs wf _ _ (by decide) (by decide))

/-- R175, R197: the end of a demand load. -/
theorem demandLoad_reads {s : State} {p : Nat} (can : Canonical s) (waits : p ∈ s.mem.demand) (kind : eKind (s.page p) = 1)
    (ready : ∀ q, s.sourcePage (eWidth (s.page p)) (eBacking (s.page p)) = some q → eLoaded (s.page q) = true ∨ q = p)
    (none' : ∀ w ∈ s.mem.waiting, pageOf w.id ≠ p) (alone : s.waitingSlots p = []) :
    let t := demandLoadStep s p
    p ∉ t.mem.demand ∧ eLoaded (t.page p) = true
        ∧ (∀ k, k < 64 → t.tile (64 * p + k) = loadedTile s (s.page p) (64 * p + k))
        ∧ t.reg P.demandLoads 0 = inc64 (s.reg P.demandLoads 0) ∧ PageFrame s t p := by
  intro t
  have run : t = (markLoaded p (loadFirst p 64 s)).pageLoaded p := demandLoadStep_eq waits kind ready
  obtain ⟨loads, loaded, -⟩ := loadFirst_reads kind (Nat.le_refl 64)
  obtain ⟨frame, tiles, demand, waiting, entry, regs⟩ := markLoaded_reads loads
  obtain ⟨wf, counted⟩ := regs can.1
  have kind' : eKind ((loadFirst p 64 s).2.page p) = 1 := (loads.entry 0 2 (by decide)).trans kind
  generalize loadFirst p 64 s = r at *
  generalize markLoaded p r = d at *
  have mapped : eKind (d.page p) = 1 := by
    rw [entry]
    unfold eKind
    rw [bits_mod_word _ _ _ (by decide), bits_setBits_other (by decide)]
    exact kind'
  have alone' : d.waitingSlots p = [] := by
    obtain ⟨-, -, -, -, dies, -, -⟩ := frame
    unfold State.waitingSlots State.die at alone ⊢
    rw [dies]
    exact alone
  have final : t = d.releaseWrites p := by
    rw [run]
    unfold State.pageLoaded
    rw [alone']
    rfl
  obtain ⟨ws, refuses⟩ := releaseWrites_refuses mapped (waiting ▸ none')
  rw [← final] at refuses
  have mem : t.mem = { d.mem with waiting := ws } := (congrArg State.mem refuses.rest :)
  have tile : ∀ k, t.tile k = d.tile k := fun k => (congrArg (fun m : Mem => Sparse.get tileDefault m.tiles k) mem :)
  have page : ∀ q, t.page q = d.page q := fun q => (congrArg (fun m : Mem => (Sparse.get pageDefault m.pages q).toNat) mem :)
  refine ⟨?_, ?_, fun k hk => ?_, (refuses.loads wf).trans counted, ?_⟩
  · rw [mem]
    show p ∉ d.mem.demand
    rw [demand]
    exact not_mem_filter_ne p _
  · rw [page, entry]
    unfold eLoaded bit
    rw [Nat.testBit_mod_two_pow, testBit_setBits, if_pos (by decide)]
    decide
  · rw [tile]
    unfold State.tile
    rw [tiles]
    exact loaded k hk
  · obtain ⟨pages, others, clock, pending, dies, upd, net⟩ := frame
    refine ⟨fun q hq => (page q).trans (pages q hq), fun id hid => (tile id).trans (others id hid), ?_⟩
    rw [refuses.rest]
    exact ⟨clock, pending, dies, upd, net⟩

end Sys2Proof.MemoryLaws

namespace Sys2Proof.Claims

open Sys2Proof.Machine Sys2Proof.MemoryLaws

/-- Settles O37: the switch of an entry, the loads of tiles, and the writes that may then go on, each on its page. -/
theorem migrationsAndLoadsCompleteOnTheirPage : Obligations.MigrationsAndLoadsCompleteOnTheirPage := by
  unfold Obligations.MigrationsAndLoadsCompleteOnTheirPage
  refine fun s p can => ⟨fun m found tier frame => ⟨fun alone => ⟨_, rfl, migrationComplete_reads can found tier frame alone⟩, ?_⟩,
    fun waits kind ready none' alone => ⟨_, rfl, demandLoad_reads can waits kind ready none' alone⟩,
    fun id here waits kind => ⟨_, rfl, backingReload_reads here waits kind⟩⟩
  intro u _ unhooked run
  obtain rfl : migrationCompleteStep { s with mem := { s.mem with migrations := unhooked } } p = u := Host.Outcome.next.inj run
  exact congrArg Host.Outcome.next (migrationCompleteStep_next found)

end Sys2Proof.Claims

/-! PROOF. Records that go to replicas (R258 to R262): one may leave over a stream number beyond the stream table, where the captured
digest group lies beyond the group table. Its segment is then counted in a register of another parameter. -/

namespace Sys2Proof.UpdateLaws

open Sys2Proof.Machine Sys2Proof.Claims

/-- The stream number whose count of segments is element 0 of parameter `p`. -/
def strayTo (p : Nat) : Nat := (p - P.segmentsSent) * 2 ^ 24

/-- The group number beyond the group table whose element is the first of the member table. -/
def strayGroup : Nat := (P.memberTable - P.groupTable) * 2 ^ 24

/-- Port 3 is up and carries the stray stream, which may send; the stray group is a group of two, whose rank 1 is reached over that
stream; and it is the digest group of shard 0 in step 7. -/
def strayReplica (p : Nat) : State :=
  let s := ((State.reset.setReg P.linkState 3 3).setReg P.streamTable (strayTo p) (2 ^ 67)).setReg P.memberTable 0 (2 + 5 * 2 ^ 32)
  let s := (s.setReg P.memberTable 6 (strayTo p)).setTx (strayTo p) { synced := true, limit := 5 }
  { s with upd := { s.upd with captured := [{ step := 7, params := [(pkey P.digestGroup 0, strayGroup)] }] } }

/-- Shard 0 is being written in step 7, and its record is counted in. -/
def strayUpdate : State :=
  let s := strayReplica P.shardRecords
  { s with upd := { s.upd with running := [some (0, 7)], steps := [{ step := 7 }] } }

/-- Shard 0 is to be rechecked in step 7, and the count of rechecks is counted in. -/
def strayRecheck : State :=
  let s := strayReplica P.rechecks
  { s with upd := { s.upd with steps := [{ step := 7, shards := [{ shard := 0, stage := 1 }] }] } }

end Sys2Proof.UpdateLaws

namespace Sys2Proof.Claims

open Sys2Proof.Machine Sys2Proof.UpdateLaws

/-- Refutes O23: the segment that carries the digest is counted in the shard's record, and changes its committed half. -/
theorem not_shardUpdatesStartRestartAndComplete : ¬ Obligations.ShardUpdatesStartRestartAndComplete := by
  unfold Obligations.ShardUpdatesStartRestartAndComplete
  intro claim
  have canonical : Canonical strayUpdate := by
    unfold Canonical
    decide +kernel
  have inRange : StreamsInRange strayUpdate := by
    unfold StreamsInRange
    decide +kernel
  have loaded : strayUpdate.unloaded (updateTiles (capReg (strayUpdate.capturedOf 7) P.shardTable 0) 7) = [] := by decide +kernel
  obtain ⟨t, run, -, -, half, -⟩ := claim.2.2 strayUpdate 0 0 7 [] canonical inRange (by decide) rfl rfl loaded
  have result : shardWrittenStep strayUpdate 0 [] = t := Host.Outcome.next.inj run
  have changed : srHalf ((shardWrittenStep strayUpdate 0 []).shardRec 0) ≠ srHalf (strayUpdate.shardRec 0) := by decide +kernel
  exact changed (result ▸ half)

/-- Refutes O26: the segment that carries the recheck's record is counted in Rechecks as well. -/
theorem not_verifiedStepsAreDecidedAndRechecked : ¬ Obligations.VerifiedStepsAreDecidedAndRechecked := by
  unfold Obligations.VerifiedStepsAreDecidedAndRechecked
  intro claim
  have canonical : Canonical strayRecheck := by
    unfold Canonical
    decide +kernel
  have inRange : StreamsInRange strayRecheck := by
    unfold StreamsInRange
    decide +kernel
  obtain ⟨t, run, -, counted, -⟩ := claim.2 strayRecheck 0 { step := 7, shards := [{ shard := 0, stage := 1 }] } { shard := 0, stage := 1 }
    canonical inRange (by decide +kernel) (by decide +kernel)
  have result : recheckStep strayRecheck 0 = t := Host.Outcome.next.inj run
  have twice : (recheckStep strayRecheck 0).reg P.rechecks 0 ≠ inc64 (strayRecheck.reg P.rechecks 0) := by decide +kernel
  exact twice (result ▸ counted)

end Sys2Proof.Claims

/-! PROOF. The open of a step (R44, R225): a stale message of a stream number beyond the stream table is counted in another register,
that of the step number among them. -/

namespace Sys2Proof.StepLaws

open Sys2Proof.Machine

/-- The stream number whose count of stale messages is the number of the step. -/
def stepStream : Nat := (P.currentStep - P.staleMessages) * 2 ^ 24

/-- Step 1 may open, and that stream holds a message of step 0. -/
def strayStale : State :=
  ((State.reset.setVal P.bootState 4).setVal P.stepGate 1).setRx stepStream
    { segs := [{ seq := 0, msg := 0, step := 0, ix := 0, last := true, payload := [] }] }

end Sys2Proof.StepLaws

namespace Sys2Proof.Claims

open Sys2Proof.Machine Sys2Proof.StepLaws

/-- Refutes O20: the message discarded at the open counts the number of the step once more. -/
theorem not_stepOpensAtTheNextNumberWhenAllowed : ¬ Obligations.StepOpensAtTheNextNumberWhenAllowed := by
  unfold Obligations.StepOpensAtTheNextNumberWhenAllowed
  intro claim
  have canonical : Canonical strayStale := by
    unfold Canonical
    decide +kernel
  have may : strayStale.mayOpen = true := by decide +kernel
  obtain ⟨t, run, -, -, -, -, -, -, next, -⟩ := claim.1 strayStale canonical may
  have result : stepOpenStep strayStale = t := Host.Outcome.next.inj run
  have number := next rfl fun kv listed => absurd listed (List.not_mem_nil)
  have counted : (stepOpenStep strayStale).step ≠ strayStale.step + 1 := by decide +kernel
  exact counted (result ▸ number)

end Sys2Proof.Claims

/-! PROOF. The endpoints' answers: address resolution, the management port, MCTP control and SPDM (R216, R228, R335, R394). -/

namespace Sys2Proof.EndpointLaws

open Sys2Proof.Machine Sys2Proof.Claims Sys2Proof.RecordLaws

/-- What a carrier whose link is up does with a neighbour solicitation. -/
theorem exec_neighborSolicitation {s : State} {c : Carrier} (up : s.carrierUp c = true) (src dest : Addr6) :
    exec (.neighborSolicitation c src dest) s = .next
      (if s.hasAddress c dest.toNat then s.emit (.neighborAdvertisement (s.linkOut c) src dest) else s.discard c) := by
  show Host.Outcome.next (solicitationStep s c src dest) = _
  unfold solicitationStep
  rw [if_neg (not_not.2 up)]

/-- What a carrier whose link is up does with an echo request. -/
theorem exec_echoRequest {s : State} {c : Carrier} (up : s.carrierUp c = true) (src dest : Addr6) (body : List Byte) :
    exec (.echoRequest c src dest body) s = .next
      (if s.hasAddress c dest.toNat then s.emit (.echoReply (s.linkOut c) dest src body) else s.discard c) := by
  show Host.Outcome.next (echoStep s c src dest body) = _
  unfold echoStep
  rw [if_neg (not_not.2 up)]

/-- A control answer leaves where the endpoint is reached, on I3C after an in-band interrupt. -/
theorem control_reached {s : State} {pcie : Bool} (up : s.mctpUp pcie = true) (r : ControlReply) :
    s.control pcie r = (if pcie then s else s.emit .inBandInterrupt).emit (.control pcie r) := by
  unfold State.control State.signal
  rw [if_pos up]
  cases pcie <;> rfl

/-- An SPDM answer leaves where the responder is reached, on I3C after an in-band interrupt. -/
theorem spdm_reached {s : State} {pcie : Bool} (up : s.mctpUp pcie = true) (boot : s.boot ≤ 4) (r : SpdmReply) :
    s.spdm pcie r = (if pcie then s else s.emit .inBandInterrupt).emit (.spdm pcie r) := by
  unfold State.spdm State.signal
  rw [if_pos (by simp [up, boot])]
  cases pcie <;> rfl

/-- The outcome of a command that leaves only an SPDM answer. -/
theorem next_spdm {s : State} {pcie : Bool} (up : s.mctpUp pcie = true) (boot : s.boot ≤ 4) (r : SpdmReply) :
    (.next (s.spdm pcie r) : Host.Outcome State Fault Refusal)
      = .next ((if pcie then s else s.emit .inBandInterrupt).emit (.spdm pcie r)) := congrArg _ (spdm_reached up boot r)

/-- The endpoint identifier has no part in whether an endpoint is reached. -/
theorem mctpUp_setEid (s : State) (pcie : Bool) (eid : Nat) : (s.setVal P.mctpEid eid).mctpUp pcie = s.mctpUp pcie := by
  have boot : (s.setVal P.mctpEid eid).boot = s.boot := val_setVal_ne s (by decide) eid
  have link : (s.setVal P.mctpEid eid).val P.hostLinkState = s.val P.hostLinkState := val_setVal_ne s (by decide) eid
  unfold State.mctpUp State.hostUp
  rw [boot, link]
  rfl

/-- An address that an endpoint without one takes. -/
theorem takeAddress_free {s : State} (up : s.mctpUp false = true) (free : s.dir.i3cAddr = 0) (a : Nat) :
    s.takeAddress a = ({ s with dir := { s.dir with i3cAddr := a % 128 } } : State).emit (.control false (.addressSet (a % 128))) := by
  unfold State.takeAddress
  rw [if_pos ⟨up, free⟩]

/-- A datagram that the management port takes is the directory's to answer. -/
theorem exec_mgmtPort {s : State} {pkt : List Byte} {dest : Endpoint} (link : s.val P.mgmtLink = 1)
    (mine : s.hasAddress .mgmt dest.addr.toNat = true) (crc : (parseHeader pkt).crcOk = true)
    (version : (parseHeader pkt).version = 1) (cls : (parseHeader pkt).cls = 3) (ce : Bool) (src : Endpoint) :
    exec (.mgmt .mgmt ce ⟨src, dest⟩ pkt) s = .next (if dest.port.toNat ≠ s.val P.mgmtUdpPort then s else
      match s.receiveMessage (ethSender 4 src) none (parseHeader pkt).payload with
      | (none, s) => s
      | (some out, s) => s.mgmtDatagram dest.addr.toNat dest.port.toNat src.addr.toNat src.port.toNat out) := by
  show Host.Outcome.next (mgmtPortStep s src dest pkt) = _
  have up : s.carrierUp .mgmt = true := by
    unfold State.carrierUp
    simpa using link
  unfold mgmtPortStep
  simp [up, mine, crc, version, cls] <;> rfl

/-- A packet on a data port whose link is up, for the module's address and stream port, is the stream protocol's to check. -/
theorem exec_mgmtData {s : State} {p : Port} (up : s.portUp p = true) (ce : Bool) (src dest : Endpoint) (pkt : List Byte) :
    exec (.mgmt (.data p) ce ⟨src, dest⟩ pkt) s = .next
      (if ¬ s.hasAddress (.data p) dest.addr.toNat ∨ dest.port.toNat ≠ s.val P.streamUdpPort then s.bump64 P.framesDropped p 1
      else mgmtDataStep s p ce src dest pkt) := by
  show Host.Outcome.next (mgmtDataStep s p ce src dest pkt) = _
  split
  next h =>
    unfold mgmtDataStep
    rw [if_neg (not_not.2 up), if_pos h]
  · rfl

/-- R217, R335: neighbour solicitations and echo requests are answered for the module's addresses only. -/
theorem answersAddresses {s : State} {c : Carrier} (up : s.carrierUp c = true) (src dest : Addr6) (body : List Byte) :
    (s.hasAddress c dest.toNat = true →
      exec (.neighborSolicitation c src dest) s = .next (s.emit (.neighborAdvertisement (s.linkOut c) src dest))
      ∧ exec (.echoRequest c src dest body) s = .next (s.emit (.echoReply (s.linkOut c) dest src body)))
    ∧ (s.hasAddress c dest.toNat = false →
      exec (.neighborSolicitation c src dest) s = .next (s.discard c)
      ∧ exec (.echoRequest c src dest body) s = .next (s.discard c)) := by
  rw [exec_neighborSolicitation up, exec_echoRequest up]
  constructor <;> intro mine <;> simp [mine]

/-- R228, R335: the answer to a datagram of the management port. -/
theorem answersMgmtPort {s : State} {pkt : List Byte} {dest : Endpoint} (link : s.val P.mgmtLink = 1)
    (mine : s.hasAddress .mgmt dest.addr.toNat = true) (crc : (parseHeader pkt).crcOk = true)
    (version : (parseHeader pkt).version = 1) (cls : (parseHeader pkt).cls = 3) (ce : Bool) (src : Endpoint)
    (out : List Byte) (u : State) :
    (dest.port.toNat ≠ s.val P.mgmtUdpPort → exec (.mgmt .mgmt ce ⟨src, dest⟩ pkt) s = .next s)
    ∧ (dest.port.toNat = s.val P.mgmtUdpPort →
      s.receiveMessage (ethSender 4 src) none (parseHeader pkt).payload = (some out, u) →
      exec (.mgmt .mgmt ce ⟨src, dest⟩ pkt) s = .next (u.emit (.udp u.mgmtLinkOut (udpPacket dest.addr.toNat src.addr.toNat none
        dest.port.toNat src.port.toNat (mgmtPacket out))))) := by
  rw [exec_mgmtPort link mine crc version cls]
  constructor
  · intro other
    rw [if_pos other]
  · intro ours answer
    rw [if_neg (not_not.2 ours), answer]
    rfl

/-- R228, R335: what a data port does with a management packet. -/
theorem answersMgmtData {s : State} {p : Port} (up : s.portUp p = true) (ce : Bool) (src dest : Endpoint) (pkt : List Byte) :
    (s.hasAddress (.data p) dest.addr.toNat = false ∨ dest.port.toNat ≠ s.val P.streamUdpPort →
      exec (.mgmt (.data p) ce ⟨src, dest⟩ pkt) s = .next (s.bump64 P.framesDropped p 1))
    ∧ (s.hasAddress (.data p) dest.addr.toNat = true → dest.port.toNat = s.val P.streamUdpPort →
      ∀ (h : Header) (v : State), s.receive p 3 ce pkt = (some h, v) →
      (seMgmt (v.streamEntry h.stream) = false ∨ v.val P.mgmtOnData ≠ 1 →
        exec (.mgmt (.data p) ce ⟨src, dest⟩ pkt) s = .next (v.bump64 P.framesDropped p 1))
      ∧ (∀ out u, seMgmt (v.streamEntry h.stream) = true → v.val P.mgmtOnData = 1 →
        v.receiveMessage (ethSender 5 src) none h.payload = (some out, u) → exec (.mgmt (.data p) ce ⟨src, dest⟩ pkt) s =
          .next (u.sendPacket h.stream 0 (netPacket 3 0 (sePeer (u.streamEntry h.stream)) (u.val P.topologyEpoch) 0 0 0 0 out)))) := by
  show (_ → Host.Outcome.next (mgmtDataStep s p ce src dest pkt) = _) ∧ (_ → _ → ∀ h v, _ →
    (_ → Host.Outcome.next (mgmtDataStep s p ce src dest pkt) = _)
      ∧ (∀ out u, _ → _ → _ → Host.Outcome.next (mgmtDataStep s p ce src dest pkt) = _))
  unfold mgmtDataStep
  rw [if_neg (not_not.2 up)]
  constructor
  · intro foreign
    rw [if_pos (foreign.imp_left fun h => by simp [h])]
  · intro mine port h v taken
    rw [if_neg (by simp [mine, port]), taken]
    constructor
    · intro closed
      dsimp only
      rw [if_pos (closed.imp_left fun h => by simp [h])]
    · intro out u stream allowed answer
      dsimp only
      rw [if_neg (by simp [stream, allowed]), answer]

/-- R335: the answers to the MCTP control messages. -/
theorem answersControl {s : State} {pcie : Bool} (up : s.mctpUp pcie = true) :
    let told (t : State) : State := if pcie then t else t.emit .inBandInterrupt
    let reply (c : Instr) (r : ControlReply) : Prop := exec c s = .next ((told s).emit (.control pcie r))
    (∀ eid : Byte, exec (.setEndpointId pcie eid) s =
        .next ((told (s.setVal P.mctpEid eid.toNat)).emit (.control pcie (.setEndpointId eid.toNat))))
    ∧ reply (.getEndpointId pcie) (.endpointId (s.val P.mctpEid))
    ∧ (∀ t : Byte, reply (.getMctpVersionSupport pcie t) (.versionSupport t.toNat (decide (t.toNat ∈ [0x00, 0x05, 0x7F, 0xFF]))))
    ∧ reply (.getMessageTypeSupport pcie) (.messageTypes [0x05, 0x7F]) := by
  refine ⟨fun eid => ?_, congrArg Host.Outcome.next (control_reached up _), fun t => ?_,
    congrArg Host.Outcome.next (control_reached up _)⟩
  · show Host.Outcome.next (setEidStep s pcie eid.toNat) = _
    unfold setEidStep
    rw [if_pos up, control_reached ((mctpUp_setEid s pcie _).trans up)]
  · have types : (t.toNat == 0xFF || t.toNat == 0 || mctpTypes.contains t.toNat)
        = decide (t.toNat ∈ [0x00, 0x05, 0x7F, 0xFF]) := by
      simp only [mctpTypes, List.contains_eq_mem, List.mem_cons, List.not_mem_nil, or_false]
      grind
    exact (congrArg Host.Outcome.next (control_reached up _)).trans (by rw [types])

/-- R335: the I3C addresses that a controller gives. -/
theorem takesAddresses {s : State} (up : s.mctpUp false = true) (free : s.dir.i3cAddr = 0) (a : Byte) :
    let taken : State := { s with dir := { s.dir with i3cAddr := a.toNat % 128 } }.emit (.control false (.addressSet (a.toNat % 128)))
    exec (.entdaa a) s = .next taken
    ∧ ∀ st : Byte, st.toNat = s.val P.i3cStaticAddress % 128 → exec (.setdasa st a) s = .next taken := by
  refine ⟨congrArg Host.Outcome.next (takeAddress_free up free _), fun st static => ?_⟩
  show Host.Outcome.next (setdasaStep s st.toNat a.toNat) = _
  unfold setdasaStep
  rw [if_pos static, takeAddress_free up free]

/-- An index of the measurements up to 8 names that one. -/
theorem measurementsStep_one (s : State) (pcie : Bool) {i : Nat} (low : 1 ≤ i) (high : i ≤ 8) :
    measurementsStep s pcie i false = s.spdm pcie (.measurements [(i, s.measurement i)] none) := by
  unfold measurementsStep
  rw [if_neg (by simp), if_neg (by omega)]
  have here : i ≠ 0xFF := by omega
  have some' : i ≠ 0 := by omega
  simp [here, some']

/-- R394, R395: the SPDM answers that need no identity. -/
theorem answersSpdm {s : State} {pcie : Bool} (up : s.mctpUp pcie = true) (boot : s.boot ≤ 4) :
    let reply (c : Instr) (r : SpdmReply) : Prop :=
      exec c s = .next ((if pcie then s else s.emit .inBandInterrupt).emit (.spdm pcie r))
    reply (.getVersion pcie) .version ∧ reply (.getCapabilities pcie) .capabilities
    ∧ reply (.negotiateAlgorithms pcie) (.algorithms (s.val P.vendorIana))
    ∧ (∀ code, reply (.spdmUnsupportedRequest pcie code) .unsupportedRequest)
    ∧ (∀ nonce, reply (.getMeasurements pcie 0 false nonce) (.measurementCount 8)
        ∧ (∀ i : Byte, 1 ≤ i.toNat → i.toNat ≤ 8 →
            reply (.getMeasurements pcie i false nonce) (.measurements [(i.toNat, s.measurement i.toNat)] none))
        ∧ reply (.getMeasurements pcie 0xFF false nonce)
            (.measurements (([1, 2, 3, 4, 5, 6, 7, 8] : List Nat).map fun i => (i, s.measurement i)) none)) := by
  have reply := next_spdm up boot
  refine ⟨reply _, reply _, reply _, fun _ => reply _, fun _ => ⟨reply _, fun i low high => ?_, reply _⟩⟩
  exact (congrArg Host.Outcome.next (measurementsStep_one s pcie low high)).trans (reply _)

/-- R394: while the identity is not good, the secured requests end with an error. -/
theorem refusesSecured {s : State} {pcie : Bool} (up : s.mctpUp pcie = true) (boot : s.boot ≤ 4) (bad : s.val P.identityState ≠ 0) :
    let reply (c : Instr) (r : SpdmReply) : Prop :=
      exec c s = .next ((if pcie then s else s.emit .inBandInterrupt).emit (.spdm pcie r))
    reply (.getDigests pcie) .unspecified
      ∧ (∀ sl o l, reply (.getCertificate pcie sl o l) .unspecified) ∧ (∀ sl n, reply (.challenge pcie sl n) .unspecified)
      ∧ ∀ i n, reply (.getMeasurements pcie i true n) .unspecified := by
  have unknown : s.identified = false := by simp [State.identified, bad]
  have reply := next_spdm up boot .unspecified
  refine ⟨?_, fun sl o l => ?_, fun sl n => ?_, fun i n => ?_⟩
  · show Host.Outcome.next (s.spdm pcie (if s.identified then _ else _)) = _
    rw [if_neg (by simp [unknown]), reply]
  · show Host.Outcome.next (s.spdm pcie (s.certificateReply _ _ _)) = _
    unfold State.certificateReply
    rw [if_pos (by simp [unknown]), reply]
  · show Host.Outcome.next (challengeStep s pcie _) = _
    unfold challengeStep
    rw [if_pos (by simp [unknown]), reply]
  · show Host.Outcome.next (measurementsStep s pcie _ true) = _
    unfold measurementsStep
    rw [if_pos (by simp [unknown]), reply]

/-- The certificates of slot 0 of a module with its identity. -/
theorem certificateReply_zero {s : State} (known : s.identified = true) (off len : Nat) :
    s.certificateReply 0 off len = if s.chain.length ≤ off then .invalidRequest
      else .certificate 0 (slice s.chain off len) (s.chain.length - off - (slice s.chain off len).length) := by
  unfold State.certificateReply
  rw [if_neg (not_not.2 known)]
  simp only [ne_eq, not_true_eq_false, false_or]

/-- A challenge of slot 0 of a module with its identity. -/
theorem challengeStep_zero {s : State} (known : s.identified = true) (pcie : Bool) :
    challengeStep s pcie 0 = s.draw.2.spdm pcie (.challengeAuth (Config.sha384 s.draw.2.chain).toNat
      (Config.freeNonce s.draw.1).toNat (Config.aliasSignature s.draw.1).toNat) := by
  unfold challengeStep
  rw [if_neg (not_not.2 known)]
  rfl

/-- R393, R394: with a good identity, digests and certificates are those of slot 0, and a challenge is signed. -/
theorem answersSecured {s : State} {pcie : Bool} (up : s.mctpUp pcie = true) (boot : s.boot ≤ 4) (good : s.val P.identityState = 0) :
    let told : List Emission := if pcie then [] else [.inBandInterrupt]
    let reply (c : Instr) (r : SpdmReply) : Prop :=
      exec c s = .next ((if pcie then s else s.emit .inBandInterrupt).emit (.spdm pcie r))
    reply (.getDigests pcie) (.digests (Config.sha384 s.chain).toNat)
      ∧ (∀ o l : W16, reply (.getCertificate pcie 0 o l) (if s.chain.length ≤ o.toNat then .invalidRequest
          else .certificate 0 (slice s.chain o.toNat l.toNat)
            (s.chain.length - o.toNat - (slice s.chain o.toNat l.toNat).length)))
      ∧ (∀ n, Completes (.challenge pcie 0 n) s fun t => (∃ nonce sig, t.out =
          .spdm pcie (.challengeAuth (Config.sha384 s.chain).toNat nonce sig) :: (told ++ s.out)) ∧ t.params = s.params ∧ SameStores s t
          ∧ t.clock = s.clock) := by
  have known : s.identified = true := by simp [State.identified, good]
  have reply := next_spdm up boot
  refine ⟨?_, fun o l => ?_, fun n => ⟨challengeStep s pcie 0, rfl, ?_⟩⟩
  · show Host.Outcome.next (s.spdm pcie (if s.identified then _ else _)) = _
    rw [if_pos known, reply]
  · show Host.Outcome.next (s.spdm pcie (s.certificateReply 0 _ _)) = _
    rw [certificateReply_zero known, reply]
  · rw [challengeStep_zero known, spdm_reached (s := s.draw.2) up boot]
    cases pcie <;> exact ⟨⟨_, _, rfl⟩, rfl, ⟨rfl, rfl, rfl, rfl⟩, rfl⟩

/-- Settles O56: each request is answered as its endpoint says, once the endpoint is reached. -/
theorem endpointsAnswerTheirRequests : Obligations.EndpointsAnswerTheirRequests := by
  unfold Obligations.EndpointsAnswerTheirRequests
  intro s _
  refine ⟨fun c src dest body up => answersAddresses up src dest body, fun up powered => ?_,
    fun ce src dest pkt out u link mine crc version cls => answersMgmtPort link mine crc version cls ce src out u,
    fun p ce src dest pkt up => answersMgmtData up ce src dest pkt, fun pcie up => answersControl up,
    fun up free a => takesAddresses up free a, fun pcie up boot => ?_⟩
  · show Host.Outcome.next (mgmtLinkStep s up) = _
    unfold mgmtLinkStep
    rw [if_pos powered]
    cases up <;> rfl
  · obtain ⟨version, capabilities, algorithms, others, measurements⟩ := answersSpdm up boot
    exact ⟨version, capabilities, algorithms, others, measurements, refusesSecured up boot, answersSecured up boot⟩

end Sys2Proof.EndpointLaws

/-! PROOF. The host's queues: their registers, their rings and their completions (R303 to R306, R311 to R315, R319). -/

namespace Sys2Proof.QueueLaws

open Sys2Proof.Machine Sys2Proof.Claims Sys2Proof.StoreTileLaws Sys2Proof.RecordLaws Sys2Proof.EventsOutLaws Sys2Proof.HostLaws
  Sys2Proof.PanelLaws

/-- The host's books and what leaves the module alone may differ. -/
def Hosts (s t : State) : Prop := t = { s with out := t.out, host := t.host }

namespace Hosts

variable {s t u : State}

theorem refl (s : State) : Hosts s s := rfl

theorem trans (h : Hosts s t) (g : Hosts t u) : Hosts s u := by
  unfold Hosts at *
  rw [g, h]

theorem setFn (s : State) (fn : Nat) (f : HostFn) : Hosts s (s.setFn fn f) := rfl

theorem setQueue (s : State) (fn q : Nat) (x : HostQueue) : Hosts s (s.setQueue fn q x) := rfl

theorem emit (s : State) (e : Emission) : Hosts s (s.emit e) := rfl

theorem sendMsix (s : State) (fn v : Nat) : Hosts s (s.sendMsix fn v) := (sendMsix_reads s fn v).1

section

variable (h : Hosts s t)

include h

theorem params : t.params = s.params := (congrArg State.params h :)
theorem clock : t.clock = s.clock := (congrArg State.clock h :)
theorem seq : t.seq = s.seq := (congrArg State.seq h :)
theorem mem : t.mem = s.mem := (congrArg State.mem h :)
theorem stores : SameStores s t := ⟨congrArg Mem.tiles h.mem, congrArg Mem.pages h.mem, (congrArg State.flash h :), (congrArg State.pending h :)⟩
theorem only : OnlyHost s t := ⟨h.stores, h.params, h.clock, h.seq, h.mem⟩
theorem reg (p e : Nat) : t.reg p e = s.reg p e := by rw [State.reg, h.params, State.reg]
theorem val (p : Nat) : t.val p = s.val p := h.reg p 0
theorem panelTime : t.panelTime = s.panelTime := by rw [State.panelTime, h.clock, State.panelTime]
theorem writesOnly (ps : List Nat) : WritesOnly ps s t := .of_params ps h.params
theorem can (c : Canonical s) : Canonical t := by
  obtain ⟨params, tiles, pages, dies⟩ := c
  exact ⟨h.params ▸ params, h.mem ▸ tiles, h.mem ▸ pages, h.seq ▸ dies⟩

end

end Hosts

theorem queue_congr {s t : State} (h : t.host = s.host) (fn q : Nat) : t.queue fn q = s.queue fn q := by
  rw [State.queue, State.hostFn, h, State.queue, State.hostFn]

/-- A queue that is replaced leaves the rest of its function. -/
theorem hostFn_setQueue (s : State) (fn q : Nat) (x : HostQueue) :
    (s.setQueue fn q x).hostFn fn = { s.hostFn fn with queues := Sparse.put queueDefault (s.hostFn fn).queues q x } :=
  hostFn_setFn ..

/-- A queue reads as it was last set. -/
@[simp] theorem queue_setQueue (s : State) (fn q : Nat) (x : HostQueue) : (s.setQueue fn q x).queue fn q = x := by
  rw [State.queue, hostFn_setQueue]
  exact Sparse.get_put_same ..

/-- R314: a message changes only which vectors of its function wait. -/
theorem hostFn_sendMsix (s : State) (fn v : Nat) :
    (s.sendMsix fn v).hostFn fn = { s.hostFn fn with irq := ((s.sendMsix fn v).hostFn fn).irq } := by
  unfold State.sendMsix
  extract_lets f
  split
  · rfl
  · split
    · rfl
    · simp only [hostFn_setFn]

theorem queue_sendMsix (s : State) (fn v q : Nat) : (s.sendMsix fn v).queue fn q = s.queue fn q := by
  rw [State.queue, hostFn_sendMsix]
  rfl

/-- A run of messages changes only which vectors of their function wait. -/
theorem sendAll_reads (fn : Nat) (vs : List Nat) (s : State) :
    let t := vs.foldl (fun s v => s.sendMsix fn v) s
    Hosts s t ∧ t.hostFn fn = { s.hostFn fn with irq := (t.hostFn fn).irq } := by
  induction vs generalizing s with
  | nil => exact ⟨.refl s, rfl⟩
  | cons v vs ih =>
    obtain ⟨host, same⟩ := ih (s.sendMsix fn v)
    refine ⟨(Hosts.sendMsix s fn v).trans host, ?_⟩
    rw [List.foldl_cons, same, hostFn_sendMsix]

/-- R302: a configuration leaves a function as it was but for the configuration and the vectors that wait. -/
theorem configure_reads (s : State) (fn : Nat) (cfg : FnConfig) :
    let t := s.configure fn cfg
    Hosts s t ∧ t.hostFn fn = { s.hostFn fn with cfg := cfg, irq := (t.hostFn fn).irq } := by
  obtain ⟨host, same⟩ := sendAll_reads fn (s.hostFn fn).irq (s.setFn fn { s.hostFn fn with cfg := cfg, irq := [] })
  refine ⟨(Hosts.setFn ..).trans host, ?_⟩
  unfold State.configure
  rw [same, hostFn_setFn]

theorem queue_configure (s : State) (fn : Nat) (cfg : FnConfig) (q : Nat) : (s.configure fn cfg).queue fn q = s.queue fn q := by
  rw [State.queue, (configure_reads s fn cfg).2]
  rfl

/-! Registers of a queue (R303). -/

theorem bit_setBits_one (x i v : Nat) : bit (setBits x i 1 v) i = decide (v % 2 = 1) := by
  unfold bit
  rw [testBit_setBits, if_pos (by omega), Nat.sub_self, Nat.testBit_zero]

@[simp] theorem reject_enabled (x : HostQueue) (code : Nat) : (x.reject code).enabled = false := bit_setBits_one ..

@[simp] theorem reject_active (x : HostQueue) (code : Nat) : (x.reject code).active = false := by
  unfold HostQueue.active HostQueue.reject bit
  rw [Nat.testBit_zero]
  simp
  omega

theorem bits_code {code : Nat} (small : code < 256) : bits (2 ^ 8 * code) 8 8 = code := by
  rw [bits, Nat.shiftRight_eq_div_pow]
  omega

theorem reject_code (x : HostQueue) {code : Nat} (small : code < 256) : bits (x.reject code).status 8 8 = code := bits_code small

/-- The registers that software wrote, but for QEnable. -/
structure SameRegisters (x y : HostQueue) : Prop where
  sq : y.sqBase = x.sqBase
  cq : y.cqBase = x.cqBase
  line : y.line = x.line
  size : y.size = x.size

theorem same_reject (x : HostQueue) (code : Nat) : SameRegisters x (x.reject code) := by
  refine ⟨rfl, rfl, rfl, ?_⟩
  unfold HostQueue.size HostQueue.reject
  rw [bits_setBits_other (by omega)]

theorem same_start (x : HostQueue) (tail head : Nat) : SameRegisters x (x.start tail head) := by
  unfold HostQueue.start
  split
  · exact same_reject ..
  · exact ⟨rfl, rfl, rfl, rfl⟩

theorem same_activate (x : HostQueue) (tail head : Nat) : SameRegisters x (x.activate tail head) := by
  unfold HostQueue.activate
  split
  · exact same_start ..
  · exact same_reject ..

/-- What a queue that has started reads as. -/
structure Started (x : HostQueue) : Prop where
  active : x.active = true
  head : x.head = 0
  tail : x.tail = 0
  phase : x.phase = 1
  cmds : x.cmds = []

theorem started (x : HostQueue) : Started (x.start 0 0) := by
  unfold HostQueue.start
  rw [if_neg (by simp)]
  exact ⟨Nat.testBit_one_zero, rfl, rfl, rfl, rfl⟩

theorem start_refused (x : HostQueue) {tail head : Nat} (h : tail ≠ 0 ∨ head ≠ 0) : x.start tail head = x.reject 3 := if_pos h

theorem activate_refused {x : HostQueue} (bad : x.formCode ≠ 0) (tail head : Nat) : x.activate tail head = x.reject x.formCode := if_neg bad

/-- The queue whose registers software writes (Table 14-4). -/
def written (sq cq line : W64) (cfg : W32) : HostQueue :=
  { sqBase := sq.toNat, cqBase := cq.toNat, line := line.toNat, config := setBits (bits cfg.toNat 0 10) 4 1 1 }

theorem written_size (sq cq line : W64) (cfg : W32) : bits (written sq cq line cfg).config 0 4 = bits cfg.toNat 0 4 := by
  unfold written
  rw [bits_setBits_other (by omega)]
  unfold bits
  rw [Nat.shiftRight_zero, Nat.shiftRight_zero]
  omega

theorem written_enabled (sq cq line : W64) (cfg : W32) : (written sq cq line cfg).enabled = true := bit_setBits_one ..

/-- The queue that QUEUE_ENABLE leaves, of a function that runs or not. -/
def enabledQueue (runs : Bool) (x : HostQueue) (tail head : Nat) : HostQueue := if runs then x.activate tail head else x

theorem exec_queueEnable {s : State} {fn : FnIx} {q : QueueIx} (up : s.hostUp = true) (off : (s.queue fn q).enabled = false)
    (sq cq line : W64) (cfg tail head : W32) :
    exec (.queueEnable fn q sq cq line cfg tail head) s
      = .next (s.setQueue fn q (enabledQueue (s.hostFn fn).running (written sq cq line cfg) tail.toNat head.toNat)) := by
  show Host.Outcome.next (queueEnableStep s fn q _ _ _) = _
  unfold queueEnableStep
  rw [if_neg (by simp [up, off])]
  rfl

/-- R303: QUEUE_ENABLE. -/
theorem queueEnable_reads {s : State} {fn : FnIx} {q : QueueIx} (up : s.hostUp = true) (off : (s.queue fn q).enabled = false)
    (sq cq line : W64) (cfg tail head : W32) :
    Completes (.queueEnable fn q sq cq line cfg tail head) s fun t => OnlyHost s t
      ∧ (t.queue fn q).sqBase = sq.toNat ∧ (t.queue fn q).cqBase = cq.toNat ∧ (t.queue fn q).line = line.toNat
      ∧ (t.queue fn q).size = 2 ^ bits cfg.toNat 0 4
      ∧ ((s.hostFn fn).running = false → (t.queue fn q).enabled = true ∧ (t.queue fn q).active = false)
      ∧ ((s.hostFn fn).running = true →
          (sq.toNat % 4096 = 0 ∧ cq.toNat % 4096 = 0 ∧ line.toNat % 64 = 0 ∧ 4 ≤ bits cfg.toNat 0 4 ∧ bits cfg.toNat 0 4 ≤ 12
            ∧ tail = 0 ∧ head = 0 → (t.queue fn q).active = true ∧ (t.queue fn q).head = 0 ∧ (t.queue fn q).tail = 0
              ∧ (t.queue fn q).phase = 1 ∧ (t.queue fn q).cmds = [])
          ∧ (sq.toNat % 4096 ≠ 0 ∨ cq.toNat % 4096 ≠ 0 ∨ line.toNat % 64 ≠ 0 →
              (t.queue fn q).active = false ∧ (t.queue fn q).enabled = false ∧ bits (t.queue fn q).status 8 8 = 0x01)) := by
  refine ⟨_, exec_queueEnable up off sq cq line cfg tail head, (Hosts.setQueue ..).only, ?_⟩
  rw [queue_setQueue]
  have same : SameRegisters (written sq cq line cfg) (enabledQueue (s.hostFn fn).running (written sq cq line cfg) tail.toNat head.toNat) := by
    unfold enabledQueue
    split
    · exact same_activate ..
    · exact ⟨rfl, rfl, rfl, rfl⟩
  have size := written_size sq cq line cfg
  refine ⟨same.sq, same.cq, same.line, same.size.trans (congrArg (2 ^ ·) size), fun stopped => ?_, fun runs => ⟨?_, fun crooked => ?_⟩⟩
  · rw [stopped]
    exact ⟨written_enabled .., Nat.zero_testBit 0⟩
  · rintro ⟨hsq, hcq, hline, low, high, rfl, rfl⟩
    have form : (written sq cq line cfg).formCode = 0 := by
      unfold HostQueue.formCode
      rw [if_neg (by simp [written, hsq, hcq, hline]), if_neg (by omega)]
    have run : enabledQueue (s.hostFn fn).running (written sq cq line cfg) (0 : W32).toNat (0 : W32).toNat = (written sq cq line cfg).start 0 0 := by
      rw [runs]
      exact if_pos form
    rw [run]
    obtain ⟨active, head, tail, phase, cmds⟩ := started (written sq cq line cfg)
    exact ⟨active, head, tail, phase, cmds⟩
  · have form : (written sq cq line cfg).formCode = 1 := if_pos crooked
    have run : enabledQueue (s.hostFn fn).running (written sq cq line cfg) tail.toNat head.toNat = (written sq cq line cfg).reject 1 := by
      rw [runs]
      exact (activate_refused (by omega) ..).trans (by rw [form])
    rw [run]
    exact ⟨reject_active .., reject_enabled .., reject_code _ (by decide)⟩

/-- R319: QUEUE_DISABLE. -/
theorem queueDisable_reads {s : State} (can : Canonical s) {fn : FnIx} {q : QueueIx} (on : (s.queue fn q).enabled = true) :
    Completes (.queueDisable fn q) s fun t => t.queue fn q = {} ∧ SameStores s t ∧ t.clock = s.clock
      ∧ OnlyRegs [P.droppedWrites] s t ∧ t.seq = s.seq := by
  refine ⟨(s.dropWrites fn q).setQueue fn q {}, congrArg Host.Outcome.next (if_pos on), queue_setQueue .., ?_⟩
  have dropped : Unhosts [P.droppedWrites] s ((s.dropWrites fn q).setQueue fn q {}) :=
    (Unhosts.dropWrites (List.mem_singleton_self _) fn.isLt s q).trans (.setFn ..)
  exact ⟨dropped.stores, dropped.clock, dropped.only.regs can.1, dropped.seq⟩

/-- R303: the first read of the line of a queue that waits for it. -/
theorem firstReread_reads {s : State} {fn : FnIx} {q : QueueIx} (runs : (s.hostFn fn).running = true)
    (on : (s.queue fn q).enabled = true) (waits : (s.queue fn q).status = 0) (tail head : W32) (cfg : FnConfig) :
    Completes (.queueLineReread ⟨fn, cfg⟩ q tail head) s fun t => OnlyHost s t ∧ (t.hostFn fn).cfg = cfg
      ∧ (tail = 0 ∧ head = 0 → (t.queue fn q).active = true ∧ (t.queue fn q).head = 0 ∧ (t.queue fn q).tail = 0
          ∧ (t.queue fn q).phase = 1 ∧ (t.queue fn q).cmds = [])
      ∧ (tail ≠ 0 ∨ head ≠ 0 → (t.queue fn q).active = false ∧ (t.queue fn q).enabled = false
          ∧ bits (t.queue fn q).status 8 8 = 0x03) := by
  obtain ⟨host, same⟩ := configure_reads s fn cfg
  have queue := queue_configure s fn cfg q
  refine ⟨(s.configure fn cfg).setQueue fn q ((s.queue fn q).start tail.toNat head.toNat), ?_, (host.trans (.setQueue ..)).only, ?_, ?_, ?_⟩
  · show Host.Outcome.next (queueRereadStep s fn q tail.toNat head.toNat cfg) = _
    unfold queueRereadStep
    rw [if_neg (not_not.2 runs)]
    extract_lets v x
    have hx : x = s.queue fn q := queue
    rw [if_pos (by rw [hx]; exact ⟨on, waits⟩), hx]
  · rw [hostFn_setQueue, same]
  · rintro ⟨rfl, rfl⟩
    rw [queue_setQueue]
    obtain ⟨active, head, tail, phase, cmds⟩ := started (s.queue fn q)
    exact ⟨active, head, tail, phase, cmds⟩
  · intro moved
    have nonzero : tail.toNat ≠ 0 ∨ head.toNat ≠ 0 := moved.imp (fun h g => h (BitVec.eq_of_toNat_eq g)) (fun h g => h (BitVec.eq_of_toNat_eq g))
    rw [queue_setQueue, start_refused _ nonzero]
    exact ⟨reject_active .., reject_enabled .., reject_code _ (by decide)⟩

theorem lineCode_small (x : HostQueue) (tail head : Nat) : x.lineCode tail head < 256 := by
  unfold HostQueue.lineCode
  extract_lets n
  split
  · decide
  · split <;> decide

/-- An Active queue is not one that waits for its first read. -/
theorem not_waiting {x : HostQueue} (active : x.active = true) : ¬ (x.enabled = true ∧ x.status = 0) := by
  rintro ⟨-, zero⟩
  unfold HostQueue.active at active
  rw [zero] at active
  exact absurd active (by decide)

/-- What the read of an Active queue's line does, in the state with the host's configuration. -/
theorem exec_reread {s : State} {fn : FnIx} {q : QueueIx} (runs : (s.hostFn fn).running = true)
    (active : (s.queue fn q).active = true) (tail head : W32) (cfg : FnConfig) :
    let x := s.queue fn q
    let code := x.lineCode tail.toNat head.toNat
    let v := s.configure fn cfg
    exec (.queueLineReread ⟨fn, cfg⟩ q tail head) s = .next
      (if code = 0 then v.setQueue fn q { x with sqTail := tail.toNat, cqHead := head.toNat }
      else ((v.setQueue fn q { x with status := 2 ^ 8 * code }).bump32 P.ringErrors fn 1).raiseEvent 7 0x11 (srcQueue fn q) (2 ^ 8 * code) 0) := by
  show Host.Outcome.next (queueRereadStep s fn q tail.toNat head.toNat cfg) = _
  have queue := queue_configure s fn cfg q
  unfold queueRereadStep
  rw [if_neg (not_not.2 runs)]
  extract_lets v x code
  have hx : x = s.queue fn q := queue
  rw [if_neg (by rw [hx]; exact not_waiting active), if_neg (by rw [hx]; exact not_not.2 active)]
  clear_value x
  subst hx
  rfl

/-- R304, R305: a line that the ring allows is taken. -/
theorem takenLine_reads {s : State} {fn : FnIx} {q : QueueIx} (runs : (s.hostFn fn).running = true)
    (active : (s.queue fn q).active = true) (tail head : W32) (cfg : FnConfig) (good : (s.queue fn q).lineCode tail.toNat head.toNat = 0) :
    Completes (.queueLineReread ⟨fn, cfg⟩ q tail head) s fun t => OnlyHost s t
      ∧ t.queue fn q = { s.queue fn q with sqTail := tail.toNat, cqHead := head.toNat } ∧ (t.hostFn fn).cfg = cfg := by
  obtain ⟨host, same⟩ := configure_reads s fn cfg
  refine ⟨_, (exec_reread runs active tail head cfg).trans (congrArg _ (if_pos good)), (host.trans (.setQueue ..)).only, queue_setQueue .., ?_⟩
  rw [hostFn_setQueue, same]

/-- R305: a line that breaks the ring stops the queue. -/
theorem brokenLine_reads {s : State} (can : Canonical s) {fn : FnIx} {q : QueueIx} (runs : (s.hostFn fn).running = true)
    (active : (s.queue fn q).active = true) (tail head : W32) (cfg : FnConfig) (bad : (s.queue fn q).lineCode tail.toNat head.toNat ≠ 0) :
    Completes (.queueLineReread ⟨fn, cfg⟩ q tail head) s fun t =>
      (t.queue fn q).active = false ∧ bits (t.queue fn q).status 8 8 = (s.queue fn q).lineCode tail.toNat head.toNat
      ∧ t.reg P.ringErrors fn = inc32 (s.reg P.ringErrors fn) ∧ t.reg P.eventsRaised 7 = inc64 (s.reg P.eventsRaised 7)
      ∧ SameStores s t ∧ t.clock = s.clock ∧ t.seq = s.seq := by
  refine ⟨_, (exec_reread runs active tail head cfg).trans (congrArg _ (if_neg bad)), ?_⟩
  have small := lineCode_small (s.queue fn q) tail.toNat head.toNat
  generalize (s.queue fn q).lineCode tail.toNat head.toNat = code at small
  have host : Hosts s ((s.configure fn cfg).setQueue fn q { s.queue fn q with status := 2 ^ 8 * code }) :=
    (configure_reads s fn cfg).1.trans (.setQueue ..)
  have queue : ((s.configure fn cfg).setQueue fn q { s.queue fn q with status := 2 ^ 8 * code }).queue fn q
      = { s.queue fn q with status := 2 ^ 8 * code } := queue_setQueue ..
  generalize (s.configure fn cfg).setQueue fn q _ = v at host queue
  have index : (fn : Nat) < 2 ^ 24 := by omega
  have counted : Records [P.ringErrors] v (v.bump32 P.ringErrors fn 1) := .bump32 (List.mem_singleton_self _) index v 1
  have told : Records eventRegs (v.bump32 P.ringErrors fn 1)
      ((v.bump32 P.ringErrors fn 1).raiseEvent 7 0x11 (srcQueue fn q) (2 ^ 8 * code) 0) := .raiseEvent (List.Subset.refl _) (by decide) ..
  have canB := counted.can (host.can can)
  have queueT := (queue_congr (told.host.trans counted.host) fn q).trans queue
  dsimp only at queueT ⊢
  rw [queueT]
  refine ⟨?_, bits_code small, ?_, ?_, ?_, told.clock.trans (counted.clock.trans host.clock), told.seq.trans (counted.seq.trans host.seq)⟩
  · unfold HostQueue.active bit
    rw [Nat.testBit_zero]
    simp
    omega
  · rw [told.reg canB (by decide) index]
    exact (State.reg_setReg_same ..).trans (congrArg inc32 (host.reg ..))
  · rw [EventLaws.reg_raiseEvent_eventsRaised canB.1 (by decide), counted.reg (host.can can) (by decide) (by decide), host.reg]
  · obtain ⟨tiles, pages, flash, pending⟩ := host.stores
    obtain ⟨tilesC, pagesC, flashC, pendingC⟩ := counted.stores
    obtain ⟨tilesT, pagesT, flashT, pendingT⟩ := told.stores
    exact ⟨tilesT.trans (tilesC.trans tiles), pagesT.trans (pagesC.trans pages), flashT.trans (flashC.trans flash),
      pendingT.trans (pendingC.trans pending)⟩

/-- A queue with its next command fetched (R304, R306). -/
def fetched (x : HostQueue) (c : HostCmd) (dones : Nat) : HostQueue :=
  { x with head := (x.head + 1) % x.size, next := x.next + 1, dones := dones, cmds := x.cmds ++ [c] }

/-- Whether a queue may fetch its next command (R306). -/
structure Fetches (s : State) (fn q : Nat) : Prop where
  runs : (s.hostFn fn).running = true
  active : (s.queue fn q).active = true
  more : (s.queue fn q).head ≠ (s.queue fn q).sqTail
  room : (s.queue fn q).cmds.length < 64
  held : (s.hostFn fn).held < 256

theorem Fetches.open {s : State} {fn q : Nat} (h : Fetches s fn q) :
    ¬ (¬ (s.hostFn fn).running = true ∨ ¬ ((s.hostFn fn).queue q).active = true ∨ ((s.hostFn fn).queue q).head = ((s.hostFn fn).queue q).sqTail
      ∨ 64 ≤ ((s.hostFn fn).queue q).cmds.length ∨ 256 ≤ (s.hostFn fn).held) := by
  obtain ⟨runs, active, more, room, held⟩ := h
  rintro (a | a | a | a | a)
  · exact a runs
  · exact a active
  · exact more a
  · exact absurd room (by exact Nat.not_lt.2 a)
  · omega

/-- R304, R306: a command that was read joins its queue. -/
theorem commandFetch_read {s : State} {fn : FnIx} {q : QueueIx} (h : Fetches s fn q) {bs : List Byte} (whole : bs.length = 128) :
    let x := s.queue fn q
    Completes (.commandFetch fn q (some bs)) s fun t => OnlyHost s t
      ∧ t.queue fn q = { x with head := (x.head + 1) % x.size, next := x.next + 1, cmds := x.cmds ++
          [{ n := x.next, bytes := bs, head := (x.head + 1) % x.size, epoch := s.val P.linkEpoch }] } := by
  intro x
  refine ⟨s.setQueue fn q (fetched x { n := x.next, bytes := bs, head := (x.head + 1) % x.size, epoch := s.val P.linkEpoch } x.dones), ?_,
    (Hosts.setQueue ..).only, queue_setQueue ..⟩
  show Host.Outcome.next (commandFetchStep s fn q (some bs)) = _
  unfold commandFetchStep
  rw [if_neg h.open]
  dsimp only
  rw [if_neg (not_not.2 whole)]
  rfl

/-- What a failed fetch leaves in queue `x` of function `fn` (R315), of the state that has drawn its identifier. -/
def lostFetch (s : State) (fn : Nat) (x : HostQueue) : HostCmd :=
  { n := x.next, bytes := lostCommand ((Config.hostWord s.draw.1).toNat % 65536), head := (x.head + 1) % x.size
    epoch := (s.draw.2.bump64 P.hostReadErrors fn 1).val P.linkEpoch, done := some (3, 0), order := x.dones }

/-- R315: a command that could not be read ends with status 3. -/
theorem commandFetch_lost {s : State} (can : Canonical s) {fn : FnIx} {q : QueueIx} (h : Fetches s fn q) :
    let x := s.queue fn q
    Completes (.commandFetch fn q none) s fun t => t.reg P.hostReadErrors fn = inc64 (s.reg P.hostReadErrors fn)
      ∧ (t.queue fn q).head = (x.head + 1) % x.size ∧ Ended t fn q x.next 0x0003 0 ∧ OnlyRegs [P.hostReadErrors] s t
      ∧ SameStores s t ∧ t.clock = s.clock ∧ t.seq = s.seq := by
  intro x
  have index : (fn : Nat) < 2 ^ 24 := by omega
  have counted : Unhosts [P.hostReadErrors] s (s.draw.2.bump64 P.hostReadErrors fn 1) :=
    Unhosts.trans (t := s.draw.2) ⟨rfl, .of_params _ rfl⟩ (.setReg (List.mem_singleton_self _) index _ _)
  have added : exec (.commandFetch fn q none) s = .next
      ((s.draw.2.bump64 P.hostReadErrors fn 1).setQueue fn q (fetched x (lostFetch s fn x) (x.dones + 1))) := by
    show Host.Outcome.next (commandFetchStep s fn q none) = _
    unfold commandFetchStep
    rw [if_neg h.open]
    rfl
  refine ⟨_, added, reg_bump64_same .., ?_, ?_, ?_⟩
  · rw [queue_setQueue]
    rfl
  · refine ⟨lostFetch s fn x, ?_, rfl, rfl⟩
    rw [queue_setQueue]
    exact List.mem_append_right _ (List.mem_singleton_self _)
  · have all : Unhosts [P.hostReadErrors] s
        ((s.draw.2.bump64 P.hostReadErrors fn 1).setQueue fn q (fetched x (lostFetch s fn x) (x.dones + 1))) := counted.trans (.setFn ..)
    exact ⟨all.only.regs can.1, all.stores, all.clock, all.seq⟩

/-- Only the earliest completed command of a queue with a free entry may write its completion (R306, R312). -/
structure MayComplete (s : State) (fn q n : Nat) (c : HostCmd) (st res : Nat) : Prop where
  runs : (s.hostFn fn).running = true
  found : (s.queue fn q).cmds.find? (fun c => c.n == n) = some c
  unique : ∀ k ∈ (s.queue fn q).cmds, k.n = n → k = c
  done : c.done = some (st, res)
  room : ((s.queue fn q).tail + 1) % (s.queue fn q).size ≠ (s.queue fn q).cqHead
  first : ∀ k ∈ (s.queue fn q).cmds, k.done.isSome = true → c.order ≤ k.order

/-- A command that has run is none of those that end as reserved. -/
theorem endReserved_done {s : State} {fn q n : Nat} {c : HostCmd} {r : Nat × Nat} (unique : ∀ k ∈ (s.queue fn q).cmds, k.n = n → k = c)
    (done : c.done = some r) : s.endReserved fn q n = s := by
  unfold State.endReserved
  have none : (s.queue fn q).cmds.find? (fun c => c.n == n && c.done.isNone) = none := by
    refine List.find?_eq_none.2 fun k hk both => ?_
    obtain ⟨hn, open'⟩ := Bool.and_eq_true_iff.1 both
    rw [unique k hk (by simpa using hn), done] at open'
    exact absurd open' Bool.false_ne_true
  dsimp only
  rw [none]

/-- A queue once the completion of command `n` stands at its tail (R312). -/
def completed (x : HostQueue) (n : Nat) : HostQueue :=
  { x with
    tail := (x.tail + 1) % x.size, phase := if (x.tail + 1) % x.size = 0 then 1 - x.phase else x.phase
    cmds := x.cmds.filter fun o => o.n != n }

/-- The state once the completion is written and counted, before its message. -/
def completionWritten (s : State) (fn : Nat) (cfg : FnConfig) (q n : Nat) (c : HostCmd) (st res : Nat) : State :=
  let x := s.queue fn q
  (((s.configure fn cfg).emit (.hostWrite fn (x.cqBase + 32 * x.tail) (completionBytes x q c st res s.panelTime) c.flush)).setQueue fn q
    (completed x n)).bump64 P.commandsDone fn 1

theorem exec_completionWrite {s : State} {fn : FnIx} {q : QueueIx} {n : Nat} {c : HostCmd} {st res : Nat}
    (h : MayComplete s fn q n c st res) (cfg : FnConfig) :
    exec (.completionWrite ⟨fn, cfg⟩ q n) s = .next
      (if bit (s.queue fn q).config 5 then (completionWritten s fn cfg q n c st res).sendMsix fn (bits (s.queue fn q).config 6 4)
      else completionWritten s fn cfg q n c st res) := by
  obtain ⟨runs, found, unique, done, room, first⟩ := h
  have queue := queue_configure s fn cfg q
  have time := (configure_reads s fn cfg).1.panelTime
  have ended : (s.configure fn cfg).endReserved fn q n = s.configure fn cfg := endReserved_done (by rw [queue]; exact unique) done
  have earliest : (s.queue fn q).cmds.any (fun o => o.done.isSome && decide (o.order < c.order)) = false := by
    refine List.any_eq_false.2 fun k hk both => ?_
    obtain ⟨some', before⟩ := Bool.and_eq_true_iff.1 both
    exact absurd (first k hk some') (by simpa using before)
  show Host.Outcome.next (completionStep s fn q n cfg) = _
  unfold completionStep
  rw [if_neg (not_not.2 runs)]
  dsimp only
  rw [ended, queue, found]
  dsimp only
  rw [done]
  dsimp only
  rw [if_neg (by simp [room, earliest]), time]
  rfl

/-- R306, R311 to R314: the completion of a command is written. -/
theorem completionWrite_reads {s : State} (can : Canonical s) {fn : FnIx} {q : QueueIx} {n : Nat} {c : HostCmd} {st res : Nat}
    (h : MayComplete s fn q n c st res) (cfg : FnConfig) :
    let x := s.queue fn q
    Completes (.completionWrite ⟨fn, cfg⟩ q n) s fun t =>
      .hostWrite fn (x.cqBase + 32 * x.tail) (completionBytes x q c st res s.panelTime) c.flush ∈ t.out ∧ (t.hostFn fn).cfg = cfg
      ∧ (t.queue fn q).tail = (x.tail + 1) % x.size ∧ (∀ k ∈ (t.queue fn q).cmds, k.n ≠ n)
      ∧ (t.queue fn q).phase = (if (x.tail + 1) % x.size = 0 then 1 - x.phase else x.phase)
      ∧ (bit x.config 5 = true → ((∃ v ∈ cfg.unmasked, v.val = bits x.config 6 4) ∧ cfg.msix = true →
            t.out.head? = some (.msix fn (bits x.config 6 4)))
          ∧ ((∀ v ∈ cfg.unmasked, v.val ≠ bits x.config 6 4) ∨ cfg.msix = false → bits x.config 6 4 ∈ (t.hostFn fn).irq))
      ∧ t.reg P.commandsDone fn = inc64 (s.reg P.commandsDone fn) ∧ OnlyRegs [P.commandsDone] s t ∧ SameStores s t
      ∧ t.clock = s.clock ∧ t.seq = s.seq := by
  intro x
  refine ⟨_, exec_completionWrite h cfg, ?_⟩
  have index : (fn : Nat) < 2 ^ 24 := by omega
  obtain ⟨host, same⟩ := configure_reads s fn cfg
  have before : Hosts s (((s.configure fn cfg).emit (.hostWrite fn (x.cqBase + 32 * x.tail) (completionBytes x q c st res s.panelTime)
      c.flush)).setQueue fn q (completed x n)) := host.trans (.trans (.emit ..) (.setQueue ..))
  have counted : Records [P.commandsDone] _ (completionWritten s fn cfg q n c st res) :=
    .bump64 (List.mem_singleton_self _) index _ 1
  have count : (completionWritten s fn cfg q n c st res).reg P.commandsDone fn = inc64 (s.reg P.commandsDone fn) :=
    (reg_bump64_same ..).trans (congrArg inc64 (before.reg ..))
  have queue : (completionWritten s fn cfg q n c st res).queue fn q = completed x n :=
    (queue_congr counted.host fn q).trans (queue_setQueue ..)
  have cfgW : ((completionWritten s fn cfg q n c st res).hostFn fn).cfg = cfg := by
    rw [State.hostFn, counted.host]
    show (State.hostFn _ fn).cfg = cfg
    rw [hostFn_setQueue]
    show ((s.configure fn cfg).hostFn fn).cfg = cfg
    rw [same]
  have wrote : .hostWrite fn (x.cqBase + 32 * x.tail) (completionBytes x q c st res s.panelTime) c.flush
      ∈ (completionWritten s fn cfg q n c st res).out := List.mem_cons_self ..
  have stores : SameStores s (completionWritten s fn cfg q n c st res) := by
    obtain ⟨tiles, pages, flash, pending⟩ := before.stores
    obtain ⟨tilesC, pagesC, flashC, pendingC⟩ := counted.stores
    exact ⟨tilesC.trans tiles, pagesC.trans pages, flashC.trans flash, pendingC.trans pending⟩
  have only : OnlyRegs [P.commandsDone] s (completionWritten s fn cfg q n c st res) :=
    ((before.writesOnly _).trans counted.only).regs can.1
  have clock := counted.clock.trans before.clock
  have seq := counted.seq.trans before.seq
  have gone : ∀ k ∈ (completed x n).cmds, k.n ≠ n := fun k hk => by simpa using (List.mem_filter.1 hk).2
  generalize completionWritten s fn cfg q n c st res = w at *
  by_cases tells : bit x.config 5 = true
  · dsimp only
    rw [if_pos tells]
    obtain ⟨-, ⟨es, out⟩, sent, waits⟩ := sendMsix_reads w fn (bits x.config 6 4)
    have hosts := Hosts.sendMsix w fn (bits x.config 6 4)
    rw [cfgW] at sent waits
    refine ⟨?_, ?_, ?_, ?_, ?_, fun _ => ⟨sent, waits⟩, (hosts.reg ..).trans count, fun p e he hp => (hosts.reg p e).trans (only p e he hp),
      ?_, hosts.clock.trans clock, hosts.seq.trans seq⟩
    · rw [out]
      exact List.mem_append_right _ wrote
    · rw [hostFn_sendMsix]
      exact cfgW
    · rw [queue_sendMsix, queue]
      rfl
    · rw [queue_sendMsix, queue]
      exact gone
    · rw [queue_sendMsix, queue]
      rfl
    · obtain ⟨tiles, pages, flash, pending⟩ := stores
      obtain ⟨tilesH, pagesH, flashH, pendingH⟩ := hosts.stores
      exact ⟨tilesH.trans tiles, pagesH.trans pages, flashH.trans flash, pendingH.trans pending⟩
  · dsimp only
    rw [if_neg tells]
    refine ⟨wrote, cfgW, ?_, ?_, ?_, fun h => absurd h tells, count, only, stores, clock, seq⟩
    · rw [queue]
      rfl
    · rw [queue]
      exact gone
    · rw [queue]
      rfl

/-- Settles O48: each command of a queue does to its ring what its rule says. -/
theorem hostQueuesFollowTheirRings : Obligations.HostQueuesFollowTheirRings := by
  unfold Obligations.HostQueuesFollowTheirRings
  intro s fn q can x
  refine ⟨fun sq cq line cfg tail head up off => queueEnable_reads up off sq cq line cfg tail head, fun on => queueDisable_reads can on,
    fun tail head cfg runs on waits => firstReread_reads runs on waits tail head cfg,
    fun tail head cfg runs active => ⟨fun good => takenLine_reads runs active tail head cfg good,
      fun bad => brokenLine_reads can runs active tail head cfg bad⟩,
    fun runs active more room held => ⟨fun bs whole => commandFetch_read ⟨runs, active, more, room, held⟩ whole,
      commandFetch_lost can ⟨runs, active, more, room, held⟩⟩,
    fun n c st res cfg runs found unique done room first => completionWrite_reads can ⟨runs, found, unique, done, room, first⟩ cfg⟩

end Sys2Proof.QueueLaws

/-! PROOF. The host's functions and the host link: enabled, disabled, quiesced, up and down (R299 to R301, R316 to R319, R385). -/

namespace Sys2Proof.FunctionLaws

open Sys2Proof.Machine Sys2Proof.Claims Sys2Proof.StoreTileLaws Sys2Proof.RecordLaws Sys2Proof.EventsOutLaws Sys2Proof.HostLaws
  Sys2Proof.QueueLaws Sys2Proof.PanelLaws

/-- A sparse map changed element by element reads so, where what is unlisted does not change. -/
theorem get_map {α : Type} (d : Nat → α) (f : α → α) (fixed : ∀ k, f (d k) = d k) (m : Sparse α) (k : Nat) :
    Sparse.get d (m.map fun kv => (kv.1, f kv.2)) k = f (Sparse.get d m k) := by
  induction m with
  | nil => exact (fixed k).symm
  | cons kv m ih =>
    show (if k < kv.1 then d k else if k = kv.1 then f kv.2 else Sparse.get d (m.map fun kv => (kv.1, f kv.2)) k)
      = f (if k < kv.1 then d k else if k = kv.1 then kv.2 else Sparse.get d m k)
    split
    · exact (fixed k).symm
    · split
      · rfl
      · exact ih

/-- The host's books, what leaves the module and registers among `ps` alone may differ. -/
structure Serves (ps : List Nat) (s t : State) : Prop where
  rest : t = { s with params := t.params, host := t.host, out := t.out }
  only : WritesOnly ps s t

namespace Serves

variable {ps : List Nat} {s t u : State}

theorem trans (h : Serves ps s t) (g : Serves ps t u) : Serves ps s u := by
  refine ⟨?_, h.only.trans g.only⟩
  rw [g.rest, h.rest]

theorem of_hosts (h : Hosts s t) : Serves ps s t := by
  refine ⟨?_, h.writesOnly ps⟩
  unfold Hosts at h
  rw [h]

theorem setVal {p : Nat} (hp : p ∈ ps) (s : State) (v : Nat) : Serves ps s (s.setVal p v) := ⟨rfl, .setReg hp (by decide) s v⟩

section

variable (h : Serves ps s t)

include h

theorem clock : t.clock = s.clock := (congrArg State.clock h.rest :)
theorem seq : t.seq = s.seq := (congrArg State.seq h.rest :)
theorem mem : t.mem = s.mem := (congrArg State.mem h.rest :)
theorem stores : SameStores s t :=
  ⟨congrArg Mem.tiles h.mem, congrArg Mem.pages h.mem, (congrArg State.flash h.rest :), (congrArg State.pending h.rest :)⟩

end

end Serves

/-! Enabling (R317). -/

/-- R303, R317: the queues of a function that begins to run, those with QEnable 1 checked. -/
def checkedQueues (f : HostFn) : Sparse HostQueue := f.queues.map fun kv => (kv.1, if kv.2.enabled then kv.2.form else kv.2)

theorem checkedQueues_queue (f : HostFn) (q : Nat) :
    Sparse.get queueDefault (checkedQueues f) q = if (f.queue q).enabled then (f.queue q).form else f.queue q :=
  get_map queueDefault (fun x => if x.enabled then x.form else x) (fun _ => if_neg (by simp [queueDefault, HostQueue.enabled, bit])) f.queues q

/-- A function whose epoch line is written, with global observation or not (R317). -/
def lineWritten (f : HostFn) (observed : Bool) : HostFn :=
  if observed then { f with running := true, again := none, queues := checkedQueues f }
  else { f with epochFault := true, again := none }

/-- R317: a function's epoch line is written. -/
theorem runFunction_reads (s : State) (fn : Nat) (observed : Bool) :
    let t := s.runFunction fn observed
    Hosts s t ∧ t.hostFn fn = lineWritten (s.hostFn fn) observed ∧ ∃ b, .hostWrite fn (s.hostFn fn).epochLine b false ∈ t.out := by
  intro t
  cases observed with
  | true => exact ⟨rfl, hostFn_setFn .., _, List.mem_cons_self ..⟩
  | false => exact ⟨rfl, hostFn_setFn .., _, List.mem_cons_self ..⟩

/-- A function that is enabled, before its epoch line is written (R317). -/
def enabledFn (f : HostFn) (line : Nat) (observed : Bool) : HostFn := { f with enable := true, epochLine := line, again := some (line, observed) }

/-- The state with VfCount raised and the function enabled, before its epoch line is written (R317). -/
def functionEnabled (s : State) (fn line : Nat) (observed : Bool) : State :=
  (s.setVal P.vfCount (max (s.val P.vfCount) fn)).setFn fn (enabledFn (s.hostFn fn) line observed)

theorem enableFunction_quiesced {s : State} {fn : Nat} (quiesced : (s.hostFn fn).quiesced = true) (line : Nat) (observed : Bool) :
    s.enableFunction fn line observed = if s.up 3 then (functionEnabled s fn line observed).runFunction fn observed
      else functionEnabled s fn line observed := by
  unfold State.enableFunction
  extract_lets f v w
  rw [if_neg (not_not.2 quiesced)]
  have up : w.up 3 = s.up 3 := by
    have boot : w.boot = s.boot := val_setVal_ne s (by decide) _
    unfold State.up
    rw [boot]
  rw [up]
  rfl

theorem functionEnabled_reads (s : State) (fn line : Nat) (observed : Bool) :
    let t := functionEnabled s fn line observed
    Serves [P.vfCount] s t ∧ t.hostFn fn = enabledFn (s.hostFn fn) line observed ∧ t.val P.vfCount = max (s.val P.vfCount) fn :=
  ⟨.trans (.setVal (List.mem_singleton_self _) s _) (.of_hosts (.setFn ..)), hostFn_setFn .., State.val_setVal_same ..⟩

/-- R317: FUNCTION_ENABLE of a function that is quiesced. -/
theorem functionEnable_reads {s : State} (can : Canonical s) {fn : FnIx} (up : s.hostUp = true) (off : (s.hostFn fn).enable = false)
    (quiesced : (s.hostFn fn).quiesced = true) (line : W64) (ok : Bool) (cfg : FnConfig) :
    Completes (.functionEnable ⟨fn, cfg⟩ line ok) s fun t => (t.hostFn fn).enable = true
      ∧ (t.hostFn fn).epochLine = line.toNat ∧ (t.hostFn fn).cfg = cfg
      ∧ t.val P.vfCount = max (s.val P.vfCount) fn ∧ OnlyRegs [P.vfCount] s t ∧ SameStores s t ∧ t.clock = s.clock ∧ t.seq = s.seq
      ∧ (s.up 3 = true → (t.hostFn fn).running = (ok || (s.hostFn fn).running) ∧ ((t.hostFn fn).epochFault = true ∨ ok = true)
          ∧ (∃ b, .hostWrite fn line.toNat b false ∈ t.out)
          ∧ (ok = true → ∀ q : QueueIx, (s.queue fn q).enabled = true → (s.queue fn q).formCode ≠ 0 →
              (t.queue fn q).enabled = false ∧ (t.queue fn q).active = false
              ∧ bits (t.queue fn q).status 8 8 = (s.queue fn q).formCode)) := by
  obtain ⟨host, same⟩ := configure_reads s fn cfg
  have upV : (s.configure fn cfg).up 3 = s.up 3 := by
    unfold State.up State.boot
    rw [host.val]
  have quiescedV : ((s.configure fn cfg).hostFn fn).quiesced = true := by rw [same]; exact quiesced
  have run : exec (.functionEnable ⟨fn, cfg⟩ line ok) s = .next
      (if s.up 3 then (functionEnabled (s.configure fn cfg) fn line.toNat ok).runFunction fn ok
      else functionEnabled (s.configure fn cfg) fn line.toNat ok) := by
    show Host.Outcome.next (functionEnableStep s fn line.toNat ok cfg) = _
    unfold functionEnableStep
    rw [if_neg (by simp [up, off]), enableFunction_quiesced quiescedV, upV]
  have queues (q : Nat) : ((s.configure fn cfg).hostFn fn).queue q = s.queue fn q := queue_configure ..
  have running : ((s.configure fn cfg).hostFn fn).running = (s.hostFn fn).running := by rw [same]
  have cfgV : ((s.configure fn cfg).hostFn fn).cfg = cfg := by rw [same]
  have value := host.val P.vfCount
  obtain ⟨serves, fnW, count⟩ := functionEnabled_reads (s.configure fn cfg) fn line.toNat ok
  have all : Serves [P.vfCount] s (functionEnabled (s.configure fn cfg) fn line.toNat ok) := .trans (.of_hosts host) serves
  rw [value] at count
  refine ⟨_, run, ?_⟩
  generalize functionEnabled (s.configure fn cfg) fn line.toNat ok = w at *
  generalize (s.configure fn cfg).hostFn fn = f at *
  by_cases boot : s.up 3 = true
  · rw [if_pos boot]
    obtain ⟨ran, fnT, b, sent⟩ := runFunction_reads w fn ok
    have done := all.trans (.of_hosts ran)
    have lineW : (w.hostFn fn).epochLine = line.toNat := by rw [fnW]; rfl
    have kept : ((w.runFunction fn ok).hostFn fn).enable = true ∧ ((w.runFunction fn ok).hostFn fn).epochLine = line.toNat
        ∧ ((w.runFunction fn ok).hostFn fn).cfg = cfg := by
      rw [fnT, fnW]
      cases ok <;> exact ⟨rfl, rfl, cfgV⟩
    obtain ⟨enable, epochLine, config⟩ := kept
    refine ⟨enable, epochLine, config, (ran.val _).trans count, done.only.regs can.1, done.stores, done.clock, done.seq,
      fun _ => ⟨?_, ?_, ⟨b, lineW ▸ sent⟩, ?_⟩⟩
    · rw [fnT, fnW, ← running]
      cases ok <;> rfl
    · cases ok with
      | true => exact .inr rfl
      | false =>
        left
        rw [fnT]
        rfl
    · rintro rfl q on bad
      have queueT : (w.runFunction fn true).queue fn q = (s.queue fn q).reject (s.queue fn q).formCode := by
        rw [State.queue, fnT, fnW]
        show Sparse.get queueDefault (checkedQueues (enabledFn f line.toNat true)) q = _
        rw [checkedQueues_queue, show (enabledFn f line.toNat true).queue q = s.queue fn q from queues q, if_pos on]
        exact if_neg bad
      have code : (s.queue fn q).formCode < 256 := by
        unfold HostQueue.formCode
        split
        · decide
        · split <;> decide
      rw [queueT]
      exact ⟨reject_enabled .., reject_active .., reject_code _ code⟩
  · rw [if_neg boot, fnW]
    exact ⟨rfl, rfl, cfgV, count, all.only.regs can.1, all.stores, all.clock, all.seq, fun h => absurd h boot⟩

/-! Disabling (R318). -/

/-- R318: what stays of a function that is disabled. -/
def disabledFn (f : HostFn) : HostFn := { quiesced := f.quiesced && !f.enable, epochLine := f.epochLine, cfg := f.cfg, irq := f.irq }

/-- The state with a function's writes abandoned and its queues gone, before the quiesce is counted (R318). -/
def disabledBooks (s : State) (fn : Nat) : State :=
  (((s.hostFn fn).queues.map Prod.fst).foldl (fun s q => s.dropWrites fn q) s).setFn fn (disabledFn (s.hostFn fn))

theorem disableFunction_reads {s : State} (can : Canonical s) {fn : Nat} (small : fn < 9) :
    let t := s.disableFunction fn
    Unhosts [P.quiesces, P.droppedWrites] s t ∧ t.hostFn fn = disabledFn (s.hostFn fn)
      ∧ ((s.hostFn fn).enable = true → t.reg P.quiesces fn = inc32 (s.reg P.quiesces fn)) := by
  intro t
  have dropped : Unhosts [P.droppedWrites] s (((s.hostFn fn).queues.map Prod.fst).foldl (fun s q => s.dropWrites fn q) s) :=
    .foldl (fun q _ v => .dropWrites (List.mem_singleton_self _) small v q) s
  have run : t = if (s.hostFn fn).enable then (disabledBooks s fn).bump32 P.quiesces fn 1 else disabledBooks s fn := rfl
  have books : Unhosts [P.quiesces, P.droppedWrites] s (disabledBooks s fn) := (dropped.mono (by decide)).trans (.setFn ..)
  have index : fn < 2 ^ 24 := by omega
  rw [run]
  split
  · refine ⟨books.trans (.setReg (by decide) index _ _), hostFn_setFn .., fun _ => ?_⟩
    exact (State.reg_setReg_same ..).trans (congrArg inc32 (dropped.reg can (by decide) index))
  · exact ⟨books, hostFn_setFn .., fun on => absurd on ‹_›⟩

/-- What a function reads as once it is disabled for cause `c` (R318). -/
def offFn (f : HostFn) (c : DisableCause) : HostFn := if c = .flr then { disabledFn f with cfg := {}, irq := [] } else disabledFn f

theorem functionDisable_reads {s : State} (can : Canonical s) {fn : FnIx} {c : DisableCause} (one : c ≠ .vfDisable) :
    Unhosts [P.quiesces, P.droppedWrites] s (functionDisableStep s fn c) ∧ (functionDisableStep s fn c).hostFn fn = offFn (s.hostFn fn) c
      ∧ ((s.hostFn fn).enable = true → (functionDisableStep s fn c).reg P.quiesces fn = inc32 (s.reg P.quiesces fn)) := by
  obtain ⟨books, same, count⟩ := disableFunction_reads can fn.isLt
  cases c with
  | flr =>
    refine ⟨books.trans (.setFn ..), (hostFn_setFn ..).trans ?_, count⟩
    rw [same]
    rfl
  | vfDisable => exact absurd rfl one
  | enableClear => exact ⟨books, same, count⟩
  | busMasterClear => exact ⟨books, same, count⟩

/-- R318: FUNCTION_DISABLE of one function. -/
theorem functionDisable_one {s : State} (can : Canonical s) (fn : FnIx) {c : DisableCause} (one : c ≠ .vfDisable)
    (on : (s.hostFn fn).enable = true) : Completes (.functionDisable fn c) s fun t =>
      (t.hostFn fn).enable = false ∧ (t.hostFn fn).running = false ∧ (t.hostFn fn).quiesced = false ∧ (t.hostFn fn).queues = []
      ∧ (t.hostFn fn).epochLine = (s.hostFn fn).epochLine ∧ (t.hostFn fn).cfg = (if c = .flr then {} else (s.hostFn fn).cfg)
      ∧ t.reg P.quiesces fn = inc32 (s.reg P.quiesces fn) ∧ OnlyRegs [P.quiesces, P.droppedWrites] s t ∧ SameStores s t
      ∧ t.clock = s.clock ∧ t.seq = s.seq := by
  obtain ⟨books, same, count⟩ := functionDisable_reads can (fn := fn) one
  refine ⟨functionDisableStep s fn c, rfl, ?_⟩
  dsimp only
  rw [same]
  have unquiet : (disabledFn (s.hostFn fn)).quiesced = false := by
    unfold disabledFn
    simp [on]
  unfold offFn
  by_cases flr : c = .flr
  · rw [if_pos flr, if_pos flr]
    exact ⟨rfl, rfl, unquiet, rfl, rfl, rfl, count on, books.only.regs can.1, books.stores, books.clock, books.seq⟩
  · rw [if_neg flr, if_neg flr]
    exact ⟨rfl, rfl, unquiet, rfl, rfl, rfl, count on, books.only.regs can.1, books.stores, books.clock, books.seq⟩

theorem disableAll_reads {s : State} (can : Canonical s) (ks : List Nat) (small : ∀ k ∈ ks, k < 8) :
    Unhosts [P.quiesces, P.droppedWrites] s (ks.foldl (fun s k => s.disableFunction (k + 1)) s) := by
  induction ks generalizing s with
  | nil => exact .refl ..
  | cons k ks ih =>
    have head := (disableFunction_reads can (fn := k + 1) (by have := small k (List.mem_cons_self ..); omega)).1
    exact head.trans (ih (head.can can) fun j hj => small j (List.mem_cons_of_mem _ hj))

/-- R318: clearing VF Enable. -/
theorem vfDisable_reads {s : State} (can : Canonical s) (fn : FnIx) : Completes (.functionDisable fn .vfDisable) s fun t =>
    t.val P.vfCount = 0 ∧ OnlyRegs [P.quiesces, P.droppedWrites, P.vfCount] s t ∧ SameStores s t ∧ t.clock = s.clock ∧ t.seq = s.seq := by
  have books := disableAll_reads can (List.range 8) (fun k hk => List.mem_range.1 hk)
  refine ⟨functionDisableStep s fn .vfDisable, rfl, ?_⟩
  unfold functionDisableStep
  dsimp only
  generalize (List.range 8).foldl (fun s k => s.disableFunction (k + 1)) s = v at books
  have all : Unhosts [P.quiesces, P.droppedWrites, P.vfCount] s (v.setVal P.vfCount 0) :=
    (books.mono (by decide)).trans (.setVal (by decide) ..)
  exact ⟨State.val_setVal_same .., all.only.regs can.1, all.stores, all.clock, all.seq⟩

/-- R318, R319: QUIESCE_COMPLETE of a function that is not to be enabled again. -/
theorem quiesceComplete_reads {s : State} {fn : FnIx} (open' : (s.hostFn fn).quiesced = false) (last : (s.hostFn fn).again = none) :
    Completes (.quiesceComplete fn) s fun t =>
      (t.hostFn fn).quiesced = true ∧ (t.hostFn fn).enable = (s.hostFn fn).enable ∧ OnlyHost s t := by
  refine ⟨s.setFn fn { s.hostFn fn with quiesced := true, again := none }, ?_, ?_, ?_, (Hosts.setFn ..).only⟩
  · show Host.Outcome.next (quiesceStep s fn) = _
    unfold quiesceStep
    extract_lets f v
    rw [if_neg (by simp [f, open']), show f.again = none from last]
  · rw [hostFn_setFn]
  · rw [hostFn_setFn]

/-! The link (R299, R301, R316). -/

/-- What a link-down event leaves (R316). -/
def LinkGone (s t : State) : Prop := t.host.fns = [] ∧ t.val P.hostLinkState = 0 ∧ t.val P.eventRingEnable = 0
  ∧ t.val P.linkEpoch = (if (s.val P.linkEpoch + 1) % 2 ^ 32 = 0 then 1 else (s.val P.linkEpoch + 1) % 2 ^ 32)
  ∧ t.reg P.linkDowns 0 = inc32 (s.reg P.linkDowns 0) ∧ SameStores s t ∧ t.clock = s.clock ∧ t.seq = s.seq

/-- The state with the PERST# pin as told. -/
def withPerst (s : State) (p : Bool) : State := { s with host := { s.host with perst := p } }

theorem linkDown_gone {s : State} (can : Canonical s) (p : Bool) :
    LinkGone s (withPerst s p).linkDown ∧ (withPerst s p).linkDown.host.perst = p := by
  have read : LinkDown (withPerst s p) (withPerst s p).linkDown := linkDown_reads (s := withPerst s p) can
  refine ⟨⟨?_, read.down, read.ring, read.epoch, read.counted, read.unhosts.stores, read.unhosts.clock, read.unhosts.seq⟩, ?_⟩
  · rw [read.gone]
  · rw [read.gone]
    rfl

/-- R316: HOST_LINK_DOWN of a link that is up. -/
theorem hostLinkDown_reads {s : State} (can : Canonical s) (up : s.hostUp = true) (c : LinkDownCause) :
    Completes (.hostLinkDown c) s fun t => LinkGone s t ∧ t.host.perst = (s.host.perst || decide (c = .perst)) := by
  have run : hostLinkDownStep s c = (withPerst s (s.host.perst || decide (c = .perst))).linkDown := by
    unfold hostLinkDownStep
    extract_lets port v
    have told : v = withPerst s (s.host.perst || decide (c = .perst)) := by
      simp only [v]
      by_cases perst : c = .perst
      · rw [if_pos perst, decide_eq_true perst, Bool.or_true]
        rfl
      · rw [if_neg perst, decide_eq_false perst, Bool.or_false]
        rfl
    rw [told]
    have still : (withPerst s (s.host.perst || decide (c = .perst))).hostUp = true := up
    rw [if_pos still]
  exact ⟨_, congrArg Host.Outcome.next run, linkDown_gone can _⟩

/-- R301: PERST_ASSERT of a link that is up. -/
theorem perstAssert_up {s : State} (can : Canonical s) (up : s.hostUp = true) :
    Completes .perstAssert s fun t => LinkGone s t ∧ t.host.perst = true := by
  have run : perstAssertStep s = (withPerst s true).linkDown := by
    have still : (withPerst s true).hostUp = true := up
    show (withPerst s true).loseHostLink = _
    unfold State.loseHostLink
    rw [if_pos still]
  exact ⟨_, congrArg Host.Outcome.next run, linkDown_gone can true⟩

/-- R301: PERST_ASSERT of a link that is not up. -/
theorem perstAssert_down {s : State} (can : Canonical s) (down : s.hostUp = false) : Completes .perstAssert s fun t =>
    t.host = { s.host with perst := true } ∧ t.val P.hostLinkState = 0 ∧ OnlyRegs [P.hostLinkState] s t ∧ SameStores s t
      ∧ t.clock = s.clock := by
  have run : perstAssertStep s = (withPerst s true).setVal P.hostLinkState 0 := by
    have still : ¬ (withPerst s true).hostUp = true := by
      show ¬ s.hostUp = true
      rw [down]
      decide
    exact if_neg still
  refine ⟨_, congrArg Host.Outcome.next run, rfl, State.val_setVal_same .., ?_, ⟨rfl, rfl, rfl, rfl⟩, rfl⟩
  have told : Unhosts [P.hostLinkState] s ((withPerst s true).setVal P.hostLinkState 0) :=
    (Unhosts.setHost _ s _).trans (.setVal (List.mem_singleton_self _) _ _)
  exact told.only.regs can.1

/-- HostLinkState of a link that is up at a rate and a width (0x9000.05). -/
theorem linkState_fields {rate width : Nat} (hr : rate < 256) (hw : width < 256) :
    bits (2 + 2 ^ 8 * rate + 2 ^ 16 * width) 0 2 = 2 ∧ bits (2 + 2 ^ 8 * rate + 2 ^ 16 * width) 8 8 = rate
      ∧ bits (2 + 2 ^ 8 * rate + 2 ^ 16 * width) 16 8 = width := by
  unfold bits
  rw [Nat.shiftRight_eq_div_pow, Nat.shiftRight_eq_div_pow, Nat.shiftRight_eq_div_pow]
  omega

/-- R299: HOST_LINK_UP. -/
theorem hostLinkUp_reads {s : State} (can : Canonical s) {rate width : Byte} (here : s.hostPresent = true) (down : s.hostUp = false)
    (hr : rate ∈ [16, 32, 64]) (hw : width ∈ [4, 8, 16]) : Completes (.hostLinkUp rate width) s fun t => t.hostUp = true
      ∧ bits (t.val P.hostLinkState) 8 8 = rate.toNat ∧ bits (t.val P.hostLinkState) 16 8 = width.toNat
      ∧ OnlyRegs [P.hostLinkState] s t ∧ SameStores s t ∧ t.host = s.host ∧ t.clock = s.clock := by
  have rates : [16, 32, 64].contains rate.toNat = true := by
    simp only [List.mem_cons, List.not_mem_nil, or_false] at hr
    rcases hr with rfl | rfl | rfl <;> decide
  have widths : [4, 8, 16].contains width.toNat = true := by
    simp only [List.mem_cons, List.not_mem_nil, or_false] at hw
    rcases hw with rfl | rfl | rfl <;> decide
  have run : hostLinkUpStep s rate.toNat width.toNat = s.setVal P.hostLinkState (2 + 2 ^ 8 * rate.toNat + 2 ^ 16 * width.toNat) := by
    unfold hostLinkUpStep
    rw [if_neg (by simp only [here, down, rates, widths]; decide)]
  obtain ⟨up, rateBits, widthBits⟩ := linkState_fields rate.isLt width.isLt
  have told : Records [P.hostLinkState] s (s.setVal P.hostLinkState (2 + 2 ^ 8 * rate.toNat + 2 ^ 16 * width.toNat)) :=
    .setVal (List.mem_singleton_self _) s _
  have value : (s.setVal P.hostLinkState (2 + 2 ^ 8 * rate.toNat + 2 ^ 16 * width.toNat)).val P.hostLinkState
      = 2 + 2 ^ 8 * rate.toNat + 2 ^ 16 * width.toNat := State.val_setVal_same ..
  refine ⟨_, congrArg Host.Outcome.next run, ?_, ?_, ?_, told.regs can, told.stores, told.host, told.clock⟩
  · unfold State.hostUp
    rw [value, up]
    rfl
  · rw [value, rateBits]
  · rw [value, widthBits]

/-- R385: PERST_DEASSERT. -/
theorem perstDeassert_reads {s : State} (can : Canonical s) (low : s.host.perst = true) : Completes .perstDeassert s fun t =>
    t.host = { s.host with perst := false } ∧ t.fw = { s.fw with retry := s.boot == 0 } ∧ OnlyRegs [P.hostLinkState] s t
      ∧ SameStores s t ∧ t.clock = s.clock
      ∧ (s.supply.released = true → s.boot ≠ 6 → s.supply.refGood = true → t.val P.hostLinkState = 1) := by
  refine ⟨perstDeassertStep s, rfl, ?_⟩
  unfold perstDeassertStep
  rw [if_neg (not_not.2 low)]
  extract_lets port fw v
  have still : WritesOnly [P.hostLinkState] s v := .of_params _ rfl
  split
  · have told : WritesOnly [P.hostLinkState] s (v.setVal P.hostLinkState 1) := still.trans (.setReg (List.mem_singleton_self _) (by decide) v 1)
    exact ⟨rfl, rfl, told.regs can.1, ⟨rfl, rfl, rfl, rfl⟩, rfl, fun _ _ _ => State.val_setVal_same ..⟩
  next absent =>
    refine ⟨rfl, rfl, still.regs can.1, ⟨rfl, rfl, rfl, rfl⟩, rfl, fun released boot good => absurd ?_ absent⟩
    have bootV : (v.boot != 6) = true := bne_iff_ne.2 boot
    unfold State.hostPresent
    rw [bootV]
    simp [v, released, good]

/-- Settles O49: functions, the link and PERST# do what their rules say. -/
theorem hostFunctionsAndLinkChangeState : Obligations.HostFunctionsAndLinkChangeState := by
  unfold Obligations.HostFunctionsAndLinkChangeState
  intro s can
  exact ⟨fun fn line ok cfg up off quiesced => functionEnable_reads can up off quiesced line ok cfg,
    fun fn c one on => functionDisable_one can fn one on, vfDisable_reads can,
    fun fn open' last => quiesceComplete_reads open' last,
    fun up => ⟨hostLinkDown_reads can up, perstAssert_up can up⟩, perstAssert_down can,
    fun rate width here down hr hw => hostLinkUp_reads can here down hr hw, perstDeassert_reads can, rfl⟩

end Sys2Proof.FunctionLaws

/-! PROOF. A base die goes out of service with its slots, and the copies of a base die's slots end (R12, R13, R344, R354, R355). -/

namespace Sys2Proof.PanelLaws

open Sys2Proof.Machine Sys2Proof.Claims Sys2Proof.RecordLaws Sys2Proof.StoreTileLaws Sys2Proof.WorkLaws Sys2Proof.RestLaws

/-! The slot map's entry of a base die. -/

theorem slotMap_not_mem_gearRegs {b : Nat} (hb : b < 8) : P.slotMap + b ∉ gearRegs := by
  simp only [gearRegs, List.mem_cons, List.not_mem_nil, or_false, P.slotMap, P.budgetWaits, P.phaseTimers, P.moduleGear, P.dieGear]
  omega

theorem slotMap_not_mem_eventRegs {b : Nat} (hb : b < 8) : P.slotMap + b ∉ P.capacityState :: eventRegs := by
  simp only [eventRegs, List.mem_cons, List.not_mem_nil, or_false, P.slotMap, P.capacityState, P.eventsRaised, P.eventsCoalesced, P.eventsLost, P.eventSeq]
  omega

/-- Table 1-3: the entry of a base die once one of its slots is bound anew: that slot's field, and one change more. -/
theorem slotEntry_bindSlot {s : State} (can : Canonical s) {sl : Nat} (hsl : sl < 64) (v : Nat) :
    (s.bindSlot sl v).slotEntry (sl / 8) =
      setBits (setBits (s.slotEntry (sl / 8)) (4 * (sl % 8)) 4 v) 40 8 (bits (s.slotEntry (sl / 8)) 40 8 + 1) := by
  have there : sl / 8 < 8 := by omega
  have outside := slotMap_not_mem_gearRegs there
  unfold State.bindSlot
  extract_lets b a e c
  have counted : Tends acRegs s a := Tends.trans (t := s.account sl) (.of_accounts (List.Subset.refl _) (Accounts.account hsl s)) (.setWeir ..)
  have entry : e = s.slotEntry (sl / 8) := (counted.mono (show acRegs ⊆ gearRegs by decide)).val can outside
  have bound : c.slotEntry (sl / 8) = setBits (setBits e (4 * (sl % 8)) 4 v) 40 8 (bits e 40 8 + 1) :=
    ((tends_regear _).val ((Rebinds.setSlotEntry a there _).can (counted.can can)) outside).trans (slotEntry_setSlotEntry a b _)
  rw [← entry]
  clear_value c
  split
  · exact bound
  · exact (State.reg_congr rfl ..).trans bound

/-- What `startCopy` leaves of the slot map. -/
theorem slotEntry_startCopy (s : State) (sl old b : Nat) : (s.startCopy sl old).slotEntry b = s.slotEntry b := by
  unfold State.startCopy
  extract_lets a
  show a.slotEntry b = _
  by_cases dead : s.seq.dead.contains sl = true
  · simp only [a, if_pos dead]
    rfl
  · simp only [a, if_neg dead]

/-- R344: slot `k` of base die `b` becomes absent, unless it was so. -/
def outSlot (b : Nat) (s : State) (k : Nat) : State :=
  if s.absent (8 * b + k) then s
  else
    ((s.bindSlot (8 * b + k) 0xF).startCopy (8 * b + k) (9 * b + s.slotPos (8 * b + k))).raiseEvent 0xA 0x01 (srcSlot (8 * b + k))
      (9 * b + s.slotPos (8 * b + k)) 0

theorem slotPos_eq (s : State) {b k : Nat} (hk : k < 8) : s.slotPos (8 * b + k) = bits (s.slotEntry b) (4 * k) 4 := by
  rw [State.slotPos, show (8 * b + k) / 8 = b by omega, show (8 * b + k) % 8 = k by omega]
  rfl

theorem rebinds_outSlot {b k : Nat} (hb : b < 8) (hk : k < 8) (s : State) : Rebinds s (outSlot b s k) :=
  .ite (.refl s) ((Rebinds.bindSlot s (by omega) _).trans ((Rebinds.startCopy _ _ _).trans (.raiseEvent (by decide) _ ..)))

/-- R344: a present slot is absent thereafter and its copy has begun; no other slot of the base die changes. -/
theorem outSlot_reads {s : State} (can : Canonical s) {b k : Nat} (hb : b < 8) (hk : k < 8) :
    (∀ j, j < 8 → j ≠ k → (outSlot b s k).slotPos (8 * b + j) = s.slotPos (8 * b + j))
    ∧ (s.absent (8 * b + k) = false → (outSlot b s k).absent (8 * b + k) = true
        ∧ (8 * b + k, 9 * b + s.slotPos (8 * b + k)) ∈ (outSlot b s k).seq.copying) := by
  unfold outSlot
  split
  next gone => exact ⟨fun _ _ _ => rfl, fun present => absurd gone (Bool.eq_false_iff.1 present)⟩
  have entry := slotEntry_bindSlot can (sl := 8 * b + k) (by omega) 0xF
  rw [show (8 * b + k) / 8 = b by omega, show (8 * b + k) % 8 = k by omega] at entry
  have bound := Rebinds.bindSlot s (sl := 8 * b + k) (by omega) 0xF
  generalize s.bindSlot (8 * b + k) 0xF = v at entry bound
  have begun := Rebinds.startCopy v (8 * b + k) (9 * b + s.slotPos (8 * b + k))
  have same := slotEntry_startCopy v (8 * b + k) (9 * b + s.slotPos (8 * b + k)) b
  have told := Records.raiseEvent (ps := P.capacityState :: eventRegs) (cls := 10) (List.subset_cons_self ..) (by decide)
    (v.startCopy (8 * b + k) (9 * b + s.slotPos (8 * b + k))) 1 (srcSlot (8 * b + k)) (9 * b + s.slotPos (8 * b + k)) 0
  have copies := (Rebinds.raiseEvent (cls := 10) (by decide) (v.startCopy (8 * b + k) (9 * b + s.slotPos (8 * b + k))) 1 (srcSlot (8 * b + k))
    (9 * b + s.slotPos (8 * b + k)) 0).copies.1
  generalize (v.startCopy (8 * b + k) (9 * b + s.slotPos (8 * b + k))).raiseEvent 10 1 (srcSlot (8 * b + k)) (9 * b + s.slotPos (8 * b + k)) 0 = t
    at told copies
  have stored := (told.val (begun.can (bound.can can)) (slotMap_not_mem_eventRegs hb)).trans (same.trans entry)
  refine ⟨fun j hj other => ?_, fun _ => ⟨?_, copies⟩⟩
  · rw [slotPos_eq t hj, slotPos_eq s hj]
    refine (congrArg (bits · (4 * j) 4) stored).trans ?_
    rw [bits_setBits_other (.inl (by omega)), bits_setBits_other (by omega)]
  · rw [State.absent, slotPos_eq t hk]
    have field := congrArg (bits · (4 * k) 4) stored
    rw [bits_setBits_other (.inl (by omega)), bits_setBits_same] at field
    exact beq_iff_eq.2 field

/-- R344: the slots of a list leave together. -/
theorem outSlots_reads {b : Nat} (hb : b < 8) (ks : List Nat) (small : ∀ k ∈ ks, k < 8) (apart : ks.Nodup) {s : State} (can : Canonical s) :
    Rebinds s (ks.foldl (outSlot b) s)
    ∧ (∀ j, j < 8 → j ∉ ks → (ks.foldl (outSlot b) s).slotPos (8 * b + j) = s.slotPos (8 * b + j))
    ∧ ∀ k ∈ ks, s.absent (8 * b + k) = false → (ks.foldl (outSlot b) s).absent (8 * b + k) = true
        ∧ (8 * b + k, 9 * b + s.slotPos (8 * b + k)) ∈ (ks.foldl (outSlot b) s).seq.copying := by
  induction ks generalizing s with
  | nil => exact ⟨.refl s, fun _ _ _ => rfl, fun _ h => nomatch h⟩
  | cons k ks ih =>
    obtain ⟨new, apart⟩ := List.nodup_cons.1 apart
    have hk := small k (List.mem_cons_self ..)
    have first := rebinds_outSlot hb hk s
    obtain ⟨others, left⟩ := outSlot_reads can hb hk
    rw [List.foldl_cons]
    generalize outSlot b s k = v at first others left
    obtain ⟨rest, kept, gone⟩ := ih (fun j h => small j (List.mem_cons_of_mem _ h)) apart (first.can can)
    refine ⟨first.trans rest, fun j hj out => ?_, fun j mem present => ?_⟩
    · rw [kept j hj (fun h => out (List.mem_cons_of_mem _ h)), others j hj fun h => out (h ▸ List.mem_cons_self ..)]
    · rcases List.mem_cons.1 mem with rfl | mem
      · obtain ⟨absent, copying⟩ := left present
        refine ⟨?_, rest.copying copying⟩
        rw [State.absent, kept j hk new]
        exact absent
      · have other : v.slotPos (8 * b + j) = s.slotPos (8 * b + j) := others j (small j (List.mem_cons_of_mem _ mem)) fun h => new (h ▸ mem)
        have step := gone j mem (by rw [State.absent, other]; exact present)
        rwa [other] at step

/-- The panel once base die `b` is marked out of service: its screens end (R344). -/
def markedOut (s : State) (b : Nat) : State :=
  { s with panel := { s.panel with
      cutOff := s.panel.cutOff.filter (· != b), out := b :: s.panel.out
      screens := s.panel.screens.filter fun x => x.position / 9 != b } }

theorem baseDieOutStep_cutOff {s : State} {b : Nat} (boundary : s.atBoundary b = true) (cut : b ∈ s.panel.cutOff) :
    baseDieOutStep s b = (((List.range 8).foldl (outSlot b) (markedOut s b)).setSpare b 0xF).reportCapacity b := by
  unfold baseDieOutStep
  rw [if_neg]
  · rfl
  · simp only [boundary, List.contains_iff_mem, cut, not_true_eq_false, or_self, not_false_eq_true]

/-- R344: a base die that is cut off goes out of service at its boundary. -/
theorem baseDieOut_reads {s : State} (can : Canonical s) {b : Nat} (hb : b < 8) (boundary : s.atBoundary b = true) (cut : b ∈ s.panel.cutOff) :
    let t := baseDieOutStep s b
    Rebinds (markedOut s b) t ∧ t.spareOf b = none
      ∧ ∀ k, k < 8 → s.absent (8 * b + k) = false → t.absent (8 * b + k) = true ∧ (8 * b + k, 9 * b + s.slotPos (8 * b + k)) ∈ t.seq.copying := by
  intro t
  have shape : t = _ := baseDieOutStep_cutOff boundary cut
  clear_value t
  obtain ⟨left, -, gone⟩ := outSlots_reads hb (List.range 8) (fun k h => List.mem_range.1 h) (by decide) (s := markedOut s b) can
  generalize (List.range 8).foldl (outSlot b) (markedOut s b) = v at left gone shape
  have unspared := Rebinds.setSpare v hb 0xF
  have entry : (v.setSpare b 0xF).slotEntry b = setBits (v.slotEntry b) 32 4 0xF := slotEntry_setSlotEntry v b _
  generalize v.setSpare b 0xF = w at unspared entry shape
  have reported := Rebinds.reportCapacity w (b := b) (by omega)
  have same : (w.reportCapacity b).slotEntry b = w.slotEntry b :=
    (reportCapacity_reads w (b := b) (by omega)).2.regs (unspared.can (left.can can)).1 _ 0 (by decide) (slotMap_not_mem_eventRegs hb)
  rw [← shape] at reported same
  rw [entry] at same
  refine ⟨left.trans (unspared.trans reported), spareOf_of_entry ((congrArg (bits · 32 4) same).trans (bits_setBits_same ..)), fun k hk present => ?_⟩
  obtain ⟨absent, copying⟩ := gone k (List.mem_range.2 hk) present
  refine ⟨?_, (unspared.trans reported).copying copying⟩
  rw [State.absent, slotPos_eq t hk, same, bits_setBits_other (by omega), ← slotPos_eq v hk]
  exact absent

/-! The copies of a base die's slots end. -/

theorem still_poisonUnread (sl : Nat) (s : State) (id : Nat) : Still s (s.poisonUnread sl id) := .ite rfl (.refl s)

/-- R354: what a copy could not read is placed anew or poisoned. -/
theorem still_unread (bad : List Nat) (cs : List (Nat × Nat)) (s : State) :
    Still s (cs.foldl (fun s c => if s.absent c.1 then s.respill c.1 bad else bad.foldl (fun s id => s.poisonUnread c.1 id) s) s) :=
  .foldl (fun v c => .ite (.respill v c.1 bad) (.foldl (still_poisonUnread c.1) bad v)) cs s

/-- R13: nothing is placed anew where every slot kept a die and every tile was read. -/
theorem unread_nothing {s : State} (cs : List (Nat × Nat)) (present : ∀ c ∈ cs, s.absent c.1 = false) :
    cs.foldl (fun s c => if s.absent c.1 then s.respill c.1 [] else [].foldl (fun s id => s.poisonUnread c.1 id) s) s = s := by
  induction cs with
  | nil => rfl
  | cons c cs ih =>
    rw [List.foldl_cons, if_neg (Bool.eq_false_iff.1 (present c (List.mem_cons_self ..)))]
    exact ih fun d h => present d (List.mem_cons_of_mem _ h)

/-- The copies of base die `b` are over (R13). -/
def uncopied (s : State) (b : Nat) : State :=
  { s with seq := { s.seq with copying := s.seq.copying.filter fun c => c.1 / 8 != b } }

theorem slotCopyStep_eq {s : State} {b : Nat} (busy : (s.seq.copying.any fun c => c.1 / 8 == b) = true) (unreadable : List Nat) :
    slotCopyStep s b unreadable =
      let mine := s.seq.copying.filter fun c => c.1 / 8 == b
      let bad := unreadable.filter fun id =>
        let e := s.page (pageOf id)
        eKind e == 1 && eTier e == 0 && mine.any fun c => c.1 == eFrame e / 64
      let t := mine.foldl (fun s c =>
        if s.absent c.1 then s.respill c.1 bad else bad.foldl (fun s id => s.poisonUnread c.1 id) s) (uncopied (mine.foldl (fun s c => s.account c.1) s) b)
      if bad = [] then t else t.condition 4 := by
  obtain ⟨c, mem, here⟩ := List.any_eq_true.1 busy
  unfold slotCopyStep
  exact (if_neg (List.ne_nil_of_mem (List.mem_filter.2 ⟨mem, here⟩))).trans rfl

/-- R13, R354: the copies are gone, time stands, and the stores are as they were where nothing was lost. -/
theorem slotCopy_reads {s : State} (can : Canonical s) {b : Nat} (busy : (s.seq.copying.any fun c => c.1 / 8 == b) = true)
    (small : ∀ c ∈ s.seq.copying, c.1 < 64) (unreadable : List Nat) :
    let t := slotCopyStep s b unreadable
    t.seq.copying = s.seq.copying.filter (fun c => c.1 / 8 != b) ∧ t.clock = s.clock
      ∧ (unreadable = [] → (∀ c ∈ s.seq.copying, c.1 / 8 = b → s.absent c.1 = false) → SameStores s t) := by
  intro t
  have shape : t = _ := slotCopyStep_eq busy unreadable
  clear_value t
  extract_lets mine bad w at shape
  have counted : Accounts s (mine.foldl (fun s c => s.account c.1) s) :=
    .foldl (fun c h v => .account (small c (List.mem_filter.1 h).1) v) s
  have placed := still_unread bad mine (uncopied (mine.foldl (fun s c => s.account c.1) s) b)
  have ended : Still (uncopied (mine.foldl (fun s c => s.account c.1) s) b) t := by
    rw [shape]
    exact placed.trans (.ite (.refl _) (.condition ..))
  refine ⟨?_, (congrArg State.clock ended :).trans counted.clock, fun whole present => ?_⟩
  · refine (congrArg (fun u : State => u.seq.copying) ended :).trans ?_
    show List.filter _ (mine.foldl (fun s c => s.account c.1) s).seq.copying = _
    rw [counted.seq]
  · have none' : bad = [] := by
      simp only [bad, whole, List.filter_nil]
    have there : ∀ c ∈ mine, (uncopied (mine.foldl (fun s c => s.account c.1) s) b).absent c.1 = false := fun c mem => by
      obtain ⟨listed, here⟩ := List.mem_filter.1 mem
      have same : (uncopied (mine.foldl (fun s c => s.account c.1) s) b).absent c.1 = s.absent c.1 :=
        absent_congr (counted.val can (slotMap_not_mem (by decide) (small c listed)))
      rw [same]
      exact present c listed (beq_iff_eq.1 here)
    have nothing : w = uncopied (mine.foldl (fun s c => s.account c.1) s) b := by
      simp only [w, none']
      exact unread_nothing mine there
    rw [shape, if_pos none', nothing]
    exact counted.stores

end Sys2Proof.PanelLaws

namespace Sys2Proof.Claims

open Sys2Proof.Machine Sys2Proof.PanelLaws

/-- Settles O22: a cut-off base die's slots leave one after another, each in its own field of the slot map; and the copies that end
leave the stores to what was lost. -/
theorem cutOffSlotsLeaveAndCopiesEnd : Obligations.CutOffSlotsLeaveAndCopiesEnd := by
  unfold Obligations.CutOffSlotsLeaveAndCopiesEnd
  refine ⟨fun s b can boundary cut => ?_, fun s b bad busy can small => ⟨_, rfl, slotCopy_reads can busy small bad⟩⟩
  obtain ⟨bound, spare, gone⟩ := baseDieOut_reads can b.isLt boundary cut
  have panel := (congrArg State.panel bound.rest :)
  refine ⟨_, rfl, ?_, ?_, bound.mem, bound.clock, spare, gone, bound.dies can⟩
  · rw [panel]
    simp [markedOut]
  · rw [panel]
    exact List.mem_cons_self ..

end Sys2Proof.Claims

/-! PROOF. A checkpoint that ends its writing, and a restore that ends (R208 to R211, R266, R269). -/

namespace Sys2Proof.JournalLaws

open Sys2Proof.Machine Sys2Proof.Claims Sys2Proof.RecordLaws Sys2Proof.StoreTileLaws Sys2Proof.FlashLaws Sys2Proof.RestLaws

/-- The counts of unit writes. -/
def journalRegs : List Nat := [P.luWrites, P.discardedWrites]

theorem Stows.foldl {α : Type} {ps : List Nat} {f : State → α → State} (hf : ∀ v x, Stows ps v (f v x)) (xs : List α) (s : State) :
    Stows ps s (xs.foldl f s) := by
  induction xs generalizing s with
  | nil => exact .of_records (.refl ps s)
  | cons x xs ih => exact (hf s x).trans (ih _)

/-- R208, R210: the journal's writes. -/
theorem stows_writeJournal (s : State) (c : Checkpoint) (n : Nat) : Stows journalRegs s (s.writeJournal c n) :=
  Stows.foldl (fun v i => (Stows.writeLu (by decide) (by decide) v _ _).trans (.writeLu (by decide) (by decide) _ _ _)) _ s

/-- R266: the checkpoint `ck` left the list of those being written. -/
def unqueued (s : State) (rest : List Checkpoint) : State := { s with upd := { s.upd with writing := rest } }

theorem checkpointStepDone_headed {s : State} {ck : Checkpoint} {rest : List Checkpoint} (h : s.upd.writing = ck :: rest)
    (headed : ck.headed = true) (durable : Bool) : checkpointStepDone s durable =
      if durable then
        let v := (unqueued s rest).writeJournal ck (64 * ck.granules)
        let all := v.journal.complete ++ [ck]
        ((({ v with journal := { v.journal with complete := all.drop (all.length - 256) } }.setVal P.journalHead ck.number).setVal
          P.journalStatus 0).bump64 P.checkpointsWritten 0 1)
      else ((unqueued s rest).abandonJournal ck).raiseEvent 7 0x10 srcModule ((unqueued s rest).val P.journalStatus) 0 := by
  unfold checkpointStepDone
  simp only [h]
  rw [if_neg (not_not_intro headed)]
  rfl

/-- R210: what a checkpoint leaves apart. -/
def Aside (s t : State) : Prop := t.mem.pages = s.mem.pages ∧ t.pending = s.pending ∧ t.clock = s.clock ∧ t.seq = s.seq

theorem aside_of_stows {ps : List Nat} {s t : State} (h : Stows ps s t) : Aside s t :=
  ⟨h.pages, (congrArg State.pending h.rest :), (congrArg State.clock h.rest :), (congrArg State.seq h.rest :)⟩

/-- R266: the checkpoint last in the journal. -/
def journalled (v : State) (ck : Checkpoint) : State :=
  { v with journal := { v.journal with complete := (v.journal.complete ++ [ck]).drop ((v.journal.complete ++ [ck]).length - 256) } }

/-- R208: at most 256 checkpoints, the newest last. -/
theorem journalled_reads (v : State) (ck : Checkpoint) :
    (journalled v ck).journal.complete.getLast? = some ck ∧ (journalled v ck).journal.complete.length ≤ 256 := by
  unfold journalled
  refine ⟨?_, ?_⟩
  · dsimp only
    rw [List.getLast?_drop, if_neg (by rw [List.length_append, List.length_singleton]; omega), List.getLast?_append]
    rfl
  · dsimp only
    rw [List.length_drop]
    omega

/-- The journal's list aside, nothing changes. -/
theorem journalled_rest (v : State) (ck : Checkpoint) : journalled v ck = { v with journal := (journalled v ck).journal } := by
  unfold journalled
  rfl

/-- What records a checkpoint (R266). -/
def headRegs : List Nat := [P.journalHead, P.journalStatus, P.checkpointsWritten]

/-- R266: JournalHead, JournalStatus and the counter once a checkpoint is durable. -/
def recorded (v : State) (n : Nat) : State := ((v.setVal P.journalHead n).setVal P.journalStatus 0).bump64 P.checkpointsWritten 0 1

theorem recorded_reads (v : State) (n : Nat) :
    Records headRegs v (recorded v n) ∧ (recorded v n).val P.journalHead = n ∧ (recorded v n).val P.journalStatus = 0
      ∧ (recorded v n).reg P.checkpointsWritten 0 = inc64 (v.reg P.checkpointsWritten 0) := by
  refine ⟨?_, ?_, ?_, ?_⟩
  · exact .trans (.setVal (by decide) v n) (.trans (.setVal (by decide) _ 0) (.bump64 (by decide) (by decide) _ 1))
  · refine (val_setVal_ne _ (by decide) _).trans ((val_setVal_ne _ (by decide) _).trans (State.val_setVal_same ..))
  · exact (val_setVal_ne _ (by decide) _).trans (State.val_setVal_same ..)
  · refine (reg_bump64_same ..).trans (congrArg inc64 ?_)
    exact (val_setVal_ne _ (by decide) _).trans (val_setVal_ne v (by decide) n)

/-- R266: a checkpoint whose trailer is durable in both copies. -/
theorem checkpoint_durable {s : State} (can : Canonical s) {ck : Checkpoint} {rest : List Checkpoint} (h : s.upd.writing = ck :: rest)
    (headed : ck.headed = true) :
    let t := checkpointStepDone s true
    t.upd.writing = rest ∧ t.journal.complete.getLast? = some ck ∧ t.journal.complete.length ≤ 256 ∧ t.val P.journalHead = ck.number
      ∧ t.val P.journalStatus = 0 ∧ t.reg P.checkpointsWritten 0 = inc64 (s.reg P.checkpointsWritten 0)
      ∧ OnlyRegs [P.journalHead, P.journalStatus, P.checkpointsWritten, P.luWrites, P.discardedWrites] s t ∧ Aside s t := by
  intro t
  have shape : t = recorded (journalled ((unqueued s rest).writeJournal ck (64 * ck.granules)) ck) ck.number :=
    (checkpointStepDone_headed h headed true).trans rfl
  clear_value t
  have written := stows_writeJournal (unqueued s rest) ck (64 * ck.granules)
  generalize (unqueued s rest).writeJournal ck (64 * ck.granules) = v at written shape
  obtain ⟨last, short⟩ := journalled_reads v ck
  have same := journalled_rest v ck
  have listed : WritesOnly journalRegs (unqueued s rest) (journalled v ck) := written.only.trans (.of_params _ (congrArg State.params same :))
  have counted : (journalled v ck).reg P.checkpointsWritten 0 = s.reg P.checkpointsWritten 0 := listed.regs can.1 _ 0 (by decide) (by decide)
  have aside : Aside s (journalled v ck) := by
    obtain ⟨pages, rest⟩ := aside_of_stows written
    refine ⟨(congrArg (fun u : State => u.mem.pages) same :).trans pages, ?_⟩
    rw [same]
    exact rest
  have gone : (journalled v ck).upd.writing = rest := by
    rw [same]
    exact (congrArg (fun u : State => u.upd.writing) written.rest :)
  clear same
  generalize journalled v ck = w at last short listed counted aside gone shape
  obtain ⟨records, head, status, count⟩ := recorded_reads w ck.number
  rw [← shape] at records head status count
  have all : WritesOnly [P.journalHead, P.journalStatus, P.checkpointsWritten, P.luWrites, P.discardedWrites] (unqueued s rest) t :=
    (WritesOnly.mono (by decide) listed).trans (WritesOnly.mono (by decide) records.only)
  obtain ⟨pages, pending, clock, seq⟩ := aside
  refine ⟨?_, ?_, ?_, head, status, count.trans (congrArg inc64 counted), all.regs can.1,
    (congrArg Mem.pages records.mem).trans pages, records.pending.trans pending, records.clock.trans clock, records.seq.trans seq⟩
  · rw [records.upd]
    exact gone
  · rw [records.journal]
    exact last
  · rw [records.journal]
    exact short

/-- R210: a checkpoint that does not complete. -/
theorem checkpoint_abandoned {s : State} (can : Canonical s) {ck : Checkpoint} {rest : List Checkpoint} (h : s.upd.writing = ck :: rest)
    (headed : ck.headed = true) :
    let t := checkpointStepDone s false
    t.upd.writing = rest ∧ t.journal = s.journal ∧ t.reg P.eventsRaised 7 = inc64 (s.reg P.eventsRaised 7)
      ∧ OnlyRegs ([P.luWrites, P.discardedWrites] ++ eventRegs) s t ∧ Aside s t := by
  intro t
  have shape : t = _ := (checkpointStepDone_headed h headed false).trans (if_neg Bool.false_ne_true)
  clear_value t
  have written : Stows journalRegs (unqueued s rest).draw.2 ((unqueued s rest).abandonJournal ck) := stows_writeJournal ..
  generalize (unqueued s rest).abandonJournal ck = v at written shape
  have wf : Sparse.wf paramDefault v.params = true := written.only.wf can.1
  have told := Records.raiseEvent (ps := [P.luWrites, P.discardedWrites] ++ eventRegs) (cls := 7) (List.subset_append_right ..) (by decide) v 0x10 srcModule
    ((unqueued s rest).val P.journalStatus) 0
  have count := EventLaws.reg_raiseEvent_eventsRaised wf (cls := 7) (by decide) 0x10 srcModule ((unqueued s rest).val P.journalStatus) 0
  rw [← shape] at told count
  have before : v.reg P.eventsRaised 7 = s.reg P.eventsRaised 7 := written.only.regs can.1 _ 7 (by decide) (by decide)
  have all : WritesOnly ([P.luWrites, P.discardedWrites] ++ eventRegs) (unqueued s rest).draw.2 t :=
    (WritesOnly.mono (by decide) written.only).trans told.only
  obtain ⟨pages, pending, clock, seq⟩ := aside_of_stows written
  refine ⟨?_, told.journal.trans (congrArg State.journal written.rest :), ?_, all.regs can.1, (congrArg Mem.pages told.mem).trans pages,
    told.pending.trans pending, told.clock.trans clock, told.seq.trans seq⟩
  · exact (congrArg Upd.writing told.upd).trans (congrArg (fun u : State => u.upd.writing) written.rest :)
  · rw [count, before]

/-! Restores. -/

/-- R269: student state was left undefined: tiles, units and moment records alone, and a draw. -/
def Scrambles (s t : State) : Prop :=
  t = { s with draws := t.draws, flash := t.flash, mem := { t.mem with pages := s.mem.pages } }

namespace Scrambles

variable {s t u : State}

theorem refl (s : State) : Scrambles s s := rfl

theorem trans (h : Scrambles s t) (g : Scrambles t u) : Scrambles s u := by
  unfold Scrambles at h g ⊢
  have pages : t.mem.pages = s.mem.pages := (congrArg (fun u : State => u.mem.pages) h :)
  rw [g, pages, h]

theorem foldl {α : Type} {f : State → α → State} (hf : ∀ v x, Scrambles v (f v x)) (xs : List α) (s : State) : Scrambles s (xs.foldl f s) := by
  induction xs generalizing s with
  | nil => exact refl s
  | cons x xs ih => exact (hf s x).trans (ih _)

theorem ite {c : Prop} [Decidable c] (h : Scrambles s t) (g : Scrambles s u) : Scrambles s (if c then t else u) := by
  split <;> assumption

theorem putStored (s : State) (id : Nat) (tl : Tile) : Scrambles s (s.putStored id tl) := by
  unfold State.putStored
  extract_lets e a
  exact trans (t := a) rfl (ite rfl rfl)

theorem putMoments (s : State) (bd r : Nat) (m : Moments) : Scrambles s (s.putMoments bd r m) := rfl

theorem scramble (s : State) : Scrambles s s.scramble := by
  unfold State.scramble
  refine trans (t := s.draw.2) rfl (foldl (fun v d => foldl (fun v k => foldl (fun v h => ?_) _ v) _ v) _ _)
  extract_lets w q r a b f
  have weight : Scrambles v a := ite (putStored ..) (refl v)
  have remainder : Scrambles a b := ite (putStored ..) (refl a)
  exact weight.trans (remainder.trans (putMoments ..))

theorem upd (h : Scrambles s t) : t.upd = s.upd := (congrArg State.upd h :)
theorem params (h : Scrambles s t) : t.params = s.params := (congrArg State.params h :)
theorem pages (h : Scrambles s t) : t.mem.pages = s.mem.pages := (congrArg (fun u : State => u.mem.pages) h :)

end Scrambles

/-- The restore is ended (R269). -/
def unrestoring (s : State) : State := { s with upd := { s.upd with restoring := none } }

/-- R269: the sections are written into half A. -/
theorem still_writeSections (xs : List CkSection) (s : State) : Still s (xs.foldl State.writeSection s) := by
  refine .foldl (fun v x => ?_) xs s
  unfold State.writeSection
  extract_lets d acct
  refine .foldl (fun v p => ?_) _ v
  obtain ⟨k, w, q, m⟩ := p
  exact (Still.write v { acct := acct, id := rangeTile (sdWeight d 0) k, cls := 1, ovf := 3, column := none, tile := w }).trans
    ((Still.write _ { acct := acct, id := rangeTile (sdRem d 0) k, cls := 1, ovf := 3, column := none, tile := q }).trans rfl)

theorem restore_refused {s : State} {c : Checkpoint}
    (h : (s.upd.restoring.bind fun k => s.journal.complete.find? fun c => c.number == k) = some c) (bad : s.payloadGood c = false) :
    let t := restoreCompleteStep s
    t.upd.restoring = none ∧ t.val P.restoreStatus = 4 ∧ t.val P.journalStatus = 3 ∧ t.mem.pages = s.mem.pages := by
  intro t
  have shape : t = (((unrestoring s).setVal P.journalStatus 0x03).setVal P.restoreStatus 0x04).scramble := by
    show restoreCompleteStep s = _
    unfold restoreCompleteStep
    simp only [h]
    exact if_pos (Bool.eq_false_iff.1 bad)
  clear_value t
  have left := Scrambles.scramble (((unrestoring s).setVal P.journalStatus 0x03).setVal P.restoreStatus 0x04)
  rw [← shape] at left
  refine ⟨?_, ?_, ?_, left.pages⟩
  · rw [left.upd]
    rfl
  · exact (State.reg_congr left.params ..).trans (State.val_setVal_same ..)
  · exact (State.reg_congr left.params ..).trans ((val_setVal_ne _ (by decide) _).trans (State.val_setVal_same ..))

/-- R269: the step, the optimiser's step and the seeds of a checkpoint. -/
def restored (s : State) (c : Checkpoint) : State :=
  let s := ((s.setVal P.optStep c.optStep).setVal P.updateSeed c.updateSeed).setVal P.accumSeed c.accumSeed
  let s := ((s.setVal P.currentStep c.step).setVal P.decidedStep c.step).setVal P.finalStep c.step
  { s with
    seq := { s.seq with firstOpen := true }
    upd := { s.upd with restoreHold := none, orphan := none, begun := [], kept := [], captured := [], resets := [] }
  }.setVal P.restoreStatus 0x00

theorem restored_reads (s : State) (c : Checkpoint) :
    let t := restored s c
    t.upd.restoring = s.upd.restoring ∧ t.val P.restoreStatus = 0 ∧ t.step = c.step ∧ t.val P.decidedStep = c.step ∧ t.val P.optStep = c.optStep
      ∧ t.val P.updateSeed = c.updateSeed ∧ t.val P.accumSeed = c.accumSeed ∧ t.seq.firstOpen = true ∧ t.upd.kept = [] ∧ t.mem = s.mem := by
  intro t
  have last (v : State) : ({ v with
      seq := { v.seq with firstOpen := true }
      upd := { v.upd with restoreHold := none, orphan := none, begun := [], kept := [], captured := [], resets := [] } } : State).params = v.params := rfl
  have drop {v w : State} {p q n : Nat} (other : q ≠ p) (same : w.params = v.params) : (w.setVal p n).val q = v.val q :=
    (val_setVal_ne w other n).trans (State.reg_congr same ..)
  refine ⟨rfl, State.val_setVal_same .., ?_, ?_, ?_, ?_, ?_, rfl, rfl, rfl⟩
  · exact (drop (by decide) (last _)).trans ((drop (by decide) rfl).trans ((drop (by decide) rfl).trans (State.val_setVal_same ..)))
  · exact (drop (by decide) (last _)).trans ((drop (by decide) rfl).trans (State.val_setVal_same ..))
  · exact (drop (by decide) (last _)).trans ((drop (by decide) rfl).trans ((drop (by decide) rfl).trans ((drop (by decide) rfl).trans
      ((drop (by decide) rfl).trans ((drop (by decide) rfl).trans (State.val_setVal_same ..))))))
  · exact (drop (by decide) (last _)).trans ((drop (by decide) rfl).trans ((drop (by decide) rfl).trans ((drop (by decide) rfl).trans
      ((drop (by decide) rfl).trans (State.val_setVal_same ..)))))
  · exact (drop (by decide) (last _)).trans ((drop (by decide) rfl).trans ((drop (by decide) rfl).trans ((drop (by decide) rfl).trans
      (State.val_setVal_same ..))))

/-- The records of the shards that a restore wrote (Table 11-8). -/
theorem shardRecs_rest (xs : List CkSection) (s : State) :
    xs.foldl (fun s x => s.setShardRec x.shard (2 ^ 128 * x.commitStep + 2 ^ 256 * x.digest)) s
      = { s with params := (xs.foldl (fun s x => s.setShardRec x.shard (2 ^ 128 * x.commitStep + 2 ^ 256 * x.digest)) s).params } := by
  induction xs generalizing s with
  | nil => rfl
  | cons x xs ih =>
    rw [List.foldl_cons, ih]
    rfl

theorem restore_taken {s : State} {c : Checkpoint}
    (h : (s.upd.restoring.bind fun k => s.journal.complete.find? fun c => c.number == k) = some c) (good : s.payloadGood c = true)
    (digests : ∀ x ∈ c.sections, (c.sections.foldl State.writeSection (unrestoring s)).shardDigest
      ((c.sections.foldl State.writeSection (unrestoring s)).reg P.shardTable x.shard) 0 = x.digest) :
    let u := c.sections.foldl State.writeSection (unrestoring s)
    let t := restoreCompleteStep s
    t.upd.restoring = none ∧ t.val P.restoreStatus = 0 ∧ t.step = c.step ∧ t.val P.decidedStep = c.step ∧ t.val P.optStep = c.optStep
      ∧ t.val P.updateSeed = c.updateSeed ∧ t.val P.accumSeed = c.accumSeed ∧ t.seq.firstOpen = true ∧ t.upd.kept = [] ∧ t.mem = u.mem := by
  intro u t
  have right : ¬ (c.sections.any fun x => u.shardDigest (u.reg P.shardTable x.shard) 0 != x.digest) = true := by
    simp only [List.any_eq_true, bne_iff_ne, not_exists, not_and, not_not]
    exact digests
  have shape : t = restored (c.sections.foldl (fun s x => s.setShardRec x.shard (2 ^ 128 * x.commitStep + 2 ^ 256 * x.digest)) u) c := by
    show restoreCompleteStep s = _
    unfold restoreCompleteStep
    simp only [h]
    exact (if_neg (not_not_intro good)).trans ((if_neg right).trans rfl)
  have written : u.upd.restoring = none := (congrArg (fun v : State => v.upd.restoring) (still_writeSections c.sections (unrestoring s)) :)
  have recs := shardRecs_rest c.sections u
  clear_value t
  generalize c.sections.foldl (fun s x => s.setShardRec x.shard (2 ^ 128 * x.commitStep + 2 ^ 256 * x.digest)) u = v at recs shape
  obtain ⟨ended, reads⟩ := restored_reads v c
  rw [← shape] at ended reads
  obtain ⟨status, step, decided, opt, seed, accum, first, kept, mem⟩ := reads
  exact ⟨ended.trans ((congrArg (fun w : State => w.upd.restoring) recs :).trans written), status, step, decided, opt, seed, accum, first, kept,
    mem.trans (congrArg State.mem recs :)⟩

end Sys2Proof.JournalLaws

namespace Sys2Proof.Claims

open Sys2Proof.Machine Sys2Proof.JournalLaws

/-- Settles O27: the journal's writes touch units alone, and a restore writes its sections and then its registers. -/
theorem checkpointsAreRecordedAndRestored : Obligations.CheckpointsAreRecordedAndRestored := by
  unfold Obligations.CheckpointsAreRecordedAndRestored
  refine ⟨fun s ck rest can writing => ?_, fun s c _ restoring => ?_⟩
  · refine ⟨fun unheaded b => ?_, fun headed => ⟨⟨_, rfl, checkpoint_durable can writing headed⟩, ⟨_, rfl, checkpoint_abandoned can writing headed⟩⟩⟩
    refine congrArg Host.Outcome.next ?_
    unfold checkpointStepDone
    simp only [writing]
    exact if_pos (Bool.eq_false_iff.1 unheaded)
  · exact ⟨fun bad => ⟨_, rfl, restore_refused restoring bad⟩, fun good digests _ => ⟨_, rfl, restore_taken restoring good digests⟩⟩

end Sys2Proof.Claims

/-! PROOF. What the decision of a step writes (R154, R155, R249 to R256), and what a boundary leaves alone (R12, R247, R327). -/

namespace Sys2Proof.StepLaws

open Sys2Proof.Machine Sys2Proof.Claims Sys2Proof.RecordLaws Sys2Proof.WorkLaws Sys2Proof.RestLaws Sys2Proof.WeirLaws

/-- Tokens are raised and books of the updates kept: no record of a step enters or leaves. -/
structure Books (s t : State) : Prop where
  rest : t = { s with
    params := t.params, log := t.log, weir := t.weir, riffle := t.riffle, upd := t.upd
    seq := { s.seq with dies := t.seq.dies, heldRaises := t.seq.heldRaises } }
  steps : t.upd.steps = s.upd.steps
  restoring : t.upd.restoring = s.upd.restoring

namespace Books

variable {s t u : State}

theorem refl (s : State) : Books s s := ⟨rfl, rfl, rfl⟩

theorem trans (h : Books s t) (g : Books t u) : Books s u :=
  ⟨by rw [g.rest, h.rest], g.steps.trans h.steps, g.restoring.trans h.restoring⟩

theorem ite {c : Prop} [Decidable c] (h : Books s t) (g : Books s u) : Books s (if c then t else u) := by
  split <;> assumption

theorem foldl {α : Type} {f : State → α → State} {xs : List α} (hf : ∀ x ∈ xs, ∀ v, Books v (f v x)) (s : State) : Books s (xs.foldl f s) := by
  induction xs generalizing s with
  | nil => exact refl s
  | cons x xs ih => exact (hf x (List.mem_cons_self ..) s).trans (ih (fun y hy => hf y (List.mem_cons_of_mem _ hy)) _)

theorem of_tends {ps : List Nat} (h : Tends ps s t) : Books s t :=
  ⟨by rw [h.rest], congrArg Upd.steps h.upd, congrArg Upd.restoring h.upd⟩

theorem of_records {ps : List Nat} (h : Records ps s t) : Books s t := of_tends (.of_records h)

theorem setReg (s : State) (p e v : Nat) : Books s (s.setReg p e v) := ⟨rfl, rfl, rfl⟩

theorem applyRaise (s : State) {r : HeldRaise} (hsl : r.slot < 64) : Books s (s.applyRaise r) := by
  unfold State.applyRaise
  split
  · obtain ⟨v, counted, shape⟩ := addToken_eq hsl s r.token r.count
    rw [shape]
    have raised : Books v (v.setDie r.slot (raisedDie (v.die r.slot) r.token r.count v.ac)) := ⟨rfl, rfl, rfl⟩
    exact (of_tends (.of_accounts (List.Subset.refl _) counted)).trans (raised.trans (ite ⟨rfl, rfl, rfl⟩ (refl _)))
  · exact ite ⟨rfl, rfl, rfl⟩ ⟨rfl, rfl, rfl⟩

theorem raiseOn (s : State) (slots token count step : Nat) : Books s (s.raiseOn slots token count step) :=
  ite (refl s) (foldl (fun _ h v => applyRaise v (mem_indicesWhere.1 h).1) s)

theorem raiseDone (s : State) (c : Sparse Nat) (layer n : Nat) : Books s (s.raiseDone c layer n) := raiseOn ..

theorem raiseFree (s : State) (c : Sparse Nat) (n : Nat) : Books s (s.raiseFree c n) := foldl (fun _ _ v => raiseOn v ..) s

theorem logStep (s : State) (n state cause flag commit : Nat) : Books s (s.logStep n state cause flag commit) := by
  unfold State.logStep
  extract_lets e old
  have logged : Books s (((List.range 64).zip (old.drop 1 ++ [e])).foldl (fun s (i, v) => s.setReg P.stepLog i v) s) :=
    foldl (fun x _ v => setReg v P.stepLog x.1 x.2) s
  generalize ((List.range 64).zip (old.drop 1 ++ [e])).foldl (fun s (i, v) => s.setReg P.stepLog i v) s = w at logged ⊢
  exact logged.trans ⟨rfl, rfl, rfl⟩

theorem modPhases (s : State) (n : Nat) (f : Nat → Nat) : Books s (s.modPhases n f) := by
  unfold State.modPhases
  extract_lets shs
  exact foldl (fun sh _ v => setReg v P.shardRecords sh (f (v.shardRec sh))) s

theorem applyResets (s : State) : Books s s.applyResets := by
  unfold State.applyResets
  extract_lets ready a
  have reset : Books s a := foldl (fun sh _ v => setReg v P.shardRecords sh 0) s
  exact reset.trans ⟨rfl, rfl, rfl⟩

theorem arriveUpdates (s : State) : Books s s.arriveUpdates := by
  unfold State.arriveUpdates
  refine foldl (fun x _ v => ?_) s
  split
  · exact refl v
  · exact ⟨rfl, rfl, rfl⟩

theorem requeue (s : State) : Books s s.requeue := by
  unfold State.requeue
  extract_lets a
  have arrived : Books s a := arriveUpdates s
  refine arrived.trans (foldl (fun x _ v => ?_) a)
  extract_lets b q
  exact ite (refl v) ⟨rfl, rfl, rfl⟩

theorem discardUpdates (s : State) (n : Nat) : Books s (s.discardUpdates n) := ⟨rfl, rfl, rfl⟩

end Books

/-- A step is decided: its record leaves, and what its decision brings about on the module is done. -/
structure Decides (n : Nat) (s t : State) : Prop where
  rest : t = { s with
    params := t.params, log := t.log, weir := t.weir, riffle := t.riffle, upd := t.upd
    seq := { s.seq with dies := t.seq.dies, heldRaises := t.seq.heldRaises } }
  steps : t.upd.steps = s.upd.steps.filter fun r => r.step != n
  restoring : t.upd.restoring = s.upd.restoring

theorem decides_forget {s v : State} (h : Books s v) (n : Nat) : Decides n s (v.forget n).applyResets.requeue := by
  have gone : Decides n s (v.forget n) :=
    ⟨by rw [State.forget, h.rest], congrArg (List.filter _) h.steps, h.restoring⟩
  have settled := (Books.applyResets (v.forget n)).trans (.requeue _)
  exact ⟨by rw [settled.rest, gone.rest], settled.steps.trans gone.steps, settled.restoring.trans gone.restoring⟩

/-- R251, R252, R155. -/
theorem decides_skipStep (s : State) (n cause commit : Nat) : Decides n s (s.skipStep n cause commit) := by
  unfold State.skipStep
  split
  next none' =>
    refine ⟨rfl, (List.filter_eq_self.2 fun r hr => ?_).symm, rfl⟩
    exact bne_iff_ne.2 fun same => List.find?_eq_none.1 none' r hr (beq_iff_eq.2 same)
  next r _ =>
    extract_lets c a b d e f
    have discarded : Books s a := (Books.discardUpdates s n).trans (.modPhases ..)
    have done' : Books a b := .foldl (fun _ _ v => Books.raiseDone v ..) a
    have free : Books b d := .raiseFree ..
    have logged : Books d e := .logStep ..
    have counted : Books e (e.bump64 P.stepsSkipped (cause - 1) 1) := .setReg ..
    exact decides_forget (discarded.trans (done'.trans (free.trans (logged.trans counted)))) n

/-! The state around a boundary. -/

/-- The state but for what the end of a step reaches. -/
def concluded (s : State) : State :=
  { steady s with
    held := [], weir := {}
    seq := { (steady s).seq with heldRaises := [], changeReq := [], opened := false, wordTaken := false } }

/-- `t` is `s` but for what the end of a step reaches; changes asked for stay asked for. -/
structure Concludes (s t : State) : Prop where
  rest : concluded t = concluded s
  asked : s.seq.changeReq ⊆ t.seq.changeReq

/-- No step is open any more (R12). -/
def closedStep (s : State) : State := { s with seq := { s.seq with opened := false } }

theorem boundary_eq (s : State) : s.boundary =
    if s.soloFinal.seq.opened ∧ (List.range 8).all s.soloFinal.atBoundary then (closedStep s.soloFinal.accountAll).settleWrites else s.soloFinal := rfl

namespace Concludes

variable {s t u : State}

theorem refl (s : State) : Concludes s s := ⟨rfl, List.Subset.refl _⟩

theorem trans (h : Concludes s t) (g : Concludes t u) : Concludes s u := ⟨Eq.trans g.rest h.rest, List.Subset.trans h.asked g.asked⟩

theorem ite {c : Prop} [Decidable c] (h : Concludes s t) (g : Concludes s u) : Concludes s (if c then t else u) := by
  split <;> assumption

theorem of_steady (h : Steady s t) : Concludes s t := by
  refine ⟨?_, ?_⟩
  · exact congrArg (fun v : State => { v with
      held := [], weir := {}, seq := { v.seq with heldRaises := [], changeReq := [], opened := false, wordTaken := false } }) h
  · rw [show t.seq.changeReq = s.seq.changeReq from (congrArg (fun v : State => v.seq.changeReq) h :)]
    exact List.Subset.refl _

theorem of_rest (h : t = { s with
    params := t.params, log := t.log, weir := t.weir, riffle := t.riffle, upd := t.upd
    seq := { s.seq with dies := t.seq.dies, heldRaises := t.seq.heldRaises } }) : Concludes s t := by
  rw [h]
  exact ⟨rfl, List.Subset.refl _⟩

theorem of_tends {ps : List Nat} (h : Tends ps s t) : Concludes s t := of_rest (Books.of_tends h).rest

theorem raiseEventOf (s : State) (n cls code source d0 d1 : Nat) : Concludes s (s.raiseEventOf n cls code source d0 d1) := by
  unfold State.raiseEventOf
  extract_lets a now newest within
  have counted : Concludes s a := ⟨rfl, List.Subset.refl _⟩
  refine counted.trans ?_
  split
  · exact ⟨rfl, List.Subset.refl _⟩
  · exact of_steady (.of_records (.storeEvent a _))

/-- R264. -/
theorem requestReplay (s : State) (n : Nat) : Concludes s (s.requestReplay n) := by
  unfold State.requestReplay
  extract_lets a
  refine trans (t := a) ⟨rfl, List.Subset.refl _⟩ ?_
  split
  · exact raiseEventOf ..
  · split
    · exact raiseEventOf ..
    · next slot pos _ _ _ _ =>
      refine (raiseEventOf a n 6 4 (srcSlot slot) pos (a.val P.replayPeer)).trans ?_
      exact ⟨rfl, List.subset_append_left ..⟩

theorem noteMet (s : State) (n : Nat) : Concludes s (s.noteMet n) := by
  unfold State.noteMet
  split
  · exact ite ⟨rfl, List.Subset.refl _⟩ (refl s)
  · exact refl s

/-- R247, R251. -/
theorem finalWord (s : State) (n w : Nat) : Concludes s (s.finalWord n w) := by
  unfold State.finalWord
  extract_lets a q b c d
  have stored : Concludes s a := ⟨rfl, List.Subset.refl _⟩
  have taken : Concludes a b := ⟨rfl, List.Subset.refl _⟩
  have met : Concludes b c := trans (t := b.modStep n fun r => { r with isFinal := true, finalAt := b.clock.now, word := w })
    ⟨rfl, List.Subset.refl _⟩ (noteMet ..)
  have skipped : Concludes c d := of_rest (decides_skipStep c n 1 0).rest
  refine stored.trans (taken.trans (met.trans ?_))
  exact ite (refl c) (skipped.trans (ite (requestReplay ..) (refl d)))

theorem soloFinal (s : State) : Concludes s s.soloFinal := ite (finalWord ..) (refl s)

theorem settleWrites (s : State) : Concludes s s.settleWrites := by
  have held : Concludes s s.settleHeld := by
    unfold State.settleHeld
    exact ite (trans (t := { s with held := [] }) ⟨rfl, List.Subset.refl _⟩ (of_steady (.applyHeldAll s))) (refl s)
  exact held.trans (of_steady (.of_still (.settleStaged _)))

theorem closedStep (s : State) : Concludes s (closedStep s) := ⟨rfl, List.Subset.refl _⟩

/-- R12. -/
theorem boundary (s : State) : Concludes s s.boundary := by
  have solo := soloFinal s
  rw [boundary_eq]
  generalize s.soloFinal = a at solo ⊢
  have counted : Concludes a a.accountAll := of_tends (.of_accounts (List.Subset.refl _) (Accounts.accountAll a))
  exact solo.trans (ite (counted.trans ((closedStep _).trans (settleWrites _))) (refl a))

theorem clock (h : Concludes s t) : t.clock = s.clock := (congrArg State.clock h.rest :)
theorem dead (h : Concludes s t) : t.seq.dead = s.seq.dead := (congrArg (fun u : State => u.seq.dead) h.rest :)
theorem host (h : Concludes s t) : t.host = s.host := (congrArg State.host h.rest :)

end Concludes

/-- R12: with no step open there is nothing to end. -/
theorem boundary_of_closed {s : State} (closed : s.seq.opened = false) : s.boundary = s := by
  have solo : s.soloFinal = s := if_neg fun ⟨opened, _⟩ => Bool.eq_false_iff.1 closed opened
  unfold State.boundary
  rw [solo]
  exact if_neg fun ⟨opened, _⟩ => Bool.eq_false_iff.1 closed opened

end Sys2Proof.StepLaws

/-! PROOF. The failure of a die (R353, R354): ac that pass on its base die drop a stream beyond the sixteenth of another die there, and
with it what kept the step from its boundary. -/

namespace Sys2Proof.StepLaws

open Sys2Proof.Machine

/-- A table set that holds one entry, for the first stream of slot 0. -/
def oneEntry : TableSet :=
  { setId := 0, flagToken := 0, slotMask := 1, directory := [(0, 2 ^ 32)], tokens := [], entries := [], entryCount := 1 }

/-- A step is open; a copy holds the head of slot 0, and slot 1 has only a seventeenth stream that has not ended. -/
def seventeenth : State :=
  let s := State.reset.setVal P.bootState 4
  { s with
    clock := { s.clock with now := 4 }
    seq := { s.seq with
      opened := true, wordTaken := true, active := some oneEntry, copying := [(0, 0)]
      dies := [(0, { streams := [{ ended := false }] }), (1, { streams := List.replicate 16 {} ++ [{ ended := false }] })] } }

end Sys2Proof.StepLaws

namespace Sys2Proof.Claims

open Sys2Proof.Machine Sys2Proof.StepLaws

/-- Refutes O36: slot 1 is unfinished when the die of slot 0 fails, and yet the step ends, since the ac that are accounted leave slot 1
its sixteen streams. -/
theorem not_failedAndScreenedDiesChangeTheirState : ¬ Obligations.FailedAndScreenedDiesChangeTheirState := by
  unfold Obligations.FailedAndScreenedDiesChangeTheirState
  intro claim
  have canonical : Canonical seventeenth := by
    unfold Canonical
    decide +kernel
  have up : seventeenth.up 2 = true := by decide +kernel
  have serves : seventeenth.posState 0 ≠ 3 := by decide +kernel
  have slot : seventeenth.slotOfPos 0 = some 0 := by decide +kernel
  have other : ∃ k, k < 64 ∧ k ≠ 0 ∧ seventeenth.seq.dead.contains k = false ∧ seventeenth.unfinished k = true :=
    ⟨1, by decide, by decide, by decide +kernel, by decide +kernel⟩
  obtain ⟨failure, -, -⟩ := claim seventeenth (0 : Position) canonical
  obtain ⟨failed, -⟩ := failure up serves List.not_mem_nil
  obtain ⟨t, run, -, -, -, kept⟩ := failed 0 slot
  obtain ⟨-, -, stays⟩ := kept (.inr other)
  have result : dieFailureStep seventeenth 0 = t := Host.Outcome.next.inj run
  have ended : (dieFailureStep seventeenth 0).seq.opened = false := by decide +kernel
  rw [result, stays] at ended
  exact absurd ended (by decide)

end Sys2Proof.Claims

/-! PROOF. A message leaves its stream (R220, R225), and a tile that a message brings is written and signalled (R226, R245, R279). -/

namespace Sys2Proof.StreamLaws

open Sys2Proof.Machine Sys2Proof.Claims Sys2Proof.RecordLaws Sys2Proof.StoreTileLaws

/-! The messages of a stream. -/

theorem mem_insertBy {α : Type} {key : α → Nat} {x y : α} {ys : List α} (h : y ∈ insertBy key x ys) : y = x ∨ y ∈ ys := by
  induction ys with
  | nil => exact .inl (List.mem_singleton.1 h)
  | cons z zs ih =>
    unfold insertBy at h
    split at h
    · exact List.mem_cons.1 h
    · rcases List.mem_cons.1 h with rfl | h
      · exact .inr (List.mem_cons_self ..)
      · exact (ih h).imp_right (List.mem_cons_of_mem _)

theorem mem_sortBy {α : Type} {key : α → Nat} {xs : List α} {y : α} (h : y ∈ sortBy key xs) : y ∈ xs := by
  have sorted : ∀ (xs acc : List α), y ∈ xs.foldl (fun acc x => insertBy key x acc) acc → y ∈ xs ∨ y ∈ acc := by
    intro xs
    induction xs with
    | nil => exact fun _ h => .inr h
    | cons x xs ih =>
      intro acc h
      rcases ih _ h with h | h
      · exact .inl (List.mem_cons_of_mem _ h)
      · rcases mem_insertBy h with rfl | h
        · exact .inl (List.mem_cons_self ..)
        · exact .inr h
  exact (sorted xs [] h).resolve_right List.not_mem_nil

/-- Every segment of a complete message carries its number. -/
theorem msg_of_headMessage {r : Rx} {gs : List RSeg} (h : r.headMessage = some gs) : ∃ m, ∀ g ∈ gs, g.msg = m := by
  unfold Rx.headMessage Rx.message at h
  refine ⟨r.nextFrom (r.segs.length + r.done.length) r.msg, fun g mem => ?_⟩
  dsimp only at h
  split at h
  · exact nomatch h
  · split at h
    · obtain rfl := Option.some.inj h
      exact beq_iff_eq.1 (List.mem_filter.1 (mem_sortBy mem)).2
    · exact nomatch h

/-- What a message that may be applied is: of the open step, and all of one number (R225). -/
theorem applicable_reads {s : State} {ns : Nat} {gs : List RSeg} {bs : List Byte} (h : s.applicable ns = some (gs, bs)) :
    ∃ (l : RSeg) (m : Nat), gs.getLast? = some l ∧ (∀ g ∈ gs, g.msg = m) ∧ (gs.head?.map (·.step)).getD 0 = s.step := by
  unfold State.applicable at h
  split at h
  · exact nomatch h
  · next head =>
    dsimp only at h
    split at h
    · exact nomatch h
    · next g rest =>
      split at h
      · next now =>
        obtain ⟨rfl, rfl⟩ := Prod.mk.inj (Option.some.inj h)
        obtain ⟨m, same⟩ := msg_of_headMessage head
        exact ⟨_, m, List.getLast?_eq_some_getLast (List.cons_ne_nil g rest), same, now⟩
      · exact nomatch h

/-- Messages are taken off the receiving directions: those, what leaves and registers alone. -/
def Receives (s t : State) : Prop := t = { s with params := t.params, out := t.out, net := { s.net with rx := t.net.rx } }

namespace Receives

variable {s t u : State}

theorem refl (s : State) : Receives s s := rfl

theorem trans (h : Receives s t) (g : Receives t u) : Receives s u := by
  unfold Receives at h g ⊢
  rw [g, h]

theorem ite {c : Prop} [Decidable c] (h : Receives s t) (g : Receives s u) : Receives s (if c then t else u) := by
  split <;> assumption

theorem setRx (s : State) (ns : Nat) (r : Rx) : Receives s (s.setRx ns r) := rfl

theorem sendAck (s : State) (ns : Nat) : Receives s (s.sendAck ns) := by
  unfold State.sendAck
  extract_lets r credit rs payload pkt
  unfold Receives
  rw [sendPacket_rest]
  rfl

theorem net (h : Receives s t) : t.net = { s.net with rx := t.net.rx } := (congrArg State.net h :)
theorem mem (h : Receives s t) : t.mem = s.mem := (congrArg State.mem h :)
theorem clock (h : Receives s t) : t.clock = s.clock := (congrArg State.clock h :)
theorem seq (h : Receives s t) : t.seq = s.seq := (congrArg State.seq h :)

end Receives

theorem segs_sendAck (s : State) (ns : Nat) : ((s.sendAck ns).rx ns).segs = (s.rx ns).segs := by
  unfold State.sendAck
  extract_lets r credit rs payload pkt
  rw [rx_congr (net_sendPacket ..), rx_setRx_same]

/-- R220, R225: a message that ends leaves its stream. -/
theorem finishMessage_reads (s : State) (ns : Nat) {gs : List RSeg} {l : RSeg} (h : gs.getLast? = some l) :
    Receives s (s.finishMessage ns gs) ∧ ((s.finishMessage ns gs).rx ns).segs = (s.rx ns).segs.filter fun g => g.msg != l.msg := by
  unfold State.finishMessage
  simp only [h]
  have taken : ((s.setRx ns (((s.rx ns).accept l.seq s.clock.now).finish l.msg)).rx ns).segs = (s.rx ns).segs.filter fun g => g.msg != l.msg := by
    rw [rx_setRx_same]
    rfl
  refine ⟨(Receives.setRx ..).trans (.ite (.sendAck ..) (.refl _)), ?_⟩
  split
  · exact (segs_sendAck ..).trans taken
  · exact taken

/-- R225: stale messages that leave. -/
theorem dropStale_reads (n ns : Nat) (s : State) :
    Receives s (dropStale n ns s) ∧ ∀ g ∈ ((dropStale n ns s).rx ns).segs, g ∈ (s.rx ns).segs := by
  induction n generalizing s with
  | zero => exact ⟨.refl s, fun _ => id⟩
  | succ n ih =>
    unfold dropStale
    split
    · exact ⟨.refl s, fun _ => id⟩
    next gs _ =>
    extract_lets stale
    clear_value stale
    split
    · have counted : Receives s (s.bump32 P.staleMessages ns 1) := rfl
      obtain ⟨rest, segs⟩ := ih ((s.bump32 P.staleMessages ns 1).finishMessage ns gs)
      cases last : gs.getLast? with
      | none =>
        have stays : (s.bump32 P.staleMessages ns 1).finishMessage ns gs
            = if ((s.bump32 P.staleMessages ns 1).rx ns).since ≥ 8 then (s.bump32 P.staleMessages ns 1).sendAck ns else s.bump32 P.staleMessages ns 1 := by
          unfold State.finishMessage
          simp only [last]
        rw [stays] at rest segs ⊢
        refine ⟨counted.trans ((Receives.ite (.sendAck ..) (.refl _)).trans rest), fun g hg => ?_⟩
        have kept := segs g hg
        split at kept
        · rwa [segs_sendAck] at kept
        · exact kept
      | some l =>
        obtain ⟨finished, left⟩ := finishMessage_reads (s.bump32 P.staleMessages ns 1) ns last
        exact ⟨counted.trans (finished.trans rest), fun g hg => (List.mem_filter.1 (left ▸ segs g hg)).1⟩
    · exact ⟨.refl s, fun _ => id⟩

/-- R225: the message that was applied, and stale ones behind it, leave the stream. -/
theorem message_left {s : State} {ns : Nat} {gs : List RSeg} {bs : List Byte} (h : s.applicable ns = some (gs, bs)) (v : State) :
    Receives v (discardStale ns (v.finishMessage ns gs))
      ∧ ∀ g ∈ ((discardStale ns (v.finishMessage ns gs)).rx ns).segs, ∀ x ∈ gs, g.msg ≠ x.msg := by
  obtain ⟨l, m, last, same, -⟩ := applicable_reads h
  obtain ⟨finished, segs⟩ := finishMessage_reads v ns last
  obtain ⟨dropped, kept⟩ := dropStale_reads (((v.finishMessage ns gs).rx ns).segs.length + 1) ns (v.finishMessage ns gs)
  refine ⟨finished.trans dropped, fun g hg x hx => ?_⟩
  have left := kept g hg
  rw [segs] at left
  rw [same x hx, ← same l (List.mem_of_getLast? last)]
  exact bne_iff_ne.1 (List.mem_filter.1 left).2

end Sys2Proof.StreamLaws

namespace Sys2Proof.WorkLaws

open Sys2Proof.Machine Sys2Proof.Claims Sys2Proof.IssueLaws Sys2Proof.RecordLaws Sys2Proof.StoreTileLaws Sys2Proof.StepLaws

/-- The die of another slot, while the ac of slot `sl` are accounted (R282). -/
theorem passed_account {s : State} (can : Canonical s) {sl k : Nat} (hsl : sl < 64) (hk : k ≠ sl) : PassedOnly (s.die k) ((s.account sl).die k) := by
  have caught := Accounts.catchUp (b := sl / 8) (by omega) s
  have waits := (Waits.catchUp (b := sl / 8) (by omega) s).dies can k
  unfold State.account
  extract_lets v d n
  have wf : Sparse.wf dieDefault v.seq.dies = true := (caught.can can).2.2.2
  split
  · rw [State.die_setDie_other v _ wf hk]
    exact waits
  · rw [State.die_setDie_other ((v.bump64 _ _ _).bump64 _ _ _) _ wf hk]
    exact waits

/-- R30: another slot's die while a token is raised at once. -/
theorem passed_applyRaise {s : State} (can : Canonical s) {r : HeldRaise} (hsl : r.slot < 64) (now : r.step = s.step) {k : Nat} (hk : k ≠ r.slot) :
    PassedOnly (s.die k) ((s.applyRaise r).die k) := by
  have passed := passed_account can hsl hk
  have wf : Sparse.wf dieDefault (s.account r.slot).seq.dies = true := ((Accounts.account hsl s).can can).2.2.2
  rw [State.applyRaise, if_pos now]
  have shape : s.addToken r.slot r.token r.count =
      let w := (s.account r.slot).setDie r.slot (raisedDie ((s.account r.slot).die r.slot) r.token r.count (s.account r.slot).ac)
      if 255 < ((s.account r.slot).die r.slot).token r.token + r.count then w.bump32 P.tokenSaturations r.slot 1 else w := rfl
  rw [shape]
  generalize s.account r.slot = v at passed wf
  have other := State.die_setDie_other v (raisedDie (v.die r.slot) r.token r.count v.ac) wf hk
  dsimp only
  split
  · exact (State.die_congr rfl k).trans other ▸ passed
  · exact other ▸ passed

/-- R226, R245, R279: the tile that a message brings, with its digest in order. -/
theorem writesTile_applied {s : State} {bs : List Byte} {i k : Nat} (place : s.place (tileId (beField bs 8 8)) = .mapped i k)
    (digest : bit (s.val P.digestVerify) 1 = true →
      (receivedTile bs).2.received.computeDigest (receivedTile bs).1 = (receivedTile bs).2.digest)
    (width : k = Nat.log2 (receivedTile bs).1) (step : Nat) :
    ∃ v, WritesTile i (receivedTile bs).2.received s v ∧ s.applyTile bs step =
      if bits (beField bs 2 2) 12 2 = 0 then v
      else v.applyRaise { slot := bits (beField bs 2 2) 0 6, token := bits (beField bs 2 2) 6 6, count := bits (beField bs 2 2) 12 2, step := step } := by
  have verified : ∀ acct, s.verifyReceived acct (tileId (beField bs 8 8)) (receivedTile bs).1 (receivedTile bs).2.received
      = ((receivedTile bs).2.received, s) := by
    intro acct
    unfold State.verifyReceived State.verifyTile
    refine if_neg fun wrong => ?_
    obtain ⟨asked, other⟩ := (Bool.and_eq_true ..).mp wrong
    exact bne_iff_ne.1 other (digest asked)
  refine ⟨((s.putStored i (receivedTile bs).2.received).condition (wordOf (receivedTile bs).2.received.flags false)).countTileLayer
    (tileId (beField bs 8 8)) 2 (receivedTile bs).2.received, ?_, ?_⟩
  · exact ((writesTile_putStored s i (receivedTile bs).2.received).then (FlagsOnly.condition _ _)).then
      (FlagsOnly.countTileLayer _ _ (by decide) _)
  · unfold State.applyTile
    dsimp only
    rw [verified]
    dsimp only
    rw [← width, storeTile_same_class _ _ place]

end Sys2Proof.WorkLaws

/-! PROOF. What the confluence unit does with a message and with its word (R236 to R243, R246), and what messages bring (R225, R226). -/

namespace Sys2Proof.UnitLaws

open Sys2Proof.Machine Sys2Proof.Claims Sys2Proof.RecordLaws Sys2Proof.WorkLaws Sys2Proof.StreamLaws

/-- The confluence unit works: pages, time, what arrived on streams and the COLLs stand; tiles, sends and counts may differ. -/
structure Carries (s t : State) : Prop where
  rest : t = { s with
    params := t.params, log := t.log, flash := t.flash, out := t.out, mem := { t.mem with pages := s.mem.pages }
    net := { s.net with tx := t.net.tx }, seq := { s.seq with dies := t.seq.dies, nextWord := t.seq.nextWord } }

namespace Carries

variable {s t u : State}

theorem refl (s : State) : Carries s s := ⟨rfl⟩

theorem trans (h : Carries s t) (g : Carries t u) : Carries s u := by
  have pages : t.mem.pages = s.mem.pages := (congrArg (fun v : State => v.mem.pages) h.rest :)
  refine ⟨?_⟩
  rw [g.rest, pages, h.rest]

theorem ite {c : Prop} [Decidable c] (h : Carries s t) (g : Carries s u) : Carries s (if c then t else u) := by
  split <;> assumption

theorem foldl {α : Type} {f : State → α → State} (hf : ∀ v x, Carries v (f v x)) (xs : List α) (s : State) : Carries s (xs.foldl f s) := by
  induction xs generalizing s with
  | nil => exact refl s
  | cons x xs ih => exact (hf s x).trans (ih _)

theorem of_records {ps : List Nat} (h : Records ps s t) : Carries s t := ⟨by rw [h.rest]⟩

theorem of_flags (h : FlagsOnly s t) : Carries s t := ⟨by rw [h.rest]⟩

theorem bump64 (s : State) (p e n : Nat) : Carries s (s.bump64 p e n) := ⟨rfl⟩

theorem raiseEvent (s : State) {cls : Nat} (h : cls < 2 ^ 24) (code source d0 d1 : Nat) : Carries s (s.raiseEvent cls code source d0 d1) :=
  of_records (.raiseEvent (List.Subset.refl _) h s ..)

/-! Tiles. -/

theorem unmappedAccess (s : State) (acct id : Nat) : Carries s (s.unmappedAccess acct id) := by
  unfold State.unmappedAccess
  extract_lets a
  have counted : Carries s a := ⟨rfl⟩
  have told : Carries a { a with mem := { a.mem with unmapTold := acct :: a.mem.unmapTold } } := ⟨rfl⟩
  exact counted.trans (ite (refl a) (told.trans (raiseEvent _ (by decide) ..)))

theorem putStored (s : State) (id : Nat) (tl : Tile) : Carries s (s.putStored id tl) := by
  have stored := writesTile_putStored s id tl
  exact ⟨by rw [stored.rest]⟩

theorem storeTile (s : State) (acct id cls : Nat) (tl : Tile) : Carries s (s.storeTile acct id cls tl).2 := by
  unfold State.storeTile
  split
  · exact unmappedAccess ..
  · exact (bump64 s P.aliasWrites acct 1).trans (raiseEvent _ (by decide) ..)
  · exact (bump64 s P.aliasWrites acct 1).trans (raiseEvent _ (by decide) ..)
  · split
    · exact putStored ..
    · exact (putStored ..).trans (bump64 ..)

theorem countTileLayer (s : State) (id source : Nat) (tl : Tile) : Carries s (s.countTileLayer id source tl) := by
  unfold State.countTileLayer
  split
  · exact ⟨rfl⟩
  · exact refl s

theorem tileWrite (s : State) (w : TileWrite) : Carries s (s.tileWrite w) := by
  have stored := storeTile s w.acct w.id w.cls w.tile
  unfold State.tileWrite
  generalize s.storeTile w.acct w.id w.cls w.tile = x at stored
  obtain ⟨_ | tl, a⟩ := x
  · exact stored
  · have flagged := of_flags (.condition a (wordOf tl.flags (a.ovfEnabled w.ovf)))
    refine Carries.trans stored (flagged.trans ?_)
    dsimp only
    split
    · exact countTileLayer ..
    · exact refl _

theorem writeTile (s : State) (acct : Nat) (w : Writer) (ovf id cls : Nat) (tl : Tile) : Carries s (s.writeTile acct w ovf id cls tl) := by
  unfold State.writeTile State.write
  extract_lets ps a
  exact ite (tileWrite ..) ⟨rfl⟩

theorem verifyReceived (s : State) (acct id w : Nat) (tl : Tile) : Carries s (s.verifyReceived acct id w tl).2 := by
  unfold State.verifyReceived State.verifyTile
  split
  · exact (bump64 s P.digestErrors acct 1).trans (raiseEvent _ (by decide) ..)
  · exact refl s

theorem writeResult (s : State) (c : Coll) (q i : Nat) (tl : Tile) (fl : List Nat) : Carries s (s.writeResult c q i tl fl) :=
  (writeTile ..).trans ((bump64 ..).trans (bump64 ..))

/-! Sends. -/

theorem sendSeg (s : State) (ns : Nat) (g : Seg) : Carries s (s.sendSeg ns g) := by
  unfold State.sendSeg
  extract_lets flags pkt a b t
  have sent : Carries s a := ⟨by
    simp only [a]
    rw [sendPacket_rest]
    rfl⟩
  have counted : Carries a b := ite ⟨rfl⟩ (refl a)
  exact sent.trans (counted.trans ⟨rfl⟩)

theorem pump (s : State) (ns : Nat) : Carries s (s.pump ns) := by
  unfold State.pump
  extract_lets t
  exact ite (refl s) (foldl (fun v g => sendSeg v ns g) _ s)

theorem sendMessage (s : State) (ns step : Nat) (bytes : List Byte) : Carries s (s.sendMessage ns step bytes).2 := by
  unfold State.sendMessage
  extract_lets t n parts segs
  exact trans ⟨rfl⟩ (pump ..)

theorem sendColl (s : State) (c : Coll) (q kind index : Nat) (t : Option CollTile) : Carries s (s.sendColl c q kind index t) := sendMessage ..

/-- R238: what the first messages leave. -/
theorem startColl (s : State) (c : Coll) : Carries s (s.startColl c) := by
  unfold State.startColl
  split
  · refine foldl (fun v x => ?_) _ s
    exact (writeResult v c c.rank x.1 _ _).trans (foldl (fun w q => sendColl w c q 2 x.1 _) c.peers _)
  · extract_lets a
    have first : Carries s a := foldl (fun v q => by
      dsimp only
      exact ite (sendColl ..) (foldl (fun w i => sendColl w c q 1 i _) _ v)) c.peers s
    exact first.trans (ite (foldl (fun v q => sendColl v c q 2 _ none) c.peers a) (refl a))

theorem flightReady (s : State) (sl id t : Nat) : Carries s (s.flightReady sl id t) := ⟨rfl⟩

theorem colls (h : Carries s t) : t.net.colls = s.net.colls := (congrArg (fun v : State => v.net.colls) h.rest :)

end Carries

/-- The confluence unit works on its COLLs too. -/
def Unites (s t : State) : Prop :=
  t = { s with
    params := t.params, log := t.log, flash := t.flash, out := t.out, mem := { t.mem with pages := s.mem.pages }
    net := { s.net with tx := t.net.tx, colls := t.net.colls }, seq := { s.seq with dies := t.seq.dies, nextWord := t.seq.nextWord } }

namespace Unites

variable {s t u : State}

theorem of_carries (h : Carries s t) : Unites s t := by
  unfold Unites
  rw [h.rest]

theorem trans (h : Unites s t) (g : Unites t u) : Unites s u := by
  unfold Unites at h g ⊢
  have pages : t.mem.pages = s.mem.pages := (congrArg (fun v : State => v.mem.pages) h :)
  rw [g, pages, h]

theorem setColl (s : State) (c : Coll) : Unites s (s.setColl c) := rfl

theorem pages (h : Unites s t) : t.mem.pages = s.mem.pages := (congrArg (fun v : State => v.mem.pages) h :)
theorem clock (h : Unites s t) : t.clock = s.clock := (congrArg State.clock h :)
theorem wordTaken (h : Unites s t) : t.seq.wordTaken = s.seq.wordTaken := (congrArg (fun v : State => v.seq.wordTaken) h :)

end Unites

/-! The COLL with a key. -/

theorem coll_key {s : State} {key : Nat} {c : Coll} (h : s.coll key = some c) : c.key = key :=
  beq_iff_eq.1 (List.find?_some (p := fun c : Coll => c.key == key) h)

theorem coll_carries {s t : State} (h : Carries s t) (key : Nat) : t.coll key = s.coll key := by rw [State.coll, h.colls, State.coll]

theorem coll_setColl {s : State} {k c : Coll} (h : s.coll c.key = some k) : (s.setColl c).coll c.key = some c := by
  show (s.net.colls.map fun x => if x.key = c.key then c else x).find? (fun x => x.key == c.key) = _
  rw [List.find?_map]
  have same : (fun x => x.key == c.key) ∘ (fun x : Coll => if x.key = c.key then c else x) = fun x => x.key == c.key := by
    funext x
    by_cases here : x.key = c.key
    · simp [here]
    · simp [here]
  rw [same, show s.net.colls.find? (fun x => x.key == c.key) = some k from h, Option.map_some, if_pos (coll_key h)]

/-- The COLL with a key is there, and `φ` holds of it. -/
def Holds (φ : Coll → Prop) (key : Nat) (s : State) : Prop := ∃ c, s.coll key = some c ∧ φ c

/-- The unit works, and what holds of the COLL with a key still does. -/
structure Feeds (φ : Coll → Prop) (key : Nat) (s t : State) : Prop where
  unites : Unites s t
  holds : Holds φ key s → Holds φ key t

namespace Feeds

variable {φ : Coll → Prop} {key : Nat} {s t u : State}

theorem of_carries (h : Carries s t) : Feeds φ key s t :=
  ⟨.of_carries h, fun ⟨c, found, holds⟩ => ⟨c, (coll_carries h key).trans found, holds⟩⟩

theorem refl (s : State) : Feeds φ key s s := of_carries (.refl s)

theorem trans (h : Feeds φ key s t) (g : Feeds φ key t u) : Feeds φ key s u := ⟨h.unites.trans g.unites, fun x => g.holds (h.holds x)⟩

theorem foldl {α : Type} {f : State → α → State} (hf : ∀ v x, Feeds φ key v (f v x)) (xs : List α) (s : State) :
    Feeds φ key s (xs.foldl f s) := by
  induction xs generalizing s with
  | nil => exact refl s
  | cons x xs ih => exact (hf s x).trans (ih _)

/-- A COLL that replaces the one with its key. -/
theorem setColl {k c : Coll} (found : s.coll key = some k) (same : c.key = key) (holds : φ k → φ c) : Feeds φ key s (s.setColl c) := by
  subst same
  refine ⟨.setColl s c, fun ⟨d, there, this⟩ => ⟨c, coll_setColl found, holds ?_⟩⟩
  obtain rfl := Option.some.inj (found.symm.trans there)
  exact this

theorem holds_setColl {k c : Coll} (found : s.coll c.key = some k) (holds : φ c) : Holds φ c.key (s.setColl c) := ⟨c, coll_setColl found, holds⟩

/-- R240: results that are formed. -/
theorem formResults (stable : ∀ c fs, φ c → φ { c with formed := fs }) (s : State) : Feeds φ key s (s.formResults key) := by
  unfold State.formResults
  split
  · exact refl s
  next c _ =>
    split
    · exact refl s
    · refine foldl (fun v i => ?_) _ s
      split
      · exact refl v
      next d found =>
        extract_lets ts
        split
        · exact refl v
        · have formed : Feeds φ key v (v.setColl { d with formed := i :: d.formed }) := setColl found (coll_key found : d.key = key) (stable d _)
          have written := Carries.writeResult (v.setColl { d with formed := i :: d.formed }) d d.rank i
            (resultTile (ts.filterMap id) d.step).1 (resultTile (ts.filterMap id) d.step).2
          refine formed.trans ((of_carries written).trans ?_)
          dsimp only
          split
          · exact of_carries (.foldl (fun w q => .sendColl w d q 2 i _) d.peers _)
          · exact refl _

/-- R242. -/
theorem settleColl (stable : ∀ c fs, φ c → φ { c with formed := fs }) (s : State) : Feeds φ key s (s.settleColl key) := by
  unfold State.settleColl
  extract_lets a
  have formed : Feeds φ key s a := formResults stable s
  refine formed.trans ?_
  split
  · exact refl a
  · split
    · exact of_carries (.flightReady ..)
    · exact refl a

end Feeds

/-- R246: the word of a message enters its COLL's, and the step's. -/
theorem unites_applyWord (s : State) (c : Coll) (fw : Nat) :
    Unites s (s.applyWord c fw) ∧ ((∃ k, s.coll c.key = some k) → ∃ k, (s.applyWord c fw).coll c.key = some k) := by
  unfold State.applyWord
  extract_lets a
  have worded : Feeds (fun _ => True) c.key s a := by
    simp only [a]
    cases found : s.coll c.key with
    | none => exact .refl s
    | some k => exact .setColl (k := k) (c := { k with words := Nat.lor k.words fw }) found (coll_key found : k.key = c.key) id
  have flagged : Feeds (fun _ => True) c.key a (if geClosing (a.groupOf c.group) = true ∧ c.word.isSome = true then a else a.condition fw) := by
    split
    · exact .refl a
    · exact .of_carries (.of_flags (.condition a fw))
  have both := worded.trans flagged
  refine ⟨both.unites, fun ⟨k, found⟩ => ?_⟩
  obtain ⟨d, there, -⟩ := both.holds ⟨k, found, trivial⟩
  exact ⟨d, there⟩

/-- R239: the COLL that a message belongs to is there. -/
theorem coll_of_collOf {s : State} {bs : List Byte} {step : Nat} {c : Coll} (h : s.collOf bs step = some c) : ∃ k, s.coll c.key = some k :=
  Option.isSome_iff_exists.1 (List.find?_isSome.2 ⟨c, List.mem_of_find?_eq_some h, beq_self_eq_true _⟩)

/-- Contribution `x` of rank `q` is among those that have come. -/
def Contributed (q : Nat) (ix : Option Nat) (c : Coll) : Prop := ∃ x, (q, ix, x) ∈ c.arrived1

/-- Result `ix` of rank `q` is among those that have come. -/
def Resulted (q : Nat) (ix : Option Nat) (c : Coll) : Prop := (q, ix) ∈ c.arrived2

/-- A message is counted in as arrived: the COLL's record takes it, and then it settles. -/
theorem arrives {φ : Coll → Prop} (stable : ∀ c fs, φ c → φ { c with formed := fs }) {s : State} {key : Nat} {f : Coll → Coll}
    (same : ∀ k, (f k).key = k.key) (holds : ∀ k, φ (f k)) (there : ∃ k, s.coll key = some k) :
    let t := (match s.coll key with
      | some k => s.setColl (f k)
      | none => s).settleColl key
    Unites s t ∧ Holds φ key t := by
  obtain ⟨k, found⟩ := there
  have own : (f k).key = key := (same k).trans (coll_key found)
  have held : Holds φ key (s.setColl (f k)) := by
    have := Feeds.holds_setColl (s := s) (k := k) (c := f k) (own ▸ found) (holds k)
    rwa [own] at this
  have settled := Feeds.settleColl (key := key) stable (s.setColl (f k))
  rw [found]
  exact ⟨(Unites.setColl s (f k)).trans settled.unites, settled.holds held⟩

/-- R69: the tile of a contribution, once its digest was looked at; none of a flag-only message. -/
def checkedTile (s : State) (c : Coll) (bs : List Byte) : Option CollTile × State :=
  match messageIndex bs with
  | none => (none, s)
  | some i =>
    let r := s.verifyReceived (64 + c.slot / 8) (c.place c.rank i) (receivedTile bs).1 (receivedTile bs).2
    (some ⟨(receivedTile bs).1, r.1⟩, r.2)

theorem carries_checkedTile (s : State) (c : Coll) (bs : List Byte) : Carries s (checkedTile s c bs).2 := by
  unfold checkedTile
  split
  · exact .refl s
  · exact .verifyReceived ..

theorem applyContribution_eq (s : State) (c : Coll) (bs : List Byte) : s.applyContribution c bs =
    let x := checkedTile s c bs
    let a := x.2.applyWord c (beField bs 24 8)
    (match a.coll c.key with
      | some k => a.setColl { k with arrived1 := k.arrived1 ++ [(beField bs 6 2, messageIndex bs, x.1)] }
      | none => a).settleColl c.key := by
  unfold State.applyContribution checkedTile
  cases messageIndex bs <;> rfl

/-- R238 to R241, R246. -/
theorem applyContribution_reads {s : State} {c : Coll} (there : ∃ k, s.coll c.key = some k) (bs : List Byte) :
    Unites s (s.applyContribution c bs) ∧ Holds (Contributed (beField bs 6 2) (messageIndex bs)) c.key (s.applyContribution c bs) := by
  have checked := carries_checkedTile s c bs
  rw [applyContribution_eq]
  dsimp only
  generalize checkedTile s c bs = x at checked
  obtain ⟨tile, a⟩ := x
  obtain ⟨k, found⟩ := there
  obtain ⟨worded, kept⟩ := unites_applyWord a c (beField bs 24 8)
  obtain ⟨rest, holds⟩ := arrives (φ := Contributed (beField bs 6 2) (messageIndex bs))
    (f := fun k => { k with arrived1 := k.arrived1 ++ [(beField bs 6 2, messageIndex bs, tile)] })
    (fun _ _ => id) (fun _ => rfl) (fun k => ⟨tile, List.mem_append_right _ (List.mem_singleton_self _)⟩)
    (kept ⟨k, (coll_carries checked c.key).trans found⟩)
  exact ⟨(Unites.of_carries checked).trans (worded.trans rest), holds⟩

/-- R226, R238, R241, R246. -/
theorem applyResult_reads {s : State} {c : Coll} (there : ∃ k, s.coll c.key = some k) (bs : List Byte) :
    Unites s (s.applyResult c bs) ∧ Holds (Resulted (beField bs 6 2) (messageIndex bs)) c.key (s.applyResult c bs) := by
  unfold State.applyResult
  extract_lets q ix acct a
  have written : Carries s a := by
    simp only [a]
    cases ix with
    | none => exact .refl s
    | some i => exact (Carries.verifyReceived s acct (c.place q i) (receivedTile bs).1 (receivedTile bs).2.received).trans (.writeTile ..)
  clear_value a
  obtain ⟨k, found⟩ := there
  obtain ⟨worded, kept⟩ := unites_applyWord a c (beField bs 24 8)
  obtain ⟨rest, holds⟩ := arrives (φ := Resulted q ix) (f := fun k => { k with arrived2 := k.arrived2 ++ [(q, ix)] })
    (fun _ _ => id) (fun _ => rfl) (fun k => List.mem_append_right _ (List.mem_singleton_self _))
    (kept ⟨k, (coll_carries written c.key).trans found⟩)
  exact ⟨(Unites.of_carries written).trans (worded.trans rest), holds⟩

end Sys2Proof.UnitLaws

/-! PROOF. Messages that reach tiles and collectives, and the word that a collective takes (R225, R226, R238, R239, R246). -/

namespace Sys2Proof.UnitLaws

open Sys2Proof.Machine Sys2Proof.Claims Sys2Proof.RecordLaws Sys2Proof.WorkLaws Sys2Proof.StreamLaws Sys2Proof.StepLaws

/-! A tile for this module. -/

theorem nsendTileStep_eq {s : State} {ns : Nat} {gs : List RSeg} {bs : List Byte} (h : s.applicable ns = some (gs, bs))
    (kind : messageKind bs = 0) (warm : s.messageCold bs = []) :
    nsendTileStep s ns = discardStale ns ((s.applyTile bs ((gs.head?.map (·.step)).getD 0)).finishMessage ns gs) := by
  unfold nsendTileStep
  simp only [h]
  rw [if_neg (not_not_intro kind), if_neg (not_not_intro warm)]
  cases gs <;> rfl

/-- R226, R245, R279: what the application of a tile leaves. -/
theorem applyTile_reads {s : State} (can : Canonical s) {bs : List Byte} {i k : Nat} (place : s.place (tileId (beField bs 8 8)) = .mapped i k)
    (digest : bit (s.val P.digestVerify) 1 = true →
      (receivedTile bs).2.received.computeDigest (receivedTile bs).1 = (receivedTile bs).2.digest)
    (width : k = Nat.log2 (receivedTile bs).1) :
    let t := s.applyTile bs s.step
    let sig := beField bs 2 2
    t.tile i = (receivedTile bs).2.received ∧ (∀ j, j ≠ i → t.tile j = s.tile j) ∧ t.mem.pages = s.mem.pages ∧ t.clock = s.clock ∧ t.net = s.net
      ∧ (bits sig 12 2 = 0 → t.seq.dies = s.seq.dies)
      ∧ (bits sig 12 2 ≠ 0 → (t.die (bits sig 0 6)).tokens =
          (s.die (bits sig 0 6)).tokens.set (bits sig 6 6) (min ((s.die (bits sig 0 6)).token (bits sig 6 6) + bits sig 12 2) 255)
          ∧ ∀ k, k ≠ bits sig 0 6 → PassedOnly (s.die k) (t.die k)) := by
  intro t sig
  obtain ⟨v, written, shape⟩ := writesTile_applied place digest width s.step
  have run : t = _ := shape
  clear_value t
  have step : v.step = s.step := written.only.regs can.1 _ 0 (by decide) (by decide)
  have net : v.net = s.net := (congrArg State.net written.rest :)
  by_cases silent : bits sig 12 2 = 0
  · rw [run, if_pos silent]
    exact ⟨written.tile_same, fun j hj => written.tile_other can hj, written.pages, written.clock, net, fun _ => written.dies,
      fun raised => absurd silent raised⟩
  · have slot : bits sig 0 6 < 64 := Nat.mod_lt _ (by decide)
    rw [if_neg silent] at run
    have books := Books.applyRaise v (r := { slot := bits sig 0 6, token := bits sig 6 6, count := bits sig 12 2, step := s.step }) slot
    have raises := appliesRaise (r := { slot := bits sig 0 6, token := bits sig 6 6, count := bits sig 12 2, step := s.step }) slot v
    have passed := fun k => passed_applyRaise (written.can can)
      (r := { slot := bits sig 0 6, token := bits sig 6 6, count := bits sig 12 2, step := s.step }) slot step.symm (k := k)
    have tokens := raises.tokens (written.can can)
    rw [if_pos step.symm] at tokens
    rw [← run] at books passed tokens
    have mem : t.mem = v.mem := (congrArg State.mem books.rest :)
    have tile (j : Nat) : t.tile j = v.tile j := by rw [State.tile, mem, State.tile]
    refine ⟨(tile i).trans written.tile_same, fun j hj => (tile j).trans (written.tile_other can hj), (congrArg Mem.pages mem).trans written.pages,
      (congrArg State.clock books.rest :).trans written.clock, (congrArg State.net books.rest :).trans net, fun quiet => absurd quiet silent,
      fun _ => ⟨?_, fun k hk => ?_⟩⟩
    · rw [written.die] at tokens
      exact tokens
    · rw [← written.die k]
      exact passed k hk

/-! A message for the confluence unit. -/

theorem collMessageStep_eq {s : State} {ns : Nat} {gs : List RSeg} {bs : List Byte} (h : s.applicable ns = some (gs, bs)) :
    collMessageStep s ns (messageKind bs)
      = discardStale ns ((s.toUnit ns ((gs.head?.map (·.step)).getD 0) bs).finishMessage ns gs) := by
  unfold collMessageStep
  simp only [h]
  rw [if_neg (not_not_intro rfl)]
  cases gs <;> rfl

/-- R239: the COLL that a message belongs to takes it. -/
theorem toUnit_coll {s : State} {bs : List Byte} {step : Nat} {c : Coll} (h : s.collOf bs step = some c) (ns : Nat) :
    s.toUnit ns step bs = if messageKind bs = 1 then s.applyContribution c bs else s.applyResult c bs := by
  unfold State.toUnit
  simp only [h]
  rfl

/-- R243: a message that comes before its COLL is held. -/
theorem toUnit_early {s : State} {bs : List Byte} {step : Nat} (h : s.collOf bs step = none) (ns : Nat) :
    s.toUnit ns step bs = { s with net := { s.net with
      early := s.net.early ++ [{ ns := ns, base := s.groupBase (beField bs 4 2), step := step, bytes := bs }] } } := by
  unfold State.toUnit
  simp only [h]

/-- What a message's application and departure leave of the pages and of the time, and of the COLL that took it. -/
theorem holds_of_left {φ : Coll → Prop} {key : Nat} {s v t : State} (applied : Unites s v) (holds : Holds φ key v) (left : Receives v t) :
    t.mem.pages = s.mem.pages ∧ t.clock = s.clock ∧ ∃ k ∈ t.net.colls, k.key = key ∧ φ k := by
  obtain ⟨c, found, this⟩ := holds
  refine ⟨(congrArg Mem.pages left.mem).trans applied.pages, left.clock.trans applied.clock, c, ?_, coll_key found, this⟩
  rw [left.net]
  exact List.mem_of_find?_eq_some found

/-! The contributed word. -/

/-- R246: the COLL `c` takes the local word, on a Closing group once its 64 fc are over. -/
def takenAt (s : State) (c : Coll) : State := if geClosing (s.groupOf c.group) then s.reach (c.issued + 384) else s

/-- R246, R248: the word is in the COLL's record; the closing collective ends the step's local word. -/
def wordTaken (s : State) (c : Coll) : State :=
  let v := (takenAt s c).setColl { c with word := some ((takenAt s c).val P.localFlags) }
  if geClosing (s.groupOf c.group) then { v with seq := { v.seq with wordTaken := true } } else v

theorem wordTakeStep_eq {s : State} {sl n : Nat} {c : Coll}
    (h : s.net.colls.find? (fun c => c.slot == sl && c.flight == n && c.word.isNone && !c.cold) = some c) :
    wordTakeStep s sl n
      = ((wordTaken s c).startColl { c with word := some ((takenAt s c).val P.localFlags) }).settleColl c.key := by
  unfold wordTakeStep
  simp only [h]
  rfl

theorem val_takenAt (s : State) (c : Coll) (p : Nat) : (takenAt s c).val p = s.val p := by
  unfold takenAt
  split <;> rfl

/-- R246: what the taking of the word leaves. -/
theorem wordTake_reads {s : State} {sl n : Nat} {c : Coll}
    (h : s.net.colls.find? (fun c => c.slot == sl && c.flight == n && c.word.isNone && !c.cold) = some c) :
    let t := wordTakeStep s sl n
    (∃ k ∈ t.net.colls, k.key = c.key ∧ k.word = some (s.val P.localFlags)) ∧ t.mem.pages = s.mem.pages
      ∧ t.clock = (takenAt s c).clock ∧ t.seq.wordTaken = (wordTaken s c).seq.wordTaken := by
  intro t
  have run : t = _ := wordTakeStep_eq h
  clear_value t
  obtain ⟨k, found⟩ : ∃ k, (takenAt s c).coll c.key = some k := by
    have same : (takenAt s c).coll c.key = s.coll c.key := by
      unfold takenAt
      split <;> rfl
    rw [same]
    exact Option.isSome_iff_exists.1 (List.find?_isSome.2 ⟨c, List.mem_of_find?_eq_some h, beq_self_eq_true _⟩)
  have worded : Holds (fun k => k.word = some (s.val P.localFlags)) c.key (wordTaken s c) := by
    obtain ⟨d, there, this⟩ := Feeds.holds_setColl (s := takenAt s c) (k := k) (c := { c with word := some ((takenAt s c).val P.localFlags) })
      (φ := fun k => k.word = some (s.val P.localFlags)) found (congrArg some (val_takenAt s c P.localFlags))
    refine ⟨d, ?_, this⟩
    unfold wordTaken
    dsimp only
    split
    · exact there
    · exact there
  have pages : (wordTaken s c).mem.pages = s.mem.pages := by
    unfold wordTaken takenAt
    dsimp only
    split <;> rfl
  have clock : (wordTaken s c).clock = (takenAt s c).clock := by
    unfold wordTaken
    dsimp only
    split <;> rfl
  generalize wordTaken s c = v at worded pages clock run ⊢
  have started := Feeds.of_carries (φ := fun k => k.word = some (s.val P.localFlags)) (key := c.key)
    (Carries.startColl v { c with word := some ((takenAt s c).val P.localFlags) })
  have settled := started.trans (.settleColl (fun _ _ => id) _)
  rw [← run] at settled
  obtain ⟨d, there, this⟩ := settled.holds worded
  exact ⟨⟨d, List.mem_of_find?_eq_some there, coll_key there, this⟩, settled.unites.pages.trans pages, settled.unites.clock.trans clock,
    settled.unites.wordTaken⟩

end Sys2Proof.UnitLaws

namespace Sys2Proof.Claims

open Sys2Proof.Machine Sys2Proof.StreamLaws Sys2Proof.UnitLaws

/-- Settles O45: the message's tile or record is put where it belongs, and its segments leave the stream; the COLL's word stands in
its record from then on. -/
theorem receivedMessagesReachTilesAndCollectives : Obligations.ReceivedMessagesReachTilesAndCollectives := by
  unfold Obligations.ReceivedMessagesReachTilesAndCollectives
  refine ⟨fun s ns gs bs can head => ?_, fun s sl id c _ found => ?_⟩
  · obtain ⟨-, -, -, -, now⟩ := applicable_reads head
    refine ⟨fun kind warm digest i k place width => ?_, fun kinds alone => ?_, fun c belongs => ⟨fun one => ?_, fun two => ?_⟩⟩
    · have run := nsendTileStep_eq head kind warm
      rw [now] at run
      obtain ⟨tile, others, pages, clock, net, quiet, raised⟩ := applyTile_reads can place digest width
      obtain ⟨left, gone⟩ := message_left head (s.applyTile bs s.step)
      rw [← run] at left gone
      have same (j : Nat) : (nsendTileStep s ns).tile j = (s.applyTile bs s.step).tile j := by rw [State.tile, left.mem, State.tile]
      have die (j : Nat) : (nsendTileStep s ns).die j = (s.applyTile bs s.step).die j := State.die_congr left.seq j
      refine ⟨_, rfl, (same i).trans tile, fun j hj => (same j).trans (others j hj),
        ⟨gone, (congrArg Mem.pages left.mem).trans pages, left.clock.trans clock⟩, ?_, ?_, fun silent => ?_, fun loud => ?_⟩
      · exact (congrArg Net.tx left.net :).trans (congrArg Net.tx net :)
      · exact (congrArg Net.colls left.net :).trans (congrArg Net.colls net :)
      · rw [left.seq]
        exact quiet silent
      · rw [die]
        exact ⟨(raised loud).1, fun j hj => by rw [die]; exact (raised loud).2 j hj⟩
    · have run := collMessageStep_eq head
      rw [toUnit_early alone] at run
      obtain ⟨left, gone⟩ := message_left head { s with net := { s.net with
        early := s.net.early ++ [{ ns := ns.val, base := s.groupBase (beField bs 4 2), step := (gs.head?.map (·.step)).getD 0, bytes := bs }] } }
      rw [← run] at left gone
      have held := And.intro (And.intro gone (And.intro (congrArg Mem.pages left.mem) left.clock))
        (And.intro (congrArg Net.colls left.net) (congrArg Net.early left.net))
      exact ⟨fun one => ⟨_, rfl, one ▸ held⟩, fun two => ⟨_, rfl, two ▸ held⟩⟩
    · have run := collMessageStep_eq head
      rw [toUnit_coll belongs, if_pos one, one] at run
      obtain ⟨unites, holds⟩ := applyContribution_reads (coll_of_collOf belongs) bs
      obtain ⟨left, gone⟩ := message_left head (s.applyContribution c bs)
      rw [← run] at left gone
      obtain ⟨pages, clock, taken⟩ := holds_of_left unites holds left
      exact ⟨_, rfl, ⟨gone, pages, clock⟩, taken⟩
    · have run := collMessageStep_eq head
      rw [toUnit_coll belongs, two, if_neg (by decide)] at run
      obtain ⟨unites, holds⟩ := applyResult_reads (coll_of_collOf belongs) bs
      obtain ⟨left, gone⟩ := message_left head (s.applyResult c bs)
      rw [← run] at left gone
      obtain ⟨pages, clock, taken⟩ := holds_of_left unites holds left
      exact ⟨_, rfl, ⟨gone, pages, clock⟩, taken⟩
  · obtain ⟨word, pages, clock, taken⟩ := wordTake_reads found
    refine ⟨_, rfl, word, pages, fun closing => ⟨?_, ?_⟩, fun open' => ⟨?_, ?_⟩⟩
    · rw [taken, wordTaken, if_pos closing]
    · rw [clock, takenAt, if_pos closing]
      rfl
    · rw [clock, takenAt, if_neg (Bool.eq_false_iff.1 open')]
    · rw [taken, wordTaken, if_neg (Bool.eq_false_iff.1 open'), takenAt, if_neg (Bool.eq_false_iff.1 open')]
      rfl

end Sys2Proof.Claims

/-! PROOF. When a step opened: what follows in the open of a step leaves that date alone (R44, R225, R250). -/

namespace Sys2Proof.OpenLaws

open Sys2Proof.Machine Sys2Proof.Claims Sys2Proof.RecordLaws Sys2Proof.WorkLaws Sys2Proof.RestLaws Sys2Proof.NetLaws Sys2Proof.StreamLaws
  Sys2Proof.UnitLaws Sys2Proof.StepLaws Sys2Proof.EventsOutLaws Sys2Proof.WeirLaws

/-- Time, and what is known of when a step opened, are as they were. -/
structure Dates (s t : State) : Prop where
  clock : t.clock = s.clock
  at' : t.seq.openedAt = s.seq.openedAt
  ever : t.seq.everOpen = s.seq.everOpen

namespace Dates

variable {s t u : State}

theorem refl (s : State) : Dates s s := ⟨rfl, rfl, rfl⟩

theorem trans (h : Dates s t) (g : Dates t u) : Dates s u := ⟨g.clock.trans h.clock, g.at'.trans h.at', g.ever.trans h.ever⟩

theorem ite {c : Prop} [Decidable c] (h : Dates s t) (g : Dates s u) : Dates s (if c then t else u) := by
  split <;> assumption

theorem foldl {α : Type} {f : State → α → State} (hf : ∀ v x, Dates v (f v x)) (xs : List α) (s : State) : Dates s (xs.foldl f s) := by
  induction xs generalizing s with
  | nil => exact refl s
  | cons x xs ih => exact (hf s x).trans (ih _)

theorem of_concludes (h : Concludes s t) : Dates s t :=
  ⟨h.clock, (congrArg (fun v : State => v.seq.openedAt) h.rest :), (congrArg (fun v : State => v.seq.everOpen) h.rest :)⟩

theorem of_still (h : Still s t) : Dates s t := of_concludes (.of_steady (.of_still h))

theorem of_accounts (h : Accounts s t) : Dates s t := of_concludes (.of_tends (.of_accounts (List.Subset.refl _) h))

theorem of_records {ps : List Nat} (h : Records ps s t) : Dates s t := of_still (.of_records h)

theorem of_receives (h : Receives s t) : Dates s t := ⟨h.clock, congrArg Seq.openedAt h.seq, congrArg Seq.everOpen h.seq⟩

theorem of_carries (h : Carries s t) : Dates s t :=
  ⟨(congrArg State.clock h.rest :), (congrArg (fun v : State => v.seq.openedAt) h.rest :), (congrArg (fun v : State => v.seq.everOpen) h.rest :)⟩

theorem of_unites (h : Unites s t) : Dates s t :=
  ⟨(congrArg State.clock h :), (congrArg (fun v : State => v.seq.openedAt) h :), (congrArg (fun v : State => v.seq.everOpen) h :)⟩

theorem of_rest (h : t = { s with
    params := t.params, log := t.log, weir := t.weir, riffle := t.riffle, upd := t.upd
    seq := { s.seq with dies := t.seq.dies, heldRaises := t.seq.heldRaises } }) : Dates s t := of_concludes (.of_rest h)

theorem setDie (s : State) (sl : Nat) (d : Die) : Dates s (s.setDie sl d) := ⟨rfl, rfl, rfl⟩

theorem setReg (s : State) (p i v : Nat) : Dates s (s.setReg p i v) := ⟨rfl, rfl, rfl⟩

theorem refillTo (s : State) (b n : Nat) : Dates s (s.refillTo b n) := ⟨rfl, rfl, rfl⟩

theorem countAllReads (s : State) : Dates s s.countAllReads := by
  have read := (Tallies.countAllReads s).rest
  exact ⟨(congrArg State.clock read :), (congrArg (fun v : State => v.seq.openedAt) read :), (congrArg (fun v : State => v.seq.everOpen) read :)⟩

theorem copied (s : State) (c : Option (Nat × Nat × Nat × Sparse Nat)) (a : Option Nat) :
    Dates s (({ s with log := { s.log with copying := c, snapAt := a } } : State).snapState 2) := ⟨rfl, rfl, rfl⟩

theorem dies (s : State) (f : Sparse Die) (r : List HeldRaise) :
    Dates s { s with seq := { s.seq with dies := f, heldRaises := r } } := ⟨rfl, rfl, rfl⟩

/-! The ac up to now, on any slot. -/

theorem passSlot (s : State) (sl c : Nat) : Dates s (s.passSlot sl c) := by
  unfold State.passSlot
  extract_lets d xs held a
  exact ite (refl s) (ite ⟨rfl, rfl, rfl⟩ ⟨rfl, rfl, rfl⟩)

theorem passAcs (b n : Nat) (s : State) : Dates s (State.passAcs b n s) := by
  induction n generalizing s with
  | zero => exact refl s
  | succ n ih =>
    unfold State.passAcs
    have passed : Dates s (s.passBase b) := by
      unfold State.passBase
      extract_lets c
      exact (foldl (fun v k => passSlot v _ c) (List.range 8) s).trans (refillTo _ _ _)
    exact ite (passed.trans (ih _)) (refl s)

theorem account (s : State) (sl : Nat) : Dates s (s.account sl) := by
  unfold State.account
  extract_lets v d n
  have caught : Dates s v := (passAcs (sl / 8) _ s).trans ⟨rfl, rfl, rfl⟩
  exact caught.trans (ite ⟨rfl, rfl, rfl⟩ ⟨rfl, rfl, rfl⟩)

theorem addToken (s : State) (sl k n : Nat) : Dates s (s.addToken sl k n) := by
  unfold State.addToken
  extract_lets v d m fresh w
  have counted : Dates s v := account s sl
  have raised : Dates v w := ⟨rfl, rfl, rfl⟩
  exact counted.trans (raised.trans (ite ⟨rfl, rfl, rfl⟩ (refl w)))

theorem applyRaise (s : State) (r : HeldRaise) : Dates s (s.applyRaise r) :=
  ite (addToken ..) (ite ⟨rfl, rfl, rfl⟩ ⟨rfl, rfl, rfl⟩)

theorem applyRaises (s : State) (n : Nat) : Dates s (s.applyRaises n) := by
  unfold State.applyRaises
  exact (dies s _ _).trans (foldl (fun v r => applyRaise v r) _ _)

theorem openDie (s : State) (sl : Nat) (fresh : Bool) : Dates s (s.openDie sl fresh) := by
  unfold State.openDie
  extract_lets d here len tok strs timers a
  have zero : Dates s a := setDie s sl _
  clear_value a
  refine zero.trans ?_
  split
  · exact ite (addToken ..) (refl a)
  · exact refl a

theorem showTokens (s : State) : Dates s s.showTokens := foldl (fun v sl => setDie v sl { v.die sl with raised := [] }) _ s

/-! Messages that were held. -/

theorem finishMessage (s : State) (ns : Nat) (gs : List RSeg) : Dates s (s.finishMessage ns gs) :=
  of_concludes (.of_steady (.of_exchanges (.finishMessage s ns gs)))

theorem applyTile (s : State) (bs : List Byte) (step : Nat) : Dates s (s.applyTile bs step) := by
  unfold State.applyTile
  dsimp only
  have checked := Carries.verifyReceived s (s.homeAcct (tileId (beField bs 8 8))) (tileId (beField bs 8 8)) (receivedTile bs).1 (receivedTile bs).2.received
  generalize s.verifyReceived (s.homeAcct (tileId (beField bs 8 8))) (tileId (beField bs 8 8)) (receivedTile bs).1 (receivedTile bs).2.received = x at checked
  have stored := Carries.storeTile x.2 (s.homeAcct (tileId (beField bs 8 8))) (tileId (beField bs 8 8)) (Nat.log2 (receivedTile bs).1) x.1
  generalize x.2.storeTile (s.homeAcct (tileId (beField bs 8 8))) (tileId (beField bs 8 8)) (Nat.log2 (receivedTile bs).1) x.1 = y at stored
  obtain ⟨_ | tl, a⟩ := y
  · exact (of_carries (Carries.trans checked stored)).trans (ite (refl _) (applyRaise ..))
  · have flagged := of_carries ((Carries.of_flags (.condition a (wordOf tl.flags false))).trans (.countTileLayer _ (tileId (beField bs 8 8)) 2 tl))
    exact (of_carries (Carries.trans checked stored)).trans (flagged.trans (ite (refl _) (applyRaise ..)))

theorem toUnit (s : State) (ns step : Nat) (bs : List Byte) : Dates s (s.toUnit ns step bs) := by
  cases found : s.collOf bs step with
  | none =>
    rw [toUnit_early found]
    exact ⟨rfl, rfl, rfl⟩
  | some c =>
    rw [toUnit_coll found]
    exact ite (of_unites (applyContribution_reads (coll_of_collOf found) bs).1) (of_unites (applyResult_reads (coll_of_collOf found) bs).1)

theorem applyHeld (n ns : Nat) (s : State) : Dates s (applyHeld n ns s) := by
  induction n generalizing s with
  | zero => exact refl s
  | succ n ih =>
    unfold Machine.applyHeld
    extract_lets a
    have dropped : Dates s a := of_receives (dropStale_reads _ ns s).1
    clear_value a
    refine dropped.trans ?_
    split
    · exact refl a
    · exact ite (ite ⟨rfl, rfl, rfl⟩ (((applyTile ..).trans (finishMessage ..)).trans (ih _)))
        (ite (((toUnit ..).trans (finishMessage ..)).trans (ih _)) (refl a))

theorem applyHeldMessages (s : State) : Dates s s.applyHeldMessages := by
  have dropped : Dates s s.dropEarly := by
    unfold State.dropEarly
    extract_lets a
    have counted : Dates s a := foldl (fun v (e : EarlyMessage) => setReg v P.staleMessages e.ns _) _ s
    exact counted.trans ⟨rfl, rfl, rfl⟩
  exact dropped.trans (foldl (fun v ns => applyHeld _ ns v) _ _)

theorem stopped (s : State) (k : Kept) (n : Nat) : Dates s ((s.dropKept k).stopShard n k.shard) := ⟨rfl, rfl, rfl⟩

theorem settleStops (s : State) (n : Nat) : Dates s (s.settleStops n) := foldl (fun v k => stopped v k n) _ s

/-! Tables, phases and snapshots. -/

theorem activateSet (s : State) (n : Nat) : Dates s (s.activateSet n) := by
  unfold State.activateSet
  split
  · exact refl s
  · split
    · exact refl s
    · extract_lets q a
      have emptied : Dates s a := ⟨rfl, rfl, rfl⟩
      refine emptied.trans ?_
      split
      · exact trans (t := a.setVal P.loadStatus _) ⟨rfl, rfl, rfl⟩ (of_still (.raiseEvent ..))
      · exact ⟨rfl, rfl, rfl⟩

end Dates

/-- R132: the tables with the previous ones put back where a shard's groups are not defined. -/
def tablesBack (s : State) (sh : Nat) : State :=
  let kept := s.params.filter fun (kv : Nat × Nat) => !groupTables.contains (kv.1 / 2 ^ 24)
  let old := s.upd.tables.foldl (fun (m : Sparse Nat) (kv : Nat × Nat) => Sparse.put paramDefault m kv.1 kv.2) kept
  let w := 0x07 + 2 ^ 8 * sh
  ({ s with params := old }.setVal P.shardLoadStatus w).raiseEvent 7 0x03 srcModule w 0

namespace Dates

theorem paramsPut (s : State) (m : Sparse Nat) (p w : Nat) : Dates s (({ s with params := m } : State).setVal p w) := ⟨rfl, rfl, rfl⟩

theorem tablesBack (s : State) (sh : Nat) : Dates s (OpenLaws.tablesBack s sh) :=
  trans (paramsPut ..) (of_still (.raiseEvent _ 7 0x03 srcModule (0x07 + 2 ^ 8 * sh) 0))

theorem updPut (s : State) (u : Upd) : Dates s { s with upd := u } := ⟨rfl, rfl, rfl⟩

theorem tablesTaken (s : State) (m : Sparse Nat) : Dates s { s with upd := { s.upd with tables := m } } := ⟨rfl, rfl, rfl⟩

theorem checkTriggers (s : State) : Dates s s.checkTriggers := by
  unfold State.checkTriggers
  split
  · exact tablesTaken s _
  · next sh _ => exact (tablesBack s sh).trans (tablesTaken _ _)

theorem remapViews (s : State) (written : Nat → Bool) : Dates s (s.remapViews written) := by
  unfold State.remapViews
  extract_lets views stale a
  have gone : Dates s a := foldl (fun v p => of_still (.unmapPage v p)) stale s
  refine gone.trans (foldl (fun v x => ?_) views a)
  obtain ⟨p, i, sh⟩ := x
  dsimp only
  exact (ite (of_still (.unmapPage v p)) (refl v)).trans ⟨rfl, rfl, rfl⟩

theorem openTables (s : State) (n : Nat) : Dates s (s.openTables n) := by
  unfold State.openTables
  extract_lets zero a b c w d e written
  have held : Dates s a := by
    have cleared : Dates s { s.setVal P.currentStep n with held := [] } := ⟨rfl, rfl, rfl⟩
    exact cleared.trans (of_concludes (.of_steady (.applyHeldAll (s.setVal P.currentStep n))))
  have counted : Dates a b := ite ⟨rfl, rfl, rfl⟩ (refl a)
  have checked : Dates b c := (activateSet b n).trans (checkTriggers _)
  have ordered : Dates c d := ⟨rfl, rfl, rfl⟩
  have staged : Dates d e := (of_still (.applyStaged d)).trans (of_still (.retryRetirements _))
  exact held.trans (counted.trans (checked.trans (ordered.trans (staged.trans (remapViews ..)))))

theorem writePhases (s : State) (recs : List (List Nat)) : Dates s (s.writePhases recs) := by
  unfold State.writePhases
  extract_lets rows a p
  have counted : Dates s a := foldl (fun v (x : Nat × List Nat) => foldl (fun u (y : Nat × Nat) => setReg u P.phaseLast (19 * x.1 + y.1) y.2) _ v) _ s
  exact counted.trans (ite (refl a) (of_still (.write ..)))

theorem takeSnapshot (s : State) : Dates s s.takeSnapshot := by
  unfold State.takeSnapshot
  exact ((of_accounts (Accounts.accountAll s)).trans (countAllReads _)).trans (copied _ _ _)

end Dates

/-- R249: the books of the step say when it opened. -/
theorem openBooks_reads (s : State) (n : Nat) :
    (s.openBooks n).clock = s.clock ∧ (s.openBooks n).seq.openedAt = s.clock.now ∧ (s.openBooks n).seq.everOpen = true := ⟨rfl, rfl, rfl⟩

/-- R44: the open of step `n` once the ac are counted; `recs` are the last step's records, `set` its table set. -/
def opensAt (n : Nat) (ever : Bool) (recs : List (List Nat)) (set : Option TableSet) (s : State) : State :=
  let s := ((s.openTables n).openBooks n).clearSticky
  let s := (List.range 64).foldl (fun s sl => s.openDie sl (s.seq.active != set)) s
  let s := (s.applyRaises n).showTokens
  let s := if s.upd.orphan = some n then ({ s with upd := { s.upd with orphan := none } } : State).skipStep n 3 0 else s
  let s := (s.settleStops n).applyHeldMessages
  let s := if ever then s.writePhases recs else s
  let s := if s.stepArmed n then s.takeSnapshot else s
  s.boundary

theorem stepOpen_eq {s : State} (may : s.mayOpen = true) : ∃ ever recs set,
    stepOpenStep s = opensAt (s.step + 1) ever recs set s.accountAll := by
  unfold stepOpenStep opensAt
  rw [if_neg (not_not_intro may)]
  exact ⟨_, _, _, rfl⟩

theorem opensAt_dates (n : Nat) (ever : Bool) (recs : List (List Nat)) (set : Option TableSet) (a : State) :
    (opensAt n ever recs set a).seq.everOpen = true ∧ (opensAt n ever recs set a).seq.openedAt = a.clock.now := by
  unfold opensAt
  extract_lets b c d q e f g h
  have tables : Dates a (a.openTables n) := .openTables a n
  obtain ⟨clock, opened, first⟩ := openBooks_reads (a.openTables n) n
  have cleared : Dates ((a.openTables n).openBooks n) b := .ite ⟨rfl, rfl, rfl⟩ (.refl _)
  have dies : Dates b c := .foldl (fun v sl => .openDie v sl _) _ b
  have raised : Dates c d := (Dates.applyRaises c n).trans (.showTokens _)
  have skipped : Dates d e := by
    refine .ite ?_ (.refl d)
    exact (Dates.updPut d _).trans (.of_rest (decides_skipStep _ n 3 0).rest)
  have held : Dates e f := (Dates.settleStops e n).trans (.applyHeldMessages _)
  have phases : Dates f g := .ite (.writePhases ..) (.refl f)
  have copied : Dates g h := .ite (.takeSnapshot g) (.refl g)
  have after := cleared.trans (dies.trans (raised.trans (skipped.trans (held.trans (phases.trans (copied.trans (.of_concludes (.boundary h))))))))
  refine ⟨after.ever.trans first, after.at'.trans (opened.trans ?_)⟩
  rw [tables.clock]

/-- R44: a step that may open opens now. -/
theorem stepOpen_dates {s : State} (may : s.mayOpen = true) :
    (stepOpenStep s).seq.everOpen = true ∧ (stepOpenStep s).seq.openedAt = s.clock.now := by
  obtain ⟨ever, recs, set, shape⟩ := stepOpen_eq may
  have counted := (Accounts.accountAll s).clock
  have dates := opensAt_dates (s.step + 1) ever recs set s.accountAll
  rw [shape, dates.1, dates.2, counted]
  exact ⟨rfl, rfl⟩

end Sys2Proof.OpenLaws

/-! PROOF. Records that leave for other ranks, whatever their stream numbers, and the end of a step's record (R255 to R257, R260). -/

namespace Sys2Proof.StepLaws

open Sys2Proof.Machine Sys2Proof.Claims Sys2Proof.StreamLaws

/-- A search that passes over a key finds what it found when that key is stored. -/
theorem find?_put_idle {α : Type} [DecidableEq α] {d : Nat → α} {lo : Nat} {m : Sparse α} (wf : Sparse.wfFrom d lo m = true) {k : Nat}
    (v : α) {f : Nat × α → Bool} (idle : ∀ w, f (k, w) = false) : (Sparse.put d m k v).find? f = m.find? f := by
  induction m generalizing lo with
  | nil =>
    unfold Sparse.put
    split
    · rfl
    · exact List.find?_cons_of_neg (Bool.eq_false_iff.1 (idle v))
  | cons e m ih =>
    obtain ⟨k', v'⟩ := e
    simp only [Sparse.wfFrom, Bool.and_eq_true] at wf
    unfold Sparse.put
    split
    · split
      · rfl
      · exact List.find?_cons_of_neg (Bool.eq_false_iff.1 (idle v))
    · split
      next here =>
        subst here
        rw [List.find?_cons_of_neg (Bool.eq_false_iff.1 (idle v'))]
        split
        · rw [Sparse.dropWhile_wf wf.2 (Nat.lt_succ_self k)]
        · exact List.find?_cons_of_neg (Bool.eq_false_iff.1 (idle v))
      next => rw [List.find?_cons, List.find?_cons, ih wf.2]

/-- The key of the first count of segments: no table of the topology has a key from there on (Table 8-1). -/
def countKey : Nat := pkey P.segmentsSent 0

/-- Messages leave, on streams of any number: what is counted has a key from `countKey` on. -/
structure Dispatches (s t : State) : Prop where
  rest : t = { s with params := t.params, out := t.out, net := { s.net with tx := t.net.tx } }
  canon : Sparse.wf paramDefault s.params = true → Sparse.wf paramDefault t.params = true
  low : ∀ k, k < countKey → Sparse.get paramDefault t.params k = Sparse.get paramDefault s.params k
  search : Sparse.wf paramDefault s.params = true → ∀ f : Nat × Nat → Bool, (∀ k v, countKey ≤ k → f (k, v) = false) →
    t.params.find? f = s.params.find? f

namespace Dispatches

variable {s t u : State}

theorem refl (s : State) : Dispatches s s := ⟨rfl, id, fun _ _ => rfl, fun _ _ _ => rfl⟩

theorem trans (h : Dispatches s t) (g : Dispatches t u) : Dispatches s u :=
  ⟨by rw [g.rest, h.rest], fun w => g.canon (h.canon w), fun k hk => (g.low k hk).trans (h.low k hk),
    fun w f idle => (g.search (h.canon w) f idle).trans (h.search w f idle)⟩

theorem foldl {α : Type} {f : State → α → State} (hf : ∀ v x, Dispatches v (f v x)) (xs : List α) (s : State) : Dispatches s (xs.foldl f s) := by
  induction xs generalizing s with
  | nil => exact refl s
  | cons x xs ih => exact (hf s x).trans (ih _)

theorem of_params (rest : t = { s with params := t.params, out := t.out, net := { s.net with tx := t.net.tx } }) (same : t.params = s.params) :
    Dispatches s t :=
  ⟨rest, fun w => same.symm ▸ w, fun k _ => by rw [same], fun _ f _ => by rw [same]⟩

theorem bump (s : State) {p : Nat} (hp : P.segmentsSent ≤ p) (e : Nat) : Dispatches s (s.bump64 p e 1) := by
  have beyond : countKey ≤ pkey p e := by
    have := Nat.mul_le_mul_right (2 ^ 24) hp
    exact Nat.add_le_add this (Nat.zero_le e)
  refine ⟨rfl, fun w => Sparse.wf_put _ _ w, fun k hk => ?_, fun w f idle => ?_⟩
  · exact Sparse.get_put_ne _ _ (by omega)
  · exact find?_put_idle w _ fun v => idle _ v beyond

theorem sendSeg (s : State) (ns : Nat) (g : Seg) : Dispatches s (s.sendSeg ns g) := by
  unfold State.sendSeg
  extract_lets flags pkt sent resent x
  have leaves : Dispatches s (s.sendPacket ns g.seq pkt) := of_params (by rw [sendPacket_rest]) (params_sendPacket ..)
  have counted : Dispatches s sent := leaves.trans (bump _ (Nat.le_refl _) ns)
  have again : Dispatches sent resent := by
    simp only [resent]
    split
    · exact bump _ (by decide) ns
    · exact refl _
  exact counted.trans (again.trans (of_params rfl rfl))

theorem pump (s : State) (ns : Nat) : Dispatches s (s.pump ns) := by
  unfold State.pump
  extract_lets x
  split
  · exact refl s
  · exact foldl (fun v g => sendSeg v ns g) _ _

theorem sendMessage (s : State) (ns step : Nat) (bytes : List Byte) : Dispatches s (s.sendMessage ns step bytes).2 := by
  unfold State.sendMessage
  extract_lets x n parts segs
  exact trans (t := s.setTx ns _) (of_params rfl rfl) (pump _ ns)

theorem sendReplicaAll (s : State) (g step : Nat) (bytes : List Byte) : Dispatches s (s.sendReplicaAll g step bytes) :=
  foldl (fun v q => sendMessage v (v.memberStream g q) step _) _ s

section

variable (h : Dispatches s t)

include h

theorem upd : t.upd = s.upd := (congrArg State.upd h.rest :)

theorem reg {p e : Nat} (low : pkey p e < countKey) : t.reg p e = s.reg p e := h.low _ low

theorem groupOf {g : Nat} (hg : g < 2 ^ 24) : t.groupOf g = s.groupOf g :=
  h.reg (by unfold countKey pkey P.groupTable P.segmentsSent; omega)

theorem memberStream {g q : Nat} (hg : g < 2 ^ 24) (hq : q < 2 ^ 16) : t.memberStream g q = s.memberStream g q := by
  have first : geFirst (s.groupOf g) < 2 ^ 32 := Nat.mod_lt _ (by decide)
  unfold State.memberStream
  rw [h.groupOf hg]
  exact h.reg (by unfold countKey pkey P.memberTable P.segmentsSent; omega)

theorem otherRanks {g : Nat} (hg : g < 2 ^ 24) : t.otherRanks g = s.otherRanks g := by
  have size : t.groupSize g = s.groupSize g := congrArg (bits · 0 16) (h.groupOf hg)
  unfold State.otherRanks
  rw [size, h.groupOf hg]

theorem rankOfStream {g : Nat} (hg : g < 2 ^ 24) (ns : Nat) : t.rankOfStream g ns = s.rankOfStream g ns := by
  unfold State.rankOfStream
  rw [h.otherRanks hg]
  refine List.find?_congr fun q hq => ?_
  have below : q < 2 ^ 16 := Nat.lt_trans (List.mem_range.1 (List.mem_filter.1 hq).1) (Nat.mod_lt _ (by decide))
  rw [h.memberStream hg below]

theorem closingGroup (can : Canonical s) : t.closingGroup = s.closingGroup := by
  unfold State.closingGroup
  rw [h.search can.1]
  intro k v hk
  have other : k / 2 ^ 24 ≠ P.groupTable := by
    unfold countKey pkey P.segmentsSent at hk
    unfold P.groupTable
    omega
  rw [beq_false_of_ne other, Bool.false_and, Bool.false_and]

end

end Dispatches

theorem closingGroup_lt {s : State} {g : Nat} (h : s.closingGroup = some g) : g < 2 ^ 24 := by
  obtain ⟨kv, -, rfl⟩ := Option.map_eq_some_iff.1 h
  exact Nat.mod_lt _ (by decide)

/-- R255: what leaves does not change which ranks of the closing group have sent their records. -/
theorem Dispatches.ranks {s t : State} (h : Dispatches s t) (can : Canonical s) :
    t.closingRanks = s.closingRanks ∧ ∀ n q, t.commitFrom n q = s.commitFrom n q := by
  have same := h.closingGroup can
  unfold State.closingRanks State.commitFrom
  rw [same, h.upd]
  cases closing : s.closingGroup with
  | none => exact ⟨rfl, fun _ _ => rfl⟩
  | some g =>
    have hg := closingGroup_lt closing
    refine ⟨h.otherRanks hg, fun n q => ?_⟩
    simp only [Option.bind_some, h.rankOfStream hg]

/-! A step that commits leaves no record (R155, R266, R281). -/

/-- No record of a step enters, leaves or changes. -/
def SameSteps (s t : State) : Prop := t.upd.steps = s.upd.steps

namespace SameSteps

variable {s t u : State}

theorem trans (h : SameSteps s t) (g : SameSteps t u) : SameSteps s u := Eq.trans g h

theorem ite {c : Prop} [Decidable c] (h : SameSteps s t) (g : SameSteps s u) : SameSteps s (if c then t else u) := by
  split <;> assumption

theorem foldl {α : Type} {f : State → α → State} (hf : ∀ v x, SameSteps v (f v x)) (xs : List α) (s : State) : SameSteps s (xs.foldl f s) := by
  induction xs generalizing s with
  | nil => exact rfl
  | cons x xs ih => exact (hf s x).trans (ih _)

theorem raiseEvent (s : State) (cls code source d0 d1 : Nat) : SameSteps s (s.raiseEvent cls code source d0 d1) :=
  congrArg Upd.steps (State.raiseEvent_upd ..)

theorem nonZeroField (s : State) (v : Option Int) : SameSteps s (s.nonZeroField v).2 := by
  unfold State.nonZeroField
  split
  · split <;> rfl
  · rfl

theorem normed (s : State) (r : Riffle) (layer v : Nat) : SameSteps s (({ s with riffle := r } : State).setReg P.layerNorms layer v) := rfl

theorem silence (s : State) (n k layer : Nat) : SameSteps s (s.silence n k layer) := by
  unfold State.silence
  split
  · rfl
  next sq nz _ =>
    dsimp -zeta only
    extract_lets whole floor silent old run told raise v q b c d0
    refine SameSteps.trans (t := (s.nonZeroField whole).2) (nonZeroField s nz) ?_
    have noted : SameSteps (s.nonZeroField whole).2 c := normed _ _ layer _
    exact noted.trans (ite (raiseEvent c ..) (ite (raiseEvent c ..) rfl))

theorem journalError (s : State) (code : Nat) : SameSteps s (s.journalError code) := 
  trans (t := s.setVal P.journalStatus code) rfl (raiseEvent ..)

theorem startCheckpoint (s : State) (n : Nat) : SameSteps s (s.startCheckpoint n) := by
  unfold State.startCheckpoint
  dsimp only
  refine trans (t := s.setVal P.checkpointStep (2 ^ 64 - 1)) rfl (ite (journalError ..) (ite (journalError ..) ?_))
  exact trans rfl (foldl (fun v _ => raiseEvent v ..) _ _)

end SameSteps

/-- R155: a step that is COMMITTED leaves no record. -/
theorem steps_commitStep (s : State) (n : Nat) : (s.commitStep n).upd.steps = s.upd.steps.filter fun r => r.step != n := by
  unfold State.commitStep
  extract_lets c flip a b d
  have raised : SameSteps s a := ((Books.modPhases s n flip).trans ((Books.raiseFree _ c n).trans (.logStep ..))).steps
  have watched : SameSteps a b := SameSteps.trans (t := a.bump64 P.stepsCommitted 0 1) rfl (.foldl (fun v k => .silence v n k _) _ _)
  have started : SameSteps b d := .ite (.startCheckpoint b n) rfl
  rw [(decides_forget (.refl d) n).steps, started, watched, raised]

/-- R264. -/
theorem steps_requestReplay (s : State) (n : Nat) : SameSteps s (s.requestReplay n) := by
  have raiseOf (v : State) (cls code source d0 d1 : Nat) : SameSteps v (v.raiseEventOf n cls code source d0 d1) := by
    exact congrArg Upd.steps (State.raiseEventOf_upd ..)
  unfold State.requestReplay
  refine SameSteps.trans (t := s.bump64 P.replayRequests 0 1) rfl ?_
  dsimp only
  split
  · exact raiseOf ..
  · split
    · exact raiseOf ..
    · exact raiseOf ..

/-- R255: a step that is decided leaves no record. -/
theorem decided_decideStep (s : State) (n word : Nat) : ∀ k ∈ (s.decideStep n word).upd.steps, k.step ≠ n := by
  have gone : ∀ k ∈ s.upd.steps.filter (fun r => r.step != n), k.step ≠ n := fun k hk => bne_iff_ne.1 (List.mem_filter.1 hk).2
  unfold State.decideStep
  split
  · rw [steps_commitStep]
    exact gone
  · extract_lets a q b
    have skipped : (s.skipStep n 2 word).upd.steps ⊆ s.upd.steps.filter fun r => r.step != n :=
      (decides_skipStep s n 2 word).steps ▸ List.Subset.refl _
    have orphan : a.upd.steps ⊆ (s.skipStep n 2 word).upd.steps := by
      simp only [a]
      unfold State.orphanNext
      split
      · rw [(decides_skipStep _ (n + 1) 3 0).steps]
        exact List.filter_subset_self ..
      · exact List.Subset.refl _
    have held : SameSteps a b := .ite rfl rfl
    have asked := SameSteps.ite (c := bit word 2 = true ∨ bit word 0 = true) (steps_requestReplay b n) rfl
    exact fun k hk => gone k (skipped (orphan (held ▸ asked ▸ hk)))

end Sys2Proof.StepLaws

/-! PROOF. A step that is VERIFIED is decided once every rank's record is held (R254, R255), and a recheck is counted in the shard's
exchange whatever the records kept for it then bring about (R261 to R263). -/

namespace Sys2Proof.StepLaws

open Sys2Proof.Machine Sys2Proof.Claims Sys2Proof.StreamLaws Sys2Proof.UpdateLaws Sys2Proof.UnitLaws

/-! The record of a verified step. -/

theorem stepRec_setStepRec {s : State} {r k : StepRec} (listed : k ∈ s.upd.steps) (same : k.step = r.step) :
    (s.setStepRec r).stepRec r.step = some r := by
  have found : ∀ x ∈ s.upd.steps.map fun x => if x.step = r.step then r else x, x.step = r.step → x = r := by
    intro x hx here
    obtain ⟨y, -, rfl⟩ := List.mem_map.1 hx
    by_cases at' : y.step = r.step
    · exact if_pos at'
    · rw [if_neg at'] at here
      exact absurd here at'
  have some' : ((s.setStepRec r).stepRec r.step).isSome = true := by
    refine List.find?_isSome.2 ⟨r, List.mem_map.2 ⟨k, listed, if_pos same⟩, beq_self_eq_true _⟩
  obtain ⟨x, hx⟩ := Option.isSome_iff_exists.1 some'
  rw [hx, found x (List.mem_of_find?_eq_some hx) (step_of_stepRec hx)]

theorem decided_tryDecide {s : State} {n : Nat} {r : StepRec} (found : s.stepRec n = some r) (verified : r.verifiedAt.isSome = true)
    (held : ∀ q ∈ s.closingRanks, (s.commitFrom n q).isSome = true) : ∀ k ∈ (s.tryDecide n).upd.steps, k.step ≠ n := by
  have all : (s.closingRanks.map (s.commitFrom n)).all (·.isSome) = true := List.all_eq_true.2 fun x hx => by
    obtain ⟨q, hq, rfl⟩ := List.mem_map.1 hx
    exact held q hq
  unfold State.tryDecide
  rw [found]
  dsimp only
  rw [if_pos ⟨verified, all⟩]
  exact decided_decideStep s n _

/-- R254, R255. -/
theorem decided_commitFormed {s : State} (can : Canonical s) {r : StepRec} (found : s.upd.steps.find? (s.verifiable ·) = some r)
    (held : ∀ q ∈ s.closingRanks, (s.commitFrom r.step q).isSome = true) : ∀ k ∈ (commitFormedStep s).upd.steps, k.step ≠ r.step := by
  unfold commitFormedStep
  rw [found]
  dsimp only
  generalize written : ({ r with verifiedAt := some s.clock.now, ownWord := s.ownCommitWord r } : StepRec) = r'
  have step : r'.step = r.step := written ▸ rfl
  have verified : r'.verifiedAt.isSome = true := written ▸ rfl
  have recorded : (s.setStepRec r').stepRec r.step = some r' :=
    step ▸ stepRec_setStepRec (List.mem_of_find?_eq_some found) step.symm
  have same : (s.setStepRec r').closingRanks = s.closingRanks ∧ ∀ n q, (s.setStepRec r').commitFrom n q = s.commitFrom n q :=
    ⟨rfl, fun _ _ => rfl⟩
  have can' : Canonical (s.setStepRec r') := can
  generalize s.setStepRec r' = a at recorded same can' ⊢
  have decides : ∀ b, Dispatches a b → ∀ k ∈ (b.tryDecide r.step).upd.steps, k.step ≠ r.step := by
    intro b leaves
    obtain ⟨ranks, words⟩ := leaves.ranks can'
    have kept : b.stepRec r.step = some r' := (congrArg (fun u : Upd => u.steps.find? _) leaves.upd).trans recorded
    refine decided_tryDecide kept verified fun q hq => ?_
    rw [words, same.2]
    exact held q (same.1 ▸ ranks ▸ hq)
  split
  · exact decides _ (.sendReplicaAll ..)
  · exact decides a (.refl a)

/-! The rounds of a shard's exchange. -/

/-- Step `n` has a record, and every one of its exchanges of shard `sh` is in round `m`. -/
structure InRound (n sh m : Nat) (s : State) : Prop where
  here : ∃ r ∈ s.upd.steps, r.step = n
  exchange : ∀ r ∈ s.upd.steps, r.step = n → (∃ y ∈ r.shards, y.shard = sh) ∧ ∀ y ∈ r.shards, y.shard = sh → y.rounds = m

namespace InRound

variable {n sh m : Nat} {s t : State}

theorem of_same (h : InRound n sh m s) (same : SameSteps s t) : InRound n sh m t :=
  ⟨same.symm ▸ h.here, same.symm ▸ h.exchange⟩

theorem putShard (here : ∃ r ∈ s.upd.steps, r.step = n) {x : ShardCommit} (shard : x.shard = sh) (rounds : x.rounds = m) :
    InRound n sh m (s.putShard n x) := by
  obtain ⟨r, hr, step⟩ := here
  refine ⟨⟨r.putShard x, List.mem_map.2 ⟨r, hr, if_pos step⟩, step⟩, fun k hk at' => ?_⟩
  obtain ⟨k', -, rfl⟩ := List.mem_map.1 hk
  by_cases old : k'.step = n
  · rw [if_pos old]
    refine ⟨⟨x, List.mem_append_right _ (List.mem_singleton_self x), shard⟩, fun y hy of => ?_⟩
    rcases List.mem_append.1 hy with other | new
    · exact absurd (of.trans shard.symm) (bne_iff_ne.1 (List.mem_filter.1 other).2)
    · rw [List.mem_singleton.1 new, rounds]
  · rw [if_neg old] at at'
    exact absurd at' old

theorem put (h : InRound n sh m s) {x : ShardCommit} (shard : x.shard = sh) (rounds : x.rounds = m) : InRound n sh m (s.putShard n x) :=
  putShard h.here shard rounds

theorem found (h : InRound n sh m s) {r : StepRec} {x : ShardCommit} (rec' : s.stepRec n = some r) (exch : r.shard sh = some x) :
    x.shard = sh ∧ x.rounds = m := by
  have shard := shard_of_found exch
  exact ⟨shard, (h.exchange r (List.mem_of_find?_eq_some rec') (step_of_stepRec rec')).2 x (List.mem_of_find?_eq_some exch) shard⟩

end InRound

/-! What the exchange does besides. -/

theorem same_dropKept (s : State) (k : Kept) : SameSteps s (s.dropKept k) := rfl

theorem same_bump (s : State) (p e n : Nat) : SameSteps s (s.bump64 p e n) := rfl

theorem same_sendCopy (s : State) (g q n sh d : Nat) : SameSteps s (s.sendCopy g q n sh d) := by
  have sent (v : State) (p : List Byte) : SameSteps v (v.sendReplica g q n p) := congrArg Upd.steps (Dispatches.sendMessage v ..).upd
  exact .foldl (fun v k => (sent v _).trans ((sent _ _).trans (sent _ _))) _ s

theorem same_sendCopies (g n sh d : Nat) (cs : List (Nat × Nat)) (s : State) :
    SameSteps s (cs.foldl (fun s q => s.sendCopy g q.1 n sh d) s) := .foldl (fun v _ => same_sendCopy v ..) cs s

theorem same_dropAll (ks : List (Nat × Kept)) (s : State) : SameSteps s (ks.foldl (fun s y => s.dropKept y.2) s) :=
  .foldl (fun v y => same_dropKept v y.2) ks s

section

variable {n sh m : Nat} {s : State} {x : ShardCommit}

/-- R262. -/
theorem inRound_actOnRechecks (h : InRound n sh m s) (shard : x.shard = sh) (rounds : x.rounds = m) (g d : Nat) :
    InRound n sh m (s.actOnRechecks g n d x) := by
  unfold State.actOnRechecks
  dsimp only
  split
  · exact h.put shard rounds
  · exact h.put shard rounds
  · split
    · exact h.put shard rounds
    · exact h.put shard rounds
  · split
    · refine .of_same ?_ (same_sendCopies ..)
      exact h.put shard rounds
    · exact h.put shard rounds

/-- R263. -/
theorem inRound_judgeCopy (h : InRound n sh m s) (shard : x.shard = sh) (rounds : x.rounds = m) (g d q : Nat) (pair : Nat × Nat) :
    InRound n sh m (s.judgeCopy g n d q x pair) := by
  unfold State.judgeCopy
  dsimp only
  split
  · exact h.put shard rounds
  · split
    · exact h.put shard rounds
    · split
      · refine .of_same ?_ (same_sendCopy ..)
        exact h.put shard rounds
      · exact h.put shard rounds

theorem same_of_carries {t : State} (h : Carries s t) : SameSteps s t := (congrArg (fun v : State => v.upd.steps) h.rest :)

/-- R263. -/
theorem inRound_applyCopy (h : InRound n sh m s) (shard : x.shard = sh) (rounds : x.rounds = m) (g d : Nat) (k : Kept) :
    InRound n sh m (s.applyCopy g n d x k) := by
  unfold State.applyCopy
  extract_lets b half first id tl a w c check e
  split
  · have checked := same_of_carries (Carries.verifyReceived s (64 + b) id 2 tl)
    generalize s.verifyReceived (64 + b) id 2 tl = y at checked
    have stored := same_of_carries (Carries.storeTile y.2 (64 + b) id 1 y.1)
    obtain ⟨tl', v⟩ := y
    dsimp only at stored ⊢
    generalize v.storeTile (64 + b) id 1 tl' = z at stored
    obtain ⟨_ | kept, u⟩ := z
    · exact h.of_same (SameSteps.trans checked stored)
    · exact h.of_same ((SameSteps.trans checked stored).trans rfl)
  · have put : InRound n sh m a := h.of_same rfl
    split
    · exact put
    · exact inRound_judgeCopy (put.of_same (.trans (t := c) rfl (congrArg Upd.steps (Dispatches.sendReplicaAll c ..).upd))) shard rounds ..

/-- R259 to R263: one record used. -/
theorem inRound_settleOnce (h : InRound n sh m s) : InRound n sh m (s.settleOnce n sh).2 := by
  unfold State.settleOnce
  split
  · exact h
  next r rec' =>
    split
    · exact h
    next x exch =>
      obtain ⟨shard, rounds⟩ := h.found rec' exch
      extract_lets c d g peers
      split
      · split
        · exact h
        next q k _ =>
          extract_lets pair x' a
          have dropped : InRound n sh m a := h.of_same (same_dropKept ..)
          clear_value a
          split
          · exact (dropped.of_same (same_bump a P.digestMismatches 0 1)).put shard rounds
          · split
            · exact dropped.put shard rounds
            · exact dropped.put shard rounds
      · split
        · exact h
        next q k _ =>
          extract_lets x' a late x'' b
          have dropped : InRound n sh m a := h.of_same (same_dropKept ..)
          split
          · exact inRound_actOnRechecks (x := x'') (dropped.of_same (same_dropAll late a)) shard rounds g d
          · exact dropped.put shard rounds
      · split
        · exact h
        next q k _ =>
          extract_lets a
          have dropped : InRound n sh m a := h.of_same (same_dropKept ..)
          split
          · exact inRound_judgeCopy dropped shard rounds ..
          · exact inRound_applyCopy dropped shard rounds ..
      · exact h

theorem inRound_settleShard (fuel : Nat) (h : InRound n sh m s) : InRound n sh m (settleShard fuel n sh s) := by
  induction fuel generalizing s with
  | zero => exact h
  | succ fuel ih =>
    have once := inRound_settleOnce h
    unfold settleShard
    generalize s.settleOnce n sh = y at once
    obtain ⟨_ | _, a⟩ := y
    · exact once
    · exact ih once

end

/-- R261. -/
theorem inRound_recheck {s : State} {sh : Nat} {r : StepRec} {x : ShardCommit}
    (found : s.upd.steps.find? (fun r => (r.shard sh).any fun x => x.stage == 1) = some r) (exch : r.shard sh = some x) :
    InRound r.step sh (x.rounds + 1) (recheckStep s sh) := by
  have sent (v : State) (g step : Nat) (p : List Byte) : SameSteps v (v.sendReplicaAll g step p) :=
    congrArg Upd.steps (Dispatches.sendReplicaAll v ..).upd
  unfold recheckStep
  split
  next none' => exact nomatch found.symm.trans ((List.find?_congr fun r _ => by cases r.shard sh <;> rfl).trans none')
  next r' found' =>
    obtain rfl : r' = r := Option.some.inj (found'.symm.trans ((List.find?_congr fun r _ => by cases r.shard sh <;> rfl).trans found))
    rw [exch]
    dsimp only
    have shard := shard_of_found exch
    refine inRound_settleShard _ (InRound.putShard ⟨r', ?_, rfl⟩ shard rfl)
    rw [sent]
    exact List.mem_of_find?_eq_some found

end Sys2Proof.StepLaws

/-! PROOF. Single writes of the directory with an effect of their own (R43, R85, R168, R187, R245, R250, R269, R325, R327, R342, R356,
R379). -/

namespace Sys2Proof.DirLaws

open Sys2Proof.Machine Sys2Proof.Claims Sys2Proof.StoreTileLaws Sys2Proof.RecordLaws Sys2Proof.EventsOutLaws Sys2Proof.RestLaws
  Sys2Proof.StepLaws

/-- What a record's answer leaves of the state `u` that the record left: all but the response and the counts of records. -/
structure Answers (u t : State) : Prop where
  rest : t = { u with params := t.params, dir := t.dir, out := t.out }
  reads : ∀ p e, e < 2 ^ 24 → p ≠ P.requests → p ≠ P.rejected → t.reg p e = u.reg p e

theorem Answers.val {u t : State} (h : Answers u t) {p : Nat} (requests : p ≠ P.requests) (rejected : p ≠ P.rejected) : t.val p = u.val p :=
  h.reads p 0 (by decide) requests rejected

theorem reg_countRecord (s : State) (who : Requester) (a : Answer) {p e : Nat} (he : e < 2 ^ 24) (requests : p ≠ P.requests)
    (rejected : p ≠ P.rejected) : (s.countRecord who a).reg p e = s.reg p e := by
  have counted : (s.bump64 P.requests who.transport 1).reg p e = s.reg p e := reg_setReg_ne s (transport_lt who) he (.inl requests) _
  unfold State.countRecord
  dsimp only
  split
  · exact counted
  · exact (reg_setReg_ne _ (transport_lt who) he (.inl rejected) _).trans counted

/-- R331, R332: a record that is heard is answered. -/
theorem answers_single {s : State} {who : Requester} {r : DirRecord} (heard : Heard s who r) (head : Option Nat) :
    Answers (answerOf s who head r).2 (s.single who head r) := by
  have responds := responds_single heard head
  refine ⟨responds.rest, fun p e he requests rejected => ?_⟩
  rw [single_of_heard heard head]
  generalize answerOf s who head r = x
  have params : (deliver (x.2.countRecord who x.1) who false (recordMessage r) (reply x.1 r)).params = (x.2.countRecord who x.1).params := by
    unfold deliver
    rw [(congrArg State.params (respond_rest ..) :)]
    split <;> rfl
  exact (State.reg_congr params ..).trans (reg_countRecord _ who x.1 he requests rejected)

section

variable {s : State} {who : Requester} {p : Nat} {data : List Byte} (granted : Granted s who (writeRec p 0 data)) (boot : s.boot ≤ 4)
include granted boot

/-- R331: what a granted write of a WO parameter leaves. -/
theorem answers_wo (takes : takesWhole p .wo data.length = true)
    (apart : p < 0xF00000 ∧ p ≠ P.transportRights ∧ p ≠ P.eventRingEnable) : Answers (s.writeWo p 0 data).2 (s.single who none (writeRec p 0 data)) := by
  obtain ⟨small, own, ring⟩ := apart
  obtain ⟨row, access, passes⟩ := passes_whole granted takes small own fun row _ => by simp [State.objectThere, boot]
  have answered := answers_single granted.1 none
  rw [passes.answerOf_wo access ring] at answered
  exact answered

/-- R331: what a granted write of an RW parameter leaves. -/
theorem answers_rw (takes : takesWhole p .rw data.length = true)
    (apart : p < 0xF00000 ∧ p ≠ P.transportRights ∧ p ≠ P.eventRingEnable) : Answers (s.writeRw p 0 0 data).2 (s.single who none (writeRec p 0 data)) := by
  obtain ⟨small, own, ring⟩ := apart
  obtain ⟨row, access, passes⟩ := passes_whole granted takes small own fun row _ => by simp [State.objectThere, boot]
  have answered := answers_single granted.1 none
  rw [passes.answerOf_rw access ring] at answered
  exact answered

end

theorem leNat_exact {n v : Nat} (h : v < 256 ^ n) : leNat (leBytes n v) = v := (leNat_leBytes n v).trans (Nat.mod_eq_of_lt h)

/-! Parameters whose write is checked only for its type (R326). -/

/-- The parameters that have a check of their own, besides the weir's and the screening's objects. -/
def checkedParams : List Nat :=
  [P.shardTable, P.layerTable, P.millraceTable, P.portMap, P.watchChannelMap, P.layerRanges, P.riffleRate, P.silenceRun, P.readRetrySteps,
    P.momentRecords, P.segmentBytes, P.ptpRole, P.ptpPort, P.ptpLogSync, P.tierMapCursor, P.eventHoldoff, P.eventRingEnable, P.eventRingVector]
    ++ topologyParams ++ (List.range 8).map (P.program + ·)

/-- Parameter `p` has no check of its own. -/
def unchecked (p : Nat) : Bool := !([0x2000, 0x2010, 0x2020, 0xA000].contains (p / 256)) && !(checkedParams.contains p)

theorem checkWrite_unchecked {p : Nat} (h : unchecked p = true) (s : State) (m : Sparse Nat) : s.checkWrite p m = .plain true := by
  simp only [unchecked, Bool.and_eq_true, Bool.not_eq_true', List.contains_eq_mem, decide_eq_false_iff_not, checkedParams, List.mem_append,
    List.mem_cons, List.not_mem_nil, or_false, not_or, List.mem_map, List.mem_range] at h
  obtain ⟨objects, ⟨others, topology⟩, programs⟩ := h
  have program : ¬ (P.program ≤ p ∧ p ≤ P.program + 7) := fun ⟨low, high⟩ => programs ⟨p - P.program, by omega, by omega⟩
  simp [State.checkWrite, objects, others, topology, program]

/-- R43: Valid of a guard record is written 1 to rearm it. -/
theorem writeRw_guardRecord {p : Nat} (object : p / 256 = 0x7101) (plain : unchecked p = true) (s : State) (bytes : List Byte) :
    (s.writeRw p 0 0 bytes).2 = if bit (leNat bytes) 23 then s.setVal p (setBits (s.val p) 23 1 0) else s := by
  have apart : ∀ q, q / 256 ≠ 0x7101 → p ≠ q := fun q other same => other (same ▸ object)
  have small : p / 256 ≠ 0x7110 := by omega
  unfold State.writeRw
  simp only [checkWrite_unchecked plain, if_neg (apart P.transportRights (by decide)), if_neg (apart P.tierMapEntry (by decide)),
    if_neg (apart P.eventRingEnable (by decide)), if_neg (not_or.2 ⟨apart P.snapshotTime (by decide), apart P.snapshotStep (by decide)⟩),
    if_pos object]
  rfl

/-- R85: Valid of an offender latch is written 1 to rearm it. -/
theorem writeRw_offenderLatch {p : Nat} (object : p / 256 = 0x7110) (plain : unchecked p = true) (s : State) (bytes : List Byte) :
    (s.writeRw p 0 0 bytes).2 = if bit (leNat bytes) 0 then s.rearmLatch (p - P.offenderLatch) else s := by
  have apart : ∀ q, q / 256 ≠ 0x7110 → p ≠ q := fun q other same => other (same ▸ object)
  have small : p / 256 ≠ 0x7101 := by omega
  unfold State.writeRw
  simp only [checkWrite_unchecked plain, if_neg (apart P.transportRights (by decide)), if_neg (apart P.tierMapEntry (by decide)),
    if_neg (apart P.eventRingEnable (by decide)), if_neg (not_or.2 ⟨apart P.snapshotTime (by decide), apart P.snapshotStep (by decide)⟩),
    if_neg small, if_pos object]
  rfl

theorem bit_setBits_zero (x i : Nat) : bit (setBits x i 1 0) i = false := by
  have same := bits_setBits_same x i 1 0
  unfold bits at same
  unfold bit
  rw [Nat.testBit_eq_decide_div_mod_eq]
  rw [Nat.shiftRight_eq_div_pow] at same
  exact decide_eq_false (by omega)

/-! What each of the writes does. -/

theorem retired_startMigration {s t : State} {p : Nat} {next : List Nat} (h : s.startMigration p next = some t) : t.mem.retired = s.mem.retired := by
  unfold State.startMigration at h
  dsimp only at h
  split at h
  · exact nomatch h
  next tier frame spilled _ =>
    obtain rfl := Option.some.inj h
    have counted : (s.countSpill (eHome (s.page p)) spilled).mem = s.mem := by
      unfold State.countSpill
      split <;> rfl
    have freed : ∀ v : State, (v.freeFrame tier frame (eWidth (s.page p))).mem = v.mem := fun v => by
      unfold State.freeFrame
      split <;> rfl
    have same := congrArg Mem.retired ((freed _).trans counted)
    exact same

/-- R187: a granule of HBM that is not retired enters the list. -/
theorem retired_retireGranule {s : State} {g : Nat} (low : hbBase ≤ g) (high : g < hbBase + 2 ^ 20)
    (usable : (g - hbBase) / 64 % 2048 < s.hbBlocks ((g - hbBase) / 131072)) (room : s.mem.retired.length < 4096)
    (new : ∀ r ∈ s.mem.retired, r.1 ≠ g) : ∃ d, (g, d) ∈ (s.retireGranule g).mem.retired := by
  have listed : ∀ d, (g, d) ∈ s.mem.retired ++ [(g, d)] := fun d => List.mem_append_right _ (List.mem_singleton_self _)
  have unlisted : ¬ (s.mem.retired.any fun r => r.1 == g) = true := fun any => by
    obtain ⟨r, mem, same⟩ := List.any_eq_true.1 any
    exact new r mem (beq_iff_eq.1 same)
  unfold State.retireGranule
  rw [if_neg (by omega), if_neg (by omega), if_neg (by omega), if_neg unlisted]
  dsimp only
  split
  · exact ⟨_, listed true⟩
  · split
    · exact ⟨_, listed false⟩
    · split
      · exact ⟨_, listed false⟩
      · split
        next moved =>
          refine ⟨false, ?_⟩
          have kept := retired_startMigration moved
          exact (congrArg (fun rs => (g, false) ∈ rs) kept).mpr (listed false)
        next => exact ⟨_, listed true⟩

end Sys2Proof.DirLaws

/-! PROOF. The effects of the single writes of the directory (R43, R85, R168, R169, R187, R245, R250, R269, R325, R327, R342, R356, R379). -/

namespace Sys2Proof.DirLaws

open Sys2Proof.Machine Sys2Proof.Claims Sys2Proof.StoreTileLaws Sys2Proof.RecordLaws Sys2Proof.EventsOutLaws Sys2Proof.RestLaws
  Sys2Proof.StepLaws

/-- R169: an entry that has passed its check, staged. -/
def entryStaged (s : State) (p w : Nat) : State :=
  let s := s.tierStatus 0 p
  { s with mem := { s.mem with staged := s.mem.staged ++ [(p, BitVec.ofNat 128 w)] } }

theorem gate_entryStaged (s : State) (p w : Nat) : (entryStaged s p w).gateHolds = s.gateHolds := by
  have reads : ∀ q, q ≠ P.tierMapStatus → (s.tierStatus 0 p).val q = s.val q := fun q hq => val_setVal_ne s hq _
  have copy : (entryStaged s p w).gateHolds = (s.tierStatus 0 p).gateHolds := rfl
  rw [copy]
  unfold State.gateHolds State.boot State.step
  rw [reads _ (by decide), reads _ (by decide), reads _ (by decide)]
  rfl

/-- R169: where the gate does not hold, an entry that passes its check waits as the last one staged. -/
theorem stageEntry_waits {s : State} {p w : Nat} (good : s.checkEntry p w = 0) (gate : s.gateHolds = false) :
    s.stageEntry p w = entryStaged s p w := by
  unfold State.stageEntry
  rw [good]
  dsimp only
  rw [if_neg (by decide)]
  have same := gate_entryStaged s p w
  exact if_neg (by rw [← entryStaged, same, gate]; decide)

variable {s : State} {who : Requester} (boot : s.boot ≤ 4)
include boot

/-- R331: a granted write of a whole WO parameter of one element. -/
theorem answers_writeOf_wo {p n v : Nat} (may : Granted s who (writeRec p 0 (leBytes n v))) (takes : takesWhole p .wo n = true)
    (apart : p < 0xF00000 ∧ p ≠ P.transportRights ∧ p ≠ P.eventRingEnable) {u : State} (run : (s.writeWo p 0 (leBytes n v)).2 = u) :
    Answers u (s.writeOf who p n v) :=
  run ▸ answers_wo may boot ((length_leBytes n v).symm ▸ takes) apart

/-- R331: a granted write of a whole RW parameter of one element. -/
theorem answers_writeOf_rw {p n v : Nat} (may : Granted s who (writeRec p 0 (leBytes n v))) (takes : takesWhole p .rw n = true)
    (apart : p < 0xF00000 ∧ p ≠ P.transportRights ∧ p ≠ P.eventRingEnable) {u : State} (run : (s.writeRw p 0 0 (leBytes n v)).2 = u) :
    Answers u (s.writeOf who p n v) :=
  run ▸ answers_rw may boot ((length_leBytes n v).symm ▸ takes) apart

/-- R342. -/
theorem rillRetrain_counts {r : Byte} (may : Granted s who (writeRec P.rillRetrain 0 (leBytes 1 r.toNat))) (known : r.toNat ≤ 9)
    (calm : (s.rill r.toNat).shaking = false) :
    (s.writeOf who P.rillRetrain 1 r.toNat).reg P.rillRetrains r.toNat = inc32 (s.reg P.rillRetrains r.toNat) := by
  have run : (s.writeWo P.rillRetrain 0 (leBytes 1 r.toNat)).2 = s.startHandshake r.toNat := by
    have shape : ∀ bs, s.writeWo P.rillRetrain 0 bs = if leNat bs > 9 then (0x05, s) else (0, s.startHandshake (leNat bs)) := fun _ => rfl
    rw [shape, leNat_exact r.isLt, if_neg (by omega)]
  have answers := answers_writeOf_wo boot may (by decide +kernel) (by decide) run
  refine (answers.reads _ _ (by omega) (by decide) (by decide)).trans ?_
  unfold State.startHandshake
  dsimp only
  rw [calm]
  exact State.reg_bump_same ..

/-- R356. -/
theorem screenRequest_queues {p : Byte} (may : Granted s who (writeRec P.screenRequest 0 (leBytes 1 p.toNat))) (known : p.toNat ≤ 71)
    (inService : s.posState p.toNat = 0) (spare : (s.spareOf (p.toNat / 9)).isSome = true) :
    (s.writeOf who P.screenRequest 1 p.toNat).panel.class2 = s.panel.class2 ++ [p.toNat] := by
  have run : (s.writeWo P.screenRequest 0 (leBytes 1 p.toNat)).2 = (s.requestScreen p.toNat).2 := by
    have shape : ∀ bs, (s.writeWo P.screenRequest 0 bs).2 = (s.requestScreen (leNat bs)).2 := fun _ => rfl
    rw [shape, leNat_exact p.isLt]
  have answers := answers_writeOf_wo boot may (by decide +kernel) (by decide) run
  have there : ¬ (s.spareOf (p.toNat / 9)).isNone = true := by simp [Option.isSome_iff_ne_none.1 spare]
  refine (congrArg (fun v : State => v.panel.class2) answers.rest :).trans ?_
  unfold State.requestScreen
  simp only [if_neg (show ¬ p.toNat > 71 by omega), inService, ne_eq, not_true_eq_false, if_false, if_neg there, if_true]
  rfl

/-- R379. -/
theorem signatureAck_marks {id : W64} (may : Granted s who (writeRec P.signatureAck 0 (leBytes 8 id.toNat))) :
    (s.writeOf who P.signatureAck 8 id.toNat).nor.sigs.map (·.id) = s.nor.sigs.map (·.id)
      ∧ ∀ x ∈ (s.writeOf who P.signatureAck 8 id.toNat).nor.sigs, x.id = id.toNat → x.acked = true := by
  have run : (s.writeWo P.signatureAck 0 (leBytes 8 id.toNat)).2 = s.ackSignature id.toNat := by
    have shape : ∀ bs, (s.writeWo P.signatureAck 0 bs).2 = s.ackSignature (leNat bs) := fun _ => rfl
    rw [shape, leNat_exact id.isLt]
  have answers := answers_writeOf_wo boot may (by decide +kernel) (by decide) run
  rw [(congrArg (fun v : State => v.nor.sigs) answers.rest : (s.writeOf who P.signatureAck 8 id.toNat).nor.sigs = _)]
  refine ⟨?_, fun x hx at' => ?_⟩
  · unfold State.ackSignature
    rw [List.map_map]
    refine List.map_congr_left fun x _ => ?_
    by_cases here : x.id = id.toNat <;> simp [here]
  · obtain ⟨y, -, rfl⟩ := List.mem_map.1 hx
    by_cases here : y.id = id.toNat
    · rw [if_pos here]
    · rw [if_neg here] at at'
      exact absurd at' here

/-- R187. -/
theorem retireRequest_lists {g : W32} (may : Granted s who (writeRec P.retireRequest 0 (leBytes 4 g.toNat))) (low : hbBase ≤ g.toNat)
    (high : g.toNat < hbBase + 2 ^ 20) (usable : (g.toNat - hbBase) / 64 % 2048 < s.hbBlocks ((g.toNat - hbBase) / 131072))
    (room : s.mem.retired.length < 4096) (new : ∀ r ∈ s.mem.retired, r.1 ≠ g.toNat) :
    ∃ d, (g.toNat, d) ∈ (s.writeOf who P.retireRequest 4 g.toNat).mem.retired := by
  have run : (s.writeWo P.retireRequest 0 (leBytes 4 g.toNat)).2 = s.retireGranule g.toNat := by
    have shape : ∀ bs, (s.writeWo P.retireRequest 0 bs).2 = s.retireGranule (leNat bs) := fun _ => rfl
    rw [shape, leNat_exact g.isLt]
  have answers := answers_writeOf_wo boot may (by decide +kernel) (by decide) run
  obtain ⟨d, listed⟩ := retired_retireGranule low high usable room new
  rw [(congrArg (fun v : State => v.mem.retired) answers.rest : (s.writeOf who P.retireRequest 4 g.toNat).mem.retired = _)]
  exact ⟨d, listed⟩

/-- R245. -/
theorem stepFlagRaise_enters {v : W64} (may : Granted s who (writeRec P.stepFlagRaise 0 (leBytes 8 v.toNat))) (opened : s.seq.opened = true)
    (open' : s.seq.wordTaken = false) :
    (s.writeOf who P.stepFlagRaise 8 v.toNat).val P.localFlags = Nat.lor (s.val P.localFlags) (Nat.land v.toNat 0xFF00) := by
  have run : (s.writeWo P.stepFlagRaise 0 (leBytes 8 v.toNat)).2 = s.condition (Nat.land v.toNat 0xFF00) := by
    have shape : ∀ bs, (s.writeWo P.stepFlagRaise 0 bs).2 = s.condition (Nat.land (leNat bs) 0xFF00) := fun _ => rfl
    rw [shape, leNat_exact v.isLt]
  have answers := answers_writeOf_wo boot may (by decide +kernel) (by decide) run
  refine (answers.val (by decide) (by decide)).trans ?_
  generalize Nat.land v.toNat 0xFF00 = w
  unfold State.condition
  split
  next zero => rw [zero]; exact (Nat.or_zero _).symm
  next =>
    rw [if_neg (by simp [open', opened])]
    exact State.val_setVal_same ..

/-- R363, R270, R327: writes of 1 that clear at the step's open, or cancel. -/
theorem clears_hold :
    (Granted s who (writeRec P.stickyClear 0 (leBytes 1 1)) → (s.writeOf who P.stickyClear 1 1).seq.stickyHeld = true)
      ∧ (Granted s who (writeRec P.riffleClear 0 (leBytes 1 1)) → (s.writeOf who P.riffleClear 1 1).riffle.clearHeld = true)
      ∧ (Granted s who (writeRec P.rwsCancel 0 (leBytes 1 1)) → (s.writeOf who P.rwsCancel 1 1).held = []) := by
  refine ⟨fun may => ?_, fun may => ?_, fun may => ?_⟩
  · exact (congrArg (fun v : State => v.seq.stickyHeld) (answers_writeOf_wo boot may (by decide +kernel) (by decide) rfl).rest :)
  · exact (congrArg (fun v : State => v.riffle.clearHeld) (answers_writeOf_wo boot may (by decide +kernel) (by decide) rfl).rest :)
  · exact (congrArg State.held (answers_writeOf_wo boot may (by decide +kernel) (by decide) rfl).rest :)

/-- R269. -/
theorem restoreRequest_begins {n : W64} {c : Checkpoint} (may : Granted s who (writeRec P.restoreRequest 0 (leBytes 8 n.toNat)))
    (idle : s.upd.restoring = none) (closed : s.seq.opened = false) (newest : s.checkpointOf n.toNat = some c) (fits : s.sectionsMatch c = true) :
    (s.writeOf who P.restoreRequest 8 n.toNat).upd.restoring = some c.number := by
  have run : (s.writeWo P.restoreRequest 0 (leBytes 8 n.toNat)).2 = s.beginRestore n.toNat := by
    have shape : ∀ bs, s.writeWo P.restoreRequest 0 bs = if s.upd.restoring.isSome then (0x06, s)
        else if s.seq.opened then (0x06, s.beginRestore (leNat bs))
        else (if (s.beginRestore (leNat bs)).val P.restoreStatus = 0x06 then 0 else 0x05, s.beginRestore (leNat bs)) := fun _ => rfl
    rw [shape, idle, closed, leNat_exact n.isLt]
    rfl
  have answers := answers_writeOf_wo boot may (by decide +kernel) (by decide) run
  refine (congrArg (fun v : State => v.upd.restoring) answers.rest :).trans ?_
  unfold State.beginRestore
  rw [closed, newest]
  dsimp only
  rw [if_neg (by decide), if_neg (not_not_intro fits)]
  rfl

/-- R250: a gate ahead of the step lets nothing held apply. -/
theorem stepGate_opens {v : W64} (may : Granted s who (writeRec P.stepGate 0 (leBytes 8 v.toNat))) (ahead : s.step < v.toNat) :
    (s.writeOf who P.stepGate 8 v.toNat).val P.stepGate = v.toNat := by
  have size : elemBytes P.stepGate = 8 := by decide +kernel
  have stored : putParam s.params P.stepGate 0 (maskBytes P.stepGate (leBytes 8 v.toNat))
      = Sparse.put paramDefault s.params (pkey P.stepGate 0) v.toNat := by
    rw [maskBytes_whole (by decide) (by omega) (by rw [size, length_leBytes]), putParam_whole (by omega) (by rw [size, length_leBytes]),
      leNat_exact v.isLt]
  have run : (s.writeRw P.stepGate 0 0 (leBytes 8 v.toNat)).2 = s.setVal P.stepGate v.toNat := by
    have shape : ∀ bs, (s.writeRw P.stepGate 0 0 bs).2
        = ({ s with params := putParam s.params P.stepGate 0 (maskBytes P.stepGate bs) } : State).settleHeld.settleStaged := fun _ => rfl
    have put : ({ s with params := putParam s.params P.stepGate 0 (maskBytes P.stepGate (leBytes 8 v.toNat)) } : State)
        = s.setVal P.stepGate v.toNat := by rw [stored]; rfl
    have gate : (s.setVal P.stepGate v.toNat).gateHolds = false := by
      have step : (s.setVal P.stepGate v.toNat).step = s.step := val_setVal_ne s (by decide) _
      have value : (s.setVal P.stepGate v.toNat).val P.stepGate = v.toNat := State.val_setVal_same ..
      unfold State.gateHolds
      rw [step, value, decide_eq_false (by omega), Bool.and_false]
    rw [shape, put]
    generalize s.setVal P.stepGate v.toNat = u at gate
    have held : u.settleHeld = u := if_neg (by simp [gate])
    rw [held]
    exact if_neg (by simp [gate])
  have answers := answers_writeOf_rw boot may (by decide +kernel) (by decide) run
  exact (answers.val (by decide) (by decide)).trans (State.val_setVal_same ..)

/-- R43. -/
theorem guardRecord_rearms {sl : Slot} {v : BitVec 128} (may : Granted s who (writeRec (P.guardRecord + sl.val) 0 (leBytes 16 v.toNat)))
    (valid : bit v.toNat 23 = true) : bit ((s.writeOf who (P.guardRecord + sl.val) 16 v.toNat).val (P.guardRecord + sl.val)) 23 = false := by
  have rows : ∀ sl : Slot, takesWhole (P.guardRecord + sl.val) .rw 16 = true ∧ unchecked (P.guardRecord + sl.val) = true := by decide +kernel
  obtain ⟨takes, plain⟩ := rows sl
  have small := sl.isLt
  have run := writeRw_guardRecord (p := P.guardRecord + sl.val) (by unfold P.guardRecord; omega) plain s (leBytes 16 v.toNat)
  rw [leNat_exact v.isLt, if_pos valid] at run
  have answers := answers_writeOf_rw boot may takes (by unfold P.guardRecord P.transportRights P.eventRingEnable; omega) run
  rw [answers.val (by unfold P.guardRecord P.requests; omega) (by unfold P.guardRecord P.rejected; omega), State.val_setVal_same]
  exact bit_setBits_zero ..

/-- R85. -/
theorem offenderLatch_rearms {sl : Slot} {a : ArrayIx} {v : BitVec 256}
    (may : Granted s who (writeRec (P.offenderLatch + 2 * sl.val + a.val) 0 (leBytes 32 v.toNat))) (valid : bit v.toNat 0 = true)
    (quiet : ∀ e ∈ s.seq.latched, e.ac ≠ s.ac) :
    bit ((s.writeOf who (P.offenderLatch + 2 * sl.val + a.val) 32 v.toNat).val (P.offenderLatch + 2 * sl.val + a.val)) 0 = false := by
  have rows : ∀ (sl : Slot) (a : ArrayIx), takesWhole (P.offenderLatch + 2 * sl.val + a.val) .rw 32 = true
      ∧ unchecked (P.offenderLatch + 2 * sl.val + a.val) = true := by decide +kernel
  obtain ⟨takes, plain⟩ := rows sl a
  have small := sl.isLt
  have small' := a.isLt
  have run := writeRw_offenderLatch (p := P.offenderLatch + 2 * sl.val + a.val) (by unfold P.offenderLatch; omega) plain s (leBytes 32 v.toNat)
  have index : P.offenderLatch + 2 * sl.val + a.val - P.offenderLatch = 2 * sl.val + a.val := by omega
  have none' : s.seq.latched.find? (fun e => e.latch == 2 * sl.val + a.val && e.ac == s.ac) = none :=
    List.find?_eq_none.2 fun e he here => quiet e he (beq_iff_eq.1 (Bool.and_eq_true_iff.1 here).2)
  have armed : s.rearmLatch (2 * sl.val + a.val) = s.setVal (P.offenderLatch + 2 * sl.val + a.val)
      (setBits (s.val (P.offenderLatch + 2 * sl.val + a.val)) 0 1 0) := by
    unfold State.rearmLatch
    rw [none', Nat.add_assoc]
  rw [leNat_exact v.isLt, if_pos valid, index, armed] at run
  have answers := answers_writeOf_rw boot may takes (by unfold P.offenderLatch P.transportRights P.eventRingEnable; omega) run
  rw [answers.val (by unfold P.offenderLatch P.requests; omega) (by unfold P.offenderLatch P.rejected; omega), State.val_setVal_same]
  exact bit_setBits_zero ..

/-- R168, R169: an entry that passes its check is staged. -/
theorem tierMapEntry_stages {e : BitVec 128} (may : Granted s who (writeRec P.tierMapEntry 0 (leBytes 16 e.toNat))) (up : s.up 3 = true)
    (gate : s.gateHolds = false) (good : s.checkEntry (s.val P.tierMapCursor) e.toNat = 0) :
    (s.writeOf who P.tierMapEntry 16 e.toNat).mem.staged = s.mem.staged ++ [(s.val P.tierMapCursor, e)] := by
  have fits : (rowOf P.tierMapEntry).any (fun r => decide (r.access = .rw) && decide (r.ty ≠ .f32) && spanOk r true 0 16
      && decide (r.index = 0x3010)) = true := by decide +kernel
  obtain ⟨row, known, fits⟩ := (Option.any_eq_true _ _).1 fits
  simp only [Bool.and_eq_true, decide_eq_true_eq] at fits
  obtain ⟨⟨⟨access, number⟩, span⟩, object⟩ := fits
  have passes : Passes s who P.tierMapEntry 0 (leBytes 16 e.toNat) row :=
    ⟨may, by decide, by decide, known, by simp [State.objectThere, boot], fun h => absurd h (by decide),
      by simp [State.loaded, access, object, up], (length_leBytes ..).symm ▸ span, fun h => absurd h number⟩
  have answers := answers_single may.1 none
  rw [passes.answerOf_rw access (by decide)] at answers
  have shape : ∀ bs, (s.writeRw P.tierMapEntry 0 0 bs).2 = s.stageEntry (s.val P.tierMapCursor) (leNat bs) := fun bs => by
    have plain : (s.writeRw P.tierMapEntry 0 0 bs).2 = (if s.checkEntry (s.val P.tierMapCursor) (leNat bs) ≠ 0
        then (({ status := 0x05, detail := (s.stageEntry (s.val P.tierMapCursor) (leNat bs)).valueDetail P.tierMapEntry } : Answer),
          s.stageEntry (s.val P.tierMapCursor) (leNat bs)) else ({ status := 0 }, s.stageEntry (s.val P.tierMapCursor) (leNat bs))).2 := rfl
    rw [plain]
    split <;> rfl
  rw [shape, leNat_exact e.isLt, stageEntry_waits good gate] at answers
  refine (congrArg (fun v : State => v.mem.staged) answers.rest :).trans ?_
  show s.mem.staged ++ [(s.val P.tierMapCursor, BitVec.ofNat 128 e.toNat)] = _
  rw [BitVec.ofNat_toNat, BitVec.setWidth_eq]

end Sys2Proof.DirLaws

/-! PROOF. The commands of the sequencer, the commit, the resets and the directory complete with their main effect. -/

namespace Sys2Proof.MainEffects

open Sys2Proof.Machine Sys2Proof.Claims Sys2Proof.DirLaws Sys2Proof.StepLaws Sys2Proof.FirmwareLaws

variable {s : State} {who : Requester}

/-- `c` completes with less said of what it leaves. -/
theorem completes_mono {c : Instr} {Q Q' : State → Prop} (h : Completes c s Q) (weaker : ∀ t, Q t → Q' t) : Completes c s Q' := by
  obtain ⟨t, run, holds⟩ := h
  exact ⟨t, run, weaker t holds⟩

/-- R383: a reset leaves the supply unreleased and no boot state. -/
theorem off_of_reset {t : State} {cause sensor : Nat} (h : AfterReset s t cause sensor) :
    t.boot = 0 ∧ t.supply.released = false ∧ t.held = [] ∧ bits t.nor.cause 0 8 = cause := by
  obtain ⟨params, _, _, _, _, _, _, _, held, _, _, released, _, _, cause, _⟩ := h
  have boot : t.boot = 0 := by
    unfold State.boot State.val State.reg
    rw [params]
    rfl
  exact ⟨boot, released, held, cause⟩

/-- R331, R332: a record is answered. -/
theorem record_answered {r : DirRecord} (heard : Heard s who r) :
    ∃ (a : Answer) (rest : List Emission), Sent (s.single who none r) who false ([0x01, 0x01, 0x00, 0x00] ++ a.bytes r) rest :=
  ⟨_, _, (responds_single heard none).sent⟩

/-- R332, R337: a message within its limit is answered, or gets its kept answer. -/
theorem message_answered (answers : s.answers who = true) {msg : List Byte} (short : msg.length ≤ s.requestLimit who) (ic : Bool) :
    ∃ (out : List Byte) (rest : List Emission), Sent (s.answerMessage who ic none msg) who ic out rest := by
  have fresh : (2 ≤ who.transport.val → s.keptAnswer who msg = none) →
      ∃ (out : List Byte) (rest : List Emission), Sent (s.answerMessage who ic none msg) who ic out rest := fun fresh => by
    rw [answerMessage_fresh answers short fresh]
    exact ⟨_, _, (responds_deliver ..).sent⟩
  by_cases keeps : 2 ≤ who.transport.val
  · cases kept : s.keptAnswer who msg with
    | none => exact fresh fun _ => kept
    | some out =>
      rw [answerMessage_repeat answers short keeps kept]
      exact ⟨_, _, respond_out ..⟩
  · exact fresh fun h => absurd h keeps

/-- R326, R327: what is held of a write while the gate does not hold. -/
theorem holdsLast {c : Instr} {p off : Nat} {data : List Byte} (h : HoldsWrite s who c p off data) : HoldsLast s who c p off data :=
  fun row granted known span room good gate => completes_mono ((h row granted known span room good).1 gate) fun _ ⟨_, _, held, _⟩ => held

/-- R291: PowerLimit takes any value of its range. -/
theorem checkWeir_powerLimit {m : Sparse Nat} {v : Nat} (value : regIn m P.powerLimit 0 = v) (low : 1000 ≤ v) (high : v ≤ 4000) :
    (checkWeir m P.powerLimit).ok = true := by
  have shape : checkWeir m P.powerLimit = .code P.weirStatus ((if 1000 ≤ regIn m P.powerLimit 0 ∧ regIn m P.powerLimit 0 ≤ 4000 then 0 else 0x01)
      + 2 ^ 8 * (P.powerLimit % 256)) := rfl
  rw [shape, value, if_pos ⟨low, high⟩]
  rfl

/-- R387: the codes of the checks of an image are small. -/
theorem checkFw_lt (elem : Nat → Nat) (level svn key : Nat) : checkFw elem level svn key < 256 := by
  unfold checkFw
  dsimp only
  repeat' split
  all_goals decide

/-- R387: where an image's check leaves no code, FwState is 1. -/
theorem fwState_passed {t : State} {code : Nat} (small : code < 256) (status : t.val P.fwStatus = code + 2 ^ 8 * if code = 0 then 1 else 0)
    (zero : bits (t.val P.fwStatus) 0 8 = 0) : t.fwState = 1 := by
  have none' : code = 0 := by
    rw [status] at zero
    simp only [bits, Nat.shiftRight_zero] at zero
    omega
  unfold State.fwState
  rw [status, none']
  rfl

/-- R291. -/
theorem powerLimit_taken (can : Canonical s) (boot : s.boot ≤ 4) {v : W32} (granted : Granted s who (writeRec P.powerLimit 0 (leBytes 4 v.toNat)))
    (low : 1000 ≤ v.toNat) (high : v.toNat ≤ 4000) : (s.single who none (writeRec P.powerLimit 0 (leBytes 4 v.toNat))).val P.powerLimit = v.toNat := by
  have weir : HeldLaws.ofWeir P.powerLimit := .inl rfl
  have fits : (rowOf P.powerLimit).any (fun r => decide (r.access = .rw) && !r.late && decide (r.ty ≠ .f32) && spanOk r true 0 4
      && decide (r.bytes = 4)) = true := by decide +kernel
  obtain ⟨row, known, fits⟩ := (Option.any_eq_true _ _).1 fits
  simp only [Bool.and_eq_true, decide_eq_true_eq, Bool.not_eq_true'] at fits
  obtain ⟨⟨⟨⟨access, early⟩, number⟩, span⟩, bytes⟩ := fits
  have size : elemBytes P.powerLimit = 4 := by decide +kernel
  have length : (leBytes 4 v.toNat).length = 4 := length_leBytes ..
  have passes := HeldLaws.passes_weir weir boot granted (by decide) known (by simp [State.loaded, early]) (length.symm ▸ span)
    fun h => absurd h number
  have stored : regIn (putParam s.params P.powerLimit 0 (maskBytes P.powerLimit (leBytes 4 v.toNat))) P.powerLimit 0 = v.toNat := by
    rw [maskBytes_whole (by decide) (by omega) (length.trans size.symm), putParam_whole (by omega) (length.trans size.symm), leNat_exact v.isLt]
    exact Sparse.get_put_same ..
  obtain ⟨-, taken, -⟩ := HeldLaws.weir_taken can weir passes access (checkWeir_powerLimit stored low high)
  have value := taken 0 (by rw [length, bytes]; decide)
  rw [bytes] at value
  refine value.trans ?_
  rw [show slice (leBytes 4 v.toNat) (4 * 0) 4 = leBytes 4 v.toNat from rfl]
  exact leNat_exact v.isLt

end Sys2Proof.MainEffects

namespace Sys2Proof.Claims

open Sys2Proof.Machine Sys2Proof.MainEffects Sys2Proof.DirLaws Sys2Proof.StepLaws Sys2Proof.OpenLaws

/-- Settles O60: each main effect is what the command's own lemmas say, with less said of the rest. -/
theorem commandsCompleteWithTheirMainEffect : Obligations.CommandsCompleteWithTheirMainEffect := by
  unfold Obligations.CommandsCompleteWithTheirMainEffect
  intro s who can
  have heads := headsAreHeldPacedAndStallsTold.1
  obtain ⟨persist, level, enable, watchdog, trial, host⟩ := resetsLeaveTheirCauseAndDropVolatileState s
  refine ⟨⟨fun sl st ready copying => ?_, fun sl limit busy untold => ?_, fun may => ⟨_, rfl, stepOpen_dates may⟩,
      fun r found held => ⟨_, rfl, decided_commitFormed can found held⟩, fun sh r x _ found exch => ?_⟩,
    ⟨fun k h hot late => ?_, fun v released low => ?_, fun closed => ?_, fun runs => ?_, fun tried released early => ?_,
      fun q n c may op formed magic => ?_⟩,
    fun r => ⟨fun heard => ⟨_, rfl, record_answered heard⟩, fun heard => ⟨_, rfl, record_answered heard⟩,
      fun heard => ⟨_, rfl, record_answered heard⟩, fun heard => ⟨_, rfl, record_answered heard⟩⟩,
    fun ic msg plain answers short => ⟨_, rfl, ?_⟩, fun boot off data => ?_, fun idle boot => ?_, fun boot => ?_⟩
  · exact completes_mono (heads.1 s sl st can ready (.inl copying)) fun _ ⟨passed, _⟩ => passed
  · exact completes_mono (heads.2 s sl can limit busy untold) fun _ ⟨told, _⟩ => told
  · have round := inRound_recheck found exch
    obtain ⟨k, hk, step⟩ := round.here
    obtain ⟨⟨y, hy, shard⟩, rounds⟩ := round.exchange k hk step
    exact ⟨_, rfl, k, hk, step, y, hy, shard.trans (UpdateLaws.shard_of_found exch).symm, rounds y hy shard⟩
  · exact completes_mono (persist k h hot late) fun _ => off_of_reset
  · exact completes_mono ((level v (by simp [State.powered, released])).1 low) fun _ ⟨reset, _⟩ => off_of_reset reset
  · refine completes_mono (enable closed) fun _ ⟨reset, _, open'⟩ => ⟨off_of_reset reset, open'⟩
  · exact completes_mono (watchdog runs) fun _ => off_of_reset
  · exact completes_mono (trial tried released early) fun _ => off_of_reset
  · exact completes_mono (host q n c may op formed magic) fun _ => off_of_reset
  · have run : directoryMessageStep s who ic msg = s.answerMessage who ic none msg := if_pos (by simp [plain])
    rw [run]
    exact message_answered answers short ic
  · obtain ⟨shards, programs, millrace, topology, ports, watch, seed, -⟩ := tableWritesAreHeldForTheNextStep s who off data can boot
    exact ⟨fun v => holdsLast (seed v), fun layer => holdsLast (shards layer), fun n => holdsLast (programs n), holdsLast millrace,
      fun k => holdsLast (topology k), holdsLast ports, fun rg => holdsLast (watch rg),
      fun v granted low high => ⟨_, rfl, powerLimit_taken can boot granted low high⟩⟩
  · obtain ⟨-, verify, install, -, confirm, -, discard⟩ := firmwareWritesFollowTheirStatus s who can idle
    refine ⟨fun off data granted some' aligned whole fits => ⟨_, rfl, ?_⟩, fun may => ?_, fun may good free => ?_, fun r may found trial' running => ?_,
      fun may => ?_⟩
    · obtain ⟨-, -, -, any, state, -⟩ := FirmwareLaws.image_reads can idle off granted some' aligned whole fits
      exact ⟨any, state⟩
    · refine completes_mono (verify may) fun t ⟨_, fw, nor, status⟩ => ⟨fw, nor, fun none' => ?_, fun any zero => ?_⟩
      · rw [status, none']
        rfl
      · have small := checkFw_lt (Sparse.get zeros s.fw.staged) (s.val P.featureLevel) s.floors.1 s.floors.2
        rw [any, if_pos rfl] at status
        generalize checkFw (Sparse.get zeros s.fw.staged) (s.val P.featureLevel) s.floors.1 s.floors.2 = code at status small
        exact fwState_passed small status zero
    · refine completes_mono (install may good (by omega) free) fun t ⟨_, status, _⟩ => ?_
      unfold State.fwState
      rw [status]
      rfl
    · exact completes_mono (confirm r may found trial' running) fun t ⟨_, _, fw, _⟩ => fw ▸ rfl
    · exact completes_mono (discard may) fun t ⟨_, _, _, fw⟩ => fw ▸ ⟨rfl, rfl⟩
  · obtain ⟨sticky, riffle, cancel⟩ := clears_hold (who := who) boot
    refine ⟨fun r may known calm => ⟨_, rfl, rillRetrain_counts boot may known calm⟩,
      fun p may known inService spare => ⟨_, rfl, screenRequest_queues boot may known inService spare⟩,
      fun id may => ⟨_, rfl, signatureAck_marks boot may⟩,
      fun e may up gate good => ⟨_, rfl, tierMapEntry_stages boot may up gate good⟩,
      fun v may ahead => ⟨_, rfl, stepGate_opens boot may ahead⟩,
      fun g may low high usable room new => ⟨_, rfl, retireRequest_lists boot may low high usable room new⟩,
      fun v may opened free => ⟨_, rfl, stepFlagRaise_enters boot may opened free⟩,
      fun may => ⟨_, rfl, sticky may⟩, fun may => ⟨_, rfl, riffle may⟩, fun may => ⟨_, rfl, cancel may⟩,
      fun n c may none' closed newest fits => ⟨_, rfl, restoreRequest_begins boot may none' closed newest fits⟩,
      fun sl a v may valid quiet => ⟨_, rfl, offenderLatch_rearms boot may valid quiet⟩,
      fun sl v may valid => ⟨_, rfl, guardRecord_rearms boot may valid⟩,
      fun head granted => ⟨_, rfl, (EventsOutLaws.ring_off can boot _ granted).2.1⟩,
      fun v none' => ⟨fun may => ⟨_, rfl, ?_⟩, fun may => ⟨_, rfl, ?_⟩⟩⟩
    · obtain ⟨-, value, at', -⟩ := EventsOutLaws.snapshotTime_arms can boot v may none'
      exact ⟨value, at' ▸ rfl⟩
    · obtain ⟨-, value, at', -⟩ := EventsOutLaws.snapshotStep_arms can boot v may none'
      exact ⟨value, at'⟩

end Sys2Proof.Claims

/-! PROOF. How a host command ends (R306, R307, R315, R320): its checks, its status and result, and what it writes to host memory. -/

namespace Sys2Proof.QueueLaws

open Sys2Proof.Machine Sys2Proof.Claims

section

variable {s : State} {fn : FnIx} {q : QueueIx} {n : Nat} {c : HostCmd}

/-- R306: a command that may start waits in its queue under its number. -/
theorem startable_reads (h : s.startable fn q n = some c) : c ∈ (s.queue fn q).cmds ∧ c.n = n ∧ c.done = none := by
  unfold State.startable at h
  dsimp only at h
  split at h
  · exact nomatch h
  · split at h
    · exact nomatch h
    next k found =>
      split at h
      · obtain rfl := Option.some.inj h
        have named := Bool.and_eq_true_iff.1 (List.find?_some (p := fun c : HostCmd => c.n == n && c.done.isNone) found)
        exact ⟨List.mem_of_find?_eq_some found, beq_iff_eq.1 named.1, Option.isNone_iff_eq_none.1 named.2⟩
      · exact nomatch h

/-! What the end of a command writes. -/

theorem hosts_commandDone (u : State) (fn q : Nat) (c : HostCmd) (st res : Nat) (dat : List Byte) : Hosts u (u.commandDone fn q c st res dat) := by
  unfold State.commandDone
  dsimp only
  split <;> rfl

/-- R315: an end without data writes nothing to host memory. -/
theorem out_commandDone_nil (u : State) (fn q : Nat) (c : HostCmd) (st res : Nat) : (u.commandDone fn q c st res []).out = u.out := rfl

/-- R315: the data of a command go to its address. -/
theorem out_commandDone (u : State) (fn q : Nat) (c : HostCmd) (st res : Nat) {dat : List Byte} (some' : dat ≠ []) :
    (u.commandDone fn q c st res dat).out.head? = some (.hostWrite fn c.addr dat c.flush) := by
  unfold State.commandDone
  dsimp only
  rw [if_neg (by simpa using some')]
  rfl

/-- A command with its status and result. -/
def doneCmd (x : HostQueue) (c : HostCmd) (st res : Nat) (dat : List Byte) : HostCmd :=
  { c with done := some (st, res), order := x.dones, lines := linesOf dat }

theorem host_commandDone (u : State) (fn q : Nat) (c : HostCmd) (st res : Nat) (dat : List Byte) :
    (u.commandDone fn q c st res dat).host = (u.setQueue fn q { (u.queue fn q).setCmd (doneCmd (u.queue fn q) c st res dat) with
      dones := (u.queue fn q).dones + 1 }).host := by
  unfold State.commandDone
  dsimp only
  split <;> rfl

theorem cmds_commandDone (u : State) (fn q : Nat) (c : HostCmd) (st res : Nat) (dat : List Byte) :
    ((u.commandDone fn q c st res dat).queue fn q).cmds
      = (u.queue fn q).cmds.map fun o => if o.n = c.n then doneCmd (u.queue fn q) c st res dat else o := by
  rw [queue_congr (host_commandDone u fn q c st res dat), queue_setQueue]
  rfl

/-- R306, R315: the command has its status and its result. -/
theorem ended_commandDone {u : State} (may : s.startable fn q n = some c) (host : u.host = s.host) (st res : Nat) (dat : List Byte) :
    Ended (u.commandDone fn q c st res dat) fn q n st res := by
  obtain ⟨mem, named, -⟩ := startable_reads may
  refine ⟨doneCmd (u.queue fn q) c st res dat, ?_, named, rfl⟩
  rw [cmds_commandDone, queue_congr host]
  exact List.mem_map.2 ⟨c, mem, if_pos rfl⟩

/-! The checks that every opcode shares (R307, R320). -/

variable {op : Nat} {w : Bool} {write : HostCmd → Bool} {f : HostCmd → State → Ran}

/-- A command that ends. -/
theorem runCommand_ends (may : MayRun s fn q n op w c) (is : write c = w) {st res : Nat} {dat : List Byte} {u : State}
    (run : f c s = .ends st res dat u) : s.runCommand fn q n op write f = u.commandDone fn q c st res dat := by
  obtain ⟨may, code, formed, granted, -⟩ := may
  have open' : ¬ (¬ c.began = true ∧ ¬ s.permitted fn op (write c) = true) := fun h => h.2 (is ▸ granted)
  unfold State.runCommand
  rw [may]
  dsimp only
  rw [if_neg (not_not_intro code), if_neg (by simp [formed]), if_neg open', run]

/-- A command that has started and goes on. -/
theorem runCommand_goesOn (may : MayRun s fn q n op w c) (is : write c = w) {k : HostCmd} {u : State} (run : f c s = .goesOn k u) :
    s.runCommand fn q n op write f = u.setQueue fn q ((u.queue fn q).setCmd { k with began := true }) := by
  obtain ⟨may, code, formed, granted, -⟩ := may
  have open' : ¬ (¬ c.began = true ∧ ¬ s.permitted fn op (write c) = true) := fun h => h.2 (is ▸ granted)
  unfold State.runCommand
  rw [may]
  dsimp only
  rw [if_neg (not_not_intro code), if_neg (by simp [formed]), if_neg open', run]

/-- A command of a shape that R307 does not allow. -/
theorem runCommand_malformed (may : s.startable fn q n = some c) (code : c.opcode = op) (bad : c.malformed = true) :
    s.runCommand fn q n op write f = s.commandDone fn q c 0x0001 0 [] := by
  unfold State.runCommand
  rw [may]
  dsimp only
  rw [if_neg (not_not_intro code), if_pos bad]

end

variable {s : State} {fn : FnIx} {q : QueueIx} {n : Nat} {c : HostCmd}

/-- R307: any malformed command ends with status 0x0001 and no effect. -/
theorem exec_malformed {i : Instr} {op : Nat} (named : hostCmd i = some (fn, q, n, op)) (may : s.startable fn q n = some c) (code : c.opcode = op)
    (bad : c.malformed = true) : exec i s = .next (s.commandDone fn q c 0x0001 0 []) := by
  unfold hostCmd at named
  split at named
  case h_12 =>
    cases named
    refine congrArg Host.Outcome.next ?_
    unfold moduleResetStep
    rw [may]
    dsimp only
    rw [if_neg (not_not_intro code), if_pos bad]
  case h_13 => exact nomatch named
  all_goals
    cases named
    exact congrArg Host.Outcome.next (runCommand_malformed may code bad)

end Sys2Proof.QueueLaws

/-! PROOF. Host commands that read (R302, R307, R309, R310, R315). -/

namespace Sys2Proof.QueueLaws

open Sys2Proof.Machine Sys2Proof.Claims Sys2Proof.DirLaws

section

variable {s : State} {fn : FnIx} {q : QueueIx} {n : Nat} {c : HostCmd} {op : Nat} {w : Bool} {write : HostCmd → Bool} {f : HostCmd → State → Ran}

/-- A command that only reads ends with its data, if any, at its address. -/
theorem output_done (may : MayRun s fn q n op w c) (is : write c = w) {st k : Nat} {dat : List Byte} (run : f c s = .ends st k dat s)
    (empty : k = 0 → dat = []) (full : k ≠ 0 → dat ≠ []) :
    let t := s.runCommand fn q n op write f
    Ended t fn q n st k ∧ OnlyHost s t ∧ (k = 0 → t.out = s.out) ∧ (k ≠ 0 → t.out.head? = some (.hostWrite fn c.addr dat c.flush)) := by
  intro t
  have ends : t = s.commandDone fn q c st k dat := runCommand_ends may is run
  rw [ends]
  refine ⟨ended_commandDone may.1 rfl .., (hosts_commandDone ..).only, fun none' => ?_, fun some' => out_commandDone _ _ _ _ _ _ (full some')⟩
  rw [empty none', out_commandDone_nil]

/-- R302: the output units that are written, and the status. -/
theorem outputUnits_eq {k st total : Nat} {refused : Option Nat} (h : OutUnits s fn total refused k st) : s.outputUnits fn total refused = (k, st) := by
  unfold State.outputUnits State.refuses
  rcases h with ⟨ats, below, is, rfl⟩ | ⟨translated, rfl, rfl⟩
  · rw [is]
    dsimp only
    rw [ats, decide_eq_true below]
    rfl
  · cases refused with
    | none => rfl
    | some j =>
      refine if_neg fun h => ?_
      obtain ⟨ats, below⟩ := Bool.and_eq_true_iff.1 h
      rcases translated with off | beyond
      · exact absurd (ats.symm.trans off) (by decide)
      · exact absurd (of_decide_eq_true below) (Nat.not_lt.2 (beyond j rfl))

theorem flatMap_range_ne {g : Nat → List Byte} (some' : ∀ i, g i ≠ []) {k : Nat} (h : k ≠ 0) : (List.range k).flatMap g ≠ [] := by
  intro none'
  exact some' 0 (List.flatMap_eq_nil_iff.1 none' 0 (List.mem_range.2 (by omega)))

theorem leBytes_ne {n : Nat} (pos : n ≠ 0) (v : Nat) : leBytes n v ≠ [] := fun h => pos (by rw [← length_leBytes n v, h]; rfl)

end

variable {s : State} {fn : FnIx} {q : QueueIx} {n : Nat} {c : HostCmd}

/-- R307: NOP. -/
theorem hostNop_done (may : MayRun s fn q n 0x00 false c) : Completes (.hostNop fn q n) s fun t => Ended t fn q n 0 0 ∧ OnlyHost s t ∧ t.out = s.out := by
  obtain ⟨ended, only, out, -⟩ := output_done may rfl (f := hostNopRun) (write := fun _ => false) rfl (fun _ => rfl) (fun h => absurd rfl h)
  exact ⟨_, rfl, ended, only, out rfl⟩

/-- R310: TIERMAP_READ. -/
theorem tiermapRead_done {refused : Option Nat} {u st : Nat} (may : MayRun s fn q n 0x29 false c) (known : c.arg 0x20 8 + c.arg 0x28 4 ≤ 2 ^ 34)
    (sized : c.hostBytes = 16 * c.arg 0x28 4) (units : OutUnits s fn (c.arg 0x28 4) refused u st) :
    Completes (.tiermapRead fn q ⟨n, refused⟩) s fun t => Ended t fn q n st u ∧ OnlyHost s t ∧ (u = 0 → t.out = s.out)
      ∧ (u ≠ 0 → t.out.head? =
          some (.hostWrite fn c.addr ((List.range u).flatMap fun i => leBytes 16 (s.page (c.arg 0x20 8 + i))) c.flush)) := by
  refine ⟨_, rfl, output_done may rfl (f := tiermapReadRun fn refused) ?_ (fun none' => ?_) (flatMap_range_ne fun i => leBytes_ne (by decide) _)⟩
  · unfold tiermapReadRun
    dsimp only
    rw [if_neg (by omega), outputUnits_eq units]
  · rw [none']
    rfl

/-- R310: STATE_READ. -/
theorem stateRead_done {refused : Option Nat} {u st : Nat} (may : MayRun s fn q n 0x31 false c) (passes : s.stateCode c = 0)
    (units : OutUnits s fn (c.arg 0x28 4) refused u st) :
    Completes (.stateRead fn q ⟨n, refused⟩) s fun t => Ended t fn q n st u ∧ OnlyHost s t ∧ (u = 0 → t.out = s.out)
      ∧ (u ≠ 0 → t.out.head? = some (.hostWrite fn c.addr
          ((List.range u).flatMap fun i => (s.moments (c.arg 0x20 1) (c.arg 0x24 4 + i)).bytes) c.flush)) := by
  have some' : ∀ m : Moments, m.bytes ≠ [] := fun m => List.append_ne_nil_of_right_ne_nil _ (leBytes_ne (by decide) _)
  refine ⟨_, rfl, output_done may rfl (f := stateReadRun fn refused) ?_ (fun none' => ?_) (flatMap_range_ne fun i => some' _)⟩
  · unfold stateReadRun
    dsimp only
    rw [passes, if_neg (by decide), outputUnits_eq units]
  · rw [none']
    rfl

/-- R309: TILE_READ of one tile. -/
theorem tileRead_done {id k u st : Nat} {refused : Option Nat} (may : MayRun s fn q n 0x11 false c) (one : c.tiles = [id])
    (window : s.inWindow fn id 1 = true) (place : s.place id = .mapped id k) (loaded : s.unloaded [id] = [])
    (sized : c.hostBytes = 256 + 16384 * classBytes k) (units : OutUnits s fn 1 refused u st) :
    Completes (.tileRead fn q ⟨n, refused⟩) s fun t => Ended t fn q n st u ∧ OnlyHost s t ∧ (u = 0 → t.out = s.out)
      ∧ (u = 1 → t.out.head? = some
          (.hostWrite fn c.addr ((s.tile id).sidecarBytes ++ (s.tile id).dataBytes (classBytes k)) c.flush)) := by
  have count : c.arg 0x28 4 = 1 := by
    have := congrArg List.length one
    simpa [HostCmd.tiles] using this
  have first : tileId (c.arg 0x20 8) = id := by
    unfold HostCmd.tiles at one
    rw [count] at one
    exact (List.cons.inj one).1
  have widths : s.widthsOf c = [k] := by
    unfold State.widthsOf State.widthAt
    rw [one, List.map_singleton, place]
    rfl
  have read : s.readTileBytes id = ((s.tile id).sidecarBytes ++ (s.tile id).dataBytes (classBytes k), s) := by
    unfold State.readTileBytes State.readRaw
    rw [place]
  have small : u = 0 ∨ u = 1 := by
    rcases units with ⟨_, below, _⟩ | ⟨_, all, _⟩ <;> omega
  have some' : (s.tile id).sidecarBytes ++ (s.tile id).dataBytes (classBytes k) ≠ [] := by
    unfold Tile.sidecarBytes
    exact List.append_ne_nil_of_left_ne_nil (List.append_ne_nil_of_right_ne_nil _ (leBytes_ne (by decide) _)) _
  have run : ∀ dat, dat = (if u = 0 then [] else (s.tile id).sidecarBytes ++ (s.tile id).dataBytes (classBytes k)) →
      tileReadRun fn refused c s = .ends st u dat s := by
    rintro _ rfl
    unfold tileReadRun
    dsimp only
    rw [one, count, first, loaded, widths, outputUnits_eq units, if_neg (by simp [window]), if_neg (by simp [sized, rawLen]), if_neg (by simp)]
    rcases small with rfl | rfl
    · rfl
    · simp [read]
  obtain ⟨ended, only, none', dat⟩ := output_done may rfl (f := tileReadRun fn refused) (write := fun _ => false) (run _ rfl) (fun h => if_pos h)
    (fun h => by rw [if_neg h]; exact some')
  exact ⟨_, rfl, ended, only, none', fun h => (dat (by omega)).trans (by rw [if_neg (by omega)])⟩

end Sys2Proof.QueueLaws

/-! PROOF. TABLE_LOAD, TIERMAP_WRITE and STATE_WRITE (R48, R169, R310). -/

namespace Sys2Proof.QueueLaws

open Sys2Proof.Machine Sys2Proof.Claims Sys2Proof.StoreTileLaws Sys2Proof.RecordLaws Sys2Proof.RestLaws Sys2Proof.DirLaws Sys2Proof.WorkLaws

section

variable {s u : State} {fn : FnIx} {q : QueueIx} {n : Nat} {c : HostCmd}

theorem cmdFrame_of_hosts (h : Hosts s u) : CmdFrame s u :=
  ⟨h.clock, (congrArg State.pending h :), (congrArg State.supply h :), (congrArg State.nor h :), (congrArg (·.net.rx) h :),
    (congrArg (·.weir.rates) h :)⟩

theorem cmdFrame_trans {t : State} (h : CmdFrame s u) (g : CmdFrame u t) : CmdFrame s t := by
  obtain ⟨h1, h2, h3, h4, h5, h6⟩ := h
  obtain ⟨g1, g2, g3, g4, g5, g6⟩ := g
  exact ⟨g1.trans h1, g2.trans h2, g3.trans h3, g4.trans h4, g5.trans h5, g6.trans h6⟩

theorem cmdFrame_done (h : CmdFrame s u) (fn q : Nat) (c : HostCmd) (st res : Nat) (dat : List Byte) :
    CmdFrame s (u.commandDone fn q c st res dat) := cmdFrame_trans h (cmdFrame_of_hosts (hosts_commandDone ..))

/-! TABLE_LOAD. -/

/-- R48: the registers of the pending set. -/
def loadRegs : List Nat := [P.loadStatus, P.pendingSetId, P.activateStep]

/-- What the check of an image writes. -/
structure Loaded (image : List Byte) (s t : State) : Prop where
  rest : t = { s with params := t.params, seq := { s.seq with pendingSet := t.seq.pendingSet } }
  only : WritesOnly loadRegs s t
  refused : bits (t.val P.loadStatus) 0 8 ≠ 0 → t.seq = s.seq
  taken : bits (t.val P.loadStatus) 0 8 = 0 → t.seq.pendingSet = some (parseSet image) ∧ t.val P.activateStep = 2 ^ 64 - 1

theorem writesOnly_setVal (s : State) {p : Nat} (h : p ∈ loadRegs) (v : Nat) : WritesOnly loadRegs s (s.setVal p v) :=
  .setReg h (by decide) s v

theorem val_setVal_same (s : State) (p v : Nat) : (s.setVal p v).val p = v := Sparse.get_put_same ..

/-- R48: a refused image. -/
theorem loaded_refused (s : State) (image : List Byte) {w : Nat} (bad : bits w 0 8 ≠ 0) : Loaded image s (s.setVal P.loadStatus w) where
  rest := rfl
  only := writesOnly_setVal s (by decide) w
  refused _ := rfl
  taken good := absurd (val_setVal_same s P.loadStatus w ▸ good) bad

/-- The state with a pending set. -/
def pended (s : State) (t : TableSet) : State := { s with seq := { s.seq with pendingSet := some t } }

theorem loaded_loadSet (s : State) (image : List Byte) : Loaded image s (s.loadSet image) := by
  unfold State.loadSet
  extract_lets w a t
  have told : a.val P.loadStatus = w := val_setVal_same ..
  have only : WritesOnly loadRegs s a := writesOnly_setVal s (by decide) w
  split
  next bad => exact loaded_refused s image bad
  next good =>
    let b := pended a t
    have pend : WritesOnly loadRegs a b := .of_params _ rfl
    have named : WritesOnly loadRegs b (b.setVal P.pendingSetId t.setId) := writesOnly_setVal b (by decide) _
    have status : ((b.setVal P.pendingSetId t.setId).setVal P.activateStep (2 ^ 64 - 1)).val P.loadStatus = w := by
      rw [val_setVal_ne _ (by decide), val_setVal_ne _ (by decide)]
      exact told
    exact ⟨rfl, only.trans (pend.trans <| named.trans (writesOnly_setVal _ (by decide) _)), fun bad => absurd (status ▸ bad) good,
      fun _ => ⟨rfl, val_setVal_same ..⟩⟩

theorem headerCode_cases (bs : List Byte) (k : Nat) : headerCode bs k = 0 ∨ headerCode bs k = 1 ∨ headerCode bs k = 2 := by
  unfold headerCode
  split
  · exact .inr (.inl rfl)
  · split
    · exact .inr (.inr rfl)
    · exact .inl rfl

/-- R48, R310: a whole image is checked, and taken where it passes. -/
theorem tableLoadRun_ends {image : List Byte} (whole : image.length = c.hostBytes) (fn : Nat) (s : State) :
    ∃ u, tableLoadRun fn (some image) c s = .ends 0 (u.val P.loadStatus) [] u ∧ Loaded image s u := by
  unfold tableLoadRun
  dsimp only
  rw [if_neg fun h => h.2 whole]
  rcases headerCode_cases image c.hostBytes with code | code | code <;> rw [code]
  · exact ⟨_, by rw [if_neg (by decide), if_neg (not_not_intro whole)], loaded_loadSet s image⟩
  · exact ⟨_, by rw [if_pos (by decide), val_setVal_same], loaded_refused s image (by decide)⟩
  · exact ⟨_, by rw [if_pos (by decide), val_setVal_same], loaded_refused s image (by decide)⟩

/-- R310: TABLE_LOAD. -/
theorem tableLoad_done (can : Canonical s) {image : List Byte} (may : MayRun s fn q n 0x20 true c) (whole : image.length = c.hostBytes) :
    Completes (.tableLoad fn q n (some image)) s fun t => Ended t fn q n 0 (t.val P.loadStatus) ∧ CmdFrame s t ∧ SameStores s t
      ∧ OnlyRegs [P.loadStatus, P.pendingSetId, P.activateStep] s t ∧ t.seq.active = s.seq.active
      ∧ (bits (t.val P.loadStatus) 0 8 ≠ 0 → t.seq = s.seq)
      ∧ (bits (t.val P.loadStatus) 0 8 = 0 → t.seq.pendingSet = some (parseSet image) ∧ t.val P.activateStep = 2 ^ 64 - 1) := by
  obtain ⟨u, run, rest, only, refused, taken⟩ := tableLoadRun_ends whole fn s
  refine ⟨u.commandDone fn q c 0 (u.val P.loadStatus) [], congrArg Host.Outcome.next (runCommand_ends may rfl run), ?_⟩
  have done := hosts_commandDone u fn q c 0 (u.val P.loadStatus) []
  have ended := ended_commandDone may.1 (congrArg State.host rest :) 0 (u.val P.loadStatus) []
  have frame : CmdFrame s u := by
    rw [rest]
    exact ⟨rfl, rfl, rfl, rfl, rfl, rfl⟩
  have stores : SameStores s u := by
    rw [rest]
    exact ⟨rfl, rfl, rfl, rfl⟩
  dsimp only
  rw [done.val, done.val, done.seq]
  exact ⟨ended, cmdFrame_done frame .., sameStores_trans stores done.stores, (only.trans (done.writesOnly _)).regs can.1,
    (congrArg (·.seq.active) rest :), refused, taken⟩

/-! TIERMAP_WRITE. -/

theorem still_stageEntry (s : State) (p w : Nat) : Still s (s.stageEntry p w) := by
  unfold State.stageEntry
  extract_lets code a
  exact .ite rfl (Still.trans (t := { a with mem := { a.mem with staged := a.mem.staged ++ [(p, BitVec.ofNat 128 w)] } }) rfl (.settleStaged _))

theorem still_stageRecords (fn : Nat) (rs : List (Option (List Byte))) (k : Nat) (s : State) : Still s (State.stageRecords fn rs k s).2 := by
  induction rs generalizing k s with
  | nil => exact .refl s
  | cons r rs ih =>
    cases r with
    | none => exact rfl
    | some b =>
      have staged := still_stageEntry s (leField b 0 8) (leField b 16 16)
      unfold State.stageRecords
      dsimp only
      split
      · exact staged
      · exact staged.trans (ih ..)

/-- R169: an entry that does not pass its check. -/
theorem stageEntry_refused {s : State} {p w : Nat} (bad : s.checkEntry p w ≠ 0) : s.stageEntry p w = s.tierStatus (s.checkEntry p w) p := by
  unfold State.stageEntry
  exact if_pos bad

/-- R310: one entry. -/
theorem stageRecords_one (fn : Nat) (b : List Byte) {s : State} (gate : s.gateHolds = false) :
    State.stageRecords fn [some b] 0 s = if s.checkEntry (leField b 0 8) (leField b 16 16) = 0
      then (none, entryStaged s (leField b 0 8) (leField b 16 16))
      else (some (6, 0), s.tierStatus (s.checkEntry (leField b 0 8) (leField b 16 16)) (leField b 0 8)) := by
  unfold State.stageRecords
  dsimp only
  by_cases good : s.checkEntry (leField b 0 8) (leField b 16 16) = 0
  · rw [if_neg (not_not_intro good), if_pos good, stageEntry_waits good gate]
    rfl
  · rw [if_pos good, if_neg good, stageEntry_refused good]

/-- R310: the records that a row brings, where they are all of the command. -/
theorem tiermapWriteRun_ends {rs : List (Option (List Byte))} (fresh : c.units = 0) (outside : c.inline = false) (sized : c.hostBytes = 32 * rs.length)
    (some' : rs ≠ []) (fit : fits (rs.map fun _ => 32) rs = true) (fn : Nat) (s : State) :
    let r := State.stageRecords fn rs 0 s
    tiermapWriteRun fn rs c s = .ends (r.1.getD (0, rs.length)).1 (r.1.getD (0, rs.length)).2 [] r.2 := by
  intro r
  have pos : 0 < rs.length := List.length_pos_iff.2 some'
  unfold tiermapWriteRun
  simp only [outside, sized, fresh, fit, Nat.zero_add, if_false, Bool.false_eq_true]
  rw [if_neg (by simp; omega), if_neg (by simp)]
  show (match r with | (some (status, k), s) => Ran.ends status k [] s | (none, s) => c.advance rs.length (32 * rs.length / 32) s) = _
  obtain ⟨_ | ⟨st, k⟩, v⟩ := r
  · show c.advance _ _ v = _
    unfold HostCmd.advance
    rw [fresh, Nat.zero_add, Nat.mul_div_cancel_left _ (by decide)]
    exact if_neg (Nat.lt_irrefl _)
  · rfl

/-- R169, R310: TIERMAP_WRITE. -/
theorem tiermapWrite_done {rs : List (Option (List Byte))} (may : MayRun s fn q n 0x28 true c) (outside : c.inline = false)
    (sized : c.hostBytes = 32 * rs.length) (some' : rs ≠ []) (fit : fits (rs.map fun _ => 32) rs = true) :
    let r := State.stageRecords fn rs 0 s
    Completes (.tiermapWrite fn q n rs) s fun t => t.mem = r.2.mem ∧ t.clock = s.clock
      ∧ Ended t fn q n (r.1.getD (0, rs.length)).1 (r.1.getD (0, rs.length)).2
      ∧ ∀ b, rs = [some b] → s.gateHolds = false → t.mem.pages = s.mem.pages ∧
        if s.checkEntry (leField b 0 8) (leField b 16 16) = 0 then Ended t fn q n 0 1
          ∧ t.mem.staged = s.mem.staged ++ [(leField b 0 8, BitVec.ofNat 128 (leField b 16 16))]
        else Ended t fn q n 6 0 ∧ t.mem.staged = s.mem.staged := by
  intro r
  have still : Still s r.2 := still_stageRecords fn rs 0 s
  have host : r.2.host = s.host := (congrArg State.host still :)
  have fresh : c.units = 0 := may.2.2.2.2.2.1
  have run : tiermapWriteRun fn rs c s = .ends (r.1.getD (0, rs.length)).1 (r.1.getD (0, rs.length)).2 [] r.2 :=
    tiermapWriteRun_ends fresh outside sized some' fit fn s
  have one : ∀ b, rs = [some b] → s.gateHolds = false → r = if s.checkEntry (leField b 0 8) (leField b 16 16) = 0
      then (none, entryStaged s (leField b 0 8) (leField b 16 16))
      else (some (6, 0), s.tierStatus (s.checkEntry (leField b 0 8) (leField b 16 16)) (leField b 0 8)) := by
    rintro b rfl gate
    exact stageRecords_one fn b gate
  clear_value r
  have done := hosts_commandDone r.2 fn q c (r.1.getD (0, rs.length)).1 (r.1.getD (0, rs.length)).2 []
  have ended := ended_commandDone may.1 host (r.1.getD (0, rs.length)).1 (r.1.getD (0, rs.length)).2 []
  refine ⟨_, congrArg Host.Outcome.next (runCommand_ends may rfl run), done.mem, done.clock.trans (congrArg State.clock still :), ended, ?_⟩
  intro b is gate
  rw [done.mem]
  replace one := one b is gate
  subst is
  by_cases good : s.checkEntry (leField b 0 8) (leField b 16 16) = 0
  · rw [if_pos good] at one ⊢
    subst one
    exact ⟨rfl, ended, rfl⟩
  · rw [if_neg good] at one ⊢
    subst one
    exact ⟨rfl, ended, rfl⟩

/-! STATE_WRITE. -/

theorem find?_put_stored {α : Type} [DecidableEq α] {d : Nat → α} (m : Sparse α) {k : Nat} {v : α} (stored : v ≠ d k) :
    (Sparse.put d m k v).find? (fun kv => kv.1 == k) = some (k, v) := by
  induction m with
  | nil => simp [Sparse.put, stored]
  | cons e m ih =>
    obtain ⟨k', v'⟩ := e
    unfold Sparse.put
    split
    · simp
    · split
      · simp
      next later => rw [List.find?_cons_of_neg (by simpa using fun h => later h.symm), ih]

theorem find?_put_apart {α : Type} [DecidableEq α] {d : Nat → α} (m : Sparse α) {k j : Nat} {v : α} (stored : v ≠ d k) (apart : k ≠ j) :
    (Sparse.put d m k v).find? (fun kv => kv.1 == j) = m.find? fun kv => kv.1 == j := by
  have skip : ∀ w (xs : Sparse α), List.find? (fun kv => kv.1 == j) ((k, w) :: xs) = xs.find? fun kv => kv.1 == j := fun w xs =>
    List.find?_cons_of_neg (by simpa using apart)
  induction m with
  | nil => rw [Sparse.put, if_neg stored, skip]
  | cons e m ih =>
    obtain ⟨k', v'⟩ := e
    unfold Sparse.put
    split
    · rw [skip]
    · split
      next here =>
        subst here
        rw [skip, skip]
      next => rw [List.find?_cons, List.find?_cons, ih]

/-- The stored form of a moment record (R130). -/
def packed (m : Moments) : Sparse Nat := Sparse.put zeros (Sparse.put zeros (Sparse.put zeros (Sparse.put zeros
  (Sparse.put zeros [] 0 m.m1) 1 m.m2) 2 m.s1) 3 m.s2) 4 1

theorem packed_reads (m : Moments) : Sparse.get zeros (packed m) 0 = m.m1 ∧ Sparse.get zeros (packed m) 1 = m.m2
    ∧ Sparse.get zeros (packed m) 2 = m.s1 ∧ Sparse.get zeros (packed m) 3 = m.s2 := by
  unfold packed
  refine ⟨?_, ?_, ?_, ?_⟩
  · rw [Sparse.get_put_ne _ _ (by decide), Sparse.get_put_ne _ _ (by decide), Sparse.get_put_ne _ _ (by decide),
      Sparse.get_put_ne _ _ (by decide), Sparse.get_put_same]
  · rw [Sparse.get_put_ne _ _ (by decide), Sparse.get_put_ne _ _ (by decide), Sparse.get_put_ne _ _ (by decide), Sparse.get_put_same]
  · rw [Sparse.get_put_ne _ _ (by decide), Sparse.get_put_ne _ _ (by decide), Sparse.get_put_same]
  · rw [Sparse.get_put_ne _ _ (by decide), Sparse.get_put_same]

theorem packed_ne (m : Moments) : packed m ≠ [] := fun none' => by
  have marked : Sparse.get zeros (packed m) 4 = 1 := Sparse.get_put_same ..
  rw [none'] at marked
  exact absurd marked (by decide)

theorem putMoments_rest (s : State) (bd r : Nat) (m : Moments) : s.putMoments bd r m = { s with mem := { s.mem with
    moments := Sparse.put (fun _ => []) s.mem.moments (momKey bd r) (packed m), momPoison := (s.putMoments bd r m).mem.momPoison } } := rfl

theorem moments_putMoments_same (s : State) (bd r : Nat) (m : Moments) : (s.putMoments bd r m).moments bd r = m := by
  obtain ⟨m1, m2, s1, s2⟩ := packed_reads m
  have found := find?_put_stored (d := fun _ => []) s.mem.moments (k := momKey bd r) (packed_ne m)
  unfold State.moments
  rw [putMoments_rest]
  dsimp only
  rw [found]
  dsimp only
  rw [m1, m2, s1, s2]

theorem moments_putMoments_apart (s : State) {bd r r' : Nat} (m : Moments) (apart : r ≠ r') :
    (s.putMoments bd r m).moments bd r' = s.moments bd r' := by
  have key : momKey bd r ≠ momKey bd r' := fun h => apart (Nat.add_left_cancel h)
  have found := find?_put_apart (d := fun _ => []) s.mem.moments (packed_ne m) key
  unfold State.moments
  rw [putMoments_rest]
  dsimp only
  rw [found]

/-- What a run of records writes: the moment records from `first + k` on. -/
structure RecordsWritten (bd first k : Nat) (rs : List (List Byte)) (s t : State) : Prop where
  rest : t = { s with mem := { s.mem with moments := t.mem.moments, momPoison := t.mem.momPoison } }
  written : ∀ i, i < rs.length → t.moments bd (first + k + i) = Moments.ofBytes (nth rs i [])
  before : ∀ r, r < first + k → t.moments bd r = s.moments bd r

theorem writeRecords_all (fn bd first : Nat) (rs : List (List Byte)) (k : Nat) (s : State) :
    ∃ t, State.writeRecords fn bd first (rs.map some) k s = (none, t) ∧ RecordsWritten bd first k rs s t := by
  induction rs generalizing k s with
  | nil => exact ⟨s, rfl, rfl, fun _ h => absurd h (Nat.not_lt_zero _), fun _ _ => rfl⟩
  | cons b rs ih =>
    obtain ⟨t, run, rest, written, before⟩ := ih (k + 1) (s.putMoments bd (first + k) (Moments.ofBytes b))
    refine ⟨t, run, rest, fun i hi => ?_, fun r hr => ?_⟩
    · cases i with
      | zero => exact (before (first + k) (by omega)).trans (moments_putMoments_same ..)
      | succ i =>
        have wrote := written i (Nat.lt_of_succ_lt_succ hi)
        rw [show first + (k + 1) + i = first + k + (i + 1) by omega] at wrote
        exact wrote
    · exact (before r (by omega)).trans (moments_putMoments_apart _ _ (by omega))

/-- R310: the records that a row brings. -/
theorem stateWriteRun_goes {rs : List (List Byte)} (fresh : c.units = 0) (passes : s.stateCode c = 0)
    (few : rs.length ≤ c.arg 0x28 4) (fit : fits (rs.map fun _ => 33792) (rs.map some) = true) (fn : Nat) :
    ∃ u, RecordsWritten (c.arg 0x20 1) (c.arg 0x24 4) 0 rs s u
      ∧ (rs.length = c.arg 0x28 4 → stateWriteRun fn (rs.map some) c s = .ends 0 rs.length [] u)
      ∧ (rs.length < c.arg 0x28 4 → stateWriteRun fn (rs.map some) c s = .goesOn { c with units := rs.length } u) := by
  obtain ⟨u, run, wrote⟩ := writeRecords_all fn (c.arg 0x20 1) (c.arg 0x24 4) rs 0 s
  have goes : stateWriteRun fn (rs.map some) c s = c.advance rs.length (c.arg 0x28 4) u := by
    unfold stateWriteRun
    dsimp only
    rw [if_neg fun h => h.2 passes, if_neg, fresh, run, List.length_map]
    rw [fresh, List.length_map, List.map_map]
    exact not_or.2 ⟨by omega, not_not_intro fit⟩
  refine ⟨u, wrote, fun all => ?_, fun part => ?_⟩
  · rw [goes]
    unfold HostCmd.advance
    rw [fresh, Nat.zero_add]
    exact if_neg (by dsimp only; omega)
  · rw [goes]
    unfold HostCmd.advance
    rw [fresh, Nat.zero_add]
    exact if_pos part

/-- R310: STATE_WRITE. -/
theorem stateWrite_done {rs : List (List Byte)} (may : MayRun s fn q n 0x30 true c) (passes : s.stateCode c = 0)
    (few : rs.length ≤ c.arg 0x28 4) (fit : fits (rs.map fun _ => 33792) (rs.map some) = true) :
    Completes (.stateWrite fn q n (rs.map some)) s fun t => SameStores s t ∧ t.params = s.params ∧ CmdFrame s t
      ∧ (∀ i, i < rs.length → t.moments (c.arg 0x20 1) (c.arg 0x24 4 + i) = Moments.ofBytes (nth rs i []))
      ∧ (rs.length = c.arg 0x28 4 → Ended t fn q n 0 rs.length)
      ∧ (rs.length < c.arg 0x28 4 → ∃ k ∈ (t.queue fn q).cmds, k.n = n ∧ k.done = none ∧ k.began = true ∧ k.units = rs.length) := by
  obtain ⟨-, -, -, -, -, fresh, -⟩ := id may
  obtain ⟨u, ⟨rest, written, -⟩, ends, goesOn⟩ := stateWriteRun_goes fresh passes few fit fn
  have host : u.host = s.host := (congrArg State.host rest :)
  have keeps : ∀ t, Hosts u t → SameStores s t ∧ t.params = s.params ∧ CmdFrame s t
      ∧ ∀ i, i < rs.length → t.moments (c.arg 0x20 1) (c.arg 0x24 4 + i) = Moments.ofBytes (nth rs i []) := by
    intro t done
    have frame : CmdFrame s u := by
      rw [rest]
      exact ⟨rfl, rfl, rfl, rfl, rfl, rfl⟩
    have stores : SameStores s u := by
      rw [rest]
      exact ⟨rfl, rfl, rfl, rfl⟩
    refine ⟨sameStores_trans stores done.stores, done.params.trans (congrArg State.params rest :), cmdFrame_trans frame (cmdFrame_of_hosts done),
      fun i hi => ?_⟩
    unfold State.moments
    rw [done.mem]
    exact written i hi
  by_cases all : rs.length = c.arg 0x28 4
  · obtain ⟨stores, params, frame, records⟩ := keeps _ (hosts_commandDone u fn q c 0 rs.length [])
    exact ⟨_, congrArg Host.Outcome.next (runCommand_ends may rfl (ends all)), stores, params, frame, records,
      fun _ => ended_commandDone may.1 host .., fun part => absurd all (by omega)⟩
  · have part : rs.length < c.arg 0x28 4 := by omega
    obtain ⟨mem, named, open'⟩ := startable_reads may.1
    let k : HostCmd := { c with units := rs.length, began := true }
    obtain ⟨stores, params, frame, records⟩ := keeps _ (Hosts.setQueue u fn q ((u.queue fn q).setCmd k))
    refine ⟨_, congrArg Host.Outcome.next (runCommand_goesOn may rfl (goesOn part)), stores, params, frame, records,
      fun h => absurd h all, fun _ => ⟨k, ?_, named, open', rfl, rfl⟩⟩
    rw [queue_setQueue, queue_congr host]
    exact List.mem_map.2 ⟨c, mem, if_pos rfl⟩

end

end Sys2Proof.QueueLaws

/-! PROOF. TILE_WRITE, raw and converted (R159, R308, R315). -/

namespace Sys2Proof.QueueLaws

open Sys2Proof.Machine Sys2Proof.Claims Sys2Proof.StoreTileLaws Sys2Proof.RecordLaws Sys2Proof.WorkLaws Sys2Proof.PaceLaws Sys2Proof.StepLaws

/-! One tile. -/

/-- Only the tiles `ids` are written, with their logical units; counters may count. -/
structure TilesOnly (ids : List Nat) (s t : State) : Prop where
  rest : t = { s with params := t.params, flash := t.flash, mem := { s.mem with tiles := t.mem.tiles } }
  other : ∀ j, j ∉ ids → t.tile j = s.tile j

theorem tilesOnly_putStored (s : State) (id : Nat) (tl : Tile) : TilesOnly [id] s (s.putStored id tl) := by
  unfold State.putStored
  extract_lets e a
  have tiles : ∀ j, j ∉ [id] → a.tile j = s.tile j := fun j hj => Sparse.get_put_ne s.mem.tiles tl (List.ne_of_not_mem_cons hj)
  split
  · exact ⟨rfl, tiles⟩
  · exact ⟨rfl, tiles⟩

theorem tile_putStored (s : State) (id : Nat) (tl : Tile) : (s.putStored id tl).tile id = tl := by
  rw [State.tile, show (s.putStored id tl).mem.tiles = Sparse.put tileDefault s.mem.tiles id tl from (writesTile_putStored s id tl).tiles]
  exact Sparse.get_put_same ..

/-- R159: a tile of the host at a mapped page. -/
theorem tilesOnly_hostStore {s : State} {id k : Nat} (place : s.place id = .mapped id k) (cls : Nat) (tl : Tile) :
    TilesOnly [id] s (s.hostStore id cls tl).2 ∧ (cls = k → (s.hostStore id cls tl).2.tile id = tl) := by
  unfold State.hostStore
  by_cases same : cls = k
  · subst same
    rw [storeTile_same_class 64 tl place]
    exact ⟨tilesOnly_putStored s id tl, fun _ => tile_putStored s id tl⟩
  · rw [storeTile_other_class 64 tl place same]
    obtain ⟨rest, other⟩ := tilesOnly_putStored s id (tl.poisonAs (classFmt k))
    refine ⟨⟨?_, other⟩, fun h => absurd h same⟩
    generalize s.putStored id (tl.poisonAs (classFmt k)) = v at rest
    show v.bump64 P.widthFaults 64 1 = _
    rw [rest]
    rfl

/-- R308 Mode 0: one tile whose digest is not asked for. -/
theorem tilesOnly_writeRawTile {s : State} {id k : Nat} (place : s.place id = .mapped id k) (input : List Byte) :
    TilesOnly [id] s (s.writeRawTile false k id input).2
      ∧ (codeClass (rawTile (classBytes k) input).2.2 = k →
          (s.writeRawTile false k id input).2.tile id = (rawTile (classBytes k) input).1) := by
  unfold State.writeRawTile
  obtain ⟨tl, bad, f⟩ := rawTile (classBytes k) input
  dsimp only
  rw [if_neg (by simp)]
  obtain ⟨only, stored⟩ := tilesOnly_hostStore place (if (codeClass f == k) = true then k else 3) tl
  exact ⟨only, fun same => stored (if_pos (beq_iff_eq.2 same))⟩

/-! The tiles of a row. -/

theorem TilesOnly.trans {is js : List Nat} {s t u : State} (h : TilesOnly is s t) (g : TilesOnly js t u) : TilesOnly (is ++ js) s u :=
  ⟨by rw [g.rest, h.rest], fun j hj => by
    obtain ⟨first, then'⟩ := not_or.1 (mt List.mem_append.2 hj)
    exact (g.other j then').trans (h.other j first)⟩

theorem place_congr {s t : State} (pages : t.mem.pages = s.mem.pages) (id : Nat) : t.place id = s.place id := by
  have page : ∀ p, t.page p = s.page p := fun p => by rw [State.page, pages, State.page]
  unfold State.place
  simp only [page]

section

variable {s : State} {fn : Nat} {lostFmt : State → Nat → Nat} {one : State → Nat → Nat → List Byte → Bool × State}

/-- The fold of `State.writeUnits`. -/
def writeUnit (fn : Nat) (lostFmt : State → Nat → Nat) (one : State → Nat → Nat → List Byte → Bool × State) (a : Nat × State)
    (x : (Nat × Nat) × Option (List Byte)) : Nat × State :=
  match x.2 with
  | none => (a.1, a.2.writeLostTile fn x.1.2 (lostFmt a.2 x.1.2))
  | some bs => (a.1 + b2n (one a.2 x.1.1 x.1.2 bs).1, (one a.2 x.1.1 x.1.2 bs).2)

theorem writeUnits_eq (s : State) (todo : List (Nat × Nat)) (us : List (Option (List Byte))) :
    s.writeUnits fn lostFmt one todo us = (todo.zip us).foldl (writeUnit fn lostFmt one) (0, s) := rfl

/-- R308: tiles that are written in turn, each once. -/
theorem tilesOnly_writeUnits {Holds : Nat → Nat → List Byte → Tile → Prop} (todo : List (Nat × Nat)) (us : List (List Byte)) (a : Nat × State)
    (once : (todo.map Prod.snd).Nodup)
    (wrote : ∀ x ∈ todo, ∀ bs (v : State), v.mem.pages = a.2.mem.pages → TilesOnly [x.2] v (one v x.1 x.2 bs).2
      ∧ ∀ tl, Holds x.1 x.2 bs tl → (one v x.1 x.2 bs).2.tile x.2 = tl) :
    let t := ((todo.zip (us.map some)).foldl (writeUnit fn lostFmt one) a).2
    TilesOnly (todo.map Prod.snd) a.2 t ∧ ∀ x ∈ todo.zip us, ∀ tl, Holds x.1.1 x.1.2 x.2 tl → t.tile x.1.2 = tl := by
  induction todo generalizing us a with
  | nil => exact ⟨⟨rfl, fun _ _ => rfl⟩, fun x hx => absurd hx (by simp)⟩
  | cons i todo ih =>
    cases us with
    | nil => exact ⟨⟨rfl, fun _ _ => rfl⟩, fun x hx => absurd hx (by simp)⟩
    | cons bs us =>
      obtain ⟨first, fresh⟩ := List.nodup_cons.1 once
      obtain ⟨only, holds⟩ := wrote i (List.mem_cons_self ..) bs a.2 rfl
      have next : (writeUnit fn lostFmt one a (i, some bs)).2 = (one a.2 i.1 i.2 bs).2 := rfl
      have step : ((i :: todo).zip ((bs :: us).map some)).foldl (writeUnit fn lostFmt one) a
          = (todo.zip (us.map some)).foldl (writeUnit fn lostFmt one) (writeUnit fn lostFmt one a (i, some bs)) := rfl
      rw [step]
      rw [← next] at only holds
      generalize writeUnit fn lostFmt one a (i, some bs) = v at only holds ⊢
      have pages : v.2.mem.pages = a.2.mem.pages := (congrArg (·.mem.pages) only.rest :)
      obtain ⟨only', holds'⟩ := ih us v fresh fun x hx bs w hw => wrote x (List.mem_cons_of_mem _ hx) bs w (hw.trans pages)
      refine ⟨only.trans only', fun x hx tl h => ?_⟩
      rcases List.mem_cons.1 hx with rfl | later
      · exact (only'.other _ first).trans (holds tl h)
      · exact holds' x later tl h

/-! The run of the command. -/

variable {c : HostCmd}

/-- The units that are still to be written of a command that has just started. -/
theorem todo_all (c : HostCmd) {us : List (List Byte)} (all : us.length = c.arg 0x28 4) :
    (((List.range (c.arg 0x28 4)).zip c.tiles).drop 0).take (us.map some).length = (List.range (c.arg 0x28 4)).zip c.tiles := by
  rw [List.drop_zero, List.length_map, all]
  exact List.take_of_length_le (by simp [HostCmd.tiles])

theorem ids_all (c : HostCmd) : ((List.range (c.arg 0x28 4)).zip c.tiles).map Prod.snd = c.tiles :=
  List.map_snd_zip (by simp [HostCmd.tiles])

/-- R308: a row that brings all units of a TILE_WRITE. -/
theorem tileWriteNext_all {Holds : Nat → Nat → List Byte → Tile → Prop} {len : Nat → Nat} {us : List (List Byte)} (fresh : c.units = 0)
    (whole : c.lost = false) (all : us.length = c.arg 0x28 4) (loaded : s.unloaded c.tiles = []) (once : c.tiles.Nodup)
    (fit : fits (((List.range (c.arg 0x28 4)).zip c.tiles).map fun x => len x.1) (us.map some) = true)
    (wrote : ∀ x ∈ (List.range (c.arg 0x28 4)).zip c.tiles, ∀ bs (v : State), v.mem.pages = s.mem.pages →
      TilesOnly [x.2] v (one v x.1 x.2 bs).2 ∧ ∀ tl, Holds x.1 x.2 bs tl → (one v x.1 x.2 bs).2.tile x.2 = tl) :
    ∃ u, s.tileWriteNext fn len lostFmt one (us.map some) c = .ends 0 us.length [] (u.tileSignal c) ∧ TilesOnly c.tiles s u
      ∧ ∀ x ∈ ((List.range (c.arg 0x28 4)).zip c.tiles).zip us, ∀ tl, Holds x.1.1 x.1.2 x.2 tl → u.tile x.1.2 = tl := by
  obtain ⟨only, holds⟩ := tilesOnly_writeUnits (Holds := Holds) (fn := fn) (lostFmt := lostFmt) ((List.range (c.arg 0x28 4)).zip c.tiles) us (0, s)
    ((ids_all c).symm ▸ once) wrote
  rw [ids_all] at only
  have kept : (us.map some).any (fun u => u.isNone) = false := by simp
  refine ⟨_, ?_, only, holds⟩
  unfold State.tileWriteNext
  dsimp only
  rw [fresh, todo_all c all, if_neg (not_not_intro fit), if_neg (not_not_intro ((congrArg s.unloaded (ids_all c)).trans loaded)), writeUnits_eq,
    whole, kept, List.length_map, Nat.zero_add]
  exact (if_neg (show ¬ us.length < c.arg 0x28 4 by omega)).trans rfl

/-! The signal of a TILE_WRITE. -/

theorem rates_account {sl : Nat} (hsl : sl < 64) (s : State) : (s.account sl).weir.rates = s.weir.rates := by
  have passed := (pauses_catchUp (b := sl / 8) (by omega) s).rates
  unfold State.account
  generalize s.catchUp (sl / 8) = v at passed
  dsimp only
  split <;> exact passed

theorem rates_applyRaise (s : State) {r : HeldRaise} (hsl : r.slot < 64) : (s.applyRaise r).weir.rates = s.weir.rates := by
  have counted := rates_account hsl s
  unfold State.applyRaise
  split
  · unfold State.addToken
    generalize s.account r.slot = v at counted
    dsimp only
    split <;> exact counted
  · split <;> rfl

/-- R308: a signal raises a token. -/
theorem tileSignal_keeps (s : State) (c : HostCmd) : Books s (s.tileSignal c) ∧ (s.tileSignal c).weir.rates = s.weir.rates := by
  have slot : bits (c.arg 0x30 4) 0 6 < 64 := Nat.mod_lt _ (by decide)
  unfold State.tileSignal
  extract_lets sig
  split
  · exact ⟨.refl s, rfl⟩
  · exact ⟨.applyRaise s slot, rates_applyRaise s slot⟩

/-- What a TILE_WRITE that ends leaves, and its tiles. -/
theorem tileWrite_ends {fn : FnIx} {q : QueueIx} {n : Nat} {f : HostCmd → State → Ran} (may : MayRun s fn q n 0x10 true c) {u : State} {k : Nat}
    (run : f c s = .ends 0 k [] (u.tileSignal c)) (only : TilesOnly c.tiles s u) :
    let t := s.runCommand fn q n 0x10 (fun _ => true) f
    Ended t fn q n 0 k ∧ CmdFrame s t ∧ t.mem.pages = s.mem.pages ∧ (∀ id, id ∉ c.tiles → t.tile id = s.tile id) ∧ ∀ id, t.tile id = u.tile id := by
  intro t
  obtain ⟨books, rates⟩ := tileSignal_keeps u c
  have ends : t = (u.tileSignal c).commandDone fn q c 0 k [] := runCommand_ends may rfl run
  rw [ends]
  generalize u.tileSignal c = w at books rates
  have rest := books.rest
  have done := hosts_commandDone w fn q c 0 k []
  have mem : w.mem = u.mem := (congrArg State.mem rest :)
  have tile : ∀ id, (w.commandDone fn q c 0 k []).tile id = u.tile id := fun id => by rw [State.tile, done.mem, mem, State.tile]
  have frame : CmdFrame s u := by
    rw [only.rest]
    exact ⟨rfl, rfl, rfl, rfl, rfl, rfl⟩
  have signalled : CmdFrame u w := ⟨(congrArg State.clock rest :), (congrArg State.pending rest :), (congrArg State.supply rest :),
    (congrArg State.nor rest :), (congrArg (·.net.rx) rest :), rates⟩
  refine ⟨ended_commandDone may.1 ((congrArg State.host rest :).trans (congrArg State.host only.rest :)) .., cmdFrame_done (cmdFrame_trans frame signalled) ..,
    ?_, fun id hid => (tile id).trans (only.other id hid), tile⟩
  rw [done.mem, mem]
  exact (congrArg (·.mem.pages) only.rest :)

/-! Both modes (R308). -/

variable {fn : FnIx} {q : QueueIx} {n : Nat}

theorem mem_zip_range {ids : List Nat} {us : List (List Byte)} {x : Nat × List Byte} (h : x ∈ ids.zip us) :
    ∃ i, ((i, x.1), x.2) ∈ ((List.range ids.length).zip ids).zip us := by
  obtain ⟨i, hi, rfl⟩ := List.mem_iff_getElem.1 h
  rw [List.length_zip] at hi
  refine ⟨i, List.mem_iff_getElem.2 ⟨i, ?_, ?_⟩⟩
  · simp only [List.length_zip, List.length_range]
    omega
  · simp

theorem length_of_fits {lens : List Nat} {us : List (Option (List Byte))} (fit : fits lens us = true) : lens.length = us.length :=
  beq_iff_eq.1 (Bool.and_eq_true_iff.1 fit).1

theorem length_tiles (c : HostCmd) : c.tiles.length = c.arg 0x28 4 := by simp [HostCmd.tiles]

/-- R308 Mode 1. -/
theorem tileWriteConvert_done {us : List (List Byte)} (may : MayRun s fn q n 0x10 true c) (passes : s.tileWriteCode fn c = 0)
    (loaded : s.unloaded c.tiles = []) (once : c.tiles.Nodup) (mode : c.arg 0x2C 1 = 1)
    (places : ∀ id ∈ c.tiles, s.place id = .mapped id (fmtClass (Fmt.ofCodeD (c.arg 0x2E 1))))
    (sized : c.hostBytes = 16384 * (Fmt.ofCodeD (c.arg 0x2D 1)).bytes * us.length)
    (fit : fits (c.tiles.map fun _ => 16384 * (Fmt.ofCodeD (c.arg 0x2D 1)).bytes) (us.map some) = true) :
    Completes (.tileWriteConvert fn q n (us.map some)) s fun t => Ended t fn q n 0 us.length ∧ CmdFrame s t
      ∧ t.mem.pages = s.mem.pages ∧ (∀ id, id ∉ c.tiles → t.tile id = s.tile id)
      ∧ ∀ x ∈ c.tiles.zip us, t.tile x.1
          = convertedTile (Fmt.ofCodeD (c.arg 0x2D 1)) (Fmt.ofCodeD (c.arg 0x2E 1)) (bit (c.arg 0x2F 1) 0) x.2 := by
  obtain ⟨-, -, -, -, began, fresh, -, whole⟩ := id may
  generalize hsrc : Fmt.ofCodeD (c.arg 0x2D 1) = src at *
  generalize hdst : Fmt.ofCodeD (c.arg 0x2E 1) = dst at *
  have all : us.length = c.arg 0x28 4 := by
    have := length_of_fits fit
    rw [List.length_map, List.length_map, length_tiles] at this
    exact this.symm
  have wide : (dst == .fp32 && c.tiles.any fun id => ((s.widthAt id).map fun w => decide (w < 2)).getD false) = false := by
    by_cases is : dst = .fp32
    · rw [is] at places
      have : c.tiles.any (fun id => ((s.widthAt id).map fun w => decide (w < 2)).getD false) = false :=
        List.any_eq_false.2 fun id hid => by
          unfold State.widthAt
          rw [places id hid]
          exact Bool.false_ne_true
      rw [this, Bool.and_false]
    · rw [beq_false_of_ne is, Bool.false_and]
  have lens : (((List.range (c.arg 0x28 4)).zip c.tiles).map fun _ => 16384 * src.bytes) = c.tiles.map fun _ => 16384 * src.bytes := by
    rw [List.map_const', List.map_const', List.length_zip, List.length_range, length_tiles, Nat.min_self]
  obtain ⟨u, run, only, holds⟩ := tileWriteNext_all (s := s) (fn := fn) (lostFmt := fun _ _ => dst.code)
    (one := fun s _ id bs => s.hostStore id (fmtClass dst) (convertedTile src dst (bit (c.arg 0x2F 1) 0) bs))
    (Holds := fun _ _ bs tl => tl = convertedTile src dst (bit (c.arg 0x2F 1) 0) bs) (len := fun _ => 16384 * src.bytes) fresh whole all loaded once
    (by rw [lens]; exact fit) fun x hx bs v pages => by
      obtain ⟨only, stored⟩ := tilesOnly_hostStore ((place_congr pages x.2).trans (places x.2 (List.of_mem_zip hx).2)) (fmtClass dst)
        (convertedTile src dst (bit (c.arg 0x2F 1) 0) bs)
      exact ⟨only, fun tl is => (stored rfl).trans is.symm⟩
  have go : tileWriteConvertRun fn (us.map some) c s = .ends 0 us.length [] (u.tileSignal c) := by
    unfold tileWriteConvertRun
    dsimp only
    rw [hsrc, hdst, if_neg (not_not_intro mode), if_neg (by rw [began]; decide), if_neg (not_not_intro passes), if_neg]
    · exact run
    · rw [wide, sized, all]
      simp
  obtain ⟨ended, frame, pages, other, tile⟩ := tileWrite_ends may go only
  refine ⟨_, rfl, ended, frame, pages, other, fun x hx => ?_⟩
  obtain ⟨i, at'⟩ := mem_zip_range hx
  rw [length_tiles] at at'
  exact (tile x.1).trans (holds _ at' _ rfl)

/-- R308 Mode 0. -/
theorem tileWriteRaw_done {us : List (List Byte)} (may : MayRun s fn q n 0x10 true c) (passes : s.tileWriteCode fn c = 0)
    (loaded : s.unloaded c.tiles = []) (once : c.tiles.Nodup) (places : ∀ id ∈ c.tiles, ∃ k, s.place id = .mapped id k)
    (mode : c.arg 0x2C 1 = 0) (unverified : bit (c.arg 0x2F 1) 1 = false) (sized : c.hostBytes = (rawLens s c).foldl (· + ·) 0)
    (fit : fits (rawLens s c) (us.map some) = true) :
    Completes (.tileWriteRaw fn q n (us.map some)) s fun t => Ended t fn q n 0 us.length ∧ CmdFrame s t
      ∧ t.mem.pages = s.mem.pages ∧ (∀ id, id ∉ c.tiles → t.tile id = s.tile id)
      ∧ ∀ x ∈ c.tiles.zip us, ∀ k, s.place x.1 = .mapped x.1 k → codeClass (rawTile (classBytes k) x.2).2.2 = k →
          t.tile x.1 = (rawTile (classBytes k) x.2).1 := by
  obtain ⟨-, -, -, -, began, fresh, -, whole⟩ := id may
  have count : (s.widthsOf c).length = c.arg 0x28 4 := by rw [State.widthsOf, List.length_map, length_tiles]
  have all : us.length = c.arg 0x28 4 := by
    have := length_of_fits fit
    rw [rawLens, List.length_map, List.length_map, count] at this
    exact this.symm
  have width : ∀ x ∈ (List.range (c.arg 0x28 4)).zip c.tiles, nth (s.widthsOf c) x.1 0 = (s.widthAt x.2).getD 0 := by
    intro x hx
    obtain ⟨i, hi, rfl⟩ := List.mem_iff_getElem.1 hx
    have low : i < (s.widthsOf c).length := by
      rw [List.length_zip, List.length_range] at hi
      omega
    simp only [List.getElem_zip, List.getElem_range]
    rw [nth, List.getD_eq_getElem _ _ low]
    simp [State.widthsOf]
  have lens : (((List.range (c.arg 0x28 4)).zip c.tiles).map fun x => rawLen (nth (s.widthsOf c) x.1 0)) = rawLens s c := by
    rw [List.map_congr_left fun x hx => congrArg rawLen (width x hx), rawLens, State.widthsOf, List.map_map]
    conv_rhs => rw [← ids_all c, List.map_map]
    rfl
  obtain ⟨u, run, only, holds⟩ := tileWriteNext_all (s := s) (fn := fn) (c := { c with widths := s.widthsOf c })
    (lostFmt := fun s id => classFmt ((s.widthAt id).getD 0)) (one := fun v i => v.writeRawTile (bit (c.arg 0x2F 1) 1) (nth (s.widthsOf c) i 0))
    (Holds := fun i id bs tl => ∃ k, s.place id = .mapped id k ∧ codeClass (rawTile (classBytes k) bs).2.2 = k ∧ tl = (rawTile (classBytes k) bs).1)
    (len := fun i => rawLen (nth (s.widthsOf c) i 0)) fresh whole all loaded once
    (by exact lens.symm ▸ fit) fun x hx bs v pages => by
      obtain ⟨k, place⟩ := places x.2 (List.of_mem_zip hx).2
      have is : nth (s.widthsOf c) x.1 0 = k := by
        rw [width x hx, State.widthAt, place]
        rfl
      obtain ⟨only, stored⟩ := tilesOnly_writeRawTile ((place_congr pages x.2).trans place) bs
      rw [unverified, is]
      refine ⟨only, fun tl h => ?_⟩
      obtain ⟨k', place', same, rfl⟩ := h
      obtain rfl : k' = k := (Place.mapped.inj (place'.symm.trans place)).2
      exact stored same
  have go : tileWriteRawRun fn (us.map some) c s = .ends 0 us.length [] (u.tileSignal c) := by
    unfold tileWriteRawRun
    dsimp only
    rw [if_neg (by rw [mode]; decide), if_neg (by rw [began]; decide), if_neg (not_not_intro passes)]
    exact (if_neg (not_not_intro sized)).trans run
  obtain ⟨ended, frame, pages, other, tile⟩ := tileWrite_ends may go only
  refine ⟨_, rfl, ended, frame, pages, other, fun x hx k place same => ?_⟩
  obtain ⟨i, at'⟩ := mem_zip_range hx
  rw [length_tiles] at at'
  exact (tile x.1).trans (holds _ at' _ ⟨k, place, same, rfl⟩)

end

end Sys2Proof.QueueLaws

/-! PROOF. A directory message leaves the host's books as they are (R331, R332), and PARAM (R310, R334, R335). -/

namespace Sys2Proof.QueueLaws

open Sys2Proof.Machine Sys2Proof.Claims Sys2Proof.RecordLaws Sys2Proof.RestLaws Sys2Proof.StepLaws Sys2Proof.HeldLaws Sys2Proof.BootLaws
  Sys2Proof.StoreTileLaws

/-! What a write of the directory does beyond its parameter. -/

theorem host_foldl {α : Type} {f : State → α → State} (hf : ∀ v x, (f v x).host = v.host) (xs : List α) (s : State) : (xs.foldl f s).host = s.host := by
  induction xs generalizing s with
  | nil => rfl
  | cons x xs ih => exact (ih _).trans (hf s x)

theorem host_ite {c : Prop} [Decidable c] {s t u : State} (ht : t.host = s.host) (hu : u.host = s.host) : (if c then t else u).host = s.host := by
  split <;> assumption

theorem host_answer {α : Type} {c : Prop} [Decidable c] {s : State} {x y : α × State} (hx : x.2.host = s.host) (hy : y.2.host = s.host) :
    (if c then x else y).2.host = s.host := by
  split <;> assumption

theorem host_of_still {s t : State} (h : Still s t) : t.host = s.host := (congrArg State.host h :)

theorem host_settleHeld (s : State) : s.settleHeld.host = s.host := by
  unfold State.settleHeld
  split
  · exact (congrArg State.host (Steady.applyHeldAll s) :)
  · rfl

theorem host_report (s : State) (v : Verdict) : (s.report v).host = s.host := (congrArg State.host (report_reads s v).1 :)

theorem host_retireGranule (s : State) (g : Nat) : (s.retireGranule g).host = s.host := by
  unfold State.retireGranule
  extract_lets set list filling
  have kept : ∀ v c, (set v c).host = v.host := fun _ _ => rfl
  have listed : ∀ v d, (list v d).host = v.host := fun _ _ => rfl
  clear_value set list
  split
  · exact kept ..
  · split
    · exact kept ..
    · split
      · exact kept ..
      · split
        · exact kept ..
        · split
          · exact (kept ..).trans (listed ..)
          · split
            · exact (kept ..).trans (listed ..)
            · split
              · exact (kept ..).trans (listed ..)
              · split
                next found => exact (kept ..).trans ((host_of_still (Still.startMigration found)).trans (listed ..))
                next => exact (kept ..).trans (listed ..)

theorem host_beginRestore (s : State) (n : Nat) : (s.beginRestore n).host = s.host := by
  unfold State.beginRestore
  split
  · rfl
  · split
    · rfl
    · split
      · rfl
      · exact host_foldl (f := fun s (r : StepRec) => s.skipStep r.step 5 0) (fun v r => (congrArg State.host (decides_skipStep v r.step 5 0).rest :)) s.upd.steps s

theorem host_fwCommand (s : State) (c : Nat) : (s.fwCommand c).2.host = s.host := by
  unfold State.fwCommand
  split
  · rfl
  · split
    · split <;> rfl
    · split
      · rfl
      · split <;> rfl
    · exact (congrArg State.host (confirms_confirm s).rest :)
    · rfl
    · rfl

theorem host_requestScreen (s : State) (p : Nat) : (s.requestScreen p).2.host = s.host := by
  unfold State.requestScreen
  extract_lets code a
  show (if code = 0 then { a with panel := { a.panel with class2 := a.panel.class2 ++ [p] } } else a).host = _
  split <;> rfl

theorem host_startHandshake (s : State) (r : Nat) : (s.startHandshake r).host = s.host := by
  unfold State.startHandshake
  extract_lets x
  split <;> rfl

theorem host_rearmLatch (s : State) (i : Nat) : (s.rearmLatch i).host = s.host := by
  unfold State.rearmLatch
  extract_lets p
  split
  · rfl
  · split <;> rfl

theorem host_enableRing (s : State) (v head : Nat) : (s.enableRing v head).2.host = s.host := by
  unfold State.enableRing
  split
  · rfl
  · dsimp only
    split <;> rfl

theorem host_afterWrite (s : State) (p : Nat) : (s.afterWrite p).host = s.host := by
  unfold State.afterWrite
  split
  · exact (host_of_still (.settleStaged _)).trans (host_settleHeld s)
  · split <;> rfl

theorem host_stageEntry (s : State) (p w : Nat) : (s.stageEntry p w).host = s.host := host_of_still (still_stageEntry s p w)

/-! A write of each kind (R325 to R327). -/

theorem host_writeHeld (s : State) (p off : Nat) (bytes : List Byte) : (s.writeHeld p off bytes).2.host = s.host := by
  unfold State.writeHeld
  split
  · rfl
  · extract_lets h v a n b
    have told : a.host = s.host := host_report s v
    have settled : b.host = a.host := host_settleHeld _
    split
    · exact told
    · split
      · exact settled.trans told
      · exact settled.trans told

theorem host_writeRw (s : State) (p off head : Nat) (bytes : List Byte) : (s.writeRw p off head bytes).2.host = s.host := by
  unfold State.writeRw
  extract_lets v value m c a rights code b
  have told : a.host = s.host := host_report s c
  have same : ∀ u : State, (value u).2 = u := fun _ => rfl
  clear_value value
  refine host_answer ((same a).symm ▸ told) (host_answer (host_answer ((same a).symm ▸ told) told) (host_answer ?_ (host_answer ?_ ?_)))
  · have staged : b.host = s.host := (host_stageEntry ..).trans told
    exact host_answer ((same b).symm ▸ staged) staged
  · have on := host_enableRing a v head
    split
    next ok u run =>
      rw [run] at on
      exact host_answer (on.trans told) ((same u).symm ▸ on.trans told)
  · refine host_answer (host_answer ((same _).symm ▸ told) (host_ite (s := s) told told)) (host_answer (host_ite (s := s) told told)
      (host_answer (host_ite (s := s) ((host_rearmLatch ..).trans told) told) ?_))
    exact (host_afterWrite ..).trans told

theorem host_writeWo (s : State) (p off : Nat) (bytes : List Byte) : (s.writeWo p off bytes).2.host = s.host := by
  have staged : ∀ xs : List (Nat × Nat), (xs.foldl (fun s (i, x) => s.stage (off / 4096 + i) x) s).host = s.host := fun xs =>
    host_foldl (f := fun s (x : Nat × Nat) => s.stage (off / 4096 + x.1) x.2) (fun _ _ => rfl) xs s
  unfold State.writeWo
  extract_lets v
  refine host_answer (host_ite rfl rfl) (host_answer (host_retireGranule s v) (host_answer (host_of_still (.condition ..)) (host_answer (host_ite rfl rfl)
    (host_answer (host_ite rfl rfl) (host_answer ?restore (host_answer rfl (host_answer (host_answer rfl (staged _)) (host_answer ?command
      (host_answer ?screen (host_answer (host_answer rfl (host_startHandshake s v)) rfl))))))))))
  case restore => exact host_answer rfl (host_answer (host_beginRestore s v) (host_beginRestore s v))
  case command => exact host_fwCommand s v
  case screen => exact host_requestScreen s v

/-! The records of a message. -/

theorem host_writeParam (s : State) (who : Requester) (p off head : Nat) (bytes : List Byte) :
    (s.writeParam who p off head bytes).2.host = s.host := by
  unfold State.writeParam
  refine host_answer rfl ?_
  split
  · rfl
  · refine host_answer rfl ?_
    split
    · rfl
    · rfl
    · refine host_answer rfl (host_answer rfl (host_answer rfl (host_answer rfl ?_)))
      split
      · exact host_writeHeld ..
      · exact host_writeWo ..
      · exact host_writeRw ..

theorem host_vendorRecord (s : State) (who : Requester) (op p : Nat) : (s.vendorRecord who op p).2.host = s.host := by
  unfold State.vendorRecord
  exact host_answer rfl rfl

theorem host_record (s : State) (who : Requester) (head : Nat) (r : DirRecord) : (s.record who head r).2.host = s.host := by
  unfold State.record
  extract_lets op p named
  exact host_answer rfl (host_answer (host_writeParam ..) (host_answer (host_vendorRecord ..) (host_answer rfl (host_answer rfl rfl))))

theorem host_recordHead (s : State) (head : Option Nat) (r : DirRecord) : (s.recordHead head r).2.host = s.host := by
  unfold State.recordHead
  split
  · rfl
  · exact host_answer rfl rfl

theorem host_countRecord (s : State) (who : Requester) (a : Answer) : (s.countRecord who a).host = s.host := by
  unfold State.countRecord
  extract_lets b
  exact host_ite rfl rfl

theorem host_runRecords (who : Requester) (head : Option Nat) (stop : Bool) (rs : List DirRecord) (skip : Bool) (room : Nat) (s : State) :
    (State.runRecords who head stop rs skip room s).2.host = s.host := by
  induction rs generalizing skip room s with
  | nil => rfl
  | cons r rs ih =>
    unfold State.runRecords
    have first : (if skip = true then (0, s) else s.recordHead head r).2.host = s.host := host_answer rfl (host_recordHead s head r)
    generalize (if skip = true then (0, s) else s.recordHead head r) = x at first ⊢
    obtain ⟨h, v⟩ := x
    dsimp only at first ⊢
    have second : (if skip = true then (({ status := 0x09 } : Answer), v) else v.record who h r).2.host = v.host := host_answer rfl (host_record v who h r)
    generalize (if skip = true then (({ status := 0x09 } : Answer), v) else v.record who h r) = y at second ⊢
    obtain ⟨a, w⟩ := y
    exact (ih ..).trans ((host_countRecord ..).trans (second.trans first))

theorem host_message (s : State) (who : Requester) (head : Option Nat) (limit : Nat) (msg : List Byte) :
    (s.message who head limit msg).2.host = s.host := by
  unfold State.message
  split
  · rfl
  · exact host_runRecords ..

theorem message_some (s : State) (who : Requester) (head : Option Nat) (limit : Nat) (msg : List Byte) : (s.message who head limit msg).1 ≠ [] := by
  unfold State.message
  split
  · exact nofun
  · exact nofun

/-! PARAM. -/

section

variable {s : State} {fn : FnIx} {q : QueueIx} {n : Nat} {c : HostCmd} {req : Option (List Byte)} {refused : Option Nat}

/-- R310: a request beyond its limit. -/
theorem param_tooLong (can : Canonical s) (may : MayRun s fn q n 0x02 (hasWrite (c.request req)) c) (long : c.tooLong = true) :
    Completes (.param fn q ⟨n, refused⟩ req) s fun t => Ended t fn q n 0x0004 0 ∧ t.out = s.out
      ∧ t.reg P.rejected (paramSender fn q).transport = inc64 (s.reg P.rejected (paramSender fn q).transport)
      ∧ OnlyRegs [P.rejected] s t ∧ SameStores s t ∧ t.seq = s.seq := by
  have run : paramRun fn q req refused.isSome c s = .ends 4 0 [] (s.bump64 P.rejected (paramSender fn q).transport 1) := if_pos long
  have done := hosts_commandDone (s.bump64 P.rejected (paramSender fn q).transport 1) fn q c 4 0 []
  have small : (paramSender fn q).transport.val < 2 ^ 24 := lt_of_lt_of_le (paramSender fn q).transport.isLt (by decide)
  have rejected : WritesOnly [P.rejected] s (s.bump64 P.rejected (paramSender fn q).transport 1) := .bump64 (by decide) small s 1
  exact ⟨_, congrArg Host.Outcome.next (runCommand_ends may rfl run), ended_commandDone (u := s.bump64 P.rejected (paramSender fn q).transport 1) may.1 rfl ..,
    out_commandDone_nil ..,
    (done.reg ..).trans (State.reg_bump_same ..), (rejected.trans (done.writesOnly _)).regs can.1, done.stores, done.seq⟩

variable {msg : List Byte} (may : MayRun s fn q n 0x02 (hasWrite (c.request req)) c) (short : c.tooLong = false) (read : c.request req = some msg)
  (whole : c.inline = false → msg.length = c.arg 0x28 4)
  (room : (s.message (paramSender fn q) none (min c.hostBytes 4198400) msg).1.length ≤ c.hostBytes)

include short read whole room

/-- R310: the directory answers a request. -/
theorem paramRun_eq : paramRun fn q req refused.isSome c s =
    let r := s.message (paramSender fn q) none (min c.hostBytes 4198400) msg
    if r.2.refuses fn refused.isSome = true then endWith r.2 0x0003 else .ends 0x0000 r.1.length r.1 r.2 := by
  unfold paramRun
  dsimp only
  rw [if_neg (by rw [short]; decide), read]
  dsimp only
  rw [if_neg fun h => h.2 (whole (by simpa using h.1)), if_neg (Nat.not_lt.2 room)]

include may

theorem param_refused (off : (s.hostFn fn).cfg.ats = true ∧ refused.isSome = true) :
    let r := s.message (paramSender fn q) none (min c.hostBytes 4198400) msg
    Completes (.param fn q ⟨n, refused⟩ req) s fun t =>
      Ended t fn q n 0x0003 0 ∧ t.params = r.2.params ∧ t.mem = r.2.mem ∧ t.held = r.2.held := by
  intro r
  have host : r.2.host = s.host := host_message ..
  have run : paramRun fn q req refused.isSome c s = .ends 3 0 [] r.2 := by
    rw [paramRun_eq short read whole room]
    refine if_pos ?_
    rw [State.refuses, State.hostFn, host_message, off.2, ← State.hostFn, off.1]
    rfl
  clear_value r
  have done := hosts_commandDone r.2 fn q c 3 0 []
  exact ⟨_, congrArg Host.Outcome.next (runCommand_ends may rfl run), ended_commandDone may.1 host .., done.params, done.mem,
    (congrArg State.held done :)⟩

theorem param_answered (on : (s.hostFn fn).cfg.ats = false ∨ refused = none) :
    let r := s.message (paramSender fn q) none (min c.hostBytes 4198400) msg
    Completes (.param fn q ⟨n, refused⟩ req) s fun t =>
      Ended t fn q n 0 r.1.length ∧ t.out.head? = some (.hostWrite fn c.addr r.1 c.flush) ∧ t.params = r.2.params
        ∧ t.mem = r.2.mem ∧ t.held = r.2.held := by
  intro r
  have host : r.2.host = s.host := host_message ..
  have some' := message_some s (paramSender fn q) none (min c.hostBytes 4198400) msg
  change r.1 ≠ [] at some'
  have run : paramRun fn q req refused.isSome c s = .ends 0 r.1.length r.1 r.2 := by
    rw [paramRun_eq short read whole room]
    refine if_neg ?_
    rw [State.refuses, State.hostFn, host_message, ← State.hostFn]
    rcases on with off | rfl
    · rw [off]
      exact Bool.false_ne_true
    · simp
  clear_value r
  have done := hosts_commandDone r.2 fn q c 0 r.1.length r.1
  exact ⟨_, congrArg Host.Outcome.next (runCommand_ends may rfl run), ended_commandDone may.1 host .., out_commandDone _ _ _ _ _ _ some', done.params,
    done.mem, (congrArg State.held done :)⟩

end

end Sys2Proof.QueueLaws

/-! PROOF. STEP_ABORT (R46, R310). -/

namespace Sys2Proof.QueueLaws

open Sys2Proof.Machine Sys2Proof.Claims Sys2Proof.RecordLaws Sys2Proof.RestLaws Sys2Proof.StepLaws Sys2Proof.WorkLaws

/-! What may become visible of the entries in flight leaves the host's books. -/

theorem host_scatterCell (s : State) (sl k g v x : Nat) : (s.scatterCell sl k g v x).host = s.host := by
  have written : ∀ y, (s.millWrite k g v y).host = s.host := fun _ => rfl
  unfold State.scatterCell
  split
  · split
    · exact host_of_still (.condition ..)
    · split
      next r a o u _ =>
        extract_lets b d
        have counted : d.host = s.host := written r
        clear_value d
        exact host_ite counted ((host_of_still (.condition d 1)).trans counted)
  · exact written x

theorem host_applyEffect (s : State) (sl : Nat) (e : Effect) : (s.applyEffect sl e).host = s.host := by
  cases e with
  | tile => exact host_of_still (.write ..)
  | moveTile => exact host_of_still (.write ..)
  | reg => rfl
  | bump => rfl
  | orByte => rfl
  | raise => rfl
  | post ch a b p =>
    unfold State.applyEffect
    exact host_ite rfl rfl
  | scatter k g cells => exact host_foldl (f := fun s (q : Nat × Nat) => s.scatterCell sl k g q.1 q.2) (fun v q => host_scatterCell v sl k g q.1 q.2) cells s
  | flagWord => exact host_of_still (.condition ..)

theorem host_abortFlight (s : State) (sl : Nat) (f : Flight) : (s.abortFlight sl f).host = s.host := by
  unfold State.abortFlight
  exact host_ite ((host_foldl (fun v e => host_applyEffect v sl e) f.effects _).trans rfl) rfl

theorem host_abortDie (s : State) (sl : Nat) : (s.abortDie sl).host = s.host :=
  host_foldl (fun v f => host_abortFlight v sl f) (s.die sl).flight s

/-! What applies as a step ends leaves the collectives. -/

theorem colls_foldl {α : Type} {f : State → α → State} (hf : ∀ v x, (f v x).net.colls = v.net.colls) (xs : List α) (s : State) :
    (xs.foldl f s).net.colls = s.net.colls := by
  induction xs generalizing s with
  | nil => rfl
  | cons x xs ih => exact (ih _).trans (hf s x)

theorem colls_ite {c : Prop} [Decidable c] {s t u : State} (ht : t.net.colls = s.net.colls) (hu : u.net.colls = s.net.colls) :
    (if c then t else u).net.colls = s.net.colls := by
  split <;> assumption

theorem colls_of_still {s t : State} (h : Still s t) : t.net.colls = s.net.colls := (congrArg (·.net.colls) h :)

theorem colls_sendSync (s : State) (ns : Nat) : (s.sendSync ns).net.colls = s.net.colls := by
  unfold State.sendSync
  extract_lets t open' segs
  split
  extract_lets a b
  exact (congrArg Net.colls (StreamLaws.net_sendPacket b ..) :)

theorem colls_restartStream (s : State) (ns : Nat) : (s.restartStream ns).net.colls = s.net.colls := by
  unfold State.restartStream
  extract_lets e
  exact colls_ite (colls_sendSync s ns) rfl

theorem colls_setTimeState (s : State) (v : Nat) : (s.setTimeState v).net.colls = s.net.colls := by
  unfold State.setTimeState
  extract_lets old
  exact colls_ite rfl (colls_of_still (.raiseEvent (s.setVal P.timeState v) ..))

theorem colls_applyPtpRole (s : State) (old new : Nat) : (s.applyPtpRole old new).net.colls = s.net.colls := by
  unfold State.applyPtpRole
  refine colls_ite rfl ?_
  exact colls_ite (colls_setTimeState _ 2) (colls_ite (colls_setTimeState _ 0) rfl)

theorem colls_applyLlm (s : State) (n m : Nat) : (s.applyLlm n m).net.colls = s.net.colls := by
  unfold State.applyLlm
  extract_lets old bad
  exact colls_ite (colls_of_still (.raiseEvent (s.setReg P.llmMode n old) ..)) rfl

theorem colls_applyPorts (s : State) (old : Nat → Nat) : (s.applyPorts old).net.colls = s.net.colls := by
  unfold State.applyPorts
  refine colls_foldl (fun v k => colls_ite rfl ?_) _ s
  exact colls_ite (s := v) rfl rfl

theorem colls_resetRiffle (s : State) : s.resetRiffle.net.colls = s.net.colls := by
  unfold State.resetRiffle
  extract_lets a
  exact colls_foldl (f := fun (s : State) sl => s.setDie sl _) (fun _ _ => rfl) _ s

theorem colls_resetRecord (s : State) (sh : Nat) : (s.resetRecord sh).net.colls = s.net.colls := colls_ite rfl rfl

/-- R327: a held write that applies. -/
theorem colls_applyWrite (s : State) (h : HeldWrite) : (s.applyWrite h).net.colls = s.net.colls := by
  unfold State.applyWrite
  extract_lets n moved
  have stored : n.net.colls = s.net.colls := rfl
  clear_value n
  refine colls_ite ((colls_foldl (fun v e => colls_applyLlm ..) moved n).trans stored) (colls_ite ?_ (colls_ite ?_ (colls_ite ?_ (colls_ite ?_ (colls_ite ?_
    (colls_ite ?_ (colls_ite ?_ (colls_ite ?_ stored))))))))
  · exact colls_ite rfl stored
  · exact colls_ite rfl stored
  · exact colls_ite rfl (colls_ite stored stored)
  · exact (colls_applyPorts n _).trans stored
  · exact (colls_foldl (fun v ns => colls_restartStream v ns) moved n).trans stored
  · exact (colls_resetRiffle n).trans stored
  · exact (colls_foldl (fun v sh => colls_resetRecord v sh) moved n).trans stored
  · exact (colls_applyPtpRole n _ _).trans stored

theorem settleWrites_keeps (s : State) : s.settleWrites.net.colls = s.net.colls ∧ s.settleWrites.seq.opened = s.seq.opened := by
  have held : s.settleHeld.net.colls = s.net.colls ∧ s.settleHeld.seq.opened = s.seq.opened := by
    unfold State.settleHeld
    split
    · exact ⟨(colls_foldl (fun v h => colls_applyWrite v h) s.held { s with held := [] }).trans rfl, (congrArg (·.seq.opened) (Steady.applyHeldAll s) :)⟩
    · exact ⟨rfl, rfl⟩
  have staged : Still s.settleHeld s.settleWrites := .settleStaged _
  exact ⟨(colls_of_still staged).trans held.1, (congrArg (·.seq.opened) staged :).trans held.2⟩

/-! The abort. -/

/-- The state of an aborted step before it is skipped. -/
def abortedStep (s : State) (n : Nat) : State := { s with
  seq := { s.seq with opened := false, wordTaken := true, aborted := some n }
  net := { s.net with colls := [] }
  riffle := { s.riffle with checks := s.riffle.checks.filter fun k => k.stage != 0 } }

theorem abortOpen_eq (s : State) :
    s.abortOpen = ((abortedStep ((List.range 64).foldl State.abortDie s.accountAll) s.step).skipStep s.step 4 0).settleWrites := rfl

/-- R46, R157. -/
theorem abortOpen_reads (s : State) : s.abortOpen.host = s.host ∧ s.abortOpen.seq.opened = false ∧ s.abortOpen.net.colls = [] := by
  have counted : s.accountAll.host = s.host := (congrArg State.host (Accounts.accountAll s).rest :)
  have idle := (host_foldl (fun v sl => host_abortDie v sl) (List.range 64) s.accountAll).trans counted
  rw [abortOpen_eq]
  generalize (List.range 64).foldl State.abortDie s.accountAll = v at idle
  have closed : (abortedStep v s.step).host = s.host ∧ (abortedStep v s.step).seq.opened = false ∧ (abortedStep v s.step).net.colls = [] := ⟨idle, rfl, rfl⟩
  generalize abortedStep v s.step = w at closed
  obtain ⟨host, opened, colls⟩ := closed
  have skipped := (decides_skipStep w s.step 4 0).rest
  generalize w.skipStep s.step 4 0 = u at skipped
  obtain ⟨sent, open'⟩ := settleWrites_keeps u
  have concluded := (Concludes.settleWrites u).host
  exact ⟨concluded.trans ((congrArg State.host skipped :).trans host), open'.trans ((congrArg (·.seq.opened) skipped :).trans opened),
    sent.trans ((congrArg (·.net.colls) skipped :).trans colls)⟩

/-- R46, R310: STEP_ABORT. -/
theorem stepAbort_done {s : State} {fn : FnIx} {q : QueueIx} {n : Nat} {c : HostCmd} (may : MayRun s fn q n 0x21 true c) :
    Completes (.stepAbort fn q n) s fun t =>
      if s.seq.opened = true ∧ c.arg 0x20 8 = s.step then Ended t fn q n 0 0 ∧ t.seq.opened = false ∧ t.net.colls = []
      else Ended t fn q n 0 1 ∧ OnlyHost s t := by
  by_cases now : s.seq.opened = true ∧ c.arg 0x20 8 = s.step
  · have run : stepAbortRun c s = .ends 0 0 [] s.abortOpen := if_pos now
    obtain ⟨host, closed, colls⟩ := abortOpen_reads s
    generalize s.abortOpen = u at run host closed colls
    have done := hosts_commandDone u fn q c 0 0 []
    refine ⟨_, congrArg Host.Outcome.next (runCommand_ends may rfl run), ?_⟩
    dsimp only
    rw [if_pos now]
    exact ⟨ended_commandDone may.1 host .., (congrArg Seq.opened done.seq).trans closed, (congrArg (·.net.colls) done :).trans colls⟩
  · have run : stepAbortRun c s = .ends 0 1 [] s := if_neg now
    refine ⟨_, congrArg Host.Outcome.next (runCommand_ends may rfl run), ?_⟩
    dsimp only
    rw [if_neg now]
    exact ⟨ended_commandDone may.1 rfl .., (hosts_commandDone ..).only⟩

end Sys2Proof.QueueLaws

/-! PROOF. The host's commands together (R302, R306 to R310, R315, R320). -/

namespace Sys2Proof.Claims

open Sys2Proof.Machine Sys2Proof.QueueLaws

/-- Settles O47: a command of its opcode runs, ends with its status, and what its own run writes is all that changes. -/
theorem hostCommandsEndWithTheirStatusAndResult : Obligations.HostCommandsEndWithTheirStatusAndResult := by
  intro s fn q n c can
  refine ⟨fun i op named start code bad => ?malformed, hostNop_done, fun req refused may => ⟨param_tooLong can may, fun msg short read whole room =>
      ⟨param_refused may short read whole room, param_answered may short read whole room⟩⟩,
    fun us may passes loaded once places => ⟨tileWriteRaw_done may passes loaded once places,
      fun mode places sized fit => tileWriteConvert_done may passes loaded once mode places sized fit⟩,
    fun id k refused u st may one window place loaded sized units => tileRead_done may one window place loaded sized units,
    fun image may whole => tableLoad_done can may whole, stepAbort_done, fun rs may outside sized some' fit => tiermapWrite_done may outside sized some' fit,
    fun refused u st may known sized units => tiermapRead_done may known sized units,
    fun rs may passes few fit => stateWrite_done may passes few fit, fun refused u st may passes units => stateRead_done may passes units⟩
  case malformed => exact ⟨_, exec_malformed named start code bad, ended_commandDone start rfl .., (hosts_commandDone ..).only⟩

end Sys2Proof.Claims
